-- ==== Sys2Proof/Word.lean ====
section
/-! DEFINITION. The word types of the ODQ-5120: a register is 32 bits (spec/00_scope.md, Registers), a store is bytes. -/

namespace Sys2Proof

/-- A register word (00_scope.md: registers are 32 bits wide). -/
abbrev Word := BitVec 32

/-- A byte of a store or of the Pantry. -/
abbrev Byte := BitVec 8

end Sys2Proof
end

