-- ==== Sys2Proof/Syntax.lean ====
section
/-! DEFINITION. The commands of the ODQ-5120: one constructor for each row of spec/opcode_table.json, with its operands. -/

namespace Sys2Proof

/-- The access paths of R34. -/
inductive Path where
  | i3c | h0 | h1
  deriving DecidableEq, Repr

/-- The store units that load under R69 to R71 with a CRC-only check (R124, R157). -/
inductive EnvUnit where
  | drv (n : Fin 64) (half : Fin 2)
  | prb (n : Fin 16)
  | flx (n : Fin 256)
  deriving DecidableEq, Repr

/-- What every Daxka request frame carries beside its operation (R342, R343): the target node, LOCAL, ACK, TAG, the source and
destination addresses, and the VLAN identifier of its tag, when it has one. -/
structure DxHead where
  node : Fin 32
  loc : Bool
  ack : Bool
  tag : BitVec 16
  src : BitVec 48
  dst : BitVec 48
  vid : Option (BitVec 12)
  deriving DecidableEq, Repr

/-- What the work of a start-up phase found bad: channels that failed training, rows that failed self-test (R59, R62). -/
structure Failures where
  channels : BitVec 32
  rows : List (BitVec 24)
  deriving DecidableEq, Repr

/-- What the shadow of 2^20 instants found: the spare slice's residual, and the worst active slice's with its position
(R163, R165). -/
structure Residuals where
  spare : BitVec 16
  pos : Fin 16
  active : BitVec 16
  deriving DecidableEq, Repr

/-- What a Pantry transfer reports beside its data: errors corrected, retries taken, and an uncorrectable error (R290). -/
structure EccReport where
  corr : BitVec 16
  retries : Fin 5
  uncorr : Bool
  deriving DecidableEq, Repr

/-- A PTP message as its receiving port stamps it (R366, R367): source identity, domain, sequence id, the message's
time in nanoseconds (none where the message carries none), its correction field in 2^-16 ns, the receive stamp in 1/256 ns. -/
structure PtpMsg where
  clockId : BitVec 64
  portNo : BitVec 16
  dom : BitVec 8
  seqId : BitVec 16
  time : Option Int
  corr : Int
  rx : Int
  deriving DecidableEq, Repr

/-- Why the host MAC discards a frame (R340, R342). -/
inductive Discard where
  | fcs | filtered | macControl
  deriving DecidableEq, Repr

/-- What a trigger hit carries to a capture unit (R253, R254): samples of a dense source in time order, each a real
sample or I with Q, or one result word. -/
inductive Hit where
  | level (samples : List (Int × Int))
  | result (void : Bool) (state : Fin 4)
  deriving DecidableEq, Repr

/-- The commands. A constructor's row is named in LAWS.json. An operand called report tells what the sender saw of an outcome
that the module itself computes: it has no effect (log 109). -/
inductive Instr where
  -- I3C target (R36 to R57)
  | privateWrite (good : Bool) (bytes : List Byte)
  | privateRead (nbytes : Nat)
  | enthdr0
  | hdrExit
  | entdaa (addr : BitVec 7)
  | setdasa (static addr : BitVec 7)
  | setnewda (addr : BitVec 7)
  | rstdaa
  | enec
  | disec
  | setmwl (n : BitVec 16)
  | getmwl
  | setmrl (n : BitVec 16)
  | getmrl
  | getpid
  | getbcr
  | getdcr
  | getstatus
  | getmxds
  | getcaps
  | rstact (defining : BitVec 8)
  | unsupportedCcc (direct : Bool)
  | targetResetPattern
  | pwinDataWrite (v : Word)
  | pwinDataRead
  -- supply and pins
  | powerOn (straps : BitVec 4)
  | powerLoss
  | rstNAssert
  | rstNRelease (straps : BitVec 4)
  | refInValid
  | shedNAssert
  | shedNRelease
  -- register space; a page is named by its number, address / 4096
  | registerWrite (p : Path) (addr v : Word)
  | softReset (p : Path) (pg : Fin 1024) (v : Word)
  | pageLock (p : Path) (pg : Fin 1024)
  | enableSet (p : Path) (pg : Fin 1024)
  | enableClear (p : Path) (pg : Fin 1024)
  | auto (p : Path) (pg : Fin 1024)
  | forceSpare (p : Path) (pg : Fin 1024)
  | forcePrimary (p : Path) (pg : Fin 1024)
  | inhibit (p : Path) (pg : Fin 1024)
  | swrst (v : Word)
  | standAside (on : Bool)
  | release (on : Bool)
  -- stores
  | apertureWrite (p : Path) (addr v : Word)
  | loadCommit (p : Path) (q : Fin 124)
  | loadDiscard (p : Path) (q : Fin 124)
  | envCommit (p : Path) (u : EnvUnit)
  | envDiscard (p : Path) (u : EnvUnit)
  | wtCommit (p : Path) (n : Fin 16) (u : Fin 2)
  | wtDiscard (p : Path) (n : Fin 16) (u : Fin 2)
  | graphCommit (p : Path)
  | graphDiscard (p : Path)
  | vimgDataAccess (v : Option Word)
  | verify
  | verifyComplete (keyReport sigReport : Bool)
  | install
  | installComplete (ok : Bool)
  | load
  | vimgDiscard
  | seqModeWrite (q : Fin 124) (mode : Bool)
  -- shots
  | shotGo (m : Fin 8)
  | selfStart (m : Fin 8)
  | syncLine
  | shotOpen (g : Fin 8)
  | shotClose (g : Fin 8)
  | shotBoundary (g : Fin 8)
  -- microwords
  | wordSeq (q : Fin 124)
  | wordJump (q : Fin 124)
  | wordBr (q : Fin 124)
  | wordCall (q : Fin 124)
  | wordRet (q : Fin 124)
  | wordLoop (q : Fin 124)
  | wordEnd (q : Fin 124)
  | loopPush (q : Fin 124)
  | loopBreak (q : Fin 124)
  | waitExpiry (q : Fin 124)
  | decisionWaitEnd (q : Fin 124)
  | eventWaitEnd (q : Fin 124)
  | markWaitEnd (q : Fin 124)
  | waitTimeout (q : Fin 124)
  | drivePulse (q : Fin 64) (port : Fin 8)
  | addA (q : Fin 80) (port : Fin 32)
  | addB (q : Fin 80) (port : Fin 32)
  | subA (q : Fin 80) (port : Fin 32)
  | setA (q : Fin 80) (port : Fin 32)
  | zeroAcc (q : Fin 80) (port : Fin 32)
  | addSw (q : Fin 80) (port : Fin 32)
  | play (g : Fin 32) (port : Fin 8)
  | playHold (g : Fin 32) (port : Fin 8)
  | step (g : Fin 32) (port : Fin 8)
  | park (g : Fin 32) (port : Fin 8)
  | swr (q : Fin 112)
  | swp (q : Fin 112)
  | evtFire (q : Fin 120)
  | markEn (m : Fin 8)
  | calwin (m : Fin 8)
  | tbusStart (m : Fin 8)
  | ringTrig (m : Fin 8)
  | windowArm (n : Fin 16)
  | probePulse (n : Fin 16)
  | branchResolve (q : Fin 124)
  | commitGateResolution (q : Fin 124)
  | segmentPlay (q : Fin 124)
  | segmentDecide (q : Fin 124)
  | segJump (q : Fin 124) (target : BitVec 12)
  | segStop (q : Fin 124)
  -- timed items at their receivers; outputs 0-63 are DRV, 64-79 PRB
  | portActionDue (out : Fin 80) (tone : Fin 34)
  | fluxActionDue (o : Fin 256)
  | windowArmDue (d : Fin 512)
  | windowClose (d : Fin 512) (lead raw : List (BitVec 12))
  | resultDue (d : Fin 512)
  | armCopyDue (d : Fin 512)
  | frameUpdateDue
  | broadcastDue (c : Fin 64)
  | markDue (g : Fin 8)
  | taskActivation (i : Fin 192)
  | refillData (out : Fin 80) (strm : Fin 8) (samples : Nat)
  | refillUnderrun (out : Fin 80) (strm : Fin 8) (report : Nat)
  -- converters; outputs 80-335 are FLX0-FLX255
  | mute (out : Fin 80) (on : Bool)
  | parkNow (o : Fin 256) (on : Bool)
  | toneVerify (out : Fin 80) (tone : Fin 34) (mismatch : Bool)
  | dacFault (out : Fin 336)
  | adcFault (n : Fin 16)
  | rampDone (o : Fin 256)
  | parkHandover (o : Fin 256)
  | pdClr (o : Fin 256)
  | shadowStep (n : Fin 16) (resid : Residuals) (ofs gain skew : BitVec 16)
  | handover (n : Fin 16)
  -- Ladle and router
  | slotBindWrite (v : Word)
  | slotCfgWrite (v : Word)
  | clrEntries
  | clrLost
  | dchWrite (idx : Fin 256) (v : Word)
  | resend
  | tableParity (channel : Bool) (idx : Fin 512)
  | evtFireWrite (k : Fin 4) (v : Word)
  | lineDisWrite (k : Fin 4) (v : Word)
  -- Mortar
  | detectionInputDue (slot : Fin 512)
  | roundClose
  | decodeWindowComplete
  | windowOutputIssue (largest slack : Nat) (abandoned : List (Nat × Nat))
  | testDecode (t : Fin 17) (ok : Bool)
  | tileParity (t : Fin 17)
  | graphParity
  -- capture
  | arm (u : Fin 8)
  | abort (u : Fin 8)
  | clrCnt (u : Fin 8)
  | triggerSample (u : Fin 8)
  | hitDue (u : Fin 8) (src : BitVec 48) (h : Hit)
  | sourceItem (u : Fin 8) (src : BitVec 48) (bytes : List Byte)
  | preFilled (u : Fin 8)
  | captureComplete (u : Fin 8)
  | recordRelease (u : Fin 8)
  | recordSend (u : Fin 8)
  | egrEnable (u : Fin 8)
  -- Pantry
  | portAdmit
  | portRelease
  | mapWrite (k : Fin 9) (v : Word)
  | pantryRequest (port : Fin 97) (addr : BitVec 35) (write : Option (List Byte))
  | escalation (id : Nat)
  | deadlineMiss (id : Nat)
  | bankRefresh (ch : Fin 32) (postponed : Bool)
  | retrainSlot (ch : Fin 32) (margin : BitVec 16) (temp : BitVec 8) (full : Bool)
  | retirementStart (ch : Fin 32)
  | evacuationDone (ch : Fin 32)
  | channelLoss (ch : Fin 32)
  -- lanes
  | slip (n : Fin 20)
  | restart (n : Fin 20)
  | prbsClr (n : Fin 20)
  | los (n : Fin 20)
  | signalReturn (n : Fin 20)
  | rxReady (n : Fin 20) (snr : BitVec 16)
  | prbsLock (n : Fin 20)
  | prbsUnlock (n : Fin 20) (bits errs : Nat)
  | lockAcquire (n : Fin 20)
  | lockLoss (n : Fin 20)
  | autoAlignSlip (n : Fin 20)
  | swapStart (n : Fin 20)
  | swapReq (port lane : Fin 4)
  | swapReqAbrupt (port lane : Fin 4)
  | swapReady (port : Fin 4)
  | swapAbort (port : Fin 4) (cause : Fin 4)
  | swapSwitch (port : Fin 4)
  | swapTimeout (port : Fin 4) (skew : Bool)
  | laneFail (n : Fin 20)
  | abruptSwitch (port : Fin 4)
  -- ring; ports are 0 EAST, 1 WEST; a flit arrives with its 256 bits
  | laneFrame (r : Fin 2) (w : BitVec 128)
  | decisionFlit (r : Fin 2) (f : BitVec 256)
  | syndromeEvents (r : Fin 2) (f : BitVec 256)
  | syndromeCorrections (r : Fin 2) (f : BitVec 256)
  | triggerFlit (r : Fin 2) (f : BitVec 256)
  | lossFlit (r : Fin 2) (f : BitVec 256)
  | bulkFlit (r : Fin 2) (f : BitVec 256)
  | idleFlit (r : Fin 2) (f : BitVec 256)
  | flitSend (r : Fin 2) (report : Bool)
  | replayTimeout (r : Fin 2)
  | graceExpiry (r : Fin 2)
  -- host ports
  | regWrite (h : Fin 2) (hd : DxHead) (addr : Word) (bytes : List Byte)
  | regRead (h : Fin 2) (hd : DxHead) (addr : Word) (len : Nat)
  | storeWrite (h : Fin 2) (hd : DxHead) (space : BitVec 8) (index : BitVec 16) (off : Word) (bytes : List Byte)
  | storeCommit (h : Fin 2) (hd : DxHead) (space : BitVec 8) (index : BitVec 16) (bytes : List Byte)
  | storeDiscard (h : Fin 2) (hd : DxHead) (space : BitVec 8) (index : BitVec 16)
  | storeRead (h : Fin 2) (hd : DxHead) (space : BitVec 8) (index : BitVec 16) (off : Word) (len : Nat)
  | pantryWrite (h : Fin 2) (hd : DxHead) (addr : BitVec 64) (bytes : List Byte)
  | pantryRead (h : Fin 2) (hd : DxHead) (addr : BitVec 64) (len : Nat)
  | moduleOnlyFrame (h : Fin 2) (op : BitVec 8)
  | credit (h : Fin 2)
  | unreach (h : Fin 2) (msgid : BitVec 8)
  | arpRequest (h : Fin 2) (src : BitVec 48) (ip : Word)
  | neighbourSolicitation (h : Fin 2) (src : BitVec 48) (ip : BitVec 128)
  | hostModeWrite (h : Fin 2) (mode : BitVec 2)
  | linkFail (h : Fin 2)
  -- PTP
  | ptpSync (h : Fin 2) (m : PtpMsg) (twoStep : Bool)
  | followUp (h : Fin 2) (m : PtpMsg)
  | delayReq (h : Fin 2) (m : PtpMsg)
  | delayResp (h : Fin 2) (m : PtpMsg)
  | pdelayReq (h : Fin 2) (m : PtpMsg)
  | pdelayResp (h : Fin 2) (m : PtpMsg)
  | pdelayRespFollowUp (h : Fin 2) (m : PtpMsg)
  | announce (h : Fin 2) (bytes : List Byte)
  | signaling (h : Fin 2) (bytes : List Byte)
  | management (h : Fin 2) (bytes : List Byte)
  | syncInterval (h : Fin 2)
  | delayReqInterval (h : Fin 2) (tx : Int)
  | announceInterval (h : Fin 2)
  | syncTimeout (src : Fin 3)
  | rxqPop (h : Fin 2)
  -- time on the ring; a TIME flit with the stamp of its arrival in 2^-16 ns
  | ringSync (r : Fin 2) (f : BitVec 256) (rx : Int)
  | ringDelayReq (r : Fin 2) (f : BitVec 256) (rx : Int)
  | ringDelayResp (r : Fin 2) (f : BitVec 256) (rx : Int)
  | ringPdelayReq (r : Fin 2) (f : BitVec 256) (rx : Int)
  | ringPdelayResp (r : Fin 2) (f : BitVec 256) (rx : Int)
  | ringSyncInterval
  | ringPdelayInterval
  -- time
  | align
  | syncEdge (offset : Int) (report : Bool)
  | syncAbsent
  | refLoss
  | refReturn
  | mtStep
  | incCommit (p : Path) (hi : Word)
  | servoRst
  | servoOfs (v : Word)
  | mtRead (p : Path)
  | tsuRead (p : Path) (k : Fin 8)
  | cmpFire (k : Fin 4)
  | tbusCycle (lines : BitVec 8) (hold : Bool)
  | holdStuck
  -- check-value units; a slot is 16 * engine + slot
  | ctxCfgWrite (slot : Fin 64) (v : Word)
  | ctxData (slot : Fin 64) (v : Word)
  | crcWindowWrite (eng : Fin 4) (v : Word)
  | ctxValWrite (slot : Fin 64) (v : Word)
  -- calibration
  | submit (k : Fin 16)
  | clear (k : Fin 16)
  | cancel (k : Fin 16)
  | calSegmentDone (r0 r1 : Word) (qual : BitVec 16)
  | attemptTimeout (k : Fin 16)
  | backgroundPassDone (k : Fin 16) (r0 r1 : Word) (qual : BitVec 16)
  | referenceCheck (resid : BitVec 16)
  -- monitor converter; a raw code is 18 bits
  | conversion (raw : BitVec 18)
  | housekeepingConversion (raw : BitVec 18)
  | urgentConversion (k : Fin 4) (raw : BitVec 18)
  | zero
  | full
  | scalMeasureDone (mean : BitVec 18)
  -- thermal and power; readings are signed 1/16 degC, one for each site
  | trivetUpdate (readings : List Int)
  | diodeCrosscheck (site : Fin 24) (prim spare : BitVec 16)
  | freezeTimeout
  | throttleUp
  | throttleDown
  | shutdownExit
  | phaseFail (d : Fin 48)
  | domainTrip (d : Fin 48)
  | shedDwell
  | shedHold
  | shedWait (g : Fin 8)
  | vinThreshold (mv : BitVec 16)
  | brownoutRestart
  | overVoltage
  -- health and spares
  | hmClear (v : Word)
  | hmCfgWrite (u : Fin 32) (v : Word)
  | wearHour
  | mapClear
  | mapRead
  | logRead
  | logClear (v : Word)
  -- ends of longer actions
  | softResetDone (pg : Fin 1024)
  | targetResetDone
  | startupPhaseDone (ok : Bool) (bad : Failures)
  | ibiDelivered
  | pantryRequestDone (id : Nat) (ecc : EccReport)
  | pantryReadTimeout (h : Fin 2) (tag : BitVec 16)
  | laneSnrUpdate (n : Fin 20) (snr : BitVec 16) (eye : Word)
  | inputQuiet (n : Fin 16) (below : Nat)
  | inputOverrange (n : Fin 16)
  | badOpRequest (h : Fin 2) (hd : DxHead) (op : BitVec 8) (addr : BitVec 64)
  | hostFrameDiscard (h : Fin 2) (why : Discard)
  | hmInterval (u : Fin 32) (v : Word)
  deriving DecidableEq, Repr

end Sys2Proof
end

