-- ==== Sys2Proof/Config.lean ====
section
/-! DEFINITION. What an implementation fixes and the spec leaves open. Every constant here is opaque: no statement can
depend on its value. -/

namespace Sys2Proof.Config

/-- A free value: an unconstrained number, a fresh one for each count (log 9). -/
opaque free : Nat → Nat

/-- The rounding of a cosine and a sine of a 32-bit phase to 18 bits, which R120 and R171 leave open: modulo 3, 0 is one unit
below the nearest value, 1 the nearest, 2 one unit above (log 10). -/
opaque cosErr : BitVec 32 → Nat
opaque sinErr : BitVec 32 → Nat

/-- The SRAM row that holds a store address: 4,096 × macro + row. The spec does not map stores to macros (log 13). -/
opaque sramRow : Nat → Nat

/-- The page of the block that holds an SRAM macro; the spec does not map macros to blocks (log 13). -/
opaque macroPage : Nat → Nat

/-- How far a cluster grows along an edge in one step beyond a length of 1: R230 says that clusters grow in steps, and not of
what length (log 14). -/
opaque growStep : Nat

/-- How the blocks of a retired channel are dealt out to the live ones, as the code of a permutation of them: from the retired
channel and the deal. R291 fixes only that the move is one-to-one (log 20). -/
opaque pantryDeal : Nat → Nat → Nat

/-- A byte of the Pantry that nothing has written since its contents became undefined (R56): from the count of such losses
and the byte's place (log 7). -/
opaque pantryFill : Nat → Nat → BitVec 8

/-- The bits that a locked pattern checker finds wrong in a tick: they come from the lane (R307, log 104). -/
opaque laneErrs : Nat → BitVec 48 → Nat

/-- The history, its latest bit first, that a lane's generator starts a pattern from: R306 gives no seed (log 82). -/
opaque patSeed : Nat → List Bool

/-- Is a spare lane with some errors in its compared bits good enough to be put in service? R309 names no limit
(log 104). -/
opaque spareFit : Nat → Nat → Bool

/-- The transport that PTP_CFG.TRANSPORT = 3 stands for: it is reserved (log 17). -/
opaque transport3 : Nat

/-- What a host port's FEC did in a tick, modulo 3: nothing, a codeword corrected, a codeword not correctable; it comes from
the lanes (R351, log 104). -/
opaque fecAt : Nat → BitVec 48 → Nat

/-- The frequency error of REF_IN at a tick, in ppb: what the PLL measures comes from outside (R380, log 19). -/
opaque refError : BitVec 48 → BitVec 16

/-- How many MB of a channel have been evacuated at a tick (R292): it goes on in channel time that no rule fixes (log 20). -/
opaque evacMb : BitVec 48 → Nat

/-- The vendor image in NVM slot A at manufacture (R1, R100): its contents are published with each version, not in the
spec (log 6). -/
opaque factoryImage : List (Nat × BitVec 8)

/-- The SHA-384 hash of a public key equals the fused key hash (R101): the hash is fused per module (log 6). -/
opaque keyOk : List (Nat × BitVec 8) → Bool

/-- The ECDSA P-384 signature of an image verifies over its bytes (R100, R101; log 6). -/
opaque sigOk : List (Nat × BitVec 8) → Bool

/-- The Trivet node nearest a die sensor site: R425 places sites 0 to 19 beside their domains' hottest blocks without
saying which domains (log 26). -/
opaque siteNode : Nat → Nat

/-- The sensor site nearest a node (R427), likewise (log 26). -/
opaque nearSite : Nat → Nat

/-- What the interpolator gives between the instants of envelope samples: from the factor M, the pulse's samples and the
offset from its start in 1/256 RF sample. R125 bounds its response and fixes no coefficient (log 11). -/
opaque interp : Nat → List (Int × Int) → Nat → Int × Int

/-- The combined filter of sinc compensation and fractional line delay, from SINC, FINE, the stream it filters and a position
of it: R128 and R132 bound its response and fix no tap (log 11). -/
opaque outFilter : Nat → Nat → (Int → Int) → Int → Int

/-- Whether a slice's gain acts before its offset is added: R162 names both corrections and not their order (log 12). -/
opaque gainFirst : Bool

/-- Whether a corrected code that is no integer goes to the next integer above, from the raw code, SLC_OFS and SLC_GAIN
(log 12). -/
opaque sliceUp : Int → Int → Nat → Bool

/-- The taps of the Colander's prototype filter by their distance from its centre, which makes it linear-phase: R167 bounds the
response and fixes no tap (log 68). -/
opaque tap : Nat → Int

/-- Whether a component of a channel sample that is no integer goes to the next integer above, from its numerator and its
denominator (log 68). -/
opaque colanderUp : Int → Int → Bool

/-- The word after the last one of a control store, 0x1FFF: R73 and R89 name W + 1, which no word has (log 88). -/
opaque afterLast : Nat

/-- PG_REV of a kind of page, by its type code (log 6). -/
opaque pgRev : Nat → Nat

/-- SYS.PART.STEPPING (log 6). -/
opaque stepping : Nat

/-- The module's serial number (log 6). -/
opaque serial : Nat

/-- The MIPI manufacturer ID in PID[47:33] (log 6). -/
opaque mipiId : Nat

/-- The code of a sample that a calibration routine plays on an output, by output number and sample; the waveforms are the
vendor's (R392, log 105). -/
opaque calCode : Nat → Nat → BitVec 16

end Sys2Proof.Config
end

