-- ==== Sys2Proof/Machine/Operands.lean ====
section
/-! DEFINITION. Operand forms: bit fields of words, signed values, saturation and rounding. -/

namespace Sys2Proof.Machine

/-- Field [hi:lo] of a number. -/
def nbits (x hi lo : Nat) : Nat := (x / 2 ^ lo) % 2 ^ (hi + 1 - lo)

/-- Bit i of a number. -/
def nbit (x i : Nat) : Bool := decide ((x / 2 ^ i) % 2 = 1)

/-- Field [hi:lo] of a register word. -/
def fget (w : Word) (hi lo : Nat) : Nat := nbits w.toNat hi lo

/-- Bit i of a register word. -/
def wbit (w : Word) (i : Nat) : Bool := nbit w.toNat i

/-- The mask of [hi:lo]. -/
def fmask (hi lo : Nat) : Word := BitVec.ofNat 32 ((2 ^ (hi + 1 - lo) - 1) * 2 ^ lo)

/-- A register word with field [hi:lo] set. -/
def fput (w : Word) (hi lo v : Nat) : Word :=
  (w &&& ~~~(fmask hi lo)) ||| BitVec.ofNat 32 (v % 2 ^ (hi + 1 - lo) * 2 ^ lo)

/-- One bit as a number. -/
def b2n (b : Bool) : Nat := if b then 1 else 0

/-- The signed value of the low w bits of a number. -/
def sx (w x : Nat) : Int :=
  let y := x % 2 ^ w
  if y < 2 ^ (w - 1) then (y : Int) else (y : Int) - (2 ^ w : Nat)

/-- The low w bits of an integer, as a number. -/
def ux (w : Nat) (x : Int) : Nat := (x % (2 ^ w : Nat)).toNat

/-- Saturate to w signed bits. -/
def satS (w : Nat) (x : Int) : Int := max (-(2 ^ (w - 1) : Nat)) (min ((2 ^ (w - 1) : Nat) - 1) x)

/-- Clamp to [lo, hi]. -/
def clampI (lo hi x : Int) : Int := max lo (min hi x)

/-- Round x / 2^n to the nearest, halves toward plus infinity. -/
def rndShr (x : Int) (n : Nat) : Int := if n = 0 then x else (x + (2 ^ (n - 1) : Nat)) / (2 ^ n : Nat)

/-- Round x / 2^n to the nearest, halves away from zero. -/
def rndAway (x : Int) (n : Nat) : Int :=
  if n = 0 then x
  else if 0 ≤ x then (x + (2 ^ (n - 1) : Nat)) / (2 ^ n : Nat) else -((-x + (2 ^ (n - 1) : Nat)) / (2 ^ n : Nat))

/-- Round x / 2^n to the nearest, halves to even. -/
def rndEven (x : Int) (n : Nat) : Int :=
  if n = 0 then x
  else
    let q := x / (2 ^ n : Nat)
    let r := x % (2 ^ n : Nat)
    let h : Int := (2 ^ (n - 1) : Nat)
    if r < h then q else if h < r then q + 1 else if q % 2 = 0 then q else q + 1

/-! ## Cosine and sine (R120, R171) -/

/-- A phase of 32 bits as an angle between -π and π, in units of 2^-60: the number in it is π in those units. -/
def angleQ (th : BitVec 32) : Int := th.toInt * 3622009729038561421 / 2 ^ 31

/-- k terms of the power series of a cosine or a sine from the term of a power n on, in units of 2^-60. -/
def trigSum (x : Int) : Nat → Nat → Int → Int
  | 0, _, _ => 0
  | k + 1, n, term => term + trigSum x k (n + 2) (-(term * x / 2 ^ 60 * x / 2 ^ 60) / ((n + 1) * (n + 2) : Nat))

/-- Cosine and sine of a phase in units of 2^-60. -/
def cosQ (th : BitVec 32) : Int := trigSum (angleQ th) 24 0 (2 ^ 60)
def sinQ (th : BitVec 32) : Int := trigSum (angleQ th) 24 1 (angleQ th)

/-- Cosine and sine to 18 bits, in units of 2^-17 (R120, R171): within a unit of the nearest (log 10). -/
def cos18 (th : BitVec 32) : Int := rndAway (cosQ th) 43 + ((Config.cosErr th % 3 : Nat) : Int) - 1
def sin18 (th : BitVec 32) : Int := rndAway (sinQ th) 43 + ((Config.sinErr th % 3 : Nat) : Int) - 1

/-- d of R16: the signed 16-bit difference of a due stamp and TC[15:0]. -/
def dueIn (stamp : BitVec 16) (tc : BitVec 48) : Int := (stamp - tc.setWidth 16).toInt

/-- The low 16 bits of a tick count, the stamp of an item due then (R16). -/
def stampOf (t : BitVec 48) : BitVec 16 := t.setWidth 16

/-- Ticks from one tick count to another, signed. -/
def ticksTo (a b : BitVec 48) : Int := (b - a).toInt

/-- The later of two ticks. -/
def laterTick (a b : BitVec 48) : BitVec 48 := if 0 ≤ ticksTo a b then b else a

/-- What stood at a tick, from what stands now and what stood before each change, newest first: the tick from which the
change holds, and the value it ended. -/
def stoodAt {α : Type} (cur : α) : List (BitVec 48 × α) → BitVec 48 → α
  | [], _ => cur
  | (t, was) :: older, d => if ticksTo t d < 0 then stoodAt was older d else cur

/-- Even parity of the low w bits: true when the number of ones is odd. -/
def oddOnes : Nat → Nat → Bool
  | 0, _ => false
  | w + 1, x => xor (nbit x 0) (oddOnes w (x / 2))

end Sys2Proof.Machine
end

