-- ==== Sys2Proof/Machine/RegTable.lean ====
section
/-! DEFINITION. The register map (R54, R56 and each chapter's register tables): pages, and for every register its
place, the access of its bits under R5, which of them are shadowed under R22, and its reset value. -/

namespace Sys2Proof.Machine

/-- The kinds of page of R54. -/
inductive PT where
  | sys | mgmt | pwr | therm | nvm | health | spare | monadc | time | tbus | evt | crc | cal
  | seq | drv | prb | rdi | flx | ladle | mortar | tile | cap | pantry | pch | lane | ring | host
  deriving DecidableEq, Repr

/-- The type code of PG_ID (R54). -/
def ptCode : PT → Nat
  | .sys => 0x01 | .mgmt => 0x02 | .pwr => 0x03 | .therm => 0x04 | .nvm => 0x05 | .health => 0x06 | .spare => 0x07
  | .monadc => 0x08 | .time => 0x09 | .tbus => 0x0A | .evt => 0x0B | .crc => 0x0C | .cal => 0x0D | .seq => 0x10
  | .drv => 0x11 | .prb => 0x12 | .rdi => 0x13 | .flx => 0x14 | .ladle => 0x15 | .mortar => 0x16 | .tile => 0x17
  | .cap => 0x18 | .pantry => 0x19 | .pch => 0x1A | .lane => 0x1B | .ring => 0x1C | .host => 0x1D

/-- The first page number of each kind: its base address divided by 4,096 (R54). -/
def ptBase : PT → Nat
  | .sys => 0 | .mgmt => 1 | .pwr => 2 | .therm => 3 | .nvm => 4 | .health => 5 | .spare => 6 | .monadc => 7
  | .time => 8 | .tbus => 9 | .evt => 0xA | .crc => 0xB | .cal => 0xC | .seq => 0x10 | .prb => 0x110 | .rdi => 0x120
  | .ladle => 0x140 | .mortar => 0x141 | .cap => 0x150 | .pantry => 0x160 | .ring => 0x180 | .host => 0x182
  | .drv => 0x200 | .flx => 0x240 | .tile => 0x260 | .pch => 0x280 | .lane => 0x2A0

/-- The kind and instance of a page number (R54). -/
def pageOf (pg : Nat) : Option (PT × Nat) :=
  if pg < 0x10 then
    match pg with
    | 0 => some (.sys, 0) | 1 => some (.mgmt, 0) | 2 => some (.pwr, 0) | 3 => some (.therm, 0) | 4 => some (.nvm, 0)
    | 5 => some (.health, 0) | 6 => some (.spare, 0) | 7 => some (.monadc, 0) | 8 => some (.time, 0)
    | 9 => some (.tbus, 0) | 10 => some (.evt, 0) | 11 => some (.crc, 0) | 12 => some (.cal, 0) | _ => none
  else if pg < 0x8C then some (.seq, pg - 0x10)
  else if pg < 0x110 then none
  else if pg < 0x120 then some (.prb, pg - 0x110)
  else if pg < 0x130 then some (.rdi, pg - 0x120)
  else if pg = 0x140 then some (.ladle, 0)
  else if pg = 0x141 then some (.mortar, 0)
  else if pg < 0x150 then none
  else if pg < 0x158 then some (.cap, pg - 0x150)
  else if pg = 0x160 then some (.pantry, 0)
  else if pg < 0x180 then none
  else if pg < 0x182 then some (.ring, pg - 0x180)
  else if pg < 0x184 then some (.host, pg - 0x182)
  else if pg < 0x200 then none
  else if pg < 0x240 then some (.drv, pg - 0x200)
  else if pg < 0x260 then some (.flx, pg - 0x240)
  else if pg < 0x271 then some (.tile, pg - 0x260)
  else if pg < 0x280 then none
  else if pg < 0x2A0 then some (.pch, pg - 0x280)
  else if pg < 0x2B4 then some (.lane, pg - 0x2A0)
  else none

/-- The 349 pages in rising order of address (R54). -/
def allPages : List Nat :=
  List.range' 0 13 ++ List.range' 0x10 124 ++ List.range' 0x110 16 ++ List.range' 0x120 16 ++ [0x140, 0x141] ++
  List.range' 0x150 8 ++ [0x160] ++ List.range' 0x180 4 ++ List.range' 0x200 64 ++ List.range' 0x240 32 ++
  List.range' 0x260 17 ++ List.range' 0x280 32 ++ List.range' 0x2A0 20

/-- The start-up phase at whose end a page is up (R63). -/
def upPhase : PT → Nat
  | .sys | .mgmt | .pwr | .therm | .nvm | .monadc | .crc => 1
  | .health | .spare => 2
  | .time => 3
  | .seq | .drv | .prb | .rdi | .flx | .ladle | .mortar | .tile | .evt | .tbus | .cap | .cal => 4
  | .pantry | .pch => 5
  | .lane | .ring | .host => 6

/-- The pages whose ENABLE reads 1 and ignores writes (PG_CTRL.ENABLE). -/
def alwaysEnabled : PT → Bool
  | .sys | .mgmt | .pwr | .therm | .nvm | .health | .spare | .monadc | .pantry | .pch | .lane => true
  | _ => false

/-- One register, or a two-level array of them: the offset of the first, strides and counts, the masks of its RW,
RWL, W1C and WO bits (the rest are RO or reserved), the mask of its shadowed bits, and its reset value. -/
structure RegRow where
  off : Nat
  s1 : Nat := 0
  n1 : Nat := 1
  s2 : Nat := 0
  n2 : Nat := 1
  rw : Word := 0
  rwl : Word := 0
  w1c : Word := 0
  wo : Word := 0
  sh : Word := 0
  rst : Word := 0
  deriving DecidableEq, Repr

/-- The place of `y` in an array of `n` with stride `st`: the index and what is left over. -/
def arrPos (st n y : Nat) : Option (Nat × Nat) :=
  if st = 0 then some (0, y) else if y / st < n then some (y / st, y % st) else none

/-- Does the row hold the register at an offset? -/
def rowHit (r : RegRow) (off : Nat) : Bool :=
  decide (r.off ≤ off) &&
  match arrPos r.s1 r.n1 (off - r.off) with
  | none => false
  | some (_, y) =>
    match arrPos r.s2 r.n2 y with
    | none => false
    | some (_, z) => decide (z = 0)

/-- The common block of every page at 0x000 to 0x020. PG_CTRL is written by its own rule. -/
def commonRows : List RegRow := [
  { off := 0x000 },  -- PG_ID
  { off := 0x004 },  -- PG_REV
  { off := 0x008, rw := 0xF01, wo := 0x2 },  -- PG_CTRL
  { off := 0x00C },  -- PG_STAT
  { off := 0x010, w1c := 0xFFFFFFFF },  -- PG_EVT
  { off := 0x014, rw := 0xFFFFFFFF },  -- PG_EVT_EN
  { off := 0x018, w1c := 0xFFFFFFFF },  -- PG_FAULT
  { off := 0x01C, rw := 0xFFFFFFFF },  -- PG_FAULT_EN
  { off := 0x020 }]  -- PG_SPARE

/-- The registers of the SYS page (R56): offset, strides and counts, fields by access, reset. -/
def sysRows : List RegRow := [
  { off := 0x040, rst := 0x51200000 },  -- PART
  { off := 0x044 },  -- SERIAL_LO
  { off := 0x048 },  -- SERIAL_HI
  { off := 0x04C, w1c := 0x8000000, rst := 0x1 },  -- BOOT
  { off := 0x050, w1c := 0x3F, rst := 0x1 },  -- RESET_CAUSE
  { off := 0x054, wo := 0xFFFFFFFF },  -- SWRST
  { off := 0x058, rst := 0x40000000 },  -- VENDOR_SET
  { off := 0x05C, rw := 0x3, rst := 0x100 },  -- BYPASS
  { off := 0x060, rst := 0xFFFFFFFF },  -- PEND_FIRST
  { off := 0x064 }]  -- PEND_COUNT

/-- The registers of the MGMT page (R57): offset, strides and counts, fields by access, reset. -/
def mgmtRows : List RegRow := [
  { off := 0x040, w1c := 0x7F },  -- I3C_STAT
  { off := 0x048 },  -- I3C_PID_LO
  { off := 0x04C },  -- I3C_PID_HI
  { off := 0x050 },  -- PINS
  { off := 0x060, rw := 0xFFFFFFFC },  -- PWIN_ADDR_LO
  { off := 0x064, rw := 0x7 },  -- PWIN_ADDR_HI
  { off := 0x068, rw := 0xFFFFFFFF },  -- PWIN_DATA
  { off := 0x06C, rw := 0x1, w1c := 0x4, rst := 0x1 }]  -- PWIN_STAT

/-- The registers of the SEQ page (R104): offset, strides and counts, fields by access, reset. -/
def seqRows : List RegRow := [
  { off := 0x040, rw := 0xF010100, sh := 0x100, rst := 0xF00FE00 },  -- SEQ_CFG
  { off := 0x044, rw := 0x1FFF, sh := 0x1FFF },  -- ENTRY
  { off := 0x048 },  -- SEQ_STAT
  { off := 0x04C },  -- LOAD_STAT
  { off := 0x050, rw := 0xFFFFFFFF },  -- LOAD_CRC
  { off := 0x054, wo := 0xFFFFFFFF },  -- LOAD_CTRL
  { off := 0x058 },  -- MCHK
  { off := 0x05C },  -- VENDOR_VER
  { off := 0x060, s1 := 0x4, n1 := 7, rw := 0xFFFFFF, sh := 0xFFFFFF },  -- LCOUNT
  { off := 0x07C, rw := 0xFFFFFF, sh := 0xFFFFFF },  -- WAIT_LIMIT
  { off := 0x080, rw := 0xFFFFFFFF },  -- BR_CNT
  { off := 0x084, rw := 0xFFFF },  -- GO_STAT
  { off := 0x088, rw := 0xFFF1FFF, sh := 0x1FFF },  -- SEG_CFG
  { off := 0x08C, wo := 0xFFFFFFFF },  -- SEG_JUMP
  { off := 0x090 },  -- SEG_STAT
  { off := 0x094, rw := 0xFFFFFFFF },  -- SEG_CNT
  { off := 0x0A0, rw := 0x3F07, sh := 0x3F07 },  -- START_SRC
  { off := 0x0A4, rw := 0xFFFFFFFF, sh := 0xFFFFFFFF },  -- REP_INTERVAL
  { off := 0x0A8, rw := 0xFFFF, rst := 0x18 },  -- TRIG_LEAD
  { off := 0x0AC, wo := 0xFFFFFFFF },  -- SHOT_GO
  { off := 0x0B0 },  -- SHOT_CNT_LO
  { off := 0x0B4 },  -- SHOT_CNT_HI
  { off := 0x0B8, w1c := 0xFF00 }]  -- SHOT_TAG

/-- The registers of the DRV page (R141): offset, strides and counts, fields by access, reset. -/
def drvRows : List RegRow := [
  { off := 0x040, rw := 0x7, sh := 0x6, rst := 0x2 },  -- OUT_CFG
  { off := 0x044, rw := 0xFFFF, sh := 0xFFFF, rst := 0x8000 },  -- OUT_GAIN
  { off := 0x048, rw := 0xFFFFFF, sh := 0xFFFFFF },  -- LINE_DELAY
  { off := 0x04C, rw := 0xFFFFFFFF },  -- SAT_CNT
  { off := 0x050, rw := 0xFFFFFF },  -- REFILL_STAT
  { off := 0x054, rst := 0x1F1F },  -- TSPARE
  { off := 0x058, rw := 0xFFFFFFFF },  -- OVL_CNT
  { off := 0x05C, rw := 0xFFFF },  -- TCHK
  { off := 0x060, s1 := 0x4, n1 := 8, rw := 0xFFFFF, sh := 0xFFFFF },  -- TSET
  { off := 0x080, s1 := 0x80, n1 := 9, rw := 0xFFFFFFFF, sh := 0xFFFFFFFF },  -- T.FREQ_LO
  { off := 0x084, s1 := 0x80, n1 := 9, rw := 0xFFFF, sh := 0xFFFF },  -- T.FREQ_HI
  { off := 0x088, s1 := 0x80, n1 := 9, rw := 0xFFFFFFFF, sh := 0xFFFFFFFF },  -- T.OFS_INIT
  { off := 0x08C, s1 := 0x80, n1 := 9, rw := 0xFFFFFFFF, sh := 0xFFFFFFFF },  -- T.PHASE_A
  { off := 0x090, s1 := 0x80, n1 := 9, rw := 0xFFFFFFFF, sh := 0xFFFFFFFF },  -- T.PHASE_B
  { off := 0x094, s1 := 0x80, n1 := 9, rw := 0xFFFFFFFF, sh := 0xFFFFFFFF },  -- T.PSW_START
  { off := 0x098, s1 := 0x80, n1 := 9, rw := 0xFFFFFFFF, sh := 0xFFFFFFFF },  -- T.PSW_STEP
  { off := 0x09C, s1 := 0x80, n1 := 9, rw := 0xFFFFFFFF, sh := 0xFFFFFFFF },  -- T.ASW
  { off := 0x0A0, s1 := 0x80, n1 := 9, rw := 0x3, sh := 0x3, rst := 0x3 },  -- T.TONE_CFG
  { off := 0x0A4, s1 := 0x80, n1 := 9 },  -- T.PHASE_NOW
  { off := 0x0A8, s1 := 0x80, n1 := 9 },  -- T.ASW_NOW
  { off := 0x0AC, s1 := 0x80, n1 := 9 },  -- T.PSW_NOW
  { off := 0x0C0, s1 := 0x80, n1 := 9, s2 := 4, n2 := 15, rw := 0xFFFFFFFF, sh := 0xFFFFFFFF },  -- T.AMP_TBL
  { off := 0x0FC, s1 := 0x80, n1 := 9, rw := 0xFFFF, sh := 0xFFFF },  -- T.AMP_TBL15
  { off := 0x500, s1 := 0x10, n1 := 8, rw := 0xFFFFFFC0, sh := 0xFFFFFFC0 },  -- STRM_ADDR_LO
  { off := 0x504, s1 := 0x10, n1 := 8, rw := 0x7, sh := 0x7 },  -- STRM_ADDR_HI
  { off := 0x508, s1 := 0x10, n1 := 8, rw := 0x7, sh := 0x7 },  -- STRM_WIN
  { off := 0x808, s1 := 0x8, n1 := 63, rw := 0xE00FFFFF, sh := 0xE00FFFFF },  -- SLOT_BASE
  { off := 0x80C, s1 := 0x8, n1 := 63, rw := 0xFFFFFF, sh := 0xFFFFFF },  -- SLOT_LEN
  { off := 0xE00 },  -- ENV_LOAD
  { off := 0xE04, rw := 0xFFFFFFFF },  -- ENV_CRC
  { off := 0xE08, wo := 0xFFFFFFFF }]  -- ENV_CTRL

/-- The registers of the PRB page (R141): offset, strides and counts, fields by access, reset. -/
def prbRows : List RegRow := [
  { off := 0x040, rw := 0x7, sh := 0x6, rst := 0x2 },  -- OUT_CFG
  { off := 0x044, rw := 0xFFFF, sh := 0xFFFF, rst := 0x8000 },  -- OUT_GAIN
  { off := 0x048, rw := 0xFFFFFF, sh := 0xFFFFFF },  -- LINE_DELAY
  { off := 0x04C, rw := 0xFFFFFFFF },  -- SAT_CNT
  { off := 0x050, rw := 0xFFFFFF },  -- REFILL_STAT
  { off := 0x054, rst := 0x1F1F },  -- TSPARE
  { off := 0x058, rw := 0xFFFFFFFF },  -- OVL_CNT
  { off := 0x05C, rw := 0xFFFF },  -- TCHK
  { off := 0x060, s1 := 0x4, n1 := 8, rw := 0xFFFFF, sh := 0xFFFFF },  -- TSET
  { off := 0x080, s1 := 0x40, n1 := 34, rw := 0xFFFFFFFF, sh := 0xFFFFFFFF },  -- T.FREQ_LO
  { off := 0x084, s1 := 0x40, n1 := 34, rw := 0xFFFF, sh := 0xFFFF },  -- T.FREQ_HI
  { off := 0x088, s1 := 0x40, n1 := 34, rw := 0xFFFFFFFF, sh := 0xFFFFFFFF },  -- T.OFS_INIT
  { off := 0x08C, s1 := 0x40, n1 := 34, rw := 0xFFFFFFFF, sh := 0xFFFFFFFF },  -- T.PHASE_A
  { off := 0x090, s1 := 0x40, n1 := 34, rw := 0xFFFFFFFF, sh := 0xFFFFFFFF },  -- T.PHASE_B
  { off := 0x094, s1 := 0x40, n1 := 34, rw := 0xFFFFFFFF, sh := 0xFFFFFFFF },  -- T.PSW_START
  { off := 0x098, s1 := 0x40, n1 := 34, rw := 0xFFFFFFFF, sh := 0xFFFFFFFF },  -- T.PSW_STEP
  { off := 0x09C, s1 := 0x40, n1 := 34, rw := 0x3, sh := 0x3, rst := 0x3 },  -- T.TONE_CFG
  { off := 0x0A0, s1 := 0x40, n1 := 34 },  -- T.PHASE_NOW
  { off := 0x0A4, s1 := 0x40, n1 := 34 },  -- T.PSW_NOW
  { off := 0x0A8, s1 := 0x40, n1 := 34, s2 := 4, n2 := 4, rw := 0xFFFF003F, sh := 0xFFFF003F },  -- T.PROF
  { off := 0xA00, s1 := 0x10, n1 := 8, rw := 0xFFFFFFC0, sh := 0xFFFFFFC0 },  -- STRM_ADDR_LO
  { off := 0xA04, s1 := 0x10, n1 := 8, rw := 0x7, sh := 0x7 },  -- STRM_ADDR_HI
  { off := 0xA08, s1 := 0x10, n1 := 8, rw := 0x7, sh := 0x7 },  -- STRM_WIN
  { off := 0xC08, s1 := 0x8, n1 := 63, rw := 0xE00EFFFF, sh := 0xE00EFFFF },  -- SLOT_BASE
  { off := 0xC0C, s1 := 0x8, n1 := 63, rw := 0xFFFFFF, sh := 0xFFFFFF },  -- SLOT_LEN
  { off := 0xE00 },  -- ENV_LOAD
  { off := 0xE04, rw := 0xFFFFFFFF },  -- ENV_CRC
  { off := 0xE08, wo := 0xFFFFFFFF }]  -- ENV_CTRL

/-- The registers of the FLX page (R158): offset, strides and counts, fields by access, reset. -/
def flxRows : List RegRow := [
  { off := 0x040, rw := 0xFFFFFFFF, sh := 0xFFFFFFFF },  -- OVL_CNT
  { off := 0x100, s1 := 0x80, n1 := 8, rw := 0x11, sh := 0x10, rst := 0x10 },  -- O.OUT_CFG
  { off := 0x104, s1 := 0x80, n1 := 8, rw := 0xFFFF, sh := 0xFFFF },  -- O.PARK
  { off := 0x108, s1 := 0x80, n1 := 8, rw := 0xFFFF, sh := 0xFFFF, rst := 0x100 },  -- O.RAMP
  { off := 0x10C, s1 := 0x80, n1 := 8, rw := 0x1FFFFF, sh := 0x1FFFFF },  -- O.LINE_DELAY
  { off := 0x110, s1 := 0x80, n1 := 8, s2 := 4, n2 := 8, rw := 0xFFFFF, sh := 0xFFFFF },  -- O.TSET
  { off := 0x130, s1 := 0x80, n1 := 8, rw := 0xFFFFFFFF, sh := 0xFFFFFFFF },  -- O.ASW
  { off := 0x134, s1 := 0x80, n1 := 8 },  -- O.ASW_NOW
  { off := 0x138, s1 := 0x80, n1 := 8 },  -- O.LEVEL_NOW
  { off := 0x13C, s1 := 0x80, n1 := 8, rw := 0xFFFFFFFF, sh := 0xFFFFFFFF },  -- O.SAT_CNT
  { off := 0x140, s1 := 0x80, n1 := 8, s2 := 4, n2 := 15, rw := 0xFFFFFFFF, sh := 0xFFFFFFFF },  -- O.AMP_TBL
  { off := 0x17C, s1 := 0x80, n1 := 8, rw := 0xFFFF, sh := 0xFFFF },  -- O.AMP_TBL15
  { off := 0x504, s1 := 0x4, n1 := 63, rw := 0xFFFFFFFF, sh := 0xFFFFFFFF },  -- FSLOT
  { off := 0x600, s1 := 0x100, n1 := 8, s2 := 8, n2 := 8, rw := 0xFFFFFFFF, sh := 0xFFFFFFFF },  -- O.IIR_ALPHA
  { off := 0x604, s1 := 0x100, n1 := 8, s2 := 8, n2 := 8, rw := 0xFFFFFF, sh := 0xFFFFFF },  -- O.IIR_C
  { off := 0x640, s1 := 0x100, n1 := 8, rw := 0x1, wo := 0x2, sh := 0x1 },  -- O.PD_CFG
  { off := 0x680, s1 := 0x100, n1 := 8, s2 := 4, n2 := 32, rw := 0xFFFFFFFF, sh := 0xFFFFFFFF },  -- O.FIR
  { off := 0xE00 },  -- ENV_LOAD
  { off := 0xE04, rw := 0xFFFFFFFF },  -- ENV_CRC
  { off := 0xE08, wo := 0xFFFFFFFF }]  -- ENV_CTRL

/-- The registers of the RDI page (R185): offset, strides and counts, fields by access, reset. -/
def rdiRows : List RegRow := [
  { off := 0x040, rw := 0xFF07, sh := 0x1, rst := 0x2802 },  -- IN_CFG
  { off := 0x044, rw := 0xFFFF, sh := 0xFFFF },  -- WIN_DELAY
  { off := 0x048, rw := 0xFFFF0000 },  -- ROT_STAT
  { off := 0x04C, rw := 0xFFFFFFFF },  -- OVR_CNT
  { off := 0x050, rw := 0xFFFFFFFF },  -- RES_CNT
  { off := 0x054, rw := 0xFFFFFFFF },  -- ARM_CNT
  { off := 0x060, s1 := 0x4, n1 := 4 },  -- SLICE_MAP
  { off := 0x070, rw := 0xFFFF, rst := 0x400 },  -- RESID_LIM
  { off := 0x100, s1 := 0x10, n1 := 17 },  -- S.SLC_OFS
  { off := 0x104, s1 := 0x10, n1 := 17 },  -- S.SLC_GAIN
  { off := 0x108, s1 := 0x10, n1 := 17 },  -- S.SLC_SKEW
  { off := 0x10C, s1 := 0x10, n1 := 17 },  -- S.SLC_RESID
  { off := 0x400, s1 := 0x40, n1 := 32, rw := 0xFFFFFFFF, sh := 0xFFFFFFFF },  -- D.DF_LO
  { off := 0x404, s1 := 0x40, n1 := 32, rw := 0xFFFF, sh := 0xFFFF },  -- D.DF_HI
  { off := 0x408, s1 := 0x40, n1 := 32, rw := 0xFFFFFFFF, sh := 0xFFFFFFFF },  -- D.DOFS
  { off := 0x40C, s1 := 0x40, n1 := 32, rw := 0x7FFF1F3F, sh := 0x7FFF1F3F, rst := 0x20001400 },  -- D.DM_CFG
  { off := 0x410, s1 := 0x40, n1 := 32, s2 := 8, n2 := 3, rw := 0xFFFFFFFF, sh := 0xFFFFFFFF },  -- D.SV_AB
  { off := 0x414, s1 := 0x40, n1 := 32, s2 := 8, n2 := 3, rw := 0xFFFFFFFF, sh := 0xFFFFFFFF },  -- D.SV_C
  { off := 0x428, s1 := 0x40, n1 := 32, rw := 0x7FFFF, sh := 0x7FFFF },  -- D.SV_MAP
  { off := 0x42C, s1 := 0x40, n1 := 32, rw := 0xFFFFFFFF, sh := 0xFFFFFFFF },  -- D.SV_AMB
  { off := 0x430, s1 := 0x40, n1 := 32 },  -- D.RES_I
  { off := 0x434, s1 := 0x40, n1 := 32 },  -- D.RES_Q
  { off := 0x438, s1 := 0x40, n1 := 32, w1c := 0x80000000 },  -- D.RES_STAT
  { off := 0xE00 },  -- WT_LOAD
  { off := 0xE04, rw := 0xFFFFFFFF },  -- WT_CRC
  { off := 0xE08, wo := 0xFFFFFFFF }]  -- WT_CTRL

/-- The registers of the LADLE page (R211): offset, strides and counts, fields by access, reset. -/
def ladleRows : List RegRow := [
  { off := 0x040, rw := 0xFFFF },  -- LADLE_CFG
  { off := 0x044, wo := 0xFFFFFFFF },  -- LADLE_CTRL
  { off := 0x048, rw := 0x800001FF, rst := 0x80000000 },  -- SLOT_IDX
  { off := 0x04C, rw := 0x7FFFFFF },  -- SLOT_BIND
  { off := 0x050, rw := 0x8FFFC003 },  -- SLOT_CFG
  { off := 0x054, rw := 0xFFFFFFFF },  -- LADLE_CNT0
  { off := 0x058, rw := 0xFFFFFFFF },  -- LADLE_CNT1
  { off := 0x05C, rw := 0xFFFFFFFF },  -- LADLE_CNT2
  { off := 0x060 },  -- DCH_VAL_LO
  { off := 0x064 },  -- DCH_VAL_HI
  { off := 0x068 },  -- DCH_UNRES_LO
  { off := 0x06C },  -- DCH_UNRES_HI
  { off := 0x070, rst := 0xFFFFFFFF },  -- DCH_VOID_LO
  { off := 0x074, rst := 0xFFFFFFFF },  -- DCH_VOID_HI
  { off := 0x078 },  -- DCH_LOST_LO
  { off := 0x07C },  -- DCH_LOST_HI
  { off := 0x080 },  -- OBS_VAL_LO
  { off := 0x084 },  -- OBS_VAL_HI
  { off := 0x088 },  -- OBS_PEND_LO
  { off := 0x08C },  -- OBS_PEND_HI
  { off := 0x0A0, s1 := 0x4, n1 := 8, rw := 0xFF },  -- DEVT
  { off := 0x400, s1 := 0x10, n1 := 64, rw := 0x1FFFFFF },  -- C.DCH_CFG
  { off := 0x404, s1 := 0x10, n1 := 64, rw := 0x7FFFFFF },  -- C.DCH_SLOTA
  { off := 0x408, s1 := 0x10, n1 := 64, rw := 0x7FFFFFF },  -- C.DCH_SLOTB
  { off := 0x40C, s1 := 0x10, n1 := 64, rw := 0x3FFFF },  -- C.DCH_SLOTC
  { off := 0x800, s1 := 0x4, n1 := 512 }]  -- ENTRY

/-- The registers of the EVT page (R223): offset, strides and counts, fields by access, reset. -/
def evtRows : List RegRow := [
  { off := 0x040, rw := 0x7F, rst := 0x10 },  -- EVT_CFG
  { off := 0x044, rw := 0xFFFFFFFF },  -- FIRE_CNT
  { off := 0x050, s1 := 0x4, n1 := 4, wo := 0xFFFFFFFF },  -- EVT_FIRE
  { off := 0x060, s1 := 0x4, n1 := 4, w1c := 0xFFFFFFFF },  -- LINE_DIS
  { off := 0x070, s1 := 0x4, n1 := 4, rw := 0xFFFFFFFF },  -- LOOP_EXEMPT
  { off := 0x080, s1 := 0x4, n1 := 4, w1c := 0xFFFFFFFF },  -- LINE_SEEN
  { off := 0x400, s1 := 0x8, n1 := 188, rw := 0xFFFF },  -- TASK_EN
  { off := 0x404, s1 := 0x8, n1 := 192, rw := 0xFFFF, w1c := 0x80000000 }]  -- TASK_STAT

/-- The registers of the MORTAR page (R249): offset, strides and counts, fields by access, reset. -/
def mortarRows : List RegRow := [
  { off := 0x040, rw := 0x17, sh := 0x17 },  -- MORT_CFG
  { off := 0x044, rw := 0xFFFFFF, sh := 0xFFFFFF },  -- RND_T0
  { off := 0x048, rw := 0xFFFFFF, sh := 0xFFFFFF, rst := 0x1C2 },  -- RND_PERIOD
  { off := 0x04C, rw := 0xFFFF, sh := 0xFFFF },  -- RND_COUNT
  { off := 0x050, rw := 0xFFFF, sh := 0xFFFF },  -- CLOSE_LAG
  { off := 0x054, rw := 0x3FFFF03, sh := 0x3FFFF03, rst := 0x1100 },  -- SEAM_CFG
  { off := 0x058, rw := 0xFFFFFFFF, sh := 0xFFFFFFFF },  -- OBS_USE_LO
  { off := 0x05C, rw := 0xFFFFFFFF, sh := 0xFFFFFFFF },  -- OBS_USE_HI
  { off := 0x060, rst := 0x70000000 },  -- GRAPH_LOAD
  { off := 0x064, rw := 0xFFFFFFFF },  -- GRAPH_CRC
  { off := 0x068, wo := 0xFFFFFFFF },  -- GRAPH_CTRL
  { off := 0x06C },  -- GRAPH_INFO
  { off := 0x070 },  -- MORT_STAT
  { off := 0x074, rw := 0xFFFFFFFF },  -- MORT_CNT0
  { off := 0x078, rw := 0xFFFFFFFF },  -- MORT_CNT1
  { off := 0x07C, rw := 0xFFFFFFFF },  -- MORT_CNT2
  { off := 0x080 }]  -- WIN_LAST

/-- The registers of the TILE page (R251): offset, strides and counts, fields by access, reset. -/
def tileRows : List RegRow := [
  { off := 0x040, rw := 0xFFFF },  -- TILE_STAT
  { off := 0x044, rw := 0xFFFF }]  -- TILE_CHK

/-- The registers of the CAP page (R273): offset, strides and counts, fields by access, reset. -/
def capRows : List RegRow := [
  { off := 0x040, rw := 0xFF0307 },  -- CAP_CFG
  { off := 0x044, rw := 0xF0FF003F },  -- CAP_SRC
  { off := 0x048, s1 := 0x4, n1 := 4, rw := 0xFFFFFFFF },  -- SRC_MASK
  { off := 0x058, rw := 0xFFFFFFC0 },  -- BUF_BASE_LO
  { off := 0x05C, rw := 0x7 },  -- BUF_BASE_HI
  { off := 0x060, rw := 0x7FFFFFF },  -- BUF_SIZE
  { off := 0x064, rw := 0xFFFFFFFF },  -- PRE_LEN
  { off := 0x068, rw := 0xFFFFFFFF },  -- POST_LEN
  { off := 0x06C, rw := 0x7F },  -- RECLEN
  { off := 0x070, wo := 0xFFFFFFFF },  -- CAP_CTRL
  { off := 0x074 },  -- CAP_STATUS
  { off := 0x078, rw := 0xFFFF },  -- CAP_COUNT
  { off := 0x07C },  -- TRIG_STAT
  { off := 0x080 },  -- TRIG_TC_LO
  { off := 0x084 },  -- TRIG_TC_HI
  { off := 0x088, rw := 0xFFFFFFFF },  -- IGN_CNT
  { off := 0x090, s1 := 0x8, n1 := 4 },  -- CNTTMR_LO
  { off := 0x094, s1 := 0x8, n1 := 4 },  -- CNTTMR_HI
  { off := 0x0B0, s1 := 0x8, n1 := 4, rw := 0xFFFFFFFF },  -- CMP_LO
  { off := 0x0B4, s1 := 0x8, n1 := 4, rw := 0xFFFF },  -- CMP_HI
  { off := 0x0D0, s1 := 0x4, n1 := 4, rw := 0x700FFFF },  -- CTCFG
  { off := 0x100, s1 := 0x8, n1 := 8, rw := 0x8FFFF000 },  -- PRED_CFG
  { off := 0x104, s1 := 0x8, n1 := 8, rw := 0xFFF1FFFF },  -- PRED_THR
  { off := 0x200, s1 := 0x10, n1 := 8, s2 := 4, n2 := 4, rw := 0x80000777 },  -- COND
  { off := 0x300, rw := 0xFF00FFFF },  -- EGR_CFG
  { off := 0x304, rw := 0xF },  -- EGR_DEST
  { off := 0x308, rw := 0xFFFFFFC0 },  -- EGR_OFS_LO
  { off := 0x30C, rw := 0xFFF },  -- EGR_OFS_HI
  { off := 0x310 },  -- EGR_SEQ
  { off := 0x314 },  -- EGR_PEND
  { off := 0x318, rw := 0xFFFFFFFF },  -- OVW_CNT
  { off := 0x31C, rw := 0xFFFFFFFF }]  -- GAP_CNT

/-- The registers of the PANTRY page (R296): offset, strides and counts, fields by access, reset. -/
def pantryRows : List RegRow := [
  { off := 0x040, rst := 0x201E00 },  -- LEDGER_CAP
  { off := 0x044 },  -- LEDGER_USED
  { off := 0x048, rw := 0x7F },  -- PORT_SEL
  { off := 0x04C, rw := 0xFFFFFFFF },  -- PORT_CFG
  { off := 0x050, rw := 0xFFFFF800 },  -- PORT_BASE_LO
  { off := 0x054, rw := 0x7 },  -- PORT_BASE_HI
  { off := 0x058, rw := 0xFFFFFF },  -- PORT_SIZE
  { off := 0x05C, wo := 0xFFFFFFFF },  -- PORT_CMD
  { off := 0x060, rw := 0xFFFF },  -- PORT_STAT
  { off := 0x064, s1 := 0x4, n1 := 3 },  -- ADMIT
  { off := 0x070, s1 := 0x4, n1 := 3, w1c := 0xFFFFFFFF },  -- WDRAWN
  { off := 0x080, s1 := 0x4, n1 := 5, rwl := 0x7FFF },  -- MAP_CH
  { off := 0x094, s1 := 0x4, n1 := 4, rwl := 0x7FFF },  -- MAP_BK
  { off := 0x0A4 },  -- RET_STAT
  { off := 0x0A8 }]  -- BREACH_LAST

/-- The registers of the PCH page (R297): offset, strides and counts, fields by access, reset. -/
def pchRows : List RegRow := [
  { off := 0x040 },  -- CH_STAT
  { off := 0x044, rw := 0xFFFFFFFF },  -- REF_STAT
  { off := 0x048, rw := 0xFFFF0000 },  -- TRAIN_STAT
  { off := 0x04C, rw := 0xFFFFFFFF },  -- ECC_CNT
  { off := 0x050, rw := 0xFFFFFFFF },  -- LINK_CNT
  { off := 0x054, rw := 0xFFFFFFFF },  -- ESC_CNT
  { off := 0x058, rst := 0x4 },  -- PPR_STAT
  { off := 0x05C, rw := 0xFFFFFFFF, rst := 0x100096 }]  -- CH_CTRL

/-- The registers of the LANE page (R318): offset, strides and counts, fields by access, reset. -/
def laneRows : List RegRow := [
  { off := 0x040, rw := 0xFFF0FF01, rst := 0xB400 },  -- LANE_CFG
  { off := 0x044, rw := 0x7FFFFFFF, rst := 0x36000E3E },  -- LANE_TXFIR
  { off := 0x048, wo := 0xFFFFFFFF },  -- LANE_CTRL
  { off := 0x04C },  -- LANE_STAT
  { off := 0x050 },  -- LANE_EYE
  { off := 0x054 },  -- LANE_SNR
  { off := 0x058, rw := 0x3F },  -- PRBS_CFG
  { off := 0x05C, rw := 0xFFFFFFFF },  -- PRBS_ERR
  { off := 0x060 },  -- PRBS_BITS_LO
  { off := 0x064 },  -- PRBS_BITS_HI
  { off := 0x068, rw := 0xFFFF },  -- PRBS_UNLOCK
  { off := 0x070, s1 := 0x4, n1 := 4, rw := 0xFFFFFFFF },  -- ALIGN_PAT
  { off := 0x080, rw := 0xFFFFFFFF }]  -- SWAP_CNT

/-- The registers of the RING page (R350): offset, strides and counts, fields by access, reset. -/
def ringRows : List RegRow := [
  { off := 0x040, rw := 0x1F },  -- RING_ADDR
  { off := 0x044, rw := 0xFFFF1F7F, rst := 0x641F41 },  -- RING_CFG
  { off := 0x048, rst := 0x80000000 },  -- RING_STAT
  { off := 0x04C, rw := 0xFFFFFFFF },  -- RT_RXCNT
  { off := 0x050, rw := 0xFFFFFFFF },  -- RT_TXCNT
  { off := 0x054, rw := 0xFFFFFFFF },  -- FWD_CNT
  { off := 0x058, rw := 0xFFFFFFFF },  -- RPL_CNT
  { off := 0x080, s1 := 0x4, n1 := 8, rw := 0xBF00FFFF },  -- TRIG_SEND
  { off := 0x0A0, s1 := 0x4, n1 := 8, rw := 0x8000003F }]  -- TRIG_MATCH

/-- The registers of the HOST page (R351): offset, strides and counts, fields by access, reset. -/
def hostRows : List RegRow := [
  { off := 0x040, rw := 0xFFFF0003 },  -- HOST_CFG
  { off := 0x044, rwl := 0xFFFFFFFF },  -- HOST_MAC_LO
  { off := 0x048, rwl := 0xFFFF },  -- HOST_MAC_HI
  { off := 0x04C, rwl := 0xFFFFFFFF },  -- HOST_IP4
  { off := 0x050, s1 := 0x4, n1 := 4, rwl := 0xFFFFFFFF },  -- HOST_IP6
  { off := 0x060 },  -- HOST_STAT
  { off := 0x064 },  -- FEC_CORR_LO
  { off := 0x068 },  -- FEC_CORR_HI
  { off := 0x06C, rw := 0xFFFFFFFF },  -- FEC_UNCORR
  { off := 0x070, rw := 0xFFFFFFFF },  -- RX_CNT
  { off := 0x074, rw := 0xFFFFFFFF },  -- ERR_CNT
  { off := 0x078, rw := 0xFFFFFFFF },  -- ROUTE
  { off := 0x100, s1 := 0x8, n1 := 16, rw := 0xFFFFFFFF },  -- DEST_LO
  { off := 0x104, s1 := 0x8, n1 := 16, rw := 0x8000FFFF }]  -- DEST_HI

/-- The registers of the TIME page (R380), part 1: offset, strides and counts, fields by access, reset. -/
def timeRows0 : List RegRow := [
  { off := 0x040, rw := 0x7707, rst := 0x100 },  -- TIME_CFG
  { off := 0x044, wo := 0xFFFFFFFF },  -- TIME_CTRL
  { off := 0x048 },  -- MT_LO
  { off := 0x04C },  -- MT_HI
  { off := 0x050 },  -- MT_FRAC
  { off := 0x054 },  -- TC_LO
  { off := 0x058 },  -- TC_HI
  { off := 0x060, rw := 0xFFFFFFFF, rst := 0x55555555 },  -- INC_LO
  { off := 0x064, rw := 0xF, rst := 0x1 },  -- INC_HI
  { off := 0x068, rw := 0xFFFFFFFF },  -- MT_STEP_LO
  { off := 0x06C, rw := 0xFFFFFFFF },  -- MT_STEP_HI
  { off := 0x070, wo := 0xFFFFFFFF },  -- SERVO_OFS
  { off := 0x074, rw := 0xFFFFFFFF },  -- SERVO_KP
  { off := 0x078, rw := 0xFFFFFFFF },  -- SERVO_KI
  { off := 0x07C },  -- SERVO_ADJ
  { off := 0x080, rw := 0xFFFFFFFF, rst := 0x8000 },  -- SERVO_LIM
  { off := 0x084, rw := 0xFFFFFFFF, rst := 0x3E8 },  -- STEP_THR
  { off := 0x088 },  -- LAST_OFS
  { off := 0x08C },  -- PATH_DLY
  { off := 0x090, rw := 0xFFFF },  -- SYNC_DLY
  { off := 0x094 },  -- SYNC_STAT
  { off := 0x098, rw := 0xFFFFFFFF },  -- ALIGN_AT_LO
  { off := 0x09C, rw := 0xFFFFFFFF },  -- ALIGN_AT_HI
  { off := 0x0A0, rw := 0xFFFF0000 },  -- TC_LOAD_LO
  { off := 0x0A4, rw := 0xFFFF },  -- TC_LOAD_HI
  { off := 0x0A8, rw := 0x3FF },  -- SKEW
  { off := 0x0AC },  -- REF_STAT
  { off := 0x0B0, rw := 0xFFFFFFFF },  -- SYNC_CNT
  { off := 0x0B4, rw := 0xFFFFFFFF },  -- RING_ASYM
  { off := 0x0B8, rwl := 0xFFFF, rst := 0xFFFE },  -- PTP_CLOCK
  { off := 0x0C0, s1 := 0x4, n1 := 2 },  -- LINK_DLY
  { off := 0x100, s1 := 0x10, n1 := 8 },  -- TSU_MT_LO
  { off := 0x104, s1 := 0x10, n1 := 8 },  -- TSU_MT_HI
  { off := 0x108, s1 := 0x10, n1 := 8 },  -- TSU_TC
  { off := 0x10C, s1 := 0x10, n1 := 8 },  -- TSU_INFO
  { off := 0x180, s1 := 0x10, n1 := 4, rw := 0xFFFFFFFF },  -- CMP_LO
  { off := 0x184, s1 := 0x10, n1 := 4, rw := 0xFFFFFFFF },  -- CMP_HI
  { off := 0x188, s1 := 0x10, n1 := 4, rw := 0x80000000 },  -- CMP_CTRL
  { off := 0x18C, s1 := 0x10, n1 := 4 },  -- CMP_TC
  { off := 0x200, s1 := 0x80, n1 := 2, rw := 0xFCFFFFF0 }]  -- PTP_CFG

/-- The registers of the TIME page (R380), part 2: offset, strides and counts, fields by access, reset. -/
def timeRows1 : List RegRow := [
  { off := 0x204, s1 := 0x80, n1 := 2, rw := 0xFFFFFFFF },  -- PTP_ASYM
  { off := 0x208, s1 := 0x80, n1 := 2 },  -- PTP_LAT
  { off := 0x20C, s1 := 0x80, n1 := 2, s2 := 4, n2 := 2, rw := 0xFFFFFFFF },  -- PTP_MASTER
  { off := 0x214, s1 := 0x80, n1 := 2, rw := 0xFFFF },  -- PTP_MASTER2
  { off := 0x218, s1 := 0x80, n1 := 2, rw := 0xFFFFFFFF },  -- PTP_CNT
  { off := 0x21C, s1 := 0x80, n1 := 2, w1c := 0x80000000, wo := 0x1 },  -- RXQ_STAT
  { off := 0x220, s1 := 0x80, n1 := 2 },  -- RXQ_DATA
  { off := 0x240, s1 := 0x80, n1 := 2, s2 := 4, n2 := 8, rw := 0xFFFFFFFF }]  -- ANN_TPL

/-- The registers of the TIME page (R380). -/
def timeRows : List RegRow := timeRows0 ++ timeRows1

/-- The registers of the TBUS page (R382): offset, strides and counts, fields by access, reset. -/
def tbusRows : List RegRow := [
  { off := 0x040, rw := 0xE700FFFF, rst := 0x700FF0C },  -- TBUS_CFG
  { off := 0x044, rw := 0xFFFF, rst := 0x24 },  -- START_LEAD
  { off := 0x048, rw := 0xFF, rst := 0x60 },  -- RX_DLY
  { off := 0x050, s1 := 0x4, n1 := 8, rw := 0x80000007 },  -- TB_DRV
  { off := 0x070, rw := 0xC0000007 },  -- TB_TEST
  { off := 0x074, rw := 0xFFFFFFFF },  -- TB_ERR
  { off := 0x078 },  -- TB_STAT
  { off := 0x07C, rw := 0xFFFFFFFF }]  -- TB_CNT

/-- The registers of the CRC page (R391): offset, strides and counts, fields by access, reset. -/
def crcRows : List RegRow := [
  { off := 0x040, s1 := 0x4, n1 := 4, rw := 0xF },  -- ENG_SEL
  { off := 0x100, s1 := 0x10, n1 := 64, rw := 0x30300, wo := 0x80000000 },  -- CTX_CFG
  { off := 0x104, s1 := 0x10, n1 := 64, rw := 0xFFFFFFFF },  -- CTX_VAL
  { off := 0x108, s1 := 0x10, n1 := 64, wo := 0xFFFFFFFF },  -- CTX_DATA
  { off := 0x10C, s1 := 0x10, n1 := 64 },  -- CTX_RES
  { off := 0x800, s1 := 0x100, n1 := 4, s2 := 4, n2 := 64, wo := 0xFFFFFFFF }]  -- WINDOW

/-- The registers of the CAL page (R410): offset, strides and counts, fields by access, reset. -/
def calRows : List RegRow := [
  { off := 0x040, rw := 0x5 },  -- CAL_CFG
  { off := 0x044, rw := 0xFFFF },  -- CAL_WIN
  { off := 0x048, rw := 0xFFFFFF, rst := 0x124F8 },  -- WIN_MAX
  { off := 0x04C },  -- CAL_STAT
  { off := 0x050, rw := 0xFFFFFFFF },  -- CAL_CNT
  { off := 0x054, rw := 0xFF },  -- TRACE_IDX
  { off := 0x058 },  -- TRACE_DATA
  { off := 0x100, s1 := 0x20, n1 := 16, rw := 0xFBFCFFFF },  -- RQ_CFG
  { off := 0x104, s1 := 0x20, n1 := 16, rw := 0xFFFFFFFF },  -- RQ_TARGET
  { off := 0x108, s1 := 0x20, n1 := 16, rw := 0xFFFFFFFF },  -- RQ_PARAM
  { off := 0x10C, s1 := 0x20, n1 := 16, wo := 0xFFFFFFFF },  -- RQ_CMD
  { off := 0x110, s1 := 0x20, n1 := 16 },  -- RQ_STAT
  { off := 0x114, s1 := 0x20, n1 := 16, rw := 0xFFFF0000 },  -- RQ_QUAL
  { off := 0x118, s1 := 0x20, n1 := 16 },  -- RQ_RES0
  { off := 0x11C, s1 := 0x20, n1 := 16 }]  -- RQ_RES1

/-- The registers of the MONADC page (R422): offset, strides and counts, fields by access, reset. -/
def monadcRows : List RegRow := [
  { off := 0x040, rw := 0x3F, rst := 0x30 },  -- MON_CFG
  { off := 0x044 },  -- MON_STAT
  { off := 0x048, rw := 0xFFFFC01F },  -- SCAL_CFG
  { off := 0x04C, wo := 0xFFFFFFFF },  -- SCAL_CTRL
  { off := 0x050 },  -- SCAL_STAT
  { off := 0x054, rw := 0xFFFF },  -- URG_CNT
  { off := 0x060, s1 := 0x4, n1 := 4, rw := 0x70FFF },  -- URG
  { off := 0x070, s1 := 0x4, n1 := 4 },  -- URG_RES
  { off := 0x080, s1 := 0x4, n1 := 4 },  -- URG_TC
  { off := 0x0A0, s1 := 0x10, n1 := 4, rw := 0x3FFFF },  -- LIM_LO
  { off := 0x0A4, s1 := 0x10, n1 := 4, rw := 0x3FFFF },  -- LIM_HI
  { off := 0x0A8, s1 := 0x10, n1 := 4, rw := 0x1 },  -- LIM_CFG
  { off := 0x0AC, s1 := 0x10, n1 := 4 },  -- LIM_STAT
  { off := 0x100, s1 := 0x4, n1 := 49, rw := 0x70000 },  -- SEQ_ENT
  { off := 0x1C4, s1 := 0x4, n1 := 15, rw := 0x70FFF },  -- SEQ_ENT
  { off := 0x200, s1 := 0x4, n1 := 64 },  -- RES
  { off := 0x300, s1 := 0x8, n1 := 32, rw := 0xFFFFF },  -- OFS
  { off := 0x304, s1 := 0x8, n1 := 32, rw := 0xFFFFF, rst := 0x40000 },  -- GAIN
  { off := 0x400, s1 := 0x8, n1 := 40 },  -- OFS
  { off := 0x404, s1 := 0x8, n1 := 40, rst := 0x40000 },  -- GAIN
  { off := 0x600, s1 := 0x4, n1 := 256 },  -- HK_FLX
  { off := 0xA00, s1 := 0x4, n1 := 15 }]  -- HK_REF

/-- The registers of the THERM page (R443): offset, strides and counts, fields by access, reset. -/
def thermRows : List RegRow := [
  { off := 0x040, rw := 0xDFFFFFFF, rst := 0x40202814 },  -- THERM_CFG
  { off := 0x044, rw := 0xFFFFFFFF, rst := 0x300690 },  -- THR_WARN
  { off := 0x048, rw := 0xFFFFFFFF, rst := 0x3006E0 },  -- THR_THROT
  { off := 0x04C, rw := 0xFFFFFFFF, rst := 0x3007D0 },  -- THR_SHUT
  { off := 0x050, rw := 0xFFFFFFFF, rst := 0x30FDD0 },  -- THR_LWARN
  { off := 0x054, rw := 0xFFFFFFFF, rst := 0x30FD30 },  -- THR_LSTOP
  { off := 0x058, rw := 0xFFFF0000, rst := 0xA640000 },  -- THROT_CFG
  { off := 0x05C },  -- THROT_STAT
  { off := 0x060 },  -- CASE_T
  { off := 0x064 },  -- COLD_T
  { off := 0x068 },  -- SITE_EST
  { off := 0x06C },  -- SITE_SPARE
  { off := 0x100, s1 := 0x4, n1 := 24 },  -- SITE
  { off := 0x200, s1 := 0x4, n1 := 64 }]  -- NODE

/-- The registers of the PWR page (R445): offset, strides and counts, fields by access, reset. -/
def pwrRows : List RegRow := [
  { off := 0x040, rw := 0xFFFFFF07, rst := 0x140A0A00 },  -- SHED_CFG
  { off := 0x044, rw := 0xFFFFFFFF, rst := 0xBB8F3C0 },  -- ILIM_SOFT
  { off := 0x048, rw := 0xFFFFFFFF, rst := 0x641130 },  -- VTH_S4
  { off := 0x04C, rw := 0xFFFFFFFF, rst := 0x641068 },  -- VTH_S5
  { off := 0x050, rw := 0xFFFFFFFF, rst := 0x640FA0 },  -- VTH_S6
  { off := 0x054 },  -- SHED_STAT
  { off := 0x058 },  -- PWR_IN
  { off := 0x05C, rw := 0xFFFFFFFF },  -- SHED_CNT
  { off := 0x080, s1 := 0x4, n1 := 48 }]  -- DOM

/-- The registers of the HEALTH page (R458): offset, strides and counts, fields by access, reset. -/
def healthRows : List RegRow := [
  { off := 0x040, wo := 0xFFFFFFFF },  -- HM_CTRL
  { off := 0x400, s1 := 0x60, n1 := 32, rw := 0x9FFFFFFF },  -- HM_CFG
  { off := 0x404, s1 := 0x60, n1 := 32, rw := 0xFFFFFFFF },  -- HM_BASE
  { off := 0x408, s1 := 0x60, n1 := 32 },  -- HM_LAST
  { off := 0x40C, s1 := 0x60, n1 := 32, rst := 0x7FFFFFFF },  -- HM_MIN
  { off := 0x410, s1 := 0x60, n1 := 32, rst := 0x80000000 },  -- HM_MAX
  { off := 0x414, s1 := 0x60, n1 := 32 },  -- HM_COUNT
  { off := 0x420, s1 := 0x60, n1 := 32, s2 := 4, n2 := 16 }]  -- HM_BIN

/-- The registers of the SPARE page (R459): offset, strides and counts, fields by access, reset. -/
def spareRows : List RegRow := [
  { off := 0x040, s1 := 0x4, n1 := 10, rw := 0x80FFFFFF, rst := 0x80000018 },  -- SP_POL
  { off := 0x080, s1 := 0x4, n1 := 10 },  -- SP_KIND
  { off := 0x0C0, rw := 0xFFFFFFF },  -- WEAR_SEL
  { off := 0x0C4 },  -- WEAR_VAL
  { off := 0x0C8 },  -- WEAR_LAST
  { off := 0x0D0, rw := 0x800003FF },  -- MAP_IDX
  { off := 0x0D4 },  -- MAP_DATA_LO
  { off := 0x0D8 },  -- MAP_DATA_HI
  { off := 0x0DC, wo := 0xFFFFFFFF },  -- MAP_CMD
  { off := 0x0E0 }]  -- MAP_STAT

/-- The registers of the NVM page (R460): offset, strides and counts, fields by access, reset. -/
def nvmRows : List RegRow := [
  { off := 0x040 },  -- LOG_HEAD
  { off := 0x044, rw := 0x3FF },  -- LOG_IDX
  { off := 0x048 },  -- LOG_DATA
  { off := 0x04C, wo := 0xFFFFFFFF },  -- LOG_CTRL
  { off := 0x100, rw := 0x1FFFC },  -- VIMG_ADDR
  { off := 0x104, rw := 0xFFFFFFFF },  -- VIMG_DATA
  { off := 0x108, wo := 0xFFFFFFFF },  -- VIMG_CTRL
  { off := 0x10C }]  -- VIMG_STAT
/-- The registers of a kind of page. -/
def rowsOf : PT → List RegRow
  | .sys => sysRows
  | .mgmt => mgmtRows
  | .pwr => pwrRows
  | .therm => thermRows
  | .nvm => nvmRows
  | .health => healthRows
  | .spare => spareRows
  | .monadc => monadcRows
  | .time => timeRows
  | .tbus => tbusRows
  | .evt => evtRows
  | .crc => crcRows
  | .cal => calRows
  | .seq => seqRows
  | .drv => drvRows
  | .prb => prbRows
  | .rdi => rdiRows
  | .flx => flxRows
  | .ladle => ladleRows
  | .mortar => mortarRows
  | .tile => tileRows
  | .cap => capRows
  | .pantry => pantryRows
  | .pch => pchRows
  | .lane => laneRows
  | .ring => ringRows
  | .host => hostRows

/-- The row of a register, by page kind and offset. -/
def rowOf (pt : PT) (off : Nat) : Option RegRow :=
  if off < 0x40 then commonRows.find? (fun r => rowHit r off) else (rowsOf pt).find? (fun r => rowHit r off)

/-- SEQ_CFG after reset: KIND by R66; GROUP is the own index on a master, none elsewhere. -/
def seqCfgReset (q : Nat) : Word :=
  let kind := if q < 64 then 0 else if q < 80 then 1 else if q < 112 then 2 else if q < 120 then 3 else 0xF
  let group := if 112 ≤ q ∧ q < 120 then q - 112 else 0xF
  BitVec.ofNat 32 (kind * 2 ^ 28 + group * 2 ^ 24 + 0x7F * 2 ^ 9)

/-- LANE_CFG after reset: LOCK_SRC 0 and both precoders on for lanes 0 to 9, LOCK_SRC 1 and both off for lanes 10 to
19 (R318). -/
def laneCfgReset (n : Nat) : Word := if n < 10 then 0x00C0B400 else 0x0100B400

/-- SP_POL after reset (R450): AUTO 1, WIN 24, and the thresholds WARN and SUB of each kind. -/
def spPolReset (k : Nat) : Word :=
  let ws : Nat × Nat := match k with
    | 0 => (1, 2) | 1 => (2, 4) | 2 => (1, 0) | 3 => (10, 60) | 4 => (1, 0) | 5 => (1, 2) | 6 => (0, 1)
    | 7 => (0, 1) | 8 => (0, 1) | 9 => (0, 1) | _ => (0, 0)
  BitVec.ofNat 32 (2 ^ 31 + ws.1 * 2 ^ 16 + ws.2 * 2 ^ 8 + 24)

/-- SP_KIND.FREE after manufacture: every spare free (log 6). -/
def spFreeReset (k : Nat) : Word :=
  match k with
  | 0 => 4 | 1 => 96 | 2 => 16 | 3 => 4 | 4 => 1 | 5 => 5120 | 6 => 128 | 7 => 0 | 8 => 24 | 9 => 48 | _ => 0

/-- The registers whose reset value depends on the page or the index. -/
def resetByIndex (pt : PT) (n off : Nat) : Option Word :=
  match pt with
  | .seq => if off = 0x40 then some (seqCfgReset n) else none
  | .lane =>
    if off = 0x40 then some (laneCfgReset n)
    else if off = 0x4C then some (BitVec.ofNat 32 (n % 5 * 2 ^ 28))
    else if off = 0x70 then some 0xC3D2E1F0 else if off = 0x74 then some 0x8796A5B4
    else if off = 0x78 then some 0x4B5A6978 else if off = 0x7C then some 0x0F1E2D3C else none
  | .tile => if off = 0x40 then some (if n < 16 then BitVec.ofNat 32 (n * 2 ^ 28 + 2 ^ 27) else 0) else none
  | .flx => if 0x680 ≤ off ∧ off < 0xE00 ∧ (off - 0x680) % 0x100 = 0 then some 0x4000 else none
  | .rdi =>
    if 0x60 ≤ off ∧ off < 0x70 ∧ off % 4 = 0 then
      let b := off - 0x60
      some (BitVec.ofNat 32 (b + (b + 1) * 2 ^ 8 + (b + 2) * 2 ^ 16 + (b + 3) * 2 ^ 24))
    else if 0x100 ≤ off ∧ off < 0x210 ∧ off % 16 = 4 then some 0x8000
    else none
  | .pantry =>
    if 0x80 ≤ off ∧ off < 0x94 ∧ off % 4 = 0 then some (BitVec.ofNat 32 (2 ^ (4 + (off - 0x80) / 4)))
    else if 0x94 ≤ off ∧ off < 0xA4 ∧ off % 4 = 0 then some (BitVec.ofNat 32 (2 ^ ((off - 0x94) / 4)))
    else none
  | .monadc =>
    if 0x100 ≤ off ∧ off < 0x1C0 ∧ off % 4 = 0 then
      let e := (off - 0x100) / 4
      some (BitVec.ofNat 32 ((32 + e / 6) * 16 + e % 6))
    else if off = 0x1C0 then some (BitVec.ofNat 32 (40 * 16))
    else none
  | .spare =>
    if 0x40 ≤ off ∧ off < 0x68 ∧ off % 4 = 0 then some (spPolReset ((off - 0x40) / 4))
    else if 0x80 ≤ off ∧ off < 0xA8 ∧ off % 4 = 0 then some (spFreeReset ((off - 0x80) / 4))
    else none
  | .pwr =>
    if 0x80 ≤ off ∧ off < 0x140 ∧ off % 4 = 0 then
      some (if off = 0x80 + 4 * 47 then 0xC8800000 else 0x08800000)
    else none
  | _ => none

/-- The value a register takes at reset, by address. PG_CTRL.ENABLE is 1 on the pages that are always enabled. -/
def regReset (a : Nat) : Word :=
  match pageOf (a / 4096) with
  | none => 0
  | some (pt, n) =>
    let off := a % 4096
    if off = 0x008 then (if alwaysEnabled pt then 1 else 0)
    else
      match resetByIndex pt n off with
      | some v => v
      | none => match rowOf pt off with
        | some r => r.rst
        | none => 0

end Sys2Proof.Machine
end

