-- ==== Sys2Proof/Machine/Sparse.lean ====
section
/-! DEFINITION. Sparse tables: lists of (key, value) with rising keys, holding no entry equal to the value that an
unlisted key has. Registers, stores, the Pantry and the per-unit tables are held so; equal tables are equal data. -/

namespace Sys2Proof.Machine

variable {α : Type}

/-- The value at a key; an unlisted key has its initial value `d k`. -/
def mapGet (d : Nat → α) : List (Nat × α) → Nat → α
  | [], k => d k
  | (k', v) :: m, k => if k = k' then v else if k < k' then d k else mapGet d m k

/-- Set the value at a key, keeping the canonical form. -/
def mapSet [DecidableEq α] (d : Nat → α) : List (Nat × α) → Nat → α → List (Nat × α)
  | [], k, v => if v = d k then [] else [(k, v)]
  | (k', v') :: m, k, v =>
    if k < k' then (if v = d k then (k', v') :: m else (k, v) :: (k', v') :: m)
    else if k = k' then (if v = d k then m.dropWhile (fun e => decide (e.1 ≤ k)) else (k, v) :: m)
    else (k', v') :: mapSet d m k v

/-- The canonical form: keys at or above `lb`, strictly rising, no entry with its key's initial value. -/
def mapOk [DecidableEq α] (d : Nat → α) : Nat → List (Nat × α) → Bool
  | _, [] => true
  | lb, (k, v) :: m => decide (lb ≤ k) && decide (v ≠ d k) && mapOk d (k + 1) m

/-- Drop the entries with keys in [lo, hi). -/
def mapDrop (m : List (Nat × α)) (lo hi : Nat) : List (Nat × α) :=
  m.filter (fun e => decide (e.1 < lo ∨ hi ≤ e.1))

/-- Only the entries with keys in [lo, hi). -/
def mapTake (m : List (Nat × α)) (lo hi : Nat) : List (Nat × α) :=
  m.filter (fun e => decide (lo ≤ e.1 ∧ e.1 < hi))

/-- `dst` with the entries of `src` in [lo, hi) in place of its own there. -/
def mapSplice (src dst : List (Nat × α)) (lo hi : Nat) : List (Nat × α) :=
  dst.filter (fun e => decide (e.1 < lo)) ++ mapTake src lo hi ++ dst.filter (fun e => decide (hi ≤ e.1))

/-- The same entries, every key moved by `b - a`. -/
def mapShift (m : List (Nat × α)) (a b : Nat) : List (Nat × α) :=
  m.map (fun e => (e.1 - a + b, e.2))

/-- A store, or the Pantry: bytes by address, an unlisted byte is 0. -/
abbrev Bytes := List (Nat × Byte)

/-- One byte. -/
def byteAt (m : Bytes) (a : Nat) : Byte := mapGet (fun _ => 0) m a

/-- Write one byte. -/
def putByte (m : Bytes) (a : Nat) (v : Byte) : Bytes := mapSet (fun _ => 0) m a v

/-- `n` bytes from `a` as a number, the lowest address least significant (R67). -/
def leNat (m : Bytes) (a : Nat) : Nat → Nat
  | 0 => 0
  | n + 1 => (byteAt m a).toNat + 256 * leNat m (a + 1) n

/-- A 32-bit word, little-endian. -/
def wordAt (m : Bytes) (a : Nat) : Word := BitVec.ofNat 32 (leNat m a 4)

/-- Write a list of bytes from `a` upward. -/
def putBytes (m : Bytes) (a : Nat) : List Byte → Bytes
  | [] => m
  | b :: bs => putBytes (putByte m a b) (a + 1) bs

/-- The four bytes of a word, least significant first. -/
def wordBytes (v : Word) : List Byte := [v.extractLsb' 0 8, v.extractLsb' 8 8, v.extractLsb' 16 8, v.extractLsb' 24 8]

/-- `n` bytes of a number, least significant first. -/
def leBytes (v : Nat) : Nat → List Byte
  | 0 => []
  | n + 1 => BitVec.ofNat 8 (v % 256) :: leBytes (v / 256) n

/-- Write a word, little-endian. -/
def putWord (m : Bytes) (a : Nat) (v : Word) : Bytes := putBytes m a (wordBytes v)

/-- `n` bytes from `a`, lowest address first. -/
def bytesAt (m : Bytes) (a : Nat) : Nat → List Byte
  | 0 => []
  | n + 1 => byteAt m a :: bytesAt m (a + 1) n

/-- The number that a list of bytes spells, least significant first. -/
def ofBytes : List Byte → Nat
  | [] => 0
  | b :: bs => b.toNat + 256 * ofBytes bs

end Sys2Proof.Machine
end

