-- ==== Sys2Proof/Machine/State.lean ====
section
/-! DEFINITION. The state of the module, as plain data. What a register shows is in `regs`; the rest is what the spec
gives the machine beside its registers. Every field's source and reset value stands in INVENTORY.md under State. -/

namespace Sys2Proof.Machine

/-- Why a command cannot be one. -/
inductive Fault where
  /-- Raised by a meaning whose operand list does not have the length the module has units (WellFormed.lean).
  Safe: the hardware has no such command, so nothing is claimed of it. -/
  | illFormed
  deriving DecidableEq, Repr

/-- Why the model has no answer. -/
inductive Refusal where
  /-- Raised by exec's arm of a command that has no meaning yet, with the command's name. Safe: it stops. -/
  | notModelled (mnemonic : String)
  deriving DecidableEq, Repr

/-! ## Control interface (02_control_interface.md) -/

/-- A shadowed write waiting for its block's groups to stand between shots (R22). -/
structure Held where
  addr : Nat
  mask : Word
  val : Word
  deriving DecidableEq, Repr

/-- What the current tick holds, where the order inside a tick counts: the W1C bits that hardware set in it (R7), the
registers written in it with the path that wrote (R35), the frame changes made in it, and what the router delivered. -/
structure ThisTick where
  raised : List (Nat × Word) := []
  writes : List (Nat × Nat) := []
  /-- Frame updates of Mortar, and software writes of a slot's frame, made in this tick: slot, FX, FZ (R196). -/
  flips : List (Nat × Bool × Bool) := []
  soft : List (Nat × Bool × Bool) := []
  /-- Data words fed to CRC slots in this tick, newest first: path, slot, the slot's CTX_CFG and CTX_VAL before, the word
  (R390). -/
  feeds : List (Nat × Nat × Word × Word × Word) := []
  /-- Task inputs that have had their activation in this tick (R219). -/
  acts : List Nat := []
  /-- Words written at data ports in this tick, oldest first: the port's register, the path, the place, the word (R35). -/
  ports : List (Nat × Nat × Nat × Word) := []
  deriving DecidableEq, Repr

/-- Supply, reset and start-up (R47, R48, R56 to R64). -/
structure Boot where
  /-- VIN is in its operating range. -/
  powered : Bool := true
  /-- Held in a module reset: RST_N low. -/
  inReset : Bool := false
  /-- Start-up phase 4 zero-fills the stores: after power-on and the restarts of R432, R442 and R463. -/
  zeroFill : Bool := true
  /-- Domains other than management are off: thermal shutdown (R431) or shed stage 6 (R442). -/
  dark : Bool := false
  /-- In thermal shutdown (R431). -/
  shutdown : Bool := false
  /-- A whole-target reset (RSTACT 0x02) runs (R57). -/
  target : Bool := false
  /-- What REF_IN carries: nothing usable, or the frequency that STRAP[3] names so (R47, R60). -/
  ref : Option Bool := some false
  deriving DecidableEq, Repr

/-- The I3C target's own state (R36 to R44, R52, R57). -/
structure I3c where
  ptr : Nat := 0
  mwl : Nat := 4096
  mrl : Nat := 4096
  hdr : Bool := false
  ibiOn : Bool := true
  ibiReq : Bool := false
  rstact : BitVec 8 := 0x01
  /-- A peripheral reset (RSTACT 0x01) runs (R57). -/
  inReset : Bool := false
  /-- The bytes of the last private read or direct CCC, first sent first. -/
  reply : List Byte := []
  /-- The last transfer was refused with NACK. -/
  nack : Bool := false
  deriving DecidableEq, Repr

/-- Pin levels and the sampled straps (R47, R48). WP_N stands at the level of its internal pull-down: no command moves it
(R49, log 97). -/
structure Pins where
  rstN : Bool := true
  shedN : Bool := true
  wpN : Bool := false
  strap : BitVec 4 := 0
  deriving DecidableEq, Repr

/-! ## Stores (R67 to R71, R100 to R102, R242, R479, R480) -/

/-- A staging buffer: the store it is bound to, and the staged bytes at the store's own aperture addresses. -/
structure Staging where
  bound : Option Nat := none
  data : Bytes := []
  deriving DecidableEq, Repr

/-- An image a commit has accepted, waiting for its copy, and the path that committed it (R71). -/
structure Accepted where
  path : Nat
  store : Nat
  crc : Word
  data : Bytes
  deriving DecidableEq, Repr

/-- What the vendor engine is doing (R101). -/
inductive VimgCmd where
  | verify | install
  deriving DecidableEq, Repr

/-- A vendor image: none, what a failed NVM write left, the one written at manufacture (log 6), or one that software has
loaded. -/
inductive VImage where
  | empty
  | spoilt
  | factory
  | bytes (b : Bytes)
  deriving DecidableEq, Repr

/-- The vendor image machinery (R100 to R102): the staging buffer, the running command, the two NVM slots and which was
written last, the image phase 2 selected. -/
structure Vimg where
  buf : Bytes := []
  cmd : Option VimgCmd := none
  slotA : VImage := .factory
  slotB : VImage := .empty
  newerB : Bool := false
  held : VImage := .empty
  /-- Sequencers whose vendor region waits for a copy of this image at their next boundary. -/
  waiting : List Nat := []
  image : VImage := .empty
  deriving DecidableEq, Repr

/-! ## Shots (R22 to R26, R104, R105) -/

/-- A shot group and its master's start machinery. -/
structure Group where
  /-- An accepted start: its opening tick. -/
  opening : Option (BitVec 48) := none
  /-- The pending start of R25: its source, and the opening it names or the tick of its acceptance. -/
  pend : Option (Nat × BitVec 48) := none
  running : Bool := false
  boundary : Bool := false
  /-- The opening tick of the running or last shot. -/
  t0 : BitVec 48 := 0
  tag : BitVec 8 := 0
  /-- The tick the running shot closed at, and its length in ticks. -/
  closedAt : BitVec 48 := 0
  len : Nat := 0
  /-- Whether an earlier opening exists, for SRC = 5. -/
  opened : Bool := false
  /-- The tick in which SRC = 5 took effect, until its first shot opens (R104). -/
  selfAt : Option (BitVec 48) := none
  /-- SRC is 5. -/
  selfOn : Bool := false
  /-- The end of the last boundary. -/
  bEnd : BitVec 48 := 0
  /-- A calibration window was requested by a CALWIN word of this shot (R83). -/
  calReq : Bool := false
  /-- The current boundary was stretched, so the next shot is THROTTLED (R26). -/
  stretched : Bool := false
  /-- The throttle level in force for this group (R430). -/
  throttle : Nat := 0
  /-- The shed stage this group has entered (R439). -/
  stage : Nat := 0
  /-- Held at its boundary by a shed stage (R440). -/
  parked : Bool := false
  /-- Members idle for the running shot because its opening was late (R20). -/
  lateOpen : Bool := false
  /-- The shots closed: opening tick, closing tick, tag, newest first (R264, R265). -/
  past : List (BitVec 48 × BitVec 48 × BitVec 8) := []
  /-- The tick in which the running shot's last result so far is written to the Ladle (R23, R191). -/
  wrote : Option (BitVec 48) := none
  deriving DecidableEq, Repr

/-! ## Sequencers (03_sequencers.md, 04_segment_tables.md) -/

/-- A loop frame (R88). -/
structure Loop where
  start : Nat
  count : Nat
  deriving DecidableEq, Repr

/-- The state letters of SEQ_STAT.STATE. -/
inductive SeqSt where
  | idle | run | wait | ended | stopped | mchk | storeBad
  deriving DecidableEq, Repr

/-- A successor chosen for the current word. -/
inductive Succ where
  | word (a : Nat)
  | fin
  deriving DecidableEq, Repr

/-- What a word does outside its sequencer beside its converter groups' items: a predicted path keeps it to itself until
its branch resolves (R94). `sat` names a drive or probe output, or 80 and a flux output. -/
inductive Prov where
  | fire (line : Nat) (due : BitVec 48)
  | mark (g id : Nat) (due : BitVec 48)
  | calwin (g : Nat)
  | tbus (m : Nat) (w opening : BitVec 48)
  | ring (m id : Nat) (opening : BitVec 48)
  /-- A TRIGGER flit of a task input: port, TRIG_ID, due tick, TSEQ (R338). -/
  | trig (r id : Nat) (due : BitVec 48) (n : Nat)
  | loopZero
  | waitPast
  | sat (out : Nat)
  deriving DecidableEq, Repr

/-- A branch run ahead of its resolution (R94, R96): its number, its word and word tick, its commit tick, the path
predicted (true: TARGET), the stacks, the sweep values and what the branch word's wait had met, as they stood at the
branch, and what the path keeps, each with its word tick. -/
structure Ahead where
  id : Nat
  word : Nat
  w : BitVec 48
  s : BitVec 48
  predTarget : Bool
  loops : List Loop
  calls : List Nat
  sweeps : List (Nat × Int × Nat)
  met : Option (BitVec 48) := none
  kept : List (BitVec 48 × Prov) := []
  deriving DecidableEq, Repr

/-- A request to a segment-mode sequencer (R115). -/
inductive SegReq where
  | jump (target : Nat)
  | stop
  deriving DecidableEq, Repr

/-- What follows a play at its boundary (R113): the same entry again, entry NEXT, or the entry a jump names. -/
inductive SegNext where
  | again
  | next (e : Nat)
  | jump (e : Nat)
  deriving DecidableEq, Repr

/-- A sequencer. -/
structure Seq where
  inShot : Bool := false
  st : SeqSt := .idle
  pc : Nat := 0
  /-- The word tick, as a tick count. -/
  w : BitVec 48 := 0
  succ : Option Succ := none
  /-- The parts of the current word that have acted. -/
  did : List Nat := []
  loops : List Loop := []
  calls : List Nat := []
  /-- A BR word waits here for its resolution. -/
  br : Bool := false
  ahead : List Ahead := []
  nextId : Nat := 0
  /-- A stack fault on a predicted path: no word follows until its branch resolves (R90, R94). -/
  halt : Bool := false
  /-- The sweep values before the word's SWP, which its actions use (R85). -/
  preSwp : List (Nat × Int × Nat) := []
  /-- Resolutions not yet delivered at the commit gates: branch, whether the predicted path stands, due tick (R95). -/
  gates : List (Nat × Bool × BitVec 48) := []
  /-- What a wait has met: the due tick of the awaited item. -/
  met : Option (BitVec 48) := none
  /-- Marks due at this sequencer: index and due tick. -/
  marks : List (Nat × BitVec 48) := []
  /-- The due tick of a latched GO activation (R77). -/
  go : Option (BitVec 48) := none
  /-- Segment mode: the entry playing, plays left of it (0 with REPEAT 0), and the tick the play began. -/
  entry : Nat := 0
  plays : Nat := 0
  playAt : BitVec 48 := 0
  /-- The play's actions have been issued. -/
  played : Bool := false
  req : Option SegReq := none
  /-- The successor of the play is being fixed: every request accepted by the end of tick D counts (R113). -/
  fixing : Bool := false
  /-- The boundary of the play and what starts there, once fixed (R113). -/
  succAt : Option (BitVec 48 × SegNext) := none
  /-- The boundary at which the sequencer's part ends, once fixed (R113). -/
  endAt : Option (BitVec 48) := none
  /-- The tick in which the last software request was accepted (R115). -/
  swAt : Option (BitVec 48) := none
  deriving DecidableEq, Repr

/-! ## Converters (05_drive_synthesis.md, 06_flux_outputs.md) -/

/-- A phase operation on its way to its position (R119, R121): the schedule position and the delayed position, the
latter in 1/256 of a sample, and the word tick that orders equals. `zero` is a word's ZERO_ACC, `acc` and `init` the
ACC_RST and OFS_RST of an opening. -/
inductive PhOp where
  | none | add (v : Nat) | set (v : Nat) | zero | acc | freq (f : Nat) | init (v : Nat)
  deriving DecidableEq, Repr

structure Phase where
  sp : Nat
  dp : Nat
  w : Nat
  op : PhOp
  deps : List Nat
  deriving DecidableEq, Repr

/-- A pulse of a tone (R125 to R127, R133, R134): delayed start in 1/256 sample, envelope samples and factor M, the
latched amplitude, the added half turn, whether it plays zeros, the stream that feeds it, its word tick and its
timing-set delay in 1/256 sample. A later-placed pulse that has begun replaces an earlier one. -/
structure Pulse where
  w : Nat
  ts : Nat
  dp : Nat
  stop : Nat
  base : Nat
  len : Nat
  m : Nat
  amp : Int
  half : Bool
  mute : Bool
  strm : Option Nat
  deps : List Nat
  deriving DecidableEq, Repr

/-- A tone generator: P at a schedule position, the frequency in force, the offset O, sweep values, what is placed
ahead, and the pulses playing or placed. -/
structure Tone where
  p : Nat := 0
  pos : Nat := 0
  f : Nat := 0
  o : Nat := 0
  asw : Int := 0
  psw : Nat := 0
  ops : List Phase := []
  pulses : List Pulse := []
  deriving DecidableEq, Repr

/-- A stream descriptor at work (R135 to R137): the tone and word tick of the pulse it serves, the delayed position at
which that ends, its schedule position, samples and factor M, the window's first sample, the branches it depends on, the
envelope samples that have arrived, those that came too late or not at all (from, to), those whose place in the window a
later one has taken while they still play, and those counted so far as starved or not. -/
structure Stream where
  tone : Nat := 0
  w : Nat := 0
  stop : Nat := 0
  sp : Nat := 0
  len : Nat := 0
  m : Nat := 1
  base : Nat := 0
  deps : List Nat := []
  got : Nat := 0
  gaps : List (Nat × Nat) := []
  old : List (Nat × Int × Int) := []
  counted : Nat := 0
  /-- The timing-set delay of its pulse, in 1/256 sample. -/
  ts : Nat := 0
  deriving DecidableEq, Repr

/-- A drive or probe output beside its registers. -/
structure Out where
  /-- Muted by its sequencer's fault until the next opening (R90, R97). -/
  seqMute : Bool := false
  /-- Muted by a DAC fault until a soft reset of the page (R466). -/
  dacFault : Bool := false
  /-- The changes of its mute, newest first: the tick from which each holds, and what held before (R482). -/
  gate : List (BitVec 48 × Bool) := []
  /-- The stream position before which every sample has been looked at for clipping (R129). -/
  done : Nat := 0
  /-- What had passed the gate before a soft reset of the page: the codes other than 0 by stream position, and the position
  before which they stand (R482). -/
  sent : List (Nat × Int) := []
  sentTo : Nat := 0
  deriving DecidableEq, Repr

/-- A pulse on a flux output (R145 to R149). Positions are in 1/256 flux sample. -/
structure FPulse where
  p : Nat
  amp : Int
  base : Nat
  len : Nat
  m : Nat
  hold : Bool
  mute : Bool
  deps : List Nat
  deriving DecidableEq, Repr

/-- An action placed on a flux output (R145); ramps that no word gives and the hold of a late step are placed too (R155,
R482): `off` ramps to 0 V. -/
inductive FAct where
  | play (u : FPulse)
  | step (v : Int)
  | park
  | off
  | hold
  deriving DecidableEq, Repr

/-- An action with its position, the word tick that orders equals, and the branches it depends on. -/
structure FPlaced where
  p : Nat
  w : Nat
  act : FAct
  deps : List Nat
  deriving DecidableEq, Repr

/-- Why a flux output is kept from its schedule (R155). -/
inductive FHold where
  | dacFault | off
  deriving DecidableEq, Repr

/-- A flux output: the next sample its chain forms, B in 1/32,768 of full scale, the sweep value, what is placed and
playing, linear transitions of B on their way and tails of ended pulses (position and size), the ramp (true: to PARK,
false: to 0 V) and the position up to which it has moved B, section states, FIR history (newest first), the last x and
DAC code, the codes on their way to the lands, who drives the output, and what the samples formed raised. -/
structure Flux where
  next : Nat := 0
  b : Rat := 0
  asw : Int := 0
  acts : List FPlaced := []
  playing : List FPulse := []
  moves : List (Nat × Rat) := []
  tails : List (Nat × Rat) := []
  ramp : Option Bool := none
  rampPos : Nat := 0
  u : List Rat := [0, 0, 0, 0, 0, 0, 0, 0]
  z : List Rat := []
  x : Rat := 0
  code : Int := 0
  /-- Changes of the code, newest first: the sample from which each stands (R144). -/
  codes : List (Nat × Int) := []
  /-- Its sequencer's fault keeps actions placed from this position on from it, until the next opening (R482). -/
  stopAt : Option Nat := none
  /-- The sample from which the DAC is powered down: a ramp to 0 V has ended there (R155). -/
  downAt : Option Nat := none
  /-- The park holder drives the output (R156). -/
  holder : Bool := true
  atPark : Bool := true
  clr : Bool := false
  holds : List FHold := []
  sats : Nat := 0
  levelSat : Bool := false
  overlap : Nat := 0
  parked : Bool := false
  deriving DecidableEq, Repr

/-! ## Timed items (R16 to R21) -/

/-- A channel state as broadcast (R198). -/
inductive DState where
  | resolved (v : Bool) | unresolved | void | lost
  deriving DecidableEq, Repr

/-- A result word (R180). -/
structure Res where
  i : Int := 0
  q : Int := 0
  state : Nat := 0
  void : Bool := false
  ambig : Bool := false
  ovr : Bool := false
  iqSat : Bool := false
  cause : Nat := 0
  demod : Nat := 0
  endTc : BitVec 48 := 0
  deriving DecidableEq, Repr

/-- What a timed item carries. -/
inductive Payload where
  /-- A drive or probe port action: output, tone, START, ENV or profile bank, AMP, PHOP, FS, TSET, word tick, and the
  sweep values between the word's SWR and SWP. -/
  | port (out tone start env amp phop : Nat) (fs : Bool) (tset : Nat) (w : BitVec 48) (asw : Int) (psw : Nat)
  /-- A flux action: output, START, ENV, AMP, FOP, TSET, word tick, sweep value. -/
  | flux (o start env amp fop tset : Nat) (w : BitVec 48) (asw : Int)
  /-- A window arm at demodulator d of a word with word tick w and offset WOFF. -/
  | arm (d : Nat) (w : BitVec 48) (woff : Nat)
  /-- A result word for the Ladle. -/
  | result (r : Res)
  | armCopy (d : Nat)
  /-- Mortar's item: toggles of X and Z by slot, observable flips, and changes of pending flags. -/
  | frame (own : Bool) (flips : List (Nat × Bool × Bool)) (obs : List Nat) (pend : List (Nat × Bool))
  /-- A channel's new state for the sequencer groups. -/
  | bcast (c : Nat) (st : DState)
  | mark (g id : Nat)
  /-- An activation of a task input. -/
  | act (input : Nat)
  /-- A syndrome result for Mortar: slot, ROUND, STATE (R194). -/
  | det (slot round state : Nat)
  deriving DecidableEq, Repr

/-- A timed item on its way: its stamp, the group it belongs to, the branches it depends on
(numbered by depOf). -/
structure Item where
  stamp : BitVec 16
  group : Option Nat
  deps : List Nat
  load : Payload
  deriving DecidableEq, Repr

/-! ## Time (15_time_and_sync.md) -/

/-- Tick count and module time (R15, R356): MT in units of 2^-32 ns, MT of the tick before, a step waiting for the next
tick, the servo's integrator. -/
structure Clock where
  tc : BitVec 48 := 0
  mt : BitVec 96 := 0
  prev : BitVec 96 := 0
  step : Int := 0
  integ : Int := 0
  /-- The rates of MT before the last changes, the newest first: the tick of the change, MT in it, INC + ADJ and THIRD before
  it (R264, R356, R357). -/
  was : List (BitVec 48 × BitVec 96 × Int × Bool) := []
  deriving DecidableEq, Repr


/-! ## Read-out (07_readout.md) -/

/-- A window armed or open at a demodulator (R173): its first tick, length, the arm's due tick, the group of the shot
that armed it, the branches it depends on, and whether it was cancelled after opening (R181). -/
structure Win where
  openAt : BitVec 48
  len : Nat
  due : BitVec 48
  group : Option Nat
  deps : List Nat
  withdrawn : Bool := false
  deriving DecidableEq, Repr

/-- A refused or late arm, or a window that a reset ended: its VOID word is formed in tick `form`, a provisional one's not
before its branch has resolved (R181, R182, R484). -/
structure Refused where
  cause : Nat
  due : BitVec 48
  form : BitVec 48
  group : Option Nat
  deps : List Nat
  deriving DecidableEq, Repr

/-- A demodulator: P_d at a position, the frequency in force, frequency changes placed ahead, windows, refusals. -/
structure Demod where
  p : Nat := 0
  pos : Nat := 0
  f : Nat := 0
  ops : List Phase := []
  wins : List Win := []
  refused : List Refused := []
  deriving DecidableEq, Repr

/-- A result word that a converter group has sent, for the capture taps (R180, R252): its place in the sequence of all of
them, the tick it was formed in, and the word. -/
structure IqWord where
  num : Nat
  at_ : BitVec 48
  res : Res
  deriving DecidableEq, Repr

/-- A read-out input's slice rotation (R163 to R166), and the ticks of its overrange samples of the last 8,192 ticks
(R179). -/
structure Rdi where
  pos : Nat := 0
  spare : Nat := 16
  ready : Bool := false
  fails : Nat := 0
  retired : Option Nat := none
  quiet : Bool := false
  ovrs : List (BitVec 48) := []
  /-- Changes of the positions, newest first: the tick, the position and the slice that held it before (R163). -/
  moved : List (BitVec 48 × Nat × Nat) := []
  /-- Changes of the corrections, newest first: the tick, the slice, its SLC_OFS and SLC_GAIN before (R162). -/
  fitted : List (BitVec 48 × Nat × Nat × Nat) := []
  deriving DecidableEq, Repr

/-! ## Ladle (08_feedback_fabric.md) -/

/-- A qubit slot (R188, R190, R196, R212): the binding and the settings in force, the writes held, and the parity
condition with the writes made since. FX and FZ are bits 0 and 1 of the settings. -/
structure LSlot where
  bind : Word := 0
  cfg : Word := 0
  hBind : Option Word := none
  hCfg : Option Word := none
  hFrame : Option (Bool × Bool) := none
  bad : Bool := false
  reBind : Bool := false
  reCfg : Bool := false
  deriving DecidableEq, Repr

/-- A decision channel (R198, R206, R208, R212): the state evaluated, the state broadcast, the sequence number last
sent and last received, and the parity condition. -/
structure Dch where
  cur : DState := .void
  bc : DState := .void
  /-- The tick in which the broadcast state last became other than UNRESOLVED. -/
  since : BitVec 48 := 0
  /-- The tick of the last change of the broadcast state (R254). -/
  moved : Option (BitVec 48) := none
  /-- The earlier broadcast states, each with the tick from which it no longer stood, newest first (R76, R92). -/
  hist : List (BitVec 48 × DState) := []
  sent : Nat := 0
  got : Option Nat := none
  bad : Bool := false
  deriving DecidableEq, Repr

/-- What the Ladle still has to do: withdraw a branch's arms (R204), evaluate the channels (R200), take a REMOTE channel's
state of a producer (64 × NODE + RCH) from a port at D (R208), write a slot's entry with the state its frame gave (R191). -/
inductive LJob where
  | resolve (dep : Nat) (ok : Bool)
  | eval
  | take (c port src : Nat) (st : DState)
  | write (k : Nat) (r : Res) (st : Nat) (flip : Bool)
  deriving DecidableEq, Repr

/-- A DECISION flit waiting for its ring port (R206): channel, state, sequence number, due tick, hops. -/
structure DecFlit where
  ch : Nat
  st : DState
  seq : Nat
  due : BitVec 48
  hops : Nat
  deriving DecidableEq, Repr

/-- A real-time message waiting for its ring port. -/
inductive TxMsg where
  | dec (f : DecFlit)
  /-- A TRIGGER: TRIG_ID, due tick, TSEQ (R338). -/
  | trig (id : Nat) (due : BitVec 48) (tseq : Nat)
  /-- A SYNDROME flit of events: DST, ROUND, BLOCK, due tick, the SIDX with an event (R243). -/
  | synd (dst round block : Nat) (due : BitVec 48) (bits : List Nat)
  /-- A SYNDROME flit of corrections: DST, due tick, entries of slot, dX, dZ (R245). -/
  | corr (dst : Nat) (due : BitVec 48) (es : List (Nat × Bool × Bool))
  | loss
  /-- What passes through under a number of the other port's link: its copies so far, with their TTL reduced; true: that copy's
  CRC is to be the complement (R335). -/
  | fwd (n : Nat) (copies : List (BitVec 256 × Bool))
  /-- The second copy of what went out before it came. -/
  | again (f : BitVec 256) (stomp : Bool)
  deriving DecidableEq, Repr

/-! ## Event router (09_event_router.md) -/

/-- A line's firing in a settled tick: the tick, whether it was delivered, and whether it counts for the loop guard
(R214, R221, R222). -/
structure Fire where
  line : Nat
  at_ : BitVec 48
  delivered : Bool
  counted : Bool
  deriving DecidableEq, Repr

/-! ## Mortar (10_decoder.md) -/

/-- The decoding stream (R225 to R235): its group and opening tick, rounds closed, the detectors whose s is 1, the
inputs taken (round, detector, STATE), the events formed or carried (round, detector), the seam blocks taken or given
up (link, round, block), windows completed and issued, the X of the last window issued, and whether the window being
decoded is abandoned whole (R246). -/
structure Mort where
  run : Bool := false
  group : Nat := 0
  t0 : BitVec 48 := 0
  rounds : Nat := 0
  refs : List Nat := []
  ins : List (Nat × Nat × Nat) := []
  events : List (Nat × Nat) := []
  blocks : List (Nat × Nat × Nat) := []
  wins : Nat := 0
  issued : Nat := 0
  lastX : BitVec 48 := 0
  wrecked : Bool := false
  /-- Rounds whose seam blocks have been looked for at their completion (R244). -/
  seen : Nat := 0
  deriving DecidableEq, Repr

/-! ## Capture (11_capture.md) -/

/-- A record in a unit's ring, not yet sent (R263, R265, R269): the ring it lies in (base and size), its place and size
there, its first and last source tick, MT in nanoseconds at the first, whether it is released, and its PLEN. -/
structure CapRec where
  base : Nat
  ring : Nat
  place : Nat
  size : Nat
  first : BitVec 48
  last : BitVec 48
  mt : Nat
  released : Bool := false
  /-- A block of it read as uncorrectable on its way to egress (R290). -/
  spoilt : Bool := false
  plen : Nat
  deriving DecidableEq, Repr

/-- A source item held for the pre-trigger or the record in progress: source tick, MT in nanoseconds at that tick,
bytes, and whether it follows a gap (R252, R264, R270). -/
structure CapItem where
  tick : BitVec 48
  mt : Nat
  bytes : List Byte
  gap : Bool
  deriving DecidableEq, Repr

/-- A trigger taken (R255, R264): its position and the sample of it in its tick, the state left, the winning condition,
ALSO, whether its hit was late, the tick of its evaluation, and what TRIG_STAT, TRIG_TC and TRIGGERED held before it,
which an abort in the same tick restores (R261). -/
structure CapTrig where
  t : BitVec 48
  sample : Nat
  left : Nat
  cond : Nat
  also : Nat
  late : Bool
  at_ : BitVec 48
  old : Word × Word × Word
  oldEvt : Bool
  deriving DecidableEq, Repr

/-- A capture unit (R253 to R270): the tick from which the pre-trigger fills; items taken before a trigger, oldest
first, and those of the record in progress; the hits and input activations waiting for a trigger sample; the tick last
evaluated; which RISE and FALL predicates have seen the far side of their threshold; the trigger of the capture in
progress, and whether a record holds it; the sparse items still to come; whether the next record is the capture's
first, whether that one carries PRE_SHORT, and whether the next item follows a gap; captures since arming; records
unsent, oldest first; the ring (base and size) and the place written next; records overwritten since the last one
sent; MT at the last stream header sent; the last source tick taken; the tick the last capture completed; the staging
in use, in 1/15 byte, and the tick it was counted. -/
structure Cap where
  a0 : BitVec 48 := 0
  hist : List CapItem := []
  cur : List CapItem := []
  hits : List (BitVec 48 × Hit × Bool) := []
  acts : List (Nat × BitVec 48) := []
  done : Option (BitVec 48) := none
  primed : List Nat := []
  trig : Option CapTrig := none
  trigPut : Bool := false
  post : Nat := 0
  first : Bool := false
  short : Bool := false
  gap : Bool := false
  capno : Nat := 0
  recs : List CapRec := []
  base : Nat := 0
  ring : Nat := 0
  w : Nat := 0
  ovw : Nat := 0
  hdrMt : Option Nat := none
  got : Option (BitVec 48) := none
  ended : Option (BitVec 48) := none
  staged : Nat := 0
  stagedAt : BitVec 48 := 0
  /-- The tick before which the rate cap lets no further record out (R268, R430). -/
  egrAt : Option (BitVec 48) := none
  /-- The result words that a DEMOD_IQ tap has taken, by their places (R252). -/
  iqTaken : List Nat := []
  deriving DecidableEq, Repr

/-! ## Pantry (12_memory.md) -/

/-- A Pantry port (R278, R280): its region, bandwidth and latency settings, whether it is admitted, the last RESULT and
the breach count. -/
structure Port where
  bw : Nat := 0
  lat : Nat := 0
  base : Nat := 0
  size : Nat := 0
  admitted : Bool := false
  result : Nat := 0
  breach : Nat := 0
  deriving DecidableEq, Repr

/-- Who waits for a Pantry request of port 96 (R46, R290): the window's write or prefetch, or a host port's write or
read. -/
inductive PWait where
  | port
  | pwin (read : Bool)
  | daxka (h : Nat) (read : Bool)
  deriving DecidableEq, Repr

/-- A request accepted at a channel (R282 to R285): its number, port, channel, address and deadline, its escalation level,
who waits for it, what a read returned, the tick of acceptance, what a write puts, and its block before the requests of
that tick. -/
structure PReq where
  id : Nat
  port : Nat
  ch : Nat
  addr : Nat
  deadline : BitVec 48
  level : Nat := 0
  wait : PWait := .port
  data : List Byte := []
  acc : BitVec 48 := 0
  put : List Byte := []
  before : List Byte := []
  deriving DecidableEq, Repr

/-! ## Serial lanes (13_serial_lanes.md) -/

/-- A substitution at a port (R314 to R316): the logical lane, whether this end decided it, whether this receiver has
switched, whether SWAP_READY has come, and whether it is abrupt. -/
structure Swap where
  lane : Nat
  mine : Bool
  switched : Bool := false
  ready : Bool := false
  abrupt : Bool := false
  deriving DecidableEq, Repr

/-! ## Ring and host ports (14_ring_and_host_ports.md) -/

/-- A BULK or TIME flit to send: its bits but for LSEQ and CRC, the stamp from which its residence counts, in
2^-16 ns, and what its sender notes at the first send (0 nothing, 1 write TS, 2 note t3 of a DELAY_REQ, 3 note t1 of a
PDELAY_REQ) (R337, R370, R371). -/
structure TimeTx where
  bits : BitVec 256
  ingress : Option Int := none
  role : Nat := 0
  deriving DecidableEq, Repr

/-- A ring port (R323, R330 to R337): the last real-time LSEQ given, the latest received and the numbers lost, the
numbers under which received flits went on, the last replay LSEQ given, the replay buffer with the next entry to
resend and the resends without progress, the last replay LSEQ taken and whether NAK is sent, what waits to enter the
buffer, whether the port has been up, is in GRACE, whether the grace follows its own bypass opening, whether R321 finds
a fault, and the lane-management message last received. -/
structure RPort where
  txNo : Nat := 0
  rxTop : Option Nat := none
  lost : List Nat := []
  relay : List (Nat × Option Nat) := []
  rtLast : Nat := 0
  slot : Nat := 0
  rplTx : Nat := 0
  buf : List (Nat × TimeTx) := []
  resend : Option Nat := none
  tries : Nat := 0
  rplRx : Nat := 0
  nak : Bool := false
  timeQ : List TimeTx := []
  bulkQ : List TimeTx := []
  wasUp : Bool := false
  grace : Bool := false
  own : Bool := false
  cable : Bool := false
  conflict : Bool := false
  lmsgRx : Nat := 0
  deriving DecidableEq, Repr

/-- Where a Daxka request came from: a station on the host port, or a node with its MSGID through the ring (R347,
R348). -/
inductive DxFrom where
  | host (src : BitVec 48)
  | ring (node msgid : Nat)
  deriving DecidableEq, Repr

/-- What a response waits for: nothing, n Pantry requests from a number on (R279), or the answer to a tunnelled message
from a node (R348). -/
inductive DxWait where
  | ready
  | pantry (first n : Nat)
  | tunnel (msgid node : Nat)
  deriving DecidableEq, Repr

/-- A response in its host port's queue (R347): NODE is that of the module that answers. -/
structure DxReply where
  from_ : DxFrom
  node : Nat
  op : Nat
  tag : Nat
  addr : Nat
  status : Nat
  data : List Byte
  waits : DxWait := .ready
  deriving DecidableEq, Repr

/-- A Daxka request as its receiver reads it (R343). -/
structure DxReq where
  from_ : DxFrom
  op : Nat
  node : Nat
  loc : Bool
  ack : Bool
  tag : Nat
  addr : Nat
  len : Nat
  data : List Byte
  /-- Its header breaks R344. -/
  bad : Bool := false
  deriving DecidableEq, Repr

/-- Fragments taken of a tunnelled message (R329): its source, REPLY, PATH, MSGID, the next fragment, the bytes. -/
structure Frag where
  node : Nat
  reply : Bool
  path : Nat
  msgid : Nat
  next : Nat
  bytes : List Byte
  deriving DecidableEq, Repr

/-- A host port: the CONSUMED last reported, the source of its last request, the MSGID tried next, requests that wait for
a free MSGID, responses in order. -/
structure HPort where
  reported : Nat := 0
  last : Option (BitVec 48) := none
  nextMsg : Nat := 0
  stalled : List DxReq := []
  replies : List DxReply := []
  deriving DecidableEq, Repr

/-! ## Time (15_time_and_sync.md) -/

/-- A request to drive a TBUS line: the first cycle may not begin before a tick; a START also names the opening it must
not precede, its master, and the void cycles so far. -/
structure TbReq where
  line : Nat
  notBefore : BitVec 48
  start : Option (BitVec 48)
  master : Nat := 0
  voids : Nat := 0
  deriving DecidableEq, Repr

/-- A slave engine (R367, R372), times in 2^-16 ns: the Sync held (sequence id, t1 once known, t2, c1) and whether its θ
has been formed, the last Delay_Req sent (sequence id, t3), and the Delay_Resp held (t3, t4, c2). -/
structure Slave where
  seq : Nat := 0
  t1 : Option Int := none
  t2 : Int := 0
  c1 : Int := 0
  fresh : Bool := false
  dseq : Nat := 0
  t3 : Option Int := none
  resp : Option (Int × Int × Int) := none
  deriving DecidableEq, Repr

/-- Alignment (R354): armed, and the edges passed since the first that qualified. -/
structure Align where
  armed : Bool := false
  passed : Nat := 0
  deriving DecidableEq, Repr

/-! ## Calibration (17_calibration.md) -/

/-- A request slot (R394, R395, R406, R408): its place in the order of submission, segments run of the present attempt,
the agreeing results so far (newest first), a cancellation waiting for the segment's end, a result to apply at the end
of the window or idle run, and the temperature recorded when it was armed. -/
structure CalReq where
  order : Nat := 0
  seg : Nat := 0
  run : List (Word × Word) := []
  cancel : Bool := false
  apply : Bool := false
  temp : Int := 0
  deriving DecidableEq, Repr

/-- An output that a calibration segment drives (R392): muted to common mode, or with a waveform of the routine's own, in the
ticks from the segment's start up to its end. -/
structure CalPlay where
  out : Nat
  muted : Bool
  start : BitVec 48
  stop : Option (BitVec 48) := none
  deriving DecidableEq, Repr

/-! ## Monitor converter (18_monitor_converter.md) -/

/-- The monitor converter (R413 to R421): the list entry next (64 + h: housekeeping conversion h), the places of the two
rotations, SUSPECT, the pending urgent requests with their due ticks, results that were outside (entry or 0x80 + k, and
comparator), entries whose invalid configuration has been reported, the channel with a ZERO_OK, the measurement that
runs (true: FULL) with its channel, and flux outputs whose last readback differed from the code they held (R469). -/
structure Mon where
  pos : Nat := 0
  ref : Nat := 0
  flx : Nat := 0
  suspect : Bool := false
  urg : List (Nat × BitVec 48) := []
  outside : List (Nat × Nat) := []
  told : List Nat := []
  zeroOf : Option Nat := none
  run : Option (Bool × Nat) := none
  fluxOff : List (Nat × Int) := []
  deriving DecidableEq, Repr

/-! ## Thermal model and power (19_thermal_and_power.md) -/

/-- Trivet and the threshold conditions (R425 to R429): conditions set, updates in a row in which a site's diode in use
differed from the model by more than XCHK_LIM, updates in a row in which its spare has agreed, sites whose primary
failed while it was controlling. -/
structure Therm where
  warn : Bool := false
  throt : Bool := false
  shut : Bool := false
  lwarn : Bool := false
  lstop : Bool := false
  off : List (Nat × Nat) := []
  agree : List (Nat × Nat) := []
  frozen : List Nat := []
  /-- AUTO_RESTART as it stood at a thermal shutdown (R432). -/
  auto : Bool := false
  deriving DecidableEq, Repr

/-- The parts of the shed demand (R438, R439): the current demand, the voltage demand, and whether HOLD has elapsed for a
step down that waits for a boundary. -/
structure Shed where
  cur : Nat := 0
  volt : Nat := 0
  due : Bool := false
  /-- Stages entered since the last stage 0, newest first (R442). -/
  history : List Nat := []
  deriving DecidableEq, Repr

/-! ## Health and spares (20_health_and_spares.md) -/

/-- An NVM event-log entry (R457). -/
structure LogEntry where
  seq : Nat
  cause : Nat
  stage : Nat
  hot : Nat
  mt : Nat
  tc : Nat
  vin : Nat
  page : Nat
  detail : Nat
  deriving DecidableEq, Repr

/-- A wear indicator (R450): counts by hour, this hour first, and WEAR_VAL.STATE. -/
structure Wear where
  hours : List Nat := []
  st : Nat := 0
  deriving DecidableEq, Repr

/-- A substitution pending for a boundary (R451, R453), by kind, instance and unit. -/
structure Sub where
  kind : Nat
  inst : Nat
  unit : Nat
  deriving DecidableEq, Repr

/-! ## Outputs -/

/-- Where a PTP message goes: destination MAC address, EtherType, the IP address and the UDP port where it travels over UDP, and
its tag while VLAN_EN is 1 (R342, R365). -/
structure PtpTo where
  mac : Nat
  etype : Nat
  udp : Option (Nat × Nat)
  tag : Option Nat
  deriving DecidableEq, Repr

/-- What the module sends at its ports: the model's record of it. -/
inductive Output where
  | flit (r : Nat) (bits : BitVec 256)
  | lane (r : Nat) (bits : BitVec 128)
  /-- A frame of host port h, from its destination address to its last payload byte; padding and FCS follow. -/
  | frame (h : Nat) (bytes : List Byte)
  /-- A PTP message by its kind (0 Sync, 1 Delay_Req, 2 Pdelay_Req, 3 Pdelay_Resp, 8 Follow_Up, 9 Delay_Resp,
  10 Pdelay_Resp_Follow_Up, 11 Announce): sequence id, time in 2^-16 ns, correction, the port answered, other bytes, and where it
  goes (R365). -/
  | ptp (h kind seq : Nat) (time : Option Int) (corr : Int) (peer : Option (BitVec 64 × BitVec 16)) (bytes : List Byte)
    (dst : PtpTo)
  /-- An ARP reply or a neighbour advertisement that gives HOST_MAC of host port h for an address, and its tag (R340, R342). -/
  | resolved (h : Nat) (dest : BitVec 48) (v6 : Bool) (ip : BitVec 128) (tag : Option Nat)
  | tbus (lines : Nat) (at_ : BitVec 48)
  deriving DecidableEq, Repr

/-- The state of the module. -/
structure State where
  /-- Register contents by address; an unlisted register holds its reset value. -/
  regs : List (Nat × Word) := []
  held : List Held := []
  /-- Staged low halves (R8) and latched reads (R9, R186, R359), by path and address. -/
  wlatch : List (Nat × Word) := []
  rlatch : List (Nat × Option Word) := []
  clk : Clock := {}
  tick : ThisTick := {}
  boot : Boot := {}
  i3c : I3c := {}
  pins : Pins := {}
  /-- Pages in soft reset (R50). -/
  resetting : List Nat := []
  /-- Pages whose ENABLE waits for their groups' boundary (R481). -/
  enWait : List Nat := []
  /-- Bytes of every control, envelope and weight store and of the active Mortar graph, by aperture address (R55). -/
  stores : Bytes := []
  /-- Staging buffers by path (R69). -/
  staging : List (Nat × Staging) := []
  accepted : List Accepted := []
  /-- The CRC-32C last committed for a store; none since the zero fill (R98, R103). -/
  committed : List (Nat × Option Word) := []
  /-- Sequencers whose customer region is unchecked or bad (R98, R111). -/
  unchecked : List Nat := []
  vimg : Vimg := {}
  groups : List (Nat × Group) := []
  seqs : List (Nat × Seq) := []
  tones : List (Nat × Tone) := []
  strms : List (Nat × Stream) := []
  outs : List (Nat × Out) := []
  fluxes : List (Nat × Flux) := []
  /-- 'The first in each shot' events already raised, by event and page (R129, R150, R162, R174, R178). -/
  seen : List Nat := []
  /-- Timed items on their way (R16 to R20). -/
  items : List Item := []
  /-- What waits for a tick ahead: the tick, the sequencer, and what it does then (R18, R94). -/
  later : List (BitVec 48 × Nat × Prov) := []
  demods : List (Nat × Demod) := []
  rdis : List (Nat × Rdi) := []
  iqWords : List IqWord := []
  iqSent : Nat := 0
  /-- Real-time messages waiting to be sent: ring port, LSEQ, message, oldest first (R206, R330, R332). -/
  txq : List (Nat × Nat × BitVec 48 × TxMsg) := []
  /-- Real-time messages that are not ready yet: port, the tick in which they are, the message (R336). -/
  txWait : List (Nat × BitVec 48 × TxMsg) := []
  slots : List (Nat × LSlot) := []
  dchs : List (Nat × Dch) := []
  /-- Provisional arms counted in PEND: demodulator and branch (R204). -/
  provArms : List (Nat × List Nat) := []
  /-- What the Ladle has still to do, by the tick in which it acts. -/
  ladleJobs : List (BitVec 48 × LJob) := []
  /-- CLR_ENTRIES waits for the first tick with no shot running (R192). -/
  clrEntries : Bool := false
  fires : List Fire := []
  /-- Lines fired in ticks that the router has not settled yet: tick, line, whether by software (R214, R220). -/
  lines : List (BitVec 48 × Nat × Bool) := []
  mort : Mort := {}
  /-- The active bank failed parity: no stream starts until a new graph is committed (R248). -/
  graphBad : Bool := false
  /-- Mortar's staging bank: the path it is bound to, its bytes, and an accepted image waiting for its exchange
  (R242). The active bank is in `stores`. -/
  gBind : Option Nat := none
  gStage : Bytes := []
  gWait : Option (Word × Bytes) := none
  caps : List (Nat × Cap) := []
  ports : List (Nat × Port) := []
  /-- The bytes of the Pantry that were written, by place: row, bank, block, channel, byte (R276). No byte is `none`. An
  unlisted byte holds what no rule gives: a free value of its place and of the number of losses before (R56, log 7). -/
  pantry : List (Nat × Option Byte) := []
  /-- How often the Pantry's contents became undefined: module resets, losses of supply (the model's own field). -/
  fills : Nat := 0
  /-- Blocks that an abrupt retirement left reading zero until they are written: the channels retired before, and the one
  lost (R293). -/
  pzero : List (List Nat × Nat) := []
  preqs : List PReq := []
  preqNo : Nat := 0
  /-- The row last served in a bank, by channel × 16 + bank (R283). -/
  rows : List (Nat × Option Nat) := []
  /-- Blocks that have reached an output's refill engine, newest first: port, block, its bytes, or none for one that read
  as uncorrectable (R286, R290). -/
  refilled : List (Nat × Nat × Option (List Byte)) := []
  /-- A channel's last retraining slot: its tick, and how many slots the full retrain in progress has taken (R289). -/
  trainSlots : List (Nat × Option (BitVec 48 × Nat)) := []
  /-- Retired channels in order of retirement; the channel being evacuated; planned retirements that wait (R292,
  R295). -/
  retired : List Nat := []
  evac : Option Nat := none
  retWait : List Nat := []
  /-- Withdrawn refill and capture ports whose effect waits for their shot boundary (R33). -/
  wdrawn : List Nat := []
  /-- Ports that step 1 of R292 has released, whose units act at their shot boundary. -/
  wfreed : List Nat := []
  /-- Soft repairs that the full map does not name: channel and bank group (R291). -/
  softRows : List (Nat × Nat) := []
  /-- Corrected errors of a row since its channel's last retraining slot, by channel × 2^19 + bank × 32,768 + row (R290,
  R447). -/
  corrs : List (Nat × Nat) := []
  /-- Rows marked for repair: channel, and bank × 32,768 + row (R290). -/
  marked : List (Nat × Nat) := []
  /-- Blocks of the window's prefetch that read as uncorrectable (R290). -/
  pbad : List Nat := []
  /-- Substitutions under way, by port: 0 EAST, 1 WEST, 2 H0, 3 H1. -/
  swaps : List (Nat × Swap) := []
  /-- The lane-management message each port sends (R326), by port. -/
  lmsgs : List (Nat × Nat) := []
  /-- Lanes whose present second already holds an SNR report below SNR_MIN (R450), and reports in it, by lane. -/
  laneSec : List (Nat × Nat × Bool) := []
  /-- The tick from which a host port's FEC counters count, none before its first link-up (R351). -/
  fecs : List (Nat × Option (BitVec 48)) := []
  /-- The tick from which a lane's pattern checker counts in its present lock (R307). -/
  prbsFrom : List (Nat × BitVec 48) := []
  rports : List (Nat × RPort) := []
  hports : List (Nat × HPort) := []
  frags : List Frag := []
  /-- Tunnelled messages complete and not yet acted on. -/
  inbox : List Frag := []
  /-- TSEQ of the last TRIGGER taken from each source (R339). -/
  trigSeen : List (Nat × Nat) := []
  tbusQ : List TbReq := []
  /-- The start of the bus cycle last acted on (R373). -/
  tbusAt : Option (BitVec 48) := none
  /-- TSEQ: triggers this module has sent (R338). -/
  tseq : Nat := 0
  /-- Slave engines: 0 H0, 1 H1, 2 the ring, 3 and 4 the link-delay exchanges of EAST and WEST. -/
  slaves : List (Nat × Slave) := []
  align : Align := {}
  /-- The tick from which a compare unit's value, its enable and MT stand without a step (R363). -/
  cmpFrom : List (Nat × BitVec 48) := []
  /-- The receive queues of H0 and H1 (R369), entries oldest first, and the read place in the head entry. -/
  rxqs : List (Nat × List (List Byte)) := []
  rxqPos : List (Nat × Nat) := []
  /-- Sequence ids of the messages the module sends, by kind of message. -/
  seqIds : List (Nat × Nat) := []
  /-- Capture units that owe a stream header (R357). -/
  owesHeader : List Nat := []
  cals : List (Nat × CalReq) := []
  /-- Submissions so far. -/
  calNo : Nat := 0
  /-- The group whose calibration window is open, and the ticks its segments have taken (R400). -/
  calWin : Option (Nat × Nat) := none
  /-- Internal DAC trims by output: offset and gain (R403). -/
  dacTrims : List (Nat × (Word × Word)) := []
  /-- The trace of the last PREDIST to end DONE: the number of its first free value (R403). -/
  trace : Option Nat := none
  /-- The outputs that calibration segments drive or drove, newest first (R392, R401; outputs by number: drive, probe from 64,
  flux from 80). -/
  calPlays : List CalPlay := []
  mon : Mon := {}
  therm : Therm := {}
  shed : Shed := {}
  /-- The NVM event log, newest first, and entries written since manufacture (R457). Survives every reset. -/
  evLog : List LogEntry := []
  logSeq : Nat := 0
  /-- The spare map in NVM, entry 0 first (R455). Survives every reset. -/
  spareMap : List Nat := []
  /-- Entries of the spare map cleared since the last power-on, by index, as they stood: they take effect until the next
  (R294, R456). -/
  mapOld : List (Nat × Nat) := []
  wears : List (Nat × Wear) := []
  subs : List Sub := []
  /-- Pages asked to return to their original unit at the next boundary (R454). -/
  returns : List Nat := []
  /-- The word the last read command returned, and its value. The model's own view of a read. -/
  rdata : Word := 0

  /-- What the module sent at its ports, newest first. The model's own view of outputs. -/
  outbox : List Output := []
  /-- Counts the free values drawn. The model's own field (log 9). -/
  free : Nat := 0
  /-- The commands that wait, first in, first out. -/
  pending : List Instr := []
  deriving DecidableEq, Repr

/-- The module right after power-on (R56, R59): every register at its reset value, stores empty, start-up phase 1. -/
def State.reset : State := {}

end Sys2Proof.Machine
end

