-- ==== Sys2Proof/Machine/Ops.lean ====
section
/-! DEFINITION. The named operations over the state: registers, time, timed items, groups, sequencers, converters. -/

namespace Sys2Proof.Machine

/-! ## Registers -/

/-- The address of a register: page kind, instance, offset (R54). -/
def addrOf (pt : PT) (n off : Nat) : Nat := (ptBase pt + n) * 4096 + off

/-- What a register holds. -/
def getReg (s : State) (a : Nat) : Word := mapGet regReset s.regs a

/-- Set what a register holds. -/
def setReg (s : State) (a : Nat) (v : Word) : State := { s with regs := mapSet regReset s.regs a v }

/-- The register of a page. -/
def reg (s : State) (pt : PT) (n off : Nat) : Word := getReg s (addrOf pt n off)

/-- Field [hi:lo] of a page's register. -/
def rd (s : State) (pt : PT) (n off hi lo : Nat) : Nat := fget (reg s pt n off) hi lo

/-- Bit i of a page's register. -/
def rdBit (s : State) (pt : PT) (n off i : Nat) : Bool := wbit (reg s pt n off) i

/-- Set field [hi:lo] of a page's register. -/
def wr (s : State) (pt : PT) (n off hi lo v : Nat) : State :=
  setReg s (addrOf pt n off) (fput (reg s pt n off) hi lo v)

/-- Set a whole register of a page. -/
def wrAll (s : State) (pt : PT) (n off v : Nat) : State := setReg s (addrOf pt n off) (BitVec.ofNat 32 v)

/-- Add to a counter field, which saturates. -/
def bump (s : State) (pt : PT) (n off hi lo k : Nat) : State :=
  wr s pt n off hi lo (min (rd s pt n off hi lo + k) (2 ^ (hi + 1 - lo) - 1))

/-- A 64-bit pair of registers as one number: _LO at off, _HI at off + 4. -/
def rdPair (s : State) (pt : PT) (n off : Nat) : Nat :=
  (reg s pt n off).toNat + 2 ^ 32 * (reg s pt n (off + 4)).toNat

/-- Set a pair. -/
def wrPair (s : State) (pt : PT) (n off v : Nat) : State :=
  wrAll (wrAll s pt n off (v % 2 ^ 32)) pt n (off + 4) (v / 2 ^ 32)

/-- Every register of the pages with numbers in [lo, hi) back at its reset value. -/
def clearPages (s : State) (lo hi : Nat) : State := { s with regs := mapDrop s.regs (lo * 4096) (hi * 4096) }

/-- The registers of one page back at their reset values, but for the offsets in [klo, khi), which stay. -/
def clearPageBut (s : State) (pg klo khi : Nat) : State :=
  { s with regs := mapDrop (mapDrop s.regs (pg * 4096) (pg * 4096 + klo)) (pg * 4096 + khi) (pg * 4096 + 4096) }

/-! ## Supply, phases, pages -/

/-- The start-up phase now (SYS.BOOT.PHASE). -/
def phase (s : State) : Nat := rd s .sys 0 0x04C 3 0

/-- The module is powered and not held in reset. -/
def alive (s : State) : Bool := s.boot.powered && !s.boot.inReset && !s.boot.target

/-- READY has been reached (R59). -/
def ready (s : State) : Bool := alive s && rdBit s .sys 0 0x04C 31

/-- REF_IN is present at the strapped frequency (R47, R60). -/
def refOk (s : State) : Bool := decide (s.boot.ref = some (nbit s.pins.strap.toNat 3))

/-- The end of start-up phase n has been reached. -/
def phaseEnded (s : State) (n : Nat) : Bool := alive s && decide (n < phase s)

/-- The block of a kind of page is up (R63); with the domains off only management's pages are. -/
def ptUp (s : State) (pt : PT) : Bool :=
  phaseEnded s (upPhase pt) && (!s.boot.dark || decide (upPhase pt ≤ 2))

/-- The page is up. -/
def pageUp (s : State) (pg : Nat) : Bool :=
  match pageOf pg with
  | none => false
  | some (pt, _) => ptUp s pt

/-- PG_CTRL.ENABLE of a page (R481). -/
def enabled (s : State) (pt : PT) (n : Nat) : Bool := ptUp s pt && rdBit s pt n 0x008 0

/-- A host port is active: after start-up, while its page is enabled (R64, R481). -/
def hostOn (s : State) (h : Nat) : Bool := ready s && enabled s .host h

/-- A page's soft reset is in progress (R50). -/
def isResetting (s : State) (pt : PT) (n : Nat) : Bool := s.resetting.contains (ptBase pt + n)

/-- PG_STAT.EVT_PEND or FAULT_PEND of a page (R52). -/
def pagePending (s : State) (pg : Nat) : Bool :=
  pageUp s pg &&
  (decide (getReg s (pg * 4096 + 0x010) &&& getReg s (pg * 4096 + 0x014) ≠ 0) ||
   decide (getReg s (pg * 4096 + 0x018) &&& getReg s (pg * 4096 + 0x01C) ≠ 0))

/-- PG_STAT.FAULT_PEND of a page. -/
def faultPending (s : State) (pg : Nat) : Bool :=
  pageUp s pg && decide (getReg s (pg * 4096 + 0x018) &&& getReg s (pg * 4096 + 0x01C) ≠ 0)

/-- The pending pages, lowest first (R52). -/
def pendingPages (s : State) : List Nat := allPages.filter (pagePending s)

/-- ALERT_N is low while a page has FAULT_PEND (R53). -/
def alertLow (s : State) : Bool := allPages.any (faultPending s)

/-- Request an in-band interrupt, while interrupts are enabled; requests merge (R52). Within a peripheral reset none is
requested (log 37). -/
def requestIbi (s : State) : State :=
  if s.i3c.ibiOn && !s.i3c.inReset then { s with i3c := { s.i3c with ibiReq := true } } else s

/-- The target holds a dynamic address: I3C_STAT.DA_VALID (R36). -/
def hasAddr (s : State) : Bool := rdBit s .mgmt 0 0x040 31

/-- The target answers at its dynamic address (R36, R57). -/
def i3cAnswers (s : State) : Bool := hasAddr s && !s.i3c.inReset

/-- After a change of a page's event or fault registers: request an interrupt when the page has become pending. -/
def notePending (pg : Nat) (before after : State) : State :=
  if pagePending after pg && !pagePending before pg then requestIbi after else after

/-! ## Time -/

/-- TC and MT run: the reference is locked (phase 3) and the module powered. -/
def clockRuns (s : State) : Bool := ptUp s .time

/-- The increment of MT in one tick, in 2^-32 ns: INC + ADJ (R356). -/
def mtInc (s : State) : Int :=
  ((rd s .time 0 0x060 31 0 + 2 ^ 32 * rd s .time 0 0x064 3 0 : Nat) : Int) + sx 32 (reg s .time 0 0x07C).toNat

/-- How many of x ticks counted from 0 have a TC that is 0 mod 3; TC wraps at 2^48. -/
def thirdsTo (x : Nat) : Nat := x / 2 ^ 48 * ((2 ^ 48 + 2) / 3) + (x % 2 ^ 48 + 2) / 3

/-- How many of the ticks t, t+1, …, t+n-1 have a TC that is 0 mod 3. -/
def thirds (t n : Nat) : Nat := thirdsTo (t + n) - thirdsTo t

/-- The rate of MT is about to change: what it was until now is kept (R264, R356). -/
def noteRate (s : State) : State :=
  if s.clk.was.any (fun e => decide (e.1 = s.clk.tc)) then s
  else { s with clk := { s.clk with was := ((s.clk.tc, s.clk.mt, mtInc s, rdBit s .time 0 0x040 8) :: s.clk.was).take 16 } }

/-- Let n ticks pass: TC counts, and MT advances by INC + ADJ + e in each (R356). A step waiting for the next tick is
taken in the first (R357). What the tick before held is past. -/
def passTicks (n : Nat) (s : State) : State :=
  if n = 0 || !clockRuns s then s
  else
    let third : Nat := if rdBit s .time 0 0x040 8 then thirds s.clk.tc.toNat n else 0
    let d : Int := (n : Int) * mtInc s + (third : Int) + s.clk.step
    let third1 : Nat := if rdBit s .time 0 0x040 8 then thirds s.clk.tc.toNat (n - 1) else 0
    let d1 : Int := if n = 1 then 0 else ((n - 1 : Nat) : Int) * mtInc s + (third1 : Int) + s.clk.step
    { s with clk := { s.clk with
      tc := s.clk.tc + BitVec.ofNat 48 n, mt := s.clk.mt + BitVec.ofInt 96 d, prev := s.clk.mt + BitVec.ofInt 96 d1
      step := 0 }, tick := {} }

/-- Let time pass to a tick, when it lies ahead (log 1). -/
def passTo (t : BitVec 48) (s : State) : State :=
  let d := ticksTo s.clk.tc t
  if 0 < d then passTicks d.toNat s else s

/-- What a block did by itself in an earlier tick, done now: what hardware set then is not of the current tick (R7). -/
def atTick (x : BitVec 48) (f : State → State) (s : State) : State :=
  if ticksTo x s.clk.tc ≤ 0 then f s
  else
    let t := f { s with clk := { s.clk with tc := x } }
    { t with clk := s.clk, tick := s.tick }

/-- Draw a free value: one no statement can know (log 9). -/
def freeDraw (s : State) : Nat × State := (Config.free s.free, { s with free := s.free + 1 })

/-- MT in nanoseconds, 64 bits. -/
def mtNs (s : State) : Nat := s.clk.mt.toNat / 2 ^ 32

/-! ## The current tick (R7, R35) -/

/-- Hardware sets W1C bits in this tick: a write that clears them in the same tick leaves them 1 (R7). -/
def noteRaised (a : Nat) (mask : Word) (s : State) : State :=
  if clockRuns s then { s with tick := { s.tick with raised := (a, mask) :: s.tick.raised } } else s

/-- The bits of a register that hardware has set in this tick. -/
def raisedNow (s : State) (a : Nat) : Word :=
  (s.tick.raised.filter (fun e => decide (e.1 = a))).foldl (fun m e => m ||| e.2) 0

/-- A data port's words of this tick stay where they are: its address is written, or it is read. -/
def portDone (a : Nat) (s : State) : State :=
  { s with tick := { s.tick with ports := s.tick.ports.filter (fun e => decide (e.1 ≠ a)) } }

/-- Hardware sets a W1C bit. -/
def raiseBit (pt : PT) (n off i : Nat) (s : State) : State :=
  noteRaised (addrOf pt n off) (fmask i i) (wr s pt n off i i 1)

/-! ## Groups and sequencers -/

def getGroup (s : State) (g : Nat) : Group := mapGet (fun _ => {}) s.groups g
def setGroup (s : State) (g : Nat) (x : Group) : State := { s with groups := mapSet (fun _ => {}) s.groups g x }

def getSeq (s : State) (q : Nat) : Seq := mapGet (fun _ => {}) s.seqs q
def setSeq (s : State) (q : Nat) (x : Seq) : State := { s with seqs := mapSet (fun _ => {}) s.seqs q x }

/-- The highest shed stage that some group has entered: the pauses of stage 2 and the host-port mode of stage 3 follow it
(R483). -/
def stageFirst (s : State) : Nat := (List.range 8).foldl (fun m g => max m (getGroup s g).stage) 0

/-- SEQ_CFG.GROUP of a sequencer: its group, or none (R23). -/
def seqGroup (s : State) (q : Nat) : Option Nat :=
  let g := rd s .seq q 0x040 27 24
  if g < 8 then some g else none

/-- The shed stage that a sequencer's outputs stand at: its group's, or the one in force when it has none (R440, R483). -/
def seqStage (s : State) (q : Nat) : Nat :=
  match seqGroup s q with
  | some g => (getGroup s g).stage
  | none => rd s .pwr 0 0x054 31 29

/-- Background calibration is paused: throttling, or shed stage 2 and above (R397, R430, R440). -/
def bgPaused (s : State) : Bool := decide (0 < rd s .therm 0 0x05C 31 29) || decide (2 ≤ stageFirst s)

/-- A shot of the group runs. -/
def shotRuns (s : State) (g : Nat) : Bool := (getGroup s g).running

/-- The group of a sequencer has a shot running. -/
def seqShotRuns (s : State) (q : Nat) : Bool :=
  match seqGroup s q with
  | none => false
  | some g => shotRuns s g

/-- Tag bits set after the shot closed: the register that shows the last shot's tag and the sticky bits follow (R11). -/
def retag (g : Nat) (last : Bool) (bits : BitVec 8) (s : State) : State :=
  let v := rd s .seq (112 + g) 0x0B8 15 0
  let w := v ||| (bits.toNat * 256) ||| (if last then bits.toNat else 0)
  noteRaised (addrOf .seq (112 + g) 0x0B8) (BitVec.ofNat 32 (bits.toNat * 256)) (wr s .seq (112 + g) 0x0B8 15 0 w)

/-- Set tag bits in the shot of a group in which a tick falls: the running one, or one that has closed since (R20, log 85).
No shot: no tag. -/
def tagDue (g : Nat) (d : BitVec 48) (bits : BitVec 8) (s : State) : State :=
  let x := getGroup s g
  let hit (p : BitVec 48 × BitVec 48 × BitVec 8) : Bool := decide (0 ≤ ticksTo p.1 d ∧ 0 ≤ ticksTo d p.2.1)
  if x.running && decide (0 ≤ ticksTo x.t0 d) then setGroup s g { x with tag := x.tag ||| bits }
  else if x.past.any hit then
    retag g ((x.past.head?.map hit).getD false) bits
      (setGroup s g { x with past := x.past.map (fun p => if hit p then (p.1, p.2.1, p.2.2 ||| bits) else p) })
  else s

/-- Set tag bits in the running shot of a group (R10, R11). No shot: no tag. -/
def tagShot (g : Nat) (bits : BitVec 8) (s : State) : State :=
  let x := getGroup s g
  if x.running then setGroup s g { x with tag := x.tag ||| bits } else s

/-- Set tag bits in the shot of a sequencer's group. -/
def tagSeq (q : Nat) (bits : BitVec 8) (s : State) : State :=
  match seqGroup s q with
  | none => s
  | some g => tagShot g bits s

/-- Set tag bits in the shot of every group that has one running (R20). -/
def tagAll (bits : BitVec 8) (s : State) : State := (List.range 8).foldl (fun t g => tagShot g bits t) s

def tagLate : BitVec 8 := 0x01
def tagCorrupt : BitVec 8 := 0x02
def tagVoid : BitVec 8 := 0x04
def tagFrame : BitVec 8 := 0x08
def tagThrottled : BitVec 8 := 0x10

/-- The sequencer that controls a drive or probe output: SEQn for DRVn (n < 64), SEQ(64+n) for PRBn (R66). Outputs
are numbered 0 to 63 and 64 to 79, so the number is the same. -/
def outSeq (out : Nat) : Nat := out

/-- The page of a drive or probe output. -/
def outPage (out : Nat) : PT × Nat := if out < 64 then (.drv, out) else (.prb, out - 64)

/-- The flux sequencer of a flux output (R66). -/
def fluxSeq (o : Nat) : Nat := 80 + o / 8

/-- The groups that use a block (R22), by page. The Ladle and the router serve every sequencer. -/
def usesGroups (s : State) (pt : PT) (n : Nat) : List Nat :=
  let ofSeq (q : Nat) : List Nat := match seqGroup s q with
    | none => []
    | some g => [g]
  match pt with
  | .seq => ofSeq n
  | .drv => ofSeq n
  | .prb => ofSeq (64 + n)
  | .rdi => ofSeq (64 + n)
  | .flx => ofSeq (80 + n)
  | .ladle | .evt => ((List.range 120).flatMap ofSeq).dedup
  | .mortar | .tile => [rd s .mortar 0 0x040 2 0]
  | .cap => [rd s .cap n 0x040 18 16]
  | _ => []

/-- Some group that uses the block has a shot running. -/
def blockBusy (s : State) (pt : PT) (n : Nat) : Bool := (usesGroups s pt n).any (shotRuns s)

/-! ## Converters -/

def getTone (s : State) (out tone : Nat) : Tone := mapGet (fun _ => {}) s.tones (out * 64 + tone)
def setTone (s : State) (out tone : Nat) (x : Tone) : State :=
  { s with tones := mapSet (fun _ => {}) s.tones (out * 64 + tone) x }

def getOut (s : State) (out : Nat) : Out := mapGet (fun _ => {}) s.outs out
def setOut (s : State) (out : Nat) (x : Out) : State := { s with outs := mapSet (fun _ => {}) s.outs out x }

def getStream (s : State) (out n : Nat) : Stream := mapGet (fun _ => {}) s.strms (out * 8 + n)
def setStream (s : State) (out n : Nat) (x : Stream) : State :=
  { s with strms := mapSet (fun _ => {}) s.strms (out * 8 + n) x }

def getFlux (s : State) (o : Nat) : Flux := mapGet (fun _ => {}) s.fluxes o
def setFlux (s : State) (o : Nat) (x : Flux) : State := { s with fluxes := mapSet (fun _ => {}) s.fluxes o x }

/-! ## Timed items -/

/-- The number of a branch run ahead: its sequencer and its own number. -/
def depOf (q id : Nat) : Nat := id * 128 + q

/-- Send a timed item due at a tick (R16). -/
def sendItem (due : BitVec 48) (group : Option Nat) (deps : List Nat) (load : Payload) (s : State) : State :=
  { s with items := s.items ++ [{ stamp := stampOf due, group := group, deps := deps, load := load }] }

/-- The most ticks that an item is issued ahead of its due tick (R18). -/
def leadLimit : Nat := 16384

/-- A block whose item lies further ahead than the lead limit holds it: time passes until it may be issued (R18). -/
def withinLead (due : BitVec 48) (s : State) : State := passTo (due - BitVec.ofNat 48 leadLimit) s

/-- The first item whose payload a test accepts, and the others. -/
def takeItem (p : Payload → Bool) : List Item → Option (Item × List Item)
  | [] => none
  | i :: is =>
    if p i.load then some (i, is)
    else match takeItem p is with
      | none => none
      | some (j, js) => some (j, i :: js)

/-- Two loads that one word sends to one converter group, or to the Ladle, make one item (R16). -/
def oneWord : Payload → Payload → Bool
  | .port a _ _ _ _ _ _ _ w _ _, .port b _ _ _ _ _ _ _ v _ _ => decide (a = b ∧ w = v)
  | .flux a _ _ _ _ _ w _, .flux b _ _ _ _ _ v _ => decide (a / 8 = b / 8 ∧ w = v)
  | .arm a w _, .arm b v _ => decide (a / 32 = b / 32 ∧ w = v)
  | .armCopy a, .armCopy b => decide (a / 32 = b / 32)
  | _, _ => false

/-- Another part of the same item: accepted with it, and on time or late with it (R16). -/
def partOf (i j : Item) : Bool :=
  decide (i.stamp = j.stamp ∧ i.group = j.group ∧ i.deps = j.deps) && oneWord i.load j.load

/-- The crossing that an item takes, by the islands it joins (R14, R19). -/
def crossing : Payload → Nat × Nat
  | .port out _ _ _ _ _ _ _ _ _ _ => if out < 64 then (0, out / 4) else (1, out - 64)
  | .arm d _ _ => (1, d / 32)
  | .flux o _ _ _ _ _ _ _ => (2, o / 8)
  | .result r => (3, r.demod / 32)
  | .armCopy d => (4, d / 128)
  | .frame _ _ _ _ => (5, 0)
  | .bcast _ _ => (6, 0)
  | .mark g _ => (7, g)
  | .act input => (8, input)
  | .det _ _ _ => (9, 0)

/-- Two items that share an entry of their crossing's queue: parts of one, or what the Ladle sends in one tick (log 86). -/
def oneEntry (i j : Item) : Bool :=
  partOf i j || (decide (i.stamp = j.stamp ∧ crossing i.load = crossing j.load) &&
    (decide ((crossing i.load).1 = 6) || decide ((crossing i.load).1 = 9)))

/-- The items ahead of one in its crossing, each counted once. -/
def queueAhead (i : Item) (s : State) : List Item :=
  ((s.items.takeWhile (fun j => !decide (j = i))).filter (fun j =>
    decide (crossing j.load = crossing i.load) && !oneEntry i j)).foldl
      (fun l j => if l.any (oneEntry j) then l else j :: l) []

/-- The sender holds an item while the receiving queue has no free entry of its 32 (R19). -/
def heldBack (i : Item) (s : State) : Bool := decide (32 ≤ (queueAhead i s).length)

/-- The due tick an item names, as the receiving island reads it (R16). -/
def dueTick (i : Item) (s : State) : BitVec 48 := s.clk.tc + BitVec.ofInt 48 (dueIn i.stamp s.clk.tc)

/-- A late item (R16, R17): accepted after its due tick. -/
def isLate (i : Item) (s : State) : Bool := decide (dueIn i.stamp s.clk.tc < 0)

/-- Bring an item to its receiver (R16 to R20): when none waits, or its sender still holds it, nothing happens (log 3); an
item on time acts in its due tick, all its parts in it; a late one gets its default, `once` for the item and `late` for
each part. -/
def deliver (p : Payload → Bool) (onTime once late : Item → State → State) (s : State) : State :=
  match takeItem p s.items with
  | none => s
  | some (i, rest) =>
    if heldBack i s then s
    else
      let s1 := { s with items := rest.filter (fun j => !partOf i j) }
      let parts := i :: rest.filter (partOf i)
      if isLate i s then parts.foldl (fun t j => late j t) (once i s1)
      else parts.foldl (fun t j => onTime j t) (passTo (dueTick i s) s1)

/-- Set tag bits in the shot in which a tick falls, in the item's group, or in every group when it belongs to none
(R20). -/
def tagItemAt (i : Item) (d : BitVec 48) (bits : BitVec 8) (s : State) : State :=
  match i.group with
  | some g => tagDue g d bits s
  | none => (List.range 8).foldl (fun t g => tagDue g d bits t) s

/-- Of the waiting items with a payload, the one due first comes first: what the router sends later may be due sooner (R217). -/
def dueFirst (p : Payload → Bool) (s : State) : State :=
  let mine := s.items.filter (fun i => p i.load)
  match mine with
  | [] => s
  | i :: is =>
    let first := is.foldl (fun a b => if dueIn b.stamp s.clk.tc < dueIn a.stamp s.clk.tc then b else a) i
    if first = i then s else { s with items := first :: s.items.erase first }

/-- Tag the shot in which an item's due tick falls (R20). -/
def tagItem (i : Item) (bits : BitVec 8) (s : State) : State := tagItemAt i (dueTick i s) bits s

/-! ## Outcomes -/

/-- Run an effect only while the module is powered and out of reset (log 3). -/
def whenAlive (f : State → State) (s : State) : State := if alive s then f s else s

/-- Run an effect only while the pages of its block are up (R63, log 3). -/
def whenUp (pt : PT) (f : State → State) (s : State) : State := if ptUp s pt then f s else s

/-- EARLY_ACC (R63). -/
def earlyAcc (s : State) : State := raiseBit .sys 0 0x04C 27 s

/-- A command that writes a register of a block: before the block's page is up the access is ignored and EARLY_ACC is set
(R63); with no power there is no access (log 3). -/
def whenReg (pt : PT) (f : State → State) (s : State) : State :=
  if ptUp s pt then f s else if alive s then earlyAcc s else s

/-- A command that reads a register of a block: before the page is up the read returns zero and EARLY_ACC is set (R63). -/
def whenRead (pt : PT) (f : State → State) (s : State) : State :=
  if ptUp s pt then f s else if alive s then earlyAcc { s with rdata := 0 } else s

/-- Record an output. -/
def emit (o : Output) (s : State) : State := { s with outbox := o :: s.outbox }

end Sys2Proof.Machine
end

