-- ==== Sys2Proof/Machine/Flags.lean ====
section
/-! DEFINITION. Raising events and faults (R12), the interrupt request they make (R52), and the event log (R457). -/

namespace Sys2Proof.Machine

/-- Set a bit of PG_EVT (R12). -/
def raiseEvt (pt : PT) (n bit : Nat) (s : State) : State :=
  notePending (ptBase pt + n) s (raiseBit pt n 0x010 bit s)

/-- Set a bit of PG_FAULT (R12). -/
def raiseFault (pt : PT) (n bit : Nat) (s : State) : State :=
  notePending (ptBase pt + n) s (raiseBit pt n 0x018 bit s)

/-- Raise when a condition holds. -/
def raiseEvtIf (c : Bool) (pt : PT) (n bit : Nat) (s : State) : State := if c then raiseEvt pt n bit s else s
def raiseFaultIf (c : Bool) (pt : PT) (n bit : Nat) (s : State) : State := if c then raiseFault pt n bit s else s

/-- Write an entry of the NVM event log (R457): the newest 1,024 are kept; LOG_WRAP when the ring was full. -/
def logEvent (cause page detail : Nat) (s : State) : State :=
  let e : LogEntry := {
    seq := s.logSeq, cause := cause, stage := rd s .pwr 0 0x054 31 29, hot := rd s .therm 0 0x05C 15 0,
    mt := mtNs s, tc := s.clk.tc.toNat, vin := rd s .pwr 0 0x054 15 0, page := page, detail := detail % 2 ^ 32 }
  let full := decide (1024 ≤ s.evLog.length)
  let s1 := { s with evLog := (e :: s.evLog).take 1024, logSeq := s.logSeq + 1 }
  raiseEvtIf full .nvm 0 0 s1

/-- Draw a free value: a number no statement can know (log 9). -/
def drawFree (s : State) : Nat × State := (s.free, { s with free := s.free + 1 })

end Sys2Proof.Machine
end

