-- ==== Sys2Proof/Machine/Health.lean ====
section
/-! DEFINITION. Monitor units, wear indicators, the substitution policy, the spare map, the event log
(20_health_and_spares.md). -/

namespace Sys2Proof.Machine

/-- The shed stage in force (PWR.SHED_STAT.STAGE). -/
def stage (s : State) : Nat := rd s .pwr 0 0x054 31 29

/-! ## Monitor units -/

/-- Is INSTANCE and SUB inside the range of a source (R447)? -/
def hmRange (src ins sub : Nat) : Bool :=
  match src with
  | 1 | 2 => decide (ins < 20)
  | 3 => decide (ins < 16 ∧ sub < 17)
  | 4 | 5 => decide (ins < 32)
  | 6 => decide (ins < 80 ∧ sub < 34)
  | 7 => decide (ins < 64)
  | 8 => decide (ins < 48)
  | 9 => decide (ins < 48 ∧ sub < 16)
  | 10 => decide (ins < 16)
  | 11 => decide (ins = 0)
  | 12 => decide (ins < 72)
  | _ => false

/-- Does SUB select the source (R447)? Elsewhere it plays no part. -/
def hmUsesSub (src : Nat) : Bool := src == 3 || src == 6 || src == 9 || src == 12

def hmOff (u : Nat) : Nat := 0x400 + 0x60 * u

/-- Unit u takes a value (R448, R449). -/
def hmTake (u : Nat) (v : Int) (s : State) : State :=
  let o := hmOff u
  let w := ux 32 v
  let lo := sx 32 (reg s .health 0 (o + 0x0C)).toNat
  let hi := sx 32 (reg s .health 0 (o + 0x10)).toNat
  let s1 := wrAll s .health 0 (o + 0x08) w
  let s2 := bump s1 .health 0 (o + 0x14) 31 0 1
  let s3 := if v < lo then wrAll s2 .health 0 (o + 0x0C) w else s2
  let s4 := if hi < v then wrAll s3 .health 0 (o + 0x10) w else s3
  if 2 ≤ stageFirst s4 then s4
  else
    let base := sx 32 (reg s .health 0 (o + 0x04)).toNat
    let wlog := rd s .health 0 o 3 0
    let b := (clampI 0 15 ((v - base) / (2 ^ wlog : Nat))).toNat
    let a := o + 0x20 + 4 * b
    let sat := decide (rd s4 .health 0 a 31 0 + 1 = 2 ^ 32 - 1)
    raiseEvtIf sat .health 0 0 (bump s4 .health 0 a 31 0 1)

/-- A source produces a value: every enabled unit that selects it takes it (R447). -/
def hmSample (src ins sub : Nat) (v : Int) (s : State) : State :=
  if !ptUp s .health || !hmRange src ins sub then s
  else
    let sel (u : Nat) : Bool :=
      let c := reg s .health 0 (hmOff u)
      wbit c 31 && decide (fget c 28 24 = src ∧ fget c 23 12 = ins) && (!hmUsesSub src || decide (fget c 11 4 = sub))
    ((List.range 32).filter sel).foldl (fun t u => hmTake u v t) s

/-- Extremes, count and bins of a unit back at their start (R448). -/
def hmReset (u : Nat) (s : State) : State :=
  let o := hmOff u
  let s1 := wrAll (wrAll (wrAll s .health 0 (o + 0x0C) 0x7FFFFFFF) .health 0 (o + 0x10) 0x80000000) .health 0 (o + 0x14) 0
  (List.range 16).foldl (fun t b => wrAll t .health 0 (o + 0x20 + 4 * b) 0) s1

/-- HM_CLEAR: bit u clears unit u. -/
def hmClear (v : Word) (s : State) : State :=
  ((List.range 32).filter (fun u => wbit v u)).foldl (fun t u => hmReset u t) s

/-- HM_CFG_WRITE. -/
def hmCfgWrite (u : Nat) (v : Word) (s : State) : State := hmReset u (wrAll s .health 0 (hmOff u) (v &&& 0x9FFFFFFF).toNat)

/-- HM_INTERVAL: the interval of a unit's source ends with a value: lane PRBS errors, tone mismatches, phase current
(sources 2, 6, 9 of R447). -/
def hmInterval (u : Nat) (v : Word) (s : State) : State :=
  let c := reg s .health 0 (hmOff u)
  let src := fget c 28 24
  if wbit c 31 && (src == 2 || src == 6 || src == 9) && hmRange src (fget c 23 12) (fget c 11 4)
  then hmTake u (sx 32 v.toNat) s else s

/-! ## Wear indicators -/

def wearKey (kind ins unit : Nat) : Nat := kind * 2 ^ 24 + ins * 2 ^ 12 + unit
def getWear (s : State) (k : Nat) : Wear := mapGet (fun _ => {}) s.wears k
def setWear (s : State) (k : Nat) (x : Wear) : State := { s with wears := mapSet (fun _ => {}) s.wears k x }

/-- A unit's count in its window (R450). -/
def wearCount (x : Wear) : Nat := x.hours.sum

/-- The page of a unit, when its kind has one (R451). -/
def unitPage (kind ins : Nat) : Option (PT × Nat) :=
  match kind with
  | 0 => some (.seq, ins)
  | 1 => some (if ins < 64 then (.drv, ins) else (.prb, ins - 64))
  | 2 => some (.rdi, ins)
  | 3 => some (.lane, ins)
  | 4 => some (.tile, ins)
  | 6 => some (.pch, ins)
  | 7 => some (.pch, ins)
  | _ => none

/-- SPARE_SEL of a unit's page; reserved codes act as AUTO. -/
def spareSel (s : State) (kind ins : Nat) : Nat :=
  match unitPage kind ins with
  | none => 0
  | some (pt, n) => let v := rd s pt n 0x008 11 8; if v ≤ 3 then v else 0

/-- Set PG_SPARE.STATE of a page. A channel page's shows the channel, not its rows (R297). -/
def setSpareState (kind ins st : Nat) (s : State) : State :=
  match if kind = 6 then none else unitPage kind ins with
  | none => s
  | some (pt, n) => wr s pt n 0x020 3 0 st

/-- Spare sequencer k serves none and has not been replaced itself (R66, R453). -/
def spareSeqFree (s : State) (k : Nat) : Bool :=
  decide (rd s .seq (120 + k) 0x040 15 9 = 0x7F) && decide ((getWear s (wearKey 0 (120 + k) 0)).st < 4)

/-- Spare tone 8, 32 or 33 of an output serves none and has failed no verification within its wear window (R139, R140,
log 100). -/
def spareToneFree (s : State) (out t : Nat) : Bool :=
  let busy := if t = 33 then rdBit s .prb (out - 64) 0x054 31
    else if out < 64 then rdBit s .drv out 0x054 30 else rdBit s .prb (out - 64) 0x054 30
  !busy && decide (wearCount (getWear s (wearKey 1 out t)) = 0) && decide ((getWear s (wearKey 1 out t)).st < 4)

/-- Spare rows of an SRAM macro in use: those the map names (R452, R455). -/
def rowsUsed (s : State) (m : Nat) : Nat :=
  (s.spareMap.filter (fun e => decide (e % 16 = 5 ∧ e / 2 ^ 8 % 2 ^ 12 = m))).length

/-- Is a spare free for a unit (R66, R139, R165, R247, R291, R452)? -/
def spareFree (s : State) (kind ins : Nat) : Bool :=
  match kind with
  | 0 => (List.range 4).any (spareSeqFree s)
  | 1 => if ins < 64 then spareToneFree s ins 8 else spareToneFree s ins 32 || spareToneFree s ins 33
  | 2 => (mapGet (fun _ => ({} : Rdi)) s.rdis ins).retired.isNone
  | 3 => decide (rd s .lane (ins / 5 * 5 + 4) 0x04C 31 28 = 4)
  | 4 => !rdBit s .tile 16 0x040 27 && decide (wearCount (getWear s (wearKey 4 16 0)) = 0)
  | 5 => decide (rowsUsed s ins < 2)
  | 7 => true
  | _ => decide (0 < rd s .spare 0 (0x080 + 4 * kind) 15 0)

/-- Wear state of a unit, and WEAR_LAST. -/
def noteWear (kind ins unit st bit : Nat) (s : State) : State :=
  let k := wearKey kind ins unit
  let s1 := setWear s k { getWear s k with st := st }
  raiseEvt .spare 0 bit (wrAll s1 .spare 0 0x0C8 k)

/-! ## Spare map and event log -/

/-- Write a map entry (R455), with its log entry (R457): MAP_FULL when the map is full. -/
def writeMap (kind act ins unit spare : Nat) (s : State) : State :=
  let lo := kind + act * 16 + ins * 2 ^ 8 + unit * 2 ^ 20
  let e := lo + spare * 2 ^ 32
  let page := match unitPage kind ins with
    | some (pt, n) => addrOf pt n 0
    | none => addrOf .spare 0 0
  let s1 := logEvent 5 page lo s
  if s1.spareMap.length < 1024 then { s1 with spareMap := s1.spareMap ++ [e] } else raiseFault .spare 0 1 s1

/-- A unit is back in service: it may become a candidate again (R454). -/
def unitBack (kind ins unit : Nat) (s : State) : State :=
  let k := wearKey kind ins unit
  setWear s k { getWear s k with st := 0 }

/-- What every substitution does to the SPARE page and to the unit's page (R451, R453). -/
def finishSub (kind act ins unit spare : Nat) (s : State) : State :=
  let k := wearKey kind ins unit
  let s0 := setWear { s with subs := s.subs.filter (fun u => decide (u ≠ { kind := kind, inst := ins, unit := unit })) } k
    { hours := [], st := if act = 2 then 5 else 4 }
  let s1 := bump s0 .spare 0 (0x080 + 4 * kind) 31 16 1
  let s2 := wr s1 .spare 0 (0x080 + 4 * kind) 15 0 (rd s1 .spare 0 (0x080 + 4 * kind) 15 0 - 1)
  let s3 := match unitPage kind ins with
    | some (pt, n) => if kind = 6 then s2 else bump s2 pt n 0x020 15 8 1
    | none => s2
  raiseEvt .spare 0 2 (writeMap kind act ins unit spare s3)

/-- Bring a spare into service for a unit: the registers and tables that show it (R103, R139, R166, R247). In static mode
PG_STAT.SPARE then keeps the number of the slice that was spare (DESIGN CHOICE, log 113). -/
def serveUnit (kind ins unit spare : Nat) (s : State) : State :=
  let page (id : Nat) (t : State) : State :=
    match unitPage kind ins with
    | some (pt, n) => wr (wr t pt n 0x020 3 0 2) pt n 0x020 27 16 id
    | none => t
  match kind with
  | 0 =>
    let old := (List.range 4).filter (fun k => decide (rd s .seq (120 + k) 0x040 15 9 = ins))
    let drop (t : State) (k : Nat) : State :=
      let w := wearKey 0 (120 + k) 0
      setWear (setReg t (addrOf .seq (120 + k) 0x040) (regReset (addrOf .seq (120 + k) 0x040))) w { st := 4 }
    let s1 := old.foldl drop s
    page spare (wrAll s1 .seq (120 + spare) 0x040 (fput (reg s1 .seq ins 0x040) 15 9 ins).toNat)
  | 1 =>
    -- a failing spare that serves hands on the tone it serves
    let (pt, n) := if ins < 64 then (PT.drv, ins) else (PT.prb, ins - 64)
    let f := rd s pt n 0x054 4 0
    let f1 := rd s pt n 0x054 12 8
    let served := if unit = 33 then f1 else if unit = 32 then f else unit
    let sa := if served = f && rdBit s pt n 0x054 30 then wr (wr s pt n 0x054 4 0 0x1F) pt n 0x054 30 30 0 else s
    let s0 := if served = f1 && rdBit s pt n 0x054 31 then wr (wr sa pt n 0x054 12 8 0x1F) pt n 0x054 31 31 0 else sa
    let s1 := if spare = 33 then wr (wr s0 pt n 0x054 12 8 served) pt n 0x054 31 31 1
      else wr (wr s0 pt n 0x054 4 0 served) pt n 0x054 30 30 1
    page (if ins < 64 then 8 else 32) s1
  | 2 =>
    let x := mapGet (fun _ => ({} : Rdi)) s.rdis ins
    let pos (p : Nat) : Nat × Nat × Nat := (0x060 + 4 * (p / 4), 8 * (p % 4) + 4, 8 * (p % 4))
    let s1 := match (List.range 16).find? (fun p => decide (rd s .rdi ins (pos p).1 (pos p).2.1 (pos p).2.2 = unit)) with
      | some p => wr s .rdi ins (pos p).1 (pos p).2.1 (pos p).2.2 x.spare
      | none => s
    let was (p : Nat) : BitVec 48 × Nat × Nat := (s.clk.tc, p, unit)
    let gone := (List.range 16).find? (fun p => decide (rd s .rdi ins (pos p).1 (pos p).2.1 (pos p).2.2 = unit))
    page unit { s1 with rdis := mapSet (fun _ => ({} : Rdi)) s1.rdis ins { x with
      retired := some unit, ready := false, moved := (gone.map was).toList ++ x.moved } }
  | 4 =>
    let s1 := wr (wr s .tile 16 0x040 31 28 ins) .tile 16 0x040 27 27 1
    page 16 (wr s1 .tile ins 0x040 27 27 0)
  | 8 => wr s .therm 0 (0x100 + 4 * ins) 1 1 1
  | 9 => wr s .pwr 0 (0x080 + 4 * ins) 25 22 (rd s .pwr 0 (0x080 + 4 * ins) 25 22 - 1)
  | _ => s

/-! ## Wear and candidates (R450 to R453) -/

/-- A shot runs in some group that uses the block of an SRAM macro (R452). -/
def rowHeld (s : State) (m : Nat) : Bool :=
  match pageOf (Config.macroPage m) with
  | some (pt, n) => blockBusy s pt n
  | none => false

/-- Make a substitution pending for the next boundary, once (R451, R453). -/
def pendSub (kind ins unit : Nat) (s : State) : State :=
  let u : Sub := { kind := kind, inst := ins, unit := unit }
  let k := wearKey kind ins unit
  if s.subs.contains u then s
  else if !spareFree s kind ins then
    raiseFault .spare 0 0 (setSpareState kind ins 3 (setWear s k { getWear s k with st := 6 }))
  else if kind = 5 ∧ !rowHeld s ins then finishSub 5 1 ins unit (rowsUsed s ins) s
  else setSpareState kind ins 1 (setWear { s with subs := s.subs ++ [u] } k { getWear s k with st := 3 })

/-- A spare tone that serves none: it plays nothing and needs no substitute (R140). -/
def idleSpareTone (s : State) (kind out t : Nat) : Bool :=
  decide (kind = 1) &&
    (if out < 64 then decide (t = 8) && !rdBit s .drv out 0x054 30
     else if t = 33 then !rdBit s .prb (out - 64) 0x054 31 else decide (t = 32) && !rdBit s .prb (out - 64) 0x054 30)

/-- A unit becomes a candidate; the policy of R451 decides what follows. One that found no spare asks again once one is free.
Diodes, phases and abrupt changes of lanes and channels follow their own rules. -/
def candidate_ (kind ins unit : Nat) (s : State) : State :=
  if !ptUp s .spare || idleSpareTone s kind ins unit then s
  else
    let k := wearKey kind ins unit
    let st := (getWear s k).st
    if 2 ≤ st ∧ (st ≠ 6 ∨ spareFree s kind ins = false) then s
    else
      let s1 := noteWear kind ins unit 2 1 s
      if rdBit s1 .spare 0 (0x040 + 4 * kind) 31 && decide (spareSel s1 kind ins = 0) && decide (kind < 8)
      then pendSub kind ins unit s1 else s1

/-- Count indicator events of a unit (R450): this hour's count, WARN and SUB. -/
def addWear (kind ins unit n : Nat) (s : State) : State :=
  let k := wearKey kind ins unit
  let x := getWear s k
  let hs := match x.hours with
    | [] => [n]
    | h :: t => (h + n) :: t
  let x1 : Wear := { x with hours := hs }
  let s1 := setWear s k x1
  let pol := reg s .spare 0 (0x040 + 4 * kind)
  let warn := fget pol 23 16
  let sub := fget pol 15 8
  let hasWarn := decide (kind < 6)
  let hasSub := decide (kind ≠ 2 ∧ kind ≠ 4)
  let s2 := if hasWarn && decide (warn ≤ wearCount x1) && decide (x.st = 0) then noteWear kind ins unit 1 0 s1 else s1
  if hasSub && decide (sub ≤ wearCount x1) then candidate_ kind ins unit s2 else s2

/-- WEAR_HOUR: an hour ends; counts older than WIN hours fall out, with WIN 0 none does (R450). -/
def wearHour (s : State) : State :=
  let one (e : Nat × Wear) : Nat × Wear :=
    let win := rd s .spare 0 (0x040 + 4 * (e.1 / 2 ^ 24)) 7 0
    if win = 0 then e else (e.1, { e.2 with hours := (0 :: e.2.hours).take win })
  { s with wears := (s.wears.map one).filter (fun e => decide (e.2 ≠ {})) }

/-! ## Reads and clears -/

/-- MAP_CLEAR: MAP_CMD.CLEAR marks entry MAP_IDX CLEARED, which takes effect until the next power-on; refused with status WP
while WP_N is low (R49, R294, R456). -/
def mapClear (s : State) : State :=
  if !s.pins.wpN then wr s .spare 0 0x0E0 31 28 2
  else
    let i := rd s .spare 0 0x0D0 9 0
    let mark (e : Nat × Nat) : Nat := if e.2 = i then e.1 - e.1 / 16 % 16 * 16 + 4 * 16 else e.1
    let old := (s.spareMap.zipIdx.filter (fun e => decide (e.2 = i ∧ nbits e.1 7 4 ≠ 4))).map (fun e => (i, e.1))
    wr { s with spareMap := s.spareMap.zipIdx.map mark, mapOld := s.mapOld ++ old } .spare 0 0x0E0 31 28 0

/-- The entry that MAP_IDX selects. -/
def mapEntry (s : State) : Nat := s.spareMap.getD (rd s .spare 0 0x0D0 9 0) 0

/-- MAP_READ: a read of MAP_DATA_HI; the index advances while INC is set (R459). -/
def mapRead (s : State) : State :=
  let s1 := { s with rdata := BitVec.ofNat 32 (mapEntry s / 2 ^ 32) }
  if rdBit s1 .spare 0 0x0D0 31 then wr s1 .spare 0 0x0D0 9 0 ((rd s1 .spare 0 0x0D0 9 0 + 1) % 1024) else s1

/-- The 32 bytes of a log entry as one number, least significant byte first (R457). -/
def logBytes (e : LogEntry) : Nat :=
  e.seq % 2 ^ 32 + e.cause % 256 * 2 ^ 32 + e.stage % 256 * 2 ^ 40 + e.hot % 65536 * 2 ^ 48 + e.mt % 2 ^ 64 * 2 ^ 64 +
  e.tc % 2 ^ 48 * 2 ^ 128 + e.vin % 65536 * 2 ^ 176 + e.page % 2 ^ 32 * 2 ^ 192 + e.detail % 2 ^ 32 * 2 ^ 224

/-- The word of the log that LOG_IDX selects: entry i of the ring is the one whose number is i modulo 1,024. -/
def logWord (s : State) : Word :=
  let i := rd s .nvm 0 0x044 9 0
  let w := rd s .nvm 0 0x044 18 16
  match s.evLog.find? (fun e => decide (e.seq % 1024 = i)) with
  | some e => BitVec.ofNat 32 (logBytes e / 2 ^ (32 * w))
  | none => 0

/-- LOG_READ: a read of LOG_DATA; the word advances, after word 7 the entry, modulo 1,024 (R460). -/
def logRead (s : State) : State :=
  let s1 := { s with rdata := logWord s }
  let w := rd s1 .nvm 0 0x044 18 16
  if w < 7 then wr s1 .nvm 0 0x044 18 16 (w + 1)
  else wr (wr s1 .nvm 0 0x044 18 16 0) .nvm 0 0x044 9 0 ((rd s1 .nvm 0 0x044 9 0 + 1) % 1024)

/-- LOG_CLEAR: CLEAR with KEY 0x5120 empties the log, but not while WP_N is low (R460). -/
def logClear (v : Word) (s : State) : State :=
  if s.pins.wpN && wbit v 0 && decide (fget v 31 16 = 0x5120) then { s with evLog := [] } else s

end Sys2Proof.Machine
end

