-- ==== Sys2Proof/Machine/Router.lean ====
section
/-! DEFINITION. The event router (09_event_router.md): lines, task inputs, the fork, merging, the loop guard. -/

namespace Sys2Proof.Machine

/-- The island number g of a drive, read-out or flux sequencer (R84). -/
def islandOf (n : Nat) : Nat :=
  if n < 64 then n / 4 else if n < 80 then 16 + (n - 64) / 4 else 20 + (n - 80) / 4

/-- The line that EVT_FIRE bit b of a sequencer fires (R84). -/
def fireLineOf (q b : Nat) : Nat := if 112 ≤ q then 4 * (q - 112) + b else 32 + 2 * islandOf q + b

/-- Candidate c of task input i (R216). -/
def candidate (i c : Nat) : Option Nat :=
  if i < 112 then
    if c < 8 then some (4 * c)
    else if c = 8 then some (32 + 2 * islandOf i)
    else if c = 9 then some (33 + 2 * islandOf i)
    else if c < 14 then some (88 + 4 * (i % 2) + (c - 10))
    else if c = 14 then some (104 + i % 8)
    else some 127
  else if i < 120 then
    let m := i - 112
    if c < 8 then some (4 * c + 1)
    else if c = 8 then some (88 + m)
    else if c = 9 then some (96 + m)
    else if c = 10 then some (104 + m)
    else if c = 11 then some (112 + m)
    else if c = 12 then some (120 + m % 4)
    else if c = 13 then some 124
    else if c = 14 then some 126
    else some 127
  else if i < 152 then
    let u := (i - 120) / 4
    let k := (i - 120) % 4
    if c < 8 then some (if k < 2 then 4 * c + 2 else 4 * c + 3)
    else if c < 12 then some (88 + 4 * (k % 2) + (c - 8))
    else if c = 12 then some (104 + u)
    else if c = 13 then some (112 + u)
    else if c = 14 then some (120 + k)
    else some 127
  else if i < 160 then some (16 * (i - 152) + c)
  else if i < 180 then (if c < 8 then some (4 * c + 3) else some (88 + (c - 8)))
  else if i < 188 then some (16 * (i - 180) + c)
  else none

/-- Does task input i listen to a line now (R217)? -/
def listens (s : State) (line i : Nat) : Bool :=
  let en := rd s .evt 0 (0x400 + 8 * i) 15 0
  (List.range 16).any (fun c => nbit en c && decide (candidate i c = some line))

/-- Count one merged activation of a task input (R219). -/
def coincide (i : Nat) (s : State) : State :=
  raiseEvt .evt 0 1 (bump (raiseBit .evt 0 (0x404 + 8 * i) 31 s) .evt 0 (0x404 + 8 * i) 15 0 1)

/-- The group whose shot a late activation of an input tags: that of the sequencer that consumes it (R20). -/
def inputGroup (s : State) (i : Nat) : Option Nat := if i < 120 then seqGroup s i else none

/-- Is an activation of input i, due at tick t, on its way? -/
def actWaits (i : Nat) (t : BitVec 48) (s : State) : Bool :=
  s.items.any (fun x => decide (x.load = .act i ∧ x.stamp = stampOf t))

/-- A bit of a bank of four 32-bit registers that hold one bit for each line. -/
def lineBit (s : State) (off line : Nat) : Bool := rdBit s .evt 0 (off + 4 * (line / 32)) (line % 32)
def setLineBit (off line : Nat) (s : State) : State := raiseBit .evt 0 (off + 4 * (line / 32)) (line % 32) s

/-- Drop an activation (R222). -/
def dropFire (s : State) : State := raiseEvt .evt 0 2 (bump s .evt 0 0x044 15 0 1)

/-- The firings that lie in the 64 ticks that end with tick x. -/
def recentFires (x : BitVec 48) (s : State) : List Fire :=
  s.fires.filter (fun f => decide (0 ≤ ticksTo f.at_ x ∧ ticksTo f.at_ x < 64))

/-- The activations the loop guard counts for a line in the 64 ticks that end with tick x (R221). -/
def guardCount (x : BitVec 48) (line : Nat) (s : State) : Nat :=
  ((recentFires x s).filter (fun f => decide (f.line = line) && f.counted)).length

/-- A line is fired so as to be active at the router in tick x, a present or later one (R214 to R222). Its sources of one tick
make one activation, which the router settles once the tick is over. Out of service the router makes none (R481). -/
def fireLine (line : Nat) (x : BitVec 48) (soft : Bool) (s : State) : State :=
  if !ptUp s .evt || s.lines.contains (x, line, soft) then s else { s with lines := s.lines ++ [(x, line, soft)] }

/-- A line fired in tick x is delivered, or dropped: disabled, or beyond the guard's limit (R221, R222). -/
def settleLine (x : BitVec 48) (s0 : State) (line : Nat) : State :=
  let s := setLineBit 0x080 line s0
  let note (del cnt : Bool) (t : State) : State :=
    { t with fires := { line := line, at_ := x, delivered := del, counted := cnt } :: recentFires x t }
  if !enabled s .evt 0 then s
  else if lineBit s 0x060 line then dropFire (note false false s)
  else
    let limit := rd s .evt 0 0x040 6 0
    let counts := !lineBit s 0x070 line
    if counts && decide (limit < 64) && decide (limit < guardCount x line s + 1) then
      let s1 := wr (setLineBit 0x060 line (note false true s)) .evt 0 0x040 22 16 line
      dropFire (raiseFault .evt 0 0 s1)
    else note true counts s

/-- The lines active at the router in a tick: fired and delivered (R222). -/
def linesActive (t : BitVec 48) (s : State) : List Nat :=
  (s.fires.filter (fun f => decide (f.at_ = t) && f.delivered)).map (·.line)

/-- Task input i has its activation of tick x + 1 when enabled lines are active in tick x; two or more make a coincidence
(R217 to R219). -/
def settleInput (x : BitVec 48) (s : State) (i : Nat) : State :=
  match (linesActive x s).filter (fun l => listens s l i) with
  | [] => s
  | [_] => sendItem (x + 1) (inputGroup s i) [] (.act i) s
  | _ => coincide i (sendItem (x + 1) (inputGroup s i) [] (.act i) s)

/-- What the router does in tick x with the lines fired in it: each software fire that meets its line's producer merges with it
(R220). -/
def settleTick (x : BitVec 48) (s : State) : State :=
  let now := (s.lines.filter (fun l => decide (l.1 = x))).map (·.2)
  let ls := (List.range 128).filter (fun l => now.any (fun e => decide (e.1 = l)))
  let merged := (ls.filter (fun l => now.contains (l, true) && now.contains (l, false))).length
  let s1 := { s with lines := s.lines.filter (fun l => decide (l.1 ≠ x)) }
  let s2 := if merged = 0 then s1 else bump s1 .evt 0 0x044 31 16 merged
  (List.range 188).foldl (settleInput x) (ls.foldl (settleLine x) s2)

/-- The ticks before the current one in which lines were fired and that are not settled, earliest first. -/
def unsettled (s : State) : List (BitVec 48) :=
  (((s.lines.map (·.1)).filter (fun x => decide (0 < ticksTo x s.clk.tc))).dedup).insertionSort (fun a b => 0 ≤ ticksTo a b)

/-- The router's work up to the tick before this one: the enables and disables in force in a tick settle its lines (R217). -/
def lineCatch (s : State) : State := (unsettled s).foldl (fun t x => atTick x (settleTick x) t) s

/-- The lines active at the router in a tick, the present one too: what fires in a tick is settled once it is over, and shown
as it stands until then. -/
def linesAt (x : BitVec 48) (s0 : State) : List Nat :=
  let s := lineCatch s0
  linesActive x ((List.range 128).foldl (fun t l => if s.lines.any (fun e => decide (e.1 = x ∧ e.2.1 = l)) then settleLine x t l
    else t) s)

/-- Ticks, not over yet, in which a line fires that input i listens to, earliest first. -/
def firesAhead (i : Nat) (s : State) : List (BitVec 48) :=
  (((s.lines.filter (fun e => listens s e.2.1 i)).map (·.1)).dedup).insertionSort (fun a b => 0 ≤ ticksTo a b)

/-- The lines fired so far are settled until an activation of input i is on its way, and the one due first comes first:
what a hop brings next (R217). -/
def nextAct (i : Nat) (s : State) : State :=
  let ready (x : BitVec 48) (t : State) : Bool :=
    t.items.any (fun y => decide (y.load = .act i) && decide (dueIn y.stamp t.clk.tc ≤ ticksTo t.clk.tc (x + 1)))
  dueFirst (fun l => decide (l = .act i))
    ((firesAhead i (lineCatch s)).foldl (fun t x => if ready x t then t else lineCatch (passTo (x + 1) t)) (lineCatch s))

/-- The router goes out of service: it makes no line active from now on, and delivers nothing (R481). -/
def routerEnabled (s : State) : State :=
  if enabled s .evt 0 then s
  else
    let act (x : Item) : Bool := match x.load with
      | .act _ => true
      | _ => false
    { s with items := s.items.filter (fun x => !act x)
             lines := s.lines.filter (fun l => decide (0 < ticksTo l.1 s.clk.tc)) }

/-- EVT_FIRE_WRITE: a write to EVT_FIREk makes each line whose bit is 1 active in the tick it is applied; each write is a tick
of its own, so one that follows another in the same tick is applied in the next (R220). -/
def fireWrite (k : Nat) (v : Word) (s : State) : State :=
  let s0 := lineCatch s
  let s := if s0.lines.any (fun l => decide (l.1 = s0.clk.tc) && l.2.2) then passTicks 1 s0 else s0
  ((List.range 32).filter (fun b => wbit v b)).foldl (fun t b => fireLine (32 * k + b) t.clk.tc true t) s

/-- LINE_DIS_WRITE: 1s enable their lines again and clear their counts (R222). -/
def lineDisWrite (k : Nat) (v : Word) (s0 : State) : State :=
  let s := lineCatch s0
  let a := addrOf .evt 0 (0x060 + 4 * k)
  let s1 := setReg s a (getReg s a &&& ~~~(v &&& ~~~raisedNow s a))
  { s1 with fires := s1.fires.map (fun f =>
      if f.line / 32 = k ∧ wbit (v &&& ~~~raisedNow s a) (f.line % 32) then { f with counted := false } else f) }

end Sys2Proof.Machine
end

