-- ==== Sys2Proof/Machine/Frames.lean ====
section
/-! DEFINITION. The Ethernet frames that a host port sends, from the destination address to the last payload byte
(R342, R343). -/

namespace Sys2Proof.Machine

/-- `n` bytes of a number, most significant first. -/
def beBytes (v n : Nat) : List Byte := (leBytes v n).reverse

/-- HOST_MAC of a port. -/
def hostMac (s : State) (h : Nat) : Nat := rd s .host h 0x044 31 0 + 2 ^ 32 * rd s .host h 0x048 15 0

/-- PCP and VID of the tag of every frame sent while VLAN_EN is 1 (R342). -/
def hostTag (s : State) (h : Nat) : Option Nat :=
  if rdBit s .host h 0x040 31 then some (rd s .host h 0x040 30 28 * 2 ^ 13 + rd s .host h 0x040 27 16) else none

/-- A frame of a host port, tagged while VLAN_EN is 1 (R342). The address byte [47:40] goes first (log 24). -/
def hostFrame (s : State) (h dest etype : Nat) (payload : List Byte) : List Byte :=
  let tag : List Byte := match hostTag s h with
    | some v => beBytes 0x8100 2 ++ beBytes v 2
    | none => []
  beBytes dest 6 ++ beBytes (hostMac s h) 6 ++ tag ++ beBytes etype 2 ++ payload

/-- A Daxka header and payload (R343). -/
def daxkaBytes (op node flags tag addr : Nat) (payload : List Byte) : List Byte :=
  leBytes 1 1 ++ leBytes op 1 ++ leBytes node 1 ++ leBytes flags 1 ++ leBytes tag 2 ++ leBytes payload.length 2 ++
  leBytes addr 8 ++ payload

/-- The module's ring address (RING_ADDR). -/
def ringAddr (s : State) : Nat := rd s .ring 0 0x040 4 0

/-- Send a Daxka frame of the module: NODE is its own address. -/
def daxkaSend (h dest op flags tag addr : Nat) (payload : List Byte) (s : State) : State :=
  emit (.frame h (hostFrame s h dest 0x88B5 (daxkaBytes op (ringAddr s) flags tag addr payload))) s

end Sys2Proof.Machine
end

