-- ==== Sys2Proof/Machine/TxQueue.lean ====
section
/-! DEFINITION. The real-time queues of the ring ports (R331, R332). -/

namespace Sys2Proof.Machine

def getRPort (s : State) (r : Nat) : RPort := mapGet (fun _ => {}) s.rports r
def setRPort (s : State) (r : Nat) (x : RPort) : State := { s with rports := mapSet (fun _ => {}) s.rports r x }

/-- The flits in a port's real-time queue; the two copies of what passes through are one (R331). -/
def rtWaiting (s : State) (r : Nat) : Nat :=
  (s.txq.filter (fun e => decide (e.1 = r) && (match e.2.2.2 with
    | .again _ _ => false
    | _ => true))).length

/-- The signed distance of 12-bit numbers. -/
def seqDist (a b : Nat) : Int := sx 12 ((b + 4096 - a) % 4096)

/-- Note what became of the first copy that came in under a number of a port's link, and forget what is long past: the two
copies of a flit come within a slot or so of each other (R330, log 121). -/
def noteRelay (r n : Nat) (k : Option Nat) (s : State) : State :=
  let x := getRPort s r
  let near (e : Nat × Option Nat) : Bool := decide ((seqDist e.1 n).natAbs ≤ 64) && decide (e.1 ≠ n)
  setRPort s r { x with relay := (n, k) :: x.relay.filter near }

/-- A message that became ready in tick t takes its place in a port's queue and the next LSEQ, or only the LSEQ when the queue
holds 64 (R331, R332). -/
def placeRt (r : Nat) (t : BitVec 48) (m : TxMsg) (s : State) : State :=
  let x := getRPort s r
  let n := (x.txNo + 1) % 4096
  let s1 := setRPort s r { x with txNo := n }
  if 64 ≤ rtWaiting s r then
    let s2 := raiseEvt .ring r 1 (bump s1 .ring r 0x050 31 16 1)
    match m with
    | .fwd k [_] => noteRelay (1 - r) k none s2
    | _ => s2
  else { s1 with txq := s1.txq ++ [(r, n, t, m)] }

/-- The flits that are ready by now stand in the queues, in the order in which they became ready (R331). -/
def rtCatch (s : State) : State :=
  let due (e : Nat × BitVec 48 × TxMsg) : Bool := decide (0 ≤ ticksTo e.2.1 s.clk.tc)
  let go := (s.txWait.filter due).insertionSort (fun a b => a.2.1.toNat ≤ b.2.1.toNat)
  go.foldl (fun t e => atTick e.2.1 (placeRt e.1 e.2.1 e.2.2) t) { s with txWait := s.txWait.filter (fun e => !due e) }

/-- A real-time message is ready at a ring port in a tick. A port with ENABLE = 0 sends IDLE flits only (R350). -/
def readyRt (t : BitVec 48) (m : TxMsg) (s : State) (r : Nat) : State :=
  if !enabled s .ring r then s else { s with txWait := s.txWait ++ [(r, t, m)] }

/-- Queue a message that the Ladle, Mortar or a master group formed in tick t: it crosses in 4 ticks and is assembled in 2
(R336). -/
def queueRt (t : BitVec 48) (m : TxMsg) (s : State) (r : Nat) : State := readyRt (t + 6) m s r

/-- Take messages back that are not yet ready at a port. -/
def unqueueRt (p : TxMsg → Bool) (s : State) (r : Nat) : State :=
  { s with txWait := s.txWait.filter (fun e => !(decide (e.1 = r) && p e.2.2)) }

end Sys2Proof.Machine
end

