-- ==== Sys2Proof/Machine/Ladle.lean ====
section
/-! DEFINITION. The Ladle (08_feedback_fabric.md): slots, result entries, frames, decision channels, broadcasts. -/

namespace Sys2Proof.Machine

def getSlot (s : State) (k : Nat) : LSlot := mapGet (fun _ => {}) s.slots k
def setSlot (s : State) (k : Nat) (x : LSlot) : State := { s with slots := mapSet (fun _ => {}) s.slots k x }

def getDch (s : State) (c : Nat) : Dch := mapGet (fun _ => {}) s.dchs c
def setDch (s : State) (c : Nat) (x : Dch) : State := { s with dchs := mapSet (fun _ => {}) s.dchs c x }

/-- The Ladle is in service (R481). -/
def ladleOn (s : State) : Bool := enabled s .ladle 0

/-! ## Slots -/

/-- A slot in use: ENABLE set, and no parity error (R188, R212). -/
def slotOn (x : LSlot) : Bool := wbit x.cfg 31 && !x.bad

def slotDrv (x : LSlot) : Nat := fget x.bind 8 0
def slotPrb (x : LSlot) : Nat := fget x.bind 17 9
def slotDem (x : LSlot) : Nat := fget x.bind 26 18
def slotFx (x : LSlot) : Bool := wbit x.cfg 0
def slotFz (x : LSlot) : Bool := wbit x.cfg 1

/-- The sequencer of a slot's drive output, which owns its frame (R196). -/
def slotDrvSeq (x : LSlot) : Nat := slotDrv x / 8
/-- The sequencer of a slot's read-out pair (R192). -/
def slotReadSeq (x : LSlot) : Nat := 64 + slotDem x / 32

/-- The enabled slots that bind a demodulator (R189). Only listed slots can be enabled. -/
def slotsOf (s : State) (d : Nat) : List Nat :=
  (s.slots.filter (fun e => slotOn e.2 && decide (slotDem e.2 = d))).map (·.1)

/-- The frame copy of R134: Z of the lowest-numbered enabled slot that binds a drive tone, else 0. -/
def frameZ (s : State) (out tone : Nat) : Bool :=
  match s.slots.find? (fun e => slotOn e.2 && decide (slotDrv e.2 = 8 * out + tone)) with
  | some e => slotFz e.2
  | none => false

/-- Does a shot run in a group that holds a sequencer of this binding (R190)? -/
def bindBusy (s : State) (bind cfg : Word) : Bool :=
  let x : LSlot := { bind := bind, cfg := cfg }
  seqShotRuns s (slotDrvSeq x) || seqShotRuns s (slotReadSeq x) || seqShotRuns s (64 + slotPrb x / 32) ||
  (wbit cfg 19 && seqShotRuns s (fluxSeq (fget cfg 27 20)))

/-- The bits of SLOT_CFG that are held under R190: all but FX and FZ. -/
def slotCfgMask : Word := 0x8FFFC000

/-! ## Entries -/

def entryOff (k : Nat) : Nat := 0x800 + 4 * k
def entry (s : State) (k : Nat) : Word := reg s .ladle 0 (entryOff k)
def entryPend (s : State) (k : Nat) : Nat := rd s .ladle 0 (entryOff k) 28 25
def setPend (k v : Nat) (s : State) : State := wr s .ladle 0 (entryOff k) 28 25 v
def decPend (k : Nat) (s : State) : State := setPend k (entryPend s k - 1) s

/-! ## Channels -/

def dchOff (c : Nat) : Nat := 0x400 + 0x10 * c
def dchType (s : State) (c : Nat) : Nat := rd s .ladle 0 (dchOff c) 2 0
def dchHops (s : State) (c : Nat) : Nat := rd s .ladle 0 (dchOff c) 24 20

/-- SLOT i of a channel, i from 0 to 7 (DCH_SLOTA to DCH_SLOTC). -/
def dchSlot (s : State) (c i : Nat) : Nat :=
  rd s .ladle 0 (dchOff c + 4 + 4 * (i / 3)) (9 * (i % 3) + 8) (9 * (i % 3))

/-- STATE, PARITY and LOGICAL channels (R199). -/
def evalSlots (s : State) (c : Nat) (ins : List Nat) (logical : Bool) : DState :=
  let obs := rd s .ladle 0 (dchOff c) 16 11
  let obsBit (off : Nat) : Bool := rdBit s .ladle 0 (off + 4 * (obs / 32)) (obs % 32)
  let mask := rd s .ladle 0 (dchOff c) 6 3
  if ins.any (fun k => !slotOn (getSlot s k)) then .void
  else if ins.any (fun k => decide (0 < entryPend s k)) then .unresolved
  else if logical && obsBit 0x088 then .unresolved
  else if ins.any (fun k => !wbit (entry s k) 31) then .void
  else
    let v := ins.foldl (fun v k => xor v (nbit mask (fget (entry s k) 17 16))) false
    .resolved (if logical then xor v (obsBit 0x080) else v)

/-- The state a channel takes from its inputs (R199, R212, R481). A REMOTE channel keeps what its flits gave it. -/
def evalDch (s : State) (c : Nat) : DState :=
  let x := getDch s c
  if !ladleOn s || x.bad then .void
  else
    let n := rd s .ladle 0 (dchOff c) 10 7
    match dchType s c with
    | 1 => evalSlots s c [dchSlot s c 0] false
    | 2 => if 1 ≤ n ∧ n ≤ 8 then evalSlots s c ((List.range n).map (dchSlot s c)) false else .void
    | 3 => if n ≤ 8 then evalSlots s c ((List.range n).map (dchSlot s c)) true else .void
    | 4 =>
      let k := getSlot s (dchSlot s c 0)
      if slotOn k then .resolved (if rdBit s .ladle 0 (dchOff c) 17 then slotFz k else slotFx k) else .void
    | 5 => x.cur
    | 6 => .resolved (rdBit s .ladle 0 (dchOff c) 3)
    | _ => .void

/-- Send the DECISION flit of an exported channel's new state, evaluated in tick e (R206). -/
def exportDch (c : Nat) (st : DState) (e : BitVec 48) (s : State) : State :=
  let dir := rd s .ladle 0 (dchOff c) 19 18
  if !ladleOn s || decide (dchType s c = 5) || decide (dir = 0) then s
  else
    let x := getDch s c
    let n := (x.sent + 1) % 256
    let f : DecFlit := { ch := c, st := st, seq := n, due := e + BitVec.ofNat 48 (48 * dchHops s c), hops := dchHops s c }
    let s1 := setDch s c { x with sent := n }
    let ports := (if nbit dir 0 then [0] else []) ++ (if nbit dir 1 then [1] else [])
    ports.foldl (queueRt e (.dec f)) s1

/-- What a channel evaluated in tick e becomes: when it differs from the state before, it is broadcast, due at e + 2, and
exported (R200, R206). -/
def moveDch (e : BitVec 48) (c : Nat) (st : DState) (s : State) : State :=
  if (getDch s c).cur = st then s
  else exportDch c st e (sendItem (e + 2) none [] (.bcast c st) (setDch s c { getDch s c with cur := st }))

/-- Evaluate all channels in tick e (R200). -/
def evalAll (e : BitVec 48) (s : State) : State :=
  (List.range 64).foldl (fun t c => moveDch e c (evalDch t c) t) s

/-! ## What the Ladle still has to do

An entry write comes one tick after its result, an evaluation one tick after a change, a REMOTE channel's state at D
(R191, R200, R208). They wait in `ladleJobs` in the order in which they act: by tick, and within a tick withdrawals, then
evaluations, which see what earlier ticks left, then writes and states taken. -/

def jobRank : LJob → Nat
  | .resolve _ _ => 0
  | .eval => 1
  | .take _ _ _ _ => 2
  | .write _ _ _ _ => 2

/-- Does the first act before the second? -/
def jobBefore (a b : BitVec 48 × LJob) : Bool :=
  decide (0 < ticksTo a.1 b.1) || (decide (a.1 = b.1) && decide (jobRank a.2 < jobRank b.2))

/-- Put a job in its place, behind those that act at the same point. -/
def insertJob (j : BitVec 48 × LJob) : List (BitVec 48 × LJob) → List (BitVec 48 × LJob)
  | [] => [j]
  | k :: ks => if jobBefore j k then j :: k :: ks else k :: insertJob j ks

def addJob (t : BitVec 48) (j : LJob) (s : State) : State := { s with ladleJobs := insertJob (t, j) s.ladleJobs }

/-- The channels are evaluated in tick e, once (R200). -/
def evalAt (e : BitVec 48) (s : State) : State :=
  if s.ladleJobs.contains (e, .eval) then s else addJob e .eval s

/-- An input changed now: the channels are evaluated in the next tick (R200). -/
def evalNext (s : State) : State := evalAt (s.clk.tc + 1) s

/-- A slot's non-VOID entry write for Mortar, due 4 ticks after the state becomes valid, which is one tick after the write in
tick t (R194). -/
def sendSynd (t : BitVec 48) (r : Res) (s : State) (k : Nat) : State :=
  if !r.void && wbit (getSlot s k).cfg 16 then
    let e := entry s k
    sendItem (t + 5) (some (rd s .mortar 0 0x040 2 0)) [] (.det k (fget e 15 0) (fget e 17 16)) s
  else s

/-- Write a slot's entry with the state that its frame gave (R191, R195). -/
def writeEntry (r : Res) (st : Nat) (fl : Bool) (s : State) (k : Nat) : State :=
  let e := entry s k
  let pend := entryPend s k - 1
  let round := (fget e 15 0 + 1) % 65536
  if r.void then
    setReg s (addrOf .ladle 0 (entryOff k)) (fput (fput (fput (fput e 31 31 0) 30 30 1) 28 25 pend) 15 0 round)
  else
    let e1 := fput (fput (fput (fput e 31 31 1) 30 30 0) 28 25 pend) 15 0 round
    setReg s (addrOf .ladle 0 (entryOff k)) (fput (fput (fput e1 29 29 (b2n fl)) 19 18 r.state) 17 16 st)

/-- The REMOTE channel c still mirrors this producer on this port (R208). -/
def mirrors (s : State) (c port node rch : Nat) : Bool :=
  decide (dchType s c = 5) && !(getDch s c).bad && decide (rd s .ladle 0 (dchOff c + 4) 11 11 = port ∧
    rd s .ladle 0 (dchOff c + 4) 4 0 = node ∧ rd s .ladle 0 (dchOff c + 4) 10 5 = rch)

/-- PEND of an arm is withdrawn (R204). -/
def withdrawArms (dep : Nat) (s : State) : State :=
  let gone := s.provArms.filter (fun a => a.2.contains dep)
  gone.foldl (fun t a => (slotsOf t a.1).foldl (fun t k => decPend k t) t)
    { s with provArms := s.provArms.filter (fun a => !a.2.contains dep) }

/-- The branch resolution of provisional arms reaches the Ladle in tick t: on the predicted path they stand; otherwise
their PEND is withdrawn and the channels are evaluated in t itself, and copies still on their way raise none (R204). -/
def ladleResolve (dep : Nat) (ok : Bool) (t : BitVec 48) (s0 : State) : State :=
  let wrong (i : Item) : Bool := match i.load with
    | .armCopy _ => i.deps.contains dep
    | _ => false
  let s := if ok then s0 else { s0 with items := s0.items.filter (fun i => !wrong i) }
  if ok then
    let copy (i : Item) : Item := match i.load with
      | .armCopy _ => { i with deps := i.deps.filter (· ≠ dep) }
      | _ => i
    { s with
      items := s.items.map copy
      provArms := (s.provArms.map (fun a => (a.1, a.2.filter (· ≠ dep)))).filter (fun a => !a.2.isEmpty) }
  else if s.provArms.any (fun a => a.2.contains dep) then evalAt t (withdrawArms dep s)
  else s

/-- A job acts in its tick. -/
def runJob (t : BitVec 48) (j : LJob) (s : State) : State :=
  match j with
  | .resolve dep ok => ladleResolve dep ok t s
  | .eval => evalAll t s
  | .take c port src st =>
    if ladleOn s && mirrors s c port (src / 64) (src % 64) then
      sendItem (t + 2) none [] (.bcast c st) (setDch s c { getDch s c with cur := st })
    else s
  | .write k r st fl => if ladleOn s then evalAt (t + 1) (sendSynd t r (writeEntry r st fl s k) k) else s

/-- Do the jobs that act in tick x at a rank up to the given one, or before. Each job adds at most one evaluation. -/
def runJobs : Nat → BitVec 48 → Nat → State → State
  | 0, _, _, s => s
  | n + 1, x, rank, s =>
    match s.ladleJobs with
    | [] => s
    | (t, j) :: js =>
      if 0 < ticksTo t x ∨ (t = x ∧ jobRank j ≤ rank) then runJobs n x rank (runJob t j { s with ladleJobs := js })
      else s

/-- Bring the Ladle to the present: all that acts by now. -/
def ladleCatch (s : State) : State := runJobs (2 * s.ladleJobs.length) s.clk.tc 2 s

/-- Bring the Ladle to the start of this tick's writes: a clear of ROUND comes before a result's write (R192). -/
def ladleCatchEval (s : State) : State := runJobs (2 * s.ladleJobs.length) s.clk.tc 1 s

/-- Let time pass, job by job, until an item meets a test or no job is left. -/
def ladleUntil (p : Payload → Bool) : Nat → State → State
  | 0, s => s
  | n + 1, s =>
    if s.items.any (fun i => p i.load) then s
    else match s.ladleJobs with
      | [] => s
      | (t, _) :: _ => ladleUntil p n (ladleCatch (passTo t s))

/-- A broadcast of channel c that is on its way. -/
def isBcast (c : Nat) (p : Payload) : Bool := match p with
  | .bcast k _ => decide (k = c)
  | _ => false

/-- The broadcasts of a channel from evaluations in tick e or later, which have not taken place, are taken back, and
so are their DECISION flits (R202). -/
def retractDch (e : BitVec 48) (c : Nat) (s : State) : State :=
  let n : Int := 2 + ticksTo s.clk.tc e
  let later (i : Item) : Bool := isBcast c i.load && decide (n ≤ dueIn i.stamp s.clk.tc)
  if !s.items.any later then s
  else
    let due := e + BitVec.ofNat 48 (48 * dchHops s c)
    let flit (m : TxMsg) : Bool := match m with
      | .dec f => decide (f.ch = c) && decide (0 ≤ ticksTo due f.due)
      | _ => false
    let on (r : Nat) : Nat := (s.txWait.filter (fun t => decide (t.1 = r) && flit t.2.2)).length
    let x := getDch s c
    let s1 := { s with items := s.items.filter (fun i => !later i) }
    [0, 1].foldl (unqueueRt flit) (setDch s1 c { x with sent := (x.sent + 256 - max (on 0) (on 1)) % 256 })

/-- The state of a channel's last broadcast, on its way or at the sequencer groups. -/
def lastBcast (c : Nat) (s : State) : DState :=
  match (s.items.filter (fun i => isBcast c i.load)).getLast? with
  | some i => match i.load with
    | .bcast _ st => st
    | _ => (getDch s c).bc
  | none => (getDch s c).bc

/-! ## Broadcasts at the sequencer groups -/

/-- A channel's broadcast state becomes `st` at the sequencer groups in tick d; DEVT lines that follow it fire (R203). The
states before are kept while an item's stamp can still tell their ticks. -/
def setBcast (c : Nat) (st : DState) (d : BitVec 48) (s : State) : State :=
  let x := getDch s c
  let s1 :=
    if x.bc = st then s
    else setDch s c { x with
      bc := st
      since := if x.bc = .unresolved then d else x.since
      moved := some d
      hist := ((d, x.bc) :: x.hist).filter (fun h => decide (ticksTo h.1 d < 32768)) }
  let fires (k : Nat) : Bool :=
    let v := reg s .ladle 0 (0x0A0 + 4 * k)
    wbit v 7 && decide (fget v 5 0 = c) && decide (st = .resolved (wbit v 6)) && decide (x.bc ≠ st) && ladleOn s
  ((List.range 8).filter fires).foldl (fun t k => fireLine (88 + k) d false t) s1

/-- The state that a channel held at the sequencer groups in tick d: the present one, or the newest of the earlier states
that still stood then. -/
def heldAt (bc : DState) (hist : List (BitVec 48 × DState)) (d : BitVec 48) : DState :=
  match hist with
  | [] => bc
  | (e, was) :: older => if ticksTo e d < 0 then heldAt was older d else bc

/-- The state code and value of a channel state (R264, R329). -/
def stateCode : DState → Nat × Nat
  | .resolved v => (0, b2n v)
  | .unresolved => (1, 0)
  | .void => (2, 0)
  | .lost => (3, 0)

def bcastAt (s : State) (c : Nat) (d : BitVec 48) : DState := heldAt (getDch s c).bc (getDch s c).hist d

/-- The first tick at or after d in which a channel is not UNRESOLVED at the sequencer groups (R76). -/
def resolvedFrom (bc : DState) (hist : List (BitVec 48 × DState)) (d : BitVec 48) : Option (BitVec 48) :=
  match hist with
  | [] => if bc = .unresolved then none else some d
  | (e, was) :: older =>
    if ticksTo e d < 0 then
      match resolvedFrom was older d with
      | some x => if ticksTo x e ≤ 0 then (if bc = .unresolved then none else some e) else some x
      | none => if bc = .unresolved then none else some e
    else if bc = .unresolved then none else some d

/-- The broadcasts of a channel due in tick x or before have reached the sequencer groups: a BR or a wait that reads the
channel in x sees them (R200). -/
def bcastCatch (c : Nat) (x : BitVec 48) (s : State) : State :=
  let s1 := ladleCatch s
  let due (i : Item) : Bool := isBcast c i.load && decide (dueIn i.stamp s1.clk.tc ≤ ticksTo s1.clk.tc x)
  (s1.items.filter due).foldl (fun t i => match i.load with
    | .bcast k st => setBcast k st (dueTick i t) t
    | _ => t) { s1 with items := s1.items.filter (fun i => !due i) }

/-! ## The commands -/

/-- A late item at the Ladle (R205). -/
def ladleLate (s : State) : State := raiseEvt .ladle 0 0 (bump s .ladle 0 0x05C 31 16 1)

/-- The state a result shows under its slot's BASIS and frame, and whether the frame exchanged it (R195). -/
def framed (x : LSlot) (raw : Nat) : Nat × Bool :=
  let basis := fget x.cfg 18 17
  let flip := (decide (basis = 1) && slotFx x || decide (basis = 2) && slotFz x) && decide (raw < 2)
  (if flip then 1 - raw else raw, flip)

/-- XOR a Mortar update into a slot's frame (R196). -/
def flipFrame (s : State) (u : Nat × Bool × Bool) : State :=
  let x := getSlot s u.1
  let v := fput (fput x.cfg 0 0 (b2n (xor (slotFx x) u.2.1))) 1 1 (b2n (xor (slotFz x) u.2.2))
  setSlot s u.1 { x with cfg := v }

/-- XOR an observable's bit, or set its pending flag, in a pair of registers. -/
def flipObs (s : State) (o : Nat) : State :=
  let off := 0x080 + 4 * (o / 32)
  wr s .ladle 0 off (o % 32) (o % 32) (b2n (!rdBit s .ladle 0 off (o % 32)))
def setObsPend (s : State) (p : Nat × Bool) : State :=
  wr s .ladle 0 (0x088 + 4 * (p.1 / 32)) (p.1 % 32) (p.1 % 32) (b2n p.2)

/-- Note the Mortar updates made in this tick. -/
def noteFlips (us : List (Nat × Bool × Bool)) (s : State) : State :=
  if clockRuns s then { s with tick := { s.tick with flips := us ++ s.tick.flips } } else s

/-- Apply one Mortar item: frame updates, observable flips, pending flags (R196, R197, R199). -/
def applyFrame (flips : List (Nat × Bool × Bool)) (obs : List Nat) (pend : List (Nat × Bool)) (s0 : State) : State :=
  let s := ladleCatch s0
  if !ladleOn s then s
  else evalNext (pend.foldl setObsPend (obs.foldl flipObs (noteFlips flips (flips.foldl flipFrame s))))

def isFrame (p : Payload) : Bool := match p with
  | .frame _ _ _ _ => true
  | _ => false

/-- Mortar's item acts. -/
def frameAct (i : Item) (s : State) : State := match i.load with
  | .frame _ f o p => applyFrame f o p s
  | _ => s

/-- The frame updates due in this very tick act before its decisions, commands and data (R21). -/
def framesFirst (s : State) : State :=
  let now (i : Item) : Bool := isFrame i.load && decide (dueIn i.stamp s.clk.tc = 0)
  (s.items.filter now).foldl (fun t i => frameAct i t) { s with items := s.items.filter (fun i => !now i) }

/-- FRAME_UPDATE_DUE (R197): a late item applies at its acceptance, with LATE and FRAME_UNRELIABLE. -/
def frameUpdateDue (s : State) : State :=
  deliver isFrame frameAct (fun i t => tagItem i (tagLate ||| tagFrame) (ladleLate t)) frameAct s

/-- A result reaches the Ladle in its due tick (R189, R191): the frames of this tick apply, and the entries are written in
the next. -/
def takeResult (r : Res) (s0 : State) : State :=
  let s := ladleCatch (framesFirst s0)
  if !ladleOn s then s
  else
    let ks := slotsOf s r.demod
    if ks.isEmpty then raiseEvt .ladle 0 3 (bump s .ladle 0 0x054 31 16 1)
    else if r.cause = 3 then bump s .ladle 0 0x054 15 0 1
    else ks.foldl (fun t k =>
      let f := framed (getSlot s k) r.state
      addJob (s.clk.tc + 1) (.write k r f.1 f.2) t) s

/-- The entry of a shot's result is written in the next tick (R191): the shot does not close before it (R23). -/
def noteWritten (i : Item) (r : Res) (s : State) : State :=
  match i.group with
  | some g =>
    if shotRuns s g && ladleOn s && !(slotsOf s r.demod).isEmpty && decide (r.cause ≠ 3) then setGroup s g { getGroup s g with wrote := some (s.clk.tc + 1) }
    else s
  | none => s

/-- RESULT_DUE: a result in its due tick, or late: then its entry is VOID and it feeds nothing (R191, R20, R205). -/
def resultDue (d : Nat) (s : State) : State :=
  let isRes (p : Payload) : Bool := match p with
    | .result r => decide (r.demod = d)
    | _ => false
  deliver isRes
    (fun i t => match i.load with
      | .result r => noteWritten i r (takeResult r t)
      | _ => t)
    (fun i t => tagItem i (tagLate ||| tagVoid) (ladleLate t))
    (fun i t => match i.load with
      | .result r => noteWritten i r (takeResult { r with void := true } t)
      | _ => t) s

/-- Count an arm in PEND of the slots that bind its demodulator; a provisional one is remembered (R193, R204). A result of
the same tick is written first. -/
def countArm (d : Nat) (deps : List Nat) (s0 : State) : State :=
  let s := ladleCatch s0
  if !ladleOn s then s
  else
    let s1 := (slotsOf s d).foldl (fun t k => setPend k (entryPend t k + 1) t) s
    let s2 := if deps.isEmpty then s1 else { s1 with provArms := s1.provArms ++ [(d, deps)] }
    evalNext s2

/-- ARM_COPY_DUE (R193, R205): the copies of a word's arms come together. -/
def armCopyDue (d : Nat) (s : State) : State :=
  let act (i : Item) (t : State) : State := match i.load with
    | .armCopy k => countArm k i.deps t
    | _ => t
  deliver (fun p => decide (p = .armCopy d)) act (fun i t => tagItem i tagLate (ladleLate t)) act s

/-- The sequencers that a decision accepted late may have failed: those in a shot that ran in its due tick. Their pages
raise LATE (R20, log 87). -/
def lateDecision (d : BitVec 48) (s : State) : State :=
  ((List.range 120).filter (fun q => match seqGroup s q with
    | some g => (getSeq s q).inShot && shotRuns s g && decide (0 ≤ ticksTo (getGroup s g).t0 d)
    | none => false)).foldl (fun t q => raiseEvt .seq q 0 t) s

/-- BROADCAST_DUE: a channel's new state reaches the sequencer groups in its due tick; a late one reaches them at
acceptance, after the consumers that needed it took their defaults (R200, R20). The evaluations that lie ahead take place
until one sends the channel's state. -/
def broadcastDue (c : Nat) (s0 : State) : State :=
  let s := ladleUntil (isBcast c) (2 * s0.ladleJobs.length) (ladleCatch s0)
  let act (i : Item) (t : State) : State := match i.load with
    | .bcast k st => setBcast k st t.clk.tc t
    | _ => t
  deliver (isBcast c) act (fun i t => tagItem i tagLate (lateDecision (dueTick i t) t)) act s

/-- DCH_WRITE, after the register holds its new value in tick w (R202): broadcasts due at w + 2 or later are
superseded, the channel is broadcast UNRESOLVED from w + 2, and evaluated in w + 1 under its new configuration. An
exported channel sends the UNRESOLVED state when it is a change (R206). -/
def dchChanged (c : Nat) (s : State) : State :=
  let w := s.clk.tc
  let s1 := retractDch w c s
  let s2 := setDch s1 c { getDch s1 c with cur := .unresolved, bad := false, got := none }
  if lastBcast c s1 = .unresolved then evalAt (w + 1) s2
  else evalAt (w + 1) (exportDch c .unresolved w (sendItem (w + 2) none [] (.bcast c .unresolved) s2))

/-- DCH_WRITE of word idx of the channel blocks: channel idx / 4, register idx mod 4 (R202). -/
def dchWrite (idx : Nat) (v : Word) (s : State) : State :=
  let c := idx / 4
  let mask : Word := match idx % 4 with
    | 0 => 0x01FFFFFF
    | 3 => 0x0003FFFF
    | _ => 0x07FFFFFF
  dchChanged c (wrAll (ladleCatch s) .ladle 0 (dchOff c + 4 * (idx % 4)) (v &&& mask).toNat)

/-- A slot's bindings or settings change now: channels that read it are evaluated (R134, R200). -/
def slotChanged (k : Nat) (x : LSlot) (s : State) : State := evalNext (setSlot (ladleCatch s) k x)

/-- A parity condition ends once both registers of the slot have been written (R212). -/
def repaired (x : LSlot) : LSlot :=
  if x.bad && x.reBind && x.reCfg then { x with bad := false, reBind := false, reCfg := false } else x

/-- Apply a slot's held writes if their condition is met (R190); a parity condition ends only then (R212). -/
def releaseSlot (s : State) (k : Nat) : State :=
  let x := getSlot s k
  let bind := x.hBind.getD x.bind
  let cfg := x.hCfg.getD x.cfg
  if x.hBind = none ∧ x.hCfg = none then s
  else if bindBusy s x.bind x.cfg || bindBusy s bind cfg then s
  else
    let cfg1 := (cfg &&& slotCfgMask) ||| (x.cfg &&& 3)
    slotChanged k (repaired { x with bind := bind, cfg := cfg1, hBind := none, hCfg := none }) s

/-- The Mortar updates that a slot's frame has had in this tick are made again, on a write that comes before them (R196). -/
def reflip (k : Nat) (s : State) : State := (s.tick.flips.filter (fun u => decide (u.1 = k))).foldl flipFrame s

/-- Note a software write of a slot's frame in this tick. -/
def noteSoft (k : Nat) (fx fz : Bool) (s : State) : State :=
  if clockRuns s then { s with tick := { s.tick with soft := (k, fx, fz) :: s.tick.soft } } else s

/-- Apply a slot's held frame write if its drive group has no shot running (R196). -/
def releaseFrame (s : State) (k : Nat) : State :=
  let x := getSlot s k
  match x.hFrame with
  | none => s
  | some (fx, fz) =>
    if seqShotRuns s (slotDrvSeq x) then s
    else
      -- the Mortar updates of this tick come after a software write (R196)
      noteSoft k fx fz (reflip k (slotChanged k { x with cfg := fput (fput x.cfg 0 0 (b2n fx)) 1 1 (b2n fz), hFrame := none } s))

/-- CLR_ENTRIES now: VALID, VOID and ROUND of every entry cleared (R192). -/
def clearEntries (s0 : State) : State :=
  let s := ladleCatchEval s0
  evalNext ((List.range 512).foldl (fun t k =>
    setReg t (addrOf .ladle 0 (entryOff k)) (fput (fput (entry t k) 31 30 0) 15 0 0)) { s with clrEntries := false })

/-- What waits in the Ladle for shots to end: held slot writes, held frames, CLR_ENTRIES (R190, R192, R196). -/
def ladleRelease (s : State) : State :=
  let ks := s.slots.map (·.1)
  let s1 := ks.foldl releaseSlot s
  let s2 := ks.foldl releaseFrame s1
  if s2.clrEntries && !(List.range 8).any (shotRuns s2) then clearEntries s2 else s2

/-- CFG_DEFER when the slot now holds a write (R190). -/
def noteDefer (k : Nat) (s : State) : State :=
  let x := getSlot s k
  raiseEvtIf (decide (x.hBind ≠ none ∨ x.hCfg ≠ none)) .ladle 0 4 s

/-- SLOT_BIND_WRITE: to the slot that SLOT_IDX selects (R190). -/
def slotBindWrite (v : Word) (s : State) : State :=
  let k := rd s .ladle 0 0x048 8 0
  let x := getSlot s k
  let x1 := { x with hBind := some (v &&& 0x07FFFFFF), reBind := x.bad }
  noteDefer k (releaseSlot (setSlot s k x1) k)

/-- SLOT_IDX advances by one, modulo 512, while INC is set. -/
def slotAdvance (s : State) : State :=
  if rdBit s .ladle 0 0x048 31 then wr s .ladle 0 0x048 8 0 ((rd s .ladle 0 0x048 8 0 + 1) % 512) else s

/-- SLOT_CFG_WRITE: the settings under R190, FX and FZ under R196; then the index advances. -/
def slotCfgWrite (v : Word) (s : State) : State :=
  let k := rd s .ladle 0 0x048 8 0
  let x := getSlot s k
  let x1 := { x with
    hCfg := some (v &&& slotCfgMask), reCfg := x.bad, hFrame := some (wbit v 0, wbit v 1) }
  slotAdvance (noteDefer k (releaseFrame (releaseSlot (setSlot s k x1) k) k))

/-- CLR_LOST: every LOST channel becomes UNRESOLVED (R210). -/
def clrLost (s0 : State) : State :=
  let s := ladleCatch s0
  (List.range 64).foldl (fun t c =>
    if (getDch t c).cur = .lost then moveDch t.clk.tc c .unresolved t else t) s

/-- CLR_ENTRIES: at the first tick at which no shot is running (R192). -/
def clrEntriesNow (s : State) : State :=
  if (List.range 8).any (shotRuns s) then { s with clrEntries := true } else clearEntries s

/-- RESEND: when the refresh period elapses, every exported channel's current state is sent again (R209). -/
def resendAll (s0 : State) : State :=
  let s := ladleCatch s0
  if rd s .ladle 0 0x040 15 0 = 0 then s
  else (List.range 64).foldl (fun t c => exportDch c (getDch t c).cur t.clk.tc t) s

/-- TABLE_PARITY: an error in a slot, or in a channel block (R212). -/
def tableParity (channel : Bool) (idx : Nat) (s0 : State) : State :=
  let s := ladleCatch s0
  if channel then
    let c := idx % 64
    let s1 := setDch s c { getDch s c with bad := true }
    raiseFault .ladle 0 0 (evalNext s1)
  else
    let s1 := setSlot s idx { getSlot s idx with bad := true, reBind := false, reCfg := false }
    let s2 := wr s1 .ladle 0 (entryOff idx) 31 30 1
    raiseFault .ladle 0 0 (evalNext s2)

/-- The REMOTE channels that listen on a ring port (R210). -/
def remotesOn (s : State) (port : Nat) : List Nat :=
  (List.range 64).filter (fun c =>
    decide (dchType s c = 5) && !(getDch s c).bad && decide (rd s .ladle 0 (dchOff c + 4) 11 11 = port))

/-- A loss report of a ring port: every REMOTE channel on it becomes LOST in the tick of the report (R210). Broadcasts of
earlier states that are still on their way would undo it and are dropped; flits held for their due tick D stay. -/
def lossAtLadle (port : Nat) (s0 : State) : State :=
  let s := ladleCatch s0
  if !ladleOn s then s
  else
    let cs := remotesOn s port
    if cs.isEmpty then s
    else
      let drop (i : Item) : Bool := cs.any (fun c => isBcast c i.load)
      let s1 := { s with items := s.items.filter (fun i => !drop i) }
      let s2 := cs.foldl (fun t c => setBcast c .lost t.clk.tc (setDch t c { getDch t c with cur := .lost })) s1
      raiseEvt .ladle 0 1 (bump s2 .ladle 0 0x058 15 0 1)

/-- A copy of a DECISION flit at one channel: a number already taken counts in DUP, a skip in GAP; the state is taken at D,
or now when D is past (R208, R210). -/
def takeCopy (port src seq : Nat) (st : DState) (at_ : BitVec 48) (t : State) (c : Nat) : State :=
  let x := getDch t c
  if x.got = some seq then bump t .ladle 0 0x058 31 16 1
  else
    let gap := match x.got with
      | none => false
      | some n => decide ((n + 1) % 256 ≠ seq)
    let t1 := setDch t c { x with got := some seq }
    let t2 := if gap then raiseEvt .ladle 0 2 (bump t1 .ladle 0 0x05C 15 0 1) else t1
    ladleCatch (addJob at_ (.take c port src st) t2)

/-- The flits that wait in the crossing from the lane quads for their due ticks, first due first (R19). -/
def flitsWaiting (s : State) : List (BitVec 48 × Nat × Nat × DState) :=
  (s.ladleJobs.filterMap (fun j => match j.2 with
    | .take _ port src st => some (j.1, port, src, st)
    | _ => none)).dedup

/-- The ring port holds a flit while 32 wait in the crossing's queue: time passes until one of them acts (R19). -/
def flitRoom (s0 : State) : State :=
  let s := ladleCatch s0
  match flitsWaiting s with
  | [] => s
  | w :: ws => if 31 ≤ ws.length then ladleCatch (passTo w.1 s) else s

/-- A DECISION flit accepted on a port (R205, R207, R208, R210), with the stamp of its due tick D. -/
def takeDecision (port node rch seq : Nat) (st : DState) (stamp : BitVec 16) (s0 : State) : State :=
  let s := flitRoom s0
  if !ladleOn s then s
  else
    let cs := (List.range 64).filter (fun c => mirrors s c port node rch)
    let d := dueIn stamp s.clk.tc
    let due := s.clk.tc + BitVec.ofInt 48 d
    let s1 := cs.foldl (takeCopy port (64 * node + rch) seq st (if d < 0 then s.clk.tc else due)) s
    if d < 0 ∧ !cs.isEmpty then
      (List.range 8).foldl (fun t g => tagDue g due tagLate t) (ladleLate s1)
    else s1

/-- The Ladle's part of a shot opening of group g: FCLR and RND_RST (R192, R196). -/
def ladleOpen (g : Nat) (s0 : State) : State :=
  let s := ladleCatchEval s0
  if !ladleOn s then s
  else
    let ks := s.slots.map (·.1)
    let one (t : State) (k : Nat) : State :=
      let x := getSlot t k
      if wbit x.cfg 15 && decide (seqGroup t (slotDrvSeq x) = some g)
        then
          -- FCLR comes before the software writes and the Mortar updates of this tick
          let v := match s.tick.soft.find? (fun w => decide (w.1 = k)) with
            | some w => fput (fput x.cfg 0 0 (b2n w.2.1)) 1 1 (b2n w.2.2)
            | none => fput x.cfg 1 0 0
          reflip k (setSlot t k { x with cfg := v })
        else t
    let two (t : State) (k : Nat) : State :=
      let x := getSlot t k
      if wbit x.cfg 14 && decide (seqGroup t (slotReadSeq x) = some g) then wr t .ladle 0 (entryOff k) 15 0 0 else t
    evalNext (ks.foldl two (ks.foldl one s))

/-- ENABLE of the Ladle changed: every channel is evaluated; a REMOTE channel starts UNRESOLVED (R481, R208). -/
def ladleEnabled (s : State) : State :=
  let one (t : State) (c : Nat) : State :=
    if ladleOn t && decide (dchType t c = 5) then moveDch (t.clk.tc + 1) c .unresolved t else t
  evalNext ((List.range 64).foldl one (ladleCatch s))

end Sys2Proof.Machine
end

