-- ==== Sys2Proof/Machine/Converters.lean ====
section
/-! DEFINITION. Drive and probe synthesis (05_drive_synthesis.md) and flux outputs (06_flux_outputs.md). Schedule
positions are counted from TC 0: sample k of tick t is 32 t + k at drive and probe outputs, 4 t + k at flux outputs.
A delayed position is in 1/256 of a sample. -/

namespace Sys2Proof.Machine

/-! ## Tones -/

/-- The tone's register block (R141). -/
def toneOff (out tone : Nat) : Nat := if out < 64 then 0x080 + 0x80 * tone else 0x080 + 0x40 * tone

/-- A register of an output's page. -/
def outReg (s : State) (out off : Nat) : Word := reg s (outPage out).1 (outPage out).2 off
def outRd (s : State) (out off hi lo : Nat) : Nat := rd s (outPage out).1 (outPage out).2 off hi lo
def outBump (s : State) (out off hi lo k : Nat) : State := bump s (outPage out).1 (outPage out).2 off hi lo k
def outEvt (out bit : Nat) (s : State) : State := raiseEvt (outPage out).1 (outPage out).2 bit s
def outFault (out bit : Nat) (s : State) : State := raiseFault (outPage out).1 (outPage out).2 bit s

/-- A tone register by its offset in the block. -/
def toneReg (s : State) (out tone o : Nat) : Nat := (outReg s out (toneOff out tone + o)).toNat

/-- F of R118. -/
def toneFreq (s : State) (out tone : Nat) : Nat := toneReg s out tone 0 + 2 ^ 32 * (toneReg s out tone 4 % 65536)

/-- TONE_CFG. -/
def toneCfg (s : State) (out tone : Nat) : Word := outReg s out (toneOff out tone + if out < 64 then 0x20 else 0x1C)

/-- The slot registers of an output. -/
def slotOff (out env : Nat) : Nat := (if out < 64 then 0x800 else 0xC00) + 8 * env

/-- The timing-set delay of an output in 1/256 sample (R131). -/
def tsetDelay (s : State) (out t : Nat) : Nat :=
  256 * outRd s out (0x060 + 4 * t) 19 8 + outRd s out (0x060 + 4 * t) 7 0

/-- The number of working and spare tones of an output. -/
def toneCount (out : Nat) : Nat := if out < 64 then 9 else 34

/-- P of a tone at a schedule position (R118). -/
def phaseAt (x : Tone) (pos : Nat) : Nat := ux 48 ((x.p : Int) + (x.f : Int) * ((pos : Int) - (x.pos : Int)))

/-- A phase operation acts (R119, R121). -/
def applyPhase (x : Tone) (o : Phase) : Tone :=
  match o.op with
  | .none => x
  | .add v => { x with o := (x.o + v) % 2 ^ 32 }
  | .set v | .init v => { x with o := v % 2 ^ 32 }
  | .zero | .acc => { x with p := 0, pos := o.sp }
  | .freq f => { x with p := phaseAt x o.sp, pos := o.sp, f := f }

/-- Place an operation in the order of delayed positions, equals in the order of word ticks (R121). -/
def placePhase (o : Phase) : List Phase → List Phase
  | [] => [o]
  | q :: qs => if o.dp < q.dp ∨ (o.dp = q.dp ∧ o.w < q.w) then o :: q :: qs else q :: placePhase o qs

/-- The longest timing-set delay, rounded up to whole samples, in 1/256 sample: operations this far behind act on no sample
to come that they have not acted on. -/
def maxTset : Nat := 256 * 4096

/-- An event of P, which acts at its schedule position; and an opening's OFS_RST, which acts there too (R119, R121). -/
def isPhaseOp (o : Phase) : Bool := match o.op with
  | .zero | .acc | .freq _ => true
  | _ => false
def isInitOp (o : Phase) : Bool := match o.op with
  | .init _ => true
  | _ => false

/-- Events of P act in the order of their schedule positions (R118, R119). -/
def runPhases (os : List Phase) (x : Tone) : Tone :=
  (os.insertionSort (fun a b => a.sp ≤ b.sp)).foldl applyPhase x

/-- Let every operation act that lies before a delayed position and depends on no unresolved branch. What acts at schedule
positions waits until every timing set lies behind it: an OFS_RST then ends what operations of words before it have done. -/
def settlePhases (lim : Nat) (ops : List Phase) (x : Tone) : Tone :=
  let pre := ops.takeWhile (fun o => o.deps.isEmpty && decide (o.dp < lim))
  let old (o : Phase) : Bool := decide (256 * o.sp + maxTset < lim)
  let reset := (pre.filter (fun o => isInitOp o && old o)).getLast?
  let next := pre.find? (fun o => isInitOp o && !old o)
  let acts (o : Phase) : Bool := if isPhaseOp o || isInitOp o then old o else next.all (fun i => decide (o.dp < i.dp))
  let x1 := runPhases (pre.filter (fun o => isPhaseOp o && old o)) (match reset with
    | some i => applyPhase x i
    | none => x)
  let os := pre.filter (fun o => !isPhaseOp o && !isInitOp o && acts o && reset.all (fun i => decide (i.sp ≤ o.sp)))
  { os.foldl applyPhase x1 with ops := pre.filter (fun o => !acts o) ++ ops.drop pre.length }

/-- The delayed position at which an operation acts on samples that a timing set delays by ts: a word's operations act at
their own delayed positions, an opening's resets and a new F at schedule positions (R119, R121). -/
def actPos (ts : Nat) (o : Phase) : Nat := match o.op with
  | .acc | .freq _ | .init _ => 256 * o.sp + ts
  | _ => o.dp

/-- Has an operation acted for a sample at a delayed position that a timing set delays by ts? -/
def actsBy (dp ts : Nat) (o : Phase) : Bool := o.deps.isEmpty && decide (actPos ts o ≤ dp)

/-- P and O of a tone for a sample at a delayed position (R118 to R121). -/
def toneAt (x : Tone) (dp ts : Nat) : Tone :=
  let os := x.ops.filter (actsBy dp ts)
  ((os.filter (fun o => !isPhaseOp o)).insertionSort (fun a b => actPos ts a ≤ actPos ts b)).foldl applyPhase
    (runPhases (os.filter isPhaseOp) x)

/-- The delayed position that the current tick has reached, in 1/256 sample. -/
def drvNow (s : State) : Nat := 256 * 32 * s.clk.tc.toNat

/-- The delayed position before which every sample has left the lands, whatever LINE_DELAY: pulses and operations before it are
past (R132). -/
def drvPast (s : State) : Nat := drvNow s - 256 * 65536

/-- The earliest start of pulses that stand, none of an unresolved branch. -/
def firstStart : List Pulse → Option Nat
  | [] => none
  | u :: us =>
    if u.deps = [] then some (match firstStart us with
      | some p => min u.dp p
      | none => u.dp) else firstStart us

/-- A pulse stops for good before the first delayed sample of one placed after it (R86, R133). -/
def cutPulses : List Pulse → List Pulse
  | [] => []
  | u :: us => (match firstStart us with
    | some p => { u with stop := min u.stop p }
    | none => u) :: cutPulses us

/-- The pulses of which something is still to play: replaced ones end where they are replaced, ended ones are gone. -/
def livePulses (lim : Nat) (us : List Pulse) : List Pulse :=
  (cutPulses us).filter (fun u => decide (lim < u.stop ∧ u.dp < u.stop))

/-- A tone as it stands now: operations whose samples have left the lands have acted, pulses that have left them are gone. -/
def toneNow (s : State) (out tone : Nat) : Tone :=
  let x := settlePhases (drvPast s) (getTone s out tone).ops (getTone s out tone)
  { x with pulses := livePulses (drvPast s) x.pulses }

/-- The pulse that plays at a delayed position: each in the order of placing plays where none placed after it has begun
(R86, R133). An unresolved pulse, which the gate withholds, counts. -/
def playsIn (dp : Nat) : List Pulse → Option Pulse
  | [] => none
  | u :: us =>
    match playsIn dp us with
    | some v => some v
    | none => if u.dp ≤ dp ∧ dp < u.stop ∧ us.all (fun v => decide (dp < v.dp)) then some u else none

/-- The pulse of a tone that plays at a delayed position (R86, R133). -/
def playingAt (x : Tone) (dp : Nat) : Option Pulse := playsIn dp x.pulses

/-- Envelope samples per 24 GS/s sample by RATE (R125). -/
def rateM (r : Nat) : Nat := match r with
  | 0 => 32
  | 1 => 16
  | 2 => 8
  | _ => 4

/-- The aperture address of envelope sample n of an output (R55, R123). -/
def envAddr (out n : Nat) : Nat :=
  if out < 64 then 0x50000000 + out * 0x80000 + 4 * n else 0x54000000 + (out - 64) * 0x40000 + 4 * n

/-- Samples in an output's envelope store. -/
def envSize (out : Nat) : Nat := if out < 64 then 131072 else 65536

/-- I and Q of an envelope sample. -/
def envSample (s : State) (out n : Nat) : Int × Int :=
  (sx 16 (leNat s.stores (envAddr out n) 2), sx 16 (leNat s.stores (envAddr out n + 2) 2))

/-- The largest I² + Q² of n envelope samples. -/
def envPeak (s : State) (out base : Nat) : Nat → Nat
  | 0 => 0
  | n + 1 =>
    let (i, q) := envSample s out (base + n)
    max (i * i + q * q).toNat (envPeak s out base n)

/-- Is a range of the Pantry inside the admitted refill region through which an output reaches it (R126, R278)? -/
def inRefill (s : State) (out a n : Nat) : Bool :=
  s.ports.any (fun e => decide (e.1 = out) && (e.2.admitted || s.wfreed.contains out) &&
    decide (e.2.base ≤ a ∧ a + n ≤ e.2.base + e.2.size))

/-- The window of a stream descriptor, in samples (R135). -/
def strmWindow (s : State) (out n : Nat) : Nat :=
  2 ^ (10 + min 5 (outRd s out ((if out < 64 then 0x508 else 0xA08) + 0x10 * n) 2 0))

/-- The Pantry address of a stream's sample 0. -/
def strmAddr (s : State) (out n : Nat) : Nat :=
  let off := (if out < 64 then 0x500 else 0xA00) + 0x10 * n
  (outReg s out off).toNat + 2 ^ 32 * outRd s out (off + 4) 2 0

/-- A stream descriptor serves a pulse (R137). -/
def strmBusy (s : State) (out n : Nat) : Bool := decide (drvNow s < (getStream s out n).stop)

/-- A stream descriptor serves another pulse than that of a tone's word. -/
def strmOther (s : State) (out n tone w : Nat) : Bool :=
  strmBusy s out n && !decide ((getStream s out n).tone = tone ∧ (getStream s out n).w = w)

/-- The samples of a stream whose tick of entering interpolation, 32 ticks before the lands, has passed (R116, R136), none of
them after the end of a pulse that another has replaced (R133). -/
def strmEntered (s : State) (x : Stream) : Nat :=
  min (min x.len ((32 * (s.clk.tc.toNat + 32) - x.sp + x.m - 1) / x.m))
    ((x.stop - (256 * x.sp + x.ts) + 256 * x.m - 1) / (256 * x.m))

/-- The tick in which sample i of a stream enters interpolation. -/
def strmDue (x : Stream) (i : Nat) : BitVec 48 := BitVec.ofNat 48 ((x.sp + i * x.m) / 32 - 32)

/-- The slot check of R126, for the pulse of a tone's word. -/
def slotBad (s : State) (out env tone w : Nat) : Bool :=
  let sb := outReg s out (slotOff out env)
  let len := outRd s out (slotOff out env + 4) 23 0
  let base := fget sb 16 0
  let n := fget sb 19 17
  if len = 0 then true
  else if wbit sb 29 then
    decide (envSize out < base + strmWindow s out n) || strmOther s out n tone w || !inRefill s out (strmAddr s out n) (4 * len)
  else decide (envSize out < base + len)

/-- The latched amplitude (R127, R138): AMP 31 is the sweep value the word saw. -/
def latchAmp (s : State) (out tone amp : Nat) (asw : Int) : Int :=
  if out < 64 then
    if amp = 31 then asw
    else sx 16 (outRd s out (toneOff out tone + 0x40 + 4 * (amp / 2)) (16 * (amp % 2) + 15) (16 * (amp % 2)))
  else sx 16 (outRd s out (toneOff out tone + 0x28 + 4 * amp) 31 16)

/-- ENV of a port action, 0 for no pulse: on a probe tone, the profile's slot (R138). -/
def envOf (s : State) (out tone env amp : Nat) : Nat :=
  if out < 64 || env = 0 then env else outRd s out (toneOff out tone + 0x28 + 4 * amp) 5 0

/-- The operation a PHOP code stands for (R80, R121). -/
def phOp (s : State) (out tone phop psw : Nat) : PhOp :=
  match phop with
  | 1 => .add (toneReg s out tone 0x0C)
  | 2 => .add (toneReg s out tone 0x10)
  | 3 => .add (2 ^ 32 - toneReg s out tone 0x0C)
  | 4 => .set (toneReg s out tone 0x0C)
  | 5 => .zero
  | 6 => .add psw
  | _ => .none

/-! ## The commit gate and the lands (R95, R116, R130, R132, R482) -/

/-- LINE_DELAY of an output: the whole samples, which act in the DAC pipeline, and the fraction (R132). -/
def lineCoarse (s : State) (out : Nat) : Nat := outRd s out 0x048 23 8
def lineFine (s : State) (out : Nat) : Nat := outRd s out 0x048 7 0

/-- An output is out of service: its page is disabled or being reset, start-up has not reached READY, or its supply is
off (R50, R62, R64, R431, R442, R481). -/
def outOff (s : State) (out : Nat) : Bool :=
  !ready s || !enabled s (outPage out).1 (outPage out).2 || isResetting s (outPage out).1 (outPage out).2 || s.boot.dark

/-- An output whose DAC receives code 0 whatever plays: out of service, muted, faulted, its sequencer in no group or
stopped by a fault until the next opening, or at shed stage 4 and above (R23, R130, R440, R481, R482). -/
def outMuted (s : State) (out : Nat) : Bool :=
  outOff s out || decide (outRd s out 0x040 0 0 = 1) || (seqGroup s (outSeq out)).isNone || (getOut s out).seqMute ||
  (getOut s out).dacFault || decide (4 ≤ seqStage s (outSeq out))

/-- An output's mute differs from what it was: it changed in tick t (R482). -/
def noteGate (before : State) (t : BitVec 48) (out : Nat) (s : State) : State :=
  let m := outMuted before out
  if outMuted s out = m then s
  else
    let x := getOut s out
    setOut s out { x with gate := ((t, m) :: x.gate).filter (fun e => decide (ticksTo e.1 t < 32768)) }

/-- The outputs with a pulse playing or placed. -/
def pulsedOuts (s : State) : List Nat :=
  ((s.tones.filter (fun e => !e.2.pulses.isEmpty)).map (fun e => e.1 / 64)).dedup

/-- Do something that may mute outputs, or end their mute, in tick t, and keep when it did where a pulse plays (R482). -/
def gated (t : BitVec 48) (f : State → State) (s : State) : State :=
  (pulsedOuts s).foldl (fun u out => noteGate s t out u) (f s)

/-- Was the gate of an output shut in tick g (R482)? -/
def gateShut (s : State) (out : Nat) (g : BitVec 48) : Bool := stoodAt (outMuted s out) (getOut s out).gate g

/-! ## Samples (R117, R120, R125, R128, R130) -/

/-- Sample n of a streamed pulse: zero where the data is not there when it is due (R136), else what its place in the window
held then: a ring of W samples (R135). -/
def strmSample (s : State) (out k n : Nat) (x : Stream) : Int × Int :=
  if x.gaps.any (fun g => decide (g.1 ≤ n ∧ n < g.2)) || decide (x.got ≤ n ∧ n < strmEntered s x) then (0, 0)
  else match x.old.find? (fun e => decide (e.1 = n)) with
    | some e => e.2
    | none => envSample s out (x.base + n % strmWindow s out k)

/-- The envelope samples of a pulse as they play: zero where a check failed or the command was late (R20, R126). -/
def pulseEnv (s : State) (out : Nat) (u : Pulse) (n : Nat) : Int × Int :=
  if u.mute || decide (u.len ≤ n) then (0, 0)
  else match u.strm with
    | none => envSample s out (u.base + n)
    | some k => strmSample s out k n (getStream s out k)

/-- The envelope of a pulse at an offset of j / 256 samples from its delayed start: at the instants of its samples those
samples, between them what the interpolator gives (R125), whose coefficients are open. -/
def envAt (s : State) (out : Nat) (u : Pulse) (j : Nat) : Int × Int :=
  if j % (256 * u.m) = 0 then pulseEnv s out u (j / (256 * u.m))
  else Config.interp u.m ((List.range u.len).map (pulseEnv s out u)) j

/-- P[47:16] of a tone at a position of j / 256 samples (R118, R120). -/
def phase32 (x : Tone) (j : Nat) : Nat := ux 32 ((256 * (x.p : Int) + (x.f : Int) * ((j : Int) - 256 * (x.pos : Int))) / 2 ^ 24)

/-- One tone's contribution at stream position r, after its timing-set delay (R117, R120, R121): in units of 2^-47. The
carrier is delayed with the envelope. -/
def toneSample (s : State) (out tone r : Nat) : Int :=
  match playingAt (getTone s out tone) (256 * r) with
  | none => 0
  | some u =>
    let x := toneAt (getTone s out tone) (256 * r) u.ts
    let e := envAt s out u (256 * r - u.dp)
    let th := BitVec.ofNat 32 (phase32 x (256 * r - u.ts) + x.o + (if u.half then 2 ^ 31 else 0))
    u.amp * (e.1 * cos18 th - e.2 * sin18 th)

/-- g Σ y at stream position r, in units of 2^-62 (R128). Gain, filters, delays and the stores' bytes are those that stand
now, for every sample that is formed again here (log 110). -/
def rawSample (s : State) (out : Nat) (r : Int) : Int :=
  ((List.range (toneCount out)).map (fun t => toneSample s out t r.toNat)).sum * (outRd s out 0x044 15 0 : Int)

/-- After the combined filter: SINC 0 and 3 with no fraction of a sample of line delay leave a sample as it is; the taps of
the others are open (R128, R132). -/
def shapedSample (s : State) (out : Nat) (r : Int) : Int :=
  let k := outRd s out 0x040 2 1
  if (k = 0 ∨ k = 3) ∧ lineFine s out = 0 then rawSample s out r
  else Config.outFilter (if k = 3 then 0 else k) (lineFine s out) (rawSample s out) r

/-- round(8,192 S), halves away from zero, before saturation (R128). -/
def wideCode (s : State) (out : Nat) (r : Int) : Int := rndAway (shapedSample s out r) 49

/-- The tick in which stream position r passes the commit gate: 14 ticks before the lands, the whole-sample part of
LINE_DELAY still to be added (R116, R482). -/
def gateTick (r : Nat) : BitVec 48 := BitVec.ofNat 48 (r / 32) - 14

/-- Stream position r depends on an unresolved branch (R95). -/
def unresolvedAt (s : State) (out r : Nat) : Bool :=
  (List.range (toneCount out)).any (fun t => match playingAt (getTone s out t) (256 * r) with
    | some u => !u.deps.isEmpty || (getTone s out t).ops.any (fun o => decide (o.dp ≤ 256 * r) && !o.deps.isEmpty)
    | none => false)

/-- What a calibration segment makes of an output in a tick: `some true` mutes it to common mode, `some false` plays a waveform
of its own (R392). -/
def calDrives (s : State) (out : Nat) (t : BitVec 48) : Option Bool :=
  (s.calPlays.find? (fun e => decide (e.out = out ∧ 0 ≤ ticksTo e.start t) && e.stop.all (fun b => decide (ticksTo b t < 0)))).map
    (·.muted)

/-- The code that leaves the commit gate for stream position r: 0 where the gate was shut or withheld the sample, otherwise
the rounded and saturated sample (R95, R128, R130), or what a calibration segment plays (R392). What left it before a soft
reset stays (R482). -/
def gateCode (s : State) (out r : Nat) : Int :=
  if r < (getOut s out).sentTo then (((getOut s out).sent.find? (fun e => decide (e.1 = r))).map (·.2)).getD 0
  else if gateShut s out (gateTick r) || unresolvedAt s out r then 0
  else match calDrives s out (gateTick r) with
    | some true => 0
    | some false => sx 14 (Config.calCode out r).toNat
    | none => clampI (-8192) 8191 (wideCode s out r)

/-- The DAC code that stands at RF sample position `at_` of the lands, not before the present tick: that of stream position
`at_` less the whole samples of LINE_DELAY (R117, R132). -/
def dacCode (s : State) (out at_ : Nat) : Int :=
  if at_ < lineCoarse s out then 0 else gateCode s out (at_ - lineCoarse s out)

/-- What a drive or probe output's lands carry: a code, or nothing while the module is not powered (R64). -/
def outLands (s : State) (out at_ : Nat) : Option Int := if s.boot.powered && !s.boot.dark then some (dacCode s out at_) else none

/-! ## Clipping (R128, R129) -/

/-- The peak gain of the sinc filter in thousandths (R128). -/
def sincPeak (s : State) (out : Nat) : Nat := if outRd s out 0x040 2 1 = 1 then 1432 else 1000

/-- A bound on |a| |e| of a pulse, in units of 2^-30. -/
def pulseBound (s : State) (out : Nat) (u : Pulse) : Nat :=
  if u.mute then 0
  else
    let e := match u.strm with
      | some _ => 46341
      | none => Nat.sqrt (envPeak s out u.base u.len) + 1
    u.amp.natAbs * e

/-- The headroom check of R128: no sample of the output can clip. -/
def noClip (s : State) (out : Nat) : Bool :=
  let sum := ((List.range (toneCount out)).map (fun t =>
    ((getTone s out t).pulses.map (pulseBound s out)).foldl max 0)).sum
  decide (outRd s out 0x044 15 0 * sincPeak s out * sum * 8192 ≤ 8191 * 32768 * 1000 * 2 ^ 30)

/-- 'The first in each shot' (R129, R150, R162, R174, R178): raise an event bit of a page once until its groups open a
shot again. -/
def raiseFirst (pt : PT) (n bit : Nat) (s : State) : State :=
  let key := (ptBase pt + n) * 32 + bit
  if s.seen.contains key then s else raiseEvt pt n bit { s with seen := key :: s.seen }

/-- The stream position before which every sample has passed the gate by now. -/
def gatedUpTo (s : State) : Nat := 32 * (s.clk.tc.toNat + 14)

/-- What has passed the gate of an output and not left the lands is kept as it is, before a soft reset of its page ends all
else (R482). -/
def keepSent (out : Nat) (s : State) : Out :=
  if !(pulsedOuts s).contains out then { sent := (getOut s out).sent, sentTo := (getOut s out).sentTo }
  else
    let b := gatedUpTo s
    let lo := b - 65536 - 32 * 14
    { sent := ((List.range' lo (b - lo)).map (fun r => (r, gateCode s out r))).filter (fun e => decide (e.2 ≠ 0)), sentTo := b }

/-- Of n samples from stream position r on, those that pass the gate and saturate (R129). -/
def satsFrom (s : State) (out r n : Nat) : Nat :=
  ((List.range n).filter (fun k => !unresolvedAt s out (r + k) && !gateShut s out (gateTick (r + k)) &&
    (calDrives s out (gateTick (r + k))).isNone && decide (wideCode s out (r + k : Nat) < -8192 ∨ 8191 < wideCode s out (r + k : Nat)))).length

/-- Count the samples that have passed the gate since the last look and were saturated: SAT_CNT, and CLIP with the first of
a shot (R129). Where the headroom check holds there are none (R128). -/
def outCatch (out : Nat) (s : State) : State :=
  if !(pulsedOuts s).contains out then s
  else
    let x := getOut s out
    let b := gatedUpTo s
    let s1 := setOut s out { x with done := b }
    let n := if noClip s out then 0 else satsFrom s out x.done (b - x.done)
    if n = 0 then s1 else raiseFirst (outPage out).1 (outPage out).2 2 (outBump s1 out 0x04C 31 0 n)

/-- Every output that plays is looked at (R129). -/
def outCatchAll (s : State) : State := (pulsedOuts s).foldl (fun t out => outCatch out t) s

/-! ## Port actions -/

/-- A tone takes an operation. A spare serves under the served tone's number: it has that tone's registers and state, so
the model keeps both as one (R139). -/
def placeOp (out tone : Nat) (o : Phase) (s0 : State) : State :=
  match o.op with
  | .none => s0
  | _ =>
    let s := outCatch out s0
    let x := toneNow s out tone
    setTone s out tone { x with ops := placePhase o x.ops }

/-- A stream descriptor serves a pulse until its last sample, which lies before the first of a pulse that replaces it (R133,
R137). -/
def cutStreams (out tone : Nat) (s : State) : State :=
  (cutPulses (getTone s out tone).pulses).foldl (fun t u => match u.strm with
    | some n =>
      let x := getStream t out n
      if x.tone = tone ∧ x.w = u.w ∧ u.stop < x.stop then setStream t out n { x with stop := u.stop } else t
    | none => t) s

/-- Give a tone a new pulse; one still playing or placed is replaced, with OVERLAP (R86, R133). A late one counts for none
(R126); its zeros take the place of samples that have not passed the gate. -/
def placePulse (out tone : Nat) (late : Bool) (u0 : Pulse) (s0 : State) : State :=
  let u := if late then { u0 with dp := max u0.dp (256 * gatedUpTo s0) } else u0
  let s := if (pulsedOuts s0).contains out then outCatch out s0
    else setOut s0 out { getOut s0 out with done := gatedUpTo s0 }
  let x := toneNow s out tone
  let hit := !late && x.pulses.any (fun v => decide (u.dp < v.stop ∧ drvNow s < v.stop))
  let s1 := cutStreams out tone (setTone s out tone { x with pulses := x.pulses ++ [u] })
  if hit then outEvt out 3 (outBump s1 out 0x058 15 0 1) else s1

/-- The group of an output's sequencer. -/
def outGroup (s : State) (out : Nat) : Option Nat := seqGroup s (outSeq out)

/-- The pulse of a port action on a slot (R116, R125 to R127, R134, R138). -/
def pulseOf (s : State) (i : Item) (out tone start env amp : Nat) (fs : Bool) (tset : Nat) (w : BitVec 48) (asw : Int)
    (mute : Bool) : Pulse :=
  let sb := outReg s out (slotOff out env)
  let len := outRd s out (slotOff out env + 4) 23 0
  let m := rateM (fget sb 31 30)
  let dp := 256 * (32 * (w.toNat + 36) + start) + tsetDelay s out tset
  { w := w.toNat, ts := tsetDelay s out tset, dp := dp, stop := dp + 256 * len * m, base := fget sb 16 0, len := len, m := m,
    amp := latchAmp s out tone amp asw, half := fs && frameZ s out tone, mute := mute,
    strm := if wbit sb 29 then some (fget sb 19 17) else none, deps := i.deps }

/-- A pulse's stream descriptor serves it from now on, its refill engine at sample 0 (R135, R137). -/
def claimFor (out tone : Nat) (u : Pulse) (s : State) : State :=
  match u.strm with
  | some n =>
    setStream s out n { tone := tone, w := u.w, stop := u.stop, sp := (u.dp - u.ts) / 256, len := u.len, m := u.m,
                        base := u.base, deps := u.deps, ts := u.ts }
  | none => s

/-- A pulse that will not play gives its stream descriptor back. -/
def freeStream (out tone : Nat) (u : Pulse) (s : State) : State :=
  match u.strm with
  | some n =>
    let x := getStream s out n
    if x.tone = tone ∧ x.w = u.w then setStream s out n {} else s
  | none => s

/-- Does a pulse's descriptor serve it already? -/
def hasStream (s : State) (out tone : Nat) (u : Pulse) : Bool :=
  match u.strm with
  | some n => decide ((getStream s out n).tone = tone ∧ (getStream s out n).w = u.w ∧ (getStream s out n).stop ≠ 0)
  | none => true

/-- A port action is accepted at its converter group, in the model when it is sent: a streamed slot's refill engine starts, on
a predicted path too (R135, R137, log 91). -/
def acceptPort (i : Item) (s : State) : State :=
  match i.load with
  | .port out tone start env0 amp _ fs tset w asw _ =>
    let env := envOf s out tone env0 amp
    let sb := outReg s out (slotOff out env)
    if env = 0 || !wbit sb 29 || !enabled s (outPage out).1 (outPage out).2 || slotBad s out env tone w.toNat then s
    else claimFor out tone (pulseOf s i out tone start env amp fs tset w asw false) s
  | _ => s

/-- A port action acts, or a late one takes its default (R116, R120 to R138, R20). -/
def portAct (late : Bool) (i : Item) (s : State) : State :=
  match i.load with
  | .port out tone start env0 amp phop fs tset w asw psw =>
    let sp := 32 * (w.toNat + 36) + start
    let dp := 256 * sp + tsetDelay s out tset
    let s1 := placeOp out tone { sp := sp, dp := dp, w := w.toNat, op := phOp s out tone phop psw, deps := i.deps } s
    let env := envOf s out tone env0 amp
    if env = 0 || !enabled s (outPage out).1 (outPage out).2 then s1
    else
      let bad := !late && slotBad s out env tone w.toNat
      let u := pulseOf s i out tone start env amp fs tset w asw (late || bad)
      let s2 :=
        if late || bad then freeStream out tone u s1
        else if hasStream s1 out tone u then s1 else claimFor out tone u s1
      let s3 := if bad then tagItem i tagCorrupt (outEvt out 4 (outBump s2 out 0x058 31 16 1)) else s2
      if u.len = 0 then s3 else placePulse out tone late u s3
  | _ => s

/-- PORT_ACTION_DUE. All the port actions of the word at this output act together (R16), after the frame updates due in their
tick (R21, R134). -/
def portActionDue (out tone : Nat) (s : State) : State :=
  let isP (p : Payload) : Bool := match p with
    | .port o t _ _ _ _ _ _ _ _ _ => decide (o = out ∧ t = tone)
    | _ => false
  deliver isP (fun i t => portAct false i (framesFirst t)) (fun i t => tagItem i (tagLate ||| tagCorrupt) (outEvt out 0 t)) (portAct true) s

/-- MUTE: OUT_CFG.MUTE is written (R130, R482). -/
def muteWrite (out : Nat) (on : Bool) (s : State) : State :=
  let s1 := gated s.clk.tc (fun t => wr t (outPage out).1 (outPage out).2 0x040 0 0 (b2n on)) s
  if on then tagSeq (outSeq out) tagCorrupt s1 else s1

/-- TONE_VERIFY: the verify unit's result for a tone (R140); mismatches count toward the tone's wear (R450). -/
def toneVerify (out tone : Nat) (mismatch : Bool) (s : State) : State :=
  if mismatch then
    let s1 := outBump s out 0x05C 15 0 1
    let s2 := wr s1 (outPage out).1 (outPage out).2 0x05C 21 16 tone
    addWear 1 out tone 1 (outFault out 0 s2)
  else s

/-- Phase events of a shot opening at tick t (R119, R121): ACC_RST and OFS_RST at sample 0 of tick t + 36. -/
def toneOpen (t : BitVec 48) (out : Nat) (s : State) (tone : Nat) : State :=
  let sp := 32 * (t.toNat + 36)
  let cfg := toneCfg s out tone
  let s1 := if wbit cfg 0 then placeOp out tone { sp := sp, dp := 256 * sp, w := 0, op := .acc, deps := [] } s else s
  if wbit cfg 1 then
    placeOp out tone { sp := sp, dp := 256 * sp, w := 0, op := .init (toneReg s out tone 0x08), deps := [] } s1
  else s1

/-- A write of FREQ is applied in tick b: the new F runs from sample 0 of tick b + 36 (R119). -/
def freqChanged (out tone : Nat) (s : State) : State :=
  let sp := 32 * (s.clk.tc.toNat + 36)
  placeOp out tone { sp := sp, dp := 256 * sp, w := 0, op := .freq (toneFreq s out tone), deps := [] } s

/-- A branch resolves at the converter groups: on the predicted path the provisional work stands, otherwise its
samples and operations are discarded (R95, R96). -/
def toneResolve (dep : Nat) (ok : Bool) (x : Tone) : Tone :=
  if ok then
    { x with
      ops := x.ops.map (fun o => { o with deps := o.deps.filter (· ≠ dep) })
      pulses := x.pulses.map (fun u => { u with deps := u.deps.filter (· ≠ dep) }) }
  else
    { x with
      ops := x.ops.filter (fun o => !o.deps.contains dep)
      pulses := x.pulses.filter (fun u => !u.deps.contains dep) }

/-- The stream descriptors of an output as a branch resolves: one that serves a cancelled pulse is free, its prefetched data
discarded (R96, R135). -/
def strmResolve (out dep : Nat) (ok : Bool) (s : State) (n : Nat) : State :=
  let x := getStream s out n
  if !x.deps.contains dep then s
  else if ok then setStream s out n { x with deps := x.deps.filter (· ≠ dep) }
  else setStream s out n {}

def outResolve (out dep : Nat) (ok : Bool) (s : State) : State :=
  (List.range 8).foldl (strmResolve out dep ok)
    ((List.range (toneCount out)).foldl (fun t k => cutStreams out k (setTone t out k (toneResolve dep ok (getTone t out k))))
      (outCatch out s))

/-- O of a tone at the last completed tick (PHASE_NOW). -/
def phaseNow (s : State) (out tone : Nat) : Nat := (toneAt (getTone s out tone) (drvNow s - 1) 0).o

/-! ## Flux outputs -/

def flxPage (o : Nat) : Nat := o / 8
/-- The offset of a register of output o's block (R158). -/
def flxOff (o k : Nat) : Nat := 0x100 + 0x80 * (o % 8) + k
def flxRd (s : State) (o k hi lo : Nat) : Nat := rd s .flx (flxPage o) (flxOff o k) hi lo
def flxEvt (o bit : Nat) (s : State) : State := raiseEvt .flx (flxPage o) bit s

/-- The signed PARK code, and RAMP.RATE with 0 acting as 1 (R154). -/
def parkCode (s : State) (o : Nat) : Int := sx 16 (flxRd s o 0x04 15 0)
def rampRate (s : State) (o : Nat) : Nat := max 1 (flxRd s o 0x08 15 0)

/-- The first flux sample that level formation has not formed by the current tick: formation stands 24 ticks before the
lands (R143, R482). -/
def fluxNow (s : State) : Nat := 4 * (s.clk.tc.toNat + 24)

/-- The position at which level formation stands in a tick. -/
def fluxPosAt (t : BitVec 48) : Nat := 256 * (4 * (t.toNat + 24))

/-- LINE_DELAY of an output: whole flux samples, which act in the DAC pipeline, and the fraction, by which the sampling clock
is shifted (R144). -/
def flxCoarse (s : State) (o : Nat) : Nat := flxRd s o 0x0C 20 8
def flxFine (s : State) (o : Nat) : Nat := flxRd s o 0x0C 7 0

/-- The aperture address of flux envelope sample n (R148). -/
def fenvAddr (o n : Nat) : Nat := 0x55000000 + o * 0x20000 + 2 * n
def fenvSample (s : State) (o n : Nat) : Int := sx 16 (leNat s.stores (fenvAddr o n) 2)

/-- The envelope value at offset j (in flux samples from the first) of a pulse, in LSB of a unit amplitude (R148). -/
def fenvAt (s : State) (o : Nat) (u : FPulse) (j : Rat) : Rat :=
  if u.mute then 0
  else
    let n := (j / u.m).floor.toNat
    let e (k : Nat) : Rat := (fenvSample s o (u.base + min k (u.len - 1)) : Rat)
    e n + (e (n + 1) - e n) * (j - n * u.m) / u.m

/-- The amplitude-scaled envelope of a pulse at offset j, in LSB (R145). -/
def fpulseAt (s : State) (o : Nat) (u : FPulse) (j : Rat) : Rat := u.amp * fenvAt s o u j / 32768

/-- The delayed position after which a pulse's contribution falls (R145): p + LEN × M. -/
def fpulseEnd (u : FPulse) : Nat := u.p + 256 * (u.len * u.m)

/-- A pulse's contribution at delayed position y, up to its end (R145). -/
def fcontrib (s : State) (o : Nat) (u : FPulse) (y : Nat) : Rat :=
  let d : Rat := ((y - u.p : Nat) : Rat) / 256
  if d ≤ 0 then 0
  else if d < 1 then fpulseAt s o u 0 * d
  else fpulseAt s o u (d - 1)

/-- The share of a linear transition begun at p that has passed at y. -/
def edge (p y : Nat) : Rat := min 1 (((y - p : Nat) : Rat) / 256)

/-- B once every transition on its way has passed. -/
def fluxBase (f : Flux) : Rat := f.b + (f.moves.map (·.2)).sum

/-- The chain input at delayed position y (R145). -/
def fluxX (s : State) (o : Nat) (f : Flux) (y : Nat) : Rat :=
  f.b + (f.moves.map (fun m => m.2 * edge m.1 y)).sum + (f.playing.map (fun u => fcontrib s o u y)).sum
    + (f.tails.map (fun m => m.2 * (1 - edge m.1 y))).sum

/-- Move B by an amount from position p on, saturating (R146). -/
def moveBase (p : Nat) (v : Rat) (f : Flux) : Flux :=
  let t := fluxBase f + v
  let t1 := max (-32768) (min 32767 t)
  { f with moves := f.moves ++ [(p, t1 - fluxBase f)], levelSat := f.levelSat || decide (t ≠ t1) }

/-- End a pulse at position p with contribution v: the contribution falls over one sample, and PLAY_HOLD adds it to B
(R145). -/
def endPulse (p : Nat) (v : Rat) (hold : Bool) (f : Flux) : Flux :=
  let f1 := { f with tails := f.tails ++ [(p, v)] }
  if hold then moveBase p v f1 else f1

/-- End the pulses whose end lies at or before position y. -/
def endPulses (s : State) (o y : Nat) (f : Flux) : Flux :=
  let (done, rest) := f.playing.partition (fun u => decide (fpulseEnd u ≤ y))
  done.foldl (fun g u => endPulse (fpulseEnd u) (fpulseAt s o u (u.len * u.m - 1 : Nat)) u.hold g)
    { f with playing := rest }

/-- Ramp a level toward another by a number of 1/256 samples at RATE, and stop exactly there (R154). -/
def rampStep (rate d : Nat) (b dst : Rat) : Rat :=
  let stp : Rat := (rate : Rat) * d / 65536
  if b < dst then min dst (b + stp) else max dst (b - stp)

/-- The level a ramp goes to. -/
def rampTarget (s : State) (o : Nat) (toPark : Bool) : Rat := if toPark then (parkCode s o : Rat) else 0

/-- A ramp in progress moves B up to position y; it ends where it reaches its target (R154). -/
def rampTo (s : State) (o y : Nat) (f : Flux) : Flux :=
  match f.ramp with
  | none => f
  | some toPark =>
    let dst := rampTarget s o toPark
    let b := rampStep (rampRate s o) (y - f.rampPos) f.b dst
    if b = dst then
      { f with b := b, rampPos := y, ramp := none, downAt := if toPark then f.downAt else some ((y + 255) / 256), atPark := toPark || decide (b = (parkCode s o : Rat)), parked := f.parked || toPark }
    else { f with b := b, rampPos := y }

/-- B := x at position p, within B's bounds, and no pulse plays on (R146, R154, R155). -/
def holdLevel (s : State) (o p : Nat) (f : Flux) : Flux :=
  let x := fluxX s o f p
  let x1 := max (-32768) (min 32767 x)
  { f with b := x1, moves := [], tails := [], playing := [], ramp := none, levelSat := f.levelSat || decide (x ≠ x1) }

/-- A placed action acts at its position (R145, R146, R154, R155). -/
def fluxAction (s : State) (o : Nat) (a : FPlaced) (f0 : Flux) : Flux :=
  let f := rampTo s o a.p (endPulses s o a.p f0)
  match a.act with
  | .play u =>
    let f1 := f.playing.foldl (fun g v => endPulse a.p (fcontrib s o v a.p) v.hold g)
      { f with playing := [], ramp := none, atPark := false, overlap := f.overlap + f.playing.length }
    { f1 with playing := [u] }
  | .step v => moveBase a.p ((v : Rat) - fluxBase f) { f with ramp := none, atPark := false }
  | .park => { holdLevel s o a.p f with ramp := some true, rampPos := a.p }
  | .off => { holdLevel s o a.p f with ramp := some false, rampPos := a.p, atPark := false }
  | .hold => holdLevel s o a.p f

/-- One section (R151): state and input to new state and output. -/
def iirStep (alpha c u x : Rat) : Rat × Rat :=
  if alpha = 0 ∨ c = 0 then (x, x)
  else
    let u1 := u + alpha * (x - u)
    (u1, x - c * (x - u1))

/-- The eight sections in order. -/
def iirChain (s : State) (o : Nat) : Nat → List Rat → Rat → List Rat × Rat
  | _, [], x => ([], x)
  | k, u :: us, x =>
    let off := 0x600 + 0x100 * (o % 8) + 8 * k
    let alpha : Rat := (rd s .flx (flxPage o) off 31 0 : Rat) / 2 ^ 32
    let c : Rat := (sx 24 (rd s .flx (flxPage o) (off + 4) 23 0) : Rat) / 2 ^ 22
    let r := iirStep alpha c u x
    let rest := iirChain s o (k + 1) us r.2
    (r.1 :: rest.1, rest.2)

/-- FIR tap i (R152). -/
def firTap (s : State) (o i : Nat) : Rat :=
  (sx 16 (rd s .flx (flxPage o) (0x680 + 0x100 * (o % 8) + 4 * (i / 2)) (16 * (i % 2) + 15) (16 * (i % 2))) : Rat) / 2 ^ 14

/-- Round to the nearest integer, halves away from zero (R150). -/
def rndRat (x : Rat) : Int := if 0 ≤ x then (x + 1 / 2).floor else -((-x + 1 / 2).floor)

/-- Linear transitions and tails that have passed by position y are done. -/
def fluxSettle (y : Nat) (f : Flux) : Flux :=
  { f with
    b := f.b + ((f.moves.filter (fun m => decide (m.1 + 256 ≤ y))).map (·.2)).sum
    moves := f.moves.filter (fun m => decide (y < m.1 + 256))
    tails := f.tails.filter (fun m => decide (y < m.1 + 256)) }

/-- Form one sample: level, ramp, predistortion, code (R145 to R154). -/
def fluxSample (s : State) (o : Nat) (f0 : Flux) : Flux :=
  let y := 256 * f0.next
  let f := rampTo s o y (endPulses s o y f0)
  let x := fluxX s o f y
  let byp := rdBit s .flx (flxPage o) (0x640 + 0x100 * (o % 8)) 0
  let (us, z) := iirChain s o 0 f.u x
  let zs := (z :: f.z).take 64
  let out := if byp then x else ((zs.zipIdx).map (fun e => firTap s o e.2 * e.1)).sum
  let c0 := rndRat out
  let c := clampI (-32768) 32767 c0
  { fluxSettle y f with
    next := f0.next + 1, u := us, z := zs, x := x, code := c, codes := if c = f.code then f.codes else (f0.next, c) :: f.codes,
    sats := f.sats + b2n (decide (c ≠ c0)) }

/-- Let actions act whose position the next sample has reached; an action of an unresolved branch holds the chain: the copies
of R153 are formed from here once it has resolved. -/
def fluxActs (s : State) (o : Nat) : List FPlaced → Flux → Flux
  | [], f => { f with acts := [] }
  | a :: as, f =>
    if a.p ≤ 256 * f.next ∧ a.deps = [] then fluxActs s o as (fluxAction s o a f) else { f with acts := a :: as }

/-- Nothing on the output changes from sample to sample: nothing placed, and the next sample leaves everything as it is. -/
def fluxIdle (s : State) (o : Nat) (f : Flux) : Bool :=
  f.acts.isEmpty && f.playing.isEmpty && f.ramp.isNone && decide ({ fluxSample s o f with next := f.next } = f)

/-- Form up to n samples, as far as actions allow. -/
def fluxRun (s : State) (o : Nat) : Nat → Flux → Flux
  | 0, f => f
  | n + 1, f =>
    let g := fluxActs s o f.acts f
    match g.acts with
    | a :: _ => if a.p ≤ 256 * g.next then g else fluxRun s o n (fluxSample s o g)
    | [] => fluxRun s o n (fluxSample s o g)

/-- The chain along the predicted path, up to the current tick: one of the copies of R153, which LEVEL_NOW and PG_STAT show
while branches are open (log 92). -/
def fluxShown (s : State) (o : Nat) : Flux :=
  let f := getFlux s o
  if f.holder then f
  else fluxRun s o (fluxNow s - f.next) { f with acts := f.acts.map (fun a => { a with deps := [] }) }

/-- Of code changes, newest first, those at samples above lim, and the last before. -/
def pruneCodes (lim : Nat) : List (Nat × Int) → List (Nat × Int)
  | [] => []
  | e :: es => if e.1 ≤ lim then [e] else e :: pruneCodes lim es

/-- The code that stands at sample i. -/
def codeFrom (i : Nat) : List (Nat × Int) → Int
  | [] => 0
  | e :: es => if e.1 ≤ i then e.2 else codeFrom i es

/-- Raise what the samples formed since the last look raised (R146, R150, R154). -/
def fluxPost (o : Nat) (f : Flux) (s : State) : State :=
  let s1 := setFlux s o { f with
    sats := 0, levelSat := false, overlap := 0, parked := false, codes := pruneCodes (4 * s.clk.tc.toNat - 8192) f.codes }
  let s2 := if f.sats = 0 then s1 else raiseFirst .flx (flxPage o) 1 (bump s1 .flx (flxPage o) (flxOff o 0x3C) 31 0 f.sats)
  let s3 := raiseEvtIf f.levelSat .flx (flxPage o) 5 s2
  let s4 := if f.overlap = 0 then s3 else flxEvt o 2 (bump s3 .flx (flxPage o) 0x040 15 0 f.overlap)
  raiseEvtIf f.parked .flx (flxPage o) 8 s4

/-- Bring an output's chain to the current tick. Under the park holder no chain runs; a settled output stays as it is. -/
def fluxCatch (o : Nat) (s : State) : State :=
  let f := getFlux s o
  if f.next = fluxNow s then s
  else if f.holder || fluxIdle s o f then setFlux s o { f with next := fluxNow s }
  else fluxPost o (fluxRun s o (fluxNow s - f.next) f) s

/-- Every output of a flux group is brought to the current tick. -/
def fluxGroupCatch (g : Nat) (s : State) : State := (List.range 8).foldl (fun t k => fluxCatch (8 * g + k) t) s

/-- The chain takes over from the holder at PARK, every section settled there (R156), the FIR's 64 samples too (log 111). -/
def fluxTakeOver (o : Nat) (s : State) : State :=
  let f := getFlux s o
  if f.holder then
    let p : Rat := (parkCode s o : Rat)
    setFlux s o { f with
      holder := false, downAt := none, next := fluxNow s, b := p, x := p, u := List.replicate 8 p, z := List.replicate 64 p,
      code := parkCode s o, codes := [(0, parkCode s o)], acts := [], playing := [], moves := [], tails := [], ramp := none,
      atPark := true }
  else s

/-- The DAC code that stands at flux sample position r of the lands, not before the present tick: the chain's, COARSE samples
later, at a time FINE / 256 of a sample later (R144); the holder sends PARK to the DAC directly (R156). None: the DAC is
powered down, once the ramp to 0 V has reached the lands, or the module is not powered (R64, R155). -/
def fluxLands (s0 : State) (o r : Nat) : Option (Int × Nat) :=
  let s := fluxCatch o s0
  let f := getFlux s o
  if !s.boot.powered || (f.holds.contains .off && f.downAt.any (fun n => decide (n ≤ r - flxCoarse s o))) then none
  else if f.holder then some (parkCode s o, flxFine s o)
  else some (codeFrom (r - flxCoarse s o) f.codes, flxFine s o)

/-- A caught-up chain as the tick count changes from a to b at an alignment (R354). -/
def fluxRebase (a b : Nat) (f : Flux) : Flux :=
  let mv (u n : Nat) : Nat := ((n : Int) - (u * a : Nat) + (u * b : Nat)).toNat
  { f with
    next := mv 4 f.next, rampPos := mv 1024 f.rampPos, stopAt := f.stopAt.map (mv 1024), downAt := f.downAt.map (mv 4)
    codes := f.codes.map (fun x => (mv 4 x.1, x.2))
    acts := f.acts.map (fun x => { x with
      p := mv 1024 x.p
      act := match x.act with
        | .play u => .play { u with p := mv 1024 u.p }
        | y => y })
    playing := f.playing.map (fun x => { x with p := mv 1024 x.p })
    moves := f.moves.map (fun x => (mv 1024 x.1, x.2)), tails := f.tails.map (fun x => (mv 1024 x.1, x.2)) }

/-- The output is kept from its schedule: start-up has not reached READY, PARK_NOW, its page out of service, a DAC fault, or
its DAC powered down or shed stage 4 and above (R62, R64, R155, R440, R481). -/
def fluxHeld (s : State) (o : Nat) : Bool :=
  !ready s || !enabled s .flx (flxPage o) || isResetting s .flx (flxPage o) || flxRd s o 0x00 0 0 = 1 ||
  !(getFlux s o).holds.isEmpty || decide (4 ≤ seqStage s (fluxSeq o))

/-- Place an action in the order of positions, equals in the order of word ticks (R145). -/
def placeFlux (a : FPlaced) : List FPlaced → List FPlaced
  | [] => [a]
  | q :: qs => if a.p < q.p ∨ (a.p = q.p ∧ a.w < q.w) then a :: q :: qs else q :: placeFlux a qs

/-- An entry of a flux output's amplitude table; 31 is the sweep value the word saw (R147). -/
def fluxAmp (s : State) (o amp : Nat) (asw : Int) : Int :=
  if amp = 31 then asw else sx 16 (flxRd s o (0x40 + 4 * (amp / 2)) (16 * (amp % 2) + 15) (16 * (amp % 2)))

/-- Place an action on an output. -/
def putFlux (o p w : Nat) (act : FAct) (deps : List Nat) (s : State) : State :=
  let f := getFlux s o
  setFlux s o { f with acts := placeFlux { p := p, w := w, act := act, deps := deps } f.acts }

/-- From level formation in tick t on, an output ramps to PARK or to 0 V whatever is placed (R154, R482): what is placed from
there on is dropped, and an output at park stays there. -/
def fluxRampAt (t : BitVec 48) (toPark : Bool) (o : Nat) (s : State) : State :=
  let s1 := fluxCatch o s
  let f := getFlux s1 o
  let keep := f.acts.filter (fun a => decide (a.p < fluxPosAt t))
  let s2 := setFlux s1 o { f with acts := keep }
  -- an output on its way to 0 V stays on it (R155)
  if toPark && f.holds.contains .off then s1
  else if f.holder || (f.atPark && toPark && f.ramp.isNone && keep.isEmpty) then s2
  else putFlux o (fluxPosAt t) t.toNat (if toPark then .park else .off) [] s2

/-- The same from the present tick on. -/
def fluxRamp (toPark : Bool) (o : Nat) (s : State) : State := fluxRampAt s.clk.tc toPark o s

/-- All eight outputs of a flux group ramp to park. -/
def fluxGroupPark (g : Nat) (s : State) : State := (List.range 8).foldl (fun t k => fluxRamp true (8 * g + k) t) s

/-- A flux action acts in its due tick: slot check, amplitude latch, placing (R143 to R149). PLAY and PLAY_HOLD with ENV 0
play no pulse (R80, R81). -/
def fluxAct (i : Item) (s0 : State) : State :=
  match i.load with
  | .flux o start env amp fop tset w asw =>
    if fluxHeld s0 o || fop = 0 || ((fop = 1 ∨ fop = 2) && env = 0) then s0
    else
      let s := fluxCatch o (fluxTakeOver o s0)
      let p := 256 * (4 * (w.toNat + 36) + start) + 256 * flxRd s o (0x10 + 4 * tset) 19 8 + flxRd s o (0x10 + 4 * tset) 7 0
      let a := fluxAmp s o amp asw
      let put (act : FAct) (t : State) : State :=
        if (getFlux t o).stopAt.any (fun e => decide (e ≤ p)) then t else putFlux o p w.toNat act i.deps t
      match fop with
      | 1 | 2 =>
        let sl := reg s .flx (flxPage o) (0x504 + 4 * (env - 1))
        let len := fget sl 16 0
        let m := 2 ^ fget sl 31 30
        let base := 8 * fget sl 29 17
        let bad := decide (len = 0 ∨ 65536 < base + len)
        let u : FPulse := { p := p, amp := a, base := base, len := len, m := m, hold := decide (fop = 2), mute := bad,
                            deps := i.deps }
        let s1 := if bad then tagItem i tagCorrupt (flxEvt o 3 (bump s .flx (flxPage o) 0x040 31 16 1)) else s
        if len = 0 then s1 else put (.play u) s1
      | 3 => put (.step a) s
      | 4 => put .park s
      | _ => s
  | _ => s0

/-- A late flux step: the output holds its last value until the next on-time action (R20, R155), unless it is kept at park. -/
def fluxHoldNow (o : Nat) (s : State) : State :=
  let s1 := fluxCatch o s
  if (getFlux s1 o).holder || fluxHeld s1 o || (getFlux s1 o).stopAt.isSome then s1
  else putFlux o (fluxPosAt s1.clk.tc) s1.clk.tc.toNat .hold [] s1

/-- A late flux action takes its default. -/
def fluxLate (i : Item) (s : State) : State :=
  match i.load with
  | .flux o _ _ _ _ _ _ _ => fluxHoldNow o s
  | _ => s

/-- FLUX_ACTION_DUE. All the actions of the word at this group act together (R16). -/
def fluxActionDue (o : Nat) (s : State) : State :=
  let isF (p : Payload) : Bool := match p with
    | .flux k _ _ _ _ _ _ _ => decide (k = o)
    | _ => false
  deliver isF fluxAct (fun i t => tagItem i (tagLate ||| tagCorrupt) (flxEvt o 0 t)) fluxLate s

/-- PARK_NOW: OUT_CFG.PARK_NOW is written (R155, R482). -/
def parkNowWrite (o : Nat) (on : Bool) (s : State) : State :=
  let s1 := wr (fluxCatch o s) .flx (flxPage o) (flxOff o 0x00) 0 0 (b2n on)
  if on then tagSeq (fluxSeq o) tagCorrupt (fluxRamp true o s1) else s1

/-- Ticks until level formation has formed a sample. -/
def ticksToSample (s : State) (n : Nat) : Nat := n / 4 + 1 - (s.clk.tc.toNat + 24)

/-- Ticks until the ramp in progress has reached its target (R154). -/
def rampTicks (s : State) (o : Nat) : Nat :=
  let f := getFlux s o
  match f.ramp with
  | none => 0
  | some toPark =>
    let d := f.b - rampTarget s o toPark
    let n := ((if d < 0 then -d else d) * 65536 / (rampRate s o : Rat)).ceil.toNat
    ticksToSample s ((f.rampPos + n + 255) / 256)

/-- Ticks until level formation has reached a ramp that is placed ahead, when none runs. -/
def parkAhead (s : State) (o : Nat) : Nat :=
  let f := getFlux s o
  if f.ramp.isSome then 0
  else match f.acts.find? (fun a => decide (a.act = .park ∨ a.act = .off)) with
    | some a => ticksToSample s ((a.p + 255) / 256)
    | none => 0

/-- RAMP_DONE: time passes until the output's ramp reaches its target; PARKED at PARK (R154). -/
def rampDone (o : Nat) (s : State) : State :=
  let s0 := fluxCatch o s
  let s1 := fluxCatch o (passTicks (parkAhead s0 o) s0)
  fluxCatch o (passTicks (rampTicks s1 o) s1)

/-- The output's code is within 4 LSB of PARK (R156). -/
def nearPark (s : State) (o : Nat) : Bool :=
  let d := (getFlux s o).code - parkCode s o
  decide (-4 ≤ d ∧ d ≤ 4)

/-- Let the chain run on until its output is near PARK, for at most n ticks (R156). -/
def runNear (o : Nat) : Nat → State → State
  | 0, s => s
  | n + 1, s => if nearPark s o then s else runNear o n (fluxCatch o (passTicks 1 s))

/-- Ticks in 1 ms. -/
def ticksPerMs : Nat := 750000

/-- The park holder takes an output over: code PARK goes to the DAC directly (R156). -/
def holderTakes (o : Nat) (s : State) : State :=
  setFlux s o { getFlux s o with
    holder := true, acts := [], playing := [], moves := [], tails := [], ramp := none, atPark := true, code := parkCode s o }

/-- PARK_HANDOVER: after the ramp, the output hands over to the park holder once it is within 4 LSB of PARK, or 1 ms after
(R156). -/
def parkHandover (o : Nat) (s : State) : State :=
  if (getFlux s o).holder || !(isResetting s .flx (flxPage o) || !ready s) then s
  else holderTakes o (runNear o ticksPerMs (rampDone o s))

/-- PD_CLR: at the next shot boundary every section state takes the current input (R152). -/
def pdClrWrite (o : Nat) (s : State) : State := setFlux s o { getFlux s o with clr := true }

/-- The boundary's part of PD_CFG.CLR (R152). -/
def pdClrApply (o : Nat) (s : State) : State :=
  if (getFlux s o).clr then
    let s1 := fluxCatch o s
    let g := getFlux s1 o
    setFlux s1 o { g with clr := false, u := List.replicate 8 g.x }
  else s

/-- END with END_MODE 1: a ramp to park placed as an action of a word with word tick e (R155). -/
def fluxEndPark (e : BitVec 48) (o : Nat) (s : State) : State :=
  if flxRd s o 0x00 4 4 = 1 && !fluxHeld s o && !(getFlux s o).holder then
    let s1 := fluxCatch o s
    putFlux o (256 * (4 * (e.toNat + 36)) + 256 * flxRd s1 o 0x10 19 8 + flxRd s1 o 0x10 7 0) e.toNat .park [] s1
  else s

/-- A branch resolves at a flux output (R96, R153). -/
def fluxResolve (o dep : Nat) (ok : Bool) (s : State) : State :=
  let f := getFlux s o
  let acts := if ok then f.acts.map (fun a => { a with deps := a.deps.filter (· ≠ dep) })
    else f.acts.filter (fun a => !a.deps.contains dep)
  setFlux s o { f with acts := acts }

/-! ## Faults -/

/-- DAC_FAULT at an output: 0 to 79 drive and probe, 80 to 335 flux (R142, R155, R159, R466, R482). A drive or probe
output mutes, a flux output ramps to park, until a soft reset of its page; a running shot is CORRUPT. -/
def dacFaultAt (out : Nat) (s : State) : State :=
  if out < 80 then
    let s1 := gated s.clk.tc (fun t => setOut t out { getOut t out with dacFault := true }) s
    outFault out 1 (tagSeq (outSeq out) tagCorrupt s1)
  else
    let o := out - 80
    let s1 := fluxRamp true o s
    let f := getFlux s1 o
    let s2 := setFlux s1 o { f with holds := if f.holds.contains .dacFault then f.holds else .dacFault :: f.holds }
    raiseFault .flx (flxPage o) 0 (tagSeq (fluxSeq o) tagCorrupt s2)

/-- A sequencer's outputs mute, or ramp to park, from tick t on, in which the fault's crossing arrives, until its next
opening (R20, R90, R97, R482). -/
def silenceSeq (q : Nat) (t : BitVec 48) (s : State) : State :=
  if q < 80 then gated t (fun u => setOut u q { getOut u q with seqMute := true }) s
  else if q < 112 then
    (List.range 8).foldl (fun u k =>
      let o := 8 * (q - 80) + k
      let u1 := fluxRampAt t true o u
      setFlux u1 o { getFlux u1 o with stopAt := some (fluxPosAt t) }) s
  else s

/-- At an opening a sequencer's outputs follow it again (R90, R97). -/
def soundSeq (q : Nat) (t : BitVec 48) (s : State) : State :=
  if q < 80 then gated t (fun u => setOut u q { getOut u q with seqMute := false }) s
  else if q < 112 then
    (List.range 8).foldl (fun u k =>
      let o := 8 * (q - 80) + k
      if (getFlux u o).stopAt.isSome then setFlux u o { getFlux u o with stopAt := none } else u) s
  else s

end Sys2Proof.Machine
end

