-- ==== Sys2Proof/Machine/Crc.lean ====
section
/-! DEFINITION. Check values (16_check_values.md): the three definitions of R383, and the CRC page's engines. -/

namespace Sys2Proof.Machine

/-- One bit of a reflected CRC whose polynomial, reflected, is p. -/
def crcBitR (p v : BitVec 32) : BitVec 32 := if v.getLsbD 0 then (v >>> 1) ^^^ p else v >>> 1

/-- One bit of CRC-24: the register is bits 23 to 0 (R383). -/
def crcBit24 (v : BitVec 32) : BitVec 32 :=
  if v.getLsbD 23 then ((v <<< 1) ^^^ 0x1864CFB) &&& 0xFFFFFF else v <<< 1 &&& 0xFFFFFF

/-- Feed one byte to a mode's running value: 1 CRC-32C, 2 CRC-24, 3 FCS (R383, R389). -/
def crcFeed (mode : Nat) (v : BitVec 32) (b : Byte) : BitVec 32 :=
  match mode with
  | 1 => (crcBitR 0x82F63B78)^[8] (v ^^^ b.setWidth 32)
  | 2 => crcBit24^[8] (v ^^^ (b.setWidth 32 <<< 16))
  | 3 => (crcBitR 0xEDB88320)^[8] (v ^^^ b.setWidth 32)
  | _ => v

/-- The initial value of a mode. -/
def crcInit (mode : Nat) : BitVec 32 :=
  match mode with
  | 1 => 0xFFFFFFFF
  | 2 => 0xB704CE
  | 3 => 0xFFFFFFFF
  | _ => 0

/-- The result: the running value XOR the mode's final XOR; 24 bits for CRC-24 (R389). -/
def crcFinal (mode : Nat) (v : BitVec 32) : BitVec 32 :=
  match mode with
  | 1 => v ^^^ 0xFFFFFFFF
  | 2 => v &&& 0xFFFFFF
  | 3 => v ^^^ 0xFFFFFFFF
  | _ => v

/-- The check value of a list of bytes, the first byte first. -/
def crcOf (mode : Nat) (bs : List Byte) : BitVec 32 := crcFinal mode (bs.foldl (crcFeed mode) (crcInit mode))

/-- CRC-32C of bytes. -/
def crc32c (bs : List Byte) : Word := crcOf 1 bs

/-- CRC-24 over the low n bytes of a field of bits (R384). -/
def crc24 (n : Nat) (x : Nat) : Nat := (crcOf 2 (leBytes x n)).toNat

/-- The bytes of a sparse store from address a, n of them, once the entries below a are gone. -/
def denseFrom : Nat → Nat → Bytes → List Byte
  | 0, _, _ => []
  | n + 1, a, [] => 0 :: denseFrom n (a + 1) []
  | n + 1, a, (k, v) :: m => if k = a then v :: denseFrom n (a + 1) m else 0 :: denseFrom n (a + 1) ((k, v) :: m)

/-- n bytes of a store from a, in one pass. -/
def dense (m : Bytes) (a n : Nat) : List Byte := denseFrom n a (mapTake m a (a + n))

/-! ## The engines (R389 to R391). A slot is numbered 16 × engine + slot. -/

def ctxOff (slot : Nat) : Nat := 0x100 + 0x10 * slot

/-- CTX_CFG_WRITE: MODE and NBYTES, then INIT. -/
def ctxCfgWrite (slot : Nat) (v : Word) (s : State) : State :=
  let o := ctxOff slot
  let s1 := wrAll s .crc 0 o (v &&& 0x30300).toNat
  let mode := fget v 17 16
  if wbit v 31 && decide (mode ≠ 0) then wrAll s1 .crc 0 (o + 4) (crcInit mode).toNat else s1

/-- CTX_DATA: one data word for a slot; a slot whose MODE is OFF, or a page with ENABLE = 0,
discards it (R389, R481). -/
def ctxData (slot : Nat) (v : Word) (s : State) : State :=
  let o := ctxOff slot
  let mode := rd s .crc 0 o 17 16
  let nb := rd s .crc 0 o 9 8
  if mode = 0 || !enabled s .crc 0 then raiseEvt .crc 0 0 s
  else
    let bs := (wordBytes v).take (if nb = 0 then 4 else nb)
    let r := bs.foldl (crcFeed mode) (reg s .crc 0 (o + 4))
    wr (wrAll s .crc 0 (o + 4) r.toNat) .crc 0 o 9 8 0

/-- Feed a word that a path writes, and note it in this tick. -/
def feedNoted (p slot : Nat) (v : Word) (s : State) : State :=
  let e := (p, slot, reg s .crc 0 (ctxOff slot), reg s .crc 0 (ctxOff slot + 4), v)
  let s1 := ctxData slot v s
  if clockRuns s then { s1 with tick := { s1.tick with feeds := e :: s1.tick.feeds } } else s1

/-- A path's data word takes its place among those of the tick: before those of the paths that come after it (R35, R390). -/
def feedOrdered (p slot : Nat) (v : Word) (s : State) : State :=
  let after (e : Nat × Nat × Word × Word × Word) : Bool := decide (e.2.1 = slot ∧ p < e.1)
  match (s.tick.feeds.filter after).reverse with
  | [] => feedNoted p slot v s
  | e :: es =>
    let s1 := { s with tick := { s.tick with feeds := s.tick.feeds.filter (fun x => !after x) } }
    let s2 := setReg (setReg s1 (addrOf .crc 0 (ctxOff slot)) e.2.2.1) (addrOf .crc 0 (ctxOff slot + 4)) e.2.2.2.1
    (e :: es).foldl (fun t x => feedNoted x.1 slot x.2.2.2.2 t) (feedNoted p slot v s2)

/-- A slot's registers are written otherwise: what was fed before stays fed. -/
def feedsDone (slot : Nat) (s : State) : State :=
  { s with tick := { s.tick with feeds := s.tick.feeds.filter (fun e => decide (e.2.1 ≠ slot)) } }

/-- CRC_WINDOW_WRITE: a word written anywhere in an engine's window feeds the slot that ENG_SEL names (R391). -/
def crcWindowWrite (eng : Nat) (v : Word) (s : State) : State :=
  ctxData (16 * eng + rd s .crc 0 (0x040 + 4 * eng) 3 0) v s

/-- CTX_VAL_WRITE: replaces V (R390). In CRC-24 mode V is 24 bits. -/
def ctxValWrite (slot : Nat) (v : Word) (s : State) : State :=
  let v1 := if rd s .crc 0 (ctxOff slot) 17 16 = 2 then v &&& 0xFFFFFF else v
  wrAll s .crc 0 (ctxOff slot + 4) v1.toNat

/-- What CTX_VAL reads: V, 24 bits of it in CRC-24 mode (R391). -/
def ctxVal (s : State) (slot : Nat) : Word :=
  let v := reg s .crc 0 (ctxOff slot + 4)
  if rd s .crc 0 (ctxOff slot) 17 16 = 2 then v &&& 0xFFFFFF else v

/-- What CTX_RES reads (R389). -/
def ctxRes (s : State) (slot : Nat) : Word :=
  crcFinal (rd s .crc 0 (ctxOff slot) 17 16) (reg s .crc 0 (ctxOff slot + 4))

end Sys2Proof.Machine
end

