-- ==== Sys2Proof/Machine/Graph.lean ====
section
/-! DEFINITION. The Mortar graph image (R236 to R240): its fields, the checks of a commit, and window decoding. -/

namespace Sys2Proof.Machine

/-- The image's place in the aperture (R55, R236), and its length. -/
def gBase : Nat := 0x5C000000
def gLen : Nat := 272384

/-! ## Fields (R236 to R239) -/

def gD (g : Bytes) : Nat := leNat g (gBase + 8) 2
def gW (g : Bytes) : Nat := leNat g (gBase + 0xA) 1
def gK (g : Bytes) : Nat := leNat g (gBase + 0xB) 1
def gE (g : Bytes) : Nat := leNat g (gBase + 0xC) 4
def gN (g : Bytes) : Nat := leNat g (gBase + 0x10) 2

/-- Detector entry d, edge entry e, observable set k. -/
def gDet (g : Bytes) (d : Nat) : Nat := leNat g (gBase + 0x1000 + 4 * d) 4
def gEdge (g : Bytes) (e : Nat) : Nat := leNat g (gBase + 0x2000 + 8 * e) 8
def gOset (g : Bytes) (k : Nat) : Nat := leNat g (gBase + 0x42000 + 8 * k) 8

def detSlot (x : Nat) : Nat := nbits x 8 0
def detExcl0 (x : Nat) : Bool := nbit x 9
def detKind (x : Nat) : Nat := nbits x 11 10
def detLink (x : Nat) : Nat := nbits x 12 12
def detSidx (x : Nat) : Nat := nbits x 22 13

def edgeA (x : Nat) : Nat := nbits x 10 0
def edgeB (x : Nat) : Nat := nbits x 21 11
def edgeDt (x : Nat) : Nat := nbits x 22 22
def edgeWt (x : Nat) : Nat := nbits x 30 23
def edgeFu (x : Nat) : Bool := nbit x 31
def edgeDx (x : Nat) : Bool := nbit x 32
def edgeDz (x : Nat) : Bool := nbit x 33
def edgeSlot (x : Nat) : Nat := nbits x 42 34
def edgeOset (x : Nat) : Nat := nbits x 50 43
def edgeRmt (x : Nat) : Bool := nbit x 51
def edgeRlink (x : Nat) : Nat := nbits x 52 52

/-- The detectors of the graph with their indices. -/
def gDets (g : Bytes) : List (Nat × Nat) := (List.range (gD g)).map (fun d => (d, gDet g d))

/-- The detector a slot feeds: LOCAL or FORWARD (R237). -/
def detOf (g : Bytes) (slot : Nat) : Option (Nat × Nat) :=
  (gDets g).find? (fun e => decide (detKind e.2 ≤ 1 ∧ detSlot e.2 = slot))

/-! ## The checks of a commit (R240) -/

/-- Where a row of R240 failed: an edge or not, and which. -/
structure GFail where
  edge : Bool := false
  item : Nat := 0
  deriving DecidableEq, Repr

/-- The header fields of FORMAT; an NOSET above 255, out of R236's range, fails it too (log 120). -/
def headOk (g : Bytes) : Bool :=
  decide (leNat g gBase 4 = 0x4652474D ∧ leNat g (gBase + 4) 1 = 1 ∧ 1 ≤ gD g ∧ gD g ≤ 1024 ∧ 8 ≤ gW g ∧ gW g ≤ 32 ∧
    1 ≤ gE g ∧ gE g ≤ 32768 ∧ gN g ≤ 255 ∧ 1 ≤ gK g ∧ gK g + 4 ≤ gW g)

/-- A listed byte of the image outside every field: it must be zero. Only the header, used entries and used sets may hold
bytes. -/
def gUsed (g : Bytes) (a : Nat) : Bool :=
  let o := a - gBase
  decide (o < 5 ∨ (8 ≤ o ∧ o < 0x12) ∨ (0x1000 ≤ o ∧ o < 0x1000 + 4 * gD g) ∨ (0x2000 ≤ o ∧ o < 0x2000 + 8 * gE g) ∨
    (0x42008 ≤ o ∧ o < 0x42000 + 8 * (gN g + 1)))

/-- The first entry that breaks a rule of FORMAT: detectors, then edges, then bytes of no entry. -/
def formatFail (g : Bytes) : Option GFail :=
  if !headOk g then some {}
  else
    let bad := g.filter (fun e => !gUsed g e.1 && decide (e.2 ≠ 0))
    let badIn (lo hi : Nat) : Bool := bad.any (fun e => decide (gBase + lo ≤ e.1 ∧ e.1 < gBase + hi))
    match (List.range 1024).find? (fun d =>
      decide (d < gD g ∧ (2 ^ 23 ≤ gDet g d ∨ detKind (gDet g d) = 3)) || badIn (0x1000 + 4 * d) (0x1004 + 4 * d)) with
    | some d => some { item := d }
    | none =>
      match (List.range 32768).find? (fun e =>
        decide (e < gE g ∧ 2 ^ 53 ≤ gEdge g e) || badIn (0x2000 + 8 * e) (0x2008 + 8 * e)) with
      | some e => some { edge := true, item := e }
      | none => if bad.isEmpty then none else some {}

/-- Does detector d share its SLOT, or its SIDX on its link, with one before it? -/
def detShares (g : Bytes) (d : Nat) : Bool :=
  let x := gDet g d
  (List.range d).any (fun e =>
    let y := gDet g e
    decide (detKind x ≤ 1 ∧ detKind y ≤ 1 ∧ detSlot x = detSlot y) ||
    decide (1 ≤ detKind x ∧ 1 ≤ detKind y ∧ detLink x = detLink y ∧ detSidx x = detSidx y))

/-- An edge that breaks REF. -/
def edgeBad (g : Bytes) (e : Nat) : Bool :=
  let x := gEdge g e
  let isFwd (d : Nat) : Bool := decide (d < gD g ∧ detKind (gDet g d) = 1)
  decide (gD g ≤ edgeA x ∨ (gD g ≤ edgeB x ∧ edgeB x ≠ 0x7FF) ∨ (edgeDt x = 0 ∧ edgeA x = edgeB x) ∨ edgeWt x = 0 ∨
    gN g < edgeOset x) || isFwd (edgeA x) || isFwd (edgeB x)

/-- The first entry that breaks REF. -/
def refFail (g : Bytes) : Option GFail :=
  match (List.range (gD g)).find? (detShares g) with
  | some d => some { item := d }
  | none =>
    match (List.range (gE g)).find? (edgeBad g) with
    | some e => some { edge := true, item := e }
    | none => none

/-- Both rules of CAPACITY. -/
def capacityOk (g : Bytes) : Bool :=
  let es := (List.range (gE g)).map (gEdge g)
  let e0 := (es.filter (fun x => decide (edgeDt x = 0))).length
  decide ((gD g + 15) / 16 * gW g ≤ 512 ∧ e0 * gW g + (gE g - e0) * (gW g - 1) ≤ 32768)

/-- The status of a commit: 0 OK, 2 CRC, 3 FORMAT, 5 REF, 4 CAPACITY, and the entry named (R240). -/
def graphCheck (g : Bytes) (crc : Word) : Nat × GFail :=
  if crc32c (dense g gBase gLen) ≠ crc then (2, {})
  else match formatFail g with
    | some f => (3, f)
    | none => match refFail g with
      | some f => (5, f)
      | none => if capacityOk g then (0, {}) else (4, {})

/-! ## Decoding a window (R229, R230) -/

/-- The nodes an edge placed at a round joins: (round, detector); the boundary is no node. -/
def edgeNodes (g : Bytes) (i : Nat × Nat) : List (Nat × Nat) :=
  let x := gEdge g i.1
  (i.2, edgeA x) :: (if edgeB x = 0x7FF then [] else [(i.2 + edgeDt x, edgeB x)])

/-- The edges placed in a window of some rounds, by edge and lower round, in edge-table order: with DT = 0 in every round, with
DT = 1 for every two rounds that follow each other inside the window (R230 step 1). -/
def placedEdges (g : Bytes) (rounds : Nat) : List (Nat × Nat) :=
  (List.range (gE g)).flatMap (fun e => (List.range (rounds - edgeDt (gEdge g e))).map (fun r => (e, r)))

/-- A boundary edge (R238). -/
def isBoundary (g : Bytes) (i : Nat × Nat) : Bool := decide (edgeB (gEdge g i.1) = 0x7FF)

/-- The cluster of a node: by itself while nothing has joined it. -/
def clusterOf (cs : List (List (Nat × Nat))) (n : Nat × Nat) : List (Nat × Nat) := (cs.find? (·.contains n)).getD [n]

/-- An edge that is covered joins the clusters of its ends (R230 step 2). -/
def joinEdge (g : Bytes) (cs : List (List (Nat × Nat))) (i : Nat × Nat) : List (List (Nat × Nat)) :=
  match edgeNodes g i with
  | [a, b] =>
    let x := clusterOf cs a
    let y := clusterOf cs b
    if x.contains b then cs else (x ++ y) :: cs.filter (fun c => decide (c ≠ x ∧ c ≠ y))
  | _ => cs

/-- The clusters of some defects, once certain edges are covered over their whole length. -/
def clustersOf (g : Bytes) (defects full : List (Nat × Nat)) : List (List (Nat × Nat)) :=
  full.foldl (joinEdge g) (defects.map (fun n => [n]))

/-- A covered boundary edge ends in the cluster. -/
def reaches (g : Bytes) (full c : List (Nat × Nat)) : Bool :=
  full.any (fun i => isBoundary g i && (edgeNodes g i).any c.contains)

/-- A cluster grows while it holds an odd number of defects and has reached no boundary edge (R230 step 2). -/
def growing (g : Bytes) (defects full c : List (Nat × Nat)) : Bool :=
  decide ((c.filter (fun n => defects.contains n)).length % 2 = 1) && !reaches g full c

/-- The edges covered over their whole length, WT (R238). -/
def covered (g : Bytes) (gr : List ((Nat × Nat) × Nat)) : List (Nat × Nat) :=
  (gr.filter (fun e => decide (edgeWt (gEdge g e.1.1) ≤ e.2))).map (·.1)

/-- One step of growth: a growing cluster covers a step more of each edge that leaves it, so two that meet cover it from both
ends. -/
def growOnce (g : Bytes) (defects : List (Nat × Nat)) (gr : List ((Nat × Nat) × Nat)) : List ((Nat × Nat) × Nat) :=
  let full := covered g gr
  let cs := clustersOf g defects full
  let grows (n : Nat × Nat) : Bool := growing g defects full (clusterOf cs n)
  let inside (i : Nat × Nat) : Bool := match edgeNodes g i with
    | [a, b] => (clusterOf cs a).contains b
    | _ => false
  gr.map (fun e => if full.contains e.1 || inside e.1 then e
    else (e.1, e.2 + (Config.growStep + 1) * ((edgeNodes g e.1).filter grows).length))

/-- Growth to its end: until no cluster grows any more. -/
def growAll (g : Bytes) (defects : List (Nat × Nat)) : Nat → List ((Nat × Nat) × Nat) → List ((Nat × Nat) × Nat)
  | 0, gr => gr
  | n + 1, gr => let next := growOnce g defects gr; if next = gr then gr else growAll g defects n next

/-- The covered edges of a window's defects, in edge-table order. -/
def grownEdges (g : Bytes) (rounds : Nat) (defects : List (Nat × Nat)) : List (Nat × Nat) :=
  let es := placedEdges g rounds
  covered g (growAll g defects ((es.map (fun i => edgeWt (gEdge g i.1))).sum + 1) (es.map (fun i => (i, 0))))

/-- The spanning forest of the clusters, taken in edge-table order: the covered edges that join what no earlier one joined, and
the first boundary edge of each cluster (R230 step 3, log 14). -/
def spanning (g : Bytes) (defects full : List (Nat × Nat)) : List (Nat × Nat) :=
  let inner := full.filter (fun i => !isBoundary g i)
  let add (a : List (List (Nat × Nat)) × List (Nat × Nat)) (i : Nat × Nat) : List (List (Nat × Nat)) × List (Nat × Nat) :=
    match edgeNodes g i with
    | [x, y] => if (clusterOf a.1 x).contains y then a else (joinEdge g a.1 i, a.2 ++ [i])
    | _ => a
  let tree := (inner.foldl add (defects.map (fun n => [n]), [])).2
  let outs := (clustersOf g defects full).filterMap (fun c =>
    full.find? (fun i => isBoundary g i && (edgeNodes g i).any c.contains))
  tree ++ outs

/-- Toggle a node in a set of nodes. -/
def toggleNode (n : Nat × Nat) (es : List (Nat × Nat)) : List (Nat × Nat) :=
  if es.contains n then es.filter (fun m => decide (m ≠ n)) else es ++ [n]

/-- Peeling: the first edge of the forest with a leaf goes; it is a correction edge when the leaf is a defect, which then
passes to its other end (R230 step 3). -/
def peel (g : Bytes) : Nat → List (Nat × Nat) → List (Nat × Nat) → List (Nat × Nat)
  | 0, _, _ => []
  | k + 1, tree, defects =>
    let leaf (n : Nat × Nat) : Bool := decide ((tree.filter (fun i => (edgeNodes g i).contains n)).length = 1)
    match tree.find? (fun i => (edgeNodes g i).any leaf) with
    | none => []
    | some i =>
      let rest := tree.erase i
      match (edgeNodes g i).find? leaf with
      | none => []
      | some n =>
        if defects.contains n then i :: peel g k rest ((edgeNodes g i).foldl (fun d m => toggleNode m d) defects)
        else peel g k rest defects

/-- The clusters of a window of rounds from round a, and its correction edges by edge and lower round (R230). -/
def decodeGraph (g : Bytes) (a rounds : Nat) (defects : List (Nat × Nat)) :
    List (List (Nat × Nat)) × List (Nat × Nat) :=
  let rel := defects.map (fun n => (n.1 - a, n.2))
  let full := grownEdges g rounds rel
  let tree := spanning g rel full
  ((clustersOf g rel full).map (fun c => c.map (fun n => (n.1 + a, n.2))),
    (peel g tree.length tree rel).map (fun i => (i.1, i.2 + a)))

end Sys2Proof.Machine
end

