-- ==== Sys2Proof/Machine/Readout.lean ====
section
/-! DEFINITION. The read-out chain (07_readout.md): arms, windows, demodulation, the Sieve, results, slice rotation. -/

namespace Sys2Proof.Machine

def getDemod (s : State) (d : Nat) : Demod := mapGet (fun _ => {}) s.demods d
def setDemod (s : State) (d : Nat) (x : Demod) : State := { s with demods := mapSet (fun _ => {}) s.demods d x }
def getRdi (s : State) (n : Nat) : Rdi := mapGet (fun _ => {}) s.rdis n
def setRdi (s : State) (n : Nat) (x : Rdi) : State := { s with rdis := mapSet (fun _ => {}) s.rdis n x }

/-- The input of a demodulator, and the offset of its register block (R185). -/
def dmIn (d : Nat) : Nat := d / 32
def dmOff (d k : Nat) : Nat := 0x400 + 0x40 * (d % 32) + k
def dmRd (s : State) (d k hi lo : Nat) : Nat := rd s .rdi (dmIn d) (dmOff d k) hi lo
/-- The group of an input's read-out sequencer. -/
def dmGroup (s : State) (d : Nat) : Option Nat := seqGroup s (64 + dmIn d)

/-- DF of R170. -/
def dmFreq (s : State) (d : Nat) : Nat := dmRd s d 0x00 31 0 + 2 ^ 32 * dmRd s d 0x04 15 0

/-- P_d at a schedule position: as P under R118, R170. -/
def dmAsTone (x : Demod) : Tone := { p := x.p, pos := x.pos, f := x.f, ops := x.ops }
def dmPhaseAt (x : Demod) (pos : Nat) : Nat :=
  phaseAt (toneAt (dmAsTone x) (256 * pos) 0) pos
/-- Let the phase events behind the current tick act. -/
def dmSettle (s : State) (x : Demod) : Demod :=
  let t := settlePhases (drvNow s) x.ops (dmAsTone x)
  { x with p := t.p, pos := t.pos, f := t.f, ops := t.ops }

/-- Place a phase event at sample 0 of tick t + 36 (R170). -/
def dmPlace (t : BitVec 48) (d : Nat) (op : PhOp) (s : State) : State :=
  let sp := 32 * (t.toNat + 36)
  let x := dmSettle s (getDemod s d)
  setDemod s d { x with ops := placePhase { sp := sp, dp := 256 * sp, w := 0, op := op, deps := [] } x.ops }

/-- A shot opening with ACC_RST = 1 zeroes P_d (R170). -/
def dmOpen (t : BitVec 48) (s : State) (d : Nat) : State :=
  if rdBit s .rdi (dmIn d) (dmOff d 0x0C) 29 then dmPlace t d .acc s else s

/-- A write of DF is applied now (R170). -/
def dfChanged (d : Nat) (s : State) : State := dmPlace s.clk.tc d (.freq (dmFreq s d)) s

/-! ## Results -/

/-- The result word's 128 bits (R180). -/
def resBits (r : Res) : Nat :=
  ux 24 r.i + ux 24 r.q * 2 ^ 24 + r.state * 2 ^ 48 + b2n r.void * 2 ^ 50 + b2n r.ambig * 2 ^ 51 + b2n r.ovr * 2 ^ 52 +
  b2n r.iqSat * 2 ^ 53 + r.cause * 2 ^ 54 + r.demod * 2 ^ 64 + r.endTc.toNat * 2 ^ 80

/-- A result word's place among the words for the capture taps, which keep those of the last 8,192 ticks (R180, R252). -/
def noteWord (r : Res) (s : State) : State :=
  { s with
    iqWords := (s.iqWords ++ [({ num := s.iqSent, at_ := s.clk.tc, res := r } : IqWord)]).filter (fun w =>
      decide (ticksTo w.at_ s.clk.tc < 8192))
    iqSent := s.iqSent + 1 }

/-- The converter group sends a result word (R180, R181): RES_I, RES_Q, RES_STAT, the VOID count and tag, the capture taps,
and the item for the Ladle due at the given tick. -/
def sendResult (r : Res) (due : BitVec 48) (group : Option Nat) (deps : List Nat) (s : State) : State :=
  let n := dmIn r.demod
  let s1 := wrAll (wrAll s .rdi n (dmOff r.demod 0x30) (ux 32 r.i)) .rdi n (dmOff r.demod 0x34) (ux 32 r.q)
  let st := r.cause * 2 ^ 9 + b2n r.void * 2 ^ 8 + b2n r.ambig * 2 ^ 7 + b2n r.ovr * 2 ^ 6 + b2n r.iqSat * 2 ^ 5 + r.state
  let s2 := raiseBit .rdi n (dmOff r.demod 0x38) 31 (wrAll s1 .rdi n (dmOff r.demod 0x38) st)
  let s3 := if r.void then
      let t := bump s2 .rdi n 0x050 15 0 1
      match group with
      | some g => tagShot g tagVoid t
      | none => t
    else s2
  sendItem due group deps (.result r) (noteWord r s3)

/-- A VOID word to come of a window that never opened or was ended (R180 to R182, R484). -/
def refuse (d : Nat) (r : Refused) (s : State) : State :=
  let x := getDemod s d
  setDemod s d { x with refused := x.refused ++ [r] }

/-- The VOID word of an arm refused or late at tick a is formed 4 ticks after (R182), a provisional one's not before its
branch has resolved (R181). -/
def refuseArm (d cause : Nat) (due a : BitVec 48) (i : Item) (s : State) : State :=
  refuse d { cause := cause, due := due, form := a + 4, group := i.group, deps := i.deps } s

/-- A refused arm's word, formed in its own tick and due at the Ladle 4 ticks later (R181, R182). -/
def formRefused (d : Nat) (s : State) (r : Refused) : State :=
  atTick r.form (sendResult { void := true, cause := r.cause, demod := d, endTc := r.due } (r.form + 4) r.group []) s

/-- Form the words of a demodulator whose tick has come (R181, R182). Each passes in its own tick. -/
def readCatch (d : Nat) (s : State) : State :=
  let x := getDemod s d
  let ripe (r : Refused) : Bool := r.deps.isEmpty && decide (0 ≤ ticksTo r.form s.clk.tc)
  if x.refused.any ripe then
    (x.refused.filter ripe).foldl (formRefused d) (setDemod s d { x with refused := x.refused.filter (fun r => !ripe r) })
  else s

/-- The result words of an input that wait for a tick. -/
def inputCatch (n : Nat) (s : State) : State :=
  (List.range 32).foldl (fun t i => if (getDemod t (32 * n + i)).refused.isEmpty then t else readCatch (32 * n + i) t) s

/-- Time passes to the tick in which a demodulator's next waiting word is formed. -/
def readUntil (d : Nat) (s : State) : State :=
  match (getDemod s d).refused.find? (fun r => r.deps.isEmpty) with
  | some r => readCatch d (passTo r.form s)
  | none => s

/-- The settings check of R172. -/
def winErr (s : State) (d : Nat) : Bool :=
  let len := dmRd s d 0x0C 28 16
  let off := sx 48 (ux 48 ((dmFreq s d : Int) - (dmRd s d 0x0C 5 0 * 2 ^ 42 : Nat)))
  decide (len = 0 ∨ 4096 < len) || decide ((2 ^ 43 : Nat) < 3 * off.natAbs) || !enabled s .rdi (dmIn d)

/-- Do two windows share a tick (R173)? -/
def shareTick (a : BitVec 48) (la : Nat) (b : BitVec 48) (lb : Nat) : Bool :=
  let d := ticksTo a b
  decide (d < (la : Int) ∧ -(lb : Int) < d)

/-- A window's last tick. -/
def winEnd (v : Win) : BitVec 48 := v.openAt + BitVec.ofNat 48 (v.len - 1)

/-- A window is armed or open in a tick: its last tick is not past (R173). -/
def winLive (t : BitVec 48) (v : Win) : Bool := decide (0 ≤ ticksTo t (winEnd v))

/-- A window arm acts in its due tick (R172, R173, R182, R484). -/
def armAct (i : Item) (s : State) : State :=
  match i.load with
  | .arm d w woff =>
    let n := dmIn d
    let due := s.clk.tc
    if isResetting s .rdi n then refuseArm d 7 due due i s
    else if winErr s d then refuseArm d 6 due due i (raiseEvt .rdi n 2 (bump s .rdi n 0x054 15 0 1))
    else
      let x := getDemod s d
      let len := dmRd s d 0x0C 28 16
      let t0 := w + BitVec.ofNat 48 (36 + woff + rd s .rdi n 0x044 15 0)
      let live := x.wins.filter (winLive s.clk.tc)
      if live.any (fun v => shareTick v.openAt v.len t0 len) || decide (2 ≤ live.length) then
        refuseArm d 2 due due i (raiseEvt .rdi n 1 (bump s .rdi n 0x054 31 16 1))
      else setDemod s d { x with wins := x.wins ++ [{ openAt := t0, len := len, due := due, group := i.group, deps := i.deps }] }
  | _ => s

/-- A late arm never opens (R20, R182). -/
def armLate (i : Item) (s : State) : State :=
  match i.load with
  | .arm d _ _ => refuseArm d (if isResetting s .rdi (dmIn d) then 7 else 1) (dueTick i s) s.clk.tc i s
  | _ => s

/-- WINDOW_ARM_DUE: all the arms of the word come together (R16); late ones give VOID results with cause LATE_ARM (R20, R160,
R182). -/
def windowArmDue (d : Nat) (s : State) : State :=
  let isA (p : Payload) : Bool := match p with
    | .arm k _ _ => decide (k = d)
    | _ => false
  deliver isA armAct (fun i t => tagItem i (tagLate ||| tagVoid) (raiseEvt .rdi (dmIn d) 0 t)) armLate s

/-! ## The input (R162, R167 to R169, R179) -/

/-- The slice at position p, and setting it (SLICE_MAP). -/
def sliceAt (s : State) (n p : Nat) : Nat := rd s .rdi n (0x060 + 4 * (p / 4)) (8 * (p % 4) + 4) (8 * (p % 4))
def setSliceAt (n p v : Nat) (s : State) : State := wr s .rdi n (0x060 + 4 * (p / 4)) (8 * (p % 4) + 4) (8 * (p % 4)) v

/-- The registers of a slice (R185). -/
def sliceOff (k : Nat) : Nat := 0x100 + 0x10 * k

/-- A raw slice code at a bound is overrange (R162). -/
def overrange (x : BitVec 12) : Bool := decide (x.toInt = -2048 ∨ x.toInt = 2047)

/-- The slice that took position p's samples of tick t, and a slice's SLC_OFS and SLC_GAIN then (R163). -/
def sliceThen (s : State) (n p : Nat) (t : BitVec 48) : Nat :=
  stoodAt (sliceAt s n p) (((getRdi s n).moved.filter (fun e => decide (e.2.1 = p))).map (fun e => (e.1, e.2.2))) t
def fitThen (s : State) (n k : Nat) (t : BitVec 48) : Nat × Nat :=
  stoodAt (rd s .rdi n (sliceOff k) 15 0, rd s .rdi n (sliceOff k + 4) 15 0)
    (((getRdi s n).fitted.filter (fun e => decide (e.2.1 = k))).map (fun e => (e.1, e.2.2))) t

/-- A raw code after offset and gain correction, the offset in 1/256 of a unit, the gain 0x8000 for 1.0 (R162, R185): the order
of the two and the rounding are open (log 12). -/
def sliceFix (raw ofs : Int) (gain : Nat) : Int :=
  let num : Int := if Config.gainFirst then 256 * raw * gain + 32768 * ofs else (256 * raw + ofs) * gain
  num / 2 ^ 23 + (if num % 2 ^ 23 ≠ 0 ∧ Config.sliceUp raw ofs gain then 1 else 0)

/-- A sample of the combined stream in tick t: the code of the slice that took its position, corrected by that slice's offset
and gain (R162). -/
def combined (s : State) (n p : Nat) (t : BitVec 48) (x : BitVec 12) : Int :=
  let f := fitThen s n (sliceThen s n p t) t
  clampI (-2048) 2047 (sliceFix x.toInt (sx 16 f.1) f.2)

/-- The combined stream of raw codes from sample 0 of tick t on: position p takes every sample with k ≡ p mod 16. -/
def combineAll (s : State) (n : Nat) (t : BitVec 48) (xs : List (BitVec 12)) : List Int :=
  xs.zipIdx.map (fun e => combined s n (e.2 % 16) (t + BitVec.ofNat 48 (e.2 / 32)) e.1)

/-- The Colander's sum over 384 input samples around the one at place 192 for one component, cosine or sine: linear-phase taps,
each sample turned back by the channel's centre of k/64 turns a sample (R167). -/
def colanderSum (turn : BitVec 32 → Int) (ch : Nat) (xs : List Int) : Int :=
  (xs.zipIdx.map (fun e =>
    if e.2 = 0 then 0
    else Config.tap ((e.2 : Int) - 192).natAbs * e.1 * turn (BitVec.ofNat 32 (ch * ((e.2 + 64 - 192 % 64) % 64) * 2 ^ 26)))).sum

/-- The sum of the taps: a real input of amplitude A at the centre gives 16,384 × A, 8 units for each of the input's 2,048
(R168). -/
def tapSum : Int := ((List.range 383).map (fun i => Config.tap ((i : Int) - 191).natAbs)).sum

/-- A component of a channel sample before saturation: twice 8 times the sum over that of the taps, to an integer (R168). -/
def colanderOut (x : Int) : Int :=
  let den := tapSum * 2 ^ 60
  16 * x / den + (if 16 * x % den ≠ 0 ∧ Config.colanderUp (16 * x) den then 1 else 0)

/-- The channel sample of the tick m after the seventh of a stretch of input samples: the Colander's filter spans 384 of them,
centred on sample 16 of that tick; the components saturate at 32,767 (R167 to R169). -/
def channelSample (ch : Nat) (xs : List Int) (m : Nat) : Int × Int :=
  let ys := (xs.drop (32 * m + 16)).take 384
  (clampI (-32767) 32767 (colanderOut (colanderSum cosQ ch ys)), clampI (-32767) 32767 (colanderOut (-colanderSum sinQ ch ys)))

/-- The channel samples of a window, from the raw codes of the ticks from 6 before its first to 6 after its last. -/
def windowSamples (s : State) (d : Nat) (w : Win) (xs : List (BitVec 12)) : List (Int × Int) :=
  let ys := combineAll s (dmIn d) (w.openAt - 6) xs
  (List.range w.len).map (channelSample (dmRd s d 0x0C 5 0) ys)

/-- A window's overrange mark: a sample of its ticks, the 6 before or the 6 after (R179). -/
def windowOvr (s : State) (d : Nat) (w : Win) (xs : List (BitVec 12)) : Bool :=
  xs.any overrange || (getRdi s (dmIn d)).ovrs.any (fun t =>
    decide (0 ≤ ticksTo (w.openAt - 6) t ∧ 0 ≤ ticksTo t (winEnd w + 6)))

/-- INPUT_OVERRANGE: a raw slice code at a bound in this tick (R162, R179). -/
def inputOverrange (n : Nat) (s : State) : State :=
  let x := getRdi s n
  let ts := (s.clk.tc :: x.ovrs).filter (fun t => decide (ticksTo t s.clk.tc < 8192))
  raiseFirst .rdi n 3 (bump (setRdi s n { x with ovrs := ts }) .rdi n 0x04C 31 0 1)

/-! ## Demodulation and the Sieve -/

/-- One rotated sample z' of R171, and whether a component saturated. -/
def rotate (s : State) (d : Nat) (tick : Nat) (z : Int × Int) : (Int × Int) × Bool :=
  let th := BitVec.ofNat 32 (dmPhaseAt (getDemod s d) (32 * tick + 16) / 65536 + (dmRd s d 0x08 31 0))
  let c := cos18 th
  let sn := sin18 th
  let re := rndAway (z.1 * c + z.2 * sn) 17
  let im := rndAway (z.2 * c - z.1 * sn) 17
  ((satS 16 re, satS 16 im), decide (satS 16 re ≠ re ∨ satS 16 im ≠ im))

/-- Weight m of a demodulator's set (R175). -/
def weight (s : State) (d m : Nat) : Int × Int :=
  let a := 0x58000000 + d * 0x4000 + 4 * m
  (sx 16 (leNat s.stores a 2), sx 16 (leNat s.stores (a + 2) 2))

/-- The accumulators over the samples from weight m on (R174). -/
def accumulate (s : State) (d t0 : Nat) : Nat → List (Int × Int) → (Int × Int) × Bool
  | _, [] => ((0, 0), false)
  | m, z :: zs =>
    let (v, sat) := rotate s d (t0 + m) z
    let (wi, wq) := weight s d m
    let (rest, sat2) := accumulate s d t0 (m + 1) zs
    ((rest.1 + (wi * v.1 - wq * v.2), rest.2 + (wi * v.2 + wq * v.1)), sat || sat2)

/-- d_j of R177. -/
def boundary (s : State) (d j : Nat) (i q : Int) : Int :=
  sx 16 (dmRd s d (0x10 + 8 * j) 15 0) * i + sx 16 (dmRd s d (0x10 + 8 * j) 31 16) * q -
    256 * sx 32 (dmRd s d (0x14 + 8 * j) 31 0)

def boundaryOn (s : State) (d j : Nat) : Bool := nbit (dmRd s d 0x28 18 16) j

/-- The state of a point (R177). -/
def sieveState (s : State) (d : Nat) (i q : Int) : Nat :=
  let bit (j : Nat) : Nat := b2n (boundaryOn s d j && decide (0 ≤ boundary s d j i q))
  let e := 4 * bit 2 + 2 * bit 1 + bit 0
  nbits (dmRd s d 0x28 15 0) (2 * e + 1) (2 * e)

/-- A point is ambiguous near an enabled boundary (R178). -/
def sieveAmbig (s : State) (d : Nat) (i q : Int) : Bool :=
  (List.range 3).any (fun j => boundaryOn s d j &&
    decide ((boundary s d j i q).natAbs < 256 * dmRd s d 0x2C 31 0))

/-- The result of a window from its samples (R171 to R180). -/
def windowResult (s : State) (d : Nat) (w : Win) (zs : List (Int × Int)) (ovr : Bool) : Res :=
  let shift := dmRd s d 0x0C 12 8
  let (acc, zsat) := accumulate s d w.openAt.toNat 0 (zs.take w.len)
  let i0 := rndAway acc.1 shift
  let q0 := rndAway acc.2 shift
  let i := satS 24 i0
  let q := satS 24 q0
  let amb := sieveAmbig s d i q
  let ovrVoid := ovr && rdBit s .rdi (dmIn d) 0x040 0
  let ambVoid := amb && dmRd s d 0x0C 30 30 = 1
  let cause := if w.withdrawn then 3 else if ovrVoid then 5 else if ambVoid then 4 else 0
  { i := i, q := q, state := sieveState s d i q, void := cause ≠ 0, ambig := amb, ovr := ovr,
    iqSat := zsat || decide (i ≠ i0 ∨ q ≠ q0), cause := cause, demod := d,
    endTc := w.openAt + BitVec.ofNat 48 (w.len - 1) }

/-- Of two windows, the one that ends first. -/
def firstEnd : List Win → Option Win
  | [] => none
  | w :: ws => match firstEnd ws with
    | some v => if 0 < ticksTo (winEnd v) (winEnd w) then some v else some w
    | none => some w

/-- WINDOW_CLOSE: the demodulator's window that ends first has seen its last sample in tick t; its result word is formed in
t + 23 and due at the Ladle at t + 28 (R174, R177 to R184). The operands hold the raw codes that the window and the filter
span, 32 a tick: those of the 6 ticks before its first tick, and those from there to the 6th after its last; lists of other
lengths are none of its closings (log 3). The settings are those that stand when the word is formed, after a soft reset too
(log 114). -/
def windowClose (d : Nat) (lead raw : List (BitVec 12)) (s : State) : State :=
  match firstEnd (getDemod s d).wins with
  | none => s
  | some w =>
    if lead.length ≠ 192 ∨ raw.length ≠ 32 * (w.len + 6) then s
    else
    let xs := lead ++ raw
    let s1 := passTo (winEnd w + 23) s
    let r := windowResult s1 d w (windowSamples s1 d w xs) (windowOvr s1 d w xs)
    let s2 := setDemod s1 d { getDemod s1 d with wins := (getDemod s1 d).wins.erase w }
    let n := dmIn d
    let s3 := if r.iqSat then raiseFirst .rdi n 4 s2 else s2
    let s4 := if r.ambig then raiseFirst .rdi n 5 (bump s3 .rdi n 0x050 31 16 1) else s3
    sendResult r (winEnd w + 28) w.group w.deps s4

/-- A branch resolves at the read-out groups in the current tick (R96, R181): on the predicted path arms stand and
refused arms yield their words; otherwise windows not yet open are withdrawn, and open ones end WITHDRAWN. -/
def dmResolve (dep : Nat) (ok : Bool) (s : State) (d : Nat) : State :=
  let x := getDemod s d
  if ok then
    let freed (r : Refused) : Refused :=
      let ds := r.deps.filter (· ≠ dep)
      { r with deps := ds, form := if r.deps.contains dep && ds.isEmpty then laterTick r.form s.clk.tc else r.form }
    readCatch d (setDemod s d { x with
      wins := x.wins.map (fun w => { w with deps := w.deps.filter (· ≠ dep) }), refused := x.refused.map freed })
  else
    let opened (w : Win) : Bool := decide (0 ≤ ticksTo w.openAt s.clk.tc)
    let wins := (x.wins.filter (fun w => !w.deps.contains dep || opened w)).map (fun w =>
      if w.deps.contains dep then { w with withdrawn := true, deps := [] } else w)
    setDemod s d { x with wins := wins, refused := x.refused.filter (fun r => !r.deps.contains dep) }

/-- A soft reset of an RDI page ends every window of the input that is armed or open with cause RESET; the words are formed 4
ticks after (R484). A window whose last tick is past gives its own result. -/
def dmReset (s : State) (d : Nat) : State :=
  let x := getDemod s d
  let r := s.clk.tc
  (x.wins.filter (winLive r)).foldl (fun t w =>
    refuse d { cause := if w.withdrawn then 3 else 7, due := r, form := r + 4, group := w.group, deps := w.deps } t)
    (setDemod s d { x with wins := x.wins.filter (fun w => !winLive r w) })

/-- RESULT_DUE, when the result word may still have to be formed (R181, R182, R191). -/
def resultArrives (d : Nat) (s : State) : State :=
  let isRes (i : Item) : Bool := match i.load with
    | .result r => decide (r.demod = d)
    | _ => false
  resultDue d (if s.items.any isRes then readCatch d s else readUntil d s)

/-! ## Fields of a calibration request (R410) -/

def rqOff (k o : Nat) : Nat := 0x100 + 0x20 * k + o
def rqStatus (s : State) (k : Nat) : Nat := rd s .cal 0 (rqOff k 0x10) 31 28
def rqKind (s : State) (k : Nat) : Nat := rd s .cal 0 (rqOff k 0) 31 27
def rqLevel (s : State) (k : Nat) : Nat := rd s .cal 0 (rqOff k 0) 25 24
def rqMaxAtt (s : State) (k : Nat) : Nat := rd s .cal 0 (rqOff k 0) 23 20
def rqType (s : State) (k : Nat) : Nat := rd s .cal 0 (rqOff k 4) 31 24
def rqInst (s : State) (k : Nat) : Nat := rd s .cal 0 (rqOff k 4) 23 12
def rqSub (s : State) (k : Nat) : Nat := rd s .cal 0 (rqOff k 4) 11 0
def rqParam (s : State) (k : Nat) : Nat := (reg s .cal 0 (rqOff k 8)).toNat

/-- An ADC_CAL of the input has begun and not ended: it suspends the rotation (R407). -/
def adcCalRuns (s : State) (n : Nat) : Bool :=
  (List.range 16).any (fun k => decide (rqKind s k = 0x0D ∧ rqType s k = 0x13 ∧ rqInst s k = n) &&
    (decide (rqStatus s k = 2) || (decide (rqStatus s k = 1) && decide (rd s .cal 0 (rqOff k 0x10) 15 0 ≠ 0))))

/-! ## Slice rotation -/

/-- Shadowing is paused (R165, R407): rotation off, input quiet, throttling, shed stage 2 and above, or an ADC_CAL. -/
def shadowPaused (s : State) (n : Nat) : Bool :=
  !rdBit s .rdi n 0x040 1 || (getRdi s n).quiet || bgPaused s || adcCalRuns s n

/-- Keep what a slice's corrections were before they change now, as long as a window can still need them. -/
def noteFit (n k : Nat) (s : State) : State :=
  let x := getRdi s n
  let e := (s.clk.tc, k, rd s .rdi n (sliceOff k) 15 0, rd s .rdi n (sliceOff k + 4) 15 0)
  setRdi s n { x with fitted := (e :: x.fitted).filter (fun f => decide (ticksTo f.1 s.clk.tc < 8192)) }

/-- The corrections of the slice at a position follow the ensemble, in static mode without its skew (R163, R166); the spec
does not give the fitted numbers, so they are free values (log 12). -/
def trackSlice (n : Nat) (s0 : State) (p : Nat) : State :=
  let s := noteFit n (sliceAt s0 n p) s0
  let o := sliceOff (sliceAt s n p)
  let s1 := wr s .rdi n o 15 0 (Config.free s.free)
  let s2 := wr s1 .rdi n (o + 4) 15 0 (Config.free (s.free + 1))
  let s3 := if (getRdi s n).retired.isSome then s2 else wr s2 .rdi n (o + 8) 15 0 (Config.free (s.free + 2))
  { s3 with free := s3.free + 3 }

/-- A slice has failed for good: SLICE_BAD, and its retirement at the next boundary where SPARE_SEL asks for it; with one
retired already the input keeps running with it, and STATE reads 3 (R165, R166). -/
def sliceFails (n unit : Nat) (s : State) : State :=
  let s1 := raiseFault .rdi n 0 s
  if (getRdi s n).retired.isSome then setSpareState 2 n 3 s1
  else
    let s2 := candidate_ 2 n unit s1
    if spareSel s2 2 n = 1 then pendSub 2 n unit s2 else s2

/-- The residual check of the active slices: the worst one, at a position, above RESID_LIM fails (R165). -/
def activeCheck (n pos resid : Nat) (s : State) : State :=
  let a := sliceAt s n pos
  if rd s .rdi n 0x070 15 0 < resid then sliceFails n a (addWear 2 n a 1 s) else s

/-- SHADOW_STEP: a shadow of the spare ends with its fit and its residual check, and a round of ensemble tracking with the
worst active slice's residual; in static mode there is only the tracking (R163, R165, R166). -/
def shadowStep (n resid ofs gain skew pos act : Nat) (s : State) : State :=
  let x := getRdi s n
  if shadowPaused s n then s
  else
    let s1 := activeCheck n pos act ((List.range 16).foldl (trackSlice n) s)
    if x.retired.isSome || x.ready then s1
    else
      let o := sliceOff x.spare
      let s2 := wr (wr (wr (noteFit n x.spare s1) .rdi n o 15 0 ofs) .rdi n (o + 4) 15 0 gain) .rdi n (o + 8) 15 0 skew
      let s3 := hmSample 3 n x.spare resid (wr (wr s2 .rdi n (o + 12) 15 0 resid) .rdi n 0x048 15 0 resid)
      if rd s3 .rdi n 0x070 15 0 < resid then
        let s4 := setRdi (addWear 2 n x.spare 1 s3) n { getRdi s3 n with fails := x.fails + 1 }
        if x.fails = 0 then s4 else sliceFails n x.spare s4
      else setRdi s3 n { getRdi s3 n with fails := 0, ready := true }

/-- Is a handover permitted in the current tick (R164)? -/
def handoverOk (s : State) (n : Nat) : Bool :=
  let q := 64 + n
  let free := match seqGroup s q with
    | none => true
    | some g => (getGroup s g).boundary
  let quiet := (List.range 32).all (fun i => (getDemod s (32 * n + i)).wins.all (fun w =>
    decide (16 < ticksTo s.clk.tc w.openAt) || !winLive s.clk.tc w))
  free || (rdBit s .rdi n 0x040 2 && quiet)

/-- HANDOVER: the checked spare takes its position from this tick on, while the rotation is on (R163 step 3, R164). -/
def handoverAt (n : Nat) (s : State) : State :=
  let x := getRdi s n
  if x.ready && handoverOk s n && x.retired.isNone && rdBit s .rdi n 0x040 1 then
    let a := sliceAt s n x.pos
    let s1 := setSliceAt n x.pos x.spare s
    let s2 := setRdi s1 n { x with
      spare := a, pos := (x.pos + 1) % 16, ready := false
      moved := ((s.clk.tc, x.pos, a) :: x.moved).filter (fun e => decide (ticksTo e.1 s.clk.tc < 8192)) }
    raiseEvt .rdi n 8 (bump s2 .rdi n 0x048 31 16 1)
  else s

/-- INPUT_QUIET: the input's mean power, in 1/256 dB below full scale; below MIN_PWR dB the input is quiet, and QUIET is
raised once per pause (R165). -/
def inputQuiet (n below : Nat) (s : State) : State :=
  let x := getRdi s n
  let q := decide (256 * rd s .rdi n 0x040 15 8 < below)
  let s1 := setRdi s n { x with quiet := q }
  raiseEvtIf (q && !x.quiet) .rdi n 9 s1

/-- ADC_FAULT (R468's bias monitor, R187). -/
def adcFaultAt (n : Nat) (s : State) : State := raiseFault .rdi n 1 s

end Sys2Proof.Machine
end

