-- ==== Sys2Proof/Machine/Requests.lean ====
section
/-! DEFINITION. Requests that sequencers, tasks and capture units make of TBUS and the ring (R83, R338, R375, R376). -/

namespace Sys2Proof.Machine

/-- The module drives and samples TBUS (R64, R373, R481). -/
def tbusOn (s : State) : Bool := ready s && enabled s .tbus 0 && rdBit s .tbus 0 0x040 31

/-- Ask for one TBUS cycle on a line, in the first cycle c with 6c ≥ a + 2 (R375). -/
def askTbus (line : Nat) (a : BitVec 48) (s : State) : State :=
  if !tbusOn s then s
  else { s with tbusQ := s.tbusQ ++ [{ line := line, notBefore := a + 2, start := none }] }

/-- A master word asks for a START that names an opening no earlier than the one given (R376). -/
def askStart (m : Nat) (a opening : BitVec 48) (s : State) : State :=
  if !tbusOn s then s
  else { s with tbusQ := s.tbusQ ++
    [{ line := rd s .tbus 0 0x040 26 24, notBefore := a + 2, start := some opening, master := m }] }

/-- Send a TRIGGER flit on the given ring ports; TSEQ advances once (R338). -/
def sendTrigger (ports : List Nat) (id : Nat) (due : BitVec 48) (s : State) : State :=
  if ports.isEmpty then s
  else
    let n := (s.tseq + 1) % 2 ^ 16
    ports.foldl (queueRt s.clk.tc (.trig id due n)) { s with tseq := n }

/-- The ring ports that send the triggers of master words (R338). -/
def masterTrigPorts (s : State) : List Nat := [0, 1].filter (fun r => rdBit s .ring r 0x044 5)

/-- TRIG_LEAD of a master, at least 24. -/
def trigLead (s : State) (m : Nat) : Nat := max 24 (rd s .seq (112 + m) 0x0A8 15 0)

/-- Something waits for a tick ahead. -/
def waitFor (t : BitVec 48) (q : Nat) (p : Prov) (s : State) : State := { s with later := s.later ++ [(t, q, p)] }

/-- A TRIGGER flit of a task input goes out on a port: held until it is within the lead limit (R18, R338). -/
def sendTaskTrigger (q r id n : Nat) (due : BitVec 48) (s : State) : State :=
  let first := due - BitVec.ofNat 48 leadLimit
  if 0 < ticksTo s.clk.tc first then waitFor first q (.trig r id due n) s else queueRt s.clk.tc (.trig id due n) s r

/-- What a word does outside its sequencer, in its tick (R83, R84, R88, R122, R147), and what a task input does at
the ring. A TRIGGER flit is held until it is within the lead limit (R18, R338). -/
def doKept (q : Nat) (p : Prov) (s : State) : State :=
  match p with
  | .fire line due => fireLine line due false s
  | .mark g id due => sendItem due (some g) [] (.mark g id) s
  | .calwin g => setGroup s g { getGroup s g with calReq := true }
  | .tbus m w opening => askStart m w opening s
  | .ring _ id opening =>
    let first := opening - BitVec.ofNat 48 leadLimit
    if 0 < ticksTo s.clk.tc first then waitFor first q p s else sendTrigger (masterTrigPorts s) id opening s
  | .trig r id due n => sendTaskTrigger q r id n due s
  | .loopZero => raiseEvt .seq q 4 s
  | .waitPast => raiseEvt .seq q 3 s
  | .sat out => if out < 80 then raiseEvt (outPage out).1 (outPage out).2 5 s else raiseEvt .flx ((out - 80) / 8) 4 s

/-- Do it in tick t, now or once time gets there. -/
def doAt (t : BitVec 48) (q : Nat) (p : Prov) (s : State) : State :=
  if 0 < ticksTo s.clk.tc t then waitFor t q p s else doKept q p s

/-- What waited for ticks up to now is done. -/
def laterCatch (s : State) : State :=
  let due (e : BitVec 48 × Nat × Prov) : Bool := decide (0 ≤ ticksTo e.1 s.clk.tc)
  (s.later.filter due).foldl (fun t e => doKept e.2.1 e.2.2 t) { s with later := s.later.filter (fun e => !due e) }

end Sys2Proof.Machine
end

