-- ==== Sys2Proof/Machine/Sequencer.lean ====
section
/-! DEFINITION. Sequencers: microwords, waits, loops and calls, branches and run-ahead, machine checks
(03_sequencers.md), and segment tables (04_segment_tables.md). -/

namespace Sys2Proof.Machine

/-! ## The microword (R67, R72 to R74) -/

/-- Lane k of word w of sequencer q's store in an image: 16 bits with the parity bit on top (R67). -/
def laneIn (m : Bytes) (q w k : Nat) : Nat := leNat m (0x40000000 + q * 0x40000 + 32 * w + 2 * k) 2

/-- The field bits of n lanes of an image from lane k on, lane k lowest (R72). -/
def laneBitsIn (m : Bytes) (q w k : Nat) : Nat → Nat
  | 0 => 0
  | n + 1 => laneIn m q w k % 2 ^ 15 + 2 ^ 15 * laneBitsIn m q w (k + 1) n

/-- The same in the live store. -/
def lane (s : State) (q w k : Nat) : Nat := laneIn s.stores q w k
def laneBits (s : State) (q w k n : Nat) : Nat := laneBitsIn s.stores q w k n

/-- The common field C[59:0] and the kind field K[179:0] of a word (R72). -/
def cField (s : State) (q w : Nat) : Nat := laneBits s q w 0 4
def kField (s : State) (q w : Nat) : Nat := laneBits s q w 4 12

/-- A microword (R73, R74). -/
structure Uword where
  target : Nat
  next : Nat
  loopOp : Nat
  wait : Nat
  cnt : Nat
  tset : Nat
  fire : Nat
  dch : Nat
  pol : Bool
  k : Nat
  limm : Nat
  lsrc : Nat
  swp : Bool
  swr : Bool
  pred : Nat
  defT : Bool
  deriving DecidableEq, Repr

/-- The fields of a word from its C and K bits (R73, R74). -/
def uwordOf (c k : Nat) : Uword := {
  target := nbits c 12 0, next := nbits c 15 13, loopOp := nbits c 17 16, wait := nbits c 21 18,
  cnt := nbits c 45 22, tset := nbits c 48 46, fire := nbits c 52 49, dch := nbits c 58 53, pol := nbit c 59,
  k := k, limm := nbits k 171 160, lsrc := nbits k 174 172, swp := nbit k 175, swr := nbit k 176,
  pred := nbits k 178 177, defT := nbit k 179 }

def uword (s : State) (q w : Nat) : Uword := uwordOf (cField s q w) (kField s q w)

/-- The lowest lane of a word that fails parity (R67, R97). -/
def badLaneIn (m : Bytes) (q w : Nat) : Option Nat := (List.range 16).find? (fun k => oddOnes 16 (laneIn m q w k))
def badLane (s : State) (q w : Nat) : Option Nat := badLaneIn s.stores q w

/-! ## State of a sequencer -/

/-- Segment mode (SEQ_CFG.MODE). -/
def segMode (s : State) (q : Nat) : Bool := rdBit s .seq q 0x040 16

/-- A sequencer in a running shot whose current word may still act: it runs or waits, or has stopped in that word
(R90). -/
def seqLive (s : State) (q : Nat) : Bool :=
  let x := getSeq s q
  x.inShot && seqShotRuns s q && enabled s .seq q && (x.st == .run || x.st == .wait || x.st == .stopped)

/-- The open branches that the current word stands behind: a BR word's own branch is not one of them (R94, R95). -/
def openBefore (x : Seq) : List Ahead := x.ahead.filter (fun a => decide (a.w ≠ x.w))

/-- The branches the current word depends on (R94). -/
def seqDeps (q : Nat) (x : Seq) : List Nat := (openBefore x).map (fun a => depOf q a.id)

/-- Time passes to a word's tick; on a predicted path, which issues ahead of it, only to where its items come within the
lead limit (R18, R94). -/
def passWord (x : Seq) (t : BitVec 48) (s : State) : State :=
  if (openBefore x).isEmpty then passTo t s else withinLead (t + 4) s

/-- Time passes to the next word's tick, as the branches open by then let it: behind the current word's own branch too
(R18, R94). -/
def passNext (x : Seq) (t : BitVec 48) (s : State) : State :=
  if x.ahead.isEmpty then passTo t s else withinLead (t + 4) s

/-- Do in a word's tick, or keep until the branch resolves (R94). -/
def doOrKeep (q : Nat) (p : Prov) (s : State) : State :=
  let x := getSeq s q
  match (openBefore x).getLast? with
  | none => doAt x.w q p s
  | some a => setSeq s q { x with
      ahead := x.ahead.map (fun b => if b.id = a.id then { b with kept := b.kept ++ [(x.w, p)] } else b) }

/-- The stack fault's effect in its tick: outputs mute, or ramp to park, 4 ticks later (R90, R482). -/
def stackFaultNow (q : Nat) (s : State) : State :=
  let s1 := setSeq s q { getSeq s q with st := .stopped, succ := none, halt := false }
  silenceSeq q (s.clk.tc + 4) (tagSeq q tagCorrupt (raiseFault .seq q 1 s1))

/-- A stack fault (R90). On a predicted path no further word follows, and the fault waits for its branch. -/
def stackFault (q : Nat) (s : State) : State :=
  let x := getSeq s q
  if (openBefore x).isEmpty then stackFaultNow q s else setSeq s q { x with halt := true, succ := none }

/-- The sequencer's part in the shot ends at tick e (R87, R91, R155). -/
def endPart (q : Nat) (e : BitVec 48) (s : State) : State :=
  let x := getSeq s q
  let left := !x.loops.isEmpty || !x.calls.isEmpty
  let s1 := raiseEvtIf left .seq q 5 (setSeq s q { x with st := .ended, succ := none, endAt := none })
  if 80 ≤ q ∧ q < 112 then (List.range 8).foldl (fun t k => fluxEndPark e (8 * (q - 80) + k) t) s1 else s1

/-- A master whose starts come from GO has no EVENT wait that ends but by its limit (R77). -/
def goStarts (s : State) (q : Nat) : Bool := decide (112 ≤ q ∧ q < 120) && decide (rd s .seq q 0x0A0 2 0 = 4)

/-- An EVENT wait of this sequencer waits for an activation now: its W has come, and it stands behind no open branch, whose
tick S - 4 would have come before W (R77). -/
def eventWaits (s : State) (q : Nat) : Bool :=
  let x := getSeq s q
  seqLive s q && !segMode s q && (x.st == .wait) && decide ((uword s q x.pc).wait = 4) && decide (x.met = none) &&
    (openBefore x).isEmpty && decide (0 ≤ ticksTo x.w s.clk.tc) && !goStarts s q

/-- An EVENT wait that begins with a latched GO activation consumes it (R77). -/
def takeLatch (q : Nat) (s : State) : State :=
  let x := getSeq s q
  if x.go.isSome && eventWaits s q then wr (setSeq s q { x with met := x.go, go := none }) .seq q 0x084 16 16 0
  else s

/-- A machine check on a word (R97); outputs mute, or ramp to park, 4 ticks later (R482). -/
def machineCheck (q w k : Nat) (s : State) : State :=
  let v := 2 ^ 31 + k * 2 ^ 16 + w
  let s1 := wrAll (setSeq s q { getSeq s q with st := .mchk, succ := none }) .seq q 0x058 v
  let s2 := silenceSeq q (s.clk.tc + 4) (tagSeq q tagCorrupt (raiseFault .seq q 0 s1))
  let row := Config.sramRow (0x40000000 + q * 0x40000 + 32 * w)
  addWear 5 (row / 4096) (row % 4096) 1 (addWear 0 q 0 1
    (logEvent 4 (addrOf .seq q 0) (v % 2 ^ 20) s2))

/-! ## The successor of a play (R110, R112, R113) -/

/-- Entry i of a segment table (R106, R108). -/
def segEntry (s : State) (q i : Nat) : Nat := laneBits s q i 0 9

/-- A segment-mode sequencer that plays. -/
def segLive (s : State) (q : Nat) : Bool :=
  seqLive s q && segMode s q && (getSeq s q).st == .run && (getSeq s q).endAt.isNone

/-- The boundary B that ends the current play (R112). -/
def segBound (s : State) (q : Nat) : BitVec 48 :=
  let x := getSeq s q
  x.playAt + BitVec.ofNat 48 (nbits (segEntry s q x.entry) 15 0)

/-- An entry's first play starts, in its tick t (R110, R112, R97). At an unused entry the part ends instead; SEG_STAT and
SEQ_STAT then show that entry's number, which the spec leaves open (log 90). -/
def startEntry (q e : Nat) (t : BitVec 48) (s : State) : State :=
  match badLane s q e with
  | some k => machineCheck q e k s
  | none =>
    let x := getSeq s q
    let w := segEntry s q e
    if w = 0 then endPart q t (raiseEvt .seq q 10 (setSeq s q { x with entry := e, pc := e }))
    else setSeq s q { x with
      entry := e, pc := e, plays := nbits w 27 16, playAt := t, w := t, played := false, st := .run }

/-- The choice of a successor (R113), from the requests accepted so far. A request taken is no longer pending. -/
def fixSuccessor (q : Nat) (s : State) : State :=
  let x : Seq := { getSeq s q with fixing := false }
  let w := segEntry s q x.entry
  let b := segBound s q
  match (if nbit w 40 then x.req else none) with
  | some .stop => setSeq s q { x with req := none, endAt := some b }
  | some (.jump e) => setSeq s q { x with req := none, succAt := some (b, .jump e) }
  | none =>
    if nbits w 27 16 = 0 ∨ 1 < x.plays then setSeq s q { x with succAt := some (b, .again) }
    else if nbit w 41 then setSeq s q { x with endAt := some b }
    else setSeq s q { x with succAt := some (b, .next (nbits w 39 28)) }

/-- A successor that is being fixed is fixed once tick D = B - 4 is past: a request of that tick still counts (R113). -/
def settleSuccessor (q : Nat) (s : State) : State :=
  if (getSeq s q).fixing && segLive s q && decide (0 < ticksTo (segBound s q - 4) s.clk.tc) then fixSuccessor q s else s

/-- The fixed successor starts at its boundary (R113). -/
def startSuccessor (q : Nat) (s : State) : State :=
  let x := getSeq s q
  match x.succAt with
  | some (b, n) =>
    if 0 ≤ ticksTo b s.clk.tc ∧ segLive s q then
      let s1 := setSeq s q { x with succAt := none }
      match n with
      | .again => setSeq s q { x with succAt := none, plays := x.plays - 1, playAt := b, w := b, played := false }
      | .next e => atTick b (startEntry q e b) s1
      | .jump e => atTick b (fun t => startEntry q e b (bump t .seq q 0x094 31 16 1)) s1
    else s
  | none => s

/-- The part ends at its fixed boundary: the sequencer plays on until then (R87, R113). -/
def endFixed (q : Nat) (s : State) : State :=
  match (getSeq s q).endAt with
  | some b => if 0 ≤ ticksTo b s.clk.tc then atTick b (endPart q b) s else s
  | none => s

/-- What a sequencer does by itself as time goes on: what waited for a tick, a latched activation taken, the successor of a
play, the end of a segment table, a stack fault of a path that has resolved. -/
def seqTick (q : Nat) (s : State) : State :=
  let s1 := laterCatch s
  let x := getSeq s1 q
  if x.halt && (openBefore x).isEmpty && decide (0 ≤ ticksTo x.w s1.clk.tc) then atTick x.w (stackFaultNow q) s1
  else takeLatch q (endFixed q (startSuccessor q (settleSuccessor q s1)))

/-- One part of the current word acts, once, in its word tick (log 3). -/
def part (q code : Nat) (cond : Uword → Bool) (f : Seq → Uword → State → State) (s0 : State) : State :=
  let s := seqTick q s0
  let x := getSeq s q
  let u := uword s q x.pc
  if seqLive s q && !segMode s q && !x.did.contains code && !x.did.contains 999 && cond u then
    f x u (setSeq (passWord x x.w s) q { x with did := code :: x.did })
  else s

/-- A word is fetched and becomes the current word with word tick t, if its parity holds (R97). -/
def fetchWord (q w : Nat) (t : BitVec 48) (s : State) : State :=
  match badLane s q w with
  | some k => machineCheck q w k s
  | none =>
    let x := getSeq s q
    let u := uword s q w
    takeLatch q (setSeq s q { x with
      pc := w, w := t, succ := none, did := [], br := false, met := none, preSwp := [],
      st := if 3 ≤ u.wait then .wait else .run,
      marks := if x.ahead.isEmpty then x.marks.filter (fun m => decide (0 ≤ ticksTo t m.2)) else x.marks })

/-! ## Waits (R76 to R79) -/

/-- The first tick at or after t with TC[15:0] = 0. -/
def nextSync (t : BitVec 48) : BitVec 48 := t + (0 - (t.setWidth 16)).setWidth 48

/-- The opening tick of a sequencer's shot. -/
def seqT0 (s : State) (q : Nat) : BitVec 48 :=
  match seqGroup s q with
  | some g => (getGroup s g).t0
  | none => 0

/-- The next word's tick (R76), where it is known. -/
def nextWordTick (s : State) (q : Nat) (x : Seq) (u : Uword) : Option (BitVec 48) :=
  let c := BitVec.ofNat 48 u.cnt
  match u.wait with
  | 0 => some (x.w + 1 + c)
  | 1 => some (laterTick (x.w + 1) (seqT0 s q + c))
  | 2 => some (nextSync (x.w + 1) + c)
  | _ => match x.met with
    | some d => some (laterTick (x.w + 1) (d + 4) + c)
    | none => none

/-- An ABS wait whose tick is past (R76). -/
def waitPast (s : State) (q : Nat) (x : Seq) (u : Uword) : Bool :=
  decide (u.wait = 1) && decide (ticksTo (x.w + 1) (seqT0 s q + BitVec.ofNat 48 u.cnt) < 0)

/-- Move on to the chosen successor in the next word's tick. On a predicted path an END waits for the branch. -/
def moveOn (q : Nat) (s0 : State) : State :=
  let s := seqTick q s0
  let x := getSeq s q
  let u := uword s q x.pc
  match x.succ, nextWordTick s q x u with
  | some sc, some t =>
    let s1 := passNext x t s
    let s2 := if waitPast s q x u then doOrKeep q .waitPast s1 else s1
    match sc with
    | .word a => fetchWord q a t s2
    | .fin => if x.ahead.isEmpty then endPart q t s2 else s
  | _, _ => s

/-! ## Successors (R73, R88 to R91) -/

/-- W + 1 (R73): the word after the last one is no word of the store, and the spec does not say where it goes (log 88). -/
def nextOf (w : Nat) : Nat := if w < 8191 then w + 1 else Config.afterLast % 8192

/-- The start of a frame pushed by a BR word, until its branch is decided. -/
def brStart : Nat := 8192

/-- The successor that NEXT selects, where a PUSH needs it (R88): for a BR word it is not known yet. -/
def pushStart (x : Seq) (u : Uword) : Nat :=
  match u.next with
  | 1 => u.target
  | 3 => u.target
  | 2 => (match x.succ with
    | some (.word a) => a
    | _ => brStart)
  | 4 => x.calls.headD (nextOf x.pc)
  | 5 => (match x.loops with
    | l :: _ => if 1 < l.count then l.start else nextOf x.pc
    | [] => nextOf x.pc)
  | _ => nextOf x.pc

/-- LOOP_OP PUSH: the frame's start is the successor that NEXT selects, its count LIMM or LCOUNTn (R88). -/
def loopPush (q : Nat) (s : State) : State :=
  part q 300 (fun u => u.loopOp = 1) (fun x u t =>
    let n := if u.lsrc = 0 then u.limm else rd t .seq q (0x060 + 4 * (u.lsrc - 1)) 23 0
    if 8 ≤ x.loops.length then stackFault q t
    else
      let y := getSeq t q
      let t1 := setSeq t q { y with loops := { start := pushStart y u, count := n } :: y.loops }
      if n = 0 then doOrKeep q .loopZero t1 else t1) s

/-- LOOP_OP BREAK: the innermost frame is popped, then NEXT applies as coded (R88). -/
def loopBreak (q : Nat) (s : State) : State :=
  part q 301 (fun u => u.loopOp = 2) (fun x _ t =>
    match x.loops with
    | [] => stackFault q t
    | _ :: ls => setSeq t q { getSeq t q with loops := ls }) s

/-- Choose the current word's successor once, for a word whose NEXT is the given code; its LOOP_OP comes first (R88). -/
def nextWord (q code : Nat) (f : Seq → Uword → State → State) (s : State) : State :=
  part q (200 + code) (fun u => u.next = code)
    (fun _ u t => if (getSeq t q).succ = none && !(getSeq t q).halt && (getSeq t q).st != .stopped then f (getSeq t q) u t else t)
    (if (uword s q (getSeq s q).pc).next = code then loopBreak q (loopPush q s) else s)

def setSucc (q : Nat) (sc : Succ) (s : State) : State := setSeq s q { getSeq s q with succ := some sc }

/-- NEXT SEQ. -/
def wordSeq (q : Nat) (s : State) : State :=
  nextWord q 0 (fun x _ t => setSucc q (.word (nextOf x.pc)) t) s

/-- NEXT JUMP. -/
def wordJump (q : Nat) (s : State) : State :=
  nextWord q 1 (fun _ u t => setSucc q (.word u.target) t) s

/-- NEXT CALL: W + 1 is pushed (R89). -/
def wordCall (q : Nat) (s : State) : State :=
  nextWord q 3 (fun x u t =>
    if 8 ≤ x.calls.length then stackFault q t
    else setSucc q (.word u.target) (setSeq t q { x with calls := nextOf x.pc :: x.calls })) s

/-- NEXT RET: the call stack is popped (R89). -/
def wordRet (q : Nat) (s : State) : State :=
  nextWord q 4 (fun x _ t =>
    match x.calls with
    | [] => stackFault q t
    | a :: as => setSucc q (.word a) (setSeq t q { x with calls := as })) s

/-- NEXT LOOP: back to the frame's start while its counter exceeds 1, else the frame is popped (R88). -/
def wordLoop (q : Nat) (s : State) : State :=
  nextWord q 5 (fun x _ t =>
    match x.loops with
    | [] => stackFault q t
    | l :: ls =>
      if 1 < l.count then
        setSucc q (.word l.start) (setSeq t q { x with loops := { l with count := l.count - 1 } :: ls })
      else setSucc q (.word (nextOf x.pc)) (setSeq t q { x with loops := ls })) s

/-- NEXT END (R87). -/
def wordEnd (q : Nat) (s : State) : State :=
  nextWord q 6 (fun _ _ t => setSucc q .fin t) s

/-! ## Sweep registers (R74, R85, R96) -/

/-- The sweep values of a sequencer's outputs (R96, R122, R147). -/
def sweepsOf (s : State) (q : Nat) : List (Nat × Int × Nat) :=
  if q < 80 then
    (List.range (if q < 64 then 8 else 32)).map (fun t => (t, (getTone s q t).asw, (getTone s q t).psw))
  else if q < 112 then
    (List.range 8).map (fun k => (k, (getFlux s (8 * (q - 80) + k)).asw, 0))
  else []

def putSweep (q : Nat) (s : State) (e : Nat × Int × Nat) : State :=
  if q < 80 then setTone s q e.1 { getTone s q e.1 with asw := e.2.1, psw := e.2.2 }
  else setFlux s (8 * (q - 80) + e.1) { getFlux s (8 * (q - 80) + e.1) with asw := e.2.1 }

/-- SWR: the sweep registers take their start values before every action of the word (R74, R85, R122, R147). -/
def sweepReload (q : Nat) (s : State) : State :=
  part q 302 (fun u => u.swr) (fun _ _ t => (sweepsOf t q).foldl (fun r e =>
    let st : Int × Nat :=
      if q < 64 then (sx 16 (toneReg r q e.1 0x1C % 65536), toneReg r q e.1 0x14)
      else if q < 80 then (0, toneReg r q e.1 0x14)
      else (sx 16 (flxRd r (8 * (q - 80) + e.1) 0x30 15 0), 0)
    putSweep q r (e.1, st.1, st.2)) t) s

/-- SWP: the sweep registers step after the word's actions, the amplitude saturating, the phase modulo 2^32 (R74, R85,
R122, R147). -/
def sweepStep (q : Nat) (s : State) : State :=
  part q 303 (fun u => u.swp) (fun _ _ t =>
    let old := sweepsOf t q
    old.foldl (fun r e =>
      let da : Int :=
        if q < 64 then sx 16 (toneReg r q e.1 0x1C / 65536)
        else if q < 80 then 0
        else sx 16 (flxRd r (8 * (q - 80) + e.1) 0x30 31 16)
      let dp := if q < 80 then toneReg r q e.1 0x18 else 0
      let a := e.2.1 + da
      let r1 := putSweep q r (e.1, satS 16 a, (e.2.2 + dp) % 2 ^ 32)
      if satS 16 a = a then r1
      else doOrKeep q (.sat (if q < 80 then q else 80 + 8 * (q - 80) + e.1)) r1)
      (setSeq t q { getSeq t q with preSwp := old })) (sweepReload q s)

/-! ## Branches (R92 to R96) -/

/-- The path a decided BR word takes; a frame it pushed starts there (R88, R92). -/
def takeBranch (q pc : Nat) (toTarget : Bool) (u : Uword) (s : State) : State :=
  let a := if toTarget then u.target else nextOf pc
  let x := getSeq s q
  setSeq s q { x with
    succ := some (.word a), br := false
    loops := x.loops.map (fun l => if l.start = brStart then { l with start := a } else l) }

/-- NEXT BR: the word waits for its branch, or, where its resolution still lies ahead, runs on along the predicted path,
with at most 2 branches open (R94). The word's own SWR and SWP act before the path begins (R96). -/
def wordBr (q : Nat) (s0 : State) : State :=
  let s := seqTick q s0
  let x := getSeq s q
  let u := uword s q x.pc
  if seqLive s q && !segMode s q && decide (u.next = 2) && decide (x.succ = none) && !x.did.contains 999
      && decide (x.st ≠ .stopped) && !x.halt then
    let s1 := sweepStep q (loopBreak q (loopPush q (passWord x x.w s)))
    let x := getSeq s1 q
    if x.halt || x.st == .stopped then s1
    else match nextWordTick s1 q x u with
    | some t =>
      if rdBit s1 .seq q 0x040 8 && decide (u.pred ≠ 0) && decide (x.ahead.length < 2) && decide (0 < ticksTo s1.clk.tc (t - 4))
      then
        let a : Ahead := {
          id := x.nextId, word := x.pc, w := x.w, s := t, predTarget := decide (u.pred = 2),
          loops := x.loops, calls := x.calls, sweeps := sweepsOf s1 q, met := x.met }
        let s2 := takeBranch q x.pc (decide (u.pred = 2)) u s1
        let y := getSeq s2 q
        setSeq s2 q { y with ahead := y.ahead ++ [a], nextId := x.nextId + 1 }
      else setSeq s1 q { x with br := true }
    | none => setSeq s1 q { x with br := true }
  else s

/-- How a channel's state at tick d decides a BR (R92, R93, R198): whether it goes to TARGET, and what the default
costs. -/
def decideBr (q : Nat) (u : Uword) (d : BitVec 48) (s0 : State) : Bool × State :=
  let s := bcastCatch u.dch d s0
  match bcastAt s u.dch d with
  | .resolved v => (v == u.pol, s)
  | .void => (u.defT, bump s .seq q 0x080 15 0 1)
  | .unresolved => (u.defT, tagSeq q tagLate (raiseEvt .seq q 0 (bump s .seq q 0x080 15 0 1)))
  | .lost => (u.defT, tagSeq q (tagLate ||| tagCorrupt) (raiseEvt .seq q 0 (bump s .seq q 0x080 15 0 1)))

/-- What the path kept to itself is done, each in its word tick (R94). -/
def applyKept (q : Nat) (ps : List (BitVec 48 × Prov)) (s : State) : State :=
  ps.foldl (fun t p => doAt p.1 q p.2 t) s

/-- The resolution of a branch with commit tick S is on its way: at the converter groups when its first samples reach the
gates, 14 ticks before the lands (R95, R482), and for the arms of a read-out sequencer at the Ladle in S, a crossing of 4
ticks after it was taken (R204, log 89). -/
def sendResolution (q : Nat) (a : Ahead) (ok : Bool) (s : State) : State :=
  let y := getSeq s q
  let s1 := if q < 112 then setSeq s q { y with gates := y.gates ++ [(depOf q a.id, ok, a.s + 22)] } else s
  if 64 ≤ q ∧ q < 80 then addJob a.s (.resolve (depOf q a.id) ok) s1 else s1

/-- A branch resolves away from the predicted path: the sequencer stands at the branch again (R96). -/
def cancelPath (q : Nat) (a : Ahead) (toT : Bool) (u : Uword) (s : State) : State :=
  let y := getSeq s q
  let s1 := setSeq s q { y with
    pc := a.word, w := a.w, succ := none, did := [999], br := false, met := a.met, halt := false, preSwp := [],
    loops := a.loops, calls := a.calls, ahead := [], st := if y.st == .mchk then .mchk else .run }
  let s2 := a.sweeps.foldl (putSweep q) s1
  takeBranch q a.word toT u (bump s2 .seq q 0x080 31 16 1)

/-- Does a branch of this sequencer wait for its resolution? A machine check stops the words, not the branches open. -/
def branchOpen (s : State) (q : Nat) : Bool :=
  let x := getSeq s q
  seqLive s q || (x.st == .mchk && !x.ahead.isEmpty && x.inShot && seqShotRuns s q && enabled s .seq q)

/-- BRANCH_RESOLVE: at S - 4 the sequencer's oldest open branch takes its channel's value (R92, R93, R96). -/
def branchResolve (q : Nat) (s0 : State) : State :=
  let s := seqTick q s0
  let x := getSeq s q
  if !branchOpen s q || segMode s q then s
  else
    match x.ahead with
    | a :: rest =>
      let u := uword s q a.word
      let (toT, s1) := decideBr q u (a.s - 4) (passTo (a.s - 4) s)
      let ok := toT == a.predTarget
      let s2 := sendResolution q a ok s1
      if ok then
        let s3 := applyKept q a.kept (setSeq s2 q { getSeq s2 q with ahead := rest })
        let s4 := seqTick q s3
        if (getSeq s4 q).br then wordBr q (setSeq s4 q { getSeq s4 q with br := false }) else s4
      else cancelPath q a toT u (rest.foldl (fun t b => sendResolution q b false t) s2)
    | [] =>
      if x.br then
        let u := uword s q x.pc
        match nextWordTick s q x u with
        | some t =>
          let (toT, s1) := decideBr q u (t - 4) (passTo (t - 4) s)
          takeBranch q x.pc toT u s1
        | none => s
      else s

/-- A result word whose path is cancelled after it was sent: VOID with cause WITHDRAWN, counted and tagged as every VOID
word of the group (R10, R181). -/
def voidSent (i : Item) (s : State) : State :=
  match i.load with
  | .result r =>
    let n := dmIn r.demod
    let s1 := bump s .rdi n 0x050 15 0 1
    let s2 := wr (wr s1 .rdi n (dmOff r.demod 0x38) 11 9 3) .rdi n (dmOff r.demod 0x38) 8 8 1
    match i.group with
    | some g => tagShot g tagVoid s2
    | none => s2
  | _ => s

/-- A branch's resolution reaches an item on its way (R95, R96, R204). -/
def resolveItem (dep : Nat) (ok : Bool) (i : Item) : Option Item :=
  if !i.deps.contains dep then some i
  else if ok then some { i with deps := i.deps.filter (· ≠ dep) }
  else match i.load with
    | .result r => some { i with deps := i.deps.filter (· ≠ dep), load := .result { r with void := true, cause := 3 } }
    | _ => none

/-- COMMIT_GATE_RESOLUTION: the sequencer's oldest undelivered resolution reaches the converter groups in its due tick
(R95, R96, R153, R181); the Ladle has had it by then (R204). -/
def commitGate (q : Nat) (s0 : State) : State :=
  let x := getSeq s0 q
  match x.gates with
  | [] => s0
  | (dep, ok, due) :: rest =>
    let s := passTo due s0
    let s1 := setSeq s q { getSeq s q with gates := rest }
    let sent := s1.items.filter (fun i => i.deps.contains dep)
    let s2 := if ok then s1 else sent.foldl (fun t i => voidSent i t) s1
    let s3 := { s2 with items := s2.items.filterMap (resolveItem dep ok) }
    let s4 :=
      if q < 64 then outResolve q dep ok s3
      else if q < 80 then
        (List.range 32).foldl (fun t i => dmResolve dep ok t (32 * (q - 64) + i)) (outResolve q dep ok s3)
      else if q < 112 then (List.range 8).foldl (fun t k => fluxResolve (8 * (q - 80) + k) dep ok t) s3
      else s3
    if 64 ≤ q ∧ q < 80 then ladleResolve dep ok s4.clk.tc (ladleCatch s4) else s4

/-! ## The ends of waits (R76 to R79) -/

/-- The wait of the current word, while the sequencer is live in microcode. -/
def waiting (s : State) (q : Nat) : Option Uword :=
  let x := getSeq s q
  if seqLive s q && !segMode s q && (x.st != .stopped) && !x.halt then some (uword s q x.pc) else none

/-- WAIT_EXPIRY: the word's wait ends in its tick and the successor follows (R76). -/
def waitExpiry (q : Nat) (s : State) : State :=
  match waiting s q with
  | none => s
  | some _ => moveOn q s

/-- The branches before the current word resolve: their ticks S - 4 come no later than W - 4, and so before any wait of the
word ends (R92, R94). At most 2 are open. -/
def resolveBefore (q : Nat) (s : State) : State :=
  let one (t : State) : State := if (openBefore (getSeq t q)).isEmpty then t else branchResolve q t
  one (one s)

/-- The tick W + WAIT_LIMIT of the current word's wait, where it has a limit (R78). -/
def limitTick (s : State) (q : Nat) (x : Seq) : Option (BitVec 48) :=
  let lim := rd s .seq q 0x07C 23 0
  if lim = 0 then none else some (x.w + BitVec.ofNat 48 lim)

/-- The current word's wait has met its item, due at tick d. A BR word now runs ahead where it may (R76, R94). -/
def waitMet (q : Nat) (d : BitVec 48) (s : State) : State :=
  let s1 := setSeq s q { getSeq s q with met := some d, st := .run }
  moveOn q (if (getSeq s1 q).br then wordBr q (setSeq s1 q { getSeq s1 q with br := false }) else s1)

/-- A data-dependent wait ends by its limit, as though its item had been due 4 ticks before (R78). -/
def timedOut (q : Nat) (t : BitVec 48) (s : State) : State :=
  waitMet q (t - 4) (tagSeq q tagLate (raiseEvt .seq q 2 (passTo t s)))

/-- A data-dependent wait has met its item, due at tick d, which ends it in d + 4 or by its limit before that (R76, R78). -/
def metWait (q : Nat) (d : BitVec 48) (s : State) : State :=
  match limitTick s q (getSeq s q) with
  | some t => if 0 < ticksTo t (d + 4) then timedOut q t s else waitMet q d s
  | none => waitMet q d s

/-- The due tick of the item that the current word's data-dependent wait has met: a DECISION's is the first tick at or after
W - 4 in which its channel is resolved at the group (R76, R198), an EVENT's is that of the activation it consumed (R77), a
MARK's that of the first mark of its index due at or after W (R76). -/
def waitItem (s : State) (q : Nat) (x : Seq) (u : Uword) : Option (BitVec 48) :=
  match u.wait with
  | 3 => resolvedFrom (getDch s u.dch).bc (getDch s u.dch).hist (x.w - 4)
  | 4 => x.met
  | 5 => (x.marks.find? (fun m => decide (m.1 = u.dch % 16) && decide (0 ≤ ticksTo x.w m.2))).map (·.2)
  | _ => none

/-- The sequencer still stands in the word it stood in. -/
def standsAt (x y : Seq) : Bool := decide (x.pc = y.pc ∧ x.w = y.w ∧ x.did = y.did)

/-- A data-dependent wait of the given code, with the tick before which it cannot have ended: time passes to it, the branches
before the word resolve, and, if the sequencer then still waits there, f says what follows (R76 to R79). -/
def atWait (q : Nat) (ok : Seq → Uword → Bool) (first : Seq → BitVec 48) (f : Seq → Uword → State → State) (s0 : State) : State :=
  let s := seqTick q s0
  match waiting s q with
  | none => s
  | some u =>
    let x := getSeq s q
    if ok x u then
      let s1 := seqTick q (resolveBefore q (passTo (first x) s))
      let y := getSeq s1 q
      if (waiting s1 q).isSome && standsAt x y then
        f y u (if u.wait = 3 then bcastCatch u.dch (laterTick (x.w - 4) s1.clk.tc) s1 else s1)
      else s1
    else s

/-- The wait has met an item: it ends by it. -/
def endWait (q : Nat) (x : Seq) (u : Uword) (s : State) : State :=
  match waitItem s q x u with
  | some d => metWait q d s
  | none => s

/-- DECISION_WAIT_END: the first tick at or after W - 4 in which the channel is resolved at the group (R76, R198). Words
beyond the wait are not known before that tick (R79). -/
def decisionWaitEnd (q : Nat) (s : State) : State :=
  atWait q (fun x u => decide (u.wait = 3 ∧ x.met = none)) (fun x => x.w - 4) (endWait q) s

/-- EVENT_WAIT_END: the GO activation that the wait consumed, at its beginning or since, ends it (R76, R77). The words
beyond are not known before W (R79). -/
def eventWaitEnd (q : Nat) (s : State) : State :=
  atWait q (fun _ u => decide (u.wait = 4) && !goStarts s q) (fun x => x.w) (endWait q) s

/-- MARK_WAIT_END: the first mark of the index due at or after W (R76). -/
def markWaitEnd (q : Nat) (s : State) : State :=
  atWait q (fun x u => decide (u.wait = 5 ∧ x.met = none)) (fun x => x.w) (endWait q) s

/-- The tick in which it is known that a wait is not ended by its limit; one that has met an item in time has ended before. -/
def timeoutTick (q : Nat) (s : State) (x : Seq) : BitVec 48 :=
  let u := uword s q x.pc
  let v := if u.wait = 3 ∧ 0 ≤ ticksTo (x.w - 4) s.clk.tc then bcastCatch u.dch s.clk.tc s else s
  let t := (limitTick s q x).getD x.w
  match waitItem v q x u with
  | some d => if 0 < ticksTo t (d + 4) then t else laterTick (x.w - 4) d
  | none => t

/-- WAIT_TIMEOUT: a data-dependent wait has not ended by W + WAIT_LIMIT (R78). One that an item due 4 ticks before ends in
time is ended by that item. -/
def waitTimeout (q : Nat) (s : State) : State :=
  atWait q (fun x u => decide (3 ≤ u.wait) && (limitTick s q x).isSome) (timeoutTick q s) (fun x u t =>
    match waitItem t q x u with
    | some d => metWait q d t
    | none => timedOut q ((limitTick s q x).getD x.w) t) s

/-! ## Actions of a word (R80 to R86) -/

/-- Port p's field of a drive or flux word (R72, R80). -/
def portField (u : Uword) (p : Nat) : Nat := nbits u.k (20 * p + 19) (20 * p)

/-- The sweep values that the actions of the current word use: those before its SWP (R85). -/
def swAt (s : State) (q k : Nat) : Int × Nat :=
  match (getSeq s q).preSwp.find? (fun e => decide (e.1 = k)) with
  | some e => e.2
  | none => if q < 80 then ((getTone s q k).asw, (getTone s q k).psw) else ((getFlux s (8 * (q - 80) + k)).asw, 0)

/-- Send an item of the current word, due at its word tick plus n. Its receiver accepts it at once (log 91). -/
def sendWord (q : Nat) (x : Seq) (n : Nat) (load : Payload) (s : State) : State :=
  let due := x.w + BitVec.ofNat 48 n
  acceptPort { stamp := stampOf due, group := seqGroup s q, deps := seqDeps q x, load := load }
    (sendItem due (seqGroup s q) (seqDeps q x) load s)

/-- DRIVE_PULSE: port p starts a pulse (R80, R85). -/
def drivePulse (q p : Nat) (s : State) : State :=
  part q p (fun u => nbits (portField u p) 10 5 ≠ 0) (fun x u t =>
    let f := portField u p
    let y := swAt t q p
    sendWord q x 4 (.port q p (nbits f 4 0) (nbits f 10 5) (nbits f 15 11) 0 (nbit f 19) u.tset x.w y.1 y.2) t)
    (sweepReload q s)

/-- A phase operation of a word on one tone (R80, R82, R121): on a read-out sequencer PPHOP on every masked tone. -/
def phaseOp (q p code : Nat) (s : State) : State :=
  if q < 64 then
    part q (10 + p) (fun u => decide (p < 8) && decide (nbits (portField u p) 18 16 = code)) (fun x u t =>
      let f := portField u p
      sendWord q x 4 (.port q p (nbits f 4 0) 0 0 code false u.tset x.w 0 (swAt t q p).2) t) (sweepReload q s)
  else
    part q (10 + p) (fun u => nbit u.k p && decide (nbits u.k 41 39 = code)) (fun x u t =>
      sendWord q x 4 (.port q p (nbits u.k 36 32) 0 0 code false u.tset x.w 0 (swAt t q p).2) t) (sweepReload q s)

/-- A flux action of port p with the given FOP (R81). -/
def fluxOp (g p code : Nat) (s : State) : State :=
  let q := 80 + g
  part q p (fun u => nbits (portField u p) 18 16 = code) (fun x u t =>
    let f := portField u p
    let o := 8 * g + p
    sendWord q x 4 (.flux o (nbits f 1 0) (nbits f 10 5) (nbits f 15 11) code u.tset x.w (swAt t q p).1) t)
    (sweepReload q s)

/-- EVT_FIRE: the word's lines are active in tick W + 1 (R84, R85). -/
def evtFire (q : Nat) (s : State) : State :=
  part q 304 (fun u => u.fire ≠ 0) (fun x u t =>
    ((List.range (if 112 ≤ q then 4 else 2)).filter (nbit u.fire)).foldl
      (fun r b => doOrKeep q (.fire (fireLineOf q b) (x.w + 1)) r) t) s

/-- MARK_EN: a mark for every member, due at W + 4 (R83, R85). -/
def markEn (m : Nat) (s : State) : State :=
  let q := 112 + m
  part q 305 (fun u => nbit u.k 0) (fun x u t => doOrKeep q (.mark m (nbits u.k 4 1) (x.w + 4)) t) s

/-- CALWIN: a calibration window is asked for at this shot's boundary (R83). -/
def calwin (m : Nat) (s : State) : State :=
  part (112 + m) 306 (fun u => nbit u.k 5) (fun _ _ t => doOrKeep (112 + m) (.calwin m) t) s

/-- TBUS_START: drive START, naming opening tick W + TRIG_LEAD (R83, R376). -/
def tbusStart (m : Nat) (s : State) : State :=
  part (112 + m) 307 (fun u => nbit u.k 6) (fun x _ t =>
    doOrKeep (112 + m) (.tbus m x.w (x.w + BitVec.ofNat 48 (trigLead t m))) t) s

/-- RING_TRIG: send a TRIGGER flit, naming opening tick W + TRIG_LEAD (R83, R338). -/
def ringTrig (m : Nat) (s : State) : State :=
  part (112 + m) 308 (fun u => nbit u.k 7) (fun x u t =>
    doOrKeep (112 + m) (.ring m (nbits u.k 13 8) (x.w + BitVec.ofNat 48 (trigLead t m))) t) s

/-- PROBE_PULSE: every masked probe tone starts its profile's pulse (R82, R138). -/
def probePulse (n : Nat) (s : State) : State :=
  let q := 64 + n
  part q 0 (fun u => nbits u.k 31 0 ≠ 0) (fun x u t =>
    ((List.range 32).filter (nbit u.k)).foldl (fun r k =>
      sendWord q x 4 (.port q k (nbits u.k 36 32) 1 (nbits u.k 38 37) 0 false u.tset x.w 0 (swAt r q k).2) r) t)
    (sweepReload q s)

/-- WINDOW_ARM: every masked demodulator arms its window, and the Ladle gets a copy of each arm (R82, R193). -/
def windowArm (n : Nat) (s : State) : State :=
  let q := 64 + n
  part q 1 (fun u => nbits u.k 73 42 ≠ 0) (fun x u t =>
    ((List.range 32).filter (fun i => nbit u.k (42 + i))).foldl (fun r i =>
      sendWord q x 4 (.armCopy (32 * n + i)) (sendWord q x 4 (.arm (32 * n + i) x.w (nbits u.k 85 74)) r)) t) s

/-- MARK_DUE: a mark reaches its group's members (R76, R83). A late one, of which R20 has no row, acts at once with its own due
tick and raises LATE at the master's page (DESIGN CHOICE, log 118). -/
def markDue (g : Nat) (s : State) : State :=
  let isM (p : Payload) : Bool := match p with
    | .mark h _ => decide (h = g)
    | _ => false
  let act (i : Item) (t : State) : State := match i.load with
    | .mark _ id =>
      let due := dueTick i t
      ((List.range 120).filter (fun q => decide (seqGroup t q = some g))).foldl (fun r q =>
        let x := getSeq r q
        if x.inShot && !segMode r q then setSeq r q { x with marks := x.marks ++ [(id, due)] } else r) t
    | _ => t
  deliver isM act (fun i t => tagItem i tagLate (raiseEvt .seq (112 + g) 0 t)) act s

/-! ## Segment tables (R106 to R115) -/

/-- Amplitude and phase sweep values in segment mode: the start values (R122, R147). -/
def segSweep (s : State) (q tone : Nat) : Int × Nat :=
  if q < 64 then (sx 16 (toneReg s q tone 0x1C % 65536), toneReg s q tone 0x14)
  else (sx 16 (flxRd s (8 * (q - 80) + tone) 0x30 15 0), 0)

/-- The play's pulses, operations and fires, as a word with word tick T (R107, R112). -/
def issuePlay (q : Nat) (s : State) : State :=
  let x := getSeq s q
  let w := segEntry s q x.entry
  let s1 := setSeq (passTo x.playAt s) q { x with played := true }
  let tset := nbits w 44 42
  let one (t : State) (k : Nat) : State :=
    let f := nbits w (48 + 16 * k + 15) (48 + 16 * k)
    let tone := k + 4 * rd t .seq q 0x088 12 12
    let sw := segSweep t q tone
    let env := nbits f 5 0
    let op := nbits f 13 11
    if env = 0 ∧ op = 0 then t
    else if q < 64 then sendWord q x 4 (.port q tone 0 env (nbits f 10 6) op false tset x.playAt sw.1 sw.2) t
    else sendWord q x 4 (.flux (8 * (q - 80) + tone) 0 env (nbits f 10 6) op tset x.playAt sw.1) t
  let s2 := (List.range 4).foldl one s1
  ((List.range 2).filter (fun b => nbit w (45 + b))).foldl
    (fun t b => fireLine (fireLineOf q b) (x.playAt + 1) false t) s2

/-- Time passes to the play that follows, where a successor has been fixed or is being fixed. -/
def toNextPlay (q : Nat) (s0 : State) : State :=
  let s := seqTick q s0
  let s1 := if (getSeq s q).fixing && segLive s q then seqTick q (passTo (segBound s q - 3) s) else s
  match (getSeq s1 q).succAt with
  | some (b, _) => if segLive s1 q then seqTick q (passTo b s1) else s1
  | none => s1

/-- SEGMENT_PLAY: the next play that has not acted yet. -/
def segmentPlay (q : Nat) (s0 : State) : State :=
  let s := if (getSeq (seqTick q s0) q).played then toNextPlay q s0 else seqTick q s0
  if !segLive s q || (getSeq s q).played then s else issuePlay q s

/-- SEGMENT_DECIDE: at D = B - 4 the successor of the play is fixed (R113, R114). A request accepted after D finds the
decision made (see `overdue`); one of tick D itself still counts, before this command or after it. -/
def segmentDecide (q : Nat) (s0 : State) : State :=
  let s := toNextPlay q s0
  if !segLive s q then s
  else
    let s1 := passTo (segBound s q - 4) s
    seqTick q (setSeq s1 q { getSeq s1 q with fixing := true })

/-- The decisions whose D is past, at most n of them, each without the request that is to come (R114); a play that had not
acted acts, late. -/
def decidePast : Nat → Nat → State → State
  | 0, _, s => s
  | n + 1, q, s0 =>
    let s := seqTick q s0
    if segLive s q && (getSeq s q).succAt.isNone && decide (0 < ticksTo (segBound s q - 4) s.clk.tc) then
      decidePast n q (fixSuccessor q (if (getSeq s q).played then s else issuePlay q s))
    else s

/-- A request accepted now comes after the D of every play that is past: those decisions are made first (R114). -/
def overdue (q : Nat) (s : State) : State :=
  decidePast ((ticksTo (getSeq s q).playAt s.clk.tc).toNat + 1) q s

/-- A request is accepted: it replaces a pending one (R115). -/
def segRequest (q : Nat) (r : SegReq) (s0 : State) : State :=
  if !segMode s0 q then s0
  else
    let s := overdue q s0
    let x := getSeq s q
    let s1 := setSeq s q { x with req := some r }
    if x.req.isSome then raiseEvt .seq q 9 (bump s1 .seq q 0x094 15 0 1) else s1

/-- A software request: SEG_JUMP is written (R115). -/
def softRequest (q : Nat) (r : SegReq) (s : State) : State :=
  if !segMode s q then s
  else
    let s1 := segRequest q r s
    setSeq s1 q { getSeq s1 q with swAt := some s.clk.tc }

/-- The sequencer stands where the time now has it, before an activation: a latched one is taken, the branches before a wait
whose W has come are resolved, and a wait past its limit has ended (R77, R78). -/
def upToDate (q : Nat) (s0 : State) : State :=
  let s := seqTick q s0
  let x := getSeq s q
  if (waiting s q).isSome && (x.st == .wait) && decide (0 ≤ ticksTo x.w s.clk.tc) then
    let s1 := seqTick q (resolveBefore q s)
    let past := match limitTick s1 q (getSeq s1 q) with
      | some t => decide (0 ≤ ticksTo t s1.clk.tc)
      | none => false
    if past && (getSeq s1 q).st == .wait then waitTimeout q s1 else s1
  else s

/-- A GO activation due now at a sequencer (R77, R115): beside a software request of the same tick it counts as
replaced, taken at a boundary or not. Starts of a master are its shots' matter. An EVENT wait that waits consumes it. -/
def goActivate (q : Nat) (s0 : State) : State :=
  if !enabled s0 .seq q then s0
  else if segMode s0 q && decide ((getSeq s0 q).swAt = some s0.clk.tc) then
    raiseEvt .seq q 9 (bump s0 .seq q 0x094 15 0 1)
  else if segMode s0 q then segRequest q (.jump (rd s0 .seq q 0x088 27 16)) s0
  else
    let s := upToDate q s0
    let x := getSeq s q
    if eventWaits s q then setSeq s q { x with met := some s.clk.tc }
    else if x.go.isSome then bump s .seq q 0x084 15 0 1
    else wr (setSeq s q { x with go := some s.clk.tc }) .seq q 0x084 16 16 1

/-! ## Opening -/

/-- May a sequencer take part in a shot (R97, R98, R111, R481)? -/
def mayRun (s : State) (q : Nat) : Bool :=
  let x := getSeq s q
  enabled s .seq q && !isResetting s .seq q && x.st != .mchk && x.st != .storeBad && !s.unchecked.contains q

/-- At every opening the GO latch, the pending request and both stacks of each member are cleared, whether it runs or not
(R77, R91, R115). -/
def clearLatches (s : State) (q : Nat) : State :=
  wr (setSeq s q { getSeq s q with go := none, req := none, swAt := none, loops := [], calls := [] }) .seq q 0x084 16 16 0

/-- Tick 0 of a shot at a member (R77, R90, R91, R112, R115). -/
def openSeq (t : BitVec 48) (s : State) (q : Nat) : State :=
  let x := getSeq s q
  let y : Seq := { x with
    inShot := true, st := .run, succ := none, did := [], loops := [], calls := [], br := false, ahead := [],
    met := none, marks := [], halt := false, preSwp := [], fixing := false, succAt := none, endAt := none, w := t }
  let s1 := setSeq s q y
  let s2 := soundSeq q t s1
  if segMode s2 q then startEntry q (rd s2 .seq q 0x088 11 0) t s2
  else fetchWord q (rd s2 .seq q 0x044 12 0) t s2

/-- A member that has reached END, or counts as having reached it (R87, R90, R97). -/
def seqDone (s : State) (q : Nat) : Bool :=
  let x := getSeq s q
  !x.inShot || x.st == .ended || x.st == .stopped || x.st == .mchk || x.st == .storeBad || !enabled s .seq q

end Sys2Proof.Machine
end

