-- ==== Sys2Proof/Machine/Copies.lean ====
section
/-! DEFINITION. The stores and their copies (R55, R69, R71, R480): which store an address lies in, whose it is, the staging
buffers, and the copy of an accepted image. A store is named by its base address. -/

namespace Sys2Proof.Machine

/-! ## The stores (R55) -/

/-- The store that an aperture address lies in; the Mortar graph is apart. -/
def storeAt (a : Nat) : Option Nat :=
  if 0x40000000 ≤ a ∧ a < 0x40000000 + 124 * 0x40000 then some (a - a % 0x40000)
  else if (0x50000000 ≤ a ∧ a < 0x52000000) ∨ (0x54000000 ≤ a ∧ a < 0x54400000) then some (a - a % 0x40000)
  else if 0x55000000 ≤ a ∧ a < 0x57000000 then some (a - a % 0x20000)
  else if 0x58000000 ≤ a ∧ a < 0x58800000 then some (a - a % 0x40000)
  else none

/-- An address in the Mortar graph's bank. -/
def inGraph (a : Nat) : Bool := decide (gBase ≤ a ∧ a < gBase + gLen)

def isControl (b : Nat) : Bool := decide (b < 0x50000000)

/-- The bytes of a store that are staged and committed: the customer region of a control store (R68). -/
def storeLen (b : Nat) : Nat := if isControl b then 0x3C000 else if 0x55000000 ≤ b ∧ b < 0x57000000 then 0x20000 else 0x40000

/-- The page of a store, and its unit in that page (R70, R124, R157, R176). -/
def storePage (b : Nat) : PT × Nat × Nat :=
  if isControl b then (.seq, (b - 0x40000000) / 0x40000, 0)
  else if b < 0x54000000 then (.drv, (b - 0x50000000) / 0x80000, (b - 0x50000000) / 0x40000 % 2)
  else if b < 0x55000000 then (.prb, (b - 0x54000000) / 0x40000, 0)
  else if b < 0x58000000 then (.flx, (b - 0x55000000) / 0x100000, (b - 0x55000000) / 0x20000 % 8)
  else (.rdi, (b - 0x58000000) / 0x80000, (b - 0x58000000) / 0x40000 % 2)

def controlBase (q : Nat) : Nat := 0x40000000 + q * 0x40000

/-- The store of an envelope unit. -/
def envBase : EnvUnit → Nat
  | .drv n h => 0x50000000 + n.val * 0x80000 + h.val * 0x40000
  | .prb n => 0x54000000 + n.val * 0x40000
  | .flx n => 0x55000000 + n.val * 0x20000

def weightBase (n u : Nat) : Nat := 0x58000000 + n * 0x80000 + u * 0x40000

/-- The owning sequencer of a store (R71). -/
def storeOwner (b : Nat) : Nat :=
  match storePage b with
  | (.seq, n, _) => n
  | (.drv, n, _) => n
  | (.flx, n, _) => 80 + n
  | (_, n, _) => 64 + n

/-- Load-status, CRC register of a store. -/
def statOff (b : Nat) : Nat := if isControl b then 0x04C else 0xE00
def crcOff (b : Nat) : Nat := statOff b + 4

/-- Set a store's load status. -/
def setLoadStat (b st : Nat) (s : State) : State :=
  let p := storePage b
  wr s p.1 p.2.1 (statOff b) 31 28 st

/-- The UNIT field of the last commit; a control store has none. -/
def noteUnit (b : Nat) (s : State) : State :=
  let p := storePage b
  if isControl b then s else wr s p.1 p.2.1 0xE00 2 0 p.2.2

/-- LOAD_FAIL and LOAD_DONE of a store's page. -/
def loadFail (b : Nat) (s : State) : State :=
  let p := storePage b
  if isControl b then raiseFault .seq p.2.1 3 s else raiseEvt p.1 p.2.1 6 s
def loadDone (b : Nat) (s : State) : State := raiseEvt (storePage b).1 (storePage b).2.1 7 s

/-! ## Staging buffers (R69) -/

def getStaging (s : State) (p : Nat) : Staging := mapGet (fun _ => {}) s.staging p
def setStaging (p : Nat) (x : Staging) (s : State) : State := { s with staging := mapSet (fun _ => {}) s.staging p x }
def unbind (p : Nat) (s : State) : State := setStaging p {} s

/-! ## Copies (R71, R480) -/

/-- A sequencer's customer region is good again, by a check or by an accepted commit: it may take part in shots (R98,
R111). -/
def storeGood (q : Nat) (s : State) : State :=
  let x := getSeq s q
  let s1 := { s with unchecked := s.unchecked.filter (fun r => decide (r ≠ q)) }
  if x.st == .storeBad then setSeq s1 q { x with st := .idle } else s1

/-- The outputs that play from a store have passed what it held so far (R125, R148). -/
def catchStore (b : Nat) (s : State) : State :=
  match storePage b with
  | (.drv, n, _) => outCatch n s
  | (.prb, n, _) => outCatch (64 + n) s
  | (.flx, n, k) => fluxCatch (8 * n + k) s
  | _ => s

/-- Copy an accepted image into its store. -/
def copyImage (s0 : State) (e : Accepted) : State :=
  let b := e.store
  let p := storePage b
  let s := catchStore b s0
  let s1 := { s with
    stores := mapSplice e.data s.stores b (b + storeLen b)
    accepted := s.accepted.filter (fun x => decide (x ≠ e))
    committed := mapSet (fun _ => none) s.committed b (some e.crc) }
  let s2 := wrAll (setLoadStat b 0 s1) p.1 p.2.1 (crcOff b) e.crc.toNat
  let s3 := if (getStaging s2 e.path).bound = some b then unbind e.path s2 else s2
  loadDone b s3

end Sys2Proof.Machine
end

