-- ==== Sys2Proof/Machine/Pantry.lean ====
section
/-! DEFINITION. The Pantry: address mapping, ports, requests, refresh and retraining (12_memory.md, but for
retirement). -/

namespace Sys2Proof.Machine

def getPort (s : State) (p : Nat) : Port := mapGet (fun _ => {}) s.ports p
def setPort (s : State) (p : Nat) (x : Port) : State := { s with ports := mapSet (fun _ => {}) s.ports p x }

/-! ## Capacity and mapping -/

/-- Live channels: those not retired (R291, R296). -/
def liveChannels (s : State) : Nat := 32 - s.retired.length

/-- Bytes of the present address space: 1 GB for each live channel (R33, R291). -/
def capacity (s : State) : Nat := liveChannels s * 2 ^ 30

/-- The first byte of the reserved area, the top 64 MB of the present space (R32, R33). -/
def reservedFrom (s : State) : Nat := capacity s - 2 ^ 26

/-- The parity of the ones of a number of 15 bits. -/
def maskParity (a m : Nat) : Nat := b2n (oddOnes 15 (a &&& m))

/-- Channel index of an address: A[10:6], each bit XOR the parity of the row under MAP_CHk (R276). -/
def chanBits (s : State) (a : Nat) : Nat :=
  ((List.range 5).map (fun k =>
    ((nbits a (6 + k) (6 + k) + maskParity (nbits a 34 20) (rd s .pantry 0 (0x080 + 4 * k) 14 0)) % 2) * 2 ^ k)).sum

/-- Bank index of an address (R276). -/
def bankBits (s : State) (a : Nat) : Nat :=
  ((List.range 4).map (fun k =>
    ((nbits a (16 + k) (16 + k) + maskParity (nbits a 34 20) (rd s .pantry 0 (0x094 + 4 * k) 14 0)) % 2) * 2 ^ k)).sum

/-- The place of an address: row, bank, block within the page, channel, byte (R276). -/
def placeOf (s : State) (a : Nat) : Nat :=
  nbits a 34 20 * 2 ^ 20 + bankBits s a * 2 ^ 16 + nbits a 15 11 * 2 ^ 11 + chanBits s a * 2 ^ 6 + nbits a 5 0

/-- Element i of the permutation of a list that a code names: each element in turn is chosen among those that are left. -/
def permAt : Nat → Nat → List Nat → Nat
  | code, 0, l => l.getD (code % max 1 l.length) 0
  | code, i + 1, l => permAt (code / max 1 l.length) i (l.eraseIdx (code % max 1 l.length))

/-- Where retirements move a block: its channel and its number there. Each deals the lost channel's blocks out, as many as there are
live channels at a time, one to each of them (R291, log 20). Numbers of different retirements differ. -/
def movedTo : List Nat → List Nat → Nat × Nat → Nat × Nat
  | _, [], b => b
  | live, r :: rs, (c, i) =>
    let l := live.erase r
    let b := if c = r && !l.isEmpty then
        (permAt (Config.pantryDeal r (i / l.length)) (i % l.length) l, i / l.length * 64 + (33 - live.length))
      else (c, i)
    movedTo l rs b

/-- The channel that holds a place's block, given the retired channels in order. -/
def chanOfPlace (retired : List Nat) (p : Nat) : Nat := (movedTo (List.range 32) retired (p / 64 % 32, p / 2048 * 64)).1

/-- The channel that holds an address now: a live one, while there is one (R276, R291). -/
def channelOf (s : State) (a : Nat) : Nat := chanOfPlace s.retired (placeOf s a)

/-- A byte that is not listed: zero in the blocks of a channel lost abruptly (R293), else free (R56, log 7). -/
def unwritten (s : State) (p : Nat) : Byte :=
  if s.pzero.any (fun z => decide (chanOfPlace z.1 p = z.2)) then 0 else Config.pantryFill s.fills p

/-- The byte at a place. -/
def placeByte (s : State) (p : Nat) : Byte := (mapGet (fun _ => none) s.pantry p).getD (unwritten s p)

/-- One byte of the Pantry. -/
def pantryByte (s : State) (a : Nat) : Byte := placeByte s (placeOf s a)

/-- n bytes from an address. -/
def pantryBytes (s : State) (a n : Nat) : List Byte := (List.range n).map (fun i => pantryByte s (a + i))

/-- Write one byte. -/
def pantryPut (s : State) (a : Nat) (v : Byte) : State :=
  { s with pantry := mapSet (fun _ => none) s.pantry (placeOf s a) (some v) }

/-- The contents are undefined from now on (R56). -/
def pantryLost (s : State) : State := { s with pantry := [], fills := s.fills + 1, pzero := [] }

/-- Write bytes from an address upward. -/
def pantryPutBytes (s : State) (a : Nat) (bs : List Byte) : State :=
  bs.zipIdx.foldl (fun t e => pantryPut t (a + e.2) e.1) s

/-- Port 96 may reach n bytes from an address: below the reserved area and the capacity (R46, R279). -/
def mgmtMay (s : State) (a n : Nat) : Bool := decide (a + n ≤ reservedFrom s)

/-! ## Ports and the ledger -/

/-- The direction of a port (R278): 96 both. -/
def portWrites (p : Nat) : Bool := decide (80 ≤ p ∧ p < 88) || decide (p = 96)
def portReads (p : Nat) : Bool := decide (p < 80) || decide (88 ≤ p ∧ p ≤ 96)

/-- The group that uses a port: its output's, or the one of its capture unit. -/
def portGroup (s : State) (p : Nat) : Option Nat :=
  if p < 80 then seqGroup s (outSeq p)
  else if p < 96 then some (rd s .cap ((p - 80) % 8) 0x040 18 16) else none

/-- CAP_STATUS.STATUS of a unit. -/
def capStatus (s : State) (u : Nat) : Nat := rd s .cap u 0x074 3 0

/-- A unit is ARMED, READY or POST. -/
def capBusy (s : State) (u : Nat) : Bool := decide (1 ≤ capStatus s u ∧ capStatus s u ≤ 3)

/-- A port is active (R281). -/
def portActive (s : State) (p : Nat) : Bool :=
  if p < 80 then (List.range 8).any (fun n => strmBusy s p n)
  else if p < 88 then capBusy s (p - 80)
  else if p < 96 then rdBit s .cap (p - 88) 0x300 31 else false

/-- Admitted bandwidth in 100 MB/s (LEDGER_USED). -/
def ledgerUsed (s : State) : Nat := ((List.range 96).map (fun p => if (getPort s p).admitted then (getPort s p).bw else 0)).sum

/-- LEDGER_CAP.CAP: 240 for each live channel (R280, R296). -/
def ledgerCap (s : State) : Nat := 240 * liveChannels s

/-- A port that is admitted reaches n bytes from an address: they lie in its region (R278). -/
def portReaches (s : State) (p a n : Nat) : Bool :=
  let x := getPort s p
  x.admitted && decide (x.base ≤ a ∧ a + n ≤ x.base + x.size)

/-- A port serves: admitted, or released by step 1 of R292 until its shot boundary. -/
def portServes (s : State) (p : Nat) : Bool := (getPort s p).admitted || s.wfreed.contains p

/-- Two regions share a byte. -/
def regionsMeet (x y : Port) : Bool := decide (x.base < y.base + y.size ∧ y.base < x.base + x.size)

/-- Region p may share with region q: the egress and the capture port of one unit (R280). -/
def mayShare (p q : Nat) : Bool := decide (80 ≤ p ∧ p < 96 ∧ 80 ≤ q ∧ q < 96 ∧ p % 8 = q % 8)

/-- The RESULT of an ADMIT (R280): 0 OK. -/
def admitResult (s : State) (p : Nat) : Nat :=
  let x := getPort s p
  if x.admitted then 1
  else if x.base = 0 ∨ x.size = 0 ∨ reservedFrom s < x.base + x.size then 2
  else if (List.range 96).any (fun q => decide (q ≠ p) && (getPort s q).admitted && regionsMeet x (getPort s q) && !mayShare p q)
    then 3
  else if x.lat < 384 then 4
  else if x.bw = 0 ∨ ledgerCap s < ledgerUsed s + x.bw then 5
  else 0

/-- ADMIT: PORT_CMD.ADMIT on the selected port. -/
def admitPort (s : State) : State :=
  let p := rd s .pantry 0 0x048 6 0
  if 96 ≤ p then s
  else
    let r := admitResult s p
    if r = 0 then setPort s p { getPort s p with admitted := true, result := 0 }
    else raiseEvt .pantry 0 0 (setPort s p { getPort s p with result := r })

/-- PORT_RELEASE (R281): a port that is not admitted keeps its state. A withdrawal that waits for it is off. -/
def releasePort (s : State) : State :=
  let p := rd s .pantry 0 0x048 6 0
  if 96 ≤ p || !(getPort s p).admitted then s
  else if portActive s p then setPort s p { getPort s p with result := 6 }
  else setPort { s with wdrawn := s.wdrawn.filter (fun q => decide (q ≠ p)) } p
    { getPort s p with admitted := false, result := 0 }

/-- The 4 bytes of a sample as its refill read returned them: the block as it stood at acceptance (R286); none when it read
as uncorrectable (R290), or lies outside the port's region (R278). -/
def refillBytes (s : State) (out a : Nat) : Option (List Byte) :=
  let x := getPort s out
  if a < x.base ∨ x.base + x.size < a + 4 then none
  else match s.refilled.find? (fun e => decide (e.1 = out ∧ e.2.1 = a / 64)) with
  | some (_, _, r) => r.map (fun bs => (bs.drop (a % 64)).take 4)
  | none =>
    match s.preqs.find? (fun q => decide (q.port = out ∧ q.addr / 64 = a / 64 ∧ q.addr ≤ a)) with
    | some q => some ((q.data.drop (a - q.addr)).take 4)
    | none => some (pantryBytes s a 4)

/-- A sample of a streamed envelope arrives: from the Pantry into its place in the window (R135). -/
def refillSample (out n : Nat) (s : State) (i : Nat) : State :=
  let a := envAddr out ((getStream s out n).base + i % strmWindow s out n)
  match refillBytes s out (strmAddr s out n + 4 * i) with
  | none => s
  | some bs => { s with stores := putBytes s.stores a bs }

/-- The samples of a stream that were due since the last count and were not there are counted as starved, and tag the shots in
which they were due (R20, R136). -/
def countStarved (out n : Nat) (s : State) : State :=
  let x := getStream s out n
  let due := strmEntered s x
  let bad (i : Nat) : Bool := decide (x.got ≤ i) || x.gaps.any (fun g => decide (g.1 ≤ i ∧ i < g.2))
  let bads := (List.range' x.counted (due - x.counted)).filter bad
  let k := bads.length
  let s1 := setStream s out n { x with counted := max x.counted due }
  if k = 0 then s1
  else
    let s2 := outEvt out 1 (outBump s1 out 0x050 23 0 k)
    match outGroup s out with
    | some g => ((bads.map (strmDue x)).dedup).foldl (fun t d => tagDue g d tagCorrupt t) s2
    | none => s2

/-- REFILL_UNDERRUN: samples were not there when they were due (R136): zeros play, the schedule goes on. -/
def refillUnderrun (out n : Nat) (s : State) : State := if strmBusy s out n then countStarved out n s else s

/-- REFILL_DATA: the next k samples of a stream arrive, as far as the window has room for them: a place is filled again once
the pulse has consumed it (R135). Samples that come after their due tick are not played (R136). An output streams only while
its own port is admitted, or released until its shot boundary (R137, R292). -/
def refillData (out n k : Nat) (s0 : State) : State :=
  if !strmBusy s0 out n || !portServes s0 out then s0
  else
    let s := countStarved out n s0
    let x := getStream s out n
    let w := strmWindow s out n
    let due := strmEntered s x
    let top := min (x.got + k) (min x.len (due + w))
    let is := List.range' x.got (top - x.got)
    let old := (is.filter (fun i => decide (w ≤ i))).map (fun i => (i - w, envSample s out (x.base + i % w)))
    let late := if x.got < due then [(x.got, min due top)] else []
    let lost := (is.filter (fun i => (refillBytes s out (strmAddr s out n + 4 * i)).isNone)).map (fun i => (i, i + 1))
    let last := (strmAddr s out n + 4 * max x.got top) / 64
    let s1 := is.foldl (refillSample out n) s
    let s2 := { s1 with refilled := s1.refilled.filter (fun e =>
      decide (e.1 ≠ out ∨ last ≤ e.2.1 ∨ e.2.1 < strmAddr s out n / 64)) }
    setStream s2 out n { x with
      got := max x.got top, gaps := x.gaps ++ late ++ lost
      old := x.old ++ old }

/-- Some port is admitted (R277). -/
def anyAdmitted (s : State) : Bool := (List.range 96).any (fun p => (getPort s p).admitted)

/-- MAP_WRITE: MAP_CHk for k < 5, MAP_BK(k - 5) above (R277); RWL fields do nothing while the page is locked (R5). -/
def mapMaskWrite (k : Nat) (v : Word) (s : State) : State :=
  if rdBit s .pantry 0 0x008 2 then s
  else if anyAdmitted s then raiseEvt .pantry 0 1 s
  else wr s .pantry 0 (0x080 + 4 * k) 14 0 v.toNat

/-! ## Requests -/

/-- A block after the writes of a tick, in port order, from what it held before (R285). -/
def blockAfter (before : List Byte) (ws : List PReq) : List Byte :=
  let order := [80, 81, 82, 83, 84, 85, 86, 87, 96].flatMap (fun p => ws.filter (fun q => decide (q.port = p)))
  order.foldl (fun b q => b.take (q.addr % 64) ++ q.put ++ b.drop (q.addr % 64 + q.put.length)) before

/-- Request q is ordered before request r of the same tick: by port, then as they came (R285). -/
def acceptedBefore (q r : PReq) : Bool := decide (q.port < r.port) || decide (q.port = r.port ∧ q.id < r.id)

/-- What a read of a tick returns, with the requests for its block in that tick (R285). -/
def readData (all : List PReq) (r : PReq) (n : Nat) : List Byte :=
  ((blockAfter r.before (all.filter (fun q => acceptedBefore q r))).drop (r.addr % 64)).take n

/-- A request enters its channel (R282, R285). Its effect takes place in the order of acceptance, and among the requests
that one tick accepts for a block in port order: a write acts now, a read takes its block as it stands now. -/
def acceptRequest (port a n : Nat) (write : Option (List Byte)) (w : PWait) (s : State) : State :=
  let lat := if port < 96 then (getPort s port).lat else 0
  let here (q : PReq) : Bool := decide (q.acc = s.clk.tc ∧ q.addr / 64 = a / 64) && clockRuns s
  let same := s.preqs.filter here
  let q : PReq := {
    id := s.preqNo, port := port, ch := channelOf s a, addr := a, deadline := s.clk.tc + BitVec.ofNat 48 lat, wait := w
    acc := s.clk.tc, put := write.getD []
    before := match same with
      | [] => pantryBytes s (a / 64 * 64) 64
      | r :: _ => r.before }
  let all := same ++ [q]
  let fresh (r : PReq) : PReq := if here r && !r.data.isEmpty then { r with data := readData all r r.data.length } else r
  let q1 := if write.isSome then q else { q with data := readData all q n }
  let s1 := { s with preqs := s.preqs.map fresh ++ [q1], preqNo := s.preqNo + 1 }
  if write.isSome then pantryPutBytes s1 a (((blockAfter q.before all).drop (a % 64)).take q.put.length) else s1

/-- What a window write of this tick puts is changed (R35), and with it what the tick's requests for the block give. -/
def changePut (a : Nat) (bs : List Byte) (s : State) : State :=
  let here (q : PReq) : Bool := decide (q.acc = s.clk.tc ∧ q.addr / 64 = a / 64)
  let put (q : PReq) : PReq := if here q && decide (q.wait = .pwin false ∧ q.addr = a) then { q with put := bs } else q
  let all := (s.preqs.map put).filter here
  let fresh (r : PReq) : PReq := if here r && !r.data.isEmpty then { r with data := readData all r r.data.length } else r
  let s1 := { s with preqs := (s.preqs.map put).map fresh }
  match all with
  | [] => pantryPutBytes s1 a bs
  | r :: _ => pantryPutBytes s1 a (((blockAfter r.before all).drop (a % 64)).take bs.length)

/-- A capture unit's bytes enter the Pantry: ahead of what port 96 asks for in this tick (R285). -/
def putBefore (bs : List (Nat × Byte)) (s : State) : State :=
  let here (q : PReq) : Bool := decide (q.acc = s.clk.tc ∧ q.port = 96) && bs.any (fun e => decide (e.1 / 64 = q.addr / 64))
  let s1 := bs.foldl (fun t e => pantryPut t e.1 e.2) s
  let hs := s.preqs.filter here
  if hs.isEmpty then s1
  else
    let under (q : PReq) : PReq := { q with before := q.before.zipIdx.map (fun b =>
      ((bs.find? (fun e => decide (e.1 = q.addr / 64 * 64 + b.2))).map (·.2)).getD b.1) }
    let all := (s.preqs.map (fun q => if here q then under q else q)).filter here
    let mates (q : PReq) : List PReq := all.filter (fun r => decide (r.addr / 64 = q.addr / 64))
    let fresh (q : PReq) : PReq :=
      if !here q then q
      else
        let v := under q
        if v.data.isEmpty then v else { v with data := readData (mates v) v v.data.length }
    let again (t : State) (q : PReq) : State :=
      pantryPutBytes t q.addr (((blockAfter q.before (mates q)).drop (q.addr % 64)).take q.put.length)
    all.foldl again { s1 with preqs := s1.preqs.map fresh }

/-- A byte as the requests of admitted ports find it in this tick: before those of port 96 (R285). -/
def byteBefore (s : State) (a : Nat) : Byte :=
  match s.preqs.find? (fun q => decide (q.acc = s.clk.tc ∧ q.port = 96 ∧ q.addr / 64 = a / 64)) with
  | some q => q.before.getD (a % 64) 0
  | none => pantryByte s a

/-- PANTRY_REQUEST: a block request of a port, inside its admitted region (R278); a request elsewhere is none (log 3). -/
def pantryRequest (port a : Nat) (write : Option (List Byte)) (s : State) : State :=
  let n := 64 - a % 64
  let dirOk := match write with
    | some bs => portWrites port && decide (bs.length ≤ n)
    | none => portReads port
  let x := getPort s port
  let may := if port = 96 then mgmtMay s a n else portServes s port && decide (x.base ≤ a ∧ a + n ≤ x.base + x.size)
  if dirOk && may then acceptRequest port a n write .port s else s

/-- A request finds its row as its bank was last served: a row hit (R283). -/
def openRow (s : State) (q : PReq) : Bool :=
  decide (mapGet (fun _ => none) s.rows (q.ch * 16 + bankBits s q.addr) = some (nbits q.addr 34 20))

/-- Request q has to be served before request r at their channel: admitted ports before port 96, escalated requests
before NORMAL ones, then the earlier deadline; among NORMAL requests of one deadline a row hit first, else in port order
(R282, R283). -/
def servedBefore (s : State) (q r : PReq) : Bool :=
  let d := ticksTo q.deadline r.deadline
  let normal := decide (q.level = 0)
  decide (q.ch = r.ch ∧ q.id ≠ r.id) && decide (q.port < 96) &&
  (decide (r.port = 96) || (!normal && decide (r.level = 0)) ||
    (decide (normal = decide (r.level = 0)) &&
      (decide (0 < d) || (decide (d = 0) &&
        (if normal && (openRow s q != openRow s r) then openRow s q else decide (q.port < r.port))))))

def updReq (id : Nat) (f : PReq → PReq) (s : State) : State :=
  { s with preqs := s.preqs.map (fun q => if q.id = id then f q else q) }

/-- ESCALATION (R283): when a request's slack has fallen to LAT / 2 it is ELEVATED, at 96 ticks URGENT; time passes to that
tick. Port 96 has no latency target. -/
def escalation (id : Nat) (s : State) : State :=
  match s.preqs.find? (fun q => decide (q.id = id)) with
  | none => s
  | some q =>
    if 96 ≤ q.port ∨ 2 ≤ q.level then s
    else if q.level = 0 then
      let s1 := passTo (q.deadline - BitVec.ofNat 48 ((getPort s q.port).lat / 2)) s
      bump (updReq id (fun r => { r with level := 1 }) s1) .pch q.ch 0x054 15 0 1
    else
      let s1 := passTo (q.deadline - 96) s
      bump (updReq id (fun r => { r with level := 2 }) s1) .pch q.ch 0x054 31 16 1

/-- BREACH_LAST names a late request, and its overrun so far; when it is served at last, it is named again with the whole of it
(R284, log 123). -/
def breachLast (q : PReq) (s : State) : State :=
  let late := (max 0 (ticksTo q.deadline s.clk.tc)).toNat
  wrAll s .pantry 0 0x0A8 (q.port * 2 ^ 24 + q.ch * 2 ^ 16 + min late 0xFFFF)

/-- A request misses its deadline (R284). Level 3 marks it. -/
def breach (q : PReq) (s : State) : State :=
  let x := getPort s q.port
  let s1 := setPort s q.port { x with breach := min (x.breach + 1) 0xFFFF }
  raiseFault .pantry 0 0 (updReq q.id (fun r => { r with level := 3 }) (breachLast q s1))

/-- DEADLINE_MISS (R284): time passes to the tick after the deadline. -/
def deadlineMiss (id : Nat) (s : State) : State :=
  match s.preqs.find? (fun q => decide (q.id = id)) with
  | none => s
  | some q => if 96 ≤ q.port ∨ q.level = 3 then s else breach q (passTo (q.deadline + 1) s)

/-- A row is marked for repair (R290), once; the mark counts for its wear (R450). -/
def markRow (ch a : Nat) (s : State) : State :=
  let row := (ch, bankBits s a * 2 ^ 15 + nbits a 34 20)
  if s.marked.contains row then s
  else addWear 6 ch (bankBits s a) 1 (bump { s with marked := s.marked ++ [row] } .pch ch 0x058 15 8 1)

/-- The corrected errors of a transfer count in the channel and for their row, which is marked above ROW_LIM (R290). -/
def countCorrected (ch a corr : Nat) (s : State) : State :=
  if corr = 0 then s
  else
    let k := ch * 2 ^ 19 + bankBits s a * 2 ^ 15 + nbits a 34 20
    let n := mapGet (fun _ => 0) s.corrs k + corr
    let s1 := bump { s with corrs := mapSet (fun _ => 0) s.corrs k n } .pch ch 0x04C 15 0 corr
    if rd s1 .pch ch 0x05C 31 16 < n then markRow ch a s1 else s1

/-- The retries of a transfer: up to 3, and RETRY; one that then still fails (4) counts as failed (12_memory.md, R297). -/
def countRetries (ch retries : Nat) (s : State) : State :=
  let s1 := if retries = 0 then s else raiseEvt .pch ch 2 (bump s .pch ch 0x050 15 0 (min retries 3))
  if retries = 4 then bump s1 .pch ch 0x050 31 16 1 else s1

/-- A refill read reaches the converter group: the block as it stood at acceptance, or none of it (R286, R290). -/
def arrive (q : PReq) (good : Bool) (s : State) : State :=
  if q.port < 80 then
    let bs := List.replicate (q.addr % 64) 0 ++ q.data
    { s with refilled := (q.port, q.addr / 64, if good then some bs else none) ::
        s.refilled.filter (fun e => decide (e.1 ≠ q.port ∨ e.2.1 ≠ q.addr / 64)) }
  else s

/-- PANTRY_REQUEST_DONE: a request is served, when none has to be served before it (R282, log 3), with the errors that its
transfer corrected and the retries it took; an uncorrectable read, or one whose retries all failed, is handled by port kind
(R290). -/
def pantryRequestDone (id corr retries : Nat) (uncorr_ : Bool) (s : State) : State :=
  let uncorr := uncorr_ || decide (retries = 4)
  match s.preqs.find? (fun q => decide (q.id = id)) with
  | none => s
  | some q =>
    if s.preqs.any (fun r => decide (r.level < 4) && servedBefore s r q) || decide (4 ≤ q.level) then s
    else
      let late := decide (q.port < 96) && decide (0 < ticksTo q.deadline s.clk.tc)
      let s0 := if late && decide (q.level < 3) then breach q s
        else if late then breachLast q s else s
      let served := { s0 with
        preqs := s0.preqs.filter (fun r => decide (r.id ≠ id))
        rows := mapSet (fun _ => none) s0.rows (q.ch * 16 + bankBits s0 q.addr) (some (nbits q.addr 34 20)) }
      let s1 := arrive q (!uncorr) (countRetries q.ch retries (countCorrected q.ch q.addr corr served))
      if !uncorr || q.data.isEmpty then
        match q.wait with
        | .daxka _ true => { s1 with preqs := s1.preqs ++ [{ q with level := 4 }] }
        | _ => s1
      else
        let s2 := markRow q.ch q.addr (raiseFault .pch q.ch 0 (bump s1 .pch q.ch 0x04C 31 16 1))
        match q.wait with
        | .pwin true => { s2 with pbad := s2.pbad ++ [q.addr / 64] }
        | .daxka _ true => { s2 with preqs := s2.preqs ++ [{ q with level := 5 }] }
        | _ =>
          if 88 ≤ q.port ∧ q.port < 96 then
            let u := q.port - 88
            let c := mapGet (fun _ => ({} : Cap)) s2.caps u
            let inRec (r : CapRec) : Bool := decide ((q.addr + r.ring - r.base - r.place) % r.ring < r.size)
            let c1 := { c with recs := c.recs.map (fun r => if inRec r then { r with spoilt := true } else r) }
            { s2 with caps := mapSet (fun _ => ({} : Cap)) s2.caps u c1 }
          else s2

/-! ## The indirect window (R45, R46) -/

/-- The window address. -/
def pwinAddr (s : State) : Nat := rd s .mgmt 0 0x060 31 2 * 4 + 2 ^ 32 * rd s .mgmt 0 0x064 2 0

/-- Fetch the block ahead of the window, when port 96 may reach it. -/
def pwinPrefetch (s : State) : State :=
  let a := pwinAddr s / 64 * 64
  if ptUp s .pantry && mgmtMay s a 64 then
    acceptRequest 96 a 64 none (.pwin true) { s with pbad := s.pbad.filter (fun b => decide (b ≠ a / 64)) }
  else s

/-- The window's block is still on its way. -/
def pwinWaits (s : State) : Bool :=
  s.preqs.any (fun q => decide (q.wait = .pwin true) && decide (q.addr / 64 = pwinAddr s / 64))

/-- After an access the address advances by 4 while INC is set (R45); entering a new block fetches it. -/
def pwinAdvance (s : State) : State :=
  if rdBit s .mgmt 0 0x06C 0 then
    let a := (pwinAddr s + 4) % 2 ^ 35
    let s1 := wr (wr s .mgmt 0 0x060 31 2 (a / 4)) .mgmt 0 0x064 2 0 (a / 2 ^ 32)
    if a % 64 = 0 then pwinPrefetch s1 else s1
  else s

/-- A refused access (R46). It is an access: the address advances (R45). Before the PANTRY page is up there is no capacity,
and every access is refused so (log 99). -/
def pwinRefuse (s : State) : State := pwinAdvance (raiseBit .mgmt 0 0x06C 2 s)

/-- PWIN_DATA_WRITE: the word goes to the window address. -/
def pwinWrite (v : Word) (s : State) : State :=
  if !ptUp s .pantry || !mgmtMay s (pwinAddr s) 4 then pwinRefuse s
  else pwinAdvance (acceptRequest 96 (pwinAddr s) 4 (some (wordBytes v)) (.pwin false) s)

/-- What a read of the window returns: the word at its address, zero where it is refused or uncorrectable (R46, R290). -/
def pwinWord (s : State) : Word :=
  if !ptUp s .pantry || !mgmtMay s (pwinAddr s) 4 || s.pbad.contains (pwinAddr s / 64) then 0
  else BitVec.ofNat 32 (ofBytes (pantryBytes s (pwinAddr s) 4))

/-- The effects of a read of the window. -/
def pwinReadDone (s : State) : State :=
  if !ptUp s .pantry || !mgmtMay s (pwinAddr s) 4 then pwinRefuse s else pwinAdvance s

/-- PWIN_DATA_READ. -/
def pwinRead (s : State) : State := pwinReadDone { s with rdata := pwinWord s }

/-! ## Refresh and retraining -/

/-- A request of a channel is at a level at least l. -/
def escalated (s : State) (ch l : Nat) : Bool := s.preqs.any (fun q => decide (q.ch = ch ∧ q.port < 96 ∧ l ≤ q.level))

/-- BANK_REFRESH (R288): a refresh that falls due is postponed only while a request is URGENT and fewer than 4 are
postponed; with 4 it is forced; postponed ones are repaid once nothing is escalated. -/
def bankRefresh (ch : Nat) (postponed : Bool) (s : State) : State :=
  if s.retired.contains ch then s
  else
    let n := rd s .pch ch 0x040 2 0
    if escalated s ch 1 && decide (n = 4) then bump s .pch ch 0x044 31 16 1
    else if postponed && escalated s ch 2 then
      bump (wr s .pch ch 0x040 2 0 (n + 1)) .pch ch 0x044 15 0 1
    else if escalated s ch 1 then s
    else wr s .pch ch 0x040 2 0 0

/-- Repairs in a bank group of a channel: those that the spare map holds, and soft ones that it had no room for (R291,
R455). -/
def groupRepairs (s : State) (ch bank : Nat) : Nat :=
  (s.spareMap.filter (fun e => decide (e % 16 = 6 ∧ nbits e 19 8 = ch ∧ nbits e 31 20 / 4 = bank / 4))).length +
  (s.softRows.filter (fun e => decide (e = (ch, bank / 4)))).length

/-- Repair a marked row in the channel's retraining slot (R291): one resource for each bank group (log 6). -/
def repairRow (ch : Nat) (s : State) (row : Nat) : State :=
  let bank := row / 2 ^ 15
  let pol := rdBit s .spare 0 (0x040 + 4 * 6) 31 && decide (spareSel s 7 ch = 0)
  let drop (t : State) : State :=
    wr { t with marked := t.marked.filter (fun e => decide (e ≠ (ch, row))) } .pch ch 0x058 15 8 (rd t .pch ch 0x058 15 8 - 1)
  if !pol then s
  else if 1 ≤ groupRepairs s ch bank then
    if rdBit s .pch ch 0x018 2 then s else addWear 7 ch 0 1 (raiseFault .pch ch 2 s)
  else
    let s1 := bump (drop s) .pch ch 0x058 31 24 1
    let s2 := wr s1 .pch ch 0x058 7 0 (rd s1 .pch ch 0x058 7 0 - 1)
    let s3 := finishSub 6 3 ch bank (row % 2 ^ 15) (raiseEvt .pch ch 1 s2)
    if s3.spareMap.length = s2.spareMap.length then { s3 with softRows := s3.softRows ++ [(ch, bank / 4)] } else s3

/-- The tick of a channel's next retraining slot, TC ≡ 1,172 × n (mod 37,500) (R289): this tick, unless its slot has been. -/
def slotTick (s : State) (ch : Nat) : BitVec 48 :=
  let t := s.clk.tc.toNat
  let r := (1172 * ch + 37500 - t % 37500) % 37500
  let d := if r = 0 && decide ((mapGet (fun _ => none) s.trainSlots ch).map (·.1) = some s.clk.tc) then 37500 else r
  s.clk.tc + BitVec.ofNat 48 d

/-- Time passes to a channel's retraining slot; one that falls due while a request is URGENT is deferred by at most 750 ticks,
how long is free (R283, R289, log 103). The tick of the slot, and the state in which it runs. -/
def toSlot (ch : Nat) (s : State) : BitVec 48 × State :=
  let t := slotTick s ch
  let s1 := passTo t s
  if escalated s1 ch 2 then
    let (k, s2) := freeDraw s1
    (t, passTo (t + BitVec.ofNat 48 (k % 751)) s2)
  else (t, s1)

/-- RETRAIN_SLOT (R289, R291): the slot measures the margin and the device temperature, and repairs marked rows. A margin
below MARGIN_MIN starts a full retrain of at most 64 slots; `full` says that the one in progress ends in this slot. Source 5
of R447 takes the errors corrected since the last slot. -/
def retrainSlot (ch margin temp : Nat) (full : Bool) (s : State) : State :=
  if s.retired.contains ch then s
  else
    let (at_, s0) := toSlot ch s
    let used := ((mapGet (fun _ => none) s0.trainSlots ch).map (·.2)).getD 0
    let low := decide (margin < rd s0 .pch ch 0x05C 15 0)
    let s1 := wr (wr s0 .pch ch 0x048 15 0 margin) .pch ch 0x040 27 20 temp
    let mine (e : Nat × Nat) : Bool := decide (e.1 / 2 ^ 19 = ch)
    let corr := ((s1.corrs.filter mine).map (·.2)).sum
    let s2 := hmSample 5 ch 0 corr (hmSample 4 ch 0 margin { s1 with corrs := s1.corrs.filter (fun e => !mine e) })
    let s3 := ((s2.marked.filter (fun e => decide (e.1 = ch))).map (·.2)).foldl (repairRow ch) s2
    let evac := decide (s3.evac = some ch)
    let slot (k : Nat) (t : State) : State := { t with trainSlots := mapSet (fun _ => none) t.trainSlots ch (some (at_, k)) }
    if 0 < used && (full || decide (63 ≤ used)) then
      let s4 := slot 0 (if evac then s3 else wr s3 .pch ch 0x040 31 28 1)
      if low then addWear 7 ch 0 1 (raiseFault .pch ch 1 s4) else s4
    else if 0 < used then slot (used + 1) s3
    else if low then
      let s4 := slot 1 (raiseEvt .pch ch 0 (bump s3 .pch ch 0x048 31 16 1))
      if evac then s4 else wr s4 .pch ch 0x040 31 28 2
    else slot 0 s3

end Sys2Proof.Machine
end

