-- ==== Sys2Proof/Machine/Starts.lean ====
section
/-! DEFINITION. Accepting shot starts (R24, R25, R104, R105). Master m of group m is sequencer 112 + m. -/

namespace Sys2Proof.Machine

/-- START_SRC.SRC of a master; 7 acts as 0 (R104). -/
def startSrc (s : State) (m : Nat) : Nat := rd s .seq (112 + m) 0x0A0 2 0

/-- START_OVERRUN of a master (R25, R105). -/
def startOverrun (m : Nat) (s : State) : State := raiseEvt .seq (112 + m) 1 s

/-- A master that refuses every start: out of service (R481), stopped by a machine check or a bad store (R97, R98), no
valid vendor image (R105), or shed stage 4 and above entered by its group (R440). -/
def refusesStart (s : State) (m : Nat) : Bool :=
  !enabled s .seq (112 + m) || (getSeq s (112 + m)).st == .mchk || (getSeq s (112 + m)).st == .storeBad ||
  s.unchecked.contains (112 + m) || rdBit s .sys 0 0x04C 28 || !rdBit s .seq (112 + m) 0x05C 31 ||
  decide (4 ≤ (getGroup s m).stage)

/-- The first tick with TC[15:0] = 0 that is t or later. -/
def syncFrom (t : BitVec 48) : BitVec 48 := t + (0 - t.setWidth 16).setWidth 48

/-- Fix the opening tick of a start now, in an idle group (R24, R104): a TBUS START or TRIGGER flit names it, and is
late when it names a tick less than 24 ticks away; SYNC takes the next tick with TC[15:0] = 0; any other opens 24 ticks
from now. -/
def fixOpening (m src : Nat) (named : BitVec 48) (s : State) : State :=
  let first := s.clk.tc + 24
  let x := { getGroup s m with pend := none }
  if src = 1 ∨ src = 3 then
    if ticksTo first named < 0 then raiseEvt .seq (112 + m) 0 (setGroup s m x)
    else setGroup s m { x with opening := some named }
  else setGroup s m { x with opening := some (if src = 2 then syncFrom first else first) }

/-- A start from the chosen source arrives at a master (R24, R25, R104, R105). A start that comes while another waits to
open is discarded as one that comes while one is pending (log 15). -/
def startAt (m src : Nat) (named : BitVec 48) (s : State) : State :=
  let x := getGroup s m
  if startSrc s m ≠ src then s
  else if refusesStart s m || x.pend.isSome || x.opening.isSome then startOverrun m s
  else if (src = 1 ∨ src = 3) ∧ ticksTo (s.clk.tc + 24) named < 0 then raiseEvt .seq (112 + m) 0 s
  else if x.running || x.boundary then setGroup s m { x with pend := some (src, named) }
  else fixOpening m src named s

/-- A group's boundary ends now; a start that was pending is accepted, or refused (R25, R26, R105). -/
def endBoundary (g : Nat) (s : State) : State :=
  let x := getGroup s g
  let s1 := setGroup s g { x with boundary := false, bEnd := s.clk.tc, pend := none }
  match x.pend with
  | none => s1
  | some (src, named) => if refusesStart s1 g then startOverrun g s1 else fixOpening g src named s1

/-- SHOT_GO: a software start of a master whose SRC is 6. -/
def shotGo (m : Nat) (s : State) : State := startAt m 6 s.clk.tc s

/-- SELF_START: with SRC 5 the first shot opens 24 ticks after the tick in which SRC = 5 took effect, each later one
REP_INTERVAL after the previous opening, but no earlier than 24 ticks after the boundary (R104). After a refusal the next
is counted from it as from a taking effect (R24, log 15). -/
def selfStart (m : Nat) (s : State) : State :=
  let x := getGroup s m
  if startSrc s m ≠ 5 || x.running || x.boundary || x.opening.isSome then s
  else if refusesStart s m then startOverrun m (setGroup s m { x with selfAt := some s.clk.tc })
  else
    let a := match x.selfAt with
      | some t => t + 24
      | none => if x.opened then x.t0 + BitVec.ofNat 48 (reg s .seq (112 + m) 0x0A4).toNat else s.clk.tc + 24
    setGroup s m { x with opening := some (if x.opened then laterTick a (x.bEnd + 24) else a) }

/-- A TRIGGER flit taken, with its TRIG_ID and due tick, at every master that listens for it (R104, R339). -/
def triggerStart (id : Nat) (due : BitVec 48) (s : State) : State :=
  ((List.range 8).filter (fun m => decide (startSrc s m = 3 ∧ rd s .seq (112 + m) 0x0A0 13 8 = id))).foldl
    (fun t m => startAt m 3 due t) s

end Sys2Proof.Machine
end

