-- ==== Sys2Proof/Machine/Calibration.lean ====
section
/-! DEFINITION. The calibration framework (17_calibration.md): requests, attempts, windows, results. -/

namespace Sys2Proof.Machine

def getCal (s : State) (k : Nat) : CalReq := mapGet (fun _ => {}) s.cals k
def setCal (k : Nat) (x : CalReq) (s : State) : State := { s with cals := mapSet (fun _ => {}) s.cals k x }

/-! ## Request slots -/

def setStatus (k v : Nat) (s : State) : State := wr s .cal 0 (rqOff k 0x10) 31 28 v

/-- QUEUED or RUNNING. -/
def rqLive (s : State) (k : Nat) : Bool := decide (rqStatus s k = 1 ∨ rqStatus s k = 2)

/-- The attempts a request may take: MAXATT, or 2 × (LEVEL + 1) (R395). -/
def rqAttempts (s : State) (k : Nat) : Nat := if rqMaxAtt s k = 0 then 2 * (rqLevel s k + 1) else rqMaxAtt s k

/-- CAL_STAT.MODE and the slot that runs a segment. -/
def calMode (s : State) : Nat := rd s .cal 0 0x04C 31 28
def calSlot (s : State) : Nat := rd s .cal 0 0x04C 27 24
def setMode (m k : Nat) (s : State) : State := wr (wr s .cal 0 0x04C 31 28 m) .cal 0 0x04C 27 24 k

/-! ## Kinds (R392) -/

def foreground (kind : Nat) : Bool := decide (0x08 ≤ kind ∧ kind ≤ 0x0E)
def background (kind : Nat) : Bool := decide (1 ≤ kind ∧ kind ≤ 4)

/-- Segments of one attempt. -/
def calSegs (kind : Nat) : Nat :=
  match kind with
  | 0x08 | 0x09 | 0x0A => 16
  | 0x0B => 1024
  | 0x0C => 20
  | 0x0D => 68
  | _ => 1

/-- Ticks of one segment. -/
def calTicks (s : State) (k : Nat) : Nat :=
  match rqKind s k with
  | 0x08 | 0x09 | 0x0A => 2400
  | 0x0B => 16 * (20000 + 16 * (rqParam s k / 65536))
  | 0x0C | 0x0D => 75000
  | _ => 37500

/-- The sequencer of a unit, by page type; a FLX target is an output (R392). -/
def seqOfUnit (ty n : Nat) : Nat :=
  match ty with
  | 0x11 => n
  | 0x12 | 0x13 => 64 + n
  | _ => 80 + n / 8

/-- Slot s of the Ladle that a PREDIST names: its binding and settings. -/
def predistSlot (s : State) (k : Nat) : LSlot := getSlot s (rqSub s k % 512)

/-- The sequencers that a request affects (R392). -/
def calSeqs (s : State) (k : Nat) : List Nat :=
  match rqKind s k with
  | 0x08 => [seqOfUnit (rqType s k) (rqInst s k), 64 + rqSub s k % 16]
  | 0x0B =>
    let x := predistSlot s k
    [slotDrvSeq x, slotReadSeq x, fluxSeq (fget x.cfg 27 20)]
  | _ => [seqOfUnit (rqType s k) (rqInst s k)]

/-- The pages that a kind's segments or pass use, by type code and instance (R392, R409). -/
def calPages (s : State) (k : Nat) : List (Nat × Nat) :=
  let n := rqInst s k
  let own := (rqType s k, if rqType s k = 0x14 then n / 8 else n)
  match rqKind s k with
  | 0x08 => [own, (0x13, rqSub s k % 16)]
  | 0x09 => [own, (0x12, n)]
  | 0x0B =>
    let x := predistSlot s k
    [own, (0x11, slotDrvSeq x), (0x12, slotPrb x / 32), (0x13, slotDem x / 32), (0x14, fget x.cfg 27 20 / 8)]
  | _ => [own]

/-- Number of units of a page type that a kind may name as its target. -/
def unitCount (ty : Nat) : Nat :=
  match ty with
  | 0x11 => 64
  | 0x12 | 0x13 => 16
  | 0x14 => 256
  | 0x1B => 20
  | 0x1A => 32
  | _ => 0

/-- The page types that a kind takes (R392). -/
def kindTypes (kind : Nat) : List Nat :=
  match kind with
  | 0x01 | 0x09 | 0x0D => [0x13]
  | 0x02 => [0x1B]
  | 0x03 => [0x1A]
  | 0x04 | 0x0E => [0x11, 0x12, 0x14, 0x13]
  | 0x08 => [0x11, 0x12, 0x14]
  | 0x0A => [0x12, 0x13]
  | 0x0C => [0x11, 0x12]
  | _ => []

/-- The target suits the kind (R392, R393). -/
def targetOk (s : State) (k : Nat) : Bool :=
  let kind := rqKind s k
  if kind = 0x0B then
    decide (rqType s k = 0x15 ∧ rqInst s k = 0 ∧ rqSub s k < 512) && wbit (predistSlot s k).cfg 19
  else
    (kindTypes kind).contains (rqType s k) && decide (rqInst s k < unitCount (rqType s k)) &&
    (!decide (kind = 0x08) || decide (rqSub s k / 16 % 64 ≠ 0 ∧ rqSub s k < 1024)) &&
    (!decide (kind = 0x09 ∨ kind = 0x0A) || decide (rqSub s k < 128))

/-- The checks that give INVALID (R393, R403). -/
def requestOk (s : State) (k : Nat) : Bool :=
  let kind := rqKind s k
  (foreground kind || background kind) && targetOk s k &&
  (!(background kind || decide (kind = 0x0E)) || decide (rqLevel s k = 0)) &&
  (decide (rqMaxAtt s k = 0) || decide (rqLevel s k + 1 ≤ rqMaxAtt s k)) &&
  (!decide (kind = 0x0A) || decide (75000 ≤ sx 32 (rqParam s k + 2 ^ 32 - s.clk.tc.toNat % 2 ^ 32)))

/-! ## Temperature of an island (R406, R424, R434) -/

/-- The domain of a target's island. -/
def domainOfTarget (s : State) (k : Nat) : Nat :=
  let n := rqInst s k
  match rqType s k with
  | 0x11 => n / 4
  | 0x12 | 0x13 => 16 + n / 2
  | 0x14 => 24 + n / 32
  | 0x1B => 42 + n / 5
  | 0x1A => 38 + n / 8
  | _ => 36

def targetTemp (s : State) (k : Nat) : Int := sx 16 (rd s .therm 0 (0x200 + 4 * domainOfTarget s k) 15 0)

/-! ## Limits (R404) -/

/-- A quality figure passes. QLIM ≠ 0 replaces the default limit. -/
def qualOk (s : State) (k qual : Nat) : Bool :=
  let q := rd s .cal 0 (rqOff k 0x14) 31 16
  let n := rqInst s k
  let lim (d : Nat) : Nat := if q = 0 then d else q
  match rqKind s k with
  | 0x01 | 0x0D => decide (qual ≤ lim (rd s .rdi n 0x070 15 0))
  | 0x02 => decide (lim (10 * rd s .lane n 0x040 15 8) ≤ qual)
  | 0x03 => decide (lim (rd s .pch n 0x05C 15 0) ≤ qual)
  | 0x04 => decide (qual ≤ lim 50)
  | 0x08 | 0x09 | 0x0A => decide (lim 2000 ≤ qual)
  | 0x0B => decide (qual ≤ lim 100)
  | 0x0C => decide (qual ≤ lim 50)
  | _ => decide (qual ≤ lim 0)

/-- The components of a list of results span no more than a tolerance. -/
def spanOk (tol : Nat) (xs : List Word) : Bool :=
  xs.all (fun a => xs.all (fun b => decide (sx 32 a.toNat - sx 32 b.toNat ≤ (tol : Int))))

/-- The agreement of a run of results (R395, R404). The points of a PREDIST and the trims of an ADC_CAL are no part of
the reported result, so whether they agree is free (log 22). -/
def agrees (s : State) (k : Nat) (run : List (Word × Word)) : Bool :=
  match rqKind s k with
  | 0x08 | 0x09 | 0x0A => spanOk 64 (run.map (·.1))
  | 0x0C => spanOk 2 (run.map (·.1)) && spanOk 2 (run.map (·.2))
  | _ => decide (Config.free s.free % 2 = 1)

/-- The mean of results, halves away from zero (R395). -/
def meanOf (xs : List Word) : Word :=
  let n : Int := xs.length
  let t : Int := (xs.map (fun w => sx 32 w.toNat)).sum
  BitVec.ofInt 32 (if 0 ≤ t then (2 * t + n) / (2 * n) else -((-2 * t + n) / (2 * n)))

/-! ## Ends of requests -/

/-- A request ends with a status (R395). -/
def endRequest (k st : Nat) (s : State) : State := raiseEvt .cal 0 (if st = 3 then 0 else 1) (setStatus k st s)

/-- LINE_DELAY's address and the highest value it holds. -/
def lineDelayOf (s : State) (k : Nat) : PT × Nat × Nat × Nat :=
  let n := rqInst s k
  match rqType s k with
  | 0x11 => (.drv, n, 0x048, 2 ^ 24 - 1)
  | 0x12 => (.prb, n, 0x048, 2 ^ 24 - 1)
  | _ => (.flx, n / 8, 0x100 + 0x80 * (n % 8) + 0x0C, 2 ^ 21 - 1)

/-- RQ_PARAM − D0 of a LINE_DLY. -/
def lineDlyValue (s : State) (k : Nat) : Int := (rqParam s k : Int) - sx 32 (reg s .cal 0 (rqOff k 0x18)).toNat

/-- A LINE_DLY whose result does not fit its field (R403). -/
def outOfRange (s : State) (k : Nat) : Bool :=
  rdBit s .cal 0 (rqOff k 0) 19 && decide (rqKind s k = 0x08) &&
  (decide (lineDlyValue s k < 0) || decide (((lineDelayOf s k).2.2.2 : Int) < lineDlyValue s k))

/-- The result of a request decided: RES0, RES1 and QUAL; DONE or RANGE; drift watch; a PREDIST's trace (R403, R406). -/
def concludeDone (k : Nat) (r0 r1 : Word) (qual : Nat) (s : State) : State :=
  let s1 := wrAll (wrAll s .cal 0 (rqOff k 0x18) r0.toNat) .cal 0 (rqOff k 0x1C) r1.toNat
  let s2 := wr s1 .cal 0 (rqOff k 0x14) 15 0 qual
  if outOfRange s2 k then endRequest k 0xC s2
  else
    let s3 := endRequest k 3 (setCal k { getCal s2 k with apply := rdBit s2 .cal 0 (rqOff k 0) 19 } s2)
    let s4 := if rdBit s3 .cal 0 (rqOff k 0) 18 && decide (rd s3 .cal 0 (rqOff k 0) 15 8 ≠ 0)
      then setCal k { getCal s3 k with temp := targetTemp s3 k } (wr s3 .cal 0 (rqOff k 0x10) 26 26 1) else s3
    if rqKind s k = 0x0B then { s4 with trace := some s4.free, free := s4.free + 64 } else s4

/-- A CONV_TEST that ends QUALITY (R405). -/
def convTestFailed (k : Nat) (s : State) : State :=
  if rqKind s k ≠ 0x0E then s
  else
    let n := rqInst s k
    match rqType s k with
    | 0x11 => dacFaultAt n s
    | 0x12 => dacFaultAt (64 + n) s
    | 0x14 => dacFaultAt (80 + n) s
    | _ => adcFaultAt n s

/-- An attempt ends without counting: failed, by time or by quality (R394, R395). -/
def attemptFailed (k st : Nat) (s : State) : State :=
  let s1 := wr (setCal k { getCal s k with seg := 0, run := [] } s) .cal 0 (rqOff k 0x10) 19 16 0
  if rqLevel s1 k = 0 then endRequest k st s1
  else if rqAttempts s1 k ≤ rd s1 .cal 0 (rqOff k 0x10) 23 20 then endRequest k 6 s1 else s1

/-- An attempt ends with its result (R394, R395): STATUS 7 is QUALITY, 6 NO_AGREE. -/
def attemptDone (k : Nat) (r0 r1 : Word) (qual : Nat) (s : State) : State :=
  let s0 := hmSample 10 k 0 qual (bump s .cal 0 (rqOff k 0x10) 23 20 1)
  if !qualOk s0 k qual then
    let s1 := if rqLevel s0 k = 0 then
        wr (wrAll (wrAll s0 .cal 0 (rqOff k 0x18) r0.toNat) .cal 0 (rqOff k 0x1C) r1.toNat) .cal 0 (rqOff k 0x14) 15 0 qual
      else s0
    let s2 := attemptFailed k 7 s1
    if rqStatus s2 k = 7 then convTestFailed k s2 else s2
  else if rqLevel s0 k = 0 then concludeDone k r0 r1 qual (setCal k { getCal s0 k with seg := 0 } s0)
  else
    let run := (r0, r1) :: (getCal s0 k).run
    let s1 := { s0 with free := s0.free + 1 }
    if 1 < run.length && !agrees s0 k run then attemptFailed k 6 s1
    else
      let s2 := wr (setCal k { getCal s1 k with seg := 0, run := run } s1) .cal 0 (rqOff k 0x10) 19 16 run.length
      if run.length = rqLevel s2 k + 1 then concludeDone k (meanOf (run.map (·.1))) (meanOf (run.map (·.2))) qual s2
      else if rqAttempts s2 k ≤ rd s2 .cal 0 (rqOff k 0x10) 23 20 then endRequest k 6 s2 else s2

/-! ## Application (R403) -/

/-- The corrections of an ADC_CAL: free values, all 17 slices (log 12). -/
def adcCalSlice (n : Nat) (s : State) (k : Nat) : State :=
  let o := 0x100 + 0x10 * k
  let s1 := wr s .rdi n o 15 0 (Config.free s.free)
  let s2 := wr s1 .rdi n (o + 4) 15 0 (Config.free (s.free + 1))
  let s3 := wr s2 .rdi n (o + 8) 15 0 (Config.free (s.free + 2))
  { s3 with free := s3.free + 3 }

/-- Write the results of a request that ended DONE with APPLY. -/
def applyResult (s : State) (k : Nat) : State :=
  if !(getCal s k).apply then s
  else
    let s0 := setCal k { getCal s k with apply := false } s
    let n := rqInst s k
    let r0 := reg s .cal 0 (rqOff k 0x18)
    let r1 := reg s .cal 0 (rqOff k 0x1C)
    match rqKind s k with
    | 0x08 =>
      let l := lineDelayOf s k
      wrAll s0 l.1 l.2.1 l.2.2.1 (lineDlyValue s k).toNat
    | 0x09 =>
      let v := (sx 32 r0.toNat) / 8192 + (rqParam s k % 65536 : Nat)
      wr s0 .rdi n 0x044 15 0 (ux 16 v)
    | 0x0C =>
      let out := if rqType s k = 0x11 then n else 64 + n
      { s0 with dacTrims := mapSet (fun _ => (0, 0)) s0.dacTrims out (r0, r1) }
    | 0x0D => (List.range 17).foldl (adcCalSlice n) s0
    | _ => s0

/-- The end of a window or an idle run: results are applied. -/
def applyResults (s : State) : State := (List.range 16).foldl applyResult s

/-! ## Running segments (R398 to R402) -/

/-- The CAL page lets requests start: in service, and no stage 2 (R409, R481). -/
def calMayStart (s : State) : Bool := enabled s .cal 0 && decide (stageFirst s < 2)

/-- Queued foreground slots in the order of submission. -/
def calQueue (s : State) : List Nat :=
  ((List.range 16).filter (fun k => decide (rqStatus s k = 1) && foreground (rqKind s k))).insertionSort
    (fun a b => (getCal s a).order ≤ (getCal s b).order)

/-- Eligible in idle mode. -/
def idleEligible (s : State) (k : Nat) : Bool :=
  rdBit s .cal 0 0x040 2 && (calSeqs s k).all (fun q => decide (seqGroup s q = none))

/-- Eligible in a window of group g. -/
def windowEligible (s : State) (g k : Nat) : Bool :=
  !decide (rqKind s k = 0x0A) &&
  (calSeqs s k).all (fun q => decide (seqGroup s q = none) || decide (seqGroup s q = some g))

/-- The outputs that a slot's segments drive, and whether they mute them (R392). -/
def calOutputs (s : State) (k : Nat) : List (Nat × Bool) :=
  let n := rqInst s k
  let own : Nat := match rqType s k with
    | 0x11 => n
    | 0x12 => 64 + n
    | _ => 80 + n
  match rqKind s k with
  | 0x08 => [(own, false)]
  | 0x09 => [(64 + n, false)]
  | 0x0A => if rqType s k = 0x12 then [(own, false)] else []
  | 0x0B =>
    let x := predistSlot s k
    [(slotDrv x / 8, false), (64 + slotPrb x / 32, false), (80 + fget x.cfg 27 20, false)]
  | 0x0C => [(own, true)]
  | 0x0E => if rqType s k = 0x13 then [] else [(own, decide (rqType s k ≠ 0x14))]
  | _ => []

/-- A segment of the slot starts. -/
def startSegment (mode k : Nat) (s : State) : State :=
  let plays := (calOutputs s k).map (fun e => { out := e.1, muted := e.2, start := s.clk.tc : CalPlay })
  setStatus k 2 (setMode mode k { s with calPlays := plays ++ s.calPlays })

/-- No segment runs any more. -/
def stopSegments (s : State) : State :=
  let ended (e : CalPlay) : CalPlay := if e.stop.isNone then { e with stop := some s.clk.tc } else e
  setMode 0 0 { s with calPlays := s.calPlays.map ended }

/-- Some foreground segment runs. -/
def segmentRuns (s : State) : Bool := decide (calMode s ≠ 0)

/-- A foreground segment that runs affects a sequencer (R71, R398). -/
def calUses (s : State) (q : Nat) : Bool := segmentRuns s && (calSeqs s (calSlot s)).contains q

/-- A store's block is used by a running shot of its owner's group, or by a calibration segment. -/
def storeBusy (s : State) (b : Nat) : Bool := seqShotRuns s (storeOwner b) || calUses s (storeOwner b)

/-- The accepted images that no shot and no segment holds back are copied. -/
def copyReady (s : State) : State :=
  (s.accepted.filter (fun e => !storeBusy s e.store)).foldl copyImage s

/-- The running segment ends, and with it what held copies back (R71). -/
def segmentEnds (s : State) : State := copyReady (stopSegments s)

/-- An earlier request of the same kind and target waits or runs (R407). -/
def twinAhead (s : State) (k : Nat) : Bool :=
  (List.range 16).any (fun j => decide (j ≠ k) && rqLive s j && decide ((getCal s j).order < (getCal s k).order) &&
    decide (rqKind s j = rqKind s k ∧ reg s .cal 0 (rqOff j 4) = reg s .cal 0 (rqOff k 4)))

/-- A background pass of the slot may run (R396, R397, R481). PANTRY_TRAIN is not paused. -/
def backgroundOk (s : State) (k : Nat) : Bool :=
  enabled s .cal 0 && !twinAhead s k && (decide (rqKind s k = 3) || !bgPaused s)

/-- A channel's full retrain is in progress (R289). -/
def retraining (s : State) (ch : Nat) : Bool := ((mapGet (fun _ => none) s.trainSlots ch).map (·.2)).any (fun v => decide (0 < v))

/-- A background pass starts; a PANTRY_TRAIN that finds a full retrain in progress joins it (R407). -/
def startPass (k : Nat) (s : State) : State :=
  let joins := decide (rqKind s k = 3) && retraining s (rqInst s k)
  setStatus k 2 (setCal k { getCal s k with seg := if joins then 2 else 0 } s)

/-- What the retraining slot of a channel means for a PANTRY_TRAIN that runs on it: its slot has been, and a full retrain runs
or not (R392, R403). `seg` counts 1 for the slot and 2 once a full retrain was part of the pass. -/
def notePass (ch : Nat) (s : State) : State :=
  (List.range 16).foldl (fun t k =>
    if decide (rqKind t k = 3 ∧ rqStatus t k = 2 ∧ rqType t k = 0x1A ∧ rqInst t k = ch) then
      setCal k { getCal t k with seg := if retraining t ch || decide ((getCal t k).seg = 2) then 2 else 1 } t
    else t) s

/-- RETRAIN_SLOT, with the PANTRY_TRAIN passes it serves. -/
def trainSlot (ch margin temp : Nat) (full : Bool) (s : State) : State := notePass ch (retrainSlot ch margin temp full s)

/-- A PANTRY_TRAIN still waits for its slot, or for the end of a full retrain (R392, R407). -/
def passWaits (s : State) (k : Nat) : Bool :=
  decide (rqKind s k = 3) && (decide ((getCal s k).seg = 0) || retraining s (rqInst s k))

/-- What may start does: background passes, and a foreground segment in idle mode (R397, R399, R402). -/
def calKick (s : State) : State :=
  if !ptUp s .cal then s
  else
    let one (t : State) (k : Nat) : State :=
      if background (rqKind t k) then
        if rqStatus t k = 1 && backgroundOk t k then startPass k t
        else if rqStatus t k = 2 && !backgroundOk t k then setStatus k 1 t else t
      else t
    let s1 := (List.range 16).foldl one s
    if segmentRuns s1 || !calMayStart s1 then s1
    else
      match (calQueue s1).find? (fun k => idleEligible s1 k && !twinAhead s1 k) with
      | some k => startSegment 2 k s1
      | none => s1

/-- The next segment of the open window, or its end, which ends the boundary (R400). -/
def windowNext (s : State) : State :=
  match s.calWin with
  | none => s
  | some (g, used) =>
    let fits (k : Nat) : Bool := decide (used + calTicks s k ≤ rd s .cal 0 0x048 23 0)
    let next := (calQueue s).find? (fun k => windowEligible s g k && !twinAhead s k)
    match next with
    | some k =>
      if calMayStart s && fits k then startSegment 1 k s
      else endBoundary g (applyResults { segmentEnds s with calWin := none })
    | none => endBoundary g (applyResults { segmentEnds s with calWin := none })

/-- A window opens at the boundary of a group (R400), or not: does one? -/
def windowOpens (s : State) (g : Nat) : Bool :=
  ptUp s .cal && rdBit s .cal 0 0x044 g && ((getGroup s g).calReq || rdBit s .cal 0 0x044 (8 + g)) && calMayStart s &&
  !segmentRuns s && (calQueue s).any (fun k => windowEligible s g k)

/-- Open the window. -/
def openWindow (g : Nat) (s : State) : State := windowNext (bump { s with calWin := some (g, 0) } .cal 0 0x050 31 16 1)

/-- After a segment of slot k has ended with the mode it ran in: the next one. -/
def afterSegment (mode k : Nat) (s : State) : State :=
  let s1 := if rqStatus s k = 2 then setStatus k 1 s else s
  if mode = 1 then windowNext (segmentEnds s1)
  else
    let s2 := calKick (segmentEnds s1)
    if segmentRuns s2 then s2 else applyResults s2

/-- The result and the quality figure of an attempt as R403 and R404 tie them together: a worst slice residual, a margin, an
SNR and a failed-check map are result and quality at once, LANE_EVAL and PANTRY_TRAIN report what the lane and the channel
show, and a kind without a second result leaves RQ_RES1. `r0`, `r1` and `qual` are what was measured. -/
def calResult (s : State) (k : Nat) (r0 r1 : Word) (qual : Nat) : Word × Word × Nat :=
  let n := rqInst s k
  let old := reg s .cal 0 (rqOff k 0x1C)
  match rqKind s k with
  | 0x01 => (BitVec.ofNat 32 qual, r1, qual)
  | 0x02 => let v := rd s .lane n 0x054 15 0; (BitVec.ofNat 32 v, reg s .lane n 0x050, v)
  | 0x03 =>
    let v := rd s .pch n 0x048 15 0
    (BitVec.ofNat 32 v, BitVec.ofNat 32 (if (getCal s k).seg = 2 then 1 else 0), v)
  | 0x08 | 0x09 | 0x0A => (r0, old, qual)
  | 0x0B => (64, BitVec.ofNat 32 (2 ^ 24), qual)
  | 0x0D => (BitVec.ofNat 32 qual, old, qual)
  | 0x0E => (r0, old, ((List.range 32).filter r0.getLsbD).length)
  | _ => (r0, r1, qual)

/-- CAL_SEGMENT_DONE (R394, R400, R408): the running segment ends; with it perhaps an attempt, with its result and
quality figure, or a cancellation, over which a completion wins. -/
def calSegmentDone (m0 m1 : Word) (mq : Nat) (s : State) : State :=
  if !segmentRuns s then s
  else
    let k := calSlot s
    let mode := calMode s
    let x := getCal s k
    let (r0, r1, qual) := calResult s k m0 m1 mq
    let s1 := bump (setCal k { x with seg := x.seg + 1 } s) .cal 0 (rqOff k 0x10) 15 0 1
    let s2 := match s1.calWin with
      | some (g, used) => { s1 with calWin := some (g, used + calTicks s1 k) }
      | none => s1
    let s3 := if x.seg + 1 = calSegs (rqKind s2 k) then attemptDone k r0 r1 qual s2 else s2
    let s4 :=
      if x.cancel then
        if rqStatus s3 k = 3 then wr s3 .cal 0 (rqOff k 0x10) 27 27 1
        else if rqStatus s3 k = 2 then endRequest k 8 s3 else s3
      else s3
    afterSegment mode k (setCal k { getCal s4 k with cancel := false } s4)

/-- BACKGROUND_PASS_DONE: the pass of a running request ends (R396), that of a PANTRY_TRAIN no earlier than its slot
and the end of a full retrain (R392, R407). -/
def backgroundPassDone (k : Nat) (m0 m1 : Word) (mq : Nat) (s : State) : State :=
  if !(background (rqKind s k) && decide (rqStatus s k = 2)) || passWaits s k then s
  else
    let x := getCal s k
    let (r0, r1, qual) := calResult s k m0 m1 mq
    let s1 := attemptDone k r0 r1 qual s
    let s2 := if x.cancel && decide (rqStatus s1 k = 3) then wr s1 .cal 0 (rqOff k 0x10) 27 27 1 else s1
    calKick (setCal k { getCal s2 k with cancel := false } s2)

/-- ATTEMPT_TIMEOUT: the running attempt of a slot exceeds its timeout (R394); a request with a cancellation that would go on
is CANCELLED, for its segment ends with the attempt (R408). -/
def attemptTimeout (k : Nat) (s : State) : State :=
  if rqStatus s k ≠ 2 then s
  else
    let runs := segmentRuns s && decide (calSlot s = k)
    let mode := calMode s
    let s0 := attemptFailed k 5 (bump s .cal 0 (rqOff k 0x10) 23 20 1)
    let ended := if (getCal s k).cancel && decide (rqStatus s0 k = 2) then endRequest k 8 s0 else s0
    let s1 := setCal k { getCal ended k with cancel := false } ended
    if !foreground (rqKind s k) then calKick s1 else if runs then afterSegment mode k s1 else s1

/-! ## Submission, cancellation -/

/-- A request that passed its checks waits or starts (R399). `again` marks a resubmission, which always queues. -/
def place_ (k : Nat) (again : Bool) (s : State) : State :=
  let s1 := calKick (setStatus k 1 s)
  if again || !enabled s .cal 0 || !foreground (rqKind s1 k) || decide (rqStatus s1 k ≠ 1) || !rdBit s1 .cal 0 0x040 0
  then s1
  else bump (raiseEvt .cal 0 2 (endRequest k 4 s1)) .cal 0 0x050 15 0 1

/-- A slot's request starts afresh. -/
def freshRequest (k : Nat) (s : State) : State :=
  let s1 := { s with calNo := s.calNo + 1 }
  wrAll (setCal k { order := s.calNo + 1 } s1) .cal 0 (rqOff k 0x10) 0

/-- SUBMIT (R393, R399). -/
def submit (k : Nat) (s : State) : State :=
  if rqLive s k then s
  else
    let s1 := freshRequest k s
    if !requestOk s1 k then setStatus k 0xA s1
    else if foreground (rqKind s1 k) && rdBit s1 .sys 0 0x04C 28 then setStatus k 0xD s1
    else if foreground (rqKind s1 k) && decide (rd s1 .cal 0 0x048 23 0 < calTicks s1 k) && !rdBit s1 .cal 0 0x040 2 then
      setStatus k 0xB s1
    else place_ k false s1

/-- A request leaves a slot that may be running a segment: what runs next. -/
def leaveSlot (k : Nat) (before s : State) : State :=
  if segmentRuns before && decide (calSlot before = k) then afterSegment (calMode before) k s else calKick s

/-- CLEAR: the slot becomes EMPTY (R406). -/
def clearSlot (k : Nat) (s : State) : State :=
  leaveSlot k s (wrAll (setCal k {} s) .cal 0 (rqOff k 0x10) 0)

/-- CANCEL (R408). -/
def cancelSlot (k : Nat) (s : State) : State :=
  if rqStatus s k = 1 then calKick (endRequest k 8 s)
  else if rqStatus s k = 2 then setCal k { getCal s k with cancel := true } s else s

/-- End a live request at once (R409). -/
def dropRequest (st k : Nat) (s : State) : State := if rqLive s k then leaveSlot k s (endRequest k st s) else s

/-- Shed stage 5: every live request ends SHED (R409). -/
def calShed (s : State) : State := (List.range 16).foldl (fun t k => dropRequest 9 k t) s

/-- A soft reset of an affected page cancels running requests (R409). -/
def calResetSeq (q : Nat) (s : State) : State :=
  (List.range 16).foldl (fun t k =>
    if decide (rqStatus t k = 2) && foreground (rqKind t k) && (calSeqs t k).contains q then dropRequest 8 k t else t) s

/-- The same for the page of an affected block, by its type code and instance. -/
def calResetUnit (ty n : Nat) (s : State) : State :=
  (List.range 16).foldl (fun t k =>
    if decide (rqStatus t k = 2) && (calPages t k).contains (ty, n) then dropRequest 8 k t else t) s

/-- DRIFT: an armed slot whose island's temperature has moved is resubmitted (R406). -/
def driftCheck (s : State) (k : Nat) : State :=
  let d := 16 * rd s .cal 0 (rqOff k 0) 15 8
  if rdBit s .cal 0 (rqOff k 0x10) 26 && decide ((d : Int) < 10 * |targetTemp s k - (getCal s k).temp|) then
    place_ k true (raiseEvt .cal 0 3 (freshRequest k s))
  else s

def driftChecks (s : State) : State := if ptUp s .cal then (List.range 16).foldl driftCheck s else s

/-- REFERENCE_CHECK: a converter's residual against its reference (R396, R404). -/
def referenceCheck (resid : Nat) (s : State) : State :=
  if bgPaused s then s else raiseFaultIf (decide (50 < resid)) .cal 0 0 s

/-- Word i of the trace (R403): word 2k is d_k = ⌈2^(k/4)⌉, word 2k + 1 the measured s(d_k), a free value. -/
def ceilRoot4 (v : Nat) : Nat := ((List.range 65538).find? (fun d => decide (v ≤ d ^ 4))).getD 65538

def traceWord (s : State) (i : Nat) : Word :=
  match s.trace with
  | none => 0
  | some b =>
    if 128 ≤ i then 0 else if i % 2 = 0 then BitVec.ofNat 32 (ceilRoot4 (2 ^ (i / 2)))
    else BitVec.ofNat 32 (Config.free (b + i / 2))

/-- A read of TRACE_DATA advances TRACE_IDX. -/
def traceRead (s : State) : State :=
  wr { s with rdata := traceWord s (rd s .cal 0 0x054 7 0) } .cal 0 0x054 7 0 ((rd s .cal 0 0x054 7 0 + 1) % 256)

end Sys2Proof.Machine
end

