-- ==== Sys2Proof/Machine/Monitor.lean ====
section
/-! DEFINITION. The monitor converter (18_monitor_converter.md). A raw code comes with its command. -/

namespace Sys2Proof.Machine

def setMon (x : Mon) (s : State) : State := { s with mon := x }

/-- Is a channel with a sub-selector an input there is (R412)? -/
def monOk (ch sub : Nat) : Bool :=
  if 32 ≤ ch ∧ ch < 40 then decide (sub < 6)
  else if 41 ≤ ch ∧ ch < 57 then decide (sub < 16)
  else decide (ch < 72 ∧ sub = 0)

/-- MON_CFG.LAST in force: below 48 it acts as 48 (R413). -/
def monLast (s : State) : Nat := max 48 (rd s .monadc 0 0x040 5 0)

def entOff (e : Nat) : Nat := 0x100 + 4 * e
def urgOff (k : Nat) : Nat := 0x060 + 4 * k

/-- The corrected code of a raw code at a channel (R418). -/
def monCorrect (s : State) (ch : Nat) (raw : BitVec 18) : Nat :=
  let ofs := sx 20 (rd s .monadc 0 (0x300 + 8 * ch) 19 0)
  let gain := rd s .monadc 0 (0x304 + 8 * ch) 19 0
  (clampI 0 262143 (rndAway (((raw.toNat : Int) - ofs) * gain) 18)).toNat

/-- A result word (R422). -/
def monResult (s : State) (outside : Bool) (code : Nat) : Nat :=
  2 ^ 31 + b2n outside * 2 ^ 30 + b2n s.mon.suspect * 2 ^ 29 + code

/-- The code of a result lies outside comparator k's limits (R421). -/
def monOutside (s : State) (k code : Nat) : Bool :=
  decide (code < rd s .monadc 0 (0x0A0 + 0x10 * k) 17 0 ∨ rd s .monadc 0 (0x0A4 + 0x10 * k) 17 0 < code)

/-- Compare a result of an entry, or of urgent request k as 0x80 + k, by the comparator its LIM names (R421): the
comparator's answer, and the effects of a fire. -/
def monCompare (tag lim code : Nat) (s : State) : Bool × State :=
  if lim = 0 ∨ 4 < lim then (false, s)
  else
    let k := lim - 1
    let out := monOutside s k code
    let was := s.mon.outside.contains (tag, k)
    let edge := rdBit s .monadc 0 (0x0A8 + 0x10 * k) 0
    let s1 := setMon { s.mon with
      outside := s.mon.outside.filter (fun e => decide (e ≠ (tag, k))) ++ (if out then [(tag, k)] else []) } s
    if out && !(edge && was) then
      let keep := decide (tag < 0x80) && rdBit s .monadc 0 (0x0AC + 0x10 * k) 31 &&
        s.lines.contains (s.clk.tc, 120 + k, false)
      let s2 := raiseEvt .monadc 0 k s1
      let s3 := if keep then s2 else wrAll s2 .monadc 0 (0x0AC + 0x10 * k) (tag * 2 ^ 24 + code)
      (out, fireLine (120 + k) s.clk.tc false s3)
    else (out, s1)

/-- The conversion of list entry `pos`, when it is the next; an invalid user entry converts nothing (R413, R415). -/
def monStepList (s : State) : State :=
  let e := s.mon.pos
  setMon { s.mon with pos := if e < monLast s then e + 1 else 64 } s

/-- The check of every conversion of REFP1, in whatever entry (R419). -/
def refCheck (ch code : Nat) (s : State) : State :=
  if ch ≠ 58 then s
  else
    let bad := decide (1280 < |(code : Int) - 256000|)
    raiseFaultIf bad .monadc 0 0 (setMon { s.mon with suspect := bad } s)

/-- A quotient rounded to the nearest, halves away from zero, of a natural number. -/
def rndDiv (a b : Nat) : Nat := (2 * a + b) / (2 * b)

/-- CONVERSION: the next list entry; entry 48 gives SHED_STAT.VIN, to the nearest mV (log 27). -/
def conversion (raw : BitVec 18) (s : State) : State :=
  let e := s.mon.pos
  if 64 ≤ e then s
  else
    let ch := rd s .monadc 0 (entOff e) 11 4
    let sub := rd s .monadc 0 (entOff e) 3 0
    if !monOk ch sub then
      let s1 := if s.mon.told.contains e then s
        else raiseEvt .monadc 0 5 (setMon { s.mon with told := s.mon.told ++ [e] } s)
      monStepList s1
    else
      let c := monCorrect s ch raw
      let (out, s0) := monCompare e (rd s .monadc 0 (entOff e) 18 16) c s
      let s1 := if e = 48 then wr s0 .pwr 0 0x054 15 0 (rndDiv (c * 24000) 262144) else s0
      hmSample 12 ch sub c (refCheck ch c <| monStepList (wrAll s1 .monadc 0 (0x200 + 4 * e) (monResult s1 out c)))

/-- A flux readback is held against the code its output holds (R469): more than 2 mV off at two readbacks in a row, at one
level, is a DAC fault. A code of the DAC is 25/8 of the converter's. -/
def fluxReadback (o code : Nat) (s0 : State) : State :=
  let s := fluxCatch o s0
  let f := getFlux s o
  if !ptUp s .flx || f.holder || (calDrives s (80 + o) s.clk.tc).isSome then
    setMon { s.mon with fluxOff := s.mon.fluxOff.filter (fun e => decide (e.1 ≠ o)) } s
  else
    let bad := decide (2048 < |8 * ((code : Int) - 131072) - 25 * f.code|)
    let again := s.mon.fluxOff.contains (o, f.code)
    let s1 := setMon { s.mon with
      fluxOff := s.mon.fluxOff.filter (fun e => decide (e.1 ≠ o)) ++ (if bad then [(o, f.code)] else []) } s
    if bad && again then dacFaultAt (80 + o) s1 else s1

/-- HOUSEKEEPING_CONVERSION: the next of the four after entry LAST (R414). -/
def housekeeping (raw : BitVec 18) (s : State) : State :=
  let p := s.mon.pos
  if p < 64 then s
  else
    let next : State → State := fun t =>
      if p < 67 then setMon { t.mon with pos := p + 1 } t
      else wr (setMon { t.mon with pos := 0 } t) .monadc 0 0x044 31 16 ((rd t .monadc 0 0x044 31 16 + 1) % 65536)
    if p = 64 then
      let r := s.mon.ref
      let c := monCorrect s (57 + r) raw
      let s1 := wrAll s .monadc 0 (0xA00 + 4 * r) (monResult s false c)
      let s2 := setMon { s1.mon with ref := (r + 1) % 15 } s1
      next (hmSample 12 (57 + r) 0 c (refCheck (57 + r) c s2))
    else
      let n := s.mon.flx
      let c := monCorrect s (41 + n / 16) raw
      let s1 := wrAll s .monadc 0 (0x600 + 4 * n) (monResult s false c)
      let s2 := setMon { s1.mon with flx := (n + 1) % 256 } s1
      next (hmSample 12 (41 + n / 16) (n % 16) c (fluxReadback n c s2))

/-- An activation of urgent request k due at a tick (R416, R417): it becomes pending, merges, or is refused. -/
def urgActivate (k : Nat) (due : BitVec 48) (s : State) : State :=
  if s.mon.urg.any (fun e => decide (e.1 = k)) then raiseEvt .monadc 0 4 (bump s .monadc 0 0x054 15 0 1)
  else if !monOk (rd s .monadc 0 (urgOff k) 11 4) (rd s .monadc 0 (urgOff k) 3 0) then raiseEvt .monadc 0 5 s
  else setMon { s.mon with urg := s.mon.urg ++ [(k, due)] } s

/-- URGENT_CONVERSION: a pending request k, when no lower one is pending, samples 1 to 376 ticks after it became pending; the
result stands 377 ticks after the sample (R416). One whose URGk has become invalid ends with CFG_ERR (R417). -/
def urgentConversion (k : Nat) (raw : BitVec 18) (s : State) : State :=
  match s.mon.urg.find? (fun e => decide (e.1 = k)) with
  | none => s
  | some (_, a) =>
    let s0 := passTo (a + 1) s
    if s0.mon.urg.any (fun e => decide (e.1 < k) && decide (0 ≤ ticksTo e.2 s0.clk.tc)) then s
    else
      let at_ := if 376 < ticksTo a s0.clk.tc then a + 376 else s0.clk.tc
      let taken := setMon { s0.mon with urg := s0.mon.urg.filter (fun e => decide (e.1 ≠ k)) } s0
      let ch := rd s0 .monadc 0 (urgOff k) 11 4
      let sub := rd s0 .monadc 0 (urgOff k) 3 0
      if !monOk ch sub then raiseEvt .monadc 0 5 taken
      else
        let s1 := passTo (at_ + 377) taken
        let c := monCorrect s1 ch raw
        let (out, s2) := monCompare (0x80 + k) (rd s1 .monadc 0 (urgOff k) 18 16) c s1
        let s3 := wrAll s2 .monadc 0 (0x070 + 4 * k) (monResult s2 out c)
        hmSample 12 ch sub c (refCheck ch c <| wrAll s3 .monadc 0 (0x080 + 4 * k) (at_.toNat % 2 ^ 32))

/-! ## System calibration (R420) -/

def setScal (v : Nat) (s : State) : State := wr s .monadc 0 0x050 31 28 v
def scalFail (v : Nat) (s : State) : State := raiseEvt .monadc 0 7 (setScal v s)
def scalCh (s : State) : Nat := rd s .monadc 0 0x048 4 0

/-- ZERO. -/
def scalZero (s : State) : State :=
  if s.mon.run.isSome then scalFail 6 s else setScal 1 (setMon { s.mon with run := some (false, scalCh s) } s)

/-- FULL: refused without a ZERO_OK on the same channel. -/
def scalFull (s : State) : State :=
  if s.mon.run.isSome then scalFail 6 s
  else if s.mon.zeroOf ≠ some (scalCh s) then scalFail 4 s
  else setScal 1 (setMon { s.mon with run := some (true, scalCh s), zeroOf := none } s)

/-- SCAL_MEASURE_DONE: the rounded mean of the 256 raw codes. -/
def scalDone (mean : BitVec 18) (s : State) : State :=
  match s.mon.run with
  | none => s
  | some (false, ch) =>
    setScal 2 (wr (setMon { s.mon with run := none, zeroOf := some ch } s) .monadc 0 0x050 17 0 mean.toNat)
  | some (true, ch) =>
    let s1 := setMon { s.mon with run := none } s
    let z := rd s1 .monadc 0 0x050 17 0
    let f := mean.toNat
    let gain := rndDiv (rd s1 .monadc 0 0x048 31 14 * 2 ^ 18) (f - z)
    if f < z + 65536 ∨ 2 ^ 20 ≤ gain then scalFail 5 s1
    else
      let s2 := wrAll (wrAll s1 .monadc 0 (0x300 + 8 * ch) z) .monadc 0 (0x304 + 8 * ch) gain
      raiseEvt .monadc 0 6 (setScal 3 s2)

end Sys2Proof.Machine
end

