-- ==== Sys2Proof/Machine/Patterns.lean ====
section
/-! DEFINITION. Line coding and test patterns of a serial lane (R299, R300, R306). -/

namespace Sys2Proof.Machine

/-- The symbol of a pair of data bits, the earlier first, and back (R299). -/
def graySym (hi lo : Bool) : Nat := if hi then (if lo then 2 else 3) else b2n lo
def grayBits (g : Nat) : List Bool := [decide (2 ≤ g % 4), decide (g % 4 = 1 ∨ g % 4 = 2)]

/-- The level a symbol is sent as (R299). -/
def symLevel (g : Nat) : Int := 2 * ((g % 4 : Nat) : Int) - 3

/-- The swapped pair: symbol s as 3 − s (R299). -/
def swapPair (on : Bool) (g : Nat) : Nat := if on then 3 - g % 4 else g % 4

/-- Data bits as symbols, two a symbol; a last single bit waits for its partner. -/
def grayMap : List Bool → List Nat
  | a :: b :: r => graySym a b :: grayMap r
  | _ => []

/-- The 1/(1+D) mod 4 precoder from its last output on, and the decoder from the last symbol received on (R300). -/
def precode (p : Nat) : List Nat → List Nat
  | [] => []
  | g :: r => let q := (g + 4 - p % 4) % 4; q :: precode q r
def unprecode (p : Nat) : List Nat → List Nat
  | [] => []
  | q :: r => (q + p) % 4 :: unprecode q r

/-- The pattern a code selects: 8 to 15 act as 7 (R306). -/
def patCode (c : Nat) : Nat := min 7 c

/-- PRBS13Q and PRBS31Q, which are never precoded (R306). -/
def patQuat (c : Nat) : Bool := decide (6 ≤ c)

/-- The length of a pattern's register, and the delays whose bits make the next one (R306). -/
def patTaps (c : Nat) : Nat × List Nat :=
  match patCode c with
  | 0 => (7, [7, 6])
  | 1 => (9, [9, 5])
  | 2 => (13, [13, 12, 2, 1])
  | 3 => (15, [15, 14])
  | 4 => (23, [23, 18])
  | 5 => (31, [31, 28])
  | 6 => (13, [13, 12, 2, 1])
  | _ => (31, [31, 28])

/-- The bit that follows a history, its latest bit first: the checker's prediction, too (R306, R307). -/
def patNext (c : Nat) (h : List Bool) : Bool := (patTaps c).2.foldl (fun b d => xor b (h.getD (d - 1) false)) false

/-- The bits of a pattern that follow a history. -/
def patBits (c : Nat) : Nat → List Bool → List Bool
  | 0, _ => []
  | n + 1, h => let b := patNext c h; b :: patBits c n ((b :: h).take 31)

/-- Do a received bit and its predecessors, the latest first, match the checker's prediction (R307)? With INV every bit is
inverted. -/
def patMatches (c : Nat) (inv : Bool) (h : List Bool) (b : Bool) : Bool :=
  xor b inv == patNext c (h.map (fun x => xor x inv))

end Sys2Proof.Machine
end

