-- ==== Sys2Proof/Machine/Lanes.lean ====
section
/-! DEFINITION. Serial lanes (13_serial_lanes.md) and the state of the ports they make up (R65, R323, R351). A port is
0 EAST, 1 WEST, 2 H0, 3 H1; its physical lanes are 5p to 5p + 4. -/

namespace Sys2Proof.Machine

/-! ## Fields of LANE_STAT -/

def laneRole (s : State) (n : Nat) : Nat := rd s .lane n 0x04C 31 28
def setRole (n r : Nat) (s : State) : State := wr s .lane n 0x04C 31 28 r
def laneBit (s : State) (n i : Nat) : Bool := rdBit s .lane n 0x04C i
def setLaneBit (n i : Nat) (v : Bool) (s : State) : State := wr s .lane n 0x04C i i (b2n v)
def laneLock (s : State) (n : Nat) : Bool := laneBit s n 24

/-- The port of a physical lane. -/
def portOf (n : Nat) : Nat := n / 5

/-- PG_CTRL.ENABLE of a port's RING or HOST page. -/
def portOn (s : State) (p : Nat) : Bool := if p < 2 then enabled s .ring p else enabled s .host (p - 2)

/-- The physical lane that plays a role at a port. -/
def laneWith (s : State) (p role : Nat) : Option Nat := (List.range' (5 * p) 5).find? (fun n => decide (laneRole s n = role))

/-- A test source or a loopback is set (R308). -/
def laneTest (s : State) (n : Nat) : Bool :=
  let src := rd s .lane n 0x040 31 28
  (decide (1 ≤ src ∧ src ≤ 3)) || decide (rd s .lane n 0x040 27 26 ≠ 0)

/-- The ROLE that LANE_STAT shows (R308). -/
def roleShown (s : State) (n : Nat) : Nat := if !portOn s (portOf n) && laneTest s n then 7 else laneRole s n

/-- A lane has power: the unused logical lanes of a host port's mode have none, and at shed stage 3 neither has its spare
(R317, R340, R341). -/
def lanePowered (s : State) (n : Nat) : Bool :=
  let p := portOf n
  let used := match rd s .host (p - 2) 0x060 31 30 with
    | 0 => 4
    | 1 => 2
    | _ => 1
  decide (p < 2 ∨ laneRole s n < used ∨ 4 ≤ laneRole s n) &&
    !(decide (2 ≤ p ∧ 4 ≤ laneRole s n) && rdBit s .host (p - 2) 0x060 28)

/-- The receivers work: from the start-up phase in which they begin to acquire (R302). -/
def receiving (s : State) : Bool := alive s && !s.boot.dark && decide (6 ≤ phase s)

/-- Something happens at a receiver: not before it works. -/
def whenReceiving (f : State → State) (s : State) : State := if receiving s then f s else s

/-- LANE_CFG.LOOP (R310). -/
def laneLoop (s : State) (n : Nat) : Nat := rd s .lane n 0x040 27 26

/-- The receive lands count: no near-end loopback (R310). -/
def landsUsed (s : State) (n : Nat) : Bool := decide (laneLoop s n = 0 ∨ laneLoop s n = 3)

/-- Something happens at the receive lands of a lane that has power. -/
def whenPowered (n : Nat) (f : State → State) (s : State) : State := if lanePowered s n && landsUsed s n then f s else s

/-! ## What a lane sends and reads (R299, R300, R306, R309) -/

/-- What a lane's transmitter sends. -/
inductive TxSource where
  | native
  | prbs (code : Nat)
  | pattern
  | squelch
  /-- FAR_END: the received symbols. -/
  | far
  deriving DecidableEq, Repr

/-- The source of a lane: of an enabled port, an idle spare sends PRBS31Q whatever its TX_SRC, and the other lanes what the
port supplies (R302, R308 to R310). -/
def txSource (s : State) (n : Nat) : TxSource :=
  if portOn s (portOf n) then (if laneRole s n = 4 then .prbs 7 else .native)
  else if laneLoop s n = 3 then .far
  else match rd s .lane n 0x040 31 28 with
    | 1 => .prbs (patCode (rd s .lane n 0x058 3 0))
    | 2 => .pattern
    | 3 => .squelch
    | _ => .native

/-- The pattern a lane's checker expects: PRBS31Q on an idle spare of an enabled port (R309). -/
def chkCode (s : State) (n : Nat) : Nat :=
  if laneRole s n = 4 && portOn s (portOf n) then 7 else patCode (rd s .lane n 0x058 3 0)

/-- A source's symbols pass the precoder (R300, R306). -/
def precoded : TxSource → Bool
  | .prbs c => !patQuat c
  | _ => true

/-- The first bits of the pattern a lane's generator makes (R306). -/
def patSent (s : State) (n code k : Nat) : List Bool :=
  (patBits code k (Config.patSeed n)).map (fun b => xor b (rdBit s .lane n 0x058 5))

/-- The levels in which a lane sends bits of its source, from its precoder's last symbol on (R299, R300). -/
def txLevels (s : State) (n p : Nat) (bits : List Bool) : List Int :=
  let g := grayMap bits
  let g1 := if rdBit s .lane n 0x040 23 && precoded (txSource s n) then precode p g else g
  g1.map (fun x => symLevel (swapPair (rdBit s .lane n 0x040 21) x))

/-- The bits a lane reads from received symbols, from the last one before them on: as data, or for its checker (R299, R300,
R306). -/
def rxBits (s : State) (n p : Nat) (check : Bool) (syms : List Nat) : List Bool :=
  let inv := rdBit s .lane n 0x040 20
  let g := syms.map (swapPair inv)
  let g1 := if rdBit s .lane n 0x040 22 && !(check && patQuat (chkCode s n)) then unprecode (swapPair inv p) g else g
  g1.flatMap grayBits

/-- In NEAR_SERIAL the receiver reads its own transmitter's symbols right: both invert or neither does, and both precode or
neither does, unless the pattern is never precoded (R299, R300, R306, R310). -/
def loopClean (s : State) (n : Nat) : Bool :=
  decide (laneLoop s n = 2) ||
    ((rdBit s .lane n 0x040 20 == rdBit s .lane n 0x040 21) &&
      (!precoded (txSource s n) || (rdBit s .lane n 0x040 22 == rdBit s .lane n 0x040 23)))

/-- What the checker of a lane in a near-end loopback compares is its own generator's pattern (R310). -/
def loopPattern (s : State) (n : Nat) : Bool :=
  landsUsed s n || (loopClean s n && txSource s n == .prbs (chkCode s n))

/-- The source that LOCK_SRC looks for can reach the receiver: code 3 names none, and in a near-end loopback the lane's own
transmitter must send it (R310, R312). -/
def lockReaches (s : State) (n : Nat) : Bool :=
  let src := rd s .lane n 0x040 25 24
  decide (src ≠ 3) && (landsUsed s n || (loopClean s n &&
    (match txSource s n with
      | .native => decide (src = if portOf n < 2 then 0 else 1)
      | .pattern => decide (src = 2)
      | _ => false)))

/-! ## Ring ports and the bypass -/

/-- The bypass is closed. -/
def bypassClosed (s : State) : Bool := rdBit s .sys 0 0x05C 8

/-- RING_STAT.STATE. -/
def ringState (s : State) (r : Nat) : Nat := rd s .ring r 0x048 31 29

/-- A port is up (R323). -/
def ringUp (s : State) (r : Nat) : Bool := decide (ringState s r = 2 ∨ ringState s r = 3)

/-- A port counts as up for R65: up, or in its GRACE (R323). -/
def ringCounts (s : State) (r : Nat) : Bool := ringUp s r || decide (ringState s r = 1)

/-- Open or close the bypass as R65 says. A port that was up at the opening reacquires, and its grace follows its own
opening (R323). -/
def bypassUpdate (s : State) : State :=
  let open_ := ready s && !s.boot.dark && rdBit s .sys 0 0x05C 0 && !rdBit s .sys 0 0x05C 1 && ringCounts s 0 && ringCounts s 1
  if open_ && bypassClosed s then
    let s1 := wr s .sys 0 0x05C 8 8 0
    [0, 1].foldl (fun t r => setRPort t r { getRPort t r with own := true }) s1
  else if !open_ && !bypassClosed s then
    let s1 := wr s .sys 0 0x05C 8 8 1
    [0, 1].foldl (fun t r => setRPort t r { getRPort t r with own := false }) s1
  else s

/-- The logical lanes of a port that hold LOCK, as a mask. -/
def lockMask (s : State) (p : Nat) : Nat :=
  (List.range 4).foldl (fun m k => m + (match laneWith s p k with
    | some n => if laneLock s n then 2 ^ k else 0
    | none => 0)) 0

/-- The logical lanes of a ring port that hold LOCK with LOCK_SRC FRAME. -/
def frameLanes (s : State) (p : Nat) : Nat :=
  ((List.range 4).filter (fun k => match laneWith s p k with
    | some n => laneLock s n && decide (rd s .lane n 0x040 25 24 = 0)
    | none => false)).length

/-- Bring a ring port's state up to date (R323). -/
def ringRefresh (r : Nat) (s : State) : State :=
  let x := getRPort s r
  let old := ringState s r
  let lanes := frameLanes s r
  let s0 := wr s .ring r 0x048 27 24 (lockMask s r)
  let clash := x.cable || x.conflict
  let put (v : Nat) (y : RPort) (t : State) : State := wr (setRPort t r y) .ring r 0x048 31 29 v
  let s1 :=
    if !enabled s0 .ring r then put 4 { x with wasUp := false, grace := false } s0
    else if 3 ≤ lanes && !clash then
      let t := put (if lanes = 3 then 3 else 2) { x with wasUp := true, grace := false, own := x.own && !x.grace } s0
      if lanes = 3 && decide (old ≠ 3) then raiseEvt .ring r 3 t else t
    else if x.wasUp && clash then raiseFault .ring r 0 (put 0 { x with wasUp := false, grace := false } s0)
    else if x.wasUp then put 1 { x with grace := true } s0
    else put 0 x s0
  bypassUpdate s1

/-- GRACE_EXPIRY: the reacquiring port is down, and the bypass closes (R323, R65). -/
def graceExpiry (r : Nat) (s : State) : State :=
  let x := getRPort s r
  if !x.grace || ringUp s r then s
  else
    let s1 := wr (setRPort s r { x with wasUp := false, grace := false }) .ring r 0x048 31 29 0
    let s2 := raiseFault .ring r 0 s1
    bypassUpdate (raiseFaultIf (x.own && !bypassClosed s) .ring r 4 s2)

/-! ## Host ports -/

/-- The PHY mode asked for by HOST_CFG.MODE: 3 acts as 2 (R351). -/
def hostMode (s : State) (h : Nat) : Nat := min 2 (rd s .host h 0x040 1 0)

/-- The logical lanes of a mode (R340). -/
def modeLanes : Nat → Nat
  | 0 => 4
  | 1 => 2
  | _ => 1

/-- The FEC counters of a port count from its first link-up on. -/
def fecFrom (s : State) (h : Nat) : Option (BitVec 48) := mapGet (fun _ => none) s.fecs h
def setFecFrom (h : Nat) (t : Option (BitVec 48)) (s : State) : State := { s with fecs := mapSet (fun _ => none) s.fecs h t }
def fecBegin (h : Nat) (s : State) : State := if (fecFrom s h).isNone then setFecFrom h (some s.clk.tc) s else s

/-- Corrected and uncorrectable codewords counted beside what the registers hold: they come from the lanes (R351,
log 104). -/
def fecRun (s : State) (h : Nat) : Nat × Nat :=
  match fecFrom s h with
  | some t =>
    let hits (k : Nat) : Nat :=
      ((List.range (ticksTo t s.clk.tc).toNat).filter (fun i => decide (Config.fecAt h (t + BitVec.ofNat 48 i) % 3 = k))).length
    (hits 1, hits 2)
  | none => (0, 0)

/-- FEC_CORR and FEC_UNCORR as they read. -/
def fecCorr (s : State) (h : Nat) : Nat := (rdPair s .host h 0x064 + (fecRun s h).1) % 2 ^ 48
def fecUncorr (s : State) (h : Nat) : Nat := min ((reg s .host h 0x06C).toNat + (fecRun s h).2) 0xFFFFFFFF

/-- FEC_UNCORR is written: it counts on from the value written. -/
def fecWrite (h : Nat) (v : Word) (s : State) : State :=
  setFecFrom h ((fecFrom s h).map (fun _ => s.clk.tc)) (wrAll (wrPair s .host h 0x064 (fecCorr s h)) .host h 0x06C v.toNat)

/-- Bring HOST_STAT up to date: lanes with LOCK, and LINK once every lane of the mode in force holds it. -/
def hostRefresh (h : Nat) (s : State) : State :=
  let p := h + 2
  let mask := lockMask s p
  let k := modeLanes (rd s .host h 0x060 31 30)
  let link := decide (mask % 2 ^ k = 2 ^ k - 1)
  let was := rdBit s .host h 0x060 29
  let s1 := wr (wr s .host h 0x060 27 24 mask) .host h 0x060 29 29 (b2n link)
  if link && !was then raiseEvt .host h 0 (fecBegin h s1) else if !link && was then raiseEvt .host h 1 s1 else s1

/-- A port's lanes have changed. -/
def portRefresh (p : Nat) (s : State) : State :=
  if p < 2 then ringRefresh p s else if p < 4 then hostRefresh (p - 2) s else s

/-! ## Signal, adaptation, alignment -/

/-- LOS (R304). -/
def los (n : Nat) : State → State := whenPowered n fun s =>
  let s1 := [27, 26, 25, 24].foldl (fun t i => setLaneBit n i false t) s
  portRefresh (portOf n) (raiseEvt .lane n 0 s1)

/-- SIGNAL_RETURN (R304). -/
def signalReturn (n : Nat) (s : State) : State := whenPowered n (setLaneBit n 27 true) s

/-- SNR at or above SNR_MIN, which counts 0.1 dB (R302, R305). -/
def snrOk (s : State) (n snr : Nat) : Bool := decide (10 * rd s .lane n 0x040 15 8 ≤ snr)

/-- RX_READY: clock recovery locked and the receiver adapted (R302). NEAR_SERIAL needs no signal at the lands, and
NEAR_PARALLEL bypasses the adaptation (R310). -/
def rxReady (n snr : Nat) (s : State) : State :=
  if laneLoop s n = 2 || !(laneBit s n 27 || decide (laneLoop s n = 1)) || !lanePowered s n then s
  else setLaneBit n 25 (snrOk s n snr) (setLaneBit n 26 true (wr s .lane n 0x054 15 0 snr))

/-- RX_READY follows SNR_MIN: adapted, with the SNR last measured (R302). -/
def readyRefresh (n : Nat) (s : State) : State :=
  setLaneBit n 25 (laneBit s n 26 && snrOk s n (rd s .lane n 0x054 15 0)) s

/-- RESTART: the coefficients are discarded and the receiver acquires from the start (R304). -/
def restart (n : Nat) (s : State) : State :=
  portRefresh (portOf n) ([26, 25, 24].foldl (fun t i => setLaneBit n i false t) s)

/-- One symbol's slip: SLIP_POS modulo 64, and LOCK clears (R311). -/
def slipOne (n : Nat) (s : State) : State :=
  portRefresh (portOf n) (setLaneBit n 24 false (wr s .lane n 0x04C 5 0 ((rd s .lane n 0x04C 5 0 + 1) % 64)))

/-- SLIP: refused while the lane carries a logical lane of an enabled port (R311). -/
def slip (n : Nat) (s : State) : State :=
  if portOn s (portOf n) && decide (laneRole s n < 4) then raiseEvt .lane n 1 s else slipOne n s

/-- AUTO_ALIGN_SLIP (R323). -/
def autoAlignSlip (n : Nat) (s : State) : State :=
  if portOf n < 2 && portOn s (portOf n) && rdBit s .ring (portOf n) 0x044 6 && !laneLock s n then slipOne n s else s

/-- LOCK_ACQUIRE: never with LOCK_SRC 3, nor where the source looked for does not reach the receiver (R310, R312). -/
def lockAcquire (n : Nat) (s : State) : State :=
  if !lockReaches s n || !lanePowered s n then s else portRefresh (portOf n) (setLaneBit n 24 true s)

/-- LOCK_LOSS (R312). -/
def lockLoss (n : Nat) (s : State) : State := portRefresh (portOf n) (setLaneBit n 24 false s)

/-- Count one SNR report of the present second; the first below SNR_MIN in it is an indicator event (R450). -/
def countSecond (n : Nat) (low : Bool) (s : State) : State :=
  let x := mapGet (fun _ => ((0, false) : Nat × Bool)) s.laneSec n
  let hit := low && !x.2
  let y : Nat × Bool := if x.1 + 1 = 1000 then (0, false) else (x.1 + 1, x.2 || low)
  let s1 := { s with laneSec := mapSet (fun _ => ((0, false) : Nat × Bool)) s.laneSec n y }
  if hit then addWear 3 n 0 1 s1 else s1

/-- LANE_SNR_UPDATE: every 1 ms (R305). In NEAR_PARALLEL loopback both figures hold (R310). -/
def laneSnrUpdate (n snr : Nat) (eye : Word) (s : State) : State :=
  if laneLoop s n = 2 || !lanePowered s n then s
  else
    let s1 := setReg (wr s .lane n 0x054 15 0 snr) (addrOf .lane n 0x050) eye
    let ok := snrOk s1 n snr
    let s2 := setLaneBit n 25 (ok && laneBit s1 n 26) s1
    let s3 := raiseEvtIf (!ok) .lane n 2 s2
    hmSample 1 n 0 snr (countSecond n (!ok) s3)

/-! ## Patterns -/

/-- The checker works: switched on, or an idle spare of an enabled port (R309). -/
def checking (s : State) (n : Nat) : Bool :=
  rdBit s .lane n 0x058 4 || (decide (laneRole s n = 4) && portOn s (portOf n))

/-- The tick from which a lane's locked checker counts, and counting anew from now. -/
def prbsBase (s : State) (n : Nat) : BitVec 48 := mapGet (fun _ => 0) s.prbsFrom n
def prbsNow (n : Nat) (s : State) : State := { s with prbsFrom := mapSet (fun _ => 0) s.prbsFrom n s.clk.tc }

/-- Bits compared and wrong that a locked checker has counted and its counters show beside what they hold: 106.25 Gb/s, at
most 64 of a tick's bits wrong while it stays locked, and none in NEAR_PARALLEL (R307, R310). Which are wrong comes from the
lane, so it is free (log 104). -/
def prbsRun (s : State) (n : Nat) : Nat × Nat :=
  if laneBit s n 23 then
    let k := (ticksTo (prbsBase s n) s.clk.tc).toNat
    (425 * k / 3, if laneLoop s n = 2 then 0
      else ((List.range k).map (fun i => Config.laneErrs n (prbsBase s n + BitVec.ofNat 48 i) % 65)).sum)
  else (0, 0)

/-- PRBS_ERR and PRBS_BITS as they read. -/
def prbsErr (s : State) (n : Nat) : Nat := min ((reg s .lane n 0x05C).toNat + (prbsRun s n).2) 0xFFFFFFFF
def prbsBits (s : State) (n : Nat) : Nat := (rdPair s .lane n 0x060 + (prbsRun s n).1) % 2 ^ 48

/-- PRBS_CLR (R307). -/
def prbsClr (n : Nat) (s : State) : State :=
  prbsNow n ([0x05C, 0x060, 0x064].foldl (fun t o => wrAll t .lane n o 0) (wr s .lane n 0x068 15 0 0))

/-- PRBS_LOCK (R307). -/
def prbsLock (n : Nat) (s : State) : State :=
  if checking s n && lanePowered s n && loopPattern s n && !laneBit s n 23 then prbsNow n (setLaneBit n 23 true s) else s

/-- Add compared bits to the 48-bit count; past its end the spec gives no value (log 9). -/
def addBits (n bits : Nat) (s : State) : State :=
  let v := rdPair s .lane n 0x060 + bits
  if v < 2 ^ 48 then wrPair s .lane n 0x060 v
  else wrPair { s with free := s.free + 1 } .lane n 0x060 (Config.free s.free % 2 ^ 48)

/-- PRBS_ERR is written: what has been compared counts, the errors go on from the value written. -/
def prbsErrWrite (n : Nat) (v : Word) (s : State) : State :=
  prbsNow n (wrAll (addBits n (prbsRun s n).1 s) .lane n 0x05C v.toNat)

/-- What the checker has counted goes into the counters, of which at least some bits and errors: the counting goes on from
now. -/
def prbsSettle (n bits errs : Nat) (s : State) : State :=
  let run := prbsRun s n
  prbsNow n (bump (addBits n (max run.1 bits) s) .lane n 0x05C 31 0 (max run.2 errs))

/-- The checker stops: its counters keep what it counted (log 104). -/
def prbsStop (n : Nat) (s : State) : State :=
  if laneBit s n 23 then setLaneBit n 23 false (prbsSettle n 0 0 s) else s

/-- A lane whose checker no longer works, or no longer gets its pattern, stops it (R306, R309, R310). -/
def prbsFollow (s : State) (n : Nat) : State :=
  if checking s n && lanePowered s n && loopPattern s n then s else prbsStop n s

/-- The checkers of a port follow its lanes. -/
def portPrbs (p : Nat) (s : State) : State := (List.range' (5 * p) 5).foldl prbsFollow s

/-- A lane's settings change: what has been compared counts under the old ones, and another pattern or polarity is a new
search (log 104). -/
def laneChange (n : Nat) (f : State → State) (s : State) : State :=
  let s1 := f (if laneBit s n 23 then prbsSettle n 0 0 s else s)
  if chkCode s1 n = chkCode s n && (rdBit s1 .lane n 0x058 5 == rdBit s .lane n 0x058 5) then prbsFollow s1 n
  else prbsStop n s1

/-- PRBS_UNLOCK: a window of at most 1,024 bits ends now with more than 64 wrong ones; what it holds since the counters were
last set counts, and the checker drops the lock (R307). -/
def prbsUnlock (n bits errs : Nat) (s : State) : State :=
  if !laneBit s n 23 || laneLoop s n = 2 || decide (errs ≤ 64 ∨ bits < errs ∨ 1024 < bits) then s
  else
    let s1 := prbsSettle n bits errs s
    raiseEvt .lane n 3 (bump (setLaneBit n 23 false s1) .lane n 0x068 15 0 1)

/-! ## Substitution (R314 to R317) -/

def getSwap (s : State) (p : Nat) : Option Swap := (s.swaps.find? (fun e => decide (e.1 = p))).map (·.2)
def setSwap (p : Nat) (x : Swap) (s : State) : State :=
  { s with swaps := (s.swaps.filter (fun e => decide (e.1 ≠ p))) ++ [(p, x)] }
def endSwap (p : Nat) (s : State) : State := { s with swaps := s.swaps.filter (fun e => decide (e.1 ≠ p)) }

/-- Send a lane-management message: in the framing words of a ring port, or as a LANE_MGMT frame to the broadcast
address of a host port (R326). -/
def sendLmsg (p code lane cause : Nat) (s : State) : State :=
  let v := code + lane * 16 + cause * 64
  let s1 := { s with lmsgs := mapSet (fun _ => 0) s.lmsgs p v }
  if p < 2 || !portOn s p then s1
  else daxkaSend (p - 2) (2 ^ 48 - 1) 0x0A 2 0 0 (leBytes v 4) s1

/-- May logical lane k of port p be exchanged now: in service, in normal use, with an idle spare (R315)? -/
def swapReady_ (s : State) (p k : Nat) : Option (Nat × Nat) :=
  match laneWith s p k, laneWith s p 4 with
  | some n, some m => if laneTest s n then none else some (n, m)
  | _, _ => none

/-- The idle spare's counters approve it before a substitution: below the ratio of R317 always, else as no rule says
(R309, log 104). -/
def spareApproved (s : State) (m : Nat) : Bool :=
  decide (prbsErr s m * 10 ^ 12 ≤ prbsBits s m) || Config.spareFit (prbsErr s m) (prbsBits s m)

/-- Bridge logical lane k onto the idle spare (R314 step 2). -/
def bridge (p k : Nat) (mine : Bool) (s : State) : State :=
  match swapReady_ s p k with
  | none => s
  | some (_, m) => portPrbs p <| setRole m 5 (setSwap p { lane := k, mine := mine } s)

/-- Stop bridging and keep lane k. -/
def unbridge (p : Nat) (s : State) : State :=
  let s1 := match laneWith s p 5 with
    | some m => portPrbs p (setRole m 4 s)
    | none => s
  endSwap p s1

/-- A substitution ends in SWAP_ABORT at this end (R314, R315). -/
def abortSwap (p k : Nat) (s : State) : State :=
  let s1 := unbridge p s
  match laneWith s1 p k with
  | none => s1
  | some n =>
    let s2 := { s1 with subs := s1.subs.filter (fun u => decide (u ≠ { kind := 3, inst := n, unit := 0 })) }
    let s3 := if rd s2 .lane n 0x020 3 0 = 1 then setSpareState 3 n 0 s2 else s2
    raiseEvt .lane n 5 (bump s3 .lane n 0x080 15 0 1)

/-- A substitution starts at a shot boundary, or when no shot runs (R314). -/
def swapTime (s : State) : Bool :=
  (List.range 8).any (fun g => (getGroup s g).boundary) || (List.range 8).all (fun g => !(getGroup s g).running)

/-- A lane's receiver has a signal at its lands and its clock recovery is locked. -/
def rxLive (s : State) (m : Nat) : Bool := lanePowered s m && landsUsed s m && laneBit s m 27 && laneBit s m 26

/-- The receiver has found the word boundary of a lane itself: which of the 64 positions it is, is free (R314, R316,
log 104). It holds LOCK there to the port's framing or markers, where LOCK_SRC looks for them (R312). -/
def selfAlign (m : Nat) (s : State) : State :=
  let (k, s1) := freeDraw s
  setLaneBit m 24 (decide (rd s .lane m 0x040 25 24 < 2)) (wr s1 .lane m 0x04C 5 0 (k % 64))

/-- The idle lane m takes over logical lane k from lane n: a substitution, or a return to lane m when m had been
substituted before (R314 step 4, R317). -/
def takeOver (p k n m : Nat) (nRole : Nat) (s : State) : State :=
  let s1 := setRole m k (setRole n nRole (endSwap p s))
  let s2 := bump s1 .lane n 0x080 31 16 1
  let s3 :=
    if rd s2 .lane m 0x020 3 0 = 2 && decide (rd s2 .lane m 0x020 27 16 = n) then
      let t := wr (setSpareState 3 m 0 s2) .lane m 0x020 27 16 0
      wr t .spare 0 (0x080 + 4 * 3) 15 0 (rd t .spare 0 (0x080 + 4 * 3) 15 0 + 1)
    else finishSub 3 1 n 0 m (wr (wr s2 .lane n 0x020 3 0 2) .lane n 0x020 27 16 m)
  portPrbs p (portRefresh p s3)

/-- Both conditions of R314 step 4 hold: the lane is exchanged. -/
def finishSwap (p : Nat) (s : State) : State :=
  match getSwap s p with
  | none => s
  | some x =>
    if !(x.switched && x.ready) then s
    else match laneWith s p x.lane, laneWith s p 5 with
      | some n, some m => raiseEvt .lane n 4 (takeOver p x.lane n m 4 s)
      | _, _ => endSwap p s

/-- SWAP_START: by policy or FORCE_SPARE for lane n, or by FORCE_PRIMARY for an idle lane that had been substituted
(R314, R317). -/
def swapStart (n : Nat) (s : State) : State :=
  let p := portOf n
  let role := laneRole s n
  let sel := spareSel s 3 n
  let wanted := decide (sel = 1) || s.subs.contains { kind := 3, inst := n, unit := 0 }
  if (getSwap s p).isSome || !swapTime s then s
  else if role < 4 && wanted then
    if laneTest s n then abortSwap p role s
    else if (match swapReady_ s p role with
        | some (_, m) => laneRole s (5 * p + 4) = 4 && lanePowered s m && spareApproved s m
        | none => false) then sendLmsg p 1 role 0 (bridge p role true s)
    else raiseFault .spare 0 0 (setSpareState 3 n 3 s)
  else if role = 4 && decide (sel = 2) && decide (rd s .lane n 0x020 3 0 = 2) &&
      decide (prbsErr s n * 10 ^ 12 < prbsBits s n) then
    let k := laneRole s (rd s .lane n 0x020 27 16)
    if (swapReady_ s p k).isSome then sendLmsg p 1 k 0 (bridge p k true s) else abortSwap p k s
  else s

/-- SWAP_REQ received (R314, R315). -/
def swapReq (p k : Nat) (s : State) : State :=
  match getSwap s p with
  | some x =>
    if x.lane = k || !x.mine || decide (x.lane < k) then s
    else if (laneWith s p k).all (laneTest s) then sendLmsg p 4 k 3 s
    else bridge p k false (abortSwap p x.lane s)
  | none => if (swapReady_ s p k).isSome then bridge p k false s else sendLmsg p 4 k 3 s

/-- SWAP_READY received. -/
def swapReady (p : Nat) (s : State) : State :=
  match getSwap s p with
  | none => s
  | some x => finishSwap p (setSwap p { x with ready := true } s)

/-- SWAP_SWITCH: this receiver takes its input from the spare and says so (R314 step 3). -/
def swapSwitch (p : Nat) (s : State) : State :=
  match getSwap s p with
  | none => s
  | some x =>
    match laneWith s p 5 with
    | none => s
    | some m =>
      if x.abrupt || !rxLive s m then s
      else finishSwap p (sendLmsg p 3 x.lane 0 (setSwap p { x with switched := true } (selfAlign m s)))

/-- SWAP_ABORT received (R315). -/
def swapAbort (p : Nat) (s : State) : State :=
  match getSwap s p with
  | none => s
  | some x => if x.mine then abortSwap p x.lane s else unbridge p s

/-- SWAP_TIMEOUT: not complete within 10 ms, or the skew out of range (R314). -/
def swapTimeout (p : Nat) (skew : Bool) (s : State) : State :=
  match getSwap s p with
  | none => s
  | some x =>
    if x.abrupt then s
    else if x.mine then sendLmsg p 4 x.lane (if skew then 2 else 1) (abortSwap p x.lane s)
    else unbridge p s

/-- The logical lane moves to the spare only (R316). -/
def abrupt (p k : Nat) (mine : Bool) (s : State) : State :=
  match laneWith s p k, laneWith s p 4 with
  | some n, some m => portPrbs p (setRole m 5 (setRole n 6 (setSwap p { lane := k, mine := mine, abrupt := true } s)))
  | _, _ => s

/-- LANE_FAIL (R316, R317). -/
def laneFail (n : Nat) (s : State) : State :=
  let p := portOf n
  let k := laneRole s n
  if 4 ≤ k || !portOn s p || !lanePowered s n || (laneBit s n 26 && laneLock s n) then s
  else
    let s1 := raiseFault .lane n 0 s
    let s1 := match getSwap s1 p with
      | some x => if x.abrupt then s1 else unbridge p s1
      | none => s1
    let s2 := if ptUp s1 .spare && decide ((getWear s1 (wearKey 3 n 0)).st < 2) then noteWear 3 n 0 2 1 s1 else s1
    if laneRole s2 (5 * p + 4) ≠ 4 || !lanePowered s2 (5 * p + 4) then setSpareState 3 n 3 s2
    else if spareSel s2 3 n = 3 then s2
    else sendLmsg p 2 k 0 (abrupt p k true s2)

/-- SWAP_REQ marked ABRUPT received (R316). -/
def swapReqAbrupt (p k : Nat) (s : State) : State :=
  match getSwap s p with
  | some x => if x.abrupt then s else abrupt p k false (unbridge p s)
  | none => abrupt p k false s

/-- ABRUPT_SWITCH: this receiver takes its input from the spare (R316). -/
def abruptSwitch (p : Nat) (s : State) : State :=
  match getSwap s p, laneWith s p 5, laneWith s p 6 with
  | some x, some m, some n =>
    if x.abrupt && rxLive s m && decide (rd s .lane m 0x040 25 24 < 2) then takeOver p x.lane n m 6 (selfAlign m s) else s
  | _, _, _ => s

/-! ## Host PHY modes (R340, R341) -/

/-- A host port changes to a PHY mode: its lanes restart, and unused logical lanes power down. -/
def hostEnterMode (h mode : Nat) (s : State) : State :=
  let p := h + 2
  let s1 := wr s .host h 0x060 31 30 mode
  let drop (t : State) (n : Nat) : State := [26, 25, 24].foldl (fun u i => setLaneBit n i false u) t
  let idle (t : State) (n : Nat) : State := if lanePowered t n then t else prbsStop n (setLaneBit n 27 false t)
  hostRefresh h ((List.range' (5 * p) 5).foldl idle ((List.range' (5 * p) 5).foldl drop s1))

/-- HOST_MODE_WRITE: while stage 3 holds the port at 100GBASE-KR1 the new mode waits (R341). -/
def hostModeWrite (h mode : Nat) (s : State) : State :=
  let s1 := wr s .host h 0x040 1 0 mode
  hostEnterMode h (if rdBit s1 .host h 0x060 28 then 2 else hostMode s1 h) s1

/-- LINK_FAIL: LINK lost for more than 1 s (R351). -/
def linkFail (h : Nat) (s : State) : State :=
  if enabled s .host h && !rdBit s .host h 0x060 29 then raiseFault .host h 0 s else s

/-- RELEASE and STAND_ASIDE of SYS.BYPASS (R65, R322). -/
def releaseWrite (on : Bool) (s : State) : State := bypassUpdate (wr s .sys 0 0x05C 0 0 (b2n on))
def standAsideWrite (on : Bool) (s : State) : State := bypassUpdate (wr s .sys 0 0x05C 1 1 (b2n on))

end Sys2Proof.Machine
end

