-- ==== Sys2Proof/Machine/Mortar.lean ====
section
/-! DEFINITION. The Mortar decoder (10_decoder.md): streams, detection events, windows, seams, tiles. -/

namespace Sys2Proof.Machine

def setMort (x : Mort) (s : State) : State := { s with mort := x }

/-- MORT_STAT.STATE. -/
def setMortState (v : Nat) (s : State) : State := wr s .mortar 0 0x070 31 29 v

def rndCount (s : State) : Nat := rd s .mortar 0 0x04C 15 0
def rndPeriod (s : State) : Nat := rd s .mortar 0 0x048 23 0
def closeLag (s : State) : Nat := rd s .mortar 0 0x050 15 0

/-- C(r), counted from the opening (R225). -/
def roundTick (s : State) (r : Nat) : Nat := rd s .mortar 0 0x044 23 0 + r * rndPeriod s

/-- A tick of the stream's shot, as a tick count. -/
def mortTick (s : State) (t : Nat) : BitVec 48 := s.mort.t0 + BitVec.ofNat 48 t

/-- The round that an input due u ticks after the opening belongs to (R226). -/
def roundOf (s : State) (u : Nat) : Nat :=
  let c := rd s .mortar 0 0x044 23 0
  if u ≤ c then 0 else (u - c + (rndPeriod s - 1)) / rndPeriod s

/-! ## Seam links (R243): 0 EAST, 1 WEST -/

def seamEn (s : State) (l : Nat) : Bool := rdBit s .mortar 0 0x054 l
def seamNode (s : State) (l : Nat) : Nat := if l = 0 then rd s .mortar 0 0x054 20 16 else rd s .mortar 0 0x054 25 21
def seamHops (s : State) (l : Nat) : Nat :=
  max 1 (if l = 0 then rd s .mortar 0 0x054 11 8 else rd s .mortar 0 0x054 15 12)
def seamOwner (s : State) (l : Nat) : Bool := seamEn s l && decide (ringAddr s < seamNode s l)

/-- The blocks of 128 positions that hold a detector of a kind on a link, up to the highest SIDX in use (R243). -/
def seamBlocks (g : Bytes) (kind l : Nat) : Nat :=
  let xs := (gDets g).filter (fun e => decide (detKind e.2 = kind ∧ detLink e.2 = l))
  (xs.map (fun e => detSidx e.2 / 128 + 1)).foldl max 0

/-! ## Stream start and end -/

/-- A tile serves a detector column: not while its page is disabled (R251, R481). -/
def tileServes (s : State) (t : Nat) : Bool := rdBit s .tile t 0x040 27 && enabled s .tile t

/-- Some tile in service decodes a column (R247, R481). -/
def columnServed (s : State) (c : Nat) : Bool :=
  tileServes s c || (tileServes s 16 && decide (rd s .tile 16 0x040 31 28 = c))

/-- The conditions of R241. -/
def streamOk (s : State) : Bool :=
  decide (450 ≤ rndPeriod s) && decide (900 ≤ gK s.stores * rndPeriod s) &&
  [0, 1].all (fun l => !seamOwner s l || decide (1 + 48 * seamHops s l ≤ closeLag s)) &&
  decide (rd s .mortar 0 0x06C 10 0 ≠ 0) && !s.graphBad &&
  (List.range 16).all (columnServed s) && enabled s .mortar 0

/-- The observables selected in OBS_USE. -/
def obsUse (s : State) : List Nat :=
  (List.range 64).filter (fun o => rdBit s .mortar 0 (0x058 + 4 * (o / 32)) (o % 32))

/-- Clear an observable's bit. -/
def clearObs (s : State) (o : Nat) : State := wr s .ladle 0 (0x080 + 4 * (o / 32)) (o % 32) (o % 32) 0

/-- A stream's work goes on: from its start to its shot's closing (R225). -/
def mortLive (s : State) : Bool := s.mort.run || decide (0 < s.mort.issued)

/-- Tick 0 of a shot of MORT_CFG.GROUP: a stream starts, or is refused (R225, R234, R241). -/
def mortarOpen (g : Nat) (s : State) : State :=
  if !ptUp s .mortar || decide (rd s .mortar 0 0x040 2 0 ≠ g) || !rdBit s .mortar 0 0x040 4 || decide (rndCount s = 0)
  then s
  else if !streamOk s then tagShot g tagFrame (raiseEvt .mortar 0 7 (setMortState 3 s))
  else
    let s1 := setMort { run := true, group := g, t0 := (getGroup s g).t0 } s
    let s2 := wr (wr (setMortState 1 s1) .mortar 0 0x070 23 16 0) .mortar 0 0x070 15 0 0
    let s3 := ladleCatch s2
    let use := obsUse s3
    if !ladleOn s3 then s3
    else evalNext ((use.map (fun o => (o, true))).foldl setObsPend (use.foldl clearObs s3))

/-- The closing of the stream's shot, the rounds completed before having been looked at: what is not applied is abandoned
(R225, R235). -/
def closeStream (g : Nat) (s : State) : State :=
  if !mortLive s || s.mort.group ≠ g then s
  else
    let now := s.clk.tc
    let unapplied := s.mort.run || decide (ticksTo now (s.mort.lastX + 4) > 0)
    let s1 := setMort {} s
    if !unapplied then s1
    else
      let keep (i : Item) : Bool := match i.load with
        | .frame own _ _ _ => !own || decide (dueIn i.stamp now ≤ 0)
        | _ => true
      let s2 := { s1 with items := s1.items.filter keep }
      let s3 := ladleCatch (if s.mort.run then setMortState 0 s2 else s2)
      let s4 := evalNext (((obsUse s3).map (fun o => (o, false))).foldl setObsPend s3)
      fireLine 125 now false (tagShot g tagFrame (raiseEvt .mortar 0 1 s4))

/-! ## Detection events -/

/-- An input the stream does not take (R226). -/
def stray (s : State) : State := raiseEvt .mortar 0 4 (bump s .mortar 0 0x078 15 0 1)

/-- DETECTION_INPUT_DUE (R226, R228). -/
def detectionInputDue (slot : Nat) (s : State) : State :=
  let isIt (p : Payload) : Bool := match p with
    | .det k _ _ => decide (k = slot)
    | _ => false
  deliver isIt
    (fun i t =>
      if !mortLive t then t
      else
        let r := roundOf t (ticksTo t.mort.t0 (t.clk.tc)).toNat
        match detOf t.stores slot, i.load with
        | some d, .det _ _ st => if r < rndCount t then setMort { t.mort with ins := t.mort.ins ++ [(r, d.1, st)] } t else stray t
        | _, _ => stray t)
    (fun i t => tagItem i (tagLate ||| tagFrame) (raiseEvt .mortar 0 0 t)) (fun _ t => t) s

/-- Seam blocks of a link and round that have not come by the round's completion (R244). -/
def missBlocks (s0 : State) (e : Nat × Nat) : State :=
  let (l, r) := e
  if !seamOwner s0 l then s0
  else (List.range (seamBlocks s0.stores 2 l)).foldl (fun s b =>
    if s.mort.blocks.contains (l, r, b) then s
    else
      let s1 := setMort { s.mort with blocks := s.mort.blocks ++ [(l, r, b)] } s
      tagShot s1.mort.group tagFrame (raiseEvt .mortar 0 5 (bump s1 .mortar 0 0x07C 15 0 1))) s0

/-- The seam blocks of the rounds up to n that have been complete for at least `past` ticks are given up, each round once
(R244). -/
def seamCatchTo (past : Nat) : Nat → State → State
  | 0, s => s
  | n + 1, s =>
    let r := s.mort.seen
    if !s.mort.run || decide (rndCount s ≤ r) ||
        decide (ticksTo (mortTick s (roundTick s r + closeLag s)) s.clk.tc < (past : Int)) then s
    else seamCatchTo past n ([(0, r), (1, r)].foldl missBlocks (setMort { s.mort with seen := r + 1 } s))

/-- Rounds completed before this tick are looked at. -/
def seamCatch (s : State) : State := seamCatchTo 1 (rndCount s) s

/-- SHOT_CLOSE at Mortar. -/
def mortarClose (g : Nat) (s : State) : State := closeStream g (seamCatch s)

/-- Toggle an event (R227, R230 step 5). -/
def toggleEvent (n : Nat × Nat) (es : List (Nat × Nat)) : List (Nat × Nat) := toggleNode n es

/-- A round's event of one LOCAL or FORWARD detector, and its s afterwards (R227). -/
def formEvent (r : Nat) (s : State) (e : Nat × Nat) : State :=
  let (d, x) := e
  let got := s.mort.ins.filter (fun i => decide (i.1 = r ∧ i.2.1 = d))
  let extra := got.length - 1
  let s1 := if extra = 0 then s else raiseEvt .mortar 0 3 (bump s .mortar 0 0x078 31 16 extra)
  let missing (t : State) : State :=
    tagShot t.mort.group tagFrame (raiseEvt .mortar 0 2 (bump t .mortar 0 0x074 31 16 1))
  match got with
  | [] => missing s1
  | i :: _ =>
    let st := i.2.2
    if 2 ≤ st then missing (bump s1 .mortar 0 0x074 15 0 1)
    else
      let old := s1.mort.refs.contains d
      let q := decide (st = 1)
      let ev := if r = 0 && detExcl0 x then false else xor q old
      let refs := if q then (if old then s1.mort.refs else s1.mort.refs ++ [d]) else s1.mort.refs.filter (fun k => decide (k ≠ d))
      setMort { s1.mort with
        refs := refs
        events := if ev then toggleEvent (r, d) s1.mort.events else s1.mort.events } s1

/-- Forward a round's events of the FORWARD detectors on a link (R243). -/
def forwardRound (r : Nat) (s : State) (l : Nat) : State :=
  if !seamEn s l || seamOwner s l then s
  else
    let due := mortTick s (roundTick s r + 1 + 48 * seamHops s l)
    let on := (gDets s.stores).filter (fun e =>
      decide (detKind e.2 = 1 ∧ detLink e.2 = l) && s.mort.events.contains (r, e.1))
    let sidx := on.map (fun e => detSidx e.2)
    (List.range (seamBlocks s.stores 1 l)).foldl (fun t b =>
      queueRt s.clk.tc (.synd (seamNode s l) r b due ((sidx.filter (fun i => decide (i / 128 = b))).map (· % 128))) t l) s

/-- ROUND_CLOSE: in tick C(r) + 1 the events of round r are formed and forwarded (R227, R243). -/
def roundClose (s : State) : State :=
  let r := s.mort.rounds
  if !s.mort.run || decide (rndCount s ≤ r) then s
  else
    let s1 := seamCatch (passTo (mortTick s (roundTick s r + 1)) s)
    let s2 := ((gDets s1.stores).filter (fun e => decide (detKind e.2 ≤ 1))).foldl (formEvent r) s1
    let s3 := [0, 1].foldl (forwardRound r) s2
    let fwd := ((gDets s3.stores).filter (fun e => decide (detKind e.2 = 1))).map (·.1)
    let es := s3.mort.events.filter (fun n => !(decide (n.1 = r) && fwd.contains n.2))
    let s4 := setMort { s3.mort with rounds := r + 1, events := es, ins := s3.mort.ins.filter (fun i => decide (i.1 ≠ r)) } s3
    wr s4 .mortar 0 0x070 15 0 r

/-! ## Windows -/

/-- The first round of window j, its last round, and whether it is the final one (R229). -/
def windowOf (s : State) (j : Nat) : Nat × Nat × Bool :=
  let a := j * gK s.stores
  let b := a + gW s.stores - 1
  if rndCount s - 1 ≤ b then (a, rndCount s - 1, true) else (a, b, false)

/-- Y of window j (R230). -/
def windowY (s : State) (j : Nat) : BitVec 48 := mortTick s (roundTick s (windowOf s j).2.1 + closeLag s)

/-- DECODE_WINDOW_COMPLETE: the next window is complete at Y (R230, R244). -/
def decodeWindowComplete (s : State) : State :=
  let j := s.mort.wins
  if !s.mort.run || (decide (0 < j) && (windowOf s (j - 1)).2.2) then s
  else
    let s1 := passTo (windowY s j) s
    let s2 := seamCatchTo 0 (rndCount s1) s1
    setMort { s2.mort with wins := j + 1 } s2

/-- XOR a slot's dX and dZ into a list of frame updates. -/
def addFlip (fs : List (Nat × Bool × Bool)) (u : Nat × Bool × Bool) : List (Nat × Bool × Bool) :=
  match fs with
  | [] => [u]
  | f :: r => if f.1 = u.1 then (f.1, xor f.2.1 u.2.1, xor f.2.2 u.2.2) :: r else f :: addFlip r u

/-- The frame updates of edges, one entry for each slot with a bit set (R233). -/
def flipsOf (es : List Nat) : List (Nat × Bool × Bool) :=
  ((es.map (fun x => (edgeSlot x, edgeDx x, edgeDz x))).foldl addFlip []).filter (fun f => f.2.1 || f.2.2)

/-- The observables that edges flip (R233, R239). -/
def obsOf (g : Bytes) (es : List Nat) : List Nat :=
  let m := es.foldl (fun m x => m ^^^ gOset g (edgeOset x)) 0
  (List.range 64).filter (fun o => nbit m o)

/-- Entries in lists of at most 16. -/
def sixteens (fuel : Nat) (xs : List (Nat × Bool × Bool)) : List (List (Nat × Bool × Bool)) :=
  match fuel with
  | 0 => []
  | n + 1 => if xs.isEmpty then [] else xs.take 16 :: sixteens n (xs.drop 16)

/-- Send a window's seam corrections on an owned link (R245). -/
def sendCorrections (x : BitVec 48) (es : List Nat) (s : State) (l : Nat) : State :=
  if !seamOwner s l then s
  else
    let fs := flipsOf (es.filter (fun e => edgeRmt e && decide (edgeRlink e = l)))
    (sixteens 32 fs).foldl (fun t part =>
      queueRt s.clk.tc (.corr (seamNode s l) (x + 4 + BitVec.ofNat 48 (48 * seamHops s l)) part) t l) s

/-- The clusters of window j and its correction edges (R230). -/
def windowGraph (s : State) (j : Nat) : List (List (Nat × Nat)) × List (Nat × Nat) :=
  let (a, b, _) := windowOf s j
  decodeGraph s.stores a (b + 1 - a) (s.mort.events.filter (fun n => decide (a ≤ n.1 ∧ n.1 ≤ b)))

/-- The detectors in the largest cluster of window j (R232). -/
def largestCluster (s : State) (j : Nat) : Nat := ((windowGraph s j).1.map List.length).foldl max 0

/-- The clusters of window j abandoned, by their nodes: those with a node not peeled in time, of which there is none while no
cluster exceeds 256 detectors (R231); after a parity error all of them (R246). -/
def abandonedNodes (s : State) (j : Nat) (late : List (Nat × Nat)) : List (Nat × Nat) :=
  let cs := (windowGraph s j).1
  if s.mort.wrecked then cs.flatten
  else if largestCluster s j ≤ 256 then []
  else (cs.filter (fun c => c.any late.contains)).flatten

/-- What a window gives: the edges committed, and the toggles carried into the next window (R230, R232). -/
def decodeWindow (s : State) (j : Nat) (abandoned : List (Nat × Nat)) : List Nat × List (Nat × Nat) :=
  let g := s.stores
  let (a, b, final) := windowOf s j
  let es := (windowGraph s j).2.filter (fun i => !(edgeNodes g i).any abandoned.contains)
  let last := if final then b else a + gK g - 1
  let com := es.filter (fun i => decide (i.2 ≤ last))
  let up := com.filter (fun i => decide (edgeDt (gEdge g i.1) = 1 ∧ i.2 = last) && !final && !isBoundary g i)
  (com.map (fun i => gEdge g i.1), up.map (fun i => (i.2 + 1, edgeB (gEdge g i.1))))

/-- WINDOW_OUTPUT_ISSUE: at X the outputs of the oldest complete window are issued (R231 to R234, R245). The operands that act
are the slack left and the nodes not peeled in time; the largest cluster, which the tiles count too, is the graph's own
(log 14). -/
def windowOutputIssue (_counted slack : Nat) (late : List (Nat × Nat)) (s : State) : State :=
  let j := s.mort.issued
  if !s.mort.run || decide (s.mort.wins ≤ j) then s
  else
    let x := windowY s j + 900
    let s0 := passTo x s
    let g := s0.stores
    let grp := s0.mort.group
    let (a, _, final) := windowOf s0 j
    let abandoned := abandonedNodes s0 j late
    let ovf := s0.mort.wrecked || !abandoned.isEmpty
    let (es, carry) := decodeWindow s0 j abandoned
    let fu := es.filter edgeFu
    let evs := carry.foldl (fun l n => toggleEvent n l) (s0.mort.events.filter (fun n => decide (a + gK g ≤ n.1)))
    let s1 := setMort { s0.mort with
      issued := j + 1, lastX := x, wrecked := false, run := !final
      events := if final then [] else evs } s0
    let flips := flipsOf (fu.filter (fun e => !edgeRmt e))
    let obs := obsOf g es
    let pend := if final then (obsUse s1).map (fun o => (o, false)) else []
    let s2 := if flips.isEmpty && obs.isEmpty && pend.isEmpty then s1
      else sendItem (x + 4) (some grp) [] (.frame true flips obs pend) s1
    let s3 := [0, 1].foldl (sendCorrections x fu) s2
    let sl := if ovf then 0 else min slack 65535
    let s4 := wr (wr s3 .mortar 0 0x080 31 16 (min (largestCluster s0 j) 65535)) .mortar 0 0x080 15 0 sl
    let s5 := bump s4 .mortar 0 0x070 23 16 1
    let cols := (gDets g).filterMap (fun e => if detKind e.2 = 1 then none else some (e.1 % 16))
    let serves (t : Nat) : Bool := tileServes s5 t && cols.contains (rd s5 .tile t 0x040 31 28)
    let s6 := ((List.range 17).filter serves).foldl (fun t n => bump t .tile n 0x040 15 0 1) s5
    let s7 := if ovf then
        fireLine 125 x false (tagShot grp tagFrame (raiseEvt .mortar 0 1 (bump s6 .mortar 0 0x07C 31 16 1)))
      else s6
    let s8 := hmSample 11 0 0 sl (fireLine 124 x false s7)
    if final then setMortState 2 s8 else s8

/-! ## Seams at the receiving module -/

/-- The group of the stream's shot, or the one that MORT_CFG names while no stream is live. -/
def mortGroup (s : State) : Nat := if mortLive s then s.mort.group else rd s .mortar 0 0x040 2 0

/-- A seam event flit accepted from a link: its source, ROUND, BLOCK, due stamp and the bits of its bitmap (R244). A late one
tags the shot in which its due tick falls (R20, R228). -/
def seamEvents (l src round block : Nat) (stamp : BitVec 16) (bits : List Nat) (s0 : State) : State :=
  let s := seamCatch s0
  let due := s.clk.tc + BitVec.ofInt 48 (dueIn stamp s.clk.tc)
  let late (t : State) : State := tagDue (mortGroup t) due (tagLate ||| tagFrame) (raiseEvt .mortar 0 0 t)
  if !mortLive s then (if dueIn stamp s.clk.tc < 0 then late s else s)
  else if !seamOwner s l || decide (src ≠ seamNode s l) || decide (rndCount s ≤ round) then stray s
  else if dueIn stamp s.clk.tc < 0 then late s
  else if !s.mort.run || s.mort.blocks.contains (l, round, block) then s
  else
    let ds := (gDets s.stores).filter (fun e =>
      decide (detKind e.2 = 2 ∧ detLink e.2 = l ∧ detSidx e.2 / 128 = block) && bits.contains (detSidx e.2 % 128))
    setMort { s.mort with
      blocks := s.mort.blocks ++ [(l, round, block)]
      events := ds.foldl (fun es e => toggleEvent (round, e.1) es) s.mort.events } s

/-- Seam corrections accepted: a frame update for the Ladle, due as the flit says (R245). -/
def seamCorrections (stamp : BitVec 16) (es : List (Nat × Bool × Bool)) (s : State) : State :=
  let due := s.clk.tc + BitVec.ofInt 48 (dueIn stamp s.clk.tc)
  sendItem due (some (rd s .mortar 0 0x040 2 0)) [] (.frame false es [] []) s

/-- A loss report of a ring port, at the forwarder of that link's seam (R245). -/
def lossAtMortar (l : Nat) (s : State) : State :=
  if ptUp s .mortar && seamEn s l && !seamOwner s l then
    tagShot (rd s .mortar 0 0x040 2 0) tagFrame (raiseEvt .mortar 0 6 s)
  else s

/-! ## Tiles and parity -/

/-- A tile raises TILE_FAULT (R246, R247, R450). The spare out of service is only marked as failing. -/
def tileFault (t : Nat) (s : State) : State :=
  let s1 := addWear 4 t 0 1 (bump (raiseFault .tile t 0 s) .tile t 0x044 15 0 1)
  if t < 16 || rdBit s1 .tile 16 0x040 27 then candidate_ 4 t 0 s1 else s1

/-- TEST_DECODE (R246). -/
def testDecode (t : Nat) (ok : Bool) (s : State) : State := if ok then s else tileFault t s

/-- TILE_PARITY: the window being decoded is abandoned whole (R246). -/
def tileParity (t : Nat) (s : State) : State :=
  let s1 := tileFault t s
  if s1.mort.run && decide (s1.mort.issued < s1.mort.wins) && tileServes s1 t
  then setMort { s1.mort with wrecked := true } s1 else s1

/-- GRAPH_PARITY (R248). -/
def graphParity (s : State) : State :=
  let g := s.mort.group
  let s1 := setMortState 4 (raiseFault .mortar 0 0 { s with graphBad := true })
  if !s.mort.run then s1
  else
    let pend := (obsUse s1).map (fun o => (o, false))
    tagShot g tagFrame (sendItem (s1.clk.tc + 4) (some g) [] (.frame false [] [] pend) (setMort {} s1))

end Sys2Proof.Machine
end

