-- ==== Sys2Proof/Machine/Time.lean ====
section
/-! DEFINITION. Module time, the servo, PTP and time on the ring (15_time_and_sync.md, R352 to R372). Stamps are in
2^-16 ns. -/

namespace Sys2Proof.Machine

/-- The TIME page is in service (R481). -/
def timeOn (s : State) : Bool := enabled s .time 0

/-- The SERVO's source, TIME_CFG.SRC (R361). -/
def timeSrc (s : State) : Nat := rd s .time 0 0x040 2 0

/-- A rational as an integer: exact where it is one, else one of its two neighbours; the spec states no rounding
(log 16). -/
def freeRound (x : Rat) (s : State) : Int × State :=
  if x.den = 1 then (x.num, s)
  else
    let (n, s1) := freeDraw s
    (x.floor + (n % 2 : Nat), s1)

/-- A rational as a signed 32-bit field; one that does not fit leaves a value the spec does not state (log 16). -/
def freeField (x : Rat) (s : State) : Nat × State :=
  let (i, s1) := freeRound x s
  if -(2 ^ 31) ≤ i ∧ i < 2 ^ 31 then (ux 32 i, s1)
  else
    let (n, s2) := freeDraw s1
    (n % 2 ^ 32, s2)

/-! ## Steps and the servo (R357, R360, R361) -/

def getSlave (s : State) (k : Nat) : Slave := mapGet (fun _ => {}) s.slaves k
def setSlave (k : Nat) (x : Slave) (s : State) : State := { s with slaves := mapSet (fun _ => {}) s.slaves k x }

/-- A step of MT, in 2^-32 ns, taken in the next tick: STEPPED; every capture unit owes a stream header; a Delay_Resp
held from before the step is no longer used (R357, R367). -/
def stepMt (d : Int) (s0 : State) : State :=
  let s := noteRate s0
  let fresh := [0, 1, 2, 3].foldl (fun m k => mapSet (fun _ => 0) m k (s.clk.tc + 1)) s.cmpFrom
  let s1 := { s with clk := { s.clk with step := s.clk.step + d }, owesHeader := List.range 8, cmpFrom := fresh }
  raiseEvt .time 0 3 ([0, 1, 2].foldl (fun t k => setSlave k { getSlave t k with resp := none } t) s1)

/-- One update of the servo with an offset θ in nanoseconds (R360). -/
def servoUpdate (th : Rat) (s : State) : State :=
  let (l, s0) := freeField (256 * th) (noteRate s)
  let s1 := wrAll s0 .time 0 0x088 l
  let thr : Rat := (reg s1 .time 0 0x084).toNat
  if thr ≠ 0 ∧ thr < |th| then
    let (d, s2) := freeRound (-(th * 2 ^ 32)) s1
    stepMt d s2
  else
    let kp : Rat := ((reg s1 .time 0 0x074).toNat : Rat) / 65536
    let ki : Rat := ((reg s1 .time 0 0x078).toNat : Rat) / 65536
    let lim : Int := (reg s1 .time 0 0x080).toNat
    let (i, s2) := freeRound ((s1.clk.integ : Rat) + ki * th) s1
    let integ := clampI (-lim) lim i
    let (a, s3) := freeRound (-(kp * th) - (integ : Rat)) s2
    let adj := clampI (-lim) lim a
    let s4 := wrAll { s3 with clk := { s3.clk with integ := integ } } .time 0 0x07C (ux 32 adj)
    raiseEvtIf (decide (integ ≠ i ∨ adj ≠ a)) .time 0 4 s4

/-- SERVO_OFS: with SRC SOFT each write is an offset, in 1/256 ns (R361). -/
def servoOfs (v : Word) (s : State) : State :=
  if timeOn s && decide (timeSrc s = 1) then servoUpdate ((v.toInt : Rat) / 256) s else s

/-- SERVO_RST: zeroes integ and ADJ (R360). -/
def servoRst (s : State) : State :=
  let s1 := noteRate s
  wrAll { s1 with clk := { s1.clk with integ := 0 } } .time 0 0x07C 0

/-- MT_STEP: a write of 1 to TIME_CTRL.STEP (R357). -/
def mtStep (s : State) : State := stepMt (sx 64 (rdPair s .time 0 0x068) * 2 ^ 32) s

/-- θ from a completed Sync exchange and a held Delay_Resp (R367). The slave is 0 H0, 1 H1 or 2 the ring. -/
def formTheta (k : Nat) (s : State) : State :=
  let x := getSlave s k
  match x.fresh, x.t1, x.resp with
  | true, some t1, some (t3, t4, c2) =>
    let asym : Rat := ((if k = 2 then reg s .time 0 0x0B4 else reg s .time 0 (0x204 + 0x80 * k)).toInt : Rat) / 1000
    let u : Rat := ((x.t2 - t1 - x.c1 : Int) : Rat) / 65536
    let d : Rat := ((t4 - t3 - c2 : Int) : Rat) / 65536
    let mpd := (u + d) / 2
    let s1 := setSlave k { x with fresh := false } s
    let s2 := if k < 2 then bump (bump s1 .time 0 (0x218 + 0x80 * k) 31 16 1) .time 0 (0x218 + 0x80 * k) 15 0 1 else s1
    if timeSrc s2 ≠ k + 2 then s2
    else
      let (p, s3) := freeField (256 * mpd) s2
      servoUpdate (u - (mpd + asym)) (wrAll s3 .time 0 0x08C p)
  | _, _, _ => s

/-! ## PTP on the host ports (R365 to R369) -/

def ptpOff (h : Nat) : Nat := 0x200 + 0x80 * h
/-- PTP_CFG.ROLE: 0 DISABLED, 1 MASTER, 2 SLAVE, 3 LISTEN. Neither engine acts while its port or the TIME page is out of
service (R481). -/
def ptpRole (s : State) (h : Nat) : Nat := if timeOn s && hostOn s h then rd s .time 0 (ptpOff h) 31 30 else 0

def ptpDomain (s : State) (h : Nat) (m : PtpMsg) : Bool := decide (rd s .time 0 (ptpOff h) 23 16 = m.dom.toNat)

/-- The message comes from the port identity in PTP_MASTER, in the port's domain (R367). -/
def fromMaster (s : State) (h : Nat) (m : PtpMsg) : Bool :=
  ptpDomain s h m &&
  decide (m.clockId.toNat = (reg s .time 0 (ptpOff h + 0x0C)).toNat * 2 ^ 32 + (reg s .time 0 (ptpOff h + 0x10)).toNat ∧
    m.portNo.toNat = rd s .time 0 (ptpOff h + 0x14) 15 0)

/-- The next sequence id of a kind of message. -/
def nextSeq (k : Nat) (s : State) : Nat × State :=
  let n := (mapGet (fun _ => 0) s.seqIds k + 1) % 65536
  (n, { s with seqIds := mapSet (fun _ => 0) s.seqIds k n })

/-- The receive queue takes a message: an 8-byte MT stamp, then its bytes; a full queue discards it (R369). -/
def rxqPush (h : Nat) (bytes : List Byte) (s : State) : State :=
  let q := mapGet (fun _ => []) s.rxqs h
  if 16 ≤ q.length then raiseFault .time 0 2 (raiseBit .time 0 (ptpOff h + 0x1C) 31 s)
  else
    let e := leBytes (mtNs s) 8 ++ bytes
    raiseEvt .time 0 (9 + h) { s with rxqs := mapSet (fun _ => []) s.rxqs h (q ++ [e]) }

/-- The bytes of a received event message for LISTEN: the fields the command carries; every other byte is free
(log 17). -/
def ptpBytes (kind : Nat) (m : PtpMsg) (flags : Nat) (s : State) : List Byte × State :=
  let (a, s1) := freeDraw s
  let t := (m.time.getD 0).toNat
  let head := [BitVec.ofNat 8 (kind % 16), 2, 0, 44, m.dom, BitVec.ofNat 8 a, BitVec.ofNat 8 flags, BitVec.ofNat 8 (a / 256)]
  let body := beBytes (ux 64 m.corr) 8 ++ beBytes (a / 2 ^ 16) 4 ++ beBytes m.clockId.toNat 8 ++ beBytes m.portNo.toNat 2 ++
    beBytes m.seqId.toNat 2 ++ beBytes (a / 2 ^ 48) 2
  (head ++ body ++ beBytes (t / 10 ^ 9) 6 ++ beBytes (t % 10 ^ 9) 4, s1)

/-- LISTEN queues every PTP message received (R368). -/
def listenQueue (h kind flags : Nat) (m : PtpMsg) (s : State) : State :=
  if ptpRole s h ≠ 3 then s
  else
    let (bs, s1) := ptpBytes kind m flags s
    rxqPush h bs s1

/-- PTP_SYNC (R367). -/
def ptpSync (h : Nat) (m : PtpMsg) (twoStep : Bool) (s : State) : State :=
  if ptpRole s h = 2 ∧ fromMaster s h m then
    formTheta h (setSlave h { getSlave s h with
      seq := m.seqId.toNat, t1 := if twoStep then none else m.time.map (· * 65536), t2 := m.rx * 256, c1 := m.corr
      fresh := true } s)
  else listenQueue h 0 (if twoStep then 2 else 0) m s

/-- FOLLOW_UP (R367). -/
def followUp (h : Nat) (m : PtpMsg) (s : State) : State :=
  let x := getSlave s h
  if ptpRole s h = 2 ∧ fromMaster s h m then
    if x.fresh && x.t1.isNone && decide (x.seq = m.seqId.toNat) then
      formTheta h (setSlave h { x with t1 := m.time.map (· * 65536), c1 := x.c1 + m.corr } s)
    else s
  else listenQueue h 8 0 m s

/-- Where a port's PTP messages of a kind go: the addresses of its transport, those of peer delay for kinds 2, 3 and 10, and
port 319 for event messages, 320 for the others (R340, R365). -/
def ptpTo (s : State) (h kind : Nat) : PtpTo :=
  let peer := decide (kind = 2 ∨ kind = 3 ∨ kind = 10)
  let port := if kind ≤ 3 then 319 else 320
  let tag := hostTag s h
  match rd s .time 0 (ptpOff h) 29 28 with
  | 0 => via 0 peer port tag
  | 1 => via 1 peer port tag
  | 2 => via 2 peer port tag
  | _ => via (Config.transport3 % 3) peer port tag
where
  via (net : Nat) (peer : Bool) (port : Nat) (tag : Option Nat) : PtpTo :=
    match net with
    | 0 => { mac := if peer then 0x0180C200000E else 0x011B19000000, etype := 0x88F7, udp := none, tag := tag }
    -- the multicast MAC addresses of IP (PRESUMED, RFC 1112 and RFC 2464, log 17)
    | 1 => { mac := if peer then 0x01005E00006B else 0x01005E000181, etype := 0x0800
             udp := some (if peer then 0xE000006B else 0xE0000181, port), tag := tag }
    | _ => { mac := if peer then 0x33330000006B else 0x333300000181, etype := 0x86DD
             udp := some (if peer then 0xFF02 * 2 ^ 112 + 0x6B else 0xFF0E * 2 ^ 112 + 0x181, port), tag := tag }

/-- Send a PTP message. -/
def sendPtp (h kind seq : Nat) (time : Option Int) (corr : Int) (peer : Option (BitVec 64 × BitVec 16)) (bytes : List Byte)
    (s : State) : State := emit (.ptp h kind seq time corr peer bytes (ptpTo s h kind)) s

/-- DELAY_REQ: a master answers every one in its domain with a Delay_Resp that carries its receive stamp (R368). -/
def delayReq (h : Nat) (m : PtpMsg) (s : State) : State :=
  if ptpRole s h = 1 ∧ ptpDomain s h m then
    sendPtp h 9 m.seqId.toNat (some (m.rx * 256)) m.corr (some (m.clockId, m.portNo)) [] s
  else listenQueue h 1 0 m s

/-- DELAY_RESP (R367). -/
def delayResp (h : Nat) (m : PtpMsg) (s : State) : State :=
  let x := getSlave s h
  if ptpRole s h = 2 ∧ fromMaster s h m then
    match x.t3, m.time with
    | some t3, some t4 =>
      if x.dseq = m.seqId.toNat then formTheta h (setSlave h { x with resp := some (t3, t4 * 65536, m.corr) } s) else s
    | _, _ => s
  else listenQueue h 9 0 m s

/-- PDELAY_REQ: answered when P2P_RESP is set, in one step or two (R365). -/
def pdelayReq (h : Nat) (m : PtpMsg) (s : State) : State :=
  let r := ptpRole s h
  if (r = 1 ∨ r = 2) ∧ rdBit s .time 0 (ptpOff h) 26 ∧ ptpDomain s h m then
    let now : Int := (s.clk.mt.toNat / 2 ^ 16 : Nat)
    let peer := some (m.clockId, m.portNo)
    if rdBit s .time 0 (ptpOff h) 27 then
      sendPtp h 10 m.seqId.toNat (some now) m.corr peer [] (sendPtp h 3 m.seqId.toNat (some (m.rx * 256)) 0 peer [] s)
    else sendPtp h 3 m.seqId.toNat none (m.corr + now - m.rx * 256) peer [] s
  else listenQueue h 2 0 m s

/-- PDELAY_RESP and PDELAY_RESP_FOLLOW_UP: the port is a responder only, so a slave or master does nothing (R365). -/
def pdelayResp (h : Nat) (m : PtpMsg) (s : State) : State := listenQueue h 3 0 m s
def pdelayRespFollowUp (h : Nat) (m : PtpMsg) (s : State) : State := listenQueue h 10 0 m s

/-- ANNOUNCE, SIGNALING and MANAGEMENT are passed to software in every role but DISABLED (R369). -/
def ptpQueue (h : Nat) (bytes : List Byte) (s : State) : State := if ptpRole s h = 0 then s else rxqPush h bytes s

/-- RXQ_POP: removes the head entry (R369). -/
def rxqPop (h : Nat) (s : State) : State :=
  { s with
    rxqs := mapSet (fun _ => []) s.rxqs h (mapGet (fun _ => []) s.rxqs h).tail
    rxqPos := mapSet (fun _ => 0) s.rxqPos h 0 }

/-- A stamp of MT now, in 2^-16 ns. -/
def mtStamp (s : State) : Int := (s.clk.mt.toNat / 2 ^ 16 : Nat)

/-- SYNC_INTERVAL: a master sends Sync, with a Follow_Up when TWO_STEP = 1 (R368). -/
def syncInterval (h : Nat) (s : State) : State :=
  if ptpRole s h ≠ 1 then s
  else
    let (n, s1) := nextSeq h s
    let t := mtStamp s1
    if rdBit s1 .time 0 (ptpOff h) 27 then sendPtp h 8 n (some t) 0 none [] (sendPtp h 0 n none 0 none [] s1)
    else sendPtp h 0 n (some t) 0 none [] s1

/-- DELAY_REQ_INTERVAL: a slave sends a Delay_Req, whose transmit stamp is t3 (R367). -/
def delayReqInterval (h : Nat) (tx : Int) (s : State) : State :=
  if ptpRole s h ≠ 2 then s
  else
    let (n, s1) := nextSeq (2 + h) s
    sendPtp h 1 n none 0 none [] (setSlave h { getSlave s1 h with dseq := n, t3 := some (tx * 256) } s1)

/-- ANNOUNCE_INTERVAL: a master sends an Announce from its template (R368). -/
def announceInterval (h : Nat) (s : State) : State :=
  if ptpRole s h ≠ 1 then s
  else
    let (n, s1) := nextSeq (4 + h) s
    let bs := (List.range 8).flatMap (fun k => wordBytes (reg s1 .time 0 (ptpOff h + 0x40 + 4 * k)))
    sendPtp h 11 n none 0 none bs s1

/-- SYNC_TIMEOUT of H0, H1 or the ring; ADJ holds (R367). -/
def syncTimeout (k : Nat) (s : State) : State :=
  if timeOn s && (decide (k = 2 ∧ timeSrc s = 4) || (decide (k < 2) && decide (ptpRole s k = 2)))
  then raiseEvt .time 0 (6 + k) s else s

/-! ## Time on the ring (R370 to R372) -/

/-- The payload of a TIME flit (R370). TS is a number of nanoseconds. -/
def timePayload (msg seq : Nat) (ts : Nat) (corr : Int) : Nat :=
  msg * 2 ^ 48 + seq * 2 ^ 52 + ts % 10 ^ 9 * 2 ^ 68 + ts / 10 ^ 9 % 2 ^ 48 * 2 ^ 100 + ux 64 corr * 2 ^ 148

/-- Queue a TIME flit at a ring port. -/
def queueTime (r : Nat) (t : TimeTx) (s : State) : State :=
  if !enabled s .ring r then s
  else
    let x := getRPort s r
    setRPort s r { x with timeQ := x.timeQ ++ [t] }

/-- A TIME flit of this module but for LSEQ and CRC: DST, TTL, and the payload. -/
def timeFlit (s : State) (dst ttl payload : Nat) : BitVec 256 :=
  BitVec.ofNat 256 (6 + ringAddr s * 2 ^ 4 + dst % 32 * 2 ^ 9 + ttl % 32 * 2 ^ 14 + payload)

/-- RING_SYNC_INTERVAL: the ring master sends a SYNC on both ports, with TTL 31 (R372). The spec gives it no DST
(log 18). -/
def ringSyncInterval (s : State) : State :=
  if !timeOn s || !rdBit s .time 0 0x040 9 then s
  else
    let (n, s1) := nextSeq 16 s
    let (d, s2) := freeDraw s1
    [0, 1].foldl (fun t r => queueTime r { bits := timeFlit t d 31 (timePayload 0 n 0 0), role := 1 } t) s2

/-- RING_PDELAY_INTERVAL: every up ring port sends a PDELAY_REQ to its neighbour (R372). -/
def ringPdelayInterval (s : State) : State :=
  if !timeOn s then s
  else
    ([0, 1].filter (ringUp s)).foldl (fun t r =>
      let (n, t1) := nextSeq (20 + r) t
      let t2 := setSlave (3 + r) { getSlave t1 (3 + r) with dseq := n, t3 := none } t1
      queueTime r { bits := timeFlit t2 (rd t2 .ring r 0x048 20 16) 1 (timePayload 3 n 0 0), role := 3 } t2) s

/-- A TIME flit delivered to the TIME page from port r, with its arrival stamp (R370 to R372). -/
def takeTime (r : Nat) (f : Nat) (rx : Int) (s : State) : State :=
  let msg := nbits f 51 48
  let src := nbits f 8 4
  let mine := decide (nbits f 13 9 = ringAddr s)
  let seq := nbits f 67 52
  let ts : Int := ((nbits f 147 100 * 10 ^ 9 + nbits f 99 68) * 65536 : Nat)
  let corr := sx 64 (nbits f 211 148)
  if !timeOn s then s
  else match msg with
    | 0 =>
      if timeSrc s = 4 ∧ r = rd s .time 0 0x040 10 10 then
        let s1 := formTheta 2 (setSlave 2 { getSlave s 2 with seq := seq, t1 := some ts, t2 := rx, c1 := corr, fresh := true } s)
        let (n, s2) := nextSeq 17 s1
        let (ttl, s3) := freeDraw s2
        let s4 := setSlave 2 { getSlave s3 2 with dseq := n, t3 := none } s3
        queueTime r { bits := timeFlit s4 src (1 + ttl % 31) (timePayload 1 n 0 0), role := 2 } s4
      else s
    | 1 =>
      if rdBit s .time 0 0x040 9 && mine then
        let (ttl, s1) := freeDraw s
        queueTime r { bits := timeFlit s1 src (1 + ttl % 31) (timePayload 2 seq (rx / 65536).toNat (corr - rx % 65536)) } s1
      else s
    | 2 =>
      let x := getSlave s 2
      match x.t3 with
      | some t3 =>
        if timeSrc s = 4 ∧ r = rd s .time 0 0x040 10 10 ∧ mine ∧ x.dseq = seq then
          formTheta 2 (setSlave 2 { x with resp := some (t3, ts, corr) } s)
        else s
      | none => s
    | 3 => if mine then queueTime r { bits := timeFlit s src 1 (timePayload 4 seq (rx / 65536).toNat 0), ingress := some rx } s else s
    | 4 =>
      let x := getSlave s (3 + r)
      match x.t3 with
      | some t1 =>
        if mine ∧ x.dseq = seq then
          let (d, s1) := freeField (((rx - t1 - corr : Int) : Rat) * 1000 / (2 * 65536)) s
          wrAll s1 .time 0 (0x0C0 + 4 * r) d
        else s
      | none => s
    | _ => s

/-- A TIME flit as it goes out now (R370, R371): the sender of a SYNC writes TS and of a request notes the stamp at its
first send; residence is added to CORR. -/
def timeOut (r : Nat) (t : TimeTx) (s : State) : Nat × TimeTx × State :=
  let now := mtStamp s
  let f := t.bits.toNat
  let put (x hi lo v : Nat) : Nat := x - nbits x hi lo * 2 ^ lo + v % 2 ^ (hi + 1 - lo) * 2 ^ lo
  match t.role with
  | 1 =>
    let ns := (now / 65536).toNat
    let g := put (put (put f 99 68 (ns % 10 ^ 9)) 147 100 (ns / 10 ^ 9)) 211 148 (ux 64 (now % 65536))
    (g, { bits := BitVec.ofNat 256 g, ingress := some now }, s)
  | 2 => (f, { t with role := 0 }, setSlave 2 { getSlave s 2 with t3 := some now } s)
  | 3 => (f, { t with role := 0 }, setSlave (3 + r) { getSlave s (3 + r) with t3 := some now } s)
  | _ =>
    match t.ingress with
    | none => (f, t, s)
    | some i => (put f 211 148 (ux 64 (sx 64 (nbits f 211 148) + (now - i))), t, s)

/-! ## REF_IN, SYNC_IN, alignment (R352 to R355) -/

/-- REF_LOSS: REF_IN becomes absent after lock: holdover (R352). -/
def refLoss (s : State) : State :=
  let s1 := { s with boot := { s.boot with ref := none } }
  if alive s && decide (phase s = 3) then wr s1 .sys 0 0x04C 29 29 1
  else if !ptUp s1 .time then s1
  else raiseFault .time 0 0 (wr (wr s1 .time 0 0x0AC 30 30 0) .time 0 0x0AC 29 29 1)

/-- REF_RETURN: the PLL relocks without a phase step (R352). -/
def refReturn (s : State) : State :=
  let s1 := { s with boot := { s.boot with ref := some (nbit s.pins.strap.toNat 3) } }
  if alive s && decide (phase s = 3) then wr s1 .sys 0 0x04C 29 29 0
  else if !ptUp s1 .time then s1 else wr (wr s1 .time 0 0x0AC 30 30 1) .time 0 0x0AC 29 29 0

/-- ALIGN: arms alignment (R354). -/
def alignArm (s : State) : State := { s with align := { armed := true, passed := 0 } }

/-- A phase table as the tick count changes from a to b during a slide of k RF samples: phases go on, one step for each
RF sample (R118, R170, R354). -/
def slideTone (a b k : Nat) (x : Tone) : Tone :=
  let mv (n : Nat) : Nat := ((n : Int) - 32 * (a : Int) + 32 * (b : Int)).toNat
  { x with
    p := ux 48 ((phaseAt x (32 * a) : Int) + (k : Int) * (x.f : Int)), pos := 32 * b
    ops := x.ops.map (fun o => { o with sp := mv o.sp, dp := 256 * mv (o.dp / 256) + o.dp % 256 }), pulses := [] }

/-- Load TC at an alignment, after a slide of k RF samples (R354). -/
def loadTc (v : BitVec 48) (k : Nat) (s : State) : State :=
  let s1 := (s.fluxes.map (·.1)).foldl (fun t o => fluxCatch o t) (rtCatch (ladleCatch s))
  let a := s1.clk.tc.toNat
  let one (e : Nat × Tone) : Nat × Tone := (e.1, slideTone a v.toNat k e.2)
  let dem (e : Nat × Demod) : Nat × Demod :=
    let t := slideTone a v.toNat k (dmAsTone e.2)
    (e.1, { e.2 with p := t.p, pos := t.pos, ops := t.ops })
  let flx (e : Nat × Flux) : Nat × Flux := (e.1, fluxRebase a v.toNat e.2)
  { s1 with
    clk := { s1.clk with tc := v, was := [] }
    tones := s1.tones.map one, demods := s1.demods.map dem, fluxes := s1.fluxes.map flx
    ladleJobs := s1.ladleJobs.map (fun j => (j.1 - s.clk.tc + v, j.2))
    groups := s1.groups.map (fun e => (e.1, { e.2 with
      bEnd := e.2.bEnd - s.clk.tc + v, selfAt := e.2.selfAt.map (fun t => t - s.clk.tc + v) }))
    outs := s1.outs.map (fun e => (e.1, { e.2 with gate := [] }))
    cmpFrom := s1.cmpFrom.map (fun e => (e.1, e.2 - s.clk.tc + v))
    txWait := s1.txWait.map (fun e => (e.1, e.2.1 - s.clk.tc + v, e.2.2))
    txq := s1.txq.map (fun e => (e.1, e.2.1, e.2.2.1 - s.clk.tc + v, e.2.2.2))
    dchs := s1.dchs.map (fun e => (e.1, { e.2 with hist := [] })), tick := {} }

/-- A phase in ps as PHASE shows it; one outside its 16 bits leaves a value the spec does not state (log 19). -/
def phaseField (offset : Int) (s : State) : Nat × State :=
  if -32768 ≤ offset ∧ offset ≤ 32767 then (ux 16 offset, s)
  else
    let (n, s1) := freeDraw s
    (n % 65536, s1)

/-- SYNC_EDGE: an edge, and its place in ps from the aligned position (R354, R355). An edge that aligns loads TC at the tick
that begins SYNC_DLY samples after it: from the edge's place in its tick, which no command carries (log 19), follow the ticks that
pass and the slide. More than half an RF sample, 125 / 6 ps, is a slip. -/
def syncEdge (offset : Int) (s : State) : State :=
  let qualifies := s.align.armed && decide (rdPair s .time 0 0x098 ≤ mtNs s)
  if qualifies && (List.range 8).any (shotRuns s) then
    raiseEvt .time 0 1 { s with align := { s.align with passed := s.align.passed + 1 } }
  else if qualifies then
    let v := BitVec.ofNat 48 (rdPair s .time 0 0x0A0 + 65536 * s.align.passed)
    let (n, s0) := freeDraw s
    let d := n % 32 + rd s .time 0 0x090 15 0
    let s1 := loadTc v (d % 32) (passTicks (d / 32) { s0 with align := {} })
    raiseEvt .time 0 0 (wr (wr s1 .time 0 0x094 31 31 1) .time 0 0x094 15 0 0)
  else if rdBit s .time 0 0x094 31 then
    let (p, s0) := phaseField offset s
    let s1 := wr s0 .time 0 0x094 15 0 p
    if 125 < 6 * |offset| then raiseFault .time 0 1 (bump (wr s1 .time 0 0x094 30 30 1) .time 0 0x0B0 15 0 1) else s1
  else s

/-- SYNC_ABSENT (R355). -/
def syncAbsent (s : State) : State :=
  if rdBit s .time 0 0x094 31 then raiseEvt .time 0 2 (bump s .time 0 0x0B0 31 16 1) else s

/-! ## Stamps, compares, latched reads (R359, R362, R363) -/

def pathNo : Path → Nat
  | .i3c => 0
  | .h0 => 1
  | .h1 => 2

/-- The key of a latch: path and address. -/
def latchKey (p : Path) (a : Nat) : Nat := pathNo p * 2 ^ 32 + a
def setRlatch (p : Path) (a : Nat) (v : Word) (s : State) : State :=
  { s with rlatch := mapSet (fun _ => none) s.rlatch (latchKey p a) (some v) }
def getRlatch (s : State) (p : Path) (a : Nat) : Option Word := mapGet (fun _ => none) s.rlatch (latchKey p a)

/-- MT_READ: a read of MT_LO latches MT_HI, MT_FRAC, TC_LO and TC_HI of the same tick (R359). -/
def mtRead (p : Path) (s : State) : State :=
  let mt := s.clk.mt.toNat
  let tc := s.clk.tc.toNat
  let a (o : Nat) : Nat := addrOf .time 0 o
  let put (o v : Nat) (t : State) : State := setRlatch p (a o) (BitVec.ofNat 32 v) t
  let s1 := put 0x058 (tc / 2 ^ 32) (put 0x054 tc (put 0x050 mt (put 0x04C (mt / 2 ^ 64) s)))
  { s1 with rdata := BitVec.ofNat 32 (mt / 2 ^ 32) }

/-- TSU_READ: a read of TSU_MT_LO latches the rest of the unit and clears VALID and OVW together (R362). -/
def tsuRead (p : Path) (k : Nat) (s : State) : State :=
  let o := 0x100 + 0x10 * k
  let s1 := [4, 8, 12].foldl (fun t d => setRlatch p (addrOf .time 0 (o + d)) (reg t .time 0 (o + d)) t) s
  { wr s1 .time 0 (o + 12) 31 30 0 with rdata := reg s .time 0 o }

/-- An activation of time stamp unit k due at tick a, the present tick: MT, TC and the lines of tick a - 1 (R362). -/
def tsuStamp (k : Nat) (s : State) : State :=
  if !timeOn s then s
  else
    let o := 0x100 + 0x10 * k
    let lines := (linesAt (s.clk.tc - 1) s).filter (fun l => decide (l / 16 = k))
    let mask := ((List.range 16).filter (fun j => lines.contains (16 * k + j))).foldl (fun m j => m + 2 ^ j) 0
    let was := rdBit s .time 0 (o + 12) 31
    let s1 := wrPair s .time 0 o (s.clk.prev.toNat / 2 ^ 32)
    let s2 := wrAll s1 .time 0 (o + 8) (s.clk.tc - 1).toNat
    let s3 := wr (wr s2 .time 0 (o + 12) 15 0 mask) .time 0 (o + 12) 31 31 1
    if was then raiseEvt .time 0 5 (wr s3 .time 0 (o + 12) 30 30 1) else s3

/-- How many ticks ago MT first reached a compare value that it now has reached, at the present increment, but not before the
unit was set as it is (R363). -/
def cmpAgo (s : State) (k : Nat) : Nat :=
  let past : Int := sx 64 (ux 64 ((mtNs s : Int) - (rdPair s .time 0 (0x180 + 0x10 * k) : Int))) * 2 ^ 32 + (s.clk.mt.toNat % 2 ^ 32 : Nat)
  let most := (max 0 (ticksTo (mapGet (fun _ => 0) s.cmpFrom k) s.clk.tc)).toNat
  let inc := mtInc s
  if inc ≤ 0 then most
  else
    let j := (past / inc).toNat
    let e : Nat := if rdBit s .time 0 0x040 8 then thirds (s.clk.tc - BitVec.ofNat 48 j).toNat j else 0
    min most (if (j : Int) * inc + (e : Int) ≤ past then j else j - 1)

/-- CMP_FIRE: MT has reached the compare value of an enabled unit; the unit fired in the first such tick (R363). -/
def cmpFire (k : Nat) (s : State) : State :=
  let o := 0x180 + 0x10 * k
  if !timeOn s || !rdBit s .time 0 (o + 8) 31 || decide (sx 64 (ux 64 ((mtNs s : Int) - (rdPair s .time 0 o : Int))) < 0) then s
  else
    let t := s.clk.tc - BitVec.ofNat 48 (cmpAgo s k)
    raiseEvt .time 0 (12 + k) (wr (wrAll s .time 0 (o + 12) t.toNat) .time 0 (o + 8) 31 31 0)

end Sys2Proof.Machine
end

