-- ==== Sys2Proof/Machine/Ring.lean ====
section
/-! DEFINITION. The Sheor ring: flits, loss, forwarding, replay, lane frames (14_ring_and_host_ports.md, R325 to
R339). -/

namespace Sys2Proof.Machine

/-! ## Sending -/

/-- A flit from its bits [231:0]: the CRC, or its complement (R327, R335). -/
def withCrc (body : Nat) (stomp : Bool) : BitVec 256 :=
  let c := crc24 29 body
  BitVec.ofNat 256 (body + (if stomp then 2 ^ 24 - 1 - c else c) * 2 ^ 232)

/-- The state a flit's code and value stand for. -/
def codeState (c v : Nat) : DState :=
  match c with
  | 0 => .resolved (decide (v = 1))
  | 1 => .unresolved
  | 2 => .void
  | _ => .lost

/-- TRIG_TTL of a ring port, 0 acting as 1. -/
def trigTtl (s : State) (r : Nat) : Nat := max 1 (rd s .ring r 0x044 4 0)

/-- TYPE, DST, TTL, DUE and payload of an own real-time message (R327 to R329). A SYNDROME flit goes to the neighbour, so
one node is still to be reached. -/
def msgFields (s : State) (r : Nat) : TxMsg → Nat × Nat × Nat × Nat × Nat
  | .dec f =>
    let (c, v) := stateCode f.st
    (1, 0, max 1 f.hops, (stampOf f.due).toNat, f.ch * 2 ^ 48 + c * 2 ^ 54 + v * 2 ^ 56 + f.seq * 2 ^ 57)
  | .trig id due n => (3, 0, trigTtl s r, (stampOf due).toNat, id * 2 ^ 48 + n % 256 * 2 ^ 54)
  | .synd dst round block due bits =>
    (2, dst, 1, (stampOf due).toNat,
      round * 2 ^ 49 + block * 2 ^ 65 + (bits.foldl (fun m b => m ||| 2 ^ b) 0) * 2 ^ 68)
  | .corr dst due es =>
    let e (i : (Nat × Bool × Bool) × Nat) : Nat :=
      (i.1.1 + b2n i.1.2.1 * 2 ^ 9 + b2n i.1.2.2 * 2 ^ 10) * 2 ^ (54 + 11 * i.2)
    (2, dst, 1, (stampOf due).toNat, 2 ^ 48 + es.length * 2 ^ 49 + ((es.zipIdx).map e).sum)
  | .loss => (4, 0, rd s .ring r 0x044 12 8, 0, 0)
  | _ => (0, 0, 0, 0, 0)

/-- The copies of a queued message as they go out under its LSEQ (R330, R332, R335). -/
def msgFlits (s : State) (r n : Nat) (m : TxMsg) : List (BitVec 256) :=
  let one (c : BitVec 256 × Bool) : BitVec 256 :=
    let b := c.1.toNat % 2 ^ 232
    withCrc (b - nbits b 47 36 * 2 ^ 36 + n * 2 ^ 36) c.2
  match m with
  | .fwd _ cs => cs.map one
  | .again f stomp => [one (f, stomp)]
  | _ =>
    let (ty, dst, ttl, due, pay) := msgFields s r m
    let body (copy : Nat) : Nat :=
      ty + ringAddr s * 2 ^ 4 + dst * 2 ^ 9 + ttl * 2 ^ 14 + copy * 2 ^ 19 + due * 2 ^ 20 + n * 2 ^ 36 + pay
    [withCrc (body 0) false, withCrc (body 1) false]

/-- RTLAST: the last real-time LSEQ sent on a link (R325, R332). -/
def lastSent (s : State) (r : Nat) : Nat := (getRPort s r).rtLast

/-- An IDLE flit: its LSEQ carries the link's RTLAST (R328). -/
def idleOut (s : State) (r : Nat) : BitVec 256 := withCrc (ringAddr s * 2 ^ 4 + lastSent s r * 2 ^ 36) false

/-- Send a replay flit under its number: TS and CORR as they stand now (R337, R371). -/
def sendReplay (r n : Nat) (t : TimeTx) (s : State) : TimeTx × State :=
  let (f, t1, s1) := timeOut r t s
  (t1, emit (.flit r (withCrc (f % 2 ^ 232 - nbits f 47 36 * 2 ^ 36 + n * 2 ^ 36) false)) s1)

/-- The first element of a list that a test accepts, and the rest. -/
def pick {α : Type} (p : α → Bool) : List α → Option (α × List α)
  | [] => none
  | x :: xs => if p x then some (x, xs) else (pick p xs).map (fun e => (e.1, x :: e.2))

/-- Send what replay sends next: a resend, else a new TIME flit, else a new BULK flit, else IDLE (R331, R337). -/
def replaySend (r : Nat) (s : State) : State :=
  let x := getRPort s r
  let idle := emit (.flit r (idleOut s r)) s
  match x.resend with
  | some i =>
    match x.buf[i]? with
    | some (n, t) =>
      let (t1, s1) := sendReplay r n t s
      let y := getRPort s1 r
      setRPort s1 r { y with buf := y.buf.set i (n, t1), resend := if i + 1 < y.buf.length then some (i + 1) else none }
    | none => setRPort idle r { x with resend := none }
  | none =>
    if 2048 ≤ x.buf.length then idle
    else
      let n := (x.rplTx + 1) % 4096
      let push (t : TimeTx) (y : RPort) : State :=
        let (t1, s1) := sendReplay r n t (setRPort s r { y with rplTx := n })
        let z := getRPort s1 r
        setRPort s1 r { z with buf := z.buf ++ [(n, t1)] }
      match x.timeQ, x.bulkQ with
      | t :: ts, _ => push t { x with timeQ := ts }
      | [], t :: ts => push t { x with bulkQ := ts }
      | [], [] => idle

/-- The framing word a port sends for a logical lane (R325). -/
def frameWord (s : State) (r lane : Nat) : BitVec 128 :=
  let x := getRPort s r
  let b := 0x5A3C96E1 + ringAddr s * 2 ^ 32 + r * 2 ^ 37 + lane * 2 ^ 38 + x.rplRx * 2 ^ 40 + b2n x.nak * 2 ^ 52 +
    lastSent s r * 2 ^ 53 + mapGet (fun _ => 0) s.lmsgs r * 2 ^ 65
  BitVec.ofNat 128 (b + crc24 13 b * 2 ^ 104)

/-- The logical lanes of a port whose transmitters send its frames (R308, R350). -/
def framedLanes (s : State) (r : Nat) : List Nat :=
  (List.range 4).filter (fun k => (laneWith s r k).any (fun n => txSource s n == .native))

/-- The framing words of a frame that starts now, on every lane in the same word (R325). -/
def frameHeads (s : State) (r : Nat) : List Output :=
  if (getRPort s r).slot = 0 then (framedLanes s r).map (fun k => .lane r (frameWord s r k)) else []

/-- Slots of the frame in progress are used: 32 on each of 4 lanes make a frame. No rule ties FLIT_SEND to a place in the frame:
its slots follow one another (DESIGN CHOICE, log 121). -/
def useSlots (r k : Nat) (s : State) : State :=
  let x := getRPort s r
  setRPort s r { x with slot := if 128 ≤ x.slot + k then 0 else x.slot + k }

/-- What a sent real-time flit leaves behind: RTLAST, DELAYED when it waited more than 14 ticks, and where the second copy of
what passed through belongs (R325, R331, R335). -/
def rtSent (r n : Nat) (t : BitVec 48) (m : TxMsg) (s : State) : State :=
  match m with
  | .again _ _ => useSlots r 1 s
  | _ =>
    let s1 := useSlots r 2 (setRPort s r { getRPort s r with rtLast := n })
    let s2 := if 14 < ticksTo t s1.clk.tc then bump s1 .ring r 0x050 15 0 1 else s1
    match m with
    | .fwd k [_] => noteRelay (1 - r) k (some n) s2
    | _ => s2

/-- FLIT_SEND: a real-time flit before any other, in order; one that waited more than 14 ticks counts (R331, R336). At a frame's
start its framing words go first (R325). The Ladle's flits of evaluations up to now stand in the queue (R206). A disabled port
sends IDLE flits on its NATIVE lanes (R350). -/
def flitSend (r : Nat) (s0 : State) : State :=
  let s1 := rtCatch (ladleCatch s0)
  let s := (frameHeads s1 r).foldl (fun u o => emit o u) s1
  if !enabled s .ring r then (if (framedLanes s r).isEmpty then s else useSlots r 1 (emit (.flit r (idleOut s r)) s))
  else match pick (fun e => decide (e.1 = r)) s.txq with
    | some ((_, n, t, m), rest) =>
      rtSent r n t m ((msgFlits s r n m).foldl (fun u f => emit (.flit r f) u) { s with txq := rest })
    | none => useSlots r 1 (replaySend r s)

/-- Resend from the oldest unacknowledged flit (R337). -/
def resendFrom (r : Nat) (s : State) : State :=
  let x := getRPort s r
  if x.buf.isEmpty then s
  else
    let s1 := bump (setRPort s r { x with resend := some 0, tries := x.tries + 1 }) .ring r 0x058 31 16 1
    if x.tries + 1 = 16 then raiseFault .ring r 3 s1 else s1

/-- REPLAY_TIMEOUT: ACK made no progress for 4,096 ticks (R337). -/
def replayTimeout (r : Nat) (s : State) : State := resendFrom r s

/-! ## Loss (R332, R333) -/

/-- A loss report of a receiving port, at the Ladle and Mortar (R210, R245, R332). -/
def lossReport (r : Nat) (s : State) : State :=
  lossAtMortar r (whenUp .ladle (lossAtLadle r) (raiseEvt .ring r 0 (bump s .ring r 0x04C 15 0 1)))

/-- A report of this port's own also sends a LOSS flit on the other port, if that is up (R333). -/
def ownLoss (r : Nat) (s : State) : State :=
  let s1 := lossReport r s
  if ringUp s1 (1 - r) then readyRt (s1.clk.tc + 2) .loss s1 (1 - r) else s1

/-- A number seen on a link: every number passed over and not taken is lost (R332). `taken` says whether this number
itself is now taken. -/
def seeNumber (r n : Nat) (taken : Bool) (s : State) : State :=
  let x := getRPort s r
  match x.rxTop with
  | none => setRPort s r { x with rxTop := some n }
  | some top =>
    let d := seqDist top n
    if d ≤ 0 then s
    else
      let count := d.toNat - (if taken then 1 else 0)
      let gone := (List.range count).map (fun i => (top + 1 + i) % 4096)
      let s1 := setRPort s r { x with rxTop := some n, lost := (x.lost ++ gone).drop (x.lost.length + gone.length - 2048) }
      (List.range count).foldl (fun t _ => ownLoss r t) s1

/-- Is a real-time number new on a link: later than all seen, or one reported lost (R332)? -/
def isNew (x : RPort) (n : Nat) : Bool :=
  match x.rxTop with
  | none => true
  | some top => decide (0 < seqDist top n) || x.lost.contains n

/-! ## Forwarding (R334, R335) -/

/-- The list with its first element changed that a function changes, if it changes one. -/
def changeFirst {α : Type} (f : α → Option α) : List α → Option (List α)
  | [] => none
  | x :: xs => match f x with
    | some y => some (y :: xs)
    | none => (changeFirst f xs).map (x :: ·)

/-- The second copy of what came in under number n joins the first. -/
def addCopy (n : Nat) (c : BitVec 256 × Bool) : TxMsg → Option TxMsg
  | .fwd k [x] => if k = n then some (.fwd k [x, c]) else none
  | _ => none

/-- The second copy joins the first at port o, while that has not gone. -/
def joinCopy (o n : Nat) (c : BitVec 256 × Bool) (s : State) : Option State :=
  let wait (e : Nat × BitVec 48 × TxMsg) : Option (Nat × BitVec 48 × TxMsg) :=
    if e.1 = o then (addCopy n c e.2.2).map (fun m => (e.1, e.2.1, m)) else none
  let queued (e : Nat × Nat × BitVec 48 × TxMsg) : Option (Nat × Nat × BitVec 48 × TxMsg) :=
    if e.1 = o then (addCopy n c e.2.2.2).map (fun m => (e.1, e.2.1, e.2.2.1, m)) else none
  match changeFirst wait s.txWait with
  | some l => some { s with txWait := l }
  | none => (changeFirst queued s.txq).map (fun l => { s with txq := l })

/-- Forward a copy received on port r, ready 2 ticks on, both copies under the new number the first took (R335, R336). `first`: it
may be the first of its number. -/
def forward (r : Nat) (f : Nat) (stomp first : Bool) (s0 : State) : State :=
  let o := 1 - r
  let n := nbits f 47 36
  if nbits f 18 14 < 2 || !ringUp s0 o || decide (nbits f 8 4 = ringAddr s0) ||
      (decide (nbits f 3 0 = 2) && decide (nbits f 13 9 = ringAddr s0)) then s0
  else
    let g := BitVec.ofNat 256 (f % 2 ^ 232 - 2 ^ 14)
    let s := rtCatch (if stomp then bump s0 .ring r 0x054 15 0 1 else s0)
    match joinCopy o n (g, stomp) s with
    | some t => t
    | none =>
      let x := getRPort s r
      let t := s.clk.tc + 2
      match x.relay.find? (fun e => decide (e.1 = n)) with
      | some (_, k) =>
        let s1 := setRPort s r { x with relay := x.relay.filter (fun e => decide (e.1 ≠ n)) }
        match k with
        | some k => { s1 with txq := s1.txq ++ [(o, k, t, .again g stomp)] }
        | none => s1
      | none => if first then readyRt t (.fwd n [(g, stomp)]) s o else s

/-! ## Delivery (R334 step 3) -/

/-- A TRIGGER flit taken once from each source (R339). -/
def takeTrigger (r f : Nat) (s : State) : State :=
  let src := nbits f 8 4
  let n := nbits f 61 54
  let id := nbits f 53 48
  match s.trigSeen.find? (fun e => decide (e.1 = src)) with
  | some (_, k) => if k = n then s else take src n id s
  | none => take src n id s
where
  take (src n id : Nat) (s : State) : State :=
    let s0 := { s with trigSeen := (src, n) :: s.trigSeen.filter (fun e => decide (e.1 ≠ src)) }
    let d := dueIn (BitVec.ofNat 16 (nbits f 35 20)) s.clk.tc
    let due := s.clk.tc + BitVec.ofInt 48 d
    let s1 := triggerStart id due s0
    let hit (k : Nat) : Bool := let v := reg s1 .ring r (0x0A0 + 4 * k); wbit v 31 && decide (fget v 5 0 = id)
    let at_ := if d < 0 then s.clk.tc else due
    ((List.range 8).filter hit).foldl (fun t k => fireLine (112 + k) at_ false t) s1

/-- Bits set in a bitmap of 128. -/
def bitList (m : Nat) : List Nat := (List.range 128).filter (fun i => nbit m i)

/-- Deliver a real-time flit taken on port r (R334 step 3). -/
def deliverRt (r f : Nat) (s : State) : State :=
  let stamp := BitVec.ofNat 16 (nbits f 35 20)
  let mine := decide (nbits f 13 9 = ringAddr s)
  match nbits f 3 0 with
  | 1 =>
    whenUp .ladle (takeDecision r (nbits f 8 4) (nbits f 53 48) (nbits f 64 57)
      (codeState (nbits f 55 54) (nbits f 56 56)) stamp) s
  | 2 =>
    if !mine then s
    else if nbit f 48 then
      let es := (List.range (min 16 (nbits f 53 49))).map (fun k =>
        let e := nbits f (54 + 11 * k + 10) (54 + 11 * k)
        (nbits e 8 0, nbit e 9, nbit e 10))
      whenUp .mortar (seamCorrections stamp es) s
    else whenUp .mortar (seamEvents r (nbits f 8 4) (nbits f 64 49) (nbits f 67 65) stamp (bitList (nbits f 195 68))) s
  | 3 => takeTrigger r f s
  | 4 => lossReport r s
  | _ => s

/-- A fragment of a tunnelled message (R329, R348). -/
def takeFrag (f : Nat) (s : State) : State :=
  let node := nbits f 8 4
  let reply := nbit f 59
  let path := nbits f 60 60
  let id := nbits f 71 64
  let no := nbits f 57 48
  let data := leBytes (nbits f 207 80) (min 16 (nbits f 76 72))
  let same (x : Frag) : Bool := decide (x.node = node ∧ x.reply = reply ∧ x.path = path ∧ x.msgid = id)
  let old : Frag := if no = 0 then { node := node, reply := reply, path := path, msgid := id, next := 0, bytes := [] }
    else (s.frags.find? same).getD { node := node, reply := reply, path := path, msgid := id, next := 0, bytes := [] }
  let rest := s.frags.filter (fun x => !same x)
  if old.next ≠ no then { s with frags := rest }
  else
    let x := { old with next := no + 1, bytes := old.bytes ++ data }
    if nbit f 58 then { s with frags := rest, inbox := s.inbox ++ [x] } else { s with frags := rest ++ [x] }

/-- The receiver refuses a replay flit and asks for what follows the last one taken (R337). -/
def sendNak (r : Nat) (s : State) : State :=
  bump (setRPort s r { getRPort s r with nak := true }) .ring r 0x058 15 0 1

/-- A valid BULK or TIME flit: taken only in order of LSEQ, delivered, and forwarded with the residence of a TIME flit
counted from its arrival (R334, R337, R371). -/
def takeReplay (r f : Nat) (rx : Int) (s : State) : State :=
  let n := nbits f 47 36
  let x := getRPort s r
  if n ≠ (x.rplRx + 1) % 4096 then sendNak r s
  else
    let s1 := setRPort s r { x with rplRx := n, nak := false }
    let time := decide (nbits f 3 0 = 6)
    let mine := decide (nbits f 13 9 = ringAddr s1)
    if nbits f 8 4 = ringAddr s1 then bump s1 .ring r 0x054 31 16 1
    else
      let s2 := if time then takeTime r f rx s1 else if mine then takeFrag f s1 else s1
      let o := 1 - r
      if nbits f 18 14 < 2 || mine || !ringUp s2 o then s2
      else
        let y := getRPort s2 o
        let t : TimeTx := { bits := BitVec.ofNat 256 (f % 2 ^ 232 - 2 ^ 14), ingress := if time then some rx else none }
        setRPort s2 o (if time then { y with timeQ := y.timeQ ++ [t] } else { y with bulkQ := y.bulkQ ++ [t] })

/-! ## Receiving (R328, R332, R334) -/

/-- A copy that fails: discarded and counted, and its forwarded image is completed with the complement of its CRC (R328,
R335); a BULK or TIME flit also asks for a replay (R337). -/
def badCopy (r f : Nat) (s : State) : State :=
  let s1 := raiseEvt .ring r 2 (bump s .ring r 0x04C 31 16 1)
  let ty := nbits f 3 0
  if 1 ≤ ty ∧ ty ≤ 4 then forward r f true true s1
  else if ty = 5 ∨ ty = 6 then sendNak r s1
  else s1

/-- A real-time copy: the first of each number is delivered; each copy is forwarded (R332, R334, R335). -/
def takeRt (r f : Nat) (s : State) : State :=
  let n := nbits f 47 36
  let x := getRPort s r
  if !isNew x n then forward r f false false s
  else
    let s1 := setRPort s r { x with lost := x.lost.filter (fun k => decide (k ≠ n)) }
    let s2 := seeNumber r n true s1
    if nbits f 8 4 = ringAddr s2 then bump s2 .ring r 0x054 31 16 1
    else forward r f false true (deliverRt r f s2)

/-- What comes in at a port: while the bypass is closed, only what the module's other port sends (R322). -/
def comesIn (r : Nat) (o : Nat → Output) (s : State) : Bool := !bypassClosed s || s.outbox.contains (o (1 - r))

/-- A received copy, with the stamp of its arrival. A disabled port delivers nothing (R350). -/
def rxFlit (r : Nat) (types : List Nat) (bits : BitVec 256) (rx : Int) (s : State) : State :=
  let f := bits.toNat
  let ty := nbits f 3 0
  if !enabled s .ring r || !comesIn r (fun p => .flit p bits) s then s
  else if decide (crc24 29 (f % 2 ^ 232) ≠ f / 2 ^ 232) || decide (7 ≤ ty) || (decide (ty ≠ 0) && decide (nbits f 18 14 = 0)) then
    badCopy r f s
  else if !types.contains ty then s
  else match ty with
    | 0 => seeNumber r (nbits f 47 36) false s
    | 5 => takeReplay r f rx s
    | 6 => takeReplay r f rx s
    | _ => takeRt r f s

/-! ## Lane frames (R321, R325, R326, R337) -/

/-- ACK and NAK from the neighbour: acknowledged flits leave the buffer (R337). -/
def takeAck (r ack : Nat) (nak : Bool) (s : State) : State :=
  let x := getRPort s r
  let rest := x.buf.filter (fun e => decide (0 < seqDist ack e.1))
  let gone := x.buf.length - rest.length
  let moved := decide (0 < gone)
  -- a resend in progress goes on with what is not acknowledged
  let resend := if rest.isEmpty then none else x.resend.map (· - gone)
  let s1 := setRPort s r { x with buf := rest, tries := if moved then 0 else x.tries, resend := resend }
  if nak && resend.isNone then resendFrom r s1 else s1

/-- A lane-management message received (R314 to R316, R326). -/
def takeLmsg (p v : Nat) (s : State) : State :=
  let k := nbits v 5 4
  match nbits v 3 0 with
  | 1 => swapReq p k s
  | 2 => swapReqAbrupt p k s
  | 3 => swapReady p s
  | 4 => swapAbort p s
  | _ => s

/-- LANE_FRAME: a framing word (R325). One that fails its check is only a framing failure (R388). -/
def laneFrame (r : Nat) (bits : BitVec 128) (s : State) : State :=
  let w := bits.toNat
  if nbits w 31 0 ≠ 0x5A3C96E1 ∨ crc24 13 (w % 2 ^ 104) ≠ w / 2 ^ 104 ∨
      !(comesIn r (fun p => .lane p bits) s || (List.range 4).any (fun k => frameWord s (1 - r) k == bits)) then s
  else
    let addr := nbits w 36 32
    let port := nbits w 37 37
    let s1 := wr (wr (wr s .ring r 0x048 23 23 1) .ring r 0x048 22 22 port) .ring r 0x048 20 16 addr
    let cable := decide (port = r)
    let conflict := decide (addr = ringAddr s1) && !bypassClosed s1
    let x := getRPort s1 r
    let s2 := setRPort s1 r { x with cable := cable, conflict := conflict }
    let s3 := raiseFaultIf (conflict && !x.conflict) .ring r 1 (raiseFaultIf (cable && !x.cable) .ring r 2 s2)
    let s4 := if (x.cable || x.conflict) = (cable || conflict) then s3 else ringRefresh r s3
    if !enabled s4 .ring r then s4
    else
      let s5 := seeNumber r (nbits w 64 53) false (takeAck r (nbits w 51 40) (nbit w 52) s4)
      let m := nbits w 88 65
      let y := getRPort s5 r
      if y.lmsgRx = m then s5 else takeLmsg r m (setRPort s5 r { y with lmsgRx := m })

/-- A write of RING_ADDR: it applies only while both RING pages have ENABLE = 0 (R350). -/
def ringAddrWrite (v : Word) (s : State) : State :=
  if enabled s .ring 0 || enabled s .ring 1 then s else wr s .ring 0 0x040 4 0 v.toNat

/-- ENABLE of a RING page changed. A disabled port forgets its link's numbers. -/
def ringEnabled (r : Nat) (s : State) : State :=
  let x := getRPort s r
  let s1 := if enabled s .ring r then s else setRPort s r { x with rxTop := none, lost := [], relay := [] }
  portPrbs r (ringRefresh r s1)

end Sys2Proof.Machine
end

