-- ==== Sys2Proof/Machine/Apply.lean ====
section
/-! DEFINITION. A register write taking effect in its block, at once or at the end of the shots that held it (R22), and
a block coming into service and leaving it (R481). -/

namespace Sys2Proof.Machine

/-! ## Taking effect -/

/-- The value a register holds after a masked write. -/
def maskedValue (old mask v : Word) : Word := (old &&& ~~~mask) ||| (v &&& mask)

/-- PARK is written while the output is parked: it acts at once, through a ramp from the old park level (R158). Where the park
holder drives, the chain takes over for the ramp, which the spec does not say (log 93). -/
def parkWritten (o a : Nat) (v : Word) (s : State) : State :=
  if (getFlux s o).atPark then
    let s1 := setReg (fluxCatch o (fluxTakeOver o s)) a v
    fluxRamp true o (setFlux s1 o { getFlux s1 o with atPark := false })
  else setReg (fluxCatch o s) a v

/-- START_SRC takes effect at a master: the tick in which SRC becomes 5 counts for its first shot (R104). -/
def sourceApplied (m : Nat) (self : Bool) (s : State) : State :=
  let x := getGroup s m
  if !self then setGroup s m { x with selfAt := none, selfOn := false }
  else if x.selfOn then s
  else setGroup s m { x with selfAt := some s.clk.tc, selfOn := true }

/-- The masked write of a stored register takes effect: the register holds the value, and the chains that run on it
follow (R119, R158, R170). -/
def applyBits (a : Nat) (mask v : Word) (s : State) : State :=
  let new := maskedValue (getReg s a) mask v
  let off := a % 4096
  match pageOf (a / 4096) with
  | none => s
  | some (.drv, n) =>
    let s1 := setReg (outCatch n s) a new
    if 0x80 ≤ off ∧ off < 0x500 ∧ (off - 0x80) % 0x80 = 4 then freqChanged n ((off - 0x80) / 0x80) s1 else s1
  | some (.prb, n) =>
    let s1 := setReg (outCatch (64 + n) s) a new
    if 0x80 ≤ off ∧ off < 0x900 ∧ (off - 0x80) % 0x40 = 4 then freqChanged (64 + n) ((off - 0x80) / 0x40) s1 else s1
  | some (.rdi, n) =>
    let s1 := setReg s a new
    if 0x400 ≤ off ∧ off < 0xC00 ∧ (off - 0x400) % 0x40 = 4 then dfChanged (32 * n + (off - 0x400) / 0x40) s1 else s1
  | some (.flx, n) =>
    if off < 0x40 then setReg s a new
    else if 0x100 ≤ off ∧ off < 0x500 ∧ (off - 0x100) % 0x80 = 4 then parkWritten (8 * n + (off - 0x100) / 0x80) a new s
    else
      -- the samples up to now were formed with the old values
      setReg (fluxGroupCatch n s) a new
  | some (.seq, q) =>
    if 112 ≤ q ∧ q < 120 ∧ off = 0x0A0 then sourceApplied (q - 112) (wbit new 0 && !wbit new 1 && wbit new 2) (setReg s a new)
    else setReg s a new
  | some _ => setReg s a new

/-! ## Shadowed writes (R22) -/

/-- A held write waits while some group that uses its block has a shot running. -/
def heldBusy (s : State) (a : Nat) : Bool :=
  match pageOf (a / 4096) with
  | some (pt, n) => blockBusy s pt n
  | none => false

/-- Drop the bits of held writes that a later write to the same fields replaces. -/
def dropHeld (a : Nat) (mask : Word) (s : State) : State :=
  let one (h : Held) : Held := if h.addr = a then { h with mask := h.mask &&& ~~~mask } else h
  { s with held := (s.held.map one).filter (fun h => decide (h.mask ≠ 0)) }

/-- A write to shadowed bits: at once while no group that uses the block has a shot running, otherwise held; a further
write to the same field replaces the held value (R22). -/
def shadowWrite (a : Nat) (mask v : Word) (s : State) : State :=
  let s1 := dropHeld a mask s
  if heldBusy s a then { s1 with held := s1.held ++ [{ addr := a, mask := mask, val := v }] }
  else applyBits a mask v s1

/-- The held writes whose blocks stand between shots take effect, oldest first. -/
def releaseHeld (s : State) : State :=
  let go := s.held.filter (fun h => !heldBusy s h.addr)
  let s1 := { s with held := s.held.filter (fun h => heldBusy s h.addr) }
  go.foldl (fun t h => applyBits h.addr h.mask h.val t) s1

/-! ## ENABLE (R481) -/

/-- A block's ENABLE has changed: the parts that follow it. -/
def enableChanged (pt : PT) (n : Nat) (s : State) : State :=
  match pt with
  | .ladle => ladleEnabled s
  | .ring => ringEnabled n s
  | .host => portPrbs (n + 2) (hostRefresh n s)
  | .cal => calKick s
  | .evt => routerEnabled s
  | _ => s

/-- A block comes into service. -/
def enableNow (s : State) (pg : Nat) : State :=
  match pageOf pg with
  | none => s
  | some (pt, n) =>
    let s0 := if pt == .evt then lineCatch s else s
    enableChanged pt n (gated s.clk.tc (fun t => wr { t with enWait := t.enWait.filter (· ≠ pg) } pt n 0x008 0 0 1) s0)

/-- ENABLE is written 1: at once while no shot of a group that uses the block runs, otherwise at their boundary. -/
def enableBlock (pg : Nat) (s : State) : State :=
  match pageOf pg with
  | none => s
  | some (pt, n) =>
    if alwaysEnabled pt || rdBit s pt n 0x008 0 then s
    else if blockBusy s pt n then (if s.enWait.contains pg then s else { s with enWait := s.enWait ++ [pg] })
    else enableNow s pg

/-- A block that a running shot uses stops: the shot is CORRUPT, its outputs mute or ramp to park (R51, R481, R482). -/
def stopBlock (pt : PT) (n : Nat) (s : State) : State :=
  let s1 := (usesGroups s pt n).foldl (fun t g => tagShot g tagCorrupt t) s
  match pt with
  | .seq => silenceSeq n s1.clk.tc s1
  | .flx => fluxGroupPark n s1
  | _ => s1

/-- A block has something to stop: a running shot uses it, or its flux outputs go to park in any case (R155). -/
def hasStop (s : State) (pt : PT) (n : Nat) : Bool :=
  blockBusy s pt n || pt == .flx || (pt == .seq && decide (80 ≤ n ∧ n < 112))

/-- ENABLE is written 0: at once. -/
def disableBlock (pg : Nat) (s : State) : State :=
  match pageOf pg with
  | none => s
  | some (pt, n) =>
    if alwaysEnabled pt then s
    else
      let s0 := if pt == .evt then lineCatch s else s
      let s1 := { s0 with enWait := s0.enWait.filter (· ≠ pg) }
      if !rdBit s1 pt n 0x008 0 then s1
      else
        let s2 := if hasStop s1 pt n then stopBlock pt n s1 else s1
        enableChanged pt n (gated s2.clk.tc (fun t => wr t pt n 0x008 0 0 0) s2)

/-- The blocks whose ENABLE waited come into service once their groups stand between shots. -/
def enableWaiting (s : State) : State :=
  let free (pg : Nat) : Bool := match pageOf pg with
    | some (pt, n) => !blockBusy s pt n
    | none => true
  (s.enWait.filter free).foldl enableNow s

/-- What waits for the shots of its groups to end takes effect where none of them runs: at a boundary, and when a sequencer
leaves its group (R22, R190, R481). -/
def freed (s : State) : State := ladleRelease (enableWaiting (releaseHeld s))

end Sys2Proof.Machine
end

