-- ==== Sys2Proof/Machine/Capture.lean ====
section
/-! DEFINITION. Trigger and capture units, their records and egress (11_capture.md). -/

namespace Sys2Proof.Machine

def getCap (s : State) (u : Nat) : Cap := mapGet (fun _ => {}) s.caps u
def setCap (u : Nat) (x : Cap) (s : State) : State := { s with caps := mapSet (fun _ => {}) s.caps u x }

/-! ## Sources (R252) -/

def capKind (s : State) (u : Nat) : Nat := rd s .cap u 0x044 31 28
def capInst (s : State) (u : Nat) : Nat := rd s .cap u 0x044 23 16
def capSub (s : State) (u : Nat) : Nat := rd s .cap u 0x044 5 0

/-- The lag of a kind of source, in ticks. -/
def capLag : Nat → Nat
  | 1 | 2 => 8
  | 3 => 18
  | 4 => 25
  | 5 | 6 | 7 => 4
  | _ => 0

/-- The bytes of an item. -/
def capItemSize : Nat → Nat
  | 1 | 5 | 6 => 64
  | 2 | 3 => 4
  | 4 => 16
  | 7 => 8
  | 8 | 9 => 32
  | _ => 0

/-- Samples in an item of a dense source; a sparse item counts as one. -/
def capSamples : Nat → Nat
  | 1 | 5 | 6 => 32
  | 2 => 2
  | 7 => 4
  | _ => 1

def capDense (k : Nat) : Bool := decide (k = 1 ∨ k = 2 ∨ k = 3 ∨ k = 5 ∨ k = 6 ∨ k = 7)
def capSparse (k : Nat) : Bool := decide (k = 4 ∨ k = 8 ∨ k = 9)

/-- The selector names a unit there is. -/
def capSourceOk (s : State) (u : Nat) : Bool :=
  let n := capInst s u
  match capKind s u with
  | 1 | 4 => decide (n < 16)
  | 2 => decide (n < 16 ∧ capSub s u < 17)
  | 3 => decide (n < 16 ∧ capSub s u < 32)
  | 5 => decide (n < 64)
  | 6 => decide (n < 16)
  | 7 => decide (n < 256)
  | 8 | 9 => true
  | _ => false

def capPre (s : State) (u : Nat) : Nat := rd s .cap u 0x064 31 0
def capPost (s : State) (u : Nat) : Nat := rd s .cap u 0x068 31 0
def capMode (s : State) (u : Nat) : Nat := rd s .cap u 0x040 9 8
/-- RECLEN in bytes. -/
def capRecLen (s : State) (u : Nat) : Nat := 64 * rd s .cap u 0x06C 6 0
def capBase (s : State) (u : Nat) : Nat := rd s .cap u 0x058 31 0 + 2 ^ 32 * rd s .cap u 0x05C 2 0
def capSize (s : State) (u : Nat) : Nat := 64 * rd s .cap u 0x060 26 0
def setCapStatus (u v : Nat) (s : State) : State := wr s .cap u 0x074 3 0 v
def capState (s : State) (u : Nat) : Nat := rd s .cap u 0x074 26 24
def setCapState (u v : Nat) (s : State) : State := wr s .cap u 0x074 26 24 v
def capGroup (s : State) (u : Nat) : Nat := rd s .cap u 0x040 18 16

/-! ## Records (R263 to R270) -/

/-- One oldest unsent record is overwritten (R269). -/
def evictOne (u : Nat) (s : State) : State :=
  let x := getCap s u
  match x.recs with
  | [] => s
  | _ :: rs => raiseEvt .cap u 5 (bump (setCap u { x with recs := rs, ovw := min (x.ovw + 1) 0xFFFFFFFF } s) .cap u 0x318 31 0 1)

/-- The ring bytes the writer holds: the rolling pre-trigger, the record in progress with its header. -/
def ringHeld (s : State) (u : Nat) : Nat :=
  let x := getCap s u
  let b := capItemSize (capKind s u)
  b * min x.hist.length (capPre s u) + (if x.cur.isEmpty then 0 else 64 + b * x.cur.length)

/-- A record lies in the ring of the present arming. -/
def inRing (x : Cap) (r : CapRec) : Bool := decide (r.base = x.base ∧ r.ring = x.ring)

/-- The ring bytes in use: its unsent records, and what the writer holds. -/
def ringUsed (s : State) (u : Nat) : Nat :=
  let x := getCap s u
  ((x.recs.filter (inRing x)).map (·.size)).sum + ringHeld s u

/-- A record of an earlier ring lies where the writer writes now (R269). -/
def oldMeets (x : Cap) (held : Nat) (r : CapRec) : Bool :=
  !inRing x r && (List.range (r.size / 64)).any (fun k =>
    let a := r.base + (r.place + 64 * k) % max 1 r.ring
    decide (x.base ≤ a ∧ a < x.base + x.ring ∧ (a - x.base + x.ring - x.w) % max 1 x.ring < held))

/-- Overwrite the oldest unsent records while the writer needs their space (R269). -/
def makeRoom (u : Nat) : Nat → State → State
  | 0, s => s
  | n + 1, s =>
    let x := getCap s u
    if ringUsed s u ≤ x.ring && !x.recs.any (oldMeets x (ringHeld s u)) then s else makeRoom u n (evictOne u s)

def capRoom (u : Nat) (s : State) : State := makeRoom u (getCap s u).recs.length s

/-- SHOT_CNT of a group's master as it stood at a tick (R264). -/
def shotsAt (s : State) (g : Nat) (t : BitVec 48) : Nat :=
  let x := getGroup s g
  let later := (x.past.filter (fun p => decide (0 < ticksTo t p.1))).length +
    (if x.running ∧ 0 < ticksTo t x.t0 then 1 else 0)
  rdPair s .seq (112 + g) 0x0B0 - later

/-- What a record header holds beside UNIT and KIND (R264). -/
structure RecHead where
  type : Nat
  tag : Nat := 0
  mt : Nat
  tc : BitVec 48
  capno : Nat
  plen : Nat
  ovw : Nat := 0
  flags : Nat := 0
  tpos : Nat := 0xFFFF
  left : Nat := 0
  also : Nat := 0

/-- The 64 bytes of a record header (R264). -/
def headBytes (s : State) (u : Nat) (h : RecHead) : List Byte :=
  leBytes h.type 1 ++ leBytes u 1 ++ leBytes h.tag 1 ++ leBytes (capKind s u) 1 ++ leBytes h.mt 4 ++ leBytes h.tc.toNat 6 ++
  leBytes 0 2 ++ leBytes (shotsAt s (capGroup s u) h.tc) 8 ++ leBytes h.capno 4 ++ leBytes h.plen 4 ++ leBytes h.ovw 4 ++
  leBytes h.flags 2 ++ leBytes h.tpos 2 ++ leBytes h.left 1 ++ leBytes h.also 1 ++ leBytes 0 22

/-- Write bytes into a ring at a place, wrapping at its end: before the requests that port 96 has in this tick (R285). -/
def ringPut (base ring place : Nat) (bs : List Byte) (s : State) : State :=
  putBefore (bs.zipIdx.map (fun e => (base + (place + e.2) % ring, e.1))) s

/-- Read bytes from a ring: before the requests that port 96 has in this tick (R285). -/
def ringGet (s : State) (base ring place n : Nat) : List Byte :=
  (List.range n).map (fun i => byteBefore s (base + (place + i) % ring))

/-- Where the trigger lies in the record in progress (R264): the index of its item. -/
def trigPlace (dense : Bool) (x : Cap) : Option (Nat × CapTrig) :=
  match x.trig with
  | none => none
  | some g =>
    if x.trigPut then none
    else
      let i := x.cur.findIdx (fun it => if dense then decide (it.tick = g.t) else decide (0 ≤ ticksTo g.t it.tick))
      if i < x.cur.length then some (i, g) else none

/-- Close the record in progress and store it in the ring (R263, R264); `extra` are the flags that its end gives it. -/
def cutRecord (u extra : Nat) (s : State) : State :=
  let x := getCap s u
  match x.cur.head?, x.cur.getLast? with
  | some a, some z =>
    let k := capKind s u
    let data := x.cur.flatMap (·.bytes)
    let pad := (64 - data.length % 64) % 64
    let tr := trigPlace (capDense k) x
    let flags := b2n x.first + extra + (if tr.isSome then 4 else 0) + (if x.first && x.short then 8 else 0) +
      (if a.gap then 16 else 0) + (match tr with
        | some (_, g) => if g.late then 128 else 0
        | none => 0)
    let h : RecHead := {
      type := 1, mt := a.mt, tc := a.tick, capno := x.capno, plen := data.length, flags := flags
      tpos := match tr with
        | some (i, g) => i * capSamples k + g.sample
        | none => 0xFFFF
      left := match tr with
        | some (_, g) => g.left + 16 * g.cond
        | none => 0
      also := match tr with
        | some (_, g) => g.also
        | none => 0 }
    let bytes := headBytes s u h ++ data ++ List.replicate pad 0
    let r : CapRec := {
      base := x.base, ring := x.ring, place := x.w, size := bytes.length, first := a.tick, last := z.tick, mt := a.mt
      plen := data.length }
    let y := { x with
      cur := []
      trigPut := x.trigPut || tr.isSome
      first := false
      recs := x.recs ++ [r]
      w := (x.w + bytes.length) % max 1 x.ring }
    capRoom u (setCap u y (ringPut x.base x.ring x.w bytes s))
  | _, _ => s

/-- Add an item to the capture in progress. A full record, or one before a gap, is closed first. -/
def addItem (u : Nat) (s : State) (it : CapItem) : State :=
  let x := getCap s u
  let full := decide (capRecLen s u ≤ capItemSize (capKind s u) * x.cur.length)
  let s1 := if full || (it.gap && !x.cur.isEmpty) then cutRecord u 0 s else s
  let y := getCap s1 u
  capRoom u (setCap u { y with cur := y.cur ++ [it] } s1)

/-- Is an item one of the capture in progress (R258 to R260)? -/
def inCapture (s : State) (u : Nat) (x : Cap) (it : CapItem) : Bool :=
  match x.trig with
  | none => false
  | some g =>
    let d := ticksTo g.t it.tick
    let early := decide (0 ≤ ticksTo x.a0 it.tick)
    if capDense (capKind s u) then
      early && decide (-(capPre s u : Int) ≤ d) && (decide (capMode s u = 2) || decide (d < (capPost s u : Int)))
    else early && (decide (d < 0) || decide (capMode s u = 2) || decide (0 < x.post))

/-- Take an item into the capture in progress when it belongs there. -/
def takeItem_ (u : Nat) (s : State) (it : CapItem) : State :=
  let x := getCap s u
  if !inCapture s u x it then s
  else
    let counts := match x.trig with
      | some g => decide (0 ≤ ticksTo g.t it.tick)
      | none => false
    addItem u (if counts then setCap u { x with post := x.post - 1 } s else s) it

/-- Begin the records of a capture from the pre-trigger held (R263): for a sparse source the last PRE items before T. -/
def beginRecords (u : Nat) (s : State) : State :=
  let x := getCap s u
  match x.trig with
  | none => s
  | some g =>
    if x.hist.isEmpty then s
    else
      let (pre, post) := x.hist.partition (fun it => decide (ticksTo g.t it.tick < 0))
      let pre1 := if capDense (capKind s u) then pre else pre.drop (pre.length - capPre s u)
      (pre1 ++ post).foldl (takeItem_ u) (setCap u { x with hist := [] } s)

/-- The capture's last item has been taken (R260). -/
def captureFull (s : State) (u : Nat) : Bool :=
  let x := getCap s u
  match x.trig with
  | none => false
  | some g =>
    decide (capMode s u ≠ 2) &&
    (if capDense (capKind s u) then
      match x.got with
      | some t => decide ((capPost s u : Int) ≤ ticksTo g.t t + 1)
      | none => false
    else decide (x.post = 0))

/-! ## The end of a capture (R260 to R262) -/

/-- End the unit with a status: what is in progress goes, formed records stay. -/
def endUnit (u status : Nat) (s : State) : State :=
  let x := getCap s u
  setCapStatus u status (setCap u { x with hist := [], cur := [], trig := none, hits := [], acts := [] } s)

/-- A capture is complete now (R260): DONE, or ready for the next in mode MULTI, which takes nothing of this one's
ticks (R259). -/
def completeCapture (u extra : Nat) (s0 : State) : State :=
  let s := cutRecord u (2 + extra) (beginRecords u s0)
  let x := getCap s u
  let y := { x with
    capno := x.capno + 1
    ended := some s.clk.tc
    trig := none
    cur := []
    hist := [] }
  let n := rd s .cap u 0x078 15 0
  if capMode s u = 1 ∧ (n = 0 ∨ y.capno < n) then
    setCapState u (rd s .cap u 0x040 2 0) (setCapStatus u 1 (setCap u { y with a0 := s.clk.tc + 1 } s))
  else raiseEvt .cap u 2 (endUnit u 4 (setCap u y s))

/-- CAPTURE_COMPLETE: the data of source tick T + POST - 1 has been taken. -/
def captureComplete (u : Nat) (s : State) : State :=
  if capStatus s u = 3 then
    let s1 := beginRecords u s
    if captureFull s1 u then completeCapture u 0 s1 else s
  else s

/-- End an ARMED, READY or POST unit as an abort does, with flags for its last record (R261, R262). -/
def stopUnit (u extra : Nat) (s : State) : State :=
  endUnit u 5 (if capStatus s u = 3 then cutRecord u (2 + extra) (beginRecords u s) else s)

/-- ABORT (R261). -/
def abortUnit (u : Nat) (s : State) : State :=
  let x := getCap s u
  let lose (t : State) : State := wr t .cap u 0x074 31 31 1
  if !capBusy s u then
    if capStatus s u = 4 ∧ x.ended = some s.clk.tc then lose s else s
  else if capStatus s u ≠ 3 then
    if x.ended = some s.clk.tc then lose (raiseEvt .cap u 2 (endUnit u 4 s)) else endUnit u 5 s
  else
    match x.trig with
    | none => endUnit u 5 s
    | some g =>
      if g.at_ = s.clk.tc then
        -- the trigger is not taken: its line does not become active either (R215)
        let s0 := { s with lines := s.lines.filter (fun l => decide (l ≠ (s.clk.tc, 96 + u, false))) }
        let s1 := wrAll (wrAll (wrAll s0 .cap u 0x07C g.old.1.toNat) .cap u 0x080 g.old.2.1.toNat) .cap u 0x084 g.old.2.2.toNat
        endUnit u 5 (wr s1 .cap u 0x010 1 1 (b2n g.oldEvt))
      else
        let s1 := beginRecords u s
        if captureFull s1 u && decide ((getCap s1 u).got = some (s.clk.tc - BitVec.ofNat 48 (capLag (capKind s u)))) then
          let s2 := completeCapture u 0 s1
          lose (if capStatus s2 u = 4 then s2 else raiseEvt .cap u 2 (endUnit u 4 s2))
        else stopUnit u 32 s

/-- Shed stage 1 ends a unit as an abort does; its last record carries SHED (R262). -/
def shedUnit (u : Nat) (s : State) : State := if capBusy s u then stopUnit u (32 + 256) s else s

/-- A retirement has withdrawn the unit's buffer or port (R262, R33). -/
def withdrawUnit (u : Nat) (s : State) : State :=
  let s1 := endUnit u 0xC s
  raiseFault .cap u 0 (setCap u { getCap s1 u with recs := [] } s1)

/-- CLR_CNT. -/
def clrCapCounts (u : Nat) (s : State) : State := [0x088, 0x318, 0x31C].foldl (fun t o => wrAll t .cap u o 0) s

/-! ## Arming (R258) -/

/-- TYPE of a predicate. -/
def predType (s : State) (u p : Nat) : Nat := rd s .cap u (0x100 + 8 * p) 27 24

/-- Everything the configuration check asks (R252, R254, R258). -/
def capCfgOk (s : State) (u : Nat) : Bool :=
  let k := capKind s u
  enabled s .cap u && capSourceOk s u && decide (capMode s u ≠ 3) && decide (256 ≤ capRecLen s u ∧ capRecLen s u ≤ 4096) &&
  (List.range 8).all (fun p => !(decide (predType s u p = 3) && !capDense k) && !(decide (predType s u p = 5) && decide (k ≠ 4)))

/-- The buffer lies in an admitted region, below the reserved area (R258). -/
def capRangeOk (s : State) (u : Nat) : Bool :=
  let a := capBase s u
  let n := capSize s u
  decide (n ≤ 2 ^ 32 ∧ a + n ≤ reservedFrom s) && (List.range 96).any (fun p => portReaches s p a n)

/-- Both ports are admitted, with regions that reach the buffer, and the write port has the bandwidth of a dense source (R258,
R278, log 61). -/
def capPortOk (s : State) (u : Nat) : Bool :=
  let k := capKind s u
  portReaches s (80 + u) (capBase s u) (capSize s u) && portReaches s (88 + u) (capBase s u) (capSize s u) &&
  (!capDense k || decide (15 * capItemSize k ≤ 2 * (getPort s (80 + u)).bw))

/-- The stored size S of R258, or the mode CONT check. -/
def capSizeOk (s : State) (u : Nat) : Bool :=
  let b := capItemSize (capKind s u)
  let r := capRecLen s u
  if capMode s u = 2 then decide (capPre s u * b + r + 192 ≤ capSize s u)
  else
    let db := (capPre s u + capPost s u) * b
    decide (db + 64 * ((db + r - 1) / r) + 128 ≤ capSize s u)

/-- The first failing check of R258, as the status it shows. -/
def armRefusal (s : State) (u : Nat) : Option Nat :=
  if 1 ≤ stage s then some 0xB
  else if !capCfgOk s u then some 0xA
  else if !capRangeOk s u then some 0x9
  else if !capPortOk s u then some 0x8
  else if !capSizeOk s u then some 0x7
  else none

/-- ARM (R258). -/
def armUnit (u : Nat) (s : State) : State :=
  if capBusy s u then s
  else
    match armRefusal s u with
    | some e => raiseEvt .cap u 7 (setCapStatus u e s)
    | none =>
      let x := getCap s u
      let same := decide (x.base = capBase s u ∧ x.ring = capSize s u)
      let y : Cap := {
        a0 := s.clk.tc, recs := x.recs, base := capBase s u, ring := capSize s u, w := if same then x.w else 0
        ovw := x.ovw, hdrMt := x.hdrMt, staged := x.staged, stagedAt := x.stagedAt, egrAt := x.egrAt, iqTaken := x.iqTaken }
      let s1 := (List.range 8).foldl (fun t j => wrAll t .cap u (0x090 + 4 * j) 0) (setCap u y s)
      wr (setCapState u (rd s .cap u 0x040 2 0) (setCapStatus u 1 s1)) .cap u 0x074 31 31 0

/-! ## Data (R252, R270) -/

/-- The 1 MB of staging, emptied at the write port's admitted rate (R270, log 25): in 1/15 byte, what a new item finds. -/
def stagedNow (s : State) (u : Nat) : Nat :=
  let x := getCap s u
  x.staged - 2 * (getPort s (80 + u)).bw * (ticksTo x.stagedAt s.clk.tc).toNat

/-- MT in nanoseconds at an earlier tick: back from now, or from the change after it, at the rate that then was (R264,
R356). -/
def mtAt (s : State) (t : BitVec 48) : Nat :=
  let back (x : BitVec 48) (mt : BitVec 96) (inc : Int) (third : Bool) : Nat :=
    let n := ticksTo t x
    ux 64 (((mt.toNat : Int) - inc * n - (if third then (thirds t.toNat n.toNat : Int) else 0)) / 2 ^ 32)
  match (s.clk.was.filter (fun e => decide (0 ≤ ticksTo t e.1))).getLast? with
  | some (x, mt, inc, third) => back x mt inc third
  | none => back s.clk.tc s.clk.mt (mtInc s) (rdBit s .time 0 0x040 8)

/-- The DAC codes of a tap in tick t: those of the samples that leave the commit gate in it, 12 ticks before the lands
(R252). -/
def tapCodes (s : State) (u : Nat) (t : BitVec 48) : List Int :=
  let n := capInst s u
  let at_ (per k : Nat) : Nat := per * (t.toNat + 12) + k
  match capKind s u with
  | 5 => (List.range 32).map (fun k => gateCode s n (at_ 32 k))
  | 6 => (List.range 32).map (fun k => gateCode s (64 + n) (at_ 32 k))
  | 7 => (List.range 4).map (fun k => if (calDrives s (80 + n) t).isSome
      then sx 16 (Config.calCode (80 + n) (at_ 4 k)).toNat else codeFrom (at_ 4 k) (getFlux (fluxCatch n s) n).codes)
  | _ => []

/-- The next result word for a DEMOD_IQ tap: of a selected demodulator, not taken before, of a tick since the unit was armed; the
one whose END_TC + 25 comes first (R252, R258). -/
def nextIq (s : State) (u : Nat) : Option IqWord :=
  let x := getCap s u
  let mine (w : IqWord) : Bool :=
    decide (dmIn w.res.demod = capInst s u ∧ 0 ≤ ticksTo x.a0 w.res.endTc) && wbit (reg s .cap u 0x048) (w.res.demod % 32) &&
      !x.iqTaken.contains w.num
  let first (b : Option IqWord) (w : IqWord) : Option IqWord := match b with
    | none => some w
    | some v => if 0 < ticksTo w.res.endTc v.res.endTc then some w else some v
  (s.iqWords.filter mine).foldl first none

/-- The DECISION item of tick t: the states broadcast, when one changed in that tick (R252, R264). -/
def decisionItem (s : State) (t : BitVec 48) : Option (List Byte) :=
  let at_ (c : Nat) : DState :=
    let d := getDch (bcastCatch c t s) c
    heldAt d.bc d.hist t
  let moved (c : Nat) : Bool := (getDch (bcastCatch c t s) c).hist.any (fun h => decide (h.1 = t))
  if (List.range 64).any moved then
    let codes := (List.range 64).foldl (fun v c => v + (stateCode (at_ c)).1 * 2 ^ (2 * c)) 0
    let vals := (List.range 64).foldl (fun v c => v + (stateCode (at_ c)).2 * 2 ^ c) 0
    some (leBytes t.toNat 8 ++ leBytes codes 16 ++ leBytes vals 8)
  else none

/-- The EVENTS item of tick t: the selected lines active in it, when there are any (R252, R264, log 101). -/
def eventsItem (s : State) (u : Nat) (t : BitVec 48) : Option (List Byte) :=
  let ls := (linesAt t s).filter (fun l => wbit (reg s .cap u (0x048 + 4 * (l / 32))) (l % 32))
  if ls.isEmpty then none
  else some (leBytes t.toNat 8 ++ leBytes ((List.range 128).foldl (fun v l => v + b2n (ls.contains l) * 2 ^ l) 0) 16 ++ leBytes 0 8)

/-- The item that the unit's source yields for tick t, with its source tick. The samples at the inputs, before the
converters' own (kinds 1 to 3), come with the command; everything else is the module's own. -/
def itemOf (s : State) (u : Nat) (t : BitVec 48) (bytes : List Byte) : Option (BitVec 48 × List Byte) :=
  match capKind s u with
  | 4 => (nextIq s u).map (fun w => (w.res.endTc, leBytes (resBits w.res) 16))
  | 5 | 6 | 7 => some (t, (tapCodes s u t).flatMap (fun c => leBytes (ux 16 c) 2))
  | 8 => (decisionItem s t).map (fun b => (t, b))
  | 9 => (eventsItem s u t).map (fun b => (t, b))
  | _ => some (t, bytes)

/-- A DEMOD_IQ tap passes a result word. -/
def wordTaken (u : Nat) (s : State) : State :=
  if capKind s u ≠ 4 then s
  else match nextIq s u with
    | some w =>
      let x := getCap s u
      setCap u { x with iqTaken := (w.num :: x.iqTaken).filter (fun n => s.iqWords.any (fun v => decide (v.num = n))) } s
    | none => s

/-- An item of the unit's source reaches it. -/
def takeSource (u : Nat) (src : BitVec 48) (bytes : List Byte) (s : State) : State :=
  let k := capKind s u
  let x := getCap s u
  let older := match x.got with
    | none => false
    | some t => !decide (k = 4) && decide (ticksTo t src ≤ 0)
  if !capBusy s u || bytes.length ≠ capItemSize k || bytes.isEmpty || older || decide (ticksTo x.a0 src < 0) then s
  else
    let n := 15 * bytes.length
    let held := stagedNow s u
    if capSparse k && decide (15 * 2 ^ 20 < held + n) then
      raiseEvt .cap u 6 (bump (setCap u { x with gap := true } s) .cap u 0x31C 31 0 1)
    else
      let it : CapItem := { tick := src, mt := mtAt s src, bytes := bytes, gap := x.gap }
      let y := { x with
        got := some src
        gap := false
        staged := if capSparse k then held + n else 0
        stagedAt := s.clk.tc }
      let fresh := match x.trig with
        | none => true
        | some g => decide (g.at_ = s.clk.tc)
      if fresh then
        -- how late a hit may be has no bound (R253): the items of this capture stay until its trigger
        capRoom u (setCap u { y with hist := y.hist ++ [it] } s)
      else takeItem_ u (beginRecords u (setCap u y s)) it

/-- SOURCE_ITEM: the item of the unit's source reaches it at its source tick plus the lag (R252). A DEMOD_IQ tap takes its
next result word, whatever tick is named. -/
def sourceItem (u : Nat) (t : BitVec 48) (bytes : List Byte) (s0 : State) : State :=
  let k := capKind s0 u
  let src := match nextIq s0 u with
    | some w => if k = 4 then w.res.endTc else t
    | none => t
  let s := passTo (src + BitVec.ofNat 48 (capLag k)) s0
  match itemOf s u src bytes with
  | none => s
  | some (at_, bs) => wordTaken u (takeSource u at_ bs s)

/-! ## The trigger sequencer (R253 to R257) -/

/-- What a hit of the unit's own source carries (R253): the codes of a tap, a result word that was sent; samples of the
inputs come with the command. -/
def hitOf (s : State) (u : Nat) (src : BitVec 48) (h : Hit) : Option Hit :=
  match capKind s u with
  | 4 =>
    let is (w : IqWord) : Bool :=
      decide (w.res.endTc = src ∧ dmIn w.res.demod = capInst s u) && wbit (reg s .cap u 0x048) (w.res.demod % 32) &&
      decide (h = .result w.res.void (Fin.ofNat 4 w.res.state))
    if s.iqWords.any is then some h else none
  | 5 | 6 | 7 => some (.level ((tapCodes s u src).map (fun c => (c, 0))))
  | _ => some h

/-- HIT_DUE: a hit reaches the sequencer at its source tick plus the lag, or late. -/
def hitDue (u : Nat) (src : BitVec 48) (h : Hit) (s0 : State) : State :=
  let due := src + BitVec.ofNat 48 (capLag (capKind s0 u))
  let late := decide (0 < ticksTo due s0.clk.tc)
  let s := passTo due s0
  if !capBusy s u then s
  else match hitOf s u src h with
    | none => s
    | some g =>
      let x := getCap s u
      raiseEvtIf late .cap u 0 (setCap u { x with hits := x.hits ++ [(src, g, late)] } s)

/-- The value a LEVEL predicate compares (COMP). -/
def levelValue (comp : Nat) (z : Int × Int) : Int :=
  match comp with
  | 1 => z.2
  | 2 => |z.1| + |z.2|
  | _ => z.1

/-- Look through samples in order: the first that qualifies under MODE, and whether the signal has been on the far side of
its threshold after them (R254). -/
def levelScan (mode comp : Nat) (thr hyst : Int) : Bool → Nat → List (Int × Int) → Option Nat × Bool
  | primed, _, [] => (none, primed)
  | primed, i, z :: zs =>
    let v := levelValue comp z
    let ok := match mode with
      | 0 => decide (thr ≤ v)
      | 1 => decide (v ≤ thr)
      | 2 => primed && decide (thr ≤ v)
      | _ => primed && decide (v ≤ thr)
    let far := match mode with
      | 2 => decide (v ≤ thr - hyst)
      | 3 => decide (thr + hyst ≤ v)
      | _ => false
    let p := far || (primed && !ok)
    let (r, p1) := levelScan mode comp thr hyst p (i + 1) zs
    (if ok then some i else r, p1)

/-- The hits of a LEVEL predicate: source tick, sample and lateness of the first that qualifies, and the far side seen. -/
def levelHits (mode comp : Nat) (thr hyst : Int) :
    Bool → List (BitVec 48 × Hit × Bool) → Option (BitVec 48 × Nat × Bool) × Bool
  | primed, [] => (none, primed)
  | primed, (src, .level zs, late) :: hs =>
    let (i, p) := levelScan mode comp thr hyst primed 0 zs
    let (r, p1) := levelHits mode comp thr hyst p hs
    (match i with
      | some k => some (src, k, late)
      | none => r, p1)
  | primed, (_, .result _ _, _) :: hs => levelHits mode comp thr hyst primed hs

/-- A counter or timer (0 to 3), and its compare value. -/
def capCount (s : State) (u j : Nat) : Nat := rdPair s .cap u (0x090 + 8 * j)
def capCompare (s : State) (u j : Nat) : Nat := rdPair s .cap u (0x0B0 + 8 * j)

/-- A predicate in tick x: whether it is true, the position and sample it gives a trigger, lateness, and the far side
seen (R254). -/
def predicate (s : State) (u : Nat) (x : BitVec 48) (p : Nat) : Bool × Option (BitVec 48 × Nat × Bool) × Bool :=
  let c := getCap s u
  let o := 0x100 + 8 * p
  let arg := rd s .cap u o 23 16
  let mode := rd s .cap u o 15 14
  let thr := sx 17 (rd s .cap u (o + 4) 16 0)
  let hyst : Int := rd s .cap u (o + 4) 31 20
  let primed := c.primed.contains p
  let neg := rdBit s .cap u o 31
  -- an inverted LEVEL or RESULT predicate is true on a hit that does not qualify, at that hit's source tick
  let miss (is : Hit → Bool) : Option (BitVec 48 × Nat × Bool) :=
    if neg then (c.hits.find? (fun h => is h.2.1)).map (fun h => (h.1, 0, h.2.2)) else none
  let raw : Bool × Option (BitVec 48 × Nat × Bool) × Bool :=
    match predType s u p with
    | 1 => ((linesAt x s).contains (arg % 128), none, primed)
    | 2 => (c.acts.contains (arg % 4, x), none, primed)
    | 3 =>
      let r := levelHits mode (rd s .cap u o 13 12) thr hyst primed c.hits
      (r.1.isSome, r.1.or (miss (fun h => match h with
        | .level _ => true
        | .result _ _ => false)), r.2)
    | 4 =>
      let d := getDch (bcastCatch (arg % 64) x s) (arg % 64)
      let st : DState := match mode with
        | 0 => .resolved false
        | 1 => .resolved true
        | 2 => .void
        | _ => .lost
      (decide (heldAt d.bc d.hist x = st) && d.hist.any (fun h => decide (h.1 = x)), none, primed)
    | 5 =>
      let good (h : BitVec 48 × Hit × Bool) : Bool := match h.2.1 with
        | .result void state => if void then nbit arg 4 else nbit (arg % 16) state.val
        | .level _ => false
      let r := (c.hits.find? good).map (fun h => (h.1, 0, h.2.2))
      (r.isSome, r.or (miss (fun h => match h with
        | .level _ => false
        | .result _ _ => true)), primed)
    | 6 => (decide (capCompare s u (arg % 2) ≤ capCount s u (arg % 2)), none, primed)
    | 7 => (decide (capCompare s u (2 + arg % 2) ≤ capCount s u (2 + arg % 2)), none, primed)
    | 8 =>
      let g := getGroup s (arg % 8)
      (g.opened && decide (g.t0 = x), none, primed)
    | 9 => (true, none, primed)
    | _ => (false, none, primed)
  (xor raw.1 neg, raw.2.1, raw.2.2)

/-- The pre-trigger is filled at a position (R259). -/
def preFull (s : State) (u : Nat) (t : BitVec 48) : Bool :=
  let x := getCap s u
  if capDense (capKind s u) then decide ((capPre s u : Int) ≤ ticksTo x.a0 t)
  else decide (capPre s u ≤ (x.hist.filter (fun it => decide (ticksTo t it.tick < 0))).length)

def condOff (st c : Nat) : Nat := 0x200 + 0x10 * st + 4 * c

/-- The position a condition's trigger takes. -/
def condTrig (ps : List (Bool × Option (BitVec 48 × Nat × Bool) × Bool)) (s : State) (u st c : Nat) (x : BitVec 48) :
    BitVec 48 × Nat × Bool :=
  ((ps.getD (rd s .cap u (condOff st c) 2 0) (false, none, false)).2.1).getD (x, 0, false)

/-- The winning condition of a state among the true ones: TRIG conditions that R259 ignores are false. The ignored, the
winner, the others. -/
def winner (s : State) (u st : Nat) (pos : Nat → BitVec 48) : List Nat → Nat × Option (Nat × List Nat)
  | [] => (0, none)
  | c :: cs =>
    let trig := rdBit s .cap u (condOff st c) 8
    if trig && decide (capStatus s u ≠ 3) && !preFull s u (pos c) && !rdBit s .cap u 0x040 19 then
      let (n, r) := winner s u st pos cs
      (n + 1, r)
    else (0, some (c, cs))

/-- Take a trigger (R256, R259, R260). -/
def takeTrig (u st c : Nat) (also : List Nat) (pos : BitVec 48 × Nat × Bool) (x : BitVec 48) (s : State) : State :=
  if capStatus s u = 3 then raiseEvt .cap u 4 (bump s .cap u 0x088 31 16 1)
  else
    let y := getCap s u
    let m := (also.map (fun i => 2 ^ i)).sum
    let g : CapTrig := {
      t := pos.1, sample := pos.2.1, left := st, cond := c, also := m, late := pos.2.2, at_ := x
      old := (reg s .cap u 0x07C, reg s .cap u 0x080, reg s .cap u 0x084), oldEvt := rdBit s .cap u 0x010 1 }
    let z := { y with
      trig := some g
      trigPut := false
      first := true
      short := !preFull s u pos.1
      post := capPost s u }
    let next := rd s .cap u (condOff st c) 6 4
    let s1 := setCapStatus u 3 (setCap u z s)
    let s2 := wrPair (wrAll s1 .cap u 0x07C (next * 2 ^ 12 + st * 2 ^ 8 + c * 2 ^ 4 + m)) .cap u 0x080 pos.1.toNat
    fireLine (96 + u) x false (raiseEvt .cap u 1 s2)

/-- STOP (R260). -/
def takeStop (u : Nat) (s : State) : State := if capStatus s u = 3 then completeCapture u 64 s else endUnit u 6 s

/-- Counters and timers advance after the transition (R257). -/
def advanceCounts (u st : Nat) (next : Option Nat) (ps : List Bool) (s : State) : State :=
  (List.range 4).foldl (fun t j =>
    let cfg := 0x0D0 + 4 * j
    let run := if j < 2 then ps.getD (rd s .cap u cfg 26 24) false else nbit (rd s .cap u cfg 15 8) st
    let clr := match next with
      | none => false
      | some n => nbit (rd s .cap u cfg 7 0) n
    let v := if clr then 0 else if run then min (capCount s u j + 1) (2 ^ 48 - 1) else capCount s u j
    wrPair t .cap u (0x090 + 8 * j) v) s

/-- TRIGGER_SAMPLE: one evaluation, in this tick; a second one in the same tick does nothing. -/
def triggerSample (u : Nat) (s : State) : State :=
  let x := s.clk.tc
  let c := getCap s u
  if !capBusy s u || decide (c.done = some x) then s
  else
    let st := capState s u
    let ps := (List.range 8).map (predicate s u x)
    let truth := ps.map (·.1)
    let conds := (List.range 4).filter (fun i =>
      rdBit s .cap u (condOff st i) 31 && truth.getD (rd s .cap u (condOff st i) 2 0) false)
    let (ign, win) := winner s u st (fun i => (condTrig ps s u st i x).1) conds
    let c1 := { c with
      done := some x
      hits := []
      acts := c.acts.filter (fun a => decide (0 < ticksTo x a.2))
      primed := (List.range 8).filter (fun p => (ps.getD p (false, none, false)).2.2) }
    let s1 := setCap u c1 s
    let s2 := if ign = 0 then s1 else raiseEvt .cap u 3 (bump s1 .cap u 0x088 15 0 ign)
    match win with
    | none => advanceCounts u st none truth s2
    | some (i, also) =>
      let o := condOff st i
      let next := rd s .cap u o 6 4
      let s3 := advanceCounts u st (some next) truth (setCapState u next s2)
      let s4 := if rdBit s .cap u o 8 then takeTrig u st i also (condTrig ps s u st i x) x s3 else s3
      let s5 := if rdBit s .cap u o 10 then askTbus (rd s .cap u 0x040 23 21) (x + 1) s4 else s4
      if rdBit s .cap u o 9 then takeStop u s5 else s5

/-- PRE_FILLED: the pre-trigger is filled at a0 + PRE, or for a sparse source with the item that completes it (R259). -/
def preFilled (u : Nat) (s0 : State) : State :=
  if capStatus s0 u ≠ 1 then s0
  else
    let s := if capDense (capKind s0 u) then passTo ((getCap s0 u).a0 + BitVec.ofNat 48 (capPre s0 u)) s0 else s0
    if capDense (capKind s u) || decide (capPre s u ≤ (getCap s u).hist.length) then setCapStatus u 2 s else s

/-! ## Release and egress (R265 to R269) -/

/-- A shot of the group that overlaps the ticks of a record has not closed (R265). -/
def shotOpenOver (s : State) (g : Nat) (r : CapRec) : Bool :=
  let x := getGroup s g
  (x.running && decide (ticksTo r.last x.t0 ≤ 0)) ||
  (match x.opening with
    | none => false
    | some t => decide (ticksTo r.last t ≤ 0))

/-- The tags of the closed shots that overlap a record (R265). -/
def recordTag (s : State) (g : Nat) (r : CapRec) : BitVec 8 :=
  ((getGroup s g).past.filter (fun p => decide (ticksTo r.last p.1 ≤ 0 ∧ ticksTo p.2.1 r.first ≤ 0))).foldl
    (fun m p => m ||| p.2.2) 0

/-- Release the first record that is not released, if it may be. -/
def releaseFirst (s : State) (g : Nat) : List CapRec → Option (CapRec × List CapRec)
  | [] => none
  | r :: rs =>
    if r.released then
      match releaseFirst s g rs with
      | none => none
      | some (q, qs) => some (q, r :: qs)
    else if shotOpenOver s g r then none
    else some (r, { r with released := true } :: rs)

/-- RECORD_RELEASE (R265). -/
def recordRelease (u : Nat) (s : State) : State :=
  let x := getCap s u
  let g := capGroup s u
  match releaseFirst s g x.recs with
  | none => s
  | some (r, rs) =>
    ringPut r.base r.ring (r.place + 2) [recordTag s g r] (setCap u { x with recs := rs } s)

def egrOn (s : State) (u : Nat) : Bool := rdBit s .cap u 0x300 31
def egrPort (s : State) (u : Nat) : Nat := rd s .cap u 0x300 30 30

/-- The destination entry of a unit's egress: the MAC address, if it is valid (R349, R351). -/
def egrDest (s : State) (u : Nat) : Option Nat :=
  let h := egrPort s u
  let o := 0x100 + 8 * rd s .cap u 0x304 3 0
  if rdBit s .host h (o + 4) 31 then some (rd s .host h o 31 0 + 2 ^ 32 * rd s .host h (o + 4) 15 0) else none

/-- The egress can send: the stream is open, its host port in service with LINK. -/
def egrReady (s : State) (u : Nat) : Bool := egrOn s u && hostOn s (egrPort s u) && rdBit s .host (egrPort s u) 0x060 29

/-- The line rate of a host port in its present mode, in 100 MB/s (R340, R341). -/
def lineRate (s : State) (h : Nat) : Nat :=
  if rdBit s .host h 0x060 28 then 125
  else match rd s .host h 0x040 1 0 with
    | 0 => 500
    | 1 => 250
    | _ => 125

/-- The cap on a unit's egress in eighths of 100 MB/s: RATE, and (8 - T) / 8 of the line rate at the throttle level of the
unit's group (R268, R430). -/
def egrCap (s : State) (u : Nat) : Option Nat :=
  let r := rd s .cap u 0x300 15 0
  let t := (getGroup s (capGroup s u)).throttle
  let line := (8 - t) * lineRate s (egrPort s u)
  if t = 0 then (if r = 0 then none else some (8 * r)) else some (if r = 0 then line else min line (8 * r))

/-- The ticks that n bytes take at the cap: 1 MB/s is 1/750 byte a tick (log 102). -/
def egrTicks (s : State) (u n : Nat) : Nat :=
  match egrCap s u with
  | none => 0
  | some c => (60 * n + c - 1) / max 1 c

/-- Bytes have gone out: the next record may follow once they are within the cap (R268). -/
def egrSpend (u n : Nat) (s : State) : State :=
  let k := egrTicks s u n
  setCap u { getCap s u with egrAt := if k = 0 then none else some (s.clk.tc + BitVec.ofNat 48 k) } s

/-- The next record waits for the cap. -/
def egrWait (u : Nat) (s : State) : State :=
  match (getCap s u).egrAt with
  | none => s
  | some t => passTo t s

/-- Send one record frame (R266, R268, R349): the CRC covers the sequence number, header and payload; a spoilt record
carries the complement of its CRC (R290). -/
def sendRecord (u dest plen : Nat) (spoilt : Bool) (body : List Byte) (s : State) : State :=
  let n := rd s .cap u 0x310 31 0
  let o := rd s .cap u 0x308 31 0 + 2 ^ 32 * rd s .cap u 0x30C 11 0
  let c0 := crc32c (leBytes n 4 ++ body)
  let c := if spoilt then ~~~c0 else c0
  let space := 2 ^ max 20 (min 44 (rd s .cap u 0x300 29 24))
  let o1 := (o + 64 + (plen + 63) / 64 * 64) % space
  let s1 := daxkaSend (egrPort s u) dest 0x09 0 0 (o + u * 2 ^ 48) (body ++ wordBytes c) s
  egrSpend u (body.length + 4) (wrPair (wrAll s1 .cap u 0x310 ((n + 1) % 2 ^ 32)) .cap u 0x308 o1)

/-- The OVW field of the next record sent, which then counts anew (R264). -/
def takeOvw (u : Nat) (s : State) : Nat × State :=
  let x := getCap s u
  (x.ovw, setCap u { x with ovw := 0 } s)

/-- Send a stream header (R264, R267): the PTP time of MT in this tick, and its TC. -/
def sendHeader (u dest : Nat) (s : State) : State :=
  let (ovw, s1) := takeOvw u s
  let m := mtNs s
  let h : RecHead := { type := 2, mt := m, tc := s.clk.tc, capno := (getCap s u).capno, plen := 64, ovw := ovw }
  let pay := leBytes (m / 10 ^ 9) 6 ++ leBytes (m % 10 ^ 9) 4 ++ leBytes 0 6 ++ leBytes s.clk.tc.toNat 6 ++ leBytes 0 42
  let s2 := sendRecord u dest 64 false (headBytes s u h ++ pay) s1
  setCap u { getCap s2 u with hdrMt := some m } { s2 with owesHeader := s2.owesHeader.filter (fun v => decide (v ≠ u)) }

/-- A stream header is due before a record with the given MT (R267, R357). -/
def headerDue (s : State) (u mt : Nat) : Bool :=
  s.owesHeader.contains u ||
  match (getCap s u).hdrMt with
  | none => true
  | some h => decide (2 ^ 31 ≤ sx 64 (ux 64 ((mt : Int) - (h : Int))))

/-- RECORD_SEND (R268): the oldest record, when it is released; for an invalid destination it is overwritten instead. -/
def recordSend (u : Nat) (s : State) : State :=
  if !egrReady s u then s
  else
    match (getCap s u).recs with
    | [] => s
    | r :: _ =>
      if !r.released then s
      else
        match egrDest s u with
        | none => evictOne u s
        | some dest =>
          -- the egress port reaches the Pantry only in its region (R278)
          if !portReaches s (88 + u) r.base r.ring then s else
          let s0 := egrWait u s
          let s1 := egrWait u (if headerDue s0 u r.mt then sendHeader u dest s0 else s0)
          let (ovw, s2) := takeOvw u s1
          let raw := ringGet s2 r.base r.ring r.place r.size
          let bytes := raw.take 0x20 ++ leBytes ovw 4 ++ raw.drop 0x24
          let s3 := sendRecord u dest r.plen r.spoilt bytes s2
          let x := getCap s3 u
          setCap u { x with recs := x.recs.drop 1 } s3

/-- EGR_CFG.EN changes from 0 to 1: a stream opens with its header, sequence number 0 (R266, R267). -/
def egrOpen (u : Nat) (s : State) : State :=
  let s1 := setCap u { getCap s u with hdrMt := none } (wrAll s .cap u 0x310 0)
  match egrReady s1 u, egrDest s1 u with
  | true, some dest => sendHeader u dest s1
  | _, _ => s1

/-- EGR_ENABLE: a write that sets EGR_CFG.EN, ignored while the unit is ARMED, READY or POST (R273). -/
def egrEnable (u : Nat) (s : State) : State :=
  if capBusy s u || egrOn s u then s else egrOpen u (wr s .cap u 0x300 31 31 1)

/-- EGR_PEND: the unsent bytes in the ring. -/
def egrPend (s : State) (u : Nat) : Nat := ((getCap s u).recs.map (·.size)).sum

end Sys2Proof.Machine
end

