-- ==== Sys2Proof/Machine/Power.lean ====
section
/-! DEFINITION. The thermal model, throttling, power domains and shedding (19_thermal_and_power.md). -/

namespace Sys2Proof.Machine

def setTherm (x : Therm) (s : State) : State := { s with therm := x }
def setShed (x : Shed) (s : State) : State := { s with shed := x }
def domOff (d : Nat) : Nat := 0x080 + 4 * d

/-! ## Domains switched off: shed stages 5 and 6, thermal shutdown -/

/-- A flux output ramps to 0 V, and its DAC powers down when the ramp has ended at the lands (R155). One that the park holder
keeps at code 0 is there already. -/
def fluxOff (o : Nat) (s : State) : State :=
  let f0 := getFlux s o
  if f0.holds.contains .off then s
  else if f0.holder && decide (parkCode s o = 0) then setFlux s o { f0 with holds := .off :: f0.holds, downAt := some 0 }
  else
    let s1 := fluxRamp false o (fluxTakeOver o s)
    setFlux s1 o { getFlux s1 o with holds := .off :: (getFlux s1 o).holds, downAt := none }

/-- A flux output's DAC is powered again: the park holder drives it, as after start-up (R441, log 28). -/
def fluxOn (o : Nat) (s : State) : State :=
  let f := getFlux s o
  setFlux s o { f with
    holds := f.holds.filter (fun h => decide (h ≠ .off))
    holder := true
    downAt := none
    ramp := none
    acts := []
    playing := []
    moves := []
    tails := []
    atPark := true
    code := parkCode s o }

/-- DOMd.ON of some domains. -/
def setDoms (ds : List Nat) (on : Bool) (s : State) : State :=
  ds.foldl (fun t d => wr t .pwr 0 (domOff d) 31 30 (if on then 3 else 0)) s

/-- Every playing output mutes in this tick (R431, R482). -/
def muteAll (s : State) : State :=
  gated s.clk.tc (fun t => (pulsedOuts s).foldl (fun u out => setOut u out { getOut u out with seqMute := true }) t) s

/-- Ticks in which a level formed reaches the lands at most: 24 and the longest LINE_DELAY (R144, R482). -/
def landTicks : Nat := 25 + 8192 / 4

/-- Time passes until every flux output has ramped to 0 V at the lands (R155). -/
def fluxesDown (s : State) : State :=
  let busy := (s.fluxes.filter (fun e => e.2.downAt.isNone)).map (·.1)
  if busy.isEmpty then s else passTicks landTicks (busy.foldl (fun t o => rampDone o t) s)

/-- Every domain but the management domain switches off (R431, R442): running shots are CORRUPT and end, the outputs mute,
the flux outputs fall to 0 V and then power down, the ring bypass closes. -/
def goDark (s : State) : State :=
  let s1 := (List.range 256).foldl (fun t o => fluxOff o t) (muteAll (tagAll tagCorrupt s))
  let stop (t : State) (g : Nat) : State :=
    let x := getGroup t g
    setGroup t g { x with running := false, boundary := false, opening := none, pend := none }
  let s2 := fluxesDown ((List.range 8).foldl stop s1)
  bypassUpdate (setDoms (List.range 47) false { s2 with
    boot := { s2.boot with dark := true }
    seqs := []
    caps := []
    items := []
    cals := []
    calPlays := []
    preqs := [], refilled := [], rows := [], trainSlots := [] })

/-! ## Throttling (R429, R430) -/

def throttle (s : State) : Nat := rd s .therm 0 0x05C 31 29

/-- Groups with no shot running take the throttle level at once (R430); a change may pause or free calibration. -/
def throttleTakes (s : State) : State :=
  let one (t : State) (g : Nat) : State :=
    let x := getGroup t g
    if x.running || x.boundary then t else setGroup t g { x with throttle := throttle t }
  calKick ((List.range 8).foldl one s)

/-- The level rises by one; at 7 it raises THROT_MAX instead. -/
def throttleRise (s : State) : State :=
  if throttle s = 7 then raiseFault .therm 0 1 s
  else throttleTakes (raiseEvt .therm 0 2 (wr s .therm 0 0x05C 31 29 (throttle s + 1)))

/-- THROTTLE_UP: RISE milliseconds have passed with THROT set. -/
def throttleUp (s : State) : State := if s.therm.throt then throttleRise s else s

/-- The hottest estimate, signed, in 1/16 °C. -/
def hottest (s : State) : Int := sx 16 (rd s .therm 0 0x05C 15 0)

/-- Level and hysteresis of a threshold register; THR_SHUT above 125 °C acts as 125 °C (R428). -/
def threshold (s : State) (off : Nat) : Int × Int :=
  let l := sx 16 (rd s .therm 0 off 15 0)
  (if off = 0x04C then min l 2000 else l, (rd s .therm 0 off 31 16 : Int))

/-- THROTTLE_DOWN: FALL milliseconds have passed below the release of THROT; a frozen level does not fall. -/
def throttleDown (s : State) : State :=
  let (l, h) := threshold s 0x048
  if hottest s < l - h ∧ 0 < throttle s ∧ !rdBit s .therm 0 0x05C 28 then
    throttleTakes (raiseEvt .therm 0 3 (wr s .therm 0 0x05C 31 29 (throttle s - 1)))
  else s

/-! ## Shedding (R438 to R442, R483) -/

/-- The demand (R438). -/
def shedDemand (s : State) : Nat :=
  let force := min 6 (rd s .pwr 0 0x040 2 0)
  let pin := if s.pins.shedN then 0 else 4
  let cold := if s.therm.lstop then 4 else 0
  max force (max pin (max cold (max s.shed.cur s.shed.volt)))

/-- The lowest stage that every group has entered. -/
def stageAll (s : State) : Nat := (List.range 8).foldl (fun m g => min m (getGroup s g).stage) 6

/-- SHED_STAT.PENDING: a stage change awaits a shot boundary. -/
def shedPending (s : State) : Bool :=
  (List.range 8).any (fun g => decide ((getGroup s g).stage < shedDemand s)) || s.shed.due

/-- SHED_STAT and its events follow the stages of the groups. -/
def refreshShed (s : State) : State :=
  let old := stage s
  let new := stageAll s
  let s1 := wr (wr s .pwr 0 0x054 26 24 (shedDemand s)) .pwr 0 0x054 21 21 (b2n (shedPending s))
  let s2 := wr (wr s1 .pwr 0 0x054 23 23 (b2n (!s.pins.shedN))) .pwr 0 0x054 31 29 new
  if new = old then s2
  else if old < new then
    raiseEvt .pwr 0 0 (setShed { s2.shed with history := (List.range' (old + 1) (new - old)).reverse ++ s2.shed.history }
      (bump s2 .pwr 0 0x05C 31 16 (new - old)))
  else raiseEvt .pwr 0 1 (setShed { s2.shed with history := new :: s2.shed.history } s2)

/-- A host port goes to 100GBASE-KR1 for stage 3, and back; before its page is up, too (R341). -/
def hostShed (on : Bool) (h : Nat) (s : State) : State :=
  let s1 := wr s .host h 0x060 28 28 (b2n on)
  raiseEvt .host h (if on then 2 else 3) (hostEnterMode h (if on then 2 else hostMode s1 h) s1)

/-- The flux outputs that a group's stage 4 parks: those of its flux sequencers, and of the groupless ones with group 0
(log 28). -/
def groupFlux (s : State) (g : Nat) : List Nat :=
  (List.range 32).filter (fun k => decide (seqGroup s (80 + k) = some g) || (decide (g = 0) && (seqGroup s (80 + k)).isNone))

/-- What one stage does in a group as the group enters it; `first` says that no group had entered it before (R440,
R483). -/
def stageActs (g n : Nat) (first : Bool) (s : State) : State :=
  match n with
  | 1 => ((List.range 8).filter (fun u => decide (capGroup s u = g))).foldl (fun t u => shedUnit u t) s
  | 2 => if first then calKick s else s
  | 3 => if first then hostShed true 1 (hostShed true 0 s) else s
  | 4 =>
    let x := getGroup s g
    let s1 := if x.opening.isSome || x.pend.isSome then startOverrun g (setGroup s g { x with opening := none, pend := none }) else s
    (groupFlux s g).foldl (fun t k => fluxGroupPark k t) s1
  | 5 =>
    if first then
      calShed (setDoms (List.range' 0 32 ++ List.range' 38 4) false
        (pantryLost ((List.range 256).foldl (fun t o => fluxOff o t) s)))
    else s
  | _ => s

/-- A group enters every stage up to n, in turn. -/
def enterStages (g n : Nat) (s : State) : State :=
  let one (t : State) (k : Nat) : State :=
    let x := getGroup t g
    if k ≤ x.stage then t
    else
      let first := decide (stageFirst t < k)
      stageActs g k first (gated t.clk.tc (fun u => setGroup u g { x with stage := k }) t)
  refreshShed ((List.range' 1 n).foldl one s)

/-- The log entry and the switching off of stage 6 (R442, R457): input current (no command reports it: free), and the last
five stages. -/
def stageSix (s : State) : State :=
  if s.boot.dark then s
  else
    let (i, s1) := freeDraw s
    let h := (s1.shed.history.take 5).zipIdx.foldl (fun n e => n + e.1 * 2 ^ (3 * e.2)) 0
    goDark (logEvent 2 (addrOf .pwr 0 0) (i % 65536 * 65536 + h) s1)

/-- Every stage up to n is entered at once in every group, and running shots are CORRUPT (R439). -/
def enterNow (n : Nat) (s : State) : State :=
  let s1 := (List.range 8).foldl (fun t g => enterStages g n t) (tagAll tagCorrupt s)
  if n = 6 then stageSix s1 else s1

/-- A group has a shot running or stands in its boundary. -/
def inShotOrBoundary (s : State) (g : Nat) : Bool := (getGroup s g).running || (getGroup s g).boundary

/-- The demand has changed: higher stages are entered as R439 says. -/
def applyDemand (s : State) : State :=
  let d := shedDemand s
  if s.boot.dark then refreshShed s
  else if 5 ≤ d ∧ stageAll s < d then enterNow d s
  else
    let one (t : State) (g : Nat) : State := if inShotOrBoundary t g then t else enterStages g d t
    refreshShed ((List.range 8).foldl one s)

/-- What leaving a stage undoes (R341, R441). -/
def leaveStage (n : Nat) (s : State) : State :=
  match n with
  | 5 => (List.range 256).foldl (fun t o => fluxOn o t) (setDoms (List.range' 0 32 ++ List.range' 38 4) true s)
  | 3 => hostShed false 1 (hostShed false 0 s)
  | 2 => calKick s
  | _ => s

/-- One step down, in every group together (R439). -/
def stepDown (s : State) : State :=
  let top := stageFirst s
  let one (t : State) (g : Nat) : State :=
    let x := getGroup t g
    setGroup t g { x with stage := min x.stage (top - 1) }
  refreshShed (leaveStage top (setShed { s.shed with due := false } (gated s.clk.tc (fun u => (List.range 8).foldl one u) s)))

/-- A step down that waits is taken, when it is still called for; stage 6 is left only by a restart. -/
def takeStepDown (s : State) : State :=
  if s.shed.due && decide (shedDemand s < stageFirst s) && decide (stageFirst s < 6) then stepDown s
  else setShed { s.shed with due := false } s

/-- The highest voltage demand whose threshold a VIN lies below, with or without the hysteresis (R438). -/
def voltDemand (s : State) (mv : Nat) (hyst : Bool) : Nat :=
  let below (off : Nat) : Bool :=
    decide (mv < rd s .pwr 0 off 15 0 + if hyst then rd s .pwr 0 off 31 16 + 1 else 0)
  if below 0x050 then 6 else if below 0x04C then 5 else if below 0x048 then 4 else 0

/-- VIN_THRESHOLD: VIN crosses a threshold (R438). A voltage demand rises at once; it clears after HOLD. -/
def vinThreshold (mv : Nat) (s : State) : State :=
  let s1 := wr s .pwr 0 0x054 15 0 mv
  applyDemand (setShed { s1.shed with volt := max s1.shed.volt (voltDemand s1 mv false) } s1)

/-- SHED_DWELL: the input current has stayed at or above ILIM_SOFT for DWELL (R438). -/
def shedDwell (s : State) : State :=
  let c := s.shed.cur
  applyDemand (setShed { s.shed with cur := max c (min 5 (min (c + 1) (stage s + 1))) } s)

/-- SHED_HOLD: HOLD has elapsed (R438, R439): the current demand falls by one, a voltage demand that VIN has left clears,
and a step down falls due. -/
def shedHold (s : State) : State :=
  let mv := rd s .pwr 0 0x054 15 0
  let s1 := setShed { s.shed with cur := s.shed.cur - 1, volt := min s.shed.volt (voltDemand s mv true) } s
  if shedDemand s1 < stageFirst s1 ∧ stageFirst s1 < 6 then
    let s2 := setShed { s1.shed with due := true } s1
    if (List.range 8).any (shotRuns s2) then refreshShed s2 else takeStepDown s2
  else refreshShed s1

/-- SHED_WAIT: a stage entry has waited WAIT for a group's boundary (R439). -/
def shedWait (g : Nat) (s : State) : State :=
  let d := min 4 (shedDemand s)
  if shotRuns s g && decide ((getGroup s g).stage < d) then enterStages g d (tagShot g tagCorrupt (bump s .pwr 0 0x05C 15 0 1))
  else s

/-- The shed step of a group's boundary (R26, R439): the demanded stages are entered, or a step down that is due is
taken. -/
def shedAtBoundary (g : Nat) (s : State) : State :=
  takeStepDown (enterStages g (min 4 (shedDemand s)) s)

/-- SHED_N has been low for 1 µs, or rises (R48). -/
def shedPin (level : Bool) (s : State) : State := applyDemand { s with pins := { s.pins with shedN := level } }

/-- A domain leaves regulation for 10 µs (R436): stage 6 whatever the demand. -/
def domainTrip (d : Nat) (s : State) : State :=
  let s1 := raiseFault .pwr 0 1 (wr s .pwr 0 (domOff d) 30 30 0)
  enterNow 6 (logEvent 3 (addrOf .pwr 0 0) d s1)

/-- OVER_VOLTAGE: the input switch opens (R463). -/
def overVoltage (s : State) : State := enterNow 6 s

/-- PHASE_FAIL: a regulator phase fails and is dropped (R435). -/
def phaseFail (d : Nat) (s : State) : State :=
  let fitted := rd s .pwr 0 (domOff d) 29 26
  let working := rd s .pwr 0 (domOff d) 25 22
  let s1 := addWear 9 d 0 1 s
  if working = fitted then raiseEvt .pwr 0 3 (finishSub 9 1 d 0 0 (serveUnit 9 d 0 0 s1))
  else raiseFault .pwr 0 0 (wr s1 .pwr 0 (domOff d) 25 22 (working - 1))

/-! ## Thermal shutdown (R431) -/

/-- SHUT sets. -/
def thermalShutdown (s : State) : State :=
  if s.boot.dark then s
  else
    let site := rd s .therm 0 0x05C 20 16
    let s1 := setTherm { s.therm with auto := rdBit s .therm 0 0x040 30 } (logEvent 1 (addrOf .therm 0 0) site s)
    goDark { s1 with boot := { s1.boot with shutdown := true } }

/-! ## Sensors (R425 to R427) -/

def siteOff (k : Nat) : Nat := 0x100 + 4 * k
def siteBit (s : State) (k i : Nat) : Bool := rdBit s .therm 0 (siteOff k) i
def setSite (k i : Nat) (v : Bool) (s : State) : State := wr s .therm 0 (siteOff k) i i (b2n v)

/-- The node nearest a site: lid quadrant k for site 20 + k; for a die site the spec does not say (log 26). -/
def siteNodeOf (k : Nat) : Nat := if 20 ≤ k then 56 + (k - 20) else Config.siteNode k % 48

/-- Freeze the throttle for a failing controlling site (R427). -/
def freezeFor (k : Nat) (s : State) : State :=
  if rd s .therm 0 0x05C 20 16 = k ∧ 0 < throttle s ∧ !s.therm.frozen.contains k then
    raiseEvt .therm 0 5 (wr (setTherm { s.therm with frozen := s.therm.frozen ++ [k] } s) .therm 0 0x05C 28 28 1)
  else s

/-- The spare diode of a site is brought in (R426, R444): estimated until its readings agree. -/
def spareIn (k : Nat) (s : State) : State :=
  let s1 := setSite k 0 true (serveUnit 8 k 0 1 s)
  let t := s1.therm
  raiseEvt .therm 0 4 (finishSub 8 1 k 0 1 (setTherm { t with
    agree := t.agree.filter (fun e => decide (e.1 ≠ k))
    off := t.off.filter (fun e => decide (e.1 ≠ k)) } s1))

/-- A primary diode is judged failed (R426, R427). -/
def primaryFails (k : Nat) (s : State) : State :=
  if siteBit s k 2 then s
  else
    let s1 := freezeFor k (addWear 8 k 0 1 (setSite k 2 true s))
    if siteBit s1 k 1 then s1
    else if siteBit s1 k 3 then raiseFault .therm 0 0 (setSite k 0 true s1)
    else if rd s1 .therm 0 0x008 11 8 = 3 then setSite k 0 true s1
    else spareIn k s1

/-- A spare diode is judged failed: a site it serves stays estimated for good (R426). -/
def spareFails (k : Nat) (s : State) : State :=
  let s1 := setSite k 3 true s
  if siteBit s1 k 1 then raiseFault .therm 0 0 (setSite k 0 true (freezeFor k s1))
  else if siteBit s1 k 2 then raiseFault .therm 0 0 (setSite k 0 true s1)
  else s1

/-- A count by site. -/
def siteCount (xs : List (Nat × Nat)) (k : Nat) : Nat := ((xs.find? (fun e => decide (e.1 = k))).map (·.2)).getD 0
def putCount (xs : List (Nat × Nat)) (k n : Nat) : List (Nat × Nat) :=
  xs.filter (fun e => decide (e.1 ≠ k)) ++ (if n = 0 then [] else [(k, n)])

/-- A site whose diode in use is gone for good: nothing more is judged there. -/
def siteDead (s : State) (k : Nat) : Bool := siteBit s k 0 && !(siteBit s k 1 && !siteBit s k 3)

/-- Judge the diode in use at a site from its reading and the uncorrected model (R426). -/
def judgeSite (k : Nat) (r t : Int) (s : State) : State :=
  if siteDead s k then s
  else
    let far := decide (16 * (rd s .therm 0 0x040 15 8 : Int) < 10 * |r - t|)
    let n := if far then siteCount s.therm.off k + 1 else 0
    let s1 := setTherm { s.therm with off := putCount s.therm.off k n } s
    if r < -960 ∨ 2560 < r ∨ 4 ≤ n then (if siteBit s1 k 1 then spareFails k s1 else primaryFails k s1)
    else if siteBit s1 k 1 && siteBit s1 k 0 then
      let m := if far then 0 else siteCount s1.therm.agree k + 1
      let s2 := setTherm { s1.therm with agree := putCount s1.therm.agree k m } s1
      if 4 ≤ m then setSite k 0 false s2 else s2
    else s1

/-- DIODE_CROSSCHECK: the comparison, once a second, of the two diodes of a site whose primary works (R426), in 1/16 °C: when
they differ by more than 2.0 K the one further from the model's node is judged failed, of two equally far a free one (log 107). -/
def diodeCrosscheck (k : Nat) (prim spare : Int) (s : State) : State :=
  if siteBit s k 1 || siteBit s k 2 || siteBit s k 3 || decide (|prim - spare| ≤ 32) then s
  else
    let m := sx 16 (rd s .therm 0 (0x200 + 4 * siteNodeOf k) 15 0)
    if |spare - m| < |prim - m| then primaryFails k s
    else if |prim - m| < |spare - m| then spareFails k s
    else
      let (x, s1) := freeDraw s
      if x % 2 = 0 then primaryFails k s1 else spareFails k s1

/-- FREEZE_TIMEOUT: 10 ms after the failure neither a spare reading nor a confident estimate exists (R427). -/
def freezeTimeout (s : State) : State :=
  if rdBit s .therm 0 0x05C 28 then raiseFault .therm 0 0 (throttleRise s) else s

/-- SPARE_SEL of the THERM page (R444): FORCE_SPARE brings in the spare of SITE_SEL at once, FORCE_PRIMARY restores a
primary that has not failed. -/
def thermSel (v : Nat) (s : State) : State :=
  let k := rd s .therm 0 0x040 28 24
  if 24 ≤ k then s
  else if v = 1 && !siteBit s k 1 && !siteBit s k 3 then spareIn k s
  else if v = 2 && siteBit s k 1 && !siteBit s k 2 then setSite k 0 false (setSite k 1 false s)
  else s

/-! ## The Trivet update (R424 to R428) -/

/-- The power of a domain, in 10 mW, from the latest current and rail voltage (R424, R434, R412). -/
def domPower (s : State) (d : Nat) : Rat :=
  let i := rd s .monadc 0 (0x200 + 4 * d) 17 0
  let v := rd s .monadc 0 (0xA00 + 4 * (3 + d / 4)) 17 0
  ((i * v : Nat) : Rat) * 65536 / 10 / 2 ^ 36

/-- Measure the domains' powers. -/
def measurePower (s : State) (d : Nat) : State :=
  let (p, s1) := freeField (domPower s d) s
  let v := p % 65536
  hmSample 8 d 0 v (wr s1 .pwr 0 (domOff d) 15 0 v)

/-- The network's step: each node's temperature is free, for its resistances and capacitances are trims, and R275 does not
say how the Pantry devices' temperatures enter it (log 16). -/
def integrateNodes : Nat → State → List Int × State
  | 0, s => ([], s)
  | n + 1, s =>
    let (v, s1) := freeDraw s
    let (ts, s2) := integrateNodes n s1
    (sx 16 v :: ts, s2)

/-- Correct the node nearest a usable site (R425). -/
def correctNode (readings : List Int) (e : List Int × State) (k : Nat) : List Int × State :=
  let (ts, s) := e
  if siteBit s k 0 then e
  else
    let n := siteNodeOf k
    let t := ts.getD n 0
    let (v, s1) := freeRound ((t : Rat) + (rd s .therm 0 0x040 23 16 : Rat) / 256 * ((readings.getD k 0 : Rat) - (t : Rat))) s
    (ts.set n v, s1)

/-- SITEk after an update: the temperature used and the model residual in 0.1 K. -/
def showSite (readings raw cor : List Int) (s : State) (k : Nat) : State :=
  let r := readings.getD k 0
  let used := if siteBit s k 0 then cor.getD (siteNodeOf k) 0 else r
  let (d, s1) := freeRound (((r - raw.getD (siteNodeOf k) 0 : Int) : Rat) * 10 / 16) s
  wr (wr s1 .therm 0 (siteOff k) 31 16 (ux 16 used)) .therm 0 (siteOff k) 15 8 (ux 8 (satS 8 d))

/-- A site's freeze ends with a usable spare reading or a confident estimate, whose uncertainty is free (R427). -/
def thawSite (s : State) (k : Nat) : State :=
  let (v, s1) := freeDraw s
  if !siteBit s1 k 0 || decide (v % 2 = 1) then
    let f := s1.therm.frozen.filter (fun j => decide (j ≠ k))
    wr (setTherm { s1.therm with frozen := f } s1) .therm 0 0x05C 28 28 (b2n (!f.isEmpty))
  else s1

def setHigh (s : State) (off : Nat) (was : Bool) (t : Int) : Bool :=
  let (l, h) := threshold s off
  decide (l ≤ t) || (was && decide (l - h ≤ t))
def setLow (s : State) (off : Nat) (was : Bool) (t : Int) : Bool :=
  let (l, h) := threshold s off
  decide (t ≤ l) || (was && decide (t ≤ l + h))

/-- The thresholds (R428, R429, R431, R433). -/
def evalThresholds (hot cold : Int) (s : State) : State :=
  let x := s.therm
  let low := rdBit s .therm 0 0x040 31
  let y := { x with
    warn := setHigh s 0x044 x.warn hot
    throt := setHigh s 0x048 x.throt hot
    shut := setHigh s 0x04C x.shut hot
    lwarn := low && setLow s 0x050 x.lwarn cold
    lstop := low && setLow s 0x054 x.lstop cold }
  let s1 := raiseEvtIf (y.warn && !x.warn) .therm 0 0 (setTherm y s)
  let s2 := raiseEvtIf (y.lwarn && !x.lwarn) .therm 0 1 s1
  let s3 := raiseFaultIf (y.lstop && !x.lstop) .therm 0 1 s2
  let s4 := if y.throt && !x.throt then throttleRise s3 else s3
  let s5 := if y.lstop ≠ x.lstop then applyDemand s4 else s4
  if y.shut && !x.shut then thermalShutdown s5 else s5

/-- The first node that holds a temperature. -/
def nodeOf (ts : List Int) (t : Int) : Nat := ts.findIdx (fun u => decide (u = t))

/-- TRIVET_UPDATE: powers, integration, sensors, correction, estimates and thresholds. The readings are those of the
diodes in use. -/
def trivetUpdate (readings : List Int) (s : State) : State :=
  let s1 := (List.range 48).foldl measurePower s
  let (raw, s2) := integrateNodes 64 s1
  let s3 := (List.range 24).foldl (fun t k => judgeSite k (readings.getD k 0) (raw.getD (siteNodeOf k) 0) t) s2
  let (cor, s4) := (List.range 24).foldl (correctNode readings) (raw, s3)
  let s5 := cor.zipIdx.foldl (fun t e => hmSample 7 e.2 0 e.1 (wr t .therm 0 (0x200 + 4 * e.2) 15 0 (ux 16 e.1))) s4
  let s6 := (List.range 24).foldl (showSite readings raw cor) s5
  let hot := (cor.take 60).foldl max (cor.getD 0 0)
  let cold := (cor.take 56).foldl min (cor.getD 0 0)
  let site := Config.nearSite (nodeOf cor hot) % 24
  let sum := ((List.range' 20 4).map (fun k => sx 16 (rd s6 .therm 0 (siteOff k) 31 16))).sum
  let (mean, s7) := freeRound ((sum : Rat) / 4) s6
  let s8 := wr (wr s7 .therm 0 0x05C 15 0 (ux 16 hot)) .therm 0 0x05C 20 16 site
  let s9 := wr (wr s8 .therm 0 0x060 15 0 (ux 16 mean)) .therm 0 0x064 15 0 (ux 16 cold)
  driftChecks (evalThresholds hot cold (s9.therm.frozen.foldl thawSite s9))

end Sys2Proof.Machine
end

