-- ==== Sys2Proof/Machine/Stores.lean ====
section
/-! DEFINITION. Stores: apertures, staging, commits (R67 to R70, R75, R109, R124, R157, R176, R242, R479), and the vendor
image (R99 to R102). -/

namespace Sys2Proof.Machine

/-! ## Staging (R69) -/

/-- Write bytes at an aperture address through a path: staged, or refused with BOUND; the vendor region is not written
(R68, R69). The status is the one a Daxka request is answered with: 0 OK, 5 VTARGET, 6 BOUND. -/
def stageBytes (p a : Nat) (bs : List Byte) (s : State) : Nat × State :=
  match storeAt a with
  | none => (0, s)
  | some b =>
    if isControl b && decide (b + 0x3C000 ≤ a) then (5, setLoadStat b 5 s)
    else
      let x := getStaging s p
      match x.bound with
      | some c => if c = b then (0, setStaging p { x with data := putBytes x.data a bs } s) else (6, setLoadStat b 6 s)
      | none => (0, setStaging p { bound := some b, data := putBytes (mapTake s.stores b (b + storeLen b)) a bs } s)

/-- One byte of a store as a path reads it: staged when its buffer is bound to the store, committed otherwise; the vendor
region reads zero (R68, R69). -/
def storeByte (s : State) (p a : Nat) : Byte :=
  match storeAt a with
  | none => 0
  | some b =>
    if isControl b && decide (b + 0x3C000 ≤ a) then 0
    else if (getStaging s p).bound = some b then byteAt (getStaging s p).data a else byteAt s.stores a

/-! ## The Mortar graph's staging bank (R242) -/

/-- Set GRAPH_LOAD.STATUS. -/
def setGraphStat (st : Nat) (s : State) : State := wr s .mortar 0 0x060 31 28 st

/-- Stage bytes of the graph. While an accepted bank waits for its exchange the bank is not free (log 23). -/
def stageGraph (p a : Nat) (bs : List Byte) (s : State) : Nat × State :=
  if s.gWait.isSome then (6, setGraphStat 6 s)
  else
    match s.gBind with
    | some c => if c = p then (0, { s with gStage := putBytes s.gStage a bs }) else (6, setGraphStat 6 s)
    | none => (0, { s with gBind := some p, gStage := putBytes (mapTake s.stores gBase (gBase + gLen)) a bs })

def graphByte (s : State) (p a : Nat) : Byte := if s.gBind = some p then byteAt s.gStage a else byteAt s.stores a

/-- Bytes written at any aperture address through a path, with the status of a Daxka request. -/
def apertureBytes (p a : Nat) (bs : List Byte) (s : State) : Nat × State :=
  if inGraph a then stageGraph p a bs s else stageBytes p a bs s

/-- A byte of any aperture. -/
def apertureByte (s : State) (p a : Nat) : Byte := if inGraph a then graphByte s p a else storeByte s p a

/-- The pages of a store are up (R63). -/
def apertureUp (s : State) (a : Nat) : Bool :=
  if inGraph a then ptUp s .mortar
  else match storeAt a with
    | none => true
    | some b => ptUp s (storePage b).1

/-- APERTURE_WRITE: a 32-bit word. -/
def apertureWrite (p a : Nat) (v : Word) (s : State) : State := if apertureUp s a then (apertureBytes p a (wordBytes v) s).2 else s

/-- The word a path reads from an aperture. -/
def apertureWord (s : State) (p a : Nat) : Word :=
  if apertureUp s a then BitVec.ofNat 32 (ofBytes ((List.range 4).map (fun i => apertureByte s p (a + i)))) else 0

/-! ## Illegal words (R75, R109) -/

/-- The kind whose rules a sequencer's words follow: its own, or that of the sequencer a spare serves. 0xF: none. -/
def kindOf (s : State) (q : Nat) : Nat :=
  let r := if 120 ≤ q then rd s .seq q 0x040 15 9 else q
  if r < 64 then 0 else if r < 80 then 1 else if r < 112 then 2 else if r < 120 then 3 else 0xF

/-- A kind field that the kind tables forbid (R80 to R83). -/
def kindFieldBad (kind k : Nat) : Bool :=
  match kind with
  | 0 => (List.range 8).any (fun p => decide (nbits k (20 * p + 18) (20 * p + 16) = 7))
  | 1 => decide (nbits k 41 39 = 7 ∨ nbits k 159 86 ≠ 0)
  | 2 => (List.range 8).any (fun p =>
      let x := nbits k (20 * p + 19) (20 * p)
      decide (nbits x 4 2 ≠ 0) || nbit x 19 || decide (5 ≤ nbits x 18 16) ||
        (decide (nbits x 18 16 = 0 ∨ 3 ≤ nbits x 18 16) && decide (nbits x 10 5 ≠ 0)))
  | 3 => decide (nbits k 159 14 ≠ 0)
  | _ => false

/-- A word breaks a rule other than that of vendor targets. -/
def wordBad (kind : Nat) (u : Uword) : Bool :=
  decide (u.next = 7 ∨ u.loopOp = 3 ∨ 6 ≤ u.wait ∨ u.pred = 3) ||
  (decide (u.wait = 5) && decide (16 ≤ u.dch)) ||
  (decide (kind = 3) && decide (u.tset ≠ 0)) || (!decide (kind = 3) && decide (4 ≤ u.fire)) ||
  (decide (u.loopOp = 1) && decide (u.next = 4 ∨ u.next = 5 ∨ u.next = 6)) || kindFieldBad kind u.k

/-- A word names a target in the vendor region outside its entry words. -/
def vendorTarget (u : Uword) : Bool := decide ((u.next = 1 ∨ u.next = 2 ∨ u.next = 3) ∧ 0x1E10 ≤ u.target)

/-- A segment table's word that R109 rejects. -/
def entryBad (kind q w : Nat) (m : Bytes) : Bool :=
  let x := laneBitsIn m q w 0 16
  if (List.range 16).all (fun k => decide (laneIn m q w k = 0)) then false
  else
    let port (p : Nat) : Nat := nbits x (48 + 16 * p + 15) (48 + 16 * p)
    let portBad (y : Nat) : Bool :=
      decide (nbits y 15 14 ≠ 0) ||
      (if kind = 0 then decide (nbits y 13 11 = 7)
       else decide (5 ≤ nbits y 13 11) || (decide (nbits y 13 11 = 0 ∨ 3 ≤ nbits y 13 11) && decide (nbits y 5 0 ≠ 0)))
    decide (nbits x 15 0 < 8) || nbit x 47 || decide (nbits x 239 112 ≠ 0) || decide (0x1000 ≤ w) ||
      (List.range 4).any (fun p => portBad (port p))

/-- The words of a control store that an image holds a non-zero byte of, lowest first. All others are legal: an all-zero
microword is SEQ with a wait of 1 tick, an all-zero entry is unused (R110). -/
def wordsOf (b : Nat) (m : Bytes) : List Nat := (m.map (fun e => (e.1 - b) / 32)).dedup.mergeSort

/-- The first word that fails the check of illegal words, with its status: 4 ILLEGAL, 5 VTARGET. -/
def illegalWord (s : State) (q : Nat) (m : Bytes) : Option (Nat × Nat) :=
  let kind := kindOf s q
  let st (w : Nat) : Nat :=
    if segMode s q then (if entryBad kind q w m then 4 else 0)
    else
      let u := uwordOf (laneBitsIn m q w 0 4) (laneBitsIn m q w 4 12)
      if wordBad kind u then 4 else if vendorTarget u then 5 else 0
  match (wordsOf (controlBase q) m).find? (fun w => decide (st w ≠ 0)) with
  | some w => some (st w, w)
  | none => none

/-- The checks of a commit: the status of the first that fails, 0 when all pass, and the word it names (R70, R124). -/
def commitCheck (s : State) (b : Nat) (m : Bytes) (crc : Word) : Nat × Option Nat :=
  if crc32c (dense m b (storeLen b)) ≠ crc then (2, none)
  else if !isControl b then (0, none)
  else
    let q := storeOwner b
    match (wordsOf b m).find? (fun w => (badLaneIn m q w).isSome) with
    | some w => (3, some w)
    | none => match illegalWord s q m with
      | some (st, w) => (st, some w)
      | none => (0, none)

/-! ## Commit and discard (R70, R479) -/

/-- Commit a store through a path with a CRC; the status a Daxka request is answered with. A commit refused with NONE or
BOUND leaves UNIT as it was (R124, log 94). An accepted commit ends STORE_BAD (R98, R111). -/
def commitStore (p b : Nat) (crc : Word) (s : State) : Nat × State :=
  let x := getStaging s p
  match x.bound with
  | none => (7, loadFail b (setLoadStat b 7 s))
  | some c =>
    if c ≠ b then (6, loadFail b (setLoadStat b 6 s))
    else
      let s0 := noteUnit b s
      let r := commitCheck s0 b x.data crc
      if r.1 = 0 then
        let e : Accepted := { path := p, store := b, crc := crc, data := x.data }
        let s1 := setLoadStat b 1 { s0 with accepted := s0.accepted.filter (fun y => decide (y.store ≠ b)) ++ [e] }
        let s2 := if isControl b then storeGood (storePage b).2.1 s1 else s1
        (0, if storeBusy s2 b then s2 else copyImage s2 e)
      else
        let s1 := setLoadStat b r.1 s0
        let s2 := match r.2 with
          | some w => wr s1 .seq (storeOwner b) 0x04C 12 0 w
          | none => s1
        (r.1, loadFail b s2)

/-- Discard the staged image of a store through a path. While an accepted image waits for its boundary (BUSY) the buffer
unbinds and the image is copied all the same (DESIGN CHOICE, log 119). -/
def discardStore (p b : Nat) (s : State) : Nat × State :=
  match (getStaging s p).bound with
  | none => (0, s)
  | some c => if c = b then (0, unbind p s) else (6, setLoadStat b 6 s)

/-- A commit through the store's own register takes its CRC register. -/
def commitReg (p b : Nat) (s : State) : State :=
  let t := storePage b
  (commitStore p b (reg s t.1 t.2.1 (crcOff b)) s).2

/-! ## The graph's commit -/

/-- The staged bank becomes the active one (R242). -/
def exchangeBanks (crc : Word) (data : Bytes) (s : State) : State :=
  let s1 := { s with stores := mapSplice data s.stores gBase (gBase + gLen), gWait := none, graphBad := false }
  let s2 := wr (setGraphStat 0 s1) .mortar 0 0x060 24 24 (1 - rd s1 .mortar 0 0x060 24 24)
  let s3 := wrAll s2 .mortar 0 0x064 crc.toNat
  let s4 := wrAll s3 .mortar 0 0x06C (gW data * 2 ^ 26 + gK data * 2 ^ 20 + gD data)
  raiseEvt .mortar 0 9 (if rd s4 .mortar 0 0x070 31 29 = 4 then setMortState 0 s4 else s4)

def commitGraph (p : Nat) (crc : Word) (s : State) : Nat × State :=
  match s.gBind with
  | none => (7, raiseEvt .mortar 0 8 (setGraphStat 7 s))
  | some c =>
    if c ≠ p then (6, raiseEvt .mortar 0 8 (setGraphStat 6 s))
    else
      let r := graphCheck s.gStage crc
      if r.1 = 0 then
        let s1 := { s with gBind := none, gStage := [] }
        (0, if s.mort.run then setGraphStat 1 { s1 with gWait := some (crc, s.gStage) } else exchangeBanks crc s.gStage s1)
      else
        (r.1, raiseEvt .mortar 0 8
          (wr (wr (setGraphStat r.1 s) .mortar 0 0x060 16 16 (b2n r.2.edge)) .mortar 0 0x060 15 0 r.2.item))

def discardGraph (p : Nat) (s : State) : Nat × State :=
  match s.gBind with
  | none => (0, s)
  | some c => if c = p then (0, { s with gBind := none, gStage := [] }) else (6, setGraphStat 6 s)

/-- An exchange that waits takes place (R242, R480). -/
def exchangeWaiting (s : State) : State :=
  match s.gWait with
  | some (crc, data) => exchangeBanks crc data s
  | none => s

/-! ## The vendor image (R99 to R102) -/

def imageBytes : VImage → Bytes
  | .empty => []
  | .spoilt => []
  | .factory => Config.factoryImage.foldl (fun m e => putByte m e.1 e.2) []
  | .bytes b => b

def vimgLen : Nat := 66048

/-- VIMG_STAT.STATUS. -/
def vimgStat (s : State) : Nat := rd s .nvm 0 0x10C 31 28
def setVimgStat (v : Nat) (s : State) : State := wr s .nvm 0 0x10C 31 28 v

/-- Write bytes of the staging buffer; a write returns the status to IDLE (R101), and ends a command that runs: an INSTALL
then writes no slot and loads nothing (log 95). -/
def vimgPut (o : Nat) (bs : List Byte) (s : State) : State :=
  let v := s.vimg
  setVimgStat 0 { s with vimg := { v with buf := putBytes v.buf o bs, cmd := none } }

/-- VIMG_DATA_ACCESS: a word written or read at VIMG_ADDR, which advances by 4. Outside the buffer nothing is written and
zero is read. -/
def vimgDataAccess (v : Option Word) (s : State) : State :=
  let o := 4 * rd s .nvm 0 0x100 16 2
  let s1 := match v with
    | some w => if o < vimgLen then vimgPut o (wordBytes w) s else s
    | none => { s with rdata := if o < vimgLen then wordAt s.vimg.buf o else 0 }
  wr s1 .nvm 0 0x100 16 2 (o / 4 + 1)

/-- VERIFY starts; one written while a command runs is ignored (DESIGN CHOICE, log 117). -/
def vimgVerify (s : State) : State :=
  if s.vimg.cmd.isSome then s else setVimgStat 1 { s with vimg := { s.vimg with cmd := some .verify } }

/-- The format of an image (R100). -/
def vimgFormat (m : Bytes) : Bool :=
  decide (leNat m 0 4 = 0x5651444F ∧ leNat m 7 1 = 1) && (mapTake m 0x8 0x80).isEmpty && (mapTake m 0x10145 vimgLen).isEmpty

/-- The version of an image: patch, minor, major (R100). -/
def vimgVersion (m : Bytes) : Nat := leNat m 4 3

/-- What verification finds in an image: format, CRC, key hash, signature, in order; 2 is OK (R101). The fused key hash is
not in the spec, and SHA-384 and ECDSA P-384 are named, not given: both verdicts are free functions of the bytes (log 6). -/
def vimgCheck (m : Bytes) : Nat :=
  if !vimgFormat m then 3
  else if crc32c (dense m 0 0x10080) ≠ wordAt m 0x10080 then 4
  else if !Config.keyOk (mapTake m 0x10084 0x100E5) then 5
  else if !Config.sigOk (mapTake m 0 0x10145) then 6 else 2

/-- VERIFY_COMPLETE. -/
def vimgVerified (s : State) : State :=
  if s.vimg.cmd ≠ some .verify then s
  else
    let m := s.vimg.buf
    let st := vimgCheck m
    let s1 := setVimgStat st { s with vimg := { s.vimg with cmd := none } }
    if st = 2 then wr s1 .nvm 0 0x10C 23 0 (vimgVersion m) else s1

/-- The offset of a kind's section in an image (R100). -/
def sectionOff (kind : Nat) : Nat := 0x80 + 0x4000 * kind

/-- The sequencers that hold a vendor region: all, and the spares in service (R102). -/
def vendorSeqs (s : State) : List Nat := List.range 120 ++ [120, 121, 122, 123].filter (fun q => decide (kindOf s q ≠ 0xF))

/-- SYS.VENDOR_SET from the VENDOR_VER of the sequencers (R102). -/
def vendorSet (s : State) : State :=
  let vs := (vendorSeqs s).map (fun q => (reg s .seq q 0x05C).toNat)
  let good := vs.filter (fun v => nbit v 31)
  let vers := good.map (fun v => v % 2 ^ 24)
  let low := match vers with
    | [] => 0
    | v :: t => t.foldl min v
  let mixed := decide (vs.dedup.length ≠ 1)
  let invalid := decide (good.length ≠ vs.length)
  wrAll s .sys 0 0x058 (b2n mixed * 2 ^ 31 + b2n invalid * 2 ^ 30 + low)

/-- Copy an image's section into a sequencer's vendor region. -/
def vendorCopy (v : VImage) (s : State) (q : Nat) : State :=
  let m := imageBytes v
  let a := controlBase q + 0x3C000
  let o := sectionOff (kindOf s q)
  let part := mapShift (mapTake m o (o + 0x4000)) o a
  let s1 := { s with
    stores := mapSplice part s.stores a (a + 0x4000)
    vimg := { s.vimg with waiting := s.vimg.waiting.filter (fun r => decide (r ≠ q)) } }
  raiseEvt .seq q 8 (wrAll s1 .seq q 0x05C (2 ^ 31 + vimgVersion m))

/-- A sequencer is in use by a running shot or a calibration segment: PG_STAT.ACTIVE (R398). -/
def seqActive (s : State) (q : Nat) : Bool := (seqShotRuns s q && (getSeq s q).inShot) || calUses s q

/-- Load an image: at once where the sequencer is idle, at its group's next boundary elsewhere (R102). -/
def vendorLoad (v : VImage) (s : State) : State :=
  let qs := vendorSeqs s
  let s1 := { s with vimg := { s.vimg with image := v, waiting := qs } }
  let s2 := (qs.filter (fun q => !seqActive s1 q)).foldl (vendorCopy v) s1
  vendorSet (wr s2 .sys 0 0x04C 28 28 0)

/-- LOAD: acts only on a verified buffer. -/
def vimgLoad (s : State) : State := if vimgStat s = 2 && ptUp s .seq then vendorLoad (.bytes s.vimg.buf) s else s

/-- INSTALL: acts only on a verified buffer; refused with WP while WP_N is low (R49, R101). -/
def vimgInstall (s : State) : State :=
  if vimgStat s ≠ 2 then s
  else if !s.pins.wpN then setVimgStat 7 s
  else setVimgStat 1 { s with vimg := { s.vimg with cmd := some .install } }

/-- INSTALL_COMPLETE: the older slot is written and the image loaded, or the write failed and leaves that slot one that does
not verify. -/
def vimgInstalled (ok : Bool) (s : State) : State :=
  if s.vimg.cmd ≠ some .install then s
  else
    let v := s.vimg
    let img := VImage.bytes v.buf
    if !ok then
      let v0 := if v.newerB then { v with slotA := .spoilt } else { v with slotB := .spoilt }
      setVimgStat 8 { s with vimg := { v0 with cmd := none } }
    else
      let v1 := if v.newerB then { v with slotA := img, newerB := false } else { v with slotB := img, newerB := true }
      let s1 := { s with vimg := { v1 with cmd := none } }
      let s2 := wr (setVimgStat 2 s1) .nvm 0 0x10C 24 24 (b2n v1.newerB)
      if ptUp s2 .seq then vendorLoad img s2 else s2

/-- VIMG_DISCARD: the buffer is cleared. -/
def vimgDiscard (s : State) : State := setVimgStat 0 { s with vimg := { s.vimg with buf := [], cmd := none } }

/-- The image of an NVM slot verifies; that of manufacture does (log 6). -/
def vimgVerifies : VImage → Bool
  | .empty => false
  | .spoilt => false
  | .factory => true
  | .bytes m => decide (vimgCheck m = 2)

/-- The slot that start-up phase 2 selects (R59, R61, R101): the newer of the two that verify. -/
def vimgNewest (v : Vimg) : VImage :=
  let (a, b) := if v.newerB then (v.slotB, v.slotA) else (v.slotA, v.slotB)
  if vimgVerifies a then a else if vimgVerifies b then b else .empty

/-! ## SEQ_CFG.MODE (R111) -/

/-- SEQ_MODE_WRITE: drive and flux sequencers only; ignored with CFG_BUSY while ACTIVE; a change marks the customer region
unchecked. -/
def seqModeWrite (q : Nat) (mode : Bool) (s : State) : State :=
  let kind := kindOf s q
  if !(kind = 0 || kind = 2) then s
  else if seqActive s q then raiseEvt .seq q 6 s
  else if segMode s q = mode then s
  else
    let s1 := wr s .seq q 0x040 16 16 (b2n mode)
    setSeq { s1 with unchecked := q :: s1.unchecked.filter (fun r => decide (r ≠ q)) } q { getSeq s1 q with st := .storeBad }

/-- The customer region of a sequencer passes its check: the committed CRC and every word's parity (R98). -/
def storeCheckOk (s : State) (q : Nat) : Bool :=
  let b := controlBase q
  let m := mapTake s.stores b (b + 0x3C000)
  (match mapGet (fun _ => none) s.committed b with
    | some c => decide (crc32c (dense m b 0x3C000) = c)
    | none => m.isEmpty) &&
  (wordsOf b m).all (fun w => (badLaneIn m q w).isNone)

end Sys2Proof.Machine
end

