-- ==== Sys2Proof/Machine/Resets.lean ====
section
/-! DEFINITION. PG_CTRL: the soft reset of a page (R50, R51, R98, R156, R409, R480, R484), LOCK, SPARE_SEL (R451, R454),
and ENABLE (R481). -/

namespace Sys2Proof.Machine

/-! ## What a soft reset keeps -/

/-- Registers of a page that show what lasts beyond its soft reset, as offset and mask: the substitution state (R453),
trained, thermal, supply and start-up status, the tick count's alignment (R354), the roles that substitutions gave. -/
def keptBits (pt : PT) (n off : Nat) : Word :=
  if off = 0x020 then 0xFFFFFFFF
  else match pt with
    | .sys => if off = 0x04C then 0xF7FFFFFF else if off = 0x050 ∨ off = 0x058 then 0xFFFFFFFF
        else if off = 0x05C then 0x700 else 0
    | .mgmt => if off = 0x040 then 0xFF000000 else 0
    | .pwr => if off = 0x054 ∨ 0x080 ≤ off then 0xFFFFFFFF else 0
    | .therm => if 0x05C ≤ off then 0xFFFFFFFF else 0
    | .nvm => if off = 0x10C then 0x01000000 else 0
    | .spare => if 0x080 ≤ off ∧ off < 0x0A8 then 0xFFFFFFFF else 0
    | .time => if off = 0x0AC then 0xFFFFFFFF else if off = 0x094 then 0x80000000 else 0
    | .seq => if off = 0x05C then 0xFFFFFFFF else if off = 0x040 ∧ 120 ≤ n then 0xF000FE00 else 0
    | .drv => if off = 0x054 then 0xFFFFFFFF else 0
    | .prb => if off = 0x054 then 0xFFFFFFFF else 0
    | .rdi => if 0x060 ≤ off ∧ off < 0x070 then 0xFFFFFFFF else 0
    | .flx => if 0x100 ≤ off ∧ off < 0x500 ∧ ((off - 0x100) % 0x80 = 4 ∨ (off - 0x100) % 0x80 = 8) then 0xFFFFFFFF
        else if off = 0x008 then 0xFFFFFFFF else 0
    | .mortar => if off = 0x060 then 0x01000000 else 0
    | .tile => if off = 0x040 then 0xF8000000 else 0
    | .pantry => if off = 0x040 ∨ off = 0x0A4 then 0xFFFFFFFF else 0
    | .pch => if off = 0x040 ∨ off = 0x058 then 0xFFFFFFFF else 0
    | .lane => if off = 0x04C then 0xF0000000 else 0
    | .host => if off = 0x060 then 0xD0000000 else 0
    | _ => 0

/-- The registers of a page at their reset values, but for the bits that stay. -/
def resetRegs (pg : Nat) (s : State) : State :=
  match pageOf pg with
  | none => s
  | some (pt, n) =>
    let old := mapTake s.regs (pg * 4096) (pg * 4096 + 4096)
    let s1 := { s with regs := mapDrop s.regs (pg * 4096) (pg * 4096 + 4096) }
    old.foldl (fun t e =>
      let k := keptBits pt n (e.1 % 4096)
      if k = 0 then t else setReg t e.1 (maskedValue (getReg t e.1) k e.2)) s1

/-- What belongs to a page in the path machinery: held writes, latches, a waiting ENABLE, staging buffers bound to its
stores (R22, R480). -/
def dropPageWork (pg : Nat) (s : State) : State :=
  let mine (k : Nat) : Bool := decide (k % 2 ^ 32 / 4096 = pg)
  let ofPage (b : Nat) : Bool := decide (ptBase (storePage b).1 + (storePage b).2.1 = pg)
  { s with
    held := s.held.filter (fun h => decide (h.addr / 4096 ≠ pg))
    wlatch := s.wlatch.filter (fun e => !mine e.1)
    rlatch := s.rlatch.filter (fun e => !mine e.1)
    enWait := s.enWait.filter (· ≠ pg)
    staging := s.staging.filter (fun e => !e.2.bound.any ofPage) }

/-! ## Working state -/

/-- A sequencer's unresolved branches end as wrong: nothing of a predicted path reaches an output (R51, R95). -/
def cancelBranches (q : Nat) (s : State) : State :=
  let x := getSeq s q
  let now := s.clk.tc
  let gs := x.gates.map (fun g => (g.1, g.2.1, now)) ++ x.ahead.map (fun a => (depOf q a.id, false, now))
  gs.foldl (fun t g => commitGate q (setSeq t q { getSeq t q with gates := [g] })) s

/-- The page type code and instance of a block that calibration segments may use (R409). -/
def calResetPage (pt : PT) (n : Nat) (s : State) : State :=
  match pt with
  | .seq => calResetSeq n s
  | .drv => calResetUnit 0x11 n s
  | .prb => calResetUnit 0x12 n s
  | .rdi => calResetUnit 0x13 n s
  | .flx => calResetUnit 0x14 n s
  | .ladle => calResetUnit 0x15 0 s
  | .lane => calResetUnit 0x1B n s
  | .pch => calResetUnit 0x1A n s
  | _ => s

/-- Every slot of the CAL page is emptied; an open window ends its boundary (R409). -/
def calEmpty (s : State) : State :=
  let s1 := copyReady (stopSegments { s with cals := [], trace := none, calWin := none })
  match s.calWin with
  | some (g, _) => endBoundary g s1
  | none => s1

/-- Clear a range of keys of a table. -/
def wipe {α : Type} (m : List (Nat × α)) (lo n : Nat) : List (Nat × α) := mapDrop m lo (lo + n)

/-- A drive or probe output's tones, streams and gate start anew. -/
def outReset (out : Nat) (s : State) : State :=
  { s with
    tones := wipe s.tones (out * 64) 64
    strms := wipe s.strms (out * 8) 8
    outs := mapSet (fun _ => {}) s.outs out { sent := (getOut s out).sent, sentTo := (getOut s out).sentTo } }

/-- The working state of a block after its registers are reset (R50, R119, R122, R166, R170). -/
def resetWork (pt : PT) (n : Nat) (s : State) : State :=
  match pt with
  | .sys => bypassUpdate s
  | .mgmt => { s with pbad := [] }
  | .pwr => applyDemand { s with shed := { s.shed with due := false } }
  | .therm => { s with therm := { s.therm with off := [], agree := [] } }
  | .nvm => { s with vimg := { s.vimg with buf := [], cmd := none } }
  | .monadc => { s with mon := {} }
  | .time => { s with
      slaves := [], rxqs := [], rxqPos := [], seqIds := [], align := { armed := false, passed := 0 }
      clk := { s.clk with integ := 0, step := 0 } }
  | .tbus => { s with tbusQ := [], tbusAt := none }
  | .evt => { routerEnabled s with fires := [], lines := [] }
  | .cal => calEmpty s
  | .seq =>
    let s1 := setSeq s n {}
    if 112 ≤ n ∧ n < 120 then sourceApplied (n - 112) false s1 else s1
  | .drv => outReset n s
  | .prb => outReset (64 + n) s
  | .rdi =>
    let s1 := (List.range' (32 * n) 32).foldl dmReset s
    let clear (t : State) (d : Nat) : State :=
      setDemod t d { wins := (getDemod t d).wins, refused := (getDemod t d).refused }
    let s2 := (List.range' (32 * n) 32).foldl clear s1
    setRdi s2 n { getRdi s2 n with ready := false, fails := 0, quiet := false }
  | .ladle =>
    let fresh (e : Nat × Dch) : Nat × Dch := (e.1, { e.2 with sent := 0, got := none, bad := false })
    ladleEnabled { s with
      slots := [], provArms := [], clrEntries := false, ladleJobs := []
      dchs := (s.dchs.map fresh).filter (fun e => decide (e.2 ≠ {})) }
  | .mortar => wrAll { s with mort := {}, gBind := none, gStage := [] } .mortar 0 0x06C
      (gW s.stores * 2 ^ 26 + gK s.stores * 2 ^ 20 + gD s.stores)
  | .cap => setCap n {} { s with owesHeader := s.owesHeader.filter (· ≠ n) }
  | .pantry => { s with ports := [], preqs := [], pbad := [], corrs := [], refilled := [] }
  | .lane => restart n { s with laneSec := s.laneSec.filter (fun e => decide (e.1 ≠ n)) }
  | .ring => portPrbs n <| bypassUpdate (ringRefresh n { setRPort s n {} with txq := s.txq.filter (fun e => decide (e.1 ≠ n)), txWait := s.txWait.filter (fun e => decide (e.1 ≠ n)) })
  | .host =>
    -- the stage in force keeps the port at 100GBASE-KR1 (R341)
    let mode := if rdBit s .host n 0x060 28 then 2 else 0
    let s1 := { s with hports := wipe s.hports n 1, fecs := mapSet (fun _ => none) s.fecs n none }
    portPrbs (n + 2) (if rd s .host n 0x060 31 30 = mode then hostRefresh n s1 else hostEnterMode n mode s1)
  | _ => s

/-! ## Soft reset -/

/-- SOFT_RESET of a page: a running shot that uses the block is CORRUPT and its outputs stop; the block's working state
and the registers are reset, those of a flux page only at the handover to the park holder (R50, R51, R156, R480). -/
def softReset (pg : Nat) (s : State) : State :=
  match pageOf pg with
  | none => s
  | some (pt, n) =>
    let s0 := if pt == .evt then lineCatch s else if pt == .drv then setOut s n (keepSent n s)
      else if pt == .prb then setOut s (64 + n) (keepSent (64 + n) s) else if pt == .time then noteRate s else s
    let s1 := if hasStop s0 pt n then stopBlock pt n s0 else s0
    let s2 := if pt == .seq then cancelBranches n s1 else s1
    let s3 := dropPageWork pg (calResetPage pt n s2)
    let s4 := { s3 with resetting := pg :: s3.resetting.filter (· ≠ pg) }
    if pt == .flx then setReg s4 (addrOf pt n 0x008) 0
    else
      let s5 := if pt == .sys then standAsideWrite false (releaseWrite false s4) else s4
      -- a sequencer leaves its group (R98): what waited for that group's shot waits no more
      if pt == .seq then freed (resetWork pt n (resetRegs pg s5)) else resetWork pt n (resetRegs pg s5)

/-- The flux outputs of a page hand over, and only then are its registers reset (R156). -/
def fluxHandover (g : Nat) (s : State) : State :=
  let s1 := (List.range 8).foldl (fun t k => parkHandover (8 * g + k) t) s
  let s2 := resetRegs (ptBase .flx + g) s1
  let one (t : State) (k : Nat) : State :=
    let f := getFlux t (8 * g + k)
    setFlux t (8 * g + k) { f with asw := 0, clr := false, holds := f.holds.filter (· ≠ .dacFault), sats := 0, levelSat := false,
                                   overlap := 0, parked := false }
  (List.range 8).foldl one s2

/-- A sequencer's soft reset checks the customer region and reloads the vendor region (R98). -/
def seqRecheck (q : Nat) (s : State) : State :=
  let img := vimgNewest s.vimg
  let s1 := if img ≠ .empty && (vendorSeqs s).contains q then vendorSet (vendorCopy img s q) else s
  if storeCheckOk s1 q then storeGood q s1
  else
    let s2 := setSeq { s1 with unchecked := q :: s1.unchecked.filter (· ≠ q) } q { getSeq s1 q with st := .storeBad }
    candidate_ 0 q 0 (raiseFault .seq q 2 s2)

/-- SOFT_RESET_DONE: accepted images of the page are copied, a waiting graph is exchanged, and the page is up (R50,
R480). -/
def softResetDone (pg : Nat) (s : State) : State :=
  if !s.resetting.contains pg then s
  else
    match pageOf pg with
    | none => s
    | some (pt, n) =>
      let s1 := if pt == .flx then fluxHandover n s else s
      let mine (e : Accepted) : Bool := decide ((storePage e.store).1 = pt ∧ (storePage e.store).2.1 = n)
      let s2 := (s1.accepted.filter mine).foldl copyImage s1
      let s3 := if pt == .mortar then exchangeWaiting s2 else s2
      let s4 := if pt == .seq then seqRecheck n s3 else s3
      { s4 with resetting := s4.resetting.filter (· ≠ pg) }

/-! ## LOCK and SPARE_SEL -/

/-- LOCK is written 1 (R5). -/
def pageLock (pg : Nat) (s : State) : State :=
  match pageOf pg with
  | none => s
  | some (pt, n) => wr s pt n 0x008 2 2 1

/-- A page's RWL fields are locked. -/
def pageLocked (s : State) (pt : PT) (n : Nat) : Bool := rdBit s pt n 0x008 2

/-- The page of a wear key. -/
def wearPage (k : Nat) : Option Nat := (unitPage (k / 2 ^ 24) (k / 2 ^ 12 % 2 ^ 12)).map (fun p => ptBase p.1 + p.2)

/-- SPARE_SEL AUTO: the candidates of the page follow the policy (R451). -/
def autoSel (pg : Nat) (s : State) : State :=
  let ks := (s.wears.filter (fun e => decide (e.2.st = 2 ∧ wearPage e.1 = some pg))).map (·.1)
  ks.foldl (fun t k =>
    let kind := k / 2 ^ 24
    if rdBit t .spare 0 (0x040 + 4 * kind) 31 && decide (kind < 8) then pendSub kind (k / 2 ^ 12 % 2 ^ 12) (k % 2 ^ 12) t else t) s

/-- The working tone of an output with the highest wear count, the lowest of equals. -/
def worstTone (s : State) (out : Nat) : Nat :=
  let count (t : Nat) : Nat := wearCount (getWear s (wearKey 1 out t))
  (List.range (if out < 64 then 8 else 32)).foldl (fun b t => if count b < count t then t else b) 0

/-- SPARE_SEL FORCE_SPARE: a spare at the next shot boundary, or where the kind is substituted (R451). Which tone of an output
has the highest count is judged as it is written (DESIGN CHOICE, log 112). -/
def forceSpareSel (pg : Nat) (s : State) : State :=
  match pageOf pg with
  | some (.seq, q) => if q < 120 then pendSub 0 q 0 s else s
  | some (.drv, n) => pendSub 1 n (worstTone s n) s
  | some (.prb, n) => pendSub 1 (64 + n) (worstTone s (64 + n)) s
  | some (.rdi, n) => pendSub 2 n (getRdi s n).spare s
  | some (.lane, n) => pendSub 3 n 0 s
  | some (.tile, t) => if t < 16 then pendSub 4 t 0 s else s
  | some (.pch, c) => if s.retired.contains c then s else pendSub 7 c 0 s
  | some (.therm, _) => thermSel 1 s
  | _ => s

/-- SPARE_SEL FORCE_PRIMARY: back at the next shot boundary; a lane by its own exchange, a diode at once (R454). -/
def forcePrimarySel (pg : Nat) (s : State) : State :=
  match pageOf pg with
  | some (.therm, _) => thermSel 2 s
  | some (pt, _) =>
    if pt == .seq || pt == .drv || pt == .prb || pt == .rdi || pt == .tile then
      { s with returns := s.returns.filter (· ≠ pg) ++ [pg] }
    else s
  | none => s

/-- SPARE_SEL is written: reserved codes act as AUTO. Writing FORCE_SPARE again while the spare it brought serves asks
for nothing more (log 30). -/
def spareSelWrite (pg v : Nat) (s : State) : State :=
  match pageOf pg with
  | none => s
  | some (pt, n) =>
    let again := decide (rd s pt n 0x008 11 8 = v) && decide (rd s pt n 0x020 3 0 = 2)
    let s1 := wr s pt n 0x008 11 8 v
    match v with
    | 1 => if again then s1 else forceSpareSel pg s1
    | 2 => forcePrimarySel pg s1
    | 3 => s1
    | _ => autoSel pg s1

/-! ## PG_CTRL -/

/-- The fields of a PG_CTRL write but for SOFT_RESET. -/
def pgFields (pg : Nat) (v : Word) (s : State) : State :=
  let s1 := if wbit v 2 then pageLock pg s else s
  let s2 := spareSelWrite pg (fget v 11 8) s1
  if wbit v 0 then enableBlock pg s2 else disableBlock pg s2

/-- PG_CTRL is written: SOFT_RESET acts before the other fields (R50). -/
def pgCtrlWrite (pg : Nat) (v : Word) (s : State) : State :=
  pgFields pg v (if wbit v 1 then softReset pg s else s)

end Sys2Proof.Machine
end

