-- ==== Sys2Proof/Machine/Retire.lean ====
section
/-! DEFINITION. Retirement of Pantry channels (R33, R291 to R295). -/

namespace Sys2Proof.Machine

/-- A port leaves the ledger, is named in WDRAWN, and the fault is raised (R33, R292). -/
def leaveLedger (p : Nat) (s : State) : State :=
  raiseFault .pantry 0 1 (raiseBit .pantry 0 (0x070 + 4 * (p / 32)) (p % 32) (setPort s p { getPort s p with admitted := false }))

/-- What a withdrawal does to the unit of a port: a capture unit stops (R262). A refill port's streams then find no
region (R137). -/
def withdrawEffect (p : Nat) (s : State) : State := if 80 ≤ p then withdrawUnit ((p - 80) % 8) s else s

/-- A port's withdrawal takes effect (R33). -/
def settleOne (p : Nat) (s : State) : State :=
  let s1 := { s with wdrawn := s.wdrawn.filter (fun q => decide (q ≠ p)) }
  withdrawEffect p (if (getPort s1 p).admitted then leaveLedger p s1 else s1)

/-- The group of a port has a shot running. -/
def portBusy (s : State) (p : Nat) : Bool :=
  match portGroup s p with
  | none => false
  | some g => shotRuns s g

/-- The unit of a port that step 1 of R292 has released acts. -/
def settleFreed (p : Nat) (s : State) : State :=
  withdrawEffect p { s with wfreed := s.wfreed.filter (fun q => decide (q ≠ p)) }

def setChState (ch v : Nat) (s : State) : State := wr s .pch ch 0x040 31 28 v
def setRetStat (st ch mb : Nat) (s : State) : State :=
  wrAll s .pantry 0 0x0A4 (st * 2 ^ 28 + ch * 2 ^ 16 + mb)

/-- RET_STAT.STATE: 1 withdrawing, 2 evacuating, 3 done. -/
def retState (s : State) : Nat := rd s .pantry 0 0x0A4 31 28

/-- Step 3 of R292 begins once no withdrawal of steps 1 and 2 waits for its shot boundary. -/
def evacBegin (s : State) : State :=
  match s.evac with
  | none => s
  | some ch =>
    if retState s = 1 && s.wdrawn.isEmpty && s.wfreed.isEmpty then setRetStat 2 ch 0 (setChState ch 3 s) else s

/-- Withdrawals whose groups stand between shots take effect (R33, R292). -/
def settleWithdrawn (s : State) : State :=
  let s1 := (s.wdrawn.filter (fun p => !portBusy s p)).foldl (fun t p => settleOne p t) s
  evacBegin ((s1.wfreed.filter (fun p => !portBusy s1 p)).foldl (fun t p => settleFreed p t) s1)

/-- PORT_RELEASE during a retirement: a withdrawal that waited for the port waits no more. -/
def releaseNow (s : State) : State := evacBegin (releasePort s)

/-- Withdraw a port at the next shot boundary of the groups that use it, or at once when none of their shots runs. -/
def withdrawPort (s : State) (p : Nat) : State :=
  let s1 := if s.wdrawn.contains p then s else { s with wdrawn := s.wdrawn ++ [p] }
  if portBusy s1 p then s1 else settleOne p s1

/-- Release a port for step 1 of R292; its unit acts at the next shot boundary. -/
def freePort (p : Nat) (s : State) : State :=
  let s1 := leaveLedger p { s with wdrawn := s.wdrawn.filter (fun q => decide (q ≠ p)),
                                   wfreed := s.wfreed.filter (fun q => decide (q ≠ p)) ++ [p] }
  if portBusy s1 p then s1 else settleFreed p s1

/-- Step 1 of R292: ports are released in descending number until the ledger fits. -/
def shedLedger (cap : Nat) : List Nat → State → State
  | [], s => s
  | p :: ps, s =>
    if ledgerUsed s ≤ cap then s
    else if (getPort s p).admitted then shedLedger cap ps (freePort p s)
    else shedLedger cap ps s

/-- Step 2 of R292: regions that reach above a limit are withdrawn. -/
def withdrawAbove (limit : Nat) (s : State) : State :=
  ((List.range 96).filter (fun p =>
    let x := getPort s p
    x.admitted && decide (limit < x.base + x.size))).foldl withdrawPort s

/-- Steps 1 and 2 of R292, with L the live channels before. -/
def withdrawFor (s : State) : State :=
  let l := liveChannels s
  let s1 := shedLedger (240 * (l - 1)) (List.range 96).reverse s
  withdrawAbove ((l - 1) * 2 ^ 30 - 2 ^ 26) s1

/-- MB of a channel that lie below the given-up gigabyte (R291). -/
def belowMb (s : State) : Nat := 1024 - 1024 / max 1 (liveChannels s)

/-- The channel that a place's block lives on. -/
def placeChannel (s : State) (p : Nat) : Nat := chanOfPlace s.retired p

/-- Step 4 of R292: the channel leaves service, the top gigabyte goes, the page and the map record it. What was admitted in
the lost range while the channel was evacuated is withdrawn too (R33). -/
def retireChannel (ch mb : Nat) (s0 : State) : State :=
  let s := if liveChannels s0 ≤ 1 then s0 else withdrawFor s0
  let top := (liveChannels s - 1) * 2 ^ 30
  let s1 := { s with
    pantry := s.pantry.filter (fun e => decide (e.1 < top))
    marked := s.marked.filter (fun e => decide (e.1 ≠ ch))
    evac := if s.evac = some ch then none else s.evac
    retired := s.retired ++ [ch] }
  let s2 := setRetStat 3 ch mb (setChState ch 4 (finishSub 7 2 ch 0 0 s1))
  raiseEvt .pantry 0 2 (wr s2 .pch ch 0x020 3 0 4)

/-- A planned retirement begins (R292): withdrawals, then evacuation. -/
def startRetire (ch : Nat) (s : State) : State := evacBegin (withdrawFor { setRetStat 1 ch 0 s with evac := some ch })

/-- The last live channel is not retired as planned (R295). -/
def keepLast (ch : Nat) (s : State) : State :=
  wr { s with subs := s.subs.filter (fun u => decide (u ≠ { kind := 7, inst := ch, unit := 0 })) } .pch ch 0x020 3 0 3

/-- RETIREMENT_START: a retirement that the policy or FORCE_SPARE has made pending begins, or waits for the one in
progress (R292, R295). -/
def retirementStart (ch : Nat) (s : State) : State :=
  if s.retired.contains ch || decide (s.evac = some ch) || s.retWait.contains ch ||
    !s.subs.contains { kind := 7, inst := ch, unit := 0 } then s
  else if liveChannels s ≤ 1 then keepLast ch s
  else if s.evac.isSome then { s with retWait := s.retWait ++ [ch] }
  else startRetire ch s

/-- The planned retirement that has waited longest begins. -/
def retireNext (s : State) : State :=
  match s.retWait with
  | [] => s
  | ch :: rest =>
    let s1 := { s with retWait := rest }
    if s1.evac.isSome then s
    else if s1.retired.contains ch then s1
    else if liveChannels s1 ≤ 1 then keepLast ch s1
    else startRetire ch s1

/-- EVACUATION_DONE (R292). -/
def evacuationDone (s : State) : State :=
  match s.evac with
  | none => s
  | some ch => if retState s = 2 then retireNext (retireChannel ch (belowMb s) s) else s

/-- One abrupt retirement (R293): no evacuation; the channel's blocks read zero. For the last channel every port is
withdrawn (R295). -/
def abruptRetire (s : State) (ch : Nat) : State :=
  let s1 := if liveChannels s ≤ 1 then withdrawAbove 0 (shedLedger 0 (List.range 96).reverse s) else withdrawFor s
  let s2 := { s1 with
    pantry := s1.pantry.filter (fun e => decide (placeChannel s1 e.1 ≠ ch)), pzero := s1.pzero ++ [(s1.retired, ch)] }
  let s3 := logEvent 6 (addrOf .pch ch 0) ch s2
  raiseFault .pantry 0 2 (retireChannel ch 0 s3)

/-- CHANNEL_LOSS: a channel stops answering. One being evacuated is then abandoned too, both in ascending order (R295). -/
def channelLoss (ch : Nat) (s : State) : State :=
  if s.retired.contains ch then s
  else
    let s1 := match s.evac with
      | none => abruptRetire s ch
      | some e => ([e, ch].dedup.mergeSort).foldl abruptRetire { s with evac := none }
    retireNext { s1 with retWait := s1.retWait.filter (fun c => !s1.retired.contains c) }

end Sys2Proof.Machine
end

