-- ==== Sys2Proof/Machine/Reads.lean ====
section
/-! DEFINITION. Reading the register space (R5 to R9, R34, R42, R44, R54 and every chapter's register tables): what a
register shows, and what a read does. -/

namespace Sys2Proof.Machine

/-! ## Stored registers -/

/-- The value last written: held bits over those in force (R5, R22). -/
def written (s : State) (a : Nat) : Word :=
  (s.held.filter (fun h => decide (h.addr = a))).foldl (fun v h => maskedValue v h.mask h.val) (getReg s a)

def word32 (n : Nat) : Word := BitVec.ofNat 32 n

/-! ## PG_STAT and PG_SPARE -/

/-- PG_STAT.ACTIVE: in use by a running shot, stream or calibration. -/
def blockActive (s : State) (pt : PT) (n : Nat) : Bool :=
  match pt with
  | .seq => seqActive s n
  | .drv => blockBusy s .drv n || calUses s n
  | .prb => blockBusy s .prb n || calUses s (64 + n)
  | .rdi => blockBusy s .rdi n || calUses s (64 + n)
  | .flx => blockBusy s .flx n || calUses s (80 + n)
  | .mortar | .tile => s.mort.run
  | .cap => blockBusy s .cap n || capBusy s n
  | .cal => segmentRuns s
  | _ => blockBusy s pt n

/-- The lowest index of a range that meets a test. -/
def lowest (n : Nat) (p : Nat → Bool) : Option Nat := (List.range n).find? p

/-- STATE and SPARE_ID that the THERM and PWR pages show (R444, R446). -/
def diodeSpare (s : State) : Nat :=
  match lowest 24 (fun k => siteBit s k 2 && siteBit s k 3) with
  | some k => 3 + k * 2 ^ 16
  | none => match lowest 24 (fun k => siteBit s k 1) with
    | some k => 2 + k * 2 ^ 16
    | none => 0

def phaseSpare (s : State) : Nat :=
  let short (d : Nat) : Bool := decide (rd s .pwr 0 (domOff d) 25 22 < rd s .pwr 0 (domOff d) 29 26)
  match lowest 48 short with
  | some d => (if rdBit s .pwr 0 0x018 0 then 3 else 2) + d * 2 ^ 16
  | none => if rdBit s .pwr 0 0x018 0 then 3 else 0

/-- PG_SPARE. -/
def pgSpare (s : State) (pt : PT) (n : Nat) : Word :=
  let v := reg s pt n 0x020
  let count := fget v 15 8 * 2 ^ 8
  match pt with
  | .therm => word32 (diodeSpare s + count)
  | .pwr => word32 (phaseSpare s + count)
  | _ => v

/-- PG_STAT.SPARED: a spare is substituted. -/
def spared (s : State) (pt : PT) (n : Nat) : Bool :=
  match pt with
  | .seq => (List.range 4).any (fun k => decide (n < 120 ∧ rd s .seq (120 + k) 0x040 15 9 = n))
  | .drv => rdBit s .drv n 0x054 30
  | .prb => rdBit s .prb n 0x054 30 || rdBit s .prb n 0x054 31
  | .rdi => (getRdi s n).retired.isSome
  | _ => decide (fget (pgSpare s pt n) 3 0 = 2)

/-- The number of tones of an output that play a pulse now. -/
def playingNow (s : State) (out tone : Nat) : Bool := (playingAt (toneNow s out tone) (drvNow s)).isSome

/-- The spare tone's number at which a working tone plays is its own (R139): spares play under the served tone's number. -/
def tonesPlaying (s : State) (out : Nat) : List Nat :=
  (List.range (if out < 64 then 8 else 32)).filter (playingNow s out)

/-- A tone's bit in a DRV page's PG_STAT: a served tone's pulse plays on tone 8 (R139, R142). -/
def drvPlayBits (s : State) (n : Nat) : Nat :=
  let served := if rdBit s .drv n 0x054 30 then some (rd s .drv n 0x054 4 0) else none
  (tonesPlaying s n).foldl (fun b t => b + 2 ^ (if served = some t then 8 else t)) 0

def fluxBits (s : State) (g : Nat) : Nat :=
  (List.range 8).foldl (fun b k =>
    let f := fluxShown s (8 * g + k)
    let busy := !f.holder && (!f.playing.isEmpty || f.ramp.isSome)
    b + b2n busy * 2 ^ k + b2n f.atPark * 2 ^ (8 + k)) 0

/-- One-bits of a register pair. -/
def onesOf (s : State) (pt : PT) (n off words : Nat) : Nat :=
  ((List.range (32 * words)).filter (fun i => rdBit s pt n (off + 4 * (i / 32)) (i % 32))).length

/-- The monitor converter's entry in conversion: an urgent request, or the list (R422). -/
def monEntry (s : State) : Nat :=
  match lowest 4 (fun k => s.mon.urg.any (fun u => decide (u.1 = k))) with
  | some k => 0x80 + k
  | none => s.mon.pos

/-- A channel's state as broadcast at the last completed tick (R211). -/
def shownDch (s : State) (c : Nat) : DState := bcastAt (bcastCatch c (s.clk.tc - 1) s) c (s.clk.tc - 1)

/-- Half of a pair that has a bit for every channel whose broadcast state meets a test. -/
def dchBits (s : State) (f : DState → Bool) (hi : Bool) : Word :=
  let c0 := if hi then 32 else 0
  BitVec.ofNat 32 (((List.range 32).filter (fun k => f (shownDch s (c0 + k)))).map (fun k => 2 ^ k)).sum

/-- SEQ_STAT.STATE. -/
def seqState (s : State) (q : Nat) : Nat :=
  match (getSeq s q).st with
  | .idle => 0 | .run => 1 | .wait => 2 | .ended => 3 | .stopped => 4 | .mchk => 5 | .storeBad => 6

/-- PG_STAT[31:16] by kind of page (R104, R142, R159, R187, R213, R224, R250, R251, R274, R296, R297, R319, R350, R351,
R381, R382, R411, R423, R444, R446, R459). -/
def blockStat (s : State) (pt : PT) (n : Nat) : Nat :=
  match pt with
  | .seq => seqState s n
  | .drv => drvPlayBits s n
  | .prb => (tonesPlaying s (64 + n)).length
  | .flx => fluxBits s n
  | .rdi =>
    let x := getRdi s n
    b2n x.retired.isSome * 2 ^ 15 + b2n (x.retired.isNone && !shadowPaused s n && !x.ready) * 2 ^ 14 +
      b2n x.quiet * 2 ^ 13 + x.pos * 2 ^ 5 + x.spare
  | .ladle =>
    let ds := (List.range 64).map (shownDch s)
    (ds.filter (fun d => decide (d = .unresolved))).length + b2n (ds.contains .lost) * 2 ^ 7
  | .evt => onesOf s .evt 0 0x060 4
  | .mortar => rd s .mortar 0 0x070 31 29
  | .tile => b2n (s.mort.run && decide (s.mort.issued < s.mort.wins) && tileServes s n)
  | .cap => capStatus s n
  | .pantry => liveChannels s
  | .pch => rd s .pch n 0x040 31 28 % 8
  | .lane => roleShown s n
  | .ring => ringState s n
  | .host => rd s .host n 0x060 31 30 + b2n (rdBit s .host n 0x060 29) * 4
  | .time => b2n (rdBit s .time 0 0x094 31)
  | .tbus => b2n (rdBit s .tbus 0 0x040 31)
  | .cal => calMode s
  | .monadc => monEntry s
  | .therm =>
    let t := s.therm
    throttle s + b2n (t.warn || t.throt || t.shut || t.lwarn || t.lstop) * 8
  | .pwr => stage s
  | .spare => s.spareMap.length
  | _ => 0

/-- PG_STAT. -/
def pgStat (s : State) (pt : PT) (n : Nat) : Word :=
  let resetting := isResetting s pt n
  let pend (a b : Nat) : Bool := decide (reg s pt n a &&& reg s pt n b ≠ 0)
  word32 (blockStat s pt n % 65536 * 65536 + b2n (pend 0x018 0x01C) * 64 + b2n (pend 0x010 0x014) * 32 +
    b2n (spared s pt n) * 16 + b2n (pageLocked s pt n) * 8 + b2n resetting * 4 + b2n (blockActive s pt n) * 2 +
    b2n (!resetting))

/-- PG_CTRL: ENABLE reads the value last written, in force or not (R5, R481). -/
def pgCtrl (s : State) (pt : PT) (n : Nat) : Word :=
  if s.enWait.contains (ptBase pt + n) then fput (reg s pt n 0x008) 0 0 1 else reg s pt n 0x008

/-- The common block. -/
def commonView (s : State) (pt : PT) (n off : Nat) : Word :=
  match off with
  | 0x000 => word32 (ptCode pt * 2 ^ 24 + n * 2 ^ 12)
  | 0x004 => word32 (Config.pgRev (ptCode pt))
  | 0x008 => pgCtrl s pt n
  | 0x00C => pgStat s pt n
  | 0x020 => pgSpare s pt n
  | _ => if (rowOf pt off).isSome then reg s pt n off else 0

/-! ## Views by page -/

/-- The tone whose values a tone's block reads: a serving spare reads those of the tone it serves (R139). -/
def blockTone (s : State) (out t : Nat) : Nat :=
  if out < 64 then (if t = 8 ∧ rdBit s .drv out 0x054 30 then rd s .drv out 0x054 4 0 else t)
  else
    let n := out - 64
    if t = 32 ∧ rdBit s .prb n 0x054 30 then rd s .prb n 0x054 4 0
    else if t = 33 ∧ rdBit s .prb n 0x054 31 then rd s .prb n 0x054 12 8 else t

/-- The sweep values of one of a sequencer's tones or flux outputs as they show: a predicted path keeps its steps to itself
(R94). -/
def shownSweep (s : State) (q k : Nat) : Int × Nat :=
  match (getSeq s q).ahead with
  | a :: _ => match a.sweeps.find? (fun e => decide (e.1 = k)) with
    | some e => e.2
    | none => (0, 0)
  | [] => if q < 80 then ((getTone s q k).asw, (getTone s q k).psw) else ((getFlux s (8 * (q - 80) + k)).asw, 0)

/-- A tone block's register o of tone t (R141). -/
def toneView (s : State) (out t o : Nat) : Word :=
  let u := blockTone s out t
  let stored := written s (addrOf (outPage out).1 (outPage out).2 (toneOff out u + o))
  let sw := shownSweep s (outSeq out) u
  if out < 64 then
    match o with
    | 0x24 => word32 (phaseNow s out u)
    | 0x28 => word32 (ux 16 sw.1)
    | 0x2C => word32 sw.2
    | 0x7C => word32 (stored.toNat % 65536 + ux 16 sw.1 * 65536)
    | _ => stored
  else
    match o with
    | 0x20 => word32 (phaseNow s out u)
    | 0x24 => word32 sw.2
    | _ => stored

/-- REFILL_STAT with ACTIVE. -/
def refillStat (s : State) (out : Nat) : Word :=
  fput (outReg s out 0x050) 31 31 (b2n ((List.range 8).any (fun k => strmBusy s out k)))

def outView (s : State) (out off : Nat) : Word :=
  let stored := written s (addrOf (outPage out).1 (outPage out).2 off)
  if off = 0x050 then refillStat s out
  else if out < 64 then
    if 0x080 ≤ off ∧ off < 0x500 then toneView s out ((off - 0x080) / 0x80) ((off - 0x080) % 0x80) else stored
  else
    if 0x080 ≤ off ∧ off < 0x900 then toneView s out ((off - 0x080) / 0x40) ((off - 0x080) % 0x40) else stored

/-- Registers of an FLX page. LEVEL_NOW shows B rounded to the nearest integer, halves away from zero, and the code of the
sample that left level formation's chain last, 24 ticks before its lands: R158 says neither (log 92). -/
def flxView (s : State) (g off : Nat) : Word :=
  let stored := written s (addrOf .flx g off)
  if 0x100 ≤ off ∧ off < 0x500 then
    let o := 8 * g + (off - 0x100) / 0x80
    let f := fluxShown s o
    let sw := shownSweep s (80 + g) (o % 8)
    match (off - 0x100) % 0x80 with
    | 0x34 => word32 (ux 16 sw.1)
    | 0x38 => if f.holder then word32 (ux 16 (parkCode s o) * 65537)
      else if (calDrives s (80 + o) s.clk.tc).isSome then
        word32 ((Config.calCode (80 + o) (4 * s.clk.tc.toNat)).toNat + 65536 * (Config.calCode (80 + o) (4 * s.clk.tc.toNat + 1)).toNat)
      else word32 (ux 16 (rndRat f.b) * 65536 + ux 16 f.code)
    | 0x7C => word32 (stored.toNat % 65536 + ux 16 sw.1 * 65536)
    | _ => stored
  else stored

/-- The registers that exist on a sequencer's page: those at 0x0A0 to 0x0B8 on masters, the segment registers in segment
mode (R104, 04_segment_tables.md). -/
def seqHas (s : State) (q off : Nat) : Bool :=
  if 0x0A0 ≤ off ∧ off ≤ 0x0B8 then decide (112 ≤ q ∧ q < 120)
  else if 0x088 ≤ off ∧ off ≤ 0x094 then segMode s q && decide (kindOf s q = 0 ∨ kindOf s q = 2)
  else true

def seqView (s : State) (q off : Nat) : Word :=
  let x := getSeq s q
  let stored := written s (addrOf .seq q off)
  -- a predicted path keeps its stack changes to itself (R94)
  let depth : Nat × Nat := match x.ahead with
    | a :: _ => (a.loops.length, a.calls.length)
    | [] => (x.loops.length, x.calls.length)
  if !seqHas s q off then 0
  else match off with
    | 0x048 => word32 (seqState s q * 2 ^ 29 + depth.1 * 2 ^ 24 + depth.2 * 2 ^ 20 + x.ahead.length * 2 ^ 18 + x.pc)
    | 0x084 => fput stored 16 16 (b2n x.go.isSome)
    | 0x090 =>
      let r : Nat := match x.req with
        | none => 0
        | some (.jump t) => 2 ^ 31 + t * 2 ^ 16
        | some .stop => 2 ^ 31 + 2 ^ 30
      word32 (r + x.entry)
    | _ => stored

/-- Registers of the LADLE page: SLOT_BIND shows the binding in force, SLOT_CFG the value last written, a held one too (R5,
R190). -/
def ladleView (s : State) (off : Nat) : Word :=
  let k := rd s .ladle 0 0x048 8 0
  let x := getSlot s k
  match off with
  | 0x048 => fput (reg s .ladle 0 0x048) 30 30 (b2n (x.hBind.isSome || x.hCfg.isSome || x.hFrame.isSome))
  | 0x04C => x.bind
  | 0x050 =>
    let v := (x.hCfg.getD x.cfg &&& slotCfgMask) ||| (x.cfg &&& 3)
    match x.hFrame with
    | some (fx, fz) => fput (fput v 0 0 (b2n fx)) 1 1 (b2n fz)
    | none => v
  | 0x060 => dchBits s (fun d => decide (d = .resolved true)) false
  | 0x064 => dchBits s (fun d => decide (d = .resolved true)) true
  | 0x068 => dchBits s (fun d => decide (d = .unresolved)) false
  | 0x06C => dchBits s (fun d => decide (d = .unresolved)) true
  | 0x070 => dchBits s (fun d => decide (d = .void)) false
  | 0x074 => dchBits s (fun d => decide (d = .void)) true
  | 0x078 => dchBits s (fun d => decide (d = .lost)) false
  | 0x07C => dchBits s (fun d => decide (d = .lost)) true
  | _ => reg s .ladle 0 off

def mortarView (s : State) (off : Nat) : Word :=
  let stored := written s (addrOf .mortar 0 off)
  if off = 0x054 then fput (fput stored 31 31 (b2n (seamOwner s 1))) 30 30 (b2n (seamOwner s 0)) else stored

/-- Bits 32k to 32k + 31 of a property of ports. -/
def portBits (f : Nat → Bool) (k : Nat) : Word :=
  word32 (((List.range 32).filter (fun b => f (32 * k + b))).foldl (fun m b => m + 2 ^ b) 0)

/-- The port that PORT_SEL selects. -/
def selPort (s : State) : Nat := rd s .pantry 0 0x048 6 0

def pantryView (s : State) (off : Nat) : Word :=
  let p := selPort s
  let x := getPort s p
  let sel (v : Nat) : Word := if p < 96 then word32 v else 0
  match off with
  | 0x040 => word32 (liveChannels s * 65536 + ledgerCap s)
  | 0x044 => word32 (ledgerUsed s)
  | 0x04C => sel (x.bw * 65536 + x.lat)
  | 0x050 => sel (x.base % 2 ^ 32)
  | 0x054 => sel (x.base / 2 ^ 32)
  | 0x058 => sel (x.size / 2048)
  | 0x060 => sel (b2n x.admitted * 2 ^ 31 + b2n (portActive s p) * 2 ^ 30 + x.result * 2 ^ 24 + x.breach)
  | 0x064 => portBits (fun q => (getPort s q).admitted) 0
  | 0x068 => portBits (fun q => (getPort s q).admitted) 1
  | 0x06C => portBits (fun q => (getPort s q).admitted) 2
  | 0x0A4 =>
    let w := reg s .pantry 0 off
    if fget w 31 28 = 2 then fput w 9 0 (Config.evacMb s.clk.tc % (belowMb s + 1)) else w
  | _ => reg s .pantry 0 off

def laneView (s : State) (n off : Nat) : Word :=
  match off with
  | 0x04C => fput (reg s .lane n off) 31 28 (roleShown s n)
  | 0x05C => word32 (prbsErr s n)
  | 0x060 => word32 (prbsBits s n % 2 ^ 32)
  | 0x064 => word32 (prbsBits s n / 2 ^ 32)
  | _ => reg s .lane n off

def hostView (s : State) (h off : Nat) : Word :=
  match off with
  | 0x064 => word32 (fecCorr s h % 2 ^ 32)
  | 0x068 => word32 (fecCorr s h / 2 ^ 32)
  | 0x06C => word32 (fecUncorr s h)
  | _ => written s (addrOf .host h off)

def ringView (s : State) (r off : Nat) : Word :=
  match off with
  | 0x040 => word32 (ringAddr s)
  | 0x048 => fput (reg s .ring r 0x048) 11 0 (getRPort s r).buf.length
  | _ => reg s .ring r off

/-- The head entry of a receive queue, and its next four bytes (R369, R380). -/
def rxqHead (s : State) (h : Nat) : List Byte := (mapGet (fun _ => []) s.rxqs h).headD []
def rxqWord (s : State) (h : Nat) : Word :=
  word32 (ofBytes (((rxqHead s h).drop (mapGet (fun _ => 0) s.rxqPos h)).take 4))

def timeView (s : State) (off : Nat) : Word :=
  let mt := s.clk.mt.toNat
  let tc := s.clk.tc.toNat
  let rxqStat (h : Nat) : Word :=
    let q := mapGet (fun _ => []) s.rxqs h
    word32 (rd s .time 0 (ptpOff h + 0x1C) 31 31 * 2 ^ 31 + q.length * 2 ^ 16 + (rxqHead s h).length)
  match off with
  | 0x048 => word32 (mt / 2 ^ 32)
  | 0x04C => word32 (mt / 2 ^ 64)
  | 0x050 => word32 mt
  | 0x054 => word32 tc
  | 0x058 => word32 (tc / 2 ^ 32)
  | 0x0AC => if rdBit s .time 0 off 30 then fput (reg s .time 0 off) 15 0 (Config.refError s.clk.tc).toNat else reg s .time 0 off
  | 0x21C => rxqStat 0
  | 0x29C => rxqStat 1
  | 0x220 => rxqWord s 0
  | 0x2A0 => rxqWord s 1
  | _ => reg s .time 0 off

def crcView (s : State) (off : Nat) : Word :=
  if 0x100 ≤ off ∧ off < 0x500 ∧ off % 16 = 0xC then ctxRes s ((off - 0x100) / 16)
  else if 0x100 ≤ off ∧ off < 0x500 ∧ off % 16 = 4 then ctxVal s ((off - 0x100) / 16) else reg s .crc 0 off

def calView (s : State) (off : Nat) : Word :=
  match off with
  | 0x04C => fput (reg s .cal 0 0x04C) 20 16 ((List.range 16).filter (fun k => decide (rqStatus s k = 1))).length
  | 0x058 => traceWord s (rd s .cal 0 0x054 7 0)
  | _ => reg s .cal 0 off

def monView (s : State) (off : Nat) : Word :=
  if off = 0x044 then fput (reg s .monadc 0 0x044) 7 0 (monEntry s) else reg s .monadc 0 off

def thermView (s : State) (off : Nat) : Word :=
  let bits (i : Nat) : Word := word32 (((List.range 24).filter (fun k => siteBit s k i)).foldl (fun m k => m + 2 ^ k) 0)
  match off with
  | 0x068 => bits 0
  | 0x06C => bits 1
  | _ => reg s .therm 0 off

/-- WEAR_VAL of the unit that WEAR_SEL names (R450, R459). -/
def wearVal (s : State) : Word :=
  let x := getWear s (reg s .spare 0 0x0C0).toNat
  word32 (x.st * 2 ^ 28 + min (wearCount x) 65535)

def spareView (s : State) (off : Nat) : Word :=
  match off with
  | 0x0C4 => wearVal s
  | 0x0D4 => word32 (mapEntry s)
  | 0x0D8 => word32 (mapEntry s / 2 ^ 32)
  | 0x0E0 => fput (reg s .spare 0 0x0E0) 10 0 s.spareMap.length
  | _ => reg s .spare 0 off

def nvmView (s : State) (off : Nat) : Word :=
  match off with
  | 0x040 => word32 (s.evLog.length * 65536 + (match s.evLog with
      | e :: _ => e.seq % 1024
      | [] => 0))
  | 0x048 => logWord s
  | 0x104 => if 4 * rd s .nvm 0 0x100 16 2 < vimgLen then wordAt s.vimg.buf (4 * rd s .nvm 0 0x100 16 2) else 0
  | _ => reg s .nvm 0 off

/-- The 48-bit provisional ID (R38). -/
def provId (s : State) : Nat :=
  Config.mipiId % 2 ^ 15 * 2 ^ 33 + 0x5120 * 2 ^ 16 + s.pins.strap.toNat % 8 * 2 ^ 12

/-- PG_OUT: high from the end of phase 4 while the domains that the stage keeps are on. -/
def pgOut (s : State) : Bool := phaseEnded s 4 && !s.boot.dark && decide (stage s < 6)

def mgmtView (s : State) (off : Nat) : Word :=
  match off with
  | 0x048 => word32 (provId s)
  | 0x04C => word32 (provId s / 2 ^ 32)
  | 0x050 => word32 (b2n (bypassClosed s) * 512 + b2n (pgOut s) * 256 + b2n (!alertLow s) * 128 + b2n s.pins.shedN * 64 +
      b2n s.pins.wpN * 32 + s.pins.strap.toNat)
  | 0x068 => pwinWord s
  | 0x06C => fput (reg s .mgmt 0 0x06C) 1 1 (b2n (s.preqs.any (fun q => decide (q.wait = .pwin false))))
  | _ => reg s .mgmt 0 off

def sysView (s : State) (off : Nat) : Word :=
  match off with
  | 0x040 => fput (reg s .sys 0 0x040) 15 8 Config.stepping
  | 0x044 => word32 Config.serial
  | 0x048 => word32 (Config.serial / 2 ^ 32)
  | 0x05C => fput (fput (reg s .sys 0 0x05C) 10 10 (b2n (ringUp s 1))) 9 9 (b2n (ringUp s 0))
  | 0x060 => match pendingPages s with
    | pg :: _ => word32 (pg * 4096)
    | [] => 0xFFFFFFFF
  | 0x064 => word32 (pendingPages s).length
  | _ => reg s .sys 0 off

/-- What a register of a page shows now. A reserved offset shows zero (R6). -/
def viewWord (s : State) (pt : PT) (n off : Nat) : Word :=
  if off < 0x40 then commonView s pt n off
  else if (rowOf pt off).isNone then 0
  else match pt with
    | .sys => sysView s off
    | .mgmt => mgmtView s off
    | .therm => thermView s off
    | .nvm => nvmView s off
    | .spare => spareView s off
    | .monadc => monView s off
    | .time => timeView s off
    | .crc => crcView s off
    | .cal => calView s off
    | .seq => seqView s n off
    | .drv => outView s n off
    | .prb => outView s (64 + n) off
    | .flx => flxView s n off
    | .ladle => ladleView s off
    | .mortar => mortarView s off
    | .cap => if off = 0x314 then word32 (egrPend s n) else reg s .cap n off
    | .pantry => pantryView s off
    | .tile => if off = 0x040 && !tileServes s n then fput (reg s .tile n off) 31 27 0 else reg s .tile n off
    | .lane => laneView s n off
    | .host => hostView s n off
    | .ring => ringView s n off
    | _ => written s (addrOf pt n off)

/-! ## Pairs and latches (R8, R9, R186, R359) -/

/-- Is an offset the _LO of an array of pairs: first offset, stride, count? -/
def inPairs (first stride n off : Nat) : Bool :=
  decide (first ≤ off) && decide ((off - first) % stride = 0) && decide ((off - first) / stride < n)

/-- The _LO registers of 64-bit pairs that software writes. -/
def isWritePair (pt : PT) (off : Nat) : Bool :=
  match pt with
  | .mgmt => off == 0x060
  | .drv => inPairs 0x080 0x80 9 off || inPairs 0x500 0x10 8 off
  | .prb => inPairs 0x080 0x40 34 off || inPairs 0xA00 0x10 8 off
  | .rdi => inPairs 0x400 0x40 32 off
  | .mortar => off == 0x058
  | .cap => off == 0x058 || inPairs 0x0B0 8 4 off || off == 0x308
  | .pantry => off == 0x050
  | .host => off == 0x044 || inPairs 0x100 8 16 off
  | .time => off == 0x060 || off == 0x068 || off == 0x098 || off == 0x0A0 || inPairs 0x180 0x10 4 off
  | _ => false

/-- The _LO registers of read-only pairs, but for the latch groups of the TIME page. -/
def isReadPair (pt : PT) (off : Nat) : Bool :=
  match pt with
  | .mgmt => off == 0x048
  | .sys => off == 0x044
  | .seq => off == 0x0B0
  | .ladle => inPairs 0x060 8 6 off
  | .cap => off == 0x080 || inPairs 0x090 8 4 off
  | .lane => off == 0x060
  | .host => off == 0x064
  | .spare => off == 0x0D4
  | _ => false

def isPairLo (pt : PT) (off : Nat) : Bool := isWritePair pt off || isReadPair pt off

/-- A register whose read may be latched: a _HI, RES_Q and RES_STAT, the rest of the MT and TSU groups. -/
def isLatched (pt : PT) (off : Nat) : Bool :=
  (decide (4 ≤ off) && isPairLo pt (off - 4)) ||
  (match pt with
    | .rdi => decide (8 ≤ off) && (inPairs 0x430 0x40 32 (off - 4) || inPairs 0x430 0x40 32 (off - 8))
    | .time => decide (0x04C ≤ off ∧ off ≤ 0x058) || (decide (0x100 ≤ off ∧ off < 0x180) && decide (off % 16 ≠ 0))
    | _ => false)

/-- The latched value of a path, or what the register shows now. -/
def latchedOr (p : Path) (a : Nat) (live : Word) (s : State) : Word :=
  match getRlatch s p a with
  | some v => v
  | none => live

/-! ## Reading -/

/-- A register whose read clears NEW: RESe, URG_RESk and the housekeeping results (R422). -/
def isResult (off : Nat) : Bool :=
  decide (0x200 ≤ off ∧ off < 0x300) || decide (0x070 ≤ off ∧ off < 0x080) || decide (0x600 ≤ off ∧ off < 0xA3C)

/-- What a read of a register that is up does, with its value v in rdata. -/
def readEffect (p : Path) (pt : PT) (n off : Nat) (v : Word) (s : State) : State :=
  let keep (t : State) : State := { t with rdata := v }
  let latch (o : Nat) (t : State) : State := setRlatch p (addrOf pt n o) (viewWord s pt n o) t
  if isPairLo pt off then latch (off + 4) (keep s)
  else match pt with
    | .rdi => if inPairs 0x430 0x40 32 off then latch (off + 8) (latch (off + 4) (keep s)) else keep s
    | .time =>
      if off = 0x048 then mtRead p s
      else if off = 0x054 then (if (getRlatch s p (addrOf .time 0 0x054)).isSome then keep s else latch 0x058 (keep s))
      else if 0x100 ≤ off ∧ off < 0x180 ∧ off % 16 = 0 then tsuRead p ((off - 0x100) / 16) s
      else if off = 0x220 ∨ off = 0x2A0 then
        let h := if off = 0x220 then 0 else 1
        keep { s with rxqPos := mapSet (fun _ => 0) s.rxqPos h (mapGet (fun _ => 0) s.rxqPos h + 4) }
      else keep s
    | .mgmt => if off = 0x068 then keep (pwinReadDone (portDone (addrOf .mgmt 0 0x068) s)) else keep s
    | .spare => if off = 0x0D8 then keep (mapRead s) else keep s
    | .nvm => if off = 0x048 then logRead s else if off = 0x104 then vimgDataAccess none (portDone (addrOf .nvm 0 0x104) s) else keep s
    | .cal => if off = 0x058 then traceRead s else keep s
    | .ladle => if off = 0x050 then keep (slotAdvance s) else keep s
    | .monadc => if isResult off then keep (wr s .monadc 0 off 31 31 0) else keep s
    | .pwr =>
      if off = 0x058 then
        -- no command reports the input current and power: free values
        let (x, s1) := freeDraw s
        { s1 with rdata := word32 x }
      else if off = 0x054 then
        -- nor does one report whether the current limiter holds: ILIM is free
        let (x, s1) := freeDraw s
        { s1 with rdata := fput v 22 22 (x % 2) }
      else keep s
    | _ => keep s

/-- A block's own work is brought to the current tick. -/
def blockWork (pt : PT) (n : Nat) (s : State) : State :=
  match pt with
  | .seq => seqTick n s
  | .drv => outCatch n s
  | .prb => outCatch (64 + n) s
  | .flx => fluxGroupCatch n s
  | .rdi => inputCatch n s
  | .ladle => ladleCatch s
  | .mortar => seamCatch s
  | .evt => lineCatch s
  | .ring => rtCatch (ladleCatch s)
  | _ => s

/-- A block's work up to the tick before, which sets nothing in this tick (R7), and then that of this tick. -/
def blockDone (s : State) (b : PT × Nat) : State :=
  blockWork b.1 b.2 (if s.clk.tc = 0 then s else atTick (s.clk.tc - 1) (blockWork b.1 b.2) s)

/-- The blocks that have work of their own under way. -/
def workingBlocks (s : State) : List (PT × Nat) :=
  let keys : List (PT × Nat) := s.seqs.map (fun e => (PT.seq, e.1)) ++ (pulsedOuts s).map outPage
  let more : List (PT × Nat) := s.fluxes.map (fun e => (PT.flx, e.1 / 8)) ++ s.demods.map (fun e => (PT.rdi, e.1 / 32))
  (keys ++ more ++ [(PT.ladle, 0), (PT.mortar, 0), (PT.evt, 0), (PT.ring, 0)]).dedup

/-- Every block's work is brought to the current tick: what shows other pages' events (R52, R53) needs all of it. -/
def allWork (s : State) : State := (workingBlocks s).foldl blockDone (laterCatch s)

/-- A block's own work is brought to the current tick, before one of its registers is read or written. -/
def blockCatch (pt : PT) (n : Nat) (s : State) : State :=
  match pt with
  | .sys | .mgmt => allWork s
  | _ => blockDone s (pt, n)

/-- A path reads the word at an address; its value is left in rdata (R5, R6, R63). -/
def busRead (p : Path) (a : Nat) (s0 : State) : State :=
  let s := match pageOf (a / 4096) with
    | some (pt, n) => if ptUp s0 pt then blockCatch pt n s0 else s0
    | none => s0
  if 0x40000000 ≤ a then
    if apertureUp s a then { s with rdata := apertureWord s (pathNo p) a } else earlyAcc { s with rdata := 0 }
  else match pageOf (a / 4096) with
    | none => { s with rdata := 0 }
    | some (pt, n) =>
      if !ptUp s pt then earlyAcc { s with rdata := 0 }
      else
        let off := a % 4096
        let live := viewWord s pt n off
        readEffect p pt n off (if isLatched pt off then latchedOr p a live s else live) s

end Sys2Proof.Machine
end

