-- ==== Sys2Proof/Machine/Startup.lean ====
section
/-! DEFINITION. Module resets and start-up (R47, R48, R56 to R63, R432, R442, R456, R480). -/

namespace Sys2Proof.Machine

/-! ## Module resets -/

/-- The registers a module reset keeps: RESET_CAUSE, MGMT where the reset keeps it, and the flux pages until their
handover (R56, R156). -/
def keptRegs (fresh mgmt : Bool) (s : State) : List (Nat × Word) :=
  s.regs.filter (fun e =>
    decide (e.1 = addrOf .sys 0 0x050) ||
    (mgmt && decide (e.1 / 4096 = ptBase .mgmt)) ||
    (!fresh && decide (ptBase .flx ≤ e.1 / 4096 ∧ e.1 / 4096 < ptBase .flx + 32 ∧ e.1 % 4096 ≠ 0x008)))

/-- The flux outputs at a module reset: each ramps to park and holds it; after a loss of their supply they start anew
(R58, R156). -/
def resetFluxes (fresh : Bool) (s : State) : List (Nat × Flux) :=
  if fresh then []
  else
    let s1 := (List.range 256).foldl (fun t o => fluxRamp true o t) s
    let now := s1.clk.tc.toNat
    -- a DAC that shed stage 5 has powered down stays so until its domain is switched on again
    let dark (f : Flux) : Flux := if f.holds.contains .off then
      { f with acts := [], playing := [], moves := [], tails := [], ramp := none, downAt := some 0 } else f
    s1.fluxes.map (fun e => (e.1, dark (fluxRebase now 0 e.2)))

/-- A module reset: what R56 and R480 keep stays, everything else takes its reset value, and start-up begins at a phase.
`fresh`: the stores and park values are lost; `mgmt`: the MGMT page and the dynamic address stay, but for I3C_STAT's flags
(R57). -/
def moduleReset (fresh mgmt : Bool) (cause ph : Nat) (s : State) : State :=
  let lost := fresh || s.boot.dark
  let v := s.vimg
  let bad (t : State) (q : Nat) : State := setSeq t q { st := .storeBad }
  let un := if lost then [] else s.unchecked
  let s1 : State := {
    regs := keptRegs lost mgmt s
    boot := { powered := s.boot.powered, ref := s.boot.ref, zeroFill := lost || s.boot.zeroFill }
    pins := s.pins
    stores := if lost then [] else s.stores
    accepted := if lost then [] else s.accepted
    gWait := if lost then none else s.gWait
    committed := if lost then [] else s.committed
    unchecked := un
    vimg := { slotA := v.slotA, slotB := v.slotB, newerB := v.newerB }
    fluxes := resetFluxes lost s
    evLog := s.evLog
    logSeq := s.logSeq
    spareMap := s.spareMap
    mapOld := s.mapOld
    softRows := if lost then [] else s.softRows
    fills := s.fills + 1
    rdata := s.rdata
    outbox := s.outbox
    free := s.free
    pending := s.pending }
  let s2 := wr (un.foldl bad s1) .mgmt 0 0x040 23 0 0
  let s3 := wr s2 .sys 0 0x050 cause cause 1
  wr (wr s3 .sys 0 0x04C 3 0 ph) .nvm 0 0x10C 24 24 (b2n v.newerB)

/-- SWRST: a module reset that keeps MGMT, when KEY is right and no other bit is set (R56). -/
def swrst (v : Word) (s : State) : State := if v.toNat = 0x5120 then moduleReset false true 3 1 s else s

/-- RST_N has been low for 1 µs (R48). -/
def rstNAssert (s : State) : State :=
  let s1 := { s with pins := { s.pins with rstN := false } }
  if !s.boot.powered then s1
  else
    let s2 := moduleReset false false 1 1 s1
    { s2 with boot := { s2.boot with inReset := true } }

/-- RST_N rises: the straps are sampled and start-up begins (R47, R59). -/
def rstNRelease (straps : BitVec 4) (s : State) : State :=
  let s1 := { s with pins := { s.pins with rstN := true } }
  if !s.boot.powered then s1
  else { s1 with
    pins := { s1.pins with strap := straps }
    boot := { s1.boot with inReset := false, target := false } }

/-- POWER_ON: VIN is in its range; the straps are sampled (R47, R56). RESET_CAUSE shows POR alone. -/
def powerOn (straps : BitVec 4) (s : State) : State :=
  if s.boot.powered then s
  else
    let s1 := moduleReset true false 0 1 s
    let s2 := setReg s1 (addrOf .sys 0 0x050) 1
    { s2 with
      mapOld := []
      pins := { s2.pins with strap := straps }
      boot := { s2.boot with powered := true, inReset := !s2.pins.rstN, zeroFill := true } }

/-- POWER_LOSS: VIN is gone; what is not in NVM is lost (R64). -/
def powerLoss (s : State) : State :=
  let s1 := moduleReset true false 0 1 s
  { s1 with boot := { s1.boot with powered := false } }

/-- The restarts after thermal shutdown, and after brown-out or over-voltage, from phase 2 (R432, R442, R463). The PWR page is up
there, so the demand of the pins acts (R48, R438). -/
def shutdownExit (s : State) : State :=
  if s.boot.shutdown && s.therm.auto then applyDemand (moduleReset true true 4 2 s) else s
def brownoutRestart (s : State) : State :=
  if s.boot.dark && !s.boot.shutdown then applyDemand (moduleReset true true 5 2 s) else s

/-! ## The I3C target's resets (R57) -/

/-- A peripheral reset begins: the target logic returns to its reset state. -/
def peripheralReset (s : State) : State := wr { s with i3c := { inReset := true } } .mgmt 0 0x040 23 0 0

/-- TARGET_RESET_PATTERN: the last action set is performed. -/
def targetReset (s : State) : State :=
  if s.i3c.rstact = 1 then peripheralReset s
  else if s.i3c.rstact = 2 then
    let s1 := moduleReset false false 2 1 s
    { s1 with boot := { s1.boot with target := true } }
  else s

/-- TARGET_RESET_DONE: a whole-target reset ends like a release of RST_N; a peripheral reset completes, and the target asks
anew for what is pending. -/
def targetDone (s : State) : State :=
  let s1 := { s with boot := { s.boot with target := false } }
  if !s.i3c.inReset then s1
  else
    let s2 := { s1 with i3c := { s1.i3c with inReset := false } }
    if (pendingPages s2).isEmpty then s2 else requestIbi s2

/-! ## Start-up -/

/-- An entry of the spare map takes effect again (R456). -/
def applyEntry (s : State) (e : Nat) : State :=
  let kind := e % 16
  let act := nbits e 7 4
  let ins := nbits e 19 8
  let unit := nbits e 31 20
  let spare := nbits e 47 32
  if act = 4 then s
  else
    let s0 := setWear s (wearKey kind ins unit) { st := if act = 2 then 5 else 4 }
    let s1 := wr s0 .spare 0 (0x080 + 4 * kind) 15 0 (rd s0 .spare 0 (0x080 + 4 * kind) 15 0 - 1)
    match kind with
    | 3 =>
      let s2 := setRole spare (laneRole s1 ins) (setRole ins 6 s1)
      wr (wr s2 .lane ins 0x020 3 0 2) .lane ins 0x020 27 16 spare
    | 6 => wr (bump s1 .pch ins 0x058 23 16 1) .pch ins 0x058 7 0 (rd s1 .pch ins 0x058 7 0 - 1)
    | 7 =>
      if s1.retired.contains ins then s1
      else wr (setChState ins 4 { s1 with retired := s1.retired ++ [ins] }) .pch ins 0x020 3 0 4
    | 5 => s1
    | k => serveUnit k ins unit spare s1

/-- The entries of the spare map that take effect, in map order: a cleared one does until the next power-on (R294, R456). -/
def mapInForce (s : State) : List Nat :=
  s.spareMap.zipIdx.map (fun e => ((s.mapOld.find? (fun o => decide (o.1 = e.2))).map (·.2)).getD e.1)

/-- The end of phase 2: the spare map is applied, and the newer image that verifies is held (R59, R61, R456). -/
def phaseNvm (s : State) : State :=
  let img := vimgNewest s.vimg
  let s1 := (mapInForce s).foldl applyEntry { s with vimg := { s.vimg with held := img } }
  wr s1 .sys 0 0x04C 28 28 (b2n (decide (img = .empty)))

/-- The self-test of phase 4 finds failed SRAM rows, as 4,096 × macro + row: each is a candidate, replaced before the zero
fill while its macro has a spare row (R59, R450, R452). -/
def selfTest (rows : List Nat) (s : State) : State :=
  (rows.filter (fun r => decide (r / 4096 < 2560))).foldl (fun t r => candidate_ 5 (r / 4096) (r % 4096) t) s

/-- The end of phase 4: stores self-tested and zero-filled, or accepted images copied; flux outputs at the park holder, their pages reset;
the vendor image loaded; the domains on (R56, R59, R156, R480). -/
def phaseConverters (rows : List Nat) (s : State) : State :=
  -- flux DACs that shed stage 5 had powered down are powered again, the park holder driving them (R155, log 28)
  let offs := (s.fluxes.filter (fun e => e.2.holds.contains .off)).map (·.1)
  let s1 := (List.range 32).foldl (fun t g => fluxHandover g t) (offs.foldl (fun t o => fluxOn o t) s)
  let s2 :=
    if s1.boot.zeroFill then { selfTest rows s1 with
      stores := [], accepted := [], gWait := none, committed := [], unchecked := []
      boot := { s1.boot with zeroFill := false } }
    else
      let t := exchangeWaiting (s1.accepted.foldl copyImage s1)
      wrAll t .mortar 0 0x06C (gW t.stores * 2 ^ 26 + gK t.stores * 2 ^ 20 + gD t.stores)
  let s3 := setDoms (List.range 48) true s2
  if s3.vimg.held = .empty then s3 else vendorLoad s3.vimg.held s3

/-- The end of phase 5: live channels are up; those that failed training are retired, in ascending order (R62, R293). -/
def phaseTraining (bad : BitVec 32) (s : State) : State :=
  let up (t : State) (c : Nat) : State := if t.retired.contains c then t else setChState c 1 t
  let s1 := (List.range 32).foldl up s
  let failed := (List.range 32).filter (fun c => nbit bad.toNat c && !s1.retired.contains c)
  failed.foldl (fun t c => abruptRetire (raiseFault .pch c 1 t) c) s1

/-- What the end of a phase does. -/
def phaseEnds (ph : Nat) (bad : BitVec 32) (rows : List Nat) (s : State) : State :=
  match ph with
  -- the shed demand of the pins acts once the PWR page is up
  | 1 => applyDemand s
  | 2 => phaseNvm s
  | 3 => wr s .time 0 0x0AC 31 29 6
  | 4 => phaseConverters rows s
  | 5 => phaseTraining bad s
  | _ => s

/-- A phase begins: phase 3 waits for REF_IN (R60). -/
def phaseBegins (ph : Nat) (s : State) : State :=
  let s1 := wr s .sys 0 0x04C 3 0 ph
  if ph = 3 then wr s1 .sys 0 0x04C 29 29 (b2n (!refOk s1)) else s1

/-- STARTUP_PHASE_DONE: the phase in progress ends, or fails (R59 to R62, R433). Phase 3 waits for REF_IN, phase 4 while
LSTOP is set. A failure is logged (R457). -/
def startupPhaseDone (ok : Bool) (bad : BitVec 32) (rows : List Nat) (s : State) : State :=
  let ph := phase s
  if rdBit s .sys 0 0x04C 31 || rdBit s .sys 0 0x04C 30 || s.boot.dark then s
  else if (ph = 3 && !refOk s) || (ph = 4 && s.therm.lstop) then s
  else if !ok then logEvent 7 (addrOf .sys 0 0) ph (wr s .sys 0 0x04C 30 30 1)
  else
    let s1 := phaseEnds ph bad rows s
    if ph = 8 then bypassUpdate (wr s1 .sys 0 0x04C 31 31 1) else phaseBegins (ph + 1) s1

/-- REF_IN is present at the strapped frequency: phase 3 no longer waits (R60). -/
def refInValid (s : State) : State := wr (refReturn s) .sys 0 0x04C 29 29 0

end Sys2Proof.Machine
end

