-- ==== Sys2Proof/Machine/Writes.lean ====
section
/-! DEFINITION. Writing the register space (R5 to R8, R22, R34, R35, R41, R63 and every chapter's register tables). -/

namespace Sys2Proof.Machine

/-! ## Data ports (R35, R45, R102) -/

/-- A path's word at a data port takes its place among those of the tick, before those of the paths that come after it (R35):
`next` writes at the port's address, which stands at `place`, `put` at a place written in this tick. -/
def portWrite (p a place : Nat) (put : Nat → Word → State → State) (next : Word → State → State) (v : Word) (s : State) : State :=
  let later := s.tick.ports.filter (fun e => decide (e.1 = a ∧ p < e.2.1))
  let first := s.tick.ports.filter (fun e => !decide (e.1 = a ∧ p < e.2.1))
  let order := (p, v) :: later.map (fun e => (e.2.1, e.2.2.2))
  let places := later.map (fun e => e.2.2.1) ++ [place]
  let s1 := next ((later.getLast?.map (fun e => e.2.2.2)).getD v) s
  let s2 := (places.zip order).dropLast.foldl (fun t e => put e.1 e.2.2 t) s1
  if clockRuns s then
    { s2 with tick := { s2.tick with ports := first ++ (places.zip order).map (fun e => (a, e.2.1, e.1, e.2.2)) } }
  else s2

/-- PWIN_DATA written through a path (R35, R45). While INC is 0 all words of a tick stand at one address, where the last
remains. -/
def pwinWriteBy (p : Nat) (v : Word) (s : State) : State :=
  let put (a : Nat) (w : Word) (t : State) : State :=
    if rdBit t .mgmt 0 0x06C 0 && ptUp t .pantry && mgmtMay t a 4 then changePut a (wordBytes w) t else t
  portWrite p (addrOf .mgmt 0 0x068) (pwinAddr s) put pwinWrite v s

/-- VIMG_DATA written through a path (R35, R102). -/
def vimgWriteBy (p : Nat) (v : Word) (s : State) : State :=
  portWrite p (addrOf .nvm 0 0x104) (4 * rd s .nvm 0 0x100 16 2)
    (fun o w t => if o < vimgLen then vimgPut o (wordBytes w) t else t) (fun w => vimgDataAccess (some w)) v s

/-- VIMG_DATA_ACCESS: over I3C (R101). -/
def vimgAccess (v : Option Word) (s : State) : State :=
  match v with
  | some w => vimgWriteBy 0 w s
  | none => vimgDataAccess none (portDone (addrOf .nvm 0 0x104) s)

/-! ## A field by its access (R5) -/

/-- Clear the W1C bits that are written 1, but for those that hardware set in this tick (R7). -/
def clearW1c (a : Nat) (mask v : Word) (s : State) : State :=
  if mask = 0 then s else setReg s a (getReg s a &&& ~~~(v &&& mask &&& ~~~raisedNow s a))

/-- A write to a register by the access types of its fields: W1C clears, RW and unlocked RWL set at once, shadowed
fields follow R22, RO and reserved bits do not change. -/
def plainWrite (pt : PT) (n off : Nat) (v : Word) (s : State) : State :=
  match rowOf pt off with
  | none => s
  | some r =>
    let a := addrOf pt n off
    let s1 := clearW1c a r.w1c v s
    let direct := (r.rw ||| (if pageLocked s pt n then 0 else r.rwl)) &&& ~~~r.sh
    let s2 := if direct = 0 then s1 else applyBits a direct v s1
    if r.sh = 0 then s2 else shadowWrite a r.sh v s2

/-- Actions of a register's bits, in rising order of the bits. -/
def bitActs (v : Word) (acts : List (Nat × (State → State))) (s : State) : State :=
  acts.foldl (fun t a => if wbit v a.1 then a.2 t else t) s

/-! ## Pages -/

def sysWrite (off : Nat) (v : Word) (s : State) : State :=
  match off with
  | 0x054 => swrst v s
  | 0x05C => standAsideWrite (wbit v 1) (releaseWrite (wbit v 0) s)
  | _ => plainWrite .sys 0 off v s

def mgmtWrite (off : Nat) (v : Word) (s : State) : State :=
  let s1 := plainWrite .mgmt 0 off v (if off = 0x060 ∨ off = 0x064 then portDone (addrOf .mgmt 0 0x068) s else s)
  if off = 0x064 ∧ ptUp s .pantry then pwinPrefetch s1 else s1

def pwrWrite (off : Nat) (v : Word) (s : State) : State :=
  let s1 := plainWrite .pwr 0 off v s
  if off = 0x040 ∨ off = 0x048 ∨ off = 0x04C ∨ off = 0x050 then applyDemand s1 else s1

/-- A VIMG_CTRL write with several action bits does DISCARD, VERIFY, INSTALL, LOAD in that order (DESIGN CHOICE, log 117). -/
def nvmWrite (off : Nat) (v : Word) (s : State) : State :=
  match off with
  | 0x04C => logClear v s
  | 0x108 => bitActs v [(2, vimgDiscard), (0, vimgVerify), (1, vimgInstall), (3, vimgLoad)] s
  | _ => plainWrite .nvm 0 off v (if off = 0x100 then portDone (addrOf .nvm 0 0x104) s else s)

def healthWrite (off : Nat) (v : Word) (s : State) : State :=
  if off = 0x040 then hmClear v s
  else if 0x400 ≤ off ∧ (off - 0x400) % 0x60 = 0 ∧ (off - 0x400) / 0x60 < 32 then hmCfgWrite ((off - 0x400) / 0x60) v s
  else plainWrite .health 0 off v s

/-- SP_POLk.AUTO becomes 1: the candidates of the kind whose pages leave the choice to the policy follow it (R451). -/
def policyOn (k : Nat) (s : State) : State :=
  let us := (s.wears.filter (fun e => decide (e.2.st = 2 ∧ e.1 / 2 ^ 24 = k))).map (·.1)
  us.foldl (fun t u =>
    if decide (spareSel t k (u / 2 ^ 12 % 2 ^ 12) = 0) && decide (k < 8) then pendSub k (u / 2 ^ 12 % 2 ^ 12) (u % 2 ^ 12) t
    else t) s

def spareWrite (off : Nat) (v : Word) (s : State) : State :=
  if off = 0x0DC then bitActs v [(0, mapClear)] s
  else if 0x040 ≤ off ∧ off < 0x068 then
    let s1 := plainWrite .spare 0 off v s
    if wbit v 31 && !rdBit s .spare 0 off 31 then policyOn ((off - 0x040) / 4) s1 else s1
  else plainWrite .spare 0 off v s

def monWrite (off : Nat) (v : Word) (s : State) : State :=
  match off with
  | 0x048 =>
    let s1 := plainWrite .monadc 0 off v s
    -- a zero holds for the channel it was measured on (R420)
    if fget v 4 0 = rd s .monadc 0 0x048 4 0 then s1 else setMon { s1.mon with zeroOf := none } s1
  | 0x04C => bitActs v [(0, scalZero), (1, scalFull)] s
  | _ =>
    let s1 := plainWrite .monadc 0 off v s
    if 0x100 ≤ off ∧ off < 0x200 then
      setMon { s1.mon with told := s1.mon.told.filter (fun e => decide (e ≠ (off - 0x100) / 4)) } s1
    else s1

def timeWrite (off : Nat) (v : Word) (s : State) : State :=
  match off with
  | 0x044 => bitActs v [(0, alignArm), (1, mtStep), (2, servoRst)] s
  | 0x070 => servoOfs v s
  | 0x21C => bitActs v [(0, rxqPop 0)] (plainWrite .time 0 off v s)
  | 0x29C => bitActs v [(0, rxqPop 1)] (plainWrite .time 0 off v s)
  | _ =>
    let s1 := plainWrite .time 0 off v (if off = 0x040 ∨ off = 0x060 ∨ off = 0x064 then noteRate s else s)
    if 0x180 ≤ off ∧ off < 0x1C0 then { s1 with cmpFrom := mapSet (fun _ => 0) s1.cmpFrom ((off - 0x180) / 16) s1.clk.tc } else s1

def tbusWrite (off : Nat) (v : Word) (s : State) : State :=
  let s1 := plainWrite .tbus 0 off v s
  if off = 0x040 ∧ !wbit v 31 then { s1 with tbusQ := [] } else s1

def evtWrite (off : Nat) (v : Word) (s : State) : State :=
  if 0x050 ≤ off ∧ off < 0x060 then fireWrite ((off - 0x050) / 4) v s
  else if 0x060 ≤ off ∧ off < 0x070 then lineDisWrite ((off - 0x060) / 4) v s
  else plainWrite .evt 0 off v s

def crcWrite (p : Path) (off : Nat) (v : Word) (s : State) : State :=
  if 0x100 ≤ off ∧ off < 0x500 then
    let slot := (off - 0x100) / 16
    match off % 16 with
    | 0 => ctxCfgWrite slot v (feedsDone slot s)
    | 4 => ctxValWrite slot v (feedsDone slot s)
    | 8 => feedOrdered (pathNo p) slot v s
    | _ => s
  else if 0x800 ≤ off ∧ off < 0xC00 then
    feedOrdered (pathNo p) (16 * ((off - 0x800) / 0x100) + rd s .crc 0 (0x040 + 4 * ((off - 0x800) / 0x100)) 3 0) v s
  else plainWrite .crc 0 off v s

/-- Bits of a word kept and the rest from another. -/
def keepBits (keep old v : Word) : Word := (old &&& keep) ||| (v &&& ~~~keep)

def calWrite (off : Nat) (v : Word) (s : State) : State :=
  if off < 0x100 then
    let s1 := plainWrite .cal 0 off v s
    if off = 0x040 ∨ off = 0x044 ∨ off = 0x048 then calKick s1 else s1
  else
    let k := (off - 0x100) / 0x20
    match (off - 0x100) % 0x20 with
    | 0x0C => if k < 16 then bitActs v [(0, submit k), (1, clearSlot k), (2, cancelSlot k)] s else s
    | _ => if rqLive s k then s else plainWrite .cal 0 off v s

/-! ## Sequencers -/

/-- A write of SEQ_CFG: GROUP and MODE are refused with CFG_BUSY while the sequencer is ACTIVE; GROUP is read-only on a
master; RUNAHEAD is shadowed. -/
def seqCfgWrite (q : Nat) (v : Word) (s : State) : State :=
  let s1 := shadowWrite (addrOf .seq q 0x040) 0x100 v s
  let master := decide (112 ≤ q ∧ q < 120)
  if master then s1
  else if seqActive s1 q then raiseEvt .seq q 6 s1
  else
    let s2 := if decide (80 ≤ q ∧ q < 112) && seqGroup s1 q != some (fget v 27 24) then fluxGroupPark (q - 80) s1 else s1
    seqModeWrite q (wbit v 16) (calKick (freed (gated s2.clk.tc (fun t => wr t .seq q 0x040 27 24 (fget v 27 24)) s2)))

def seqWrite (p : Path) (q off : Nat) (v : Word) (s : State) : State :=
  if !seqHas s q off then s
  else match off with
    | 0x040 => seqCfgWrite q v s
    | 0x044 => if 0x1E10 ≤ fget v 12 0 then s else plainWrite .seq q off v s
    | 0x054 =>
      bitActs v [(0, commitReg (pathNo p) (controlBase q)), (1, fun t => (discardStore (pathNo p) (controlBase q) t).2)] s
    | 0x08C => softRequest q (if wbit v 31 then .stop else .jump (fget v 11 0)) s
    | 0x0AC => bitActs v [(0, shotGo (q - 112))] s
    | _ => plainWrite .seq q off v s

/-! ## Converters -/

/-- Commit and discard by a store's control register (R70, R124, R157, R176). -/
def loadCtrl (p : Path) (b : Nat) (v : Word) (s : State) : State :=
  bitActs v [(0, commitReg (pathNo p) b), (1, fun t => (discardStore (pathNo p) b t).2)] s

/-- A spare tone's own block ignores writes while it serves (R139). -/
def blockServes (s : State) (out t : Nat) : Bool := decide (blockTone s out t ≠ t)

def outWrite (p : Path) (out off : Nat) (v : Word) (s : State) : State :=
  let (pt, n) := outPage out
  let inTones := if out < 64 then decide (0x080 ≤ off ∧ off < 0x500) else decide (0x080 ≤ off ∧ off < 0x900)
  let tone := if out < 64 then (off - 0x080) / 0x80 else (off - 0x080) / 0x40
  if off = 0x040 then shadowWrite (addrOf pt n off) 0x6 v (muteWrite out (wbit v 0) s)
  else if off = 0xE08 then
    loadCtrl p (if out < 64 then 0x50000000 + out * 0x80000 + fget v 2 2 * 0x40000 else 0x54000000 + n * 0x40000) v s
  else if inTones && blockServes s out tone then s
  else plainWrite pt n off v s

def rdiWrite (p : Path) (n off : Nat) (v : Word) (s : State) : State :=
  if off = 0xE08 then loadCtrl p (weightBase n (fget v 2 2)) v s else plainWrite .rdi n off v s

def flxWrite (p : Path) (g off : Nat) (v : Word) (s : State) : State :=
  if off = 0xE08 then loadCtrl p (0x55000000 + (8 * g + fget v 4 2) * 0x20000) v s
  else if 0x100 ≤ off ∧ off < 0x500 ∧ (off - 0x100) % 0x80 = 0 then
    shadowWrite (addrOf .flx g off) 0x10 v (parkNowWrite (8 * g + (off - 0x100) / 0x80) (wbit v 0) s)
  else if 0x600 ≤ off ∧ off < 0xE00 ∧ (off - 0x600) % 0x100 = 0x40 then
    shadowWrite (addrOf .flx g off) 0x1 v (bitActs v [(1, pdClrWrite (8 * g + (off - 0x600) / 0x100))] s)
  else plainWrite .flx g off v s

/-! ## The rest -/

def ladleWrite (off : Nat) (v : Word) (s : State) : State :=
  if 0x400 ≤ off ∧ off < 0x800 then dchWrite ((off - 0x400) / 4) v s
  else match off with
    | 0x044 => bitActs v [(0, clrEntriesNow), (1, clrLost)] s
    | 0x04C => slotBindWrite v s
    | 0x050 => slotCfgWrite v s
    | _ => plainWrite .ladle 0 off v s

def mortarWrite (p : Path) (off : Nat) (v : Word) (s : State) : State :=
  match off with
  | 0x068 => bitActs v [(0, fun t => (commitGraph (pathNo p) (reg t .mortar 0 0x064) t).2),
      (1, fun t => (discardGraph (pathNo p) t).2)] s
  | _ => plainWrite .mortar 0 off v s

/-- A capture unit ignores writes other than to CAP_CTRL while it is ARMED, READY or POST (R273). -/
def capWrite (u off : Nat) (v : Word) (s : State) : State :=
  if off = 0x070 then bitActs v [(0, armUnit u), (1, abortUnit u), (2, clrCapCounts u)] s
  else if capBusy s u then s
  else if off = 0x300 then
    let s1 := plainWrite .cap u off v s
    if wbit v 31 && !egrOn s u then egrOpen u s1 else s1
  else if (off = 0x308 ∨ off = 0x30C) ∧ egrOn s u then s
  else plainWrite .cap u off v s

/-- The selected port's settings are written: ignored while it is admitted (R281). -/
def portSet (s : State) (f : Port → Port) : State :=
  let p := selPort s
  if decide (96 ≤ p) || (getPort s p).admitted then s else setPort s p (f (getPort s p))

def pantryWrite (off : Nat) (v : Word) (s : State) : State :=
  match off with
  | 0x04C => portSet s (fun x => { x with bw := fget v 31 16, lat := fget v 15 0 })
  | 0x050 => portSet s (fun x => { x with base := x.base / 2 ^ 32 * 2 ^ 32 + fget v 31 11 * 2048 })
  | 0x054 => portSet s (fun x => { x with base := x.base % 2 ^ 32 + fget v 2 0 * 2 ^ 32 })
  | 0x058 => portSet s (fun x => { x with size := fget v 23 0 * 2048 })
  | 0x05C => bitActs v [(0, admitPort), (1, releaseNow)] s
  | 0x060 => if selPort s < 96 then setPort s (selPort s) { getPort s (selPort s) with breach := fget v 15 0 } else s
  | _ =>
    if 0x080 ≤ off ∧ off < 0x0A4 then mapMaskWrite ((off - 0x080) / 4) v s else plainWrite .pantry 0 off v s

/-- LANE_CFG: a test source or a loopback is refused on a lane in use (R308). -/
def laneCfgWrite (n : Nat) (v : Word) (s : State) : State :=
  let src := fget v 31 28
  let test := decide (1 ≤ src ∧ src ≤ 3) || decide (fget v 27 26 ≠ 0)
  if test && portOn s (portOf n) && decide (laneRole s n ≠ 4) then raiseEvt .lane n 1 s
  else readyRefresh n (laneChange n (plainWrite .lane n 0x040 v) s)

def laneWrite (n off : Nat) (v : Word) (s : State) : State :=
  match off with
  | 0x040 => laneCfgWrite n v s
  | 0x058 => laneChange n (plainWrite .lane n 0x058 v) s
  | 0x05C => prbsErrWrite n v s
  | 0x048 => bitActs v [(0, slip n), (1, restart n), (2, prbsClr n)] s
  | _ => plainWrite .lane n off v s

def ringWrite (r off : Nat) (v : Word) (s : State) : State :=
  match off with
  | 0x040 => if r = 0 then ringAddrWrite v s else s
  | _ => plainWrite .ring r off v s

def hostWrite (h off : Nat) (v : Word) (s : State) : State :=
  match off with
  | 0x040 => hostModeWrite h (fget v 1 0) (plainWrite .host h off v s)
  | 0x06C => fecWrite h v s
  | _ => plainWrite .host h off v s

/-- A write to the common block at 0x000 to 0x03F. -/
def commonWrite (pg : Nat) (pt : PT) (n off : Nat) (v : Word) (s : State) : State :=
  if off = 0x008 then pgCtrlWrite pg v s
  else
    let s1 := plainWrite pt n off v s
    -- an enable may make the page pending (R52)
    if off = 0x014 ∨ off = 0x01C then notePending pg s s1 else s1

/-- A write to a register of a page that is up. -/
def pageWrite (p : Path) (pg : Nat) (pt : PT) (n off : Nat) (v : Word) (s : State) : State :=
  if off < 0x40 then commonWrite pg pt n off v s
  else if (rowOf pt off).isNone then s
  else match pt with
    | .sys => sysWrite off v s
    | .mgmt => if off = 0x068 then pwinWriteBy (pathNo p) v s else mgmtWrite off v s
    | .pwr => pwrWrite off v s
    | .nvm => if off = 0x104 then vimgWriteBy (pathNo p) v s else nvmWrite off v s
    | .health => healthWrite off v s
    | .spare => spareWrite off v s
    | .monadc => monWrite off v s
    | .time => timeWrite off v s
    | .tbus => tbusWrite off v s
    | .evt => evtWrite off v s
    | .crc => crcWrite p off v s
    | .cal => calWrite off v s
    | .seq => seqWrite p n off v s
    | .drv => outWrite p n off v s
    | .prb => outWrite p (64 + n) off v s
    | .rdi => rdiWrite p n off v s
    | .flx => flxWrite p n off v s
    | .ladle => ladleWrite off v s
    | .mortar => mortarWrite p off v s
    | .cap => capWrite n off v s
    | .pantry => pantryWrite off v s
    | .lane => laneWrite n off v s
    | .ring => ringWrite n off v s
    | .host => hostWrite n off v s
    | .therm => plainWrite .therm n off v s
    | .tile => plainWrite .tile n off v s
    | .pch => plainWrite .pch n off v s

/-! ## Pairs (R8) -/

/-- The low half a path has staged for a pair; zero when none. -/
def getWlatch (s : State) (p : Path) (a : Nat) : Word := mapGet (fun _ => 0) s.wlatch (latchKey p a)
def setWlatch (p : Path) (a : Nat) (v : Word) (s : State) : State :=
  { s with wlatch := mapSet (fun _ => 0) s.wlatch (latchKey p a) v }

/-- A write through a path to a register of a page that is up: a _LO stages, a _HI commits both halves. -/
def pathWrite (p : Path) (pg : Nat) (pt : PT) (n off : Nat) (v : Word) (s : State) : State :=
  if isWritePair pt off then setWlatch p (addrOf pt n off) v s
  else if decide (4 ≤ off) && isWritePair pt (off - 4) then
    pageWrite p pg pt n off v (pageWrite p pg pt n (off - 4) (getWlatch s p (addrOf pt n (off - 4))) s)
  else pageWrite p pg pt n off v s

/-! ## Paths that write in one tick (R35) -/

/-- A path whose writes come after this one's has written a register in this tick. -/
def laterWrote (s : State) (p : Path) (a : Nat) : Bool := s.tick.writes.any (fun w => decide (w.1 = a ∧ pathNo p < w.2))

/-- Note a write of a register in this tick. A cycle of the management island is taken to be a tick (DESIGN CHOICE, log 116). -/
def noteWrite (p : Path) (a : Nat) (s : State) : State :=
  if clockRuns s then { s with tick := { s.tick with writes := (a, pathNo p) :: s.tick.writes } } else s

/-- A register each write of which is a datum of its own, in its place among the tick's (R35). -/
def isDataPort (pt : PT) (off : Nat) : Bool := (pt == .mgmt && decide (off = 0x068)) || (pt == .nvm && decide (off = 0x104))

/-- What a write leaves to be done when a path that comes after it has written the register in the same tick: its fields
keep what that path wrote, and only its W1C and WO bits act (R35). -/
def underLater (pt : PT) (n off : Nat) (v : Word) (s : State) : Word :=
  match rowOf pt off with
  | none => v
  | some r => maskedValue v (r.rw ||| r.rwl ||| r.sh) (viewWord s pt n off)

/-- A path writes a register of a page that is up, in its place among the paths of the tick (R35). A pair counts as
written when its _HI commits it. -/
def orderedWrite (p : Path) (pg : Nat) (pt : PT) (n off : Nat) (v : Word) (s : State) : State :=
  let a := addrOf pt n off
  if isWritePair pt off || isDataPort pt off then pathWrite p pg pt n off v s
  else if laterWrote s p a then
    if decide (4 ≤ off) && isWritePair pt (off - 4) then s
    else pathWrite p pg pt n off (underLater pt n off v s) s
  else noteWrite p a (pathWrite p pg pt n off v s)

/-- A command that writes one field of PG_CTRL through a path, in its place among the paths of the tick (R35): where a path
that comes after it has written PG_CTRL, that one's fields remain. -/
def pgPart (p : Path) (pg : Nat) (f : State → State) (s : State) : State :=
  let a := pg * 4096 + 8
  if laterWrote s p a then s
  else noteWrite p a (f (match pageOf pg with
    | some (pt, n) => blockCatch pt n s
    | none => s))

/-- PAGE_LOCK through a path: LOCK is only ever set (R5). -/
def lockPart (p : Path) (pg : Nat) (s : State) : State := noteWrite p (pg * 4096 + 8) (pageLock pg s)

/-- A path writes a word of the register space (R34, R63): REGISTER_WRITE. -/
def busWrite (p : Path) (a : Nat) (v : Word) (s : State) : State :=
  if 0x40000000 ≤ a then (if apertureUp s a then apertureWrite (pathNo p) a v s else earlyAcc s)
  else match pageOf (a / 4096) with
    | none => s
    | some (pt, n) => if ptUp s pt then orderedWrite p (a / 4096) pt n (a % 4096) v (blockCatch pt n s) else earlyAcc s

end Sys2Proof.Machine
end

