-- ==== Sys2Proof/Machine/Outcome.lean ====
section
/-! DEFINITION. When a command's occasion is there: the access path answers, the page is up (R34, R36, R63, R481). -/

namespace Sys2Proof.Machine

/-- An access path answers: the I3C target from the end of phase 1 at its dynamic address, a host port once start-up is over
and while its ENABLE is 1 (R36, R59, R64, R481). -/
def pathUp (s : State) : Path → Bool
  | .i3c => ptUp s .mgmt && i3cAnswers s
  | .h0 => hostOn s 0
  | .h1 => hostOn s 1

/-- Run an effect only while its access path answers (log 3). -/
def whenPath (p : Path) (f : State → State) (s : State) : State := if pathUp s p then f s else s

/-- A part of a PG_CTRL write to a page (R6, R63). -/
def onPage (pg : Nat) (f : State → State) (s : State) : State :=
  match pageOf pg with
  | none => s
  | some (pt, _) => if ptUp s pt then f s else earlyAcc s

/-- A word written at an address; an address that is no multiple of 4 is none (R41, log 3). -/
def wordWrite (p : Path) (a : Nat) (v : Word) (s : State) : State := if a % 4 = 0 then busWrite p a v s else s

/-- A word written in an aperture (R55). -/
def apertureWord_ (p : Path) (a : Nat) (v : Word) (s : State) : State := if 0x40000000 ≤ a then wordWrite p a v s else s

/-- The types of flit to take for a TIME message of kind k (R370). -/
def timeTypes (k : Nat) (f : BitVec 256) : List Nat := if nbits f.toNat 51 48 = k then [6] else []

end Sys2Proof.Machine
end

