-- ==== Sys2Proof/Machine/MeanCal.lean ====
section
/-! DEFINITION. The meanings of the calibration and monitor commands (17_calibration.md, 18_monitor_converter.md). -/

namespace Sys2Proof.Machine

/-- SUBMIT (R393): Checks a calibration request and starts, queues or refuses it. -/
def execSubmit (k : Fin 16) (s : State) : Host.Outcome State Fault Refusal :=
  .next (whenReg .cal (submit k.val) s)

/-- CLEAR (R406): Disarms a request slot and sets it EMPTY. -/
def execClear (k : Fin 16) (s : State) : Host.Outcome State Fault Refusal :=
  .next (whenReg .cal (clearSlot k.val) s)

/-- CANCEL (R408): Cancels a queued request at once or a running one at its segment end. -/
def execCancel (k : Fin 16) (s : State) : Host.Outcome State Fault Refusal :=
  .next (whenReg .cal (cancelSlot k.val) s)

/-- CAL_SEGMENT_DONE (R400): A foreground segment ends; attempts and requests may complete. -/
def execCalSegmentDone (r0 : Word) (r1 : Word) (qual : BitVec 16) (s : State) : Host.Outcome State Fault Refusal :=
  .next (whenUp .cal (calSegmentDone r0 r1 qual.toNat) s)

/-- ATTEMPT_TIMEOUT (R394): An attempt exceeds its timeout and counts as failed. -/
def execAttemptTimeout (k : Fin 16) (s : State) : Host.Outcome State Fault Refusal :=
  .next (whenUp .cal (attemptTimeout k.val) s)

/-- BACKGROUND_PASS_DONE (R392): A requested background calibration pass ends and reports. -/
def execBackgroundPassDone (k : Fin 16) (r0 : Word) (r1 : Word) (qual : BitVec 16)
    (s : State) : Host.Outcome State Fault Refusal :=
  .next (whenUp .cal (backgroundPassDone k.val r0 r1 qual.toNat) s)

/-- REFERENCE_CHECK (R396): Every 100 ms a converter is checked against its reference. -/
def execReferenceCheck (resid : BitVec 16) (s : State) : Host.Outcome State Fault Refusal :=
  .next (whenUp .cal (referenceCheck resid.toNat) s)

/-- CONVERSION (R413): A monitor converter list entry is converted, corrected and compared. -/
def execConversion (raw : BitVec 18) (s : State) : Host.Outcome State Fault Refusal :=
  .next (whenUp .monadc (conversion raw) s)

/-- HOUSEKEEPING_CONVERSION (R414): A reference, rail or flux readback is converted. -/
def execHousekeepingConversion (raw : BitVec 18) (s : State) : Host.Outcome State Fault Refusal :=
  .next (whenUp .monadc (housekeeping raw) s)

/-- URGENT_CONVERSION (R416): A pending urgent request is converted between list entries. -/
def execUrgentConversion (k : Fin 4) (raw : BitVec 18) (s : State) : Host.Outcome State Fault Refusal :=
  .next (whenUp .monadc (urgentConversion k.val raw) s)

/-- ZERO (R420): Starts a zero measurement of 256 conversions on an external input. -/
def execZero (s : State) : Host.Outcome State Fault Refusal :=
  .next (whenReg .monadc scalZero s)

/-- FULL (R420): Starts a full-scale measurement on an external input. -/
def execFull (s : State) : Host.Outcome State Fault Refusal :=
  .next (whenReg .monadc scalFull s)

/-- SCAL_MEASURE_DONE (R420): A system calibration measurement ends, storing Z or writing OFS and GAIN. -/
def execScalMeasureDone (mean : BitVec 18) (s : State) : Host.Outcome State Fault Refusal :=
  .next (whenUp .monadc (scalDone mean) s)

end Sys2Proof.Machine
end

