-- ==== Sys2Proof/Machine/MeanCapture.lean ====
section
/-! DEFINITION. The meanings of the capture commands (11_capture.md). -/

namespace Sys2Proof.Machine

/-- ARM (R258): Arms a capture unit after its checks, or refuses with a CAP_ERR status. -/
def execArm (u : Fin 8) (s : State) : Host.Outcome State Fault Refusal :=
  .next (whenReg .cap (armUnit u.val) s)

/-- ABORT (R261): Ends a capture with status ABORTED, or loses to the capture's completion. -/
def execAbort (u : Fin 8) (s : State) : Host.Outcome State Fault Refusal :=
  .next (whenReg .cap (abortUnit u.val) s)

/-- CLR_CNT (R273): Clears IGN_CNT, OVW_CNT and GAP_CNT. -/
def execClrCnt (u : Fin 8) (s : State) : Host.Outcome State Fault Refusal :=
  .next (whenReg .cap (clrCapCounts u.val) s)

/-- TRIGGER_SAMPLE (R255): The trigger sequencer evaluates predicates and conditions and takes one transition. -/
def execTriggerSample (u : Fin 8) (s : State) : Host.Outcome State Fault Refusal :=
  .next (whenUp .cap (triggerSample u.val) s)

/-- HIT_DUE (R253): A level or result hit reaches the trigger sequencer. -/
def execHitDue (u : Fin 8) (src : BitVec 48) (h : Hit) (s : State) : Host.Outcome State Fault Refusal :=
  .next (whenUp .cap (hitDue u.val src h) s)

/-- SOURCE_ITEM (R252): A source data item reaches the unit and is written to the buffer ring. -/
def execSourceItem (u : Fin 8) (src : BitVec 48) (bytes : List Byte) (s : State) : Host.Outcome State Fault Refusal :=
  .next (whenUp .cap (sourceItem u.val src bytes) s)

/-- PRE_FILLED (R259): The pre-trigger is filled at tick a0 + PRE, and the status becomes READY. -/
def execPreFilled (u : Fin 8) (s : State) : Host.Outcome State Fault Refusal :=
  .next (whenUp .cap (preFilled u.val) s)

/-- CAPTURE_COMPLETE (R260): The data of source tick T + POST − 1 is taken, and the capture completes. -/
def execCaptureComplete (u : Fin 8) (s : State) : Host.Outcome State Fault Refusal :=
  .next (whenUp .cap (captureComplete u.val) s)

/-- RECORD_RELEASE (R265): A record is released with its TAG once every overlapping shot has closed. -/
def execRecordRelease (u : Fin 8) (s : State) : Host.Outcome State Fault Refusal :=
  .next (whenUp .cap (recordRelease u.val) s)

/-- RECORD_SEND (R268): Egress sends a released record as a Daxka RECORD frame with its CRC. -/
def execRecordSend (u : Fin 8) (s : State) : Host.Outcome State Fault Refusal :=
  .next (whenUp .cap (recordSend u.val) s)

/-- EGR_ENABLE (R267): EGR_CFG.EN changing from 0 to 1 opens a stream with a stream header. -/
def execEgrEnable (u : Fin 8) (s : State) : Host.Outcome State Fault Refusal :=
  .next (whenReg .cap (egrEnable u.val) s)

end Sys2Proof.Machine
end

