-- ==== Sys2Proof/Machine/MeanCheck.lean ====
section
/-! DEFINITION. The meanings of the check-value commands (16_check_values.md). -/

namespace Sys2Proof.Machine

/-- CTX_CFG_WRITE (R389): Sets a CRC slot's mode and, with INIT, its initial value. -/
def execCtxCfgWrite (slot : Fin 64) (v : Word) (s : State) : Host.Outcome State Fault Refusal :=
  .next (whenReg .crc (ctxCfgWrite slot.val v) s)

/-- CTX_DATA (R389): Feeds one data word to a CRC slot. -/
def execCtxData (slot : Fin 64) (v : Word) (s : State) : Host.Outcome State Fault Refusal :=
  .next (whenReg .crc (ctxData slot.val v) s)

/-- CRC_WINDOW_WRITE (R391): Each word written to an engine window feeds the selected slot. -/
def execCrcWindowWrite (eng : Fin 4) (v : Word) (s : State) : Host.Outcome State Fault Refusal :=
  .next (whenReg .crc (crcWindowWrite eng.val v) s)

/-- CTX_VAL_WRITE (R390): Restores a CRC slot's running value. -/
def execCtxValWrite (slot : Fin 64) (v : Word) (s : State) : Host.Outcome State Fault Refusal :=
  .next (whenReg .crc (ctxValWrite slot.val v) s)

end Sys2Proof.Machine
end

