-- ==== Sys2Proof/Machine/MeanConverters.lean ====
section
/-! DEFINITION. The meanings of the converters’ commands (05_drive_synthesis.md, 06_flux_outputs.md). -/

namespace Sys2Proof.Machine

/-- PORT_ACTION_DUE (R126): A drive or probe port action acts at its due tick: slot check, frame read, amplitude
latch. -/
def execPortActionDue (out : Fin 80) (tone : Fin 34) (s : State) : Host.Outcome State Fault Refusal :=
  .next (whenUp .drv (portActionDue out.val tone.val) s)

/-- FLUX_ACTION_DUE (R145): A flux port action acts at its due tick at the flux converter group. -/
def execFluxActionDue (o : Fin 256) (s : State) : Host.Outcome State Fault Refusal :=
  .next (whenUp .flx (fluxActionDue o.val) s)

/-- REFILL_DATA (R136): Refill data arrives from the Pantry in an envelope window. -/
def execRefillData (out : Fin 80) (strm : Fin 8) (samples : Nat) (s : State) : Host.Outcome State Fault Refusal :=
  .next (whenUp .drv (refillData out.val strm.val samples) s)

/-- REFILL_UNDERRUN (R136): Refill data is missing at its due tick; the tone plays zeros and the shot is tagged
CORRUPT. -/
def execRefillUnderrun (out : Fin 80) (strm : Fin 8) (_report : Nat) (s : State) : Host.Outcome State Fault Refusal :=
  .next (whenUp .drv (refillUnderrun out.val strm.val) s)

/-- MUTE (R130): OUT_CFG.MUTE mutes the output at the commit gate within 1 µs. -/
def execMute (out : Fin 80) (on : Bool) (s : State) : Host.Outcome State Fault Refusal :=
  .next (whenReg .drv (muteWrite out.val on) s)

/-- PARK_NOW (R155): OUT_CFG.PARK_NOW ramps a flux output to park and holds it there. -/
def execParkNow (o : Fin 256) (on : Bool) (s : State) : Host.Outcome State Fault Refusal :=
  .next (whenReg .flx (parkNowWrite o.val on) s)

/-- TONE_VERIFY (R140): The verify unit recomputes one tick of a tone and raises TONE_CHECK on a mismatch. -/
def execToneVerify (out : Fin 80) (tone : Fin 34) (mismatch : Bool) (s : State) : Host.Outcome State Fault Refusal :=
  .next (whenUp .drv (toneVerify out.val tone.val mismatch) s)

/-- DAC_FAULT (R466): An output's analogue monitor stays outside its limits for 10 µs. -/
def execDacFault (out : Fin 336) (s : State) : Host.Outcome State Fault Refusal :=
  .next (whenUp .drv (dacFaultAt out.val) s)

/-- RAMP_DONE (R154): A flux ramp reaches its target; PARKED is raised when the target is park. -/
def execRampDone (o : Fin 256) (s : State) : Host.Outcome State Fault Refusal :=
  .next (whenUp .flx (rampDone o.val) s)

/-- PARK_HANDOVER (R156): After a reset ramp the output hands over to the park holder, and the page registers reset. -/
def execParkHandover (o : Fin 256) (s : State) : Host.Outcome State Fault Refusal :=
  .next (whenAlive (parkHandover o.val) s)

/-- PD_CLR (R152): PD_CFG.CLR sets every predistortion state to x_in at the next boundary. -/
def execPdClr (o : Fin 256) (s : State) : Host.Outcome State Fault Refusal :=
  .next (whenReg .flx (pdClrWrite o.val) s)

end Sys2Proof.Machine
end

