-- ==== Sys2Proof/Machine/MeanFabric.lean ====
section
/-! DEFINITION. The meanings of the Ladle’s and the router’s commands (08_feedback_fabric.md, 09_event_router.md). -/

namespace Sys2Proof.Machine

/-- RESULT_DUE (R191): A result reaches the Ladle; frames are applied, the entry is written and channels are
evaluated. -/
def execResultDue (d : Fin 512) (s : State) : Host.Outcome State Fault Refusal :=
  .next (whenUp .ladle (resultArrives d.val) s)

/-- ARM_COPY_DUE (R193): A window arm's copy raises PEND of the bound slots. -/
def execArmCopyDue (d : Fin 512) (s : State) : Host.Outcome State Fault Refusal :=
  .next (whenUp .ladle (armCopyDue d.val) s)

/-- FRAME_UPDATE_DUE (R196): Mortar frame updates and observable flips are applied in the slot table. -/
def execFrameUpdateDue (s : State) : Host.Outcome State Fault Refusal :=
  .next (whenUp .ladle frameUpdateDue s)

/-- BROADCAST_DUE (R200): A channel's new state becomes visible at the sequencer groups. -/
def execBroadcastDue (c : Fin 64) (s : State) : Host.Outcome State Fault Refusal :=
  .next (whenUp .ladle (broadcastDue c.val) s)

/-- SLOT_BIND_WRITE (R190): Writes a slot's bindings, held until no shot of the groups concerned runs. -/
def execSlotBindWrite (v : Word) (s : State) : Host.Outcome State Fault Refusal :=
  .next (whenReg .ladle (slotBindWrite v) s)

/-- SLOT_CFG_WRITE (R190): Writes a slot's settings, held where needed, and advances IDX when INC is set. -/
def execSlotCfgWrite (v : Word) (s : State) : Host.Outcome State Fault Refusal :=
  .next (whenReg .ladle (slotCfgWrite v) s)

/-- CLR_ENTRIES (R192): Clears VALID, VOID and ROUND of every entry at the first tick with no shot running. -/
def execClrEntries (s : State) : Host.Outcome State Fault Refusal :=
  .next (whenReg .ladle clrEntriesNow s)

/-- CLR_LOST (R210): Every LOST channel becomes UNRESOLVED. -/
def execClrLost (s : State) : Host.Outcome State Fault Refusal :=
  .next (whenReg .ladle clrLost s)

/-- DCH_WRITE (R202): A channel block write supersedes pending broadcasts and re-evaluates the channel. -/
def execDchWrite (idx : Fin 256) (v : Word) (s : State) : Host.Outcome State Fault Refusal :=
  .next (whenReg .ladle (dchWrite idx.val v) s)

/-- RESEND (R209): The refresh period elapses, and every exported channel's state is resent. -/
def execResend (s : State) : Host.Outcome State Fault Refusal :=
  .next (whenReg .ladle resendAll s)

/-- TABLE_PARITY (R212): A parity error in the slot table or a channel block disables the slot or the channel. -/
def execTableParity (channel : Bool) (idx : Fin 512) (s : State) : Host.Outcome State Fault Refusal :=
  .next (whenUp .ladle (tableParity channel idx.val) s)

/-- EVT_FIRE_WRITE (R220): Software makes the selected event lines active in the tick of the write. -/
def execEvtFireWrite (k : Fin 4) (v : Word) (s : State) : Host.Outcome State Fault Refusal :=
  .next (whenReg .evt (fireWrite k.val v) s)

/-- LINE_DIS_WRITE (R222): Writing 1 re-enables a guard-disabled line and clears its count. -/
def execLineDisWrite (k : Fin 4) (v : Word) (s : State) : Host.Outcome State Fault Refusal :=
  .next (whenReg .evt (lineDisWrite k.val v) s)

end Sys2Proof.Machine
end

