-- ==== Sys2Proof/Machine/MeanHealth.lean ====
section
/-! DEFINITION. The meanings of the health, spare and log commands (20_health_and_spares.md). -/

namespace Sys2Proof.Machine

/-- HM_CLEAR (R448): Clears the selected monitor units. -/
def execHmClear (v : Word) (s : State) : Host.Outcome State Fault Refusal :=
  .next (whenReg .health (hmClear v) s)

/-- HM_CFG_WRITE (R448): Reconfigures a monitor unit and clears it. -/
def execHmCfgWrite (u : Fin 32) (v : Word) (s : State) : Host.Outcome State Fault Refusal :=
  .next (whenReg .health (hmCfgWrite u.val v) s)

/-- WEAR_HOUR (R450): The hourly step of the wear windows ages out old indicator counts. -/
def execWearHour (s : State) : Host.Outcome State Fault Refusal :=
  .next (whenUp .spare wearHour s)

/-- MAP_CLEAR (R456): Marks a spare-map entry CLEARED, or is refused with WP. -/
def execMapClear (s : State) : Host.Outcome State Fault Refusal :=
  .next (whenReg .spare mapClear s)

/-- MAP_READ (R459): A read of MAP_DATA_HI advances MAP_IDX when INC is set. -/
def execMapRead (s : State) : Host.Outcome State Fault Refusal :=
  .next (whenRead .spare mapRead s)

/-- LOG_READ (R460): Each LOG_DATA read advances the word, then the entry. -/
def execLogRead (s : State) : Host.Outcome State Fault Refusal :=
  .next (whenRead .nvm logRead s)

/-- LOG_CLEAR (R460): CLEAR with KEY 0x5120 empties the event log unless WP_N is low. -/
def execLogClear (v : Word) (s : State) : Host.Outcome State Fault Refusal :=
  .next (whenReg .nvm (logClear v) s)

/-- HM_INTERVAL (R447): The 1 ms and 1 s sampling periods of monitor sources such as regulator phase current and
tone mismatches elapse, and the units take their values. -/
def execHmInterval (u : Fin 32) (v : Word) (s : State) : Host.Outcome State Fault Refusal :=
  .next (whenUp .health (hmInterval u.val v) s)

end Sys2Proof.Machine
end

