-- ==== Sys2Proof/Machine/Host.lean ====
section
/-! DEFINITION. Daxka on the host ports (R340 to R348): requests, their responses in order, CREDIT, and tunnelling over
the ring. -/

namespace Sys2Proof.Machine

def getHPort (s : State) (h : Nat) : HPort := mapGet (fun _ => {}) s.hports h
def setHPort (h : Nat) (x : HPort) (s : State) : State := { s with hports := mapSet (fun _ => {}) s.hports h x }

/-- The access path of a host port (R344). -/
def hostPath (h : Nat) : Path := if h = 0 then .h0 else .h1

def consumed (s : State) (h : Nat) : Nat := rd s .host h 0x060 15 0

/-! ## BULK fragments (R329, R348) -/

/-- The fragments of a message, 16 bytes each. -/
def fragments : Nat → List Byte → List (List Byte)
  | 0, _ => []
  | n + 1, bs => bs.take 16 :: fragments n (bs.drop 16)

/-- Send a message to a node as BULK fragments, WEST when ROUTE names it, EAST otherwise. The spec states no TTL for them
(log 18). -/
def bulkSend (h node msgid : Nat) (reply : Bool) (bytes : List Byte) (s : State) : State :=
  let r := if rdBit s .host h 0x078 (node % 32) then 1 else 0
  let (ttl, s1) := freeDraw s
  if !enabled s1 .ring r then s1
  else
    let fs := fragments ((bytes.length + 15) / 16) bytes
    let flit (e : List Byte × Nat) : TimeTx := {
      bits := BitVec.ofNat 256 (5 + ringAddr s1 * 2 ^ 4 + node % 32 * 2 ^ 9 + (1 + ttl % 31) * 2 ^ 14 + e.2 % 1024 * 2 ^ 48 +
        b2n (decide (e.2 + 1 = fs.length)) * 2 ^ 58 + b2n reply * 2 ^ 59 + h % 2 * 2 ^ 60 + msgid % 256 * 2 ^ 64 +
        e.1.length * 2 ^ 72 + ofBytes e.1 * 2 ^ 80) }
    let x := getRPort s1 r
    setRPort s1 r { x with bulkQ := x.bulkQ ++ fs.zipIdx.map flit }

/-! ## Responses (R344, R346, R347) -/

/-- The bytes of a Daxka message. -/
def dxBytes (op node flags tag len addr : Nat) (payload : List Byte) : List Byte :=
  leBytes 1 1 ++ leBytes op 1 ++ leBytes node 1 ++ leBytes flags 1 ++ leBytes tag 2 ++ leBytes len 2 ++ leBytes addr 8 ++ payload

/-- Send one response: to a station, with this port's CONSUMED, or back through the ring. -/
def sendReply (h : Nat) (s : State) (r : DxReply) : State :=
  if !hostOn s h then s
  else
    let pay := leBytes r.status 1 ++ leBytes r.op 1 ++ leBytes (consumed s h) 2 ++ r.data
    let msg := dxBytes 0x0B r.node 2 r.tag pay.length r.addr pay
    match r.from_ with
    | .host src =>
      setHPort h { getHPort s h with reported := consumed s h } (emit (.frame h (hostFrame s h src.toNat 0x88B5 msg)) s)
    | .ring node msgid => bulkSend h node msgid true msg s

/-- Is a Pantry request of a response served? 4 marks one served, 5 one that read as uncorrectable. -/
def servedReq (s : State) (id lvl : Nat) : Bool := s.preqs.any (fun q => decide (q.id = id ∧ lvl ≤ q.level))

/-- A response may be sent. -/
def replyReady (s : State) (r : DxReply) : Bool :=
  match r.waits with
  | .ready => true
  | .pantry f n => (List.range n).all (fun i => servedReq s (f + i) 4)
  | .tunnel _ _ => false

/-- The blocks that the Pantry requests of a response returned, in order (R285). -/
def readBlocks (s : State) (f n : Nat) : List Byte :=
  (List.range n).flatMap (fun i => ((s.preqs.find? (fun q => decide (q.id = f + i))).map (·.data)).getD [])

/-- A response as it is sent: a Pantry read with an uncorrectable block answers ECC (R290). -/
def finalReply (s : State) (r : DxReply) : DxReply :=
  match r.waits with
  | .pantry f n =>
    if (List.range n).any (fun i => servedReq s (f + i) 5) then { r with status := 0x0C, data := [] }
    else { r with data := readBlocks s f n }
  | _ => r

/-- The Pantry requests of a response are done with. -/
def dropReqs (s : State) (r : DxReply) : State :=
  match r.waits with
  | .pantry f n => { s with preqs := s.preqs.filter (fun q => decide (q.id < f ∨ f + n ≤ q.id)) }
  | _ => s

/-- Send the responses at the head of a port's queue that may be sent (R347). -/
def flushReplies (h : Nat) (s : State) : State :=
  let x := getHPort s h
  let go := x.replies.takeWhile (replyReady s)
  let s1 := setHPort h { x with replies := x.replies.drop go.length } s
  go.foldl (fun t r => dropReqs (sendReply h t (finalReply t r)) r) s1

/-- Put a response in its place and send what may be sent. -/
def addReply (h : Nat) (r : DxReply) (s : State) : State :=
  let x := getHPort s h
  flushReplies h (setHPort h { x with replies := x.replies ++ [r] } s)

/-! ## Store spaces (R345) -/

/-- The base and the length of a store unit; space 7's is the vendor staging buffer. -/
def storeUnit (space index : Nat) : Option (Nat × Nat) :=
  let n := index % 4096
  let u := index / 4096
  match space with
  | 1 => if n < 124 ∧ u = 0 then some (controlBase n, 0x40000) else none
  | 2 => if n < 64 ∧ u < 2 then some (0x50000000 + n * 0x80000 + u * 0x40000, 0x40000) else none
  | 3 => if n < 16 ∧ u = 0 then some (0x54000000 + n * 0x40000, 0x40000) else none
  | 4 => if n < 256 ∧ u = 0 then some (0x55000000 + n * 0x20000, 0x20000) else none
  | 5 => if n < 16 ∧ u < 2 then some (weightBase n u, 0x40000) else none
  | 6 => if n = 0 ∧ u = 0 then some (gBase, gLen) else none
  | 7 => if n = 0 ∧ u = 0 then some (0, vimgLen) else none
  | _ => none

/-- STATUS of R346 for a LOAD_STAT status, and for a GRAPH_LOAD status. -/
def storeStatus (st : Nat) : Nat :=
  match st with
  | 2 => 4 | 3 => 5 | 4 => 6 | 5 => 7 | 6 => 3 | 7 => 8 | _ => 0
def graphStatus (st : Nat) : Nat :=
  match st with
  | 2 => 4 | 3 => 9 | 4 => 0xA | 5 => 0xB | 6 => 3 | 7 => 8 | _ => 0

/-- Store bytes of a unit: those of a control store's vendor region are not written (R68). -/
def storePut (p space b off : Nat) (bs : List Byte) (s : State) : Nat × State :=
  if bs.isEmpty then (0, s)
  else if space = 7 then (0, vimgPut off bs s)
  else if space = 6 then
    let r := stageGraph p (b + off) bs s
    (graphStatus r.1, r.2)
  else
    let k := if space = 1 then 0x3C000 - off else bs.length
    let r0 := if (bs.take k).isEmpty then (0, s) else stageBytes p (b + off) (bs.take k) s
    if r0.1 ≠ 0 || (bs.drop k).isEmpty then (storeStatus r0.1, r0.2)
    else
      let r1 := stageBytes p (b + off + k) (bs.drop k) r0.2
      (storeStatus r1.1, r1.2)

/-- Store bytes as a path reads them. -/
def storeGet (s : State) (p space b off n : Nat) : List Byte :=
  if space = 7 then bytesAt s.vimg.buf off n else (List.range n).map (fun i => apertureByte s p (b + off + i))

/-! ## Operations (R344) -/

/-- A request that is answered BAD_OP and otherwise ignored (R343 to R345). -/
def dxBad (q : DxReq) : Bool :=
  let space := q.addr / 2 ^ 56
  let store := decide (3 ≤ q.op ∧ q.op ≤ 6)
  q.bad || decide (q.op = 0 ∨ 8 < q.op ∨ q.len % 4 ≠ 0 ∨ 8192 < q.len) ||
  (decide (q.op = 1 ∨ q.op = 3 ∨ q.op = 4 ∨ q.op = 7) && decide (q.data.length < q.len)) ||
  (decide (q.op = 4) && decide (q.len ≠ 4)) ||
  (store && decide (space = 0 ∨ 7 < space ∨ q.addr / 2 ^ 32 % 2 ^ 8 ≠ 0)) ||
  (decide (space = 7) && decide (q.op = 4 ∨ q.op = 5)) ||
  (decide (q.op = 1 ∨ q.op = 2) && decide (2 ^ 32 ≤ q.addr)) ||
  (decide (q.op = 7 ∨ q.op = 8) && decide (2 ^ 35 ≤ q.addr))

/-- Words written from an address upward. -/
def writeWords (p : Path) : Nat → Nat → List Byte → State → State
  | 0, _, _, s => s
  | n + 1, a, bs, s => writeWords p n (a + 4) (bs.drop 4) (busWrite p (a % 2 ^ 32) (BitVec.ofNat 32 (ofBytes (bs.take 4))) s)

/-- Words read from an address upward. -/
def readWords (p : Path) : Nat → Nat → State → List Byte × State
  | 0, _, s => ([], s)
  | n + 1, a, s =>
    let s1 := busRead p (a % 2 ^ 32) s
    let r := readWords p n (a + 4) s1
    (wordBytes s1.rdata ++ r.1, r.2)

/-- The Pantry requests of a run of bytes, block by block (R46, R282). -/
def pantryRun (h : Nat) (read : Bool) : Nat → Nat → Nat → List Byte → State → State
  | 0, _, _, _, s => s
  | n + 1, a, left, bs, s =>
    if left = 0 then s
    else
      let k := min left (64 - a % 64)
      let s1 := acceptRequest 96 a k (if read then none else some (bs.take k)) (.daxka h read) s
      pantryRun h read n (a + k) (left - k) (bs.drop k) s1

/-- What a request answers: STATUS, data, what the answer waits for; none where no response is due. -/
def dxExec (h : Nat) (q : DxReq) (s : State) : Option (Nat × List Byte × DxWait) × State :=
  let p := hostPath h
  let space := q.addr / 2 ^ 56
  let off := q.addr % 2 ^ 32
  let ans (st : Nat) : Option (Nat × List Byte × DxWait) := some (st, [], .ready)
  let acked (st : Nat) : Option (Nat × List Byte × DxWait) := if q.ack then ans st else none
  let bytes := q.data.take q.len
  match q.op with
  | 1 => if q.addr % 4 ≠ 0 then (acked 2, s) else (acked 0, writeWords p (q.len / 4) q.addr bytes s)
  | 2 =>
    if q.addr % 4 ≠ 0 then (ans 2, s)
    else
      let r := readWords p (q.len / 4) q.addr s
      (some (0, r.1, .ready), r.2)
  | 3 => match storeUnit space (q.addr / 2 ^ 40 % 2 ^ 16) with
    | some (b, len) =>
      if off % 4 ≠ 0 ∨ len < off + q.len then (acked 2, s)
      else
        let r := storePut (pathNo p) space b off bytes s
        (acked r.1, r.2)
    | none => (acked 2, s)
  | 4 => match storeUnit space (q.addr / 2 ^ 40 % 2 ^ 16) with
    | some (b, _) =>
      let crc := BitVec.ofNat 32 (ofBytes bytes)
      if space = 6 then
        let r := commitGraph (pathNo p) crc s
        (ans (graphStatus r.1), r.2)
      else
        let r := commitStore (pathNo p) b crc s
        (ans (storeStatus r.1), r.2)
    | none => (ans 2, s)
  | 5 => match storeUnit space (q.addr / 2 ^ 40 % 2 ^ 16) with
    | some (b, _) =>
      if space = 6 then
        let r := discardGraph (pathNo p) s
        (ans (graphStatus r.1), r.2)
      else
        let r := discardStore (pathNo p) b s
        (ans (storeStatus r.1), r.2)
    | none => (ans 2, s)
  | 6 => match storeUnit space (q.addr / 2 ^ 40 % 2 ^ 16) with
    | some (b, len) =>
      if off % 4 ≠ 0 ∨ len < off + q.len then (ans 2, s)
      else (some (0, storeGet s (pathNo p) space b off q.len, .ready), s)
    | none => (ans 2, s)
  | 7 =>
    if q.addr % 4 ≠ 0 || !mgmtMay s q.addr q.len then (acked 2, s)
    else (acked 0, pantryRun h false (q.len / 4) q.addr q.len bytes s)
  | 8 =>
    if q.addr % 4 ≠ 0 || !mgmtMay s q.addr q.len then (ans 2, s)
    else
      let s1 := pantryRun h true (q.len / 4) q.addr q.len [] s
      (some (0, [], .pantry s.preqNo (s1.preqNo - s.preqNo)), s1)
  | _ => (ans 1, s)

/-- The response to a request. -/
def replyTo (s : State) (q : DxReq) (st : Nat) (data : List Byte) (w : DxWait) : DxReply :=
  { from_ := q.from_, node := ringAddr s, op := q.op, tag := q.tag, addr := q.addr, status := st, data := data, waits := w }

/-- A request answered BAD_OP. -/
def badOp (h : Nat) (q : DxReq) (s : State) : State :=
  addReply h (replyTo s q 1 [] .ready) (bump s .host h 0x074 15 0 1)

/-- A request acts at this module, on the given host port. -/
def dxHere (h : Nat) (q : DxReq) (s : State) : State :=
  if dxBad q then badOp h q s
  else
    let r := dxExec h q s
    match r.1 with
    | some (st, data, w) => addReply h (replyTo s q st data w) r.2
    | none => r.2

/-! ## Requests on a port (R347, R348) -/

/-- The request names another module. -/
def needsTunnel (s : State) (q : DxReq) : Bool := !dxBad q && !q.loc && decide (q.node ≠ ringAddr s)

/-- A response is due to a request. -/
def replyDue (q : DxReq) : Bool := q.ack || decide (q.op ≠ 1 ∧ q.op ≠ 3 ∧ q.op ≠ 7)

/-- MSGID m of a port is outstanding. -/
def msgBusy (s : State) (h m : Nat) : Bool :=
  (getHPort s h).replies.any (fun r => match r.waits with
    | .tunnel k _ => decide (k = m)
    | _ => false)

/-- The next free MSGID of a port. -/
def freeMsg (s : State) (h : Nat) : Option Nat :=
  ((List.range 256).map (fun i => ((getHPort s h).nextMsg + i) % 256)).find? (fun m => !msgBusy s h m)

/-- Tunnel a request under a MSGID: a message without a response due is not outstanding. -/
def tunnelOut (h m : Nat) (q : DxReq) (s : State) : State :=
  let msg := dxBytes q.op q.node (b2n q.ack) q.tag q.len q.addr q.data
  let s1 := bulkSend h q.node m false msg (setHPort h { getHPort s h with nextMsg := (m + 1) % 256 } s)
  if replyDue q then addReply h { replyTo s1 q 0 [] (.tunnel m q.node) with node := q.node } s1 else s1

/-- A port takes a request from its input: it counts in CONSUMED. -/
def takeRequest (h : Nat) (src : BitVec 48) (s : State) : State :=
  let s1 := wr s .host h 0x060 15 0 (consumed s h + 1)
  setHPort h { getHPort s1 h with last := some src } s1

/-- A request at the head of a port's input: it acts here, travels on, or waits for a free MSGID. -/
def dxRun (h : Nat) (src : BitVec 48) (q : DxReq) (s : State) : State :=
  if needsTunnel s q then
    match freeMsg s h with
    | some m => tunnelOut h m q (takeRequest h src s)
    | none => setHPort h { getHPort s h with stalled := (getHPort s h).stalled ++ [q] } s
  else dxHere h q (takeRequest h src s)

/-- A request frame arrives at a port: beyond the window of 256 it is discarded and counted (R347). -/
def dxArrive (h : Nat) (src : BitVec 48) (q : DxReq) (s : State) : State :=
  if !hostOn s h then s
  else
    let x := getHPort s h
    if 256 ≤ (consumed s h + 65536 - x.reported) % 65536 + x.stalled.length then
      raiseEvt .host h 4 (bump (takeRequest h src s) .host h 0x070 15 0 1)
    else if !x.stalled.isEmpty then setHPort h { x with stalled := x.stalled ++ [q] } s
    else dxRun h src q s

/-- Requests that waited for a MSGID. -/
def runStalled (h : Nat) : Nat → State → State
  | 0, s => s
  | n + 1, s =>
    let x := getHPort s h
    match x.stalled with
    | [] => s
    | q :: qs =>
      if needsTunnel s q && (freeMsg s h).isNone then s
      else
        let src : BitVec 48 := match q.from_ with
          | .host a => a
          | .ring _ _ => 0
        runStalled h n (dxRun h src q (setHPort h { x with stalled := qs } s))

/-- A request of a host from its operands. -/
def hostReq (hd : DxHead) (op addr len : Nat) (bytes : List Byte) : DxReq :=
  { from_ := .host hd.src, op := op, node := hd.node.val, loc := hd.loc, ack := hd.ack, tag := hd.tag.toNat, addr := addr
    len := len, data := bytes }

/-- ADDR of a store operation. -/
def storeAddr (space : BitVec 8) (index : BitVec 16) (off : Word) : Nat :=
  space.toNat * 2 ^ 56 + index.toNat * 2 ^ 40 + off.toNat

/-- A frame's address and tag are such that the port accepts it (R342). -/
def frameOk (s : State) (h : Nat) (hd : DxHead) : Bool :=
  decide (hd.dst.toNat = hostMac s h) && (!rdBit s .host h 0x040 31 || decide (hd.vid.map (·.toNat) = some (rd s .host h 0x040 27 16)))

/-- A frame that the port does not accept is discarded and counted (R342). -/
def filtered (h : Nat) (s : State) : State := if hostOn s h then bump s .host h 0x070 31 16 1 else s

/-- A request with the given operation arrives. -/
def request (h : Nat) (hd : DxHead) (op addr len : Nat) (bytes : List Byte) (s : State) : State :=
  if frameOk s h hd then dxArrive h hd.src (hostReq hd op addr len bytes) s else filtered h s

/-- BAD_OP_REQUEST: its header breaks R344, whatever its OP. OPs 0x09 to 0x0C are no requests. It keeps its place among the
requests of the port (R347). -/
def badOpRequest (h : Nat) (hd : DxHead) (op addr : Nat) (s : State) : State :=
  if !hostOn s h || decide (9 ≤ op ∧ op ≤ 0xC) then s
  else if !frameOk s h hd then filtered h s
  else dxArrive h hd.src { hostReq hd op addr 0 [] with bad := true } s

/-! ## Tunnelled messages at their end (R348) -/

/-- A response that waits for a tunnelled message gets its outcome; the MSGID is free again. -/
def tunnelEnds (h m node status : Nat) (data : List Byte) (s : State) : State :=
  let x := getHPort s h
  let one (r : DxReply) : DxReply :=
    if r.waits = .tunnel m node then { r with status := status, data := data, waits := .ready } else r
  let s1 := flushReplies h (setHPort h { x with replies := x.replies.map one } s)
  runStalled h (getHPort s1 h).stalled.length s1

/-- A whole tunnelled message: a response at its origin, or a request that acts as though it had arrived on this module's
host port of the same number. -/
def tunnelIn (s : State) (x : Frag) : State :=
  let at_ (i n : Nat) : Nat := ofBytes ((x.bytes.drop i).take n)
  let pay := x.bytes.drop 16
  if x.reply then tunnelEnds x.path x.msgid x.node (at_ 16 1) ((pay.take (at_ 6 2)).drop 4) s
  else if !hostOn s x.path then s
  else
    dxHere x.path { from_ := .ring x.node x.msgid, op := at_ 1 1, node := at_ 2 1 % 32, loc := nbit (at_ 2 1) 7
                    ack := nbit (at_ 3 1) 0, tag := at_ 4 2, addr := at_ 8 8, len := at_ 6 2, data := pay } s

/-- The tunnelled messages that are complete are acted on. -/
def takeInbox (s : State) : State := s.inbox.foldl tunnelIn { s with inbox := [] }

/-- UNREACH: a response that is due has not come within 10 ms. -/
def unreach (h m : Nat) (s : State) : State :=
  match (getHPort s h).replies.find? (fun r => match r.waits with
      | .tunnel k _ => decide (k = m)
      | _ => false) with
  | some r => match r.waits with
    | .tunnel k node => tunnelEnds h k node 0x0D [] (raiseEvt .host h 5 s)
    | _ => s
  | none => s

/-! ## The rest of a host port -/

/-- A Pantry request is served: responses that waited for it go. -/
def requestServed (id corr retries : Nat) (uncorr : Bool) (s : State) : State :=
  flushReplies 1 (flushReplies 0 (pantryRequestDone id corr retries uncorr s))

/-- PANTRY_READ_TIMEOUT: a Pantry read not served within 1 ms answers TIMEOUT (R346). -/
def pantryReadTimeout (h tag : Nat) (s : State) : State :=
  let x := getHPort s h
  let is (r : DxReply) : Bool := decide (r.tag = tag) && (match r.waits with
    | .pantry _ _ => !replyReady s r
    | _ => false)
  match x.replies.find? is with
  | none => s
  | some r =>
    let done (y : DxReply) : DxReply := if y = r then { y with status := 0x0E, data := [], waits := .ready } else y
    let mine (q : PReq) : Bool := match r.waits with
      | .pantry f n => decide (f ≤ q.id ∧ q.id < f + n)
      | _ => false
    -- requests still at their channels go on with nobody waiting
    let rest := (s.preqs.filter (fun q => !(mine q && decide (4 ≤ q.level)))).map (fun q =>
      if mine q then { q with wait := .port } else q)
    flushReplies h (setHPort h { x with replies := x.replies.map done } { s with preqs := rest })

/-- CREDIT: CONSUMED has changed since its last report (R347). -/
def credit (h : Nat) (s : State) : State :=
  let x := getHPort s h
  match x.last with
  | some src =>
    if hostOn s h && decide (x.reported ≠ consumed s h) then
      setHPort h { x with reported := consumed s h } (daxkaSend h src.toNat 0x0C 2 0 0 (leBytes (consumed s h) 4) s)
    else s
  | none => s

/-- MODULE_ONLY_FRAME: RECORD, RESPONSE or CREDIT received (R344). -/
def moduleOnlyFrame (h op : Nat) (s : State) : State :=
  if hostOn s h && decide (op = 9 ∨ op = 0xB ∨ op = 0xC) then bump s .host h 0x074 15 0 1 else s

/-- HOST_FRAME_DISCARD (R340, R342): a MAC Control frame's address is none that the port accepts. -/
def hostFrameDiscard (h : Nat) (why : Discard) (s : State) : State :=
  if !hostOn s h then s
  else match why with
    | .fcs => bump s .host h 0x074 31 16 1
    | .filtered => bump s .host h 0x070 31 16 1
    | .macControl => bump s .host h 0x070 31 16 1

/-- ARP_REQUEST for HOST_IP4 (R340). -/
def arpRequest (h : Nat) (src : BitVec 48) (ip : Word) (s : State) : State :=
  if hostOn s h && decide (ip ≠ 0 ∧ reg s .host h 0x04C = ip) then emit (.resolved h src false (ip.setWidth 128) (hostTag s h)) s else s

/-- HOST_IP6. -/
def hostIp6 (s : State) (h : Nat) : Nat :=
  (List.range 4).foldr (fun i v => (reg s .host h (0x050 + 4 * i)).toNat + 2 ^ 32 * v) 0

/-- NEIGHBOUR_SOLICITATION for HOST_IP6 (R340). -/
def neighbourSolicitation (h : Nat) (src : BitVec 48) (ip : BitVec 128) (s : State) : State :=
  if hostOn s h && decide (ip ≠ 0 ∧ hostIp6 s h = ip.toNat) then emit (.resolved h src true ip (hostTag s h)) s else s

end Sys2Proof.Machine
end

