-- ==== Sys2Proof/Machine/MeanHost.lean ====
section
/-! DEFINITION. The meanings of the host ports’ commands (14_ring_and_host_ports.md). -/

namespace Sys2Proof.Machine

/-- REG_WRITE (R344): A Daxka request writes registers. -/
def execRegWrite (h : Fin 2) (hd : DxHead) (addr : Word) (bytes : List Byte)
    (s : State) : Host.Outcome State Fault Refusal :=
  .next (whenUp .host (request h.val hd 1 addr.toNat bytes.length bytes) s)

/-- REG_READ (R344): A Daxka request reads registers and returns the data. -/
def execRegRead (h : Fin 2) (hd : DxHead) (addr : Word) (len : Nat) (s : State) : Host.Outcome State Fault Refusal :=
  .next (whenUp .host (request h.val hd 2 addr.toNat len []) s)

/-- STORE_WRITE (R344): A Daxka request writes store staging bytes. -/
def execStoreWrite (h : Fin 2) (hd : DxHead) (space : BitVec 8) (index : BitVec 16) (off : Word) (bytes : List Byte)
    (s : State) : Host.Outcome State Fault Refusal :=
  .next (whenUp .host (request h.val hd 3 (storeAddr space index off) bytes.length bytes) s)

/-- STORE_COMMIT (R344): A Daxka request commits a store image with its CRC. -/
def execStoreCommit (h : Fin 2) (hd : DxHead) (space : BitVec 8) (index : BitVec 16) (bytes : List Byte)
    (s : State) : Host.Outcome State Fault Refusal :=
  .next (whenUp .host (request h.val hd 4 (storeAddr space index 0) bytes.length bytes) s)

/-- STORE_DISCARD (R344): A Daxka request discards a store's staging. -/
def execStoreDiscard (h : Fin 2) (hd : DxHead) (space : BitVec 8) (index : BitVec 16)
    (s : State) : Host.Outcome State Fault Refusal :=
  .next (whenUp .host (request h.val hd 5 (storeAddr space index 0) 0 []) s)

/-- STORE_READ (R344): A Daxka request reads store bytes. -/
def execStoreRead (h : Fin 2) (hd : DxHead) (space : BitVec 8) (index : BitVec 16) (off : Word) (len : Nat)
    (s : State) : Host.Outcome State Fault Refusal :=
  .next (whenUp .host (request h.val hd 6 (storeAddr space index off) len []) s)

/-- PANTRY_WRITE (R344): A Daxka request writes Pantry bytes through port 96. -/
def execPantryWrite (h : Fin 2) (hd : DxHead) (addr : BitVec 64) (bytes : List Byte)
    (s : State) : Host.Outcome State Fault Refusal :=
  .next (whenUp .host (request h.val hd 7 addr.toNat bytes.length bytes) s)

/-- PANTRY_READ (R344): A Daxka request reads Pantry bytes through port 96. -/
def execPantryRead (h : Fin 2) (hd : DxHead) (addr : BitVec 64) (len : Nat)
    (s : State) : Host.Outcome State Fault Refusal :=
  .next (whenUp .host (request h.val hd 8 addr.toNat len []) s)

/-- MODULE_ONLY_FRAME (R344): A received RECORD, RESPONSE or CREDIT frame is discarded and counted. -/
def execModuleOnlyFrame (h : Fin 2) (op : BitVec 8) (s : State) : Host.Outcome State Fault Refusal :=
  .next (whenUp .host (moduleOnlyFrame h.val op.toNat) s)

/-- CREDIT (R347): Every 10 µs a changed CONSUMED count is reported in a CREDIT frame. -/
def execCredit (h : Fin 2) (s : State) : Host.Outcome State Fault Refusal :=
  .next (whenUp .host (credit h.val) s)

/-- UNREACH (R348): No tunnelled response arrives in 10 ms, and UNREACH is answered. -/
def execUnreach (h : Fin 2) (msgid : BitVec 8) (s : State) : Host.Outcome State Fault Refusal :=
  .next (whenUp .host (unreach h.val msgid.toNat) s)

/-- ARP_REQUEST (R340): An ARP request for HOST_IP4 is answered. -/
def execArpRequest (h : Fin 2) (src : BitVec 48) (ip : Word) (s : State) : Host.Outcome State Fault Refusal :=
  .next (whenUp .host (arpRequest h.val src ip) s)

/-- NEIGHBOUR_SOLICITATION (R340): IPv6 neighbour discovery for HOST_IP6 is answered. -/
def execNeighbourSolicitation (h : Fin 2) (src : BitVec 48) (ip : BitVec 128)
    (s : State) : Host.Outcome State Fault Refusal :=
  .next (whenUp .host (neighbourSolicitation h.val src ip) s)

/-- HOST_MODE_WRITE (R340): A write of HOST_CFG.MODE restarts the port's lanes in the new PHY mode. -/
def execHostModeWrite (h : Fin 2) (mode : BitVec 2) (s : State) : Host.Outcome State Fault Refusal :=
  .next (whenReg .host (hostModeWrite h.val mode.toNat) s)

/-- LINK_FAIL (R351): LINK is lost for more than 1 s while the port is enabled. -/
def execLinkFail (h : Fin 2) (s : State) : Host.Outcome State Fault Refusal :=
  .next (whenUp .host (linkFail h.val) s)

/-- PANTRY_READ_TIMEOUT (R346): A Daxka Pantry read not served within 1 ms is answered with status TIMEOUT. -/
def execPantryReadTimeout (h : Fin 2) (tag : BitVec 16) (s : State) : Host.Outcome State Fault Refusal :=
  .next (whenUp .host (pantryReadTimeout h.val tag.toNat) s)

/-- BAD_OP_REQUEST (R344): A Daxka frame with an unknown OP, a wrong VER or a non-zero reserved field is answered
BAD_OP, counted and otherwise ignored. -/
def execBadOpRequest (h : Fin 2) (hd : DxHead) (op : BitVec 8) (addr : BitVec 64)
    (s : State) : Host.Outcome State Fault Refusal :=
  .next (whenUp .host (badOpRequest h.val hd op.toNat addr.toNat) s)

/-- HOST_FRAME_DISCARD (R342): The host MAC discards a received frame that fails its FCS, is filtered by address or
VLAN, or is a MAC Control frame, and counts it. -/
def execHostFrameDiscard (h : Fin 2) (why : Discard) (s : State) : Host.Outcome State Fault Refusal :=
  .next (whenUp .host (hostFrameDiscard h.val why) s)

end Sys2Proof.Machine
end

