-- ==== Sys2Proof/Machine/Control.lean ====
section
/-! DEFINITION. The I3C target (R36 to R44, R52, R57) and the supply's pins (R48). -/

namespace Sys2Proof.Machine

def setI3c (x : I3c) (s : State) : State := { s with i3c := x }

/-- Set a flag of I3C_STAT. -/
def i3cFlag (i : Nat) (s : State) : State := raiseBit .mgmt 0 0x040 i s

/-- What a transfer returns to the controller. -/
def i3cReply (bs : List Byte) (s : State) : State := setI3c { s.i3c with reply := bs, nack := false } s

/-- A transfer or a direct CCC is refused. -/
def i3cNack (s : State) : State := setI3c { s.i3c with reply := [], nack := true } s

/-! ## Private transfers (R39, R41 to R44) -/

/-- The number that bytes spell, most significant first. -/
def beNat (bs : List Byte) : Nat := ofBytes bs.reverse

/-- Words of a private write, from an address upward. -/
def i3cWords : Nat → Nat → List Byte → State → State
  | 0, _, _, s => s
  | n + 1, a, bs, s => i3cWords n (a + 4) (bs.drop 4) (busWrite .i3c (a % 2 ^ 32) (BitVec.ofNat 32 (ofBytes (bs.take 4))) s)

/-- PRIVATE_WRITE: one with a parity or CRC error is discarded. Flags: 0 ALIGN_ERR, 1 PARTIAL, 3 PARITY_ERR, 4 CRC_ERR,
6 LEN_OVER; one that is too long and ends part-way through a word sets both (R39, R43). The 4 address bytes are taken even
where the maximum write length is below 4 (DESIGN CHOICE, log 115). -/
def privateWrite (good : Bool) (bytes : List Byte) (s : State) : State :=
  if !good then i3cFlag (if s.i3c.hdr then 4 else 3) s
  else if bytes.length < 4 then i3cFlag 1 s
  else
    let a := beNat (bytes.take 4)
    let long := decide (s.i3c.mwl < bytes.length)
    let part := decide (bytes.length % 4 ≠ 0)
    let body := (bytes.take (max 4 s.i3c.mwl)).drop 4
    let k := body.length / 4
    if a % 4 ≠ 0 then i3cFlag 0 s
    else
      let s1 := i3cWords k a body s
      -- a write that resets the module resets the pointer too (R57)
      let s2 := if phase s1 = phase s then setI3c { s1.i3c with ptr := (a + 4 * k) % 2 ^ 32 } s1 else s1
      let s3 := if long then i3cFlag 6 s2 else s2
      if part then i3cFlag 1 s3 else s3

/-- Is the word at an address ready? Not while the window's block is still on its way; a word of a store aperture may or may
not be: R44 does not say when (log 37). -/
def wordReady (a : Nat) (s : State) : Bool × State :=
  if a = addrOf .mgmt 0 0x068 then (!pwinWaits s, s)
  else if inGraph a || (storeAt a).isSome then
    let (v, s1) := freeDraw s
    (decide (v % 2 = 0), s1)
  else (true, s)

/-- Whole words of a private read: the bytes, whether it ended early, the state. -/
def i3cRead : Nat → State → List Byte × Bool × State
  | 0, s => ([], false, s)
  | n + 1, s =>
    let (ok, s0) := wordReady s.i3c.ptr s
    if !ok then ([], true, i3cFlag 2 s0)
    else
      let s1 := busRead .i3c s0.i3c.ptr s0
      let r := i3cRead n (setI3c { s1.i3c with ptr := (s1.i3c.ptr + 4) % 2 ^ 32 } s1)
      (wordBytes s1.rdata ++ r.1, r.2.1, r.2.2)

/-- PRIVATE_READ: at most the maximum read length; a word read in part has none of its side effects. -/
def privateRead (nbytes : Nat) (s : State) : State :=
  let m := min nbytes s.i3c.mrl
  let (bs, early, s1) := i3cRead (m / 4) s
  if early || decide (m % 4 = 0) then i3cReply bs s1
  else
    let (ok, s2) := wordReady s1.i3c.ptr s1
    if !ok then i3cReply bs (i3cFlag 2 s2)
    else i3cReply (bs ++ (wordBytes (busRead .i3c s2.i3c.ptr s2).rdata).take (m % 4)) s2

/-- PWIN_DATA_READ: over I3C it waits for the window's block (R44). -/
def pwinDataRead (s : State) : State :=
  if pwinWaits s then i3cFlag 2 (i3cReply [] s)
  else
    let s1 := pwinRead s
    i3cReply (wordBytes s1.rdata) s1

/-! ## Addresses and CCCs (R36 to R39) -/

/-- A transfer or direct CCC at the dynamic address: without one, or within a peripheral reset, nothing answers it (R36,
R57, log 96). -/
def addressed (f : State → State) (s : State) : State := if i3cAnswers s then f s else i3cNack s

/-- A broadcast CCC; within a peripheral reset it does nothing. -/
def broadcast (f : State → State) (s : State) : State := if s.i3c.inReset then s else f s

def setAddr (a : Nat) (s : State) : State := wr s .mgmt 0 0x040 31 24 (128 + a % 128)

/-- ENTDAA: a target without an address takes one. -/
def entdaa (a : Nat) (s : State) : State := if hasAddr s then s else i3cReply [] (setAddr a s)

/-- SETDASA: by the static address 0x60 + STRAP[2:0]. -/
def setdasa (static a : Nat) (s : State) : State :=
  if s.i3c.inReset || hasAddr s || decide (static ≠ 0x60 + s.pins.strap.toNat % 8) then i3cNack s else i3cReply [] (setAddr a s)

def setnewda (a : Nat) (s : State) : State := i3cReply [] (setAddr a s)

def rstdaa (s : State) : State := wr s .mgmt 0 0x040 31 24 0

/-- ENEC: while a page is pending an interrupt is requested at once (R52). -/
def enec (s : State) : State :=
  let s1 := setI3c { s.i3c with ibiOn := true } s
  if s.i3c.ibiOn || (pendingPages s1).isEmpty then s1 else requestIbi s1

/-- DISEC: no more interrupts are requested; a request not yet delivered stays (log 98). -/
def disec (s : State) : State := setI3c { s.i3c with ibiOn := false } s

/-- SETMWL and SETMRL: above 4,096 acts as 4,096 (R39). -/
def setmwl (n : Nat) (s : State) : State := setI3c { s.i3c with mwl := min n 4096 } s
def setmrl (n : Nat) (s : State) : State := setI3c { s.i3c with mrl := min n 4096 } s

/-- GETSTATUS and GETCAPS answer two bytes each that R36 to R39 do not state. -/
def freeReply (n : Nat) (s : State) : State :=
  let (x, s1) := freeDraw s
  i3cReply (leBytes x n) s1

/-- RSTACT: 0x00 to 0x02 set the action, as a direct or a broadcast CCC; 0x81 and 0x82 read a recovery time (R57). -/
def rstact (b : BitVec 8) (s : State) : State :=
  if s.i3c.inReset || (!hasAddr s && decide (2 < b.toNat)) then i3cNack s
  else if b.toNat ≤ 2 then i3cReply [] (setI3c { s.i3c with rstact := b } s)
  else if b = 0x81 then i3cReply [0x01] s
  else if b = 0x82 then i3cReply [0x05] s
  else i3cNack s

/-- A CCC that is not supported (R37). -/
def unsupportedCcc (direct : Bool) (s : State) : State :=
  if direct then addressed (fun t => i3cNack (i3cFlag 5 t)) s else broadcast (i3cFlag 5) s

/-- IBI_DELIVERED: the request's payload goes out (R40), at the dynamic address. -/
def ibiDelivered (s0 : State) : State :=
  let s := allWork s0
  if !s.i3c.ibiReq || !i3cAnswers s then s
  else
    let first : Word := viewWord s .sys 0 0x060
    let b : Byte := if allPages.any (faultPending s) then 0xA1 else 0xA0
    i3cReply (b :: (wordBytes first).reverse) (setI3c { s.i3c with ibiReq := false } s)

/-! ## Pins -/

/-- SHED_N has been low for 1 µs, or is high again (R48); before the PWR page is up only the level is noted. -/
def shedLevel (high : Bool) (s : State) : State :=
  if ptUp s .pwr then shedPin high s else { s with pins := { s.pins with shedN := high } }

end Sys2Proof.Machine
end

