-- ==== Sys2Proof/Machine/MeanI3c.lean ====
section
/-! DEFINITION. The meanings of the I3C commands (02_control_interface.md). -/

namespace Sys2Proof.Machine

/-- PRIVATE_WRITE (R41): An I3C private write sets the address pointer and writes the 32-bit data words that follow
it at successive addresses. -/
def execPrivateWrite (good : Bool) (bytes : List Byte) (s : State) : Host.Outcome State Fault Refusal :=
  .next (whenUp .mgmt (addressed (privateWrite good bytes)) s)

/-- PRIVATE_READ (R42): An I3C private read returns whole words from the address pointer onward, with each word's
read side effects. -/
def execPrivateRead (nbytes : Nat) (s : State) : Host.Outcome State Fault Refusal :=
  .next (whenUp .mgmt (addressed (privateRead nbytes)) s)

/-- ENTHDR0 (R36): The controller enters HDR-DDR mode. -/
def execEnthdr0 (s : State) : Host.Outcome State Fault Refusal :=
  .next (whenUp .mgmt (broadcast (fun t => setI3c { t.i3c with hdr := true } t)) s)

/-- HDR_EXIT (R36): The HDR exit pattern returns the target to SDR. -/
def execHdrExit (s : State) : Host.Outcome State Fault Refusal :=
  .next (whenUp .mgmt (broadcast (fun t => setI3c { t.i3c with hdr := false } t)) s)

/-- ENTDAA (R36): Dynamic address assignment, using the provisional ID. -/
def execEntdaa (addr : BitVec 7) (s : State) : Host.Outcome State Fault Refusal :=
  .next (whenUp .mgmt (broadcast (entdaa addr.toNat)) s)

/-- SETDASA (R36): Assigns a dynamic address from the static address 0x60 + STRAP[2:0]. -/
def execSetdasa (static : BitVec 7) (addr : BitVec 7) (s : State) : Host.Outcome State Fault Refusal :=
  .next (whenUp .mgmt (setdasa static.toNat addr.toNat) s)

/-- SETNEWDA (R36): Changes the dynamic address. -/
def execSetnewda (addr : BitVec 7) (s : State) : Host.Outcome State Fault Refusal :=
  .next (whenUp .mgmt (addressed (setnewda addr.toNat)) s)

/-- RSTDAA (R36): Clears the dynamic address. -/
def execRstdaa (s : State) : Host.Outcome State Fault Refusal :=
  .next (whenUp .mgmt (broadcast rstdaa) s)

/-- ENEC (R52): Enables in-band interrupts and requests one at once if any page is pending. -/
def execEnec (s : State) : Host.Outcome State Fault Refusal :=
  .next (whenUp .mgmt (broadcast enec) s)

/-- DISEC (R52): Disables in-band interrupts. -/
def execDisec (s : State) : Host.Outcome State Fault Refusal :=
  .next (whenUp .mgmt (broadcast disec) s)

/-- SETMWL (R39): Sets the maximum write length, capped at 4,096 bytes. -/
def execSetmwl (n : BitVec 16) (s : State) : Host.Outcome State Fault Refusal :=
  .next (whenUp .mgmt (broadcast (setmwl n.toNat)) s)

/-- GETMWL (R39): Returns the maximum write length in force. -/
def execGetmwl (s : State) : Host.Outcome State Fault Refusal :=
  .next (whenUp .mgmt (addressed (fun t => i3cReply (beBytes t.i3c.mwl 2) t)) s)

/-- SETMRL (R39): Sets the maximum read length, capped at 4,096 bytes. -/
def execSetmrl (n : BitVec 16) (s : State) : Host.Outcome State Fault Refusal :=
  .next (whenUp .mgmt (broadcast (setmrl n.toNat)) s)

/-- GETMRL (R39): Returns the maximum read length in force. -/
def execGetmrl (s : State) : Host.Outcome State Fault Refusal :=
  .next (whenUp .mgmt (addressed (fun t => i3cReply (beBytes t.i3c.mrl 2 ++ [0x05]) t)) s)

/-- GETPID (R38): Returns the 48-bit provisional ID. -/
def execGetpid (s : State) : Host.Outcome State Fault Refusal :=
  .next (whenUp .mgmt (addressed (fun t => i3cReply (beBytes (provId t) 6) t)) s)

/-- GETBCR (R38): Returns BCR = 0x26. -/
def execGetbcr (s : State) : Host.Outcome State Fault Refusal :=
  .next (whenUp .mgmt (addressed (i3cReply [0x26])) s)

/-- GETDCR (R38): Returns DCR = 0x00. -/
def execGetdcr (s : State) : Host.Outcome State Fault Refusal :=
  .next (whenUp .mgmt (addressed (i3cReply [0x00])) s)

/-- GETSTATUS (R36): Returns the target's I3C status. -/
def execGetstatus (s : State) : Host.Outcome State Fault Refusal :=
  .next (whenUp .mgmt (addressed (freeReply 2)) s)

/-- GETMXDS (R39): Reports no data-speed limit and a read turnaround of 0. -/
def execGetmxds (s : State) : Host.Outcome State Fault Refusal :=
  .next (whenUp .mgmt (addressed (i3cReply [0x00, 0x00, 0x00, 0x00, 0x00])) s)

/-- GETCAPS (R36): Returns the target's capabilities. -/
def execGetcaps (s : State) : Host.Outcome State Fault Refusal :=
  .next (whenUp .mgmt (addressed (freeReply 2)) s)

/-- RSTACT (R57): Sets the reset action with defining byte 0x00, 0x01 or 0x02, or returns a recovery time with 0x81
or 0x82. -/
def execRstact (defining : BitVec 8) (s : State) : Host.Outcome State Fault Refusal :=
  .next (whenUp .mgmt (rstact defining) s)

/-- UNSUPPORTED_CCC (R37): An unsupported direct CCC is NACKed, an unsupported broadcast CCC is ignored, and
CCC_UNSUP is set. -/
def execUnsupportedCcc (direct : Bool) (s : State) : Host.Outcome State Fault Refusal :=
  .next (whenUp .mgmt (unsupportedCcc direct) s)

/-- TARGET_RESET_PATTERN (R57): Performs the last reset action set: a peripheral reset or a whole-target reset. -/
def execTargetResetPattern (s : State) : Host.Outcome State Fault Refusal :=
  .next (whenUp .mgmt targetReset s)

/-- PWIN_DATA_WRITE (R45): Writes a word to the Pantry at the window address, which then advances if INC is set. -/
def execPwinDataWrite (v : Word) (s : State) : Host.Outcome State Fault Refusal :=
  .next (whenReg .mgmt (pwinWriteBy 0 v) s)

/-- PWIN_DATA_READ (R45): Reads a prefetched Pantry word at the window address, which then advances if INC is set. -/
def execPwinDataRead (s : State) : Host.Outcome State Fault Refusal :=
  .next (whenUp .mgmt pwinDataRead s)

/-- IBI_DELIVERED (R52): The controller accepts the target's in-band interrupt and its 5-byte payload, so later
requests no longer merge into it. -/
def execIbiDelivered (s : State) : Host.Outcome State Fault Refusal :=
  .next (whenUp .mgmt ibiDelivered s)

/-- TARGET_RESET_DONE (R57): A peripheral reset completes within 1 ms, requesting an interrupt anew if a page is
pending, or a whole-target reset ends like RST_N released. -/
def execTargetResetDone (s : State) : Host.Outcome State Fault Refusal :=
  .next (targetDone s)

end Sys2Proof.Machine
end

