-- ==== Sys2Proof/Machine/MeanLanes.lean ====
section
/-! DEFINITION. The meanings of the serial lanes’ commands (13_serial_lanes.md). -/

namespace Sys2Proof.Machine

/-- SLIP (R311): Discards one received symbol, moving the word boundary, unless refused. -/
def execSlip (n : Fin 20) (s : State) : Host.Outcome State Fault Refusal :=
  .next (whenReg .lane (slip n.val) s)

/-- RESTART (R304): Discards the receiver's coefficients and acquires from the start. -/
def execRestart (n : Fin 20) (s : State) : Host.Outcome State Fault Refusal :=
  .next (whenReg .lane (restart n.val) s)

/-- PRBS_CLR (R307): Zeroes the PRBS counters. -/
def execPrbsClr (n : Fin 20) (s : State) : Host.Outcome State Fault Refusal :=
  .next (whenReg .lane (prbsClr n.val) s)

/-- LOS (R304): The signal is lost; the receiver holds its coefficients and clears its status. -/
def execLos (n : Fin 20) (s : State) : Host.Outcome State Fault Refusal :=
  .next (whenReceiving (los n.val) s)

/-- SIGNAL_RETURN (R304): The signal returns and the receiver reacquires. -/
def execSignalReturn (n : Fin 20) (s : State) : Host.Outcome State Fault Refusal :=
  .next (whenReceiving (signalReturn n.val) s)

/-- RX_READY (R302): The receiver has locked and adapted, and RX_READY sets. -/
def execRxReady (n : Fin 20) (snr : BitVec 16) (s : State) : Host.Outcome State Fault Refusal :=
  .next (whenReceiving (rxReady n.val snr.toNat) s)

/-- PRBS_LOCK (R307): The checker matches 128 consecutive bits and locks. -/
def execPrbsLock (n : Fin 20) (s : State) : Host.Outcome State Fault Refusal :=
  .next (whenReceiving (prbsLock n.val) s)

/-- PRBS_UNLOCK (R307): More than 64 of 1,024 bits mismatch, and the checker reseeds. -/
def execPrbsUnlock (n : Fin 20) (bits : Nat) (errs : Nat) (s : State) : Host.Outcome State Fault Refusal :=
  .next (whenReceiving (prbsUnlock n.val bits errs) s)

/-- LOCK_ACQUIRE (R312): The LOCK_SRC criterion is met, and LOCK sets. -/
def execLockAcquire (n : Fin 20) (s : State) : Host.Outcome State Fault Refusal :=
  .next (whenReceiving (lockAcquire n.val) s)

/-- LOCK_LOSS (R312): The LOCK_SRC clear criterion is met, and LOCK clears. -/
def execLockLoss (n : Fin 20) (s : State) : Host.Outcome State Fault Refusal :=
  .next (whenReceiving (lockLoss n.val) s)

/-- AUTO_ALIGN_SLIP (R323): An unlocked lane of an enabled ring port slips itself every 2 µs. -/
def execAutoAlignSlip (n : Fin 20) (s : State) : Host.Outcome State Fault Refusal :=
  .next (whenUp .lane (autoAlignSlip n.val) s)

/-- SWAP_START (R314): Policy or FORCE_SPARE starts a lane substitution by sending SWAP_REQ. -/
def execSwapStart (n : Fin 20) (s : State) : Host.Outcome State Fault Refusal :=
  .next (whenReg .lane (swapStart n.val) s)

/-- SWAP_REQ (R314): A SWAP_REQ received from the far end starts bridging. -/
def execSwapReq (port : Fin 4) (lane : Fin 4) (s : State) : Host.Outcome State Fault Refusal :=
  .next (whenUp .lane (swapReq port.val lane.val) s)

/-- SWAP_REQ_ABRUPT (R316): An abrupt SWAP_REQ moves the logical lane to the spare only. -/
def execSwapReqAbrupt (port : Fin 4) (lane : Fin 4) (s : State) : Host.Outcome State Fault Refusal :=
  .next (whenUp .lane (swapReqAbrupt port.val lane.val) s)

/-- SWAP_READY (R314): SWAP_READY received; an end that has switched stops bridging. -/
def execSwapReady (port : Fin 4) (s : State) : Host.Outcome State Fault Refusal :=
  .next (whenUp .lane (swapReady port.val) s)

/-- SWAP_ABORT (R315): SWAP_ABORT received; bridging stops and lane k is kept. -/
def execSwapAbort (port : Fin 4) (_cause : Fin 4) (s : State) : Host.Outcome State Fault Refusal :=
  .next (whenUp .lane (swapAbort port.val) s)

/-- SWAP_SWITCH (R314): After 4,096 equal words the receiver takes its input from the spare. -/
def execSwapSwitch (port : Fin 4) (s : State) : Host.Outcome State Fault Refusal :=
  .next (whenUp .lane (swapSwitch port.val) s)

/-- SWAP_TIMEOUT (R314): A swap has not completed within 10 ms and is aborted. -/
def execSwapTimeout (port : Fin 4) (skew : Bool) (s : State) : Host.Outcome State Fault Refusal :=
  .next (whenUp .lane (swapTimeout port.val skew) s)

/-- LANE_FAIL (R316): A lane loses CDR_LOCK or LOCK for more than 10 µs. -/
def execLaneFail (n : Fin 20) (s : State) : Host.Outcome State Fault Refusal :=
  .next (whenUp .lane (laneFail n.val) s)

/-- ABRUPT_SWITCH (R316): The receiver switches to the spare once the spare holds LOCK. -/
def execAbruptSwitch (port : Fin 4) (s : State) : Host.Outcome State Fault Refusal :=
  .next (whenUp .lane (abruptSwitch port.val) s)

/-- LANE_SNR_UPDATE (R305): Every 1 ms a receiver updates LANE_SNR and LANE_EYE, raises SNR_LOW below SNR_MIN and
re-evaluates RX_READY. -/
def execLaneSnrUpdate (n : Fin 20) (snr : BitVec 16) (eye : Word) (s : State) : Host.Outcome State Fault Refusal :=
  .next (whenReceiving (laneSnrUpdate n.val snr.toNat eye) s)

end Sys2Proof.Machine
end

