-- ==== Sys2Proof/Machine/MeanMortar.lean ====
section
/-! DEFINITION. The meanings of Mortar’s commands (10_decoder.md). -/

namespace Sys2Proof.Machine

/-- DETECTION_INPUT_DUE (R226): A syndrome result reaches Mortar and is assigned to a round or discarded as STRAY. -/
def execDetectionInputDue (slot : Fin 512) (s : State) : Host.Outcome State Fault Refusal :=
  .next (whenUp .mortar (detectionInputDue slot.val) s)

/-- ROUND_CLOSE (R227): At C(r) + 1 Mortar forms detection events and sends seam SYNDROME flits. -/
def execRoundClose (s : State) : Host.Outcome State Fault Refusal :=
  .next (whenUp .mortar roundClose s)

/-- DECODE_WINDOW_COMPLETE (R230): A window becomes complete and its union-find decoding starts. -/
def execDecodeWindowComplete (s : State) : Host.Outcome State Fault Refusal :=
  .next (whenUp .mortar decodeWindowComplete s)

/-- WINDOW_OUTPUT_ISSUE (R231): At X Mortar issues the window's frame updates, observable flips and seam
corrections. -/
def execWindowOutputIssue (largest : Nat) (slack : Nat) (abandoned : List (Nat × Nat))
    (s : State) : Host.Outcome State Fault Refusal :=
  .next (whenUp .mortar (windowOutputIssue largest slack abandoned) s)

/-- TEST_DECODE (R246): A tile runs its test decode between windows and raises TILE_FAULT on failure. -/
def execTestDecode (t : Fin 17) (ok : Bool) (s : State) : Host.Outcome State Fault Refusal :=
  .next (whenUp .mortar (testDecode t.val ok) s)

/-- TILE_PARITY (R246): A tile parity error abandons the current window. -/
def execTileParity (t : Fin 17) (s : State) : Host.Outcome State Fault Refusal :=
  .next (whenUp .mortar (tileParity t.val) s)

/-- GRAPH_PARITY (R248): A graph bank parity error stops the stream, and the state becomes GRAPH_BAD. -/
def execGraphParity (s : State) : Host.Outcome State Fault Refusal :=
  .next (whenUp .mortar graphParity s)

end Sys2Proof.Machine
end

