-- ==== Sys2Proof/Machine/MeanPantry.lean ====
section
/-! DEFINITION. The meanings of the Pantry’s commands (12_memory.md). -/

namespace Sys2Proof.Machine

/-- ADMIT (R280): Checks the selected Pantry port and admits it to the ledger, or refuses it. -/
def execPortAdmit (s : State) : Host.Outcome State Fault Refusal :=
  .next (whenReg .pantry admitPort s)

/-- PORT_RELEASE (R281): Releases an idle Pantry port, or refuses BUSY. -/
def execPortRelease (s : State) : Host.Outcome State Fault Refusal :=
  .next (whenReg .pantry releaseNow s)

/-- MAP_WRITE (R277): A mask write applies only while no port is admitted, and otherwise raises MAP_BUSY. -/
def execMapWrite (k : Fin 9) (v : Word) (s : State) : Host.Outcome State Fault Refusal :=
  .next (whenReg .pantry (mapMaskWrite k.val v) s)

/-- PANTRY_REQUEST (R282): A port request is accepted at a channel with a deadline and served in deadline order. -/
def execPantryRequest (port : Fin 97) (addr : BitVec 35) (write : Option (List Byte))
    (s : State) : Host.Outcome State Fault Refusal :=
  .next (whenUp .pantry (pantryRequest port.val addr.toNat write) s)

/-- ESCALATION (R283): A request's slack falls to ELEVATED or URGENT. -/
def execEscalation (id : Nat) (s : State) : Host.Outcome State Fault Refusal :=
  .next (whenUp .pantry (escalation id) s)

/-- DEADLINE_MISS (R284): A request misses its deadline and raises LEDGER_BREACH. -/
def execDeadlineMiss (id : Nat) (s : State) : Host.Outcome State Fault Refusal :=
  .next (whenUp .pantry (deadlineMiss id) s)

/-- BANK_REFRESH (R288): A per-bank refresh falls due, or is forced after 4 postponements. -/
def execBankRefresh (ch : Fin 32) (postponed : Bool) (s : State) : Host.Outcome State Fault Refusal :=
  .next (whenUp .pantry (bankRefresh ch.val postponed) s)

/-- RETRAIN_SLOT (R289): A channel's retraining slot tracks timing and measures margin. -/
def execRetrainSlot (ch : Fin 32) (margin : BitVec 16) (temp : BitVec 8) (full : Bool)
    (s : State) : Host.Outcome State Fault Refusal :=
  .next (whenUp .pantry (trainSlot ch.val margin.toNat temp.toNat full) s)

/-- RETIREMENT_START (R292): A planned retirement checks the ledger, withdraws regions and starts evacuation. -/
def execRetirementStart (ch : Fin 32) (s : State) : Host.Outcome State Fault Refusal :=
  .next (whenReg .pantry (retirementStart ch.val) s)

/-- EVACUATION_DONE (R292): Evacuation ends and the switch retires the channel in one tick. -/
def execEvacuationDone (ch : Fin 32) (s : State) : Host.Outcome State Fault Refusal :=
  .next (whenUp .pantry (fun t => if t.evac = some ch.val then evacuationDone t else t) s)

/-- CHANNEL_LOSS (R293): A channel stops answering and retires abruptly with DATA_LOST. -/
def execChannelLoss (ch : Fin 32) (s : State) : Host.Outcome State Fault Refusal :=
  .next (whenUp .pantry (channelLoss ch.val) s)

/-- PANTRY_REQUEST_DONE (R282): A Pantry request is served at its channel: read data reaches the requesting island,
or write data is in the device. -/
def execPantryRequestDone (id : Nat) (ecc : EccReport) (s : State) : Host.Outcome State Fault Refusal :=
  .next (whenUp .pantry (requestServed id ecc.corr.toNat ecc.retries.val ecc.uncorr) s)

end Sys2Proof.Machine
end

