-- ==== Sys2Proof/Machine/MeanPower.lean ====
section
/-! DEFINITION. The meanings of the thermal and power commands (19_thermal_and_power.md). -/

namespace Sys2Proof.Machine

/-- TRIVET_UPDATE (R424): Every 25 µs the thermal model integrates, corrects from sensors and evaluates thresholds. -/
def execTrivetUpdate (readings : List Int) (s : State) : Host.Outcome State Fault Refusal :=
  if readings.length = 24 then .next (whenUp .therm (trivetUpdate readings) s) else .fault .illFormed

/-- DIODE_CROSSCHECK (R426): Once per second the spare diodes are compared with the primaries. -/
def execDiodeCrosscheck (site : Fin 24) (prim : BitVec 16) (spare : BitVec 16)
    (s : State) : Host.Outcome State Fault Refusal :=
  .next (whenUp .therm (diodeCrosscheck site.val prim.toInt spare.toInt) s)

/-- FREEZE_TIMEOUT (R427): 10 ms pass without a usable controlling-site reading, and the throttle rises a step. -/
def execFreezeTimeout (s : State) : Host.Outcome State Fault Refusal :=
  .next (whenUp .therm freezeTimeout s)

/-- THROTTLE_UP (R429): The throttle level rises by one every RISE milliseconds. -/
def execThrottleUp (s : State) : Host.Outcome State Fault Refusal :=
  .next (whenUp .therm throttleUp s)

/-- THROTTLE_DOWN (R429): The throttle level falls by one every FALL milliseconds. -/
def execThrottleDown (s : State) : Host.Outcome State Fault Refusal :=
  .next (whenUp .therm throttleDown s)

/-- SHUTDOWN_EXIT (R432): The temperature stays below the WARN release for 1 s, and the module restarts or waits. -/
def execShutdownExit (s : State) : Host.Outcome State Fault Refusal :=
  .next (whenAlive shutdownExit s)

/-- PHASE_FAIL (R435): A regulator phase fails and is dropped within 10 µs. -/
def execPhaseFail (d : Fin 48) (s : State) : Host.Outcome State Fault Refusal :=
  .next (whenUp .pwr (phaseFail d.val) s)

/-- DOMAIN_TRIP (R436): A domain stays out of regulation for 10 µs, and the module enters shed stage 6. -/
def execDomainTrip (d : Fin 48) (s : State) : Host.Outcome State Fault Refusal :=
  .next (whenUp .pwr (domainTrip d.val) s)

/-- SHED_DWELL (R438): The input current stays at or above ILIM_SOFT for DWELL, and the demand rises. -/
def execShedDwell (s : State) : Host.Outcome State Fault Refusal :=
  .next (whenUp .pwr shedDwell s)

/-- SHED_HOLD (R439): HOLD elapses, and the demand or the stage falls one step. -/
def execShedHold (s : State) : Host.Outcome State Fault Refusal :=
  .next (whenUp .pwr shedHold s)

/-- SHED_WAIT (R439): A stage entry waits WAIT for a boundary and acts at once. -/
def execShedWait (g : Fin 8) (s : State) : Host.Outcome State Fault Refusal :=
  .next (whenUp .pwr (shedWait g.val) s)

/-- VIN_THRESHOLD (R438): VIN crosses a shed threshold and sets the voltage demand. -/
def execVinThreshold (mv : BitVec 16) (s : State) : Host.Outcome State Fault Refusal :=
  .next (whenUp .pwr (vinThreshold mv.toNat) s)

/-- BROWNOUT_RESTART (R442): VIN holds at 4.5 V or more for 10 ms, and the module restarts from phase 2. -/
def execBrownoutRestart (s : State) : Host.Outcome State Fault Refusal :=
  .next (whenAlive brownoutRestart s)

/-- OVER_VOLTAGE (R463): VIN exceeds 20.5 V for 10 µs; the input switch opens and stage 6 is entered. -/
def execOverVoltage (s : State) : Host.Outcome State Fault Refusal :=
  .next (whenUp .pwr overVoltage s)

end Sys2Proof.Machine
end

