-- ==== Sys2Proof/Machine/MeanReadout.lean ====
section
/-! DEFINITION. The meanings of the read-out commands (07_readout.md). -/

namespace Sys2Proof.Machine

/-- WINDOW_ARM_DUE (R172): A window arm reaches its demodulator, which checks and accepts or refuses it. -/
def execWindowArmDue (d : Fin 512) (s : State) : Host.Outcome State Fault Refusal :=
  .next (whenUp .rdi (windowArmDue d.val) s)

/-- WINDOW_CLOSE (R174): A window's last sample is integrated, and its result is classified and sent to the Ladle. -/
def execWindowClose (d : Fin 512) (lead : List (BitVec 12)) (raw : List (BitVec 12))
    (s : State) : Host.Outcome State Fault Refusal :=
  .next (whenUp .rdi (windowClose d.val lead raw) s)

/-- ADC_FAULT (R467): A slice bias current stays outside its limits for 10 µs. -/
def execAdcFault (n : Fin 16) (s : State) : Host.Outcome State Fault Refusal :=
  .next (whenUp .rdi (adcFaultAt n.val) s)

/-- SHADOW_STEP (R163): A spare-slice shadow of 2^20 instants ends with a fit and a residual check. -/
def execShadowStep (n : Fin 16) (resid : Residuals) (ofs : BitVec 16) (gain : BitVec 16) (skew : BitVec 16)
    (s : State) : Host.Outcome State Fault Refusal :=
  .next (whenUp .rdi (shadowStep n.val resid.spare.toNat ofs.toNat gain.toNat skew.toNat resid.pos.val resid.active.toNat) s)

/-- HANDOVER (R163): At a permitted tick the spare slice takes its position, and the old slice becomes the spare. -/
def execHandover (n : Fin 16) (s : State) : Host.Outcome State Fault Refusal :=
  .next (whenUp .rdi (handoverAt n.val) s)

/-- INPUT_QUIET (R165): The input's mean power falls more than MIN_PWR dB below full scale, pausing shadowing and
raising QUIET, or rises above it again. -/
def execInputQuiet (n : Fin 16) (below : Nat) (s : State) : Host.Outcome State Fault Refusal :=
  .next (whenUp .rdi (inputQuiet n.val below) s)

/-- INPUT_OVERRANGE (R162): An RDI sample with raw slice code −2,048 or 2,047 increments OVR_CNT and raises OVR at
the first such sample of each shot. -/
def execInputOverrange (n : Fin 16) (s : State) : Host.Outcome State Fault Refusal :=
  .next (whenUp .rdi (inputOverrange n.val) s)

end Sys2Proof.Machine
end

