-- ==== Sys2Proof/Machine/MeanRegs.lean ====
section
/-! DEFINITION. The meanings of register and page commands (02_control_interface.md). -/

namespace Sys2Proof.Machine

/-- REGISTER_WRITE (R5): A write to a register field with no row of its own, following the field's access type,
including a held shadowed write. -/
def execRegisterWrite (p : Path) (addr : Word) (v : Word) (s : State) : Host.Outcome State Fault Refusal :=
  .next (whenPath p (wordWrite p addr.toNat v) s)

/-- SOFT_RESET (R50): Resets one page and its block but keeps the stores; an accepted image is copied and running
outputs mute. -/
def execSoftReset (p : Path) (pg : Fin 1024) (v : Word) (s : State) : Host.Outcome State Fault Refusal :=
  .next (whenPath p (busWrite p (pg.val * 4096 + 8) (v ||| 2)) s)

/-- PAGE_LOCK (R5): A write of 1 to PG_CTRL.LOCK locks the RWL fields of the page. -/
def execPageLock (p : Path) (pg : Fin 1024) (s : State) : Host.Outcome State Fault Refusal :=
  .next (whenPath p (onPage pg.val (lockPart p pg.val)) s)

/-- ENABLE_SET (R481): Puts a block in service, at once or at the next shot boundary of the groups that use it. -/
def execEnableSet (p : Path) (pg : Fin 1024) (s : State) : Host.Outcome State Fault Refusal :=
  .next (whenPath p (onPage pg.val (pgPart p pg.val (enableBlock pg.val))) s)

/-- ENABLE_CLEAR (R481): Takes a block out of service at once, tagging a running shot that uses it CORRUPT. -/
def execEnableClear (p : Path) (pg : Fin 1024) (s : State) : Host.Outcome State Fault Refusal :=
  .next (whenPath p (onPage pg.val (pgPart p pg.val (disableBlock pg.val))) s)

/-- AUTO (R451): SPARE_SEL AUTO makes substitution follow the SPARE page policy. -/
def execAuto (p : Path) (pg : Fin 1024) (s : State) : Host.Outcome State Fault Refusal :=
  .next (whenPath p (onPage pg.val (pgPart p pg.val (spareSelWrite pg.val 0))) s)

/-- FORCE_SPARE (R451): SPARE_SEL FORCE_SPARE requests a spare at the next shot boundary. -/
def execForceSpare (p : Path) (pg : Fin 1024) (s : State) : Host.Outcome State Fault Refusal :=
  .next (whenPath p (onPage pg.val (pgPart p pg.val (spareSelWrite pg.val 1))) s)

/-- FORCE_PRIMARY (R454): SPARE_SEL FORCE_PRIMARY returns the original unit if it passes its health check. -/
def execForcePrimary (p : Path) (pg : Fin 1024) (s : State) : Host.Outcome State Fault Refusal :=
  .next (whenPath p (onPage pg.val (pgPart p pg.val (spareSelWrite pg.val 2))) s)

/-- INHIBIT (R451): SPARE_SEL INHIBIT prevents automatic substitution for the page. -/
def execInhibit (p : Path) (pg : Fin 1024) (s : State) : Host.Outcome State Fault Refusal :=
  .next (whenPath p (onPage pg.val (pgPart p pg.val (spareSelWrite pg.val 3))) s)

/-- SWRST (R56): Writing KEY 0x5120 to SYS.SWRST resets the module except MGMT. -/
def execSwrst (v : Word) (s : State) : Host.Outcome State Fault Refusal :=
  .next (whenReg .sys (swrst v) s)

/-- STAND_ASIDE (R65): Setting or clearing STAND_ASIDE closes or permits the ring bypass while running. -/
def execStandAside (on : Bool) (s : State) : Host.Outcome State Fault Refusal :=
  .next (whenReg .sys (standAsideWrite on) s)

/-- RELEASE (R65): SYS.BYPASS.RELEASE permits the bypass to open once both ring ports are up. -/
def execRelease (on : Bool) (s : State) : Host.Outcome State Fault Refusal :=
  .next (whenReg .sys (releaseWrite on) s)

/-- SOFT_RESET_DONE (R50): A page soft reset finishes within 10 µs; RESETTING clears, a pending accepted image is
copied and the page reads UP again. -/
def execSoftResetDone (pg : Fin 1024) (s : State) : Host.Outcome State Fault Refusal :=
  .next (whenAlive (softResetDone pg.val) s)

end Sys2Proof.Machine
end

