-- ==== Sys2Proof/Machine/MeanRing.lean ====
section
/-! DEFINITION. The meanings of the ring’s commands (14_ring_and_host_ports.md, 15_time_and_sync.md). -/

namespace Sys2Proof.Machine

/-- LANE_FRAME (R325): A framing word is received with address, ACK/NAK, RTLAST and lane message. -/
def execLaneFrame (r : Fin 2) (w : BitVec 128) (s : State) : Host.Outcome State Fault Refusal :=
  .next (whenUp .ring (laneFrame r.val w) s)

/-- DECISION_FLIT (R208): A DECISION flit is received, delivered to REMOTE channels and forwarded. -/
def execDecisionFlit (r : Fin 2) (f : BitVec 256) (s : State) : Host.Outcome State Fault Refusal :=
  .next (whenUp .ring (rxFlit r.val [1] f 0) s)

/-- SYNDROME_EVENTS (R244): A seam event flit is received by the owner. -/
def execSyndromeEvents (r : Fin 2) (f : BitVec 256) (s : State) : Host.Outcome State Fault Refusal :=
  .next (whenUp .ring (rxFlit r.val (if nbit f.toNat 48 then [] else [2]) f 0) s)

/-- SYNDROME_CORRECTIONS (R245): Seam corrections are received by the forwarder and passed to its Ladle. -/
def execSyndromeCorrections (r : Fin 2) (f : BitVec 256) (s : State) : Host.Outcome State Fault Refusal :=
  .next (whenUp .ring (rxFlit r.val (if nbit f.toNat 48 then [2] else []) f 0) s)

/-- TRIGGER_FLIT (R339): A TRIGGER flit is taken once and starts masters and activates match lines. -/
def execTriggerFlit (r : Fin 2) (f : BitVec 256) (s : State) : Host.Outcome State Fault Refusal :=
  .next (whenUp .ring (rxFlit r.val [3] f 0) s)

/-- LOSS_FLIT (R333): A LOSS flit is treated as a loss report of the receiving port and forwarded. -/
def execLossFlit (r : Fin 2) (f : BitVec 256) (s : State) : Host.Outcome State Fault Refusal :=
  .next (whenUp .ring (rxFlit r.val [4] f 0) s)

/-- BULK_FLIT (R348): A BULK fragment of a tunnelled Daxka message is taken in LSEQ order. -/
def execBulkFlit (r : Fin 2) (f : BitVec 256) (s : State) : Host.Outcome State Fault Refusal :=
  .next (whenUp .ring (fun t => takeInbox (rxFlit r.val [5] f 0 t)) s)

/-- IDLE_FLIT (R332): An IDLE flit carries RTLAST for loss detection. -/
def execIdleFlit (r : Fin 2) (f : BitVec 256) (s : State) : Host.Outcome State Fault Refusal :=
  .next (whenUp .ring (rxFlit r.val [0] f 0) s)

/-- FLIT_SEND (R331): A queued flit is sent in the next free slot, real-time first. -/
def execFlitSend (r : Fin 2) (_report : Bool) (s : State) : Host.Outcome State Fault Refusal :=
  .next (whenUp .ring (flitSend r.val) s)

/-- REPLAY_TIMEOUT (R337): ACK makes no progress for 4,096 ticks, and unacknowledged flits are resent. -/
def execReplayTimeout (r : Fin 2) (s : State) : Host.Outcome State Fault Refusal :=
  .next (whenUp .ring (replayTimeout r.val) s)

/-- GRACE_EXPIRY (R323): A reacquiring ring port is not up when GRACE ends and goes down. -/
def execGraceExpiry (r : Fin 2) (s : State) : Host.Outcome State Fault Refusal :=
  .next (whenUp .ring (graceExpiry r.val) s)

/-- RING_SYNC (R372): A ring slave takes a SYNC TIME message. -/
def execRingSync (r : Fin 2) (f : BitVec 256) (rx : Int) (s : State) : Host.Outcome State Fault Refusal :=
  .next (whenUp .ring (rxFlit r.val (timeTypes 0 f) f rx) s)

/-- RING_DELAY_REQ (R372): The ring master answers a DELAY_REQ TIME message. -/
def execRingDelayReq (r : Fin 2) (f : BitVec 256) (rx : Int) (s : State) : Host.Outcome State Fault Refusal :=
  .next (whenUp .ring (rxFlit r.val (timeTypes 1 f) f rx) s)

/-- RING_DELAY_RESP (R372): A ring slave takes a DELAY_RESP and forms θ. -/
def execRingDelayResp (r : Fin 2) (f : BitVec 256) (rx : Int) (s : State) : Host.Outcome State Fault Refusal :=
  .next (whenUp .ring (rxFlit r.val (timeTypes 2 f) f rx) s)

/-- RING_PDELAY_REQ (R372): A neighbour's PDELAY_REQ is answered. -/
def execRingPdelayReq (r : Fin 2) (f : BitVec 256) (rx : Int) (s : State) : Host.Outcome State Fault Refusal :=
  .next (whenUp .ring (rxFlit r.val (timeTypes 3 f) f rx) s)

/-- RING_PDELAY_RESP (R372): A PDELAY_RESP updates the segment's link delay. -/
def execRingPdelayResp (r : Fin 2) (f : BitVec 256) (rx : Int) (s : State) : Host.Outcome State Fault Refusal :=
  .next (whenUp .ring (rxFlit r.val (timeTypes 4 f) f rx) s)

/-- RING_SYNC_INTERVAL (R372): The ring master sends SYNC on both ports. -/
def execRingSyncInterval (s : State) : Host.Outcome State Fault Refusal :=
  .next (whenUp .ring ringSyncInterval s)

/-- RING_PDELAY_INTERVAL (R372): Every 1 ms each up ring port sends a PDELAY_REQ. -/
def execRingPdelayInterval (s : State) : Host.Outcome State Fault Refusal :=
  .next (whenUp .ring ringPdelayInterval s)

end Sys2Proof.Machine
end

