-- ==== Sys2Proof/Machine/Shots.lean ====
section
/-! DEFINITION. A shot's opening, closing and boundary (R20, R23 to R26), SYNC_IN's line, and the activations of task
inputs at their consumers (R216, R217). -/

namespace Sys2Proof.Machine

/-! ## Openings -/

/-- SYNC_LINE: TC[15:0] reaches 0; line 126 is active, and masters with SRC 2 take it as a start (R104, R215). -/
def syncLine (s : State) : State :=
  let s1 := passTo (syncFrom s.clk.tc) s
  let s2 := fireLine 126 s1.clk.tc false s1
  (List.range 8).foldl (fun t m => startAt m 2 t.clk.tc t) s2

/-- The working sequencers of a group (R23). -/
def members (s : State) (g : Nat) : List Nat := (List.range 120).filter (fun q => decide (seqGroup s q = some g))

/-- The drive, read-out and flux blocks of a member at tick 0 of a shot (R119, R156, R170). -/
def openBlocks (t : BitVec 48) (s : State) (q : Nat) : State :=
  if q < 80 then
    let s1 := (List.range (toneCount q)).foldl (toneOpen t q) s
    if q < 64 then s1 else (List.range' (32 * (q - 64)) 32).foldl (dmOpen t) s1
  else if q < 112 then (List.range' (8 * (q - 80)) 8).foldl (fun u o => fluxTakeOver o u) s
  else s

/-- A member that a late opening leaves idle for the shot: LATE at its page, outputs muted, flux at park (R20). The
masters' own island receives no crossing. -/
def lateMember (s : State) (q : Nat) : State :=
  silenceSeq q s.clk.tc (raiseEvt .seq q 0 (setSeq s q { getSeq s q with inShot := false }))

/-- The outputs of a group's members are brought to the current tick: what they have raised belongs to the shot before (R129,
R150). -/
def memberCatch (g : Nat) (s : State) : State :=
  (members s g).foldl (fun t q =>
    if q < 80 then outCatch q t else if q < 112 then fluxGroupCatch (q - 80) t else t) s

/-- SHOT_OPEN: tick 0 of a shot (R20, R23, R26, R91, R105). -/
def shotOpen (g : Nat) (s : State) : State :=
  let x := getGroup s g
  match x.opening with
  | none => s
  | some t =>
    if x.running || x.boundary then s
    else
      let late := decide (ticksTo s.clk.tc t < 0)
      let s0 := memberCatch g (passTo t s)
      if refusesStart s0 g then startOverrun g (setGroup s0 g { x with opening := none })
      else
        let tag := (if x.stretched then tagThrottled else 0) ||| (if late then tagLate ||| tagCorrupt else 0)
        let s1 := setGroup s0 g { x with
          opening := none
          running := true
          t0 := t
          tag := tag
          opened := true
          stretched := false
          calReq := false
          selfAt := none
          wrote := none
          lateOpen := late }
        let mine (k : Nat) : Bool := match pageOf (k / 32) with
          | some (pt, n) => (usesGroups s1 pt n).contains g
          | none => false
        let s2 := wrPair { s1 with seen := s1.seen.filter (fun k => !mine k) } .seq (112 + g) 0x0B0
          ((rdPair s1 .seq (112 + g) 0x0B0 + 1) % 2 ^ 64)
        let all := members s2 g
        let s2 := all.foldl clearLatches s2
        let idle := all.filter (fun q => late && decide (q < 112))
        let run := all.filter (fun q => !(late && decide (q < 112)) && mayRun s2 q)
        let rest := all.filter (fun q => !run.contains q)
        let s3 := rest.foldl (fun u q => setSeq u q { getSeq u q with inShot := false }) s2
        let s4 := idle.foldl lateMember s3
        let s5 := run.foldl (openBlocks t) s4
        mortarOpen g (ladleOpen g (run.foldl (openSeq t) s5))

/-! ## Closings -/

/-- A result of the shot has still to come: a window arm or a result on its way, a window armed or open (R183, R484). -/
def resultsAhead (s : State) (g : Nat) : Bool :=
  s.items.any (fun i => decide (i.group = some g) && match i.load with
    | .arm _ _ _ => true
    | .result _ => true
    | _ => false) ||
  s.demods.any (fun e => e.2.wins.any (fun w => decide (w.group = some g)) ||
    e.2.refused.any (fun r => decide (r.group = some g)))

/-- Time passes to the tick in which the shot's last result has been written (R23, R191). -/
def lastWritten (g : Nat) (s : State) : State :=
  match (getGroup s g).wrote with
  | some t => ladleCatch (passTo t s)
  | none => s

/-- A member is brought to the end of its part, where that is fixed: to the start of a fixed successor, which may be an unused
entry or a bad one, and to a boundary fixed as its end (R110, R111, R113). -/
def toEnd (q : Nat) (s : State) : State :=
  let t := toNextPlay q s
  match (getSeq t q).endAt with
  | some b => seqTick q (passTo b t)
  | none => t

/-- Members whose parts end at ticks known already end there, and stack faults of resolved paths take their effect. -/
def finishParts (g : Nat) (s : State) : State :=
  if (members s g).all (fun q => seqDone (toEnd q s) q) then (members s g).foldl (fun t q => toEnd q t) s else s

/-- SHOT_CLOSE: the last member has reached its end word and the last result stands in the Ladle; the tag is final
(R11, R23, R225). -/
def shotClose (g : Nat) (s00 : State) : State :=
  let s := finishParts g s00
  if !shotRuns s g || !(members s g).all (seqDone s) || resultsAhead s g then s
  else
    let s1 := mortarClose g (lastWritten g s)
    let x := getGroup s1 g
    let now := s1.clk.tc
    let s2 := setGroup s1 g { x with
      running := false
      boundary := true
      closedAt := now
      len := (ticksTo x.t0 now).toNat
      past := (x.t0, now, x.tag) :: x.past }
    let s3 := (members s2 g).foldl (fun t q => setSeq t q { getSeq t q with inShot := false }) s2
    let acc := rd s3 .seq (112 + g) 0x0B8 15 8
    let a := addrOf .seq (112 + g) 0x0B8
    noteRaised a (BitVec.ofNat 32 (256 * x.tag.toNat))
      (wr (wr s3 .seq (112 + g) 0x0B8 7 0 x.tag.toNat) .seq (112 + g) 0x0B8 15 8 (acc ||| x.tag.toNat))

/-! ## Boundaries -/

/-- The substitutions made at a boundary of group g: sequencers, tones and slices of the group's blocks, tiles of
MORT_CFG.GROUP, and rows whose block stands between shots (R247, R451, R452). -/
def subHere (s : State) (g : Nat) (u : Sub) : Bool :=
  match u.kind with
  | 0 | 1 | 2 | 4 =>
    match unitPage u.kind u.inst with
    | some (pt, n) => (usesGroups s pt n).contains g
    | none => false
  | 5 => !rowHeld s u.inst
  | _ => false

/-- The spare that a substitution takes: the lowest free one, for a PRB output 32 before 33 (R103, R139). -/
def spareFor (s : State) (u : Sub) : Option Nat :=
  match u.kind with
  | 0 => (List.range 4).find? (spareSeqFree s)
  | 1 => (if u.inst < 64 then [8] else [32, 33]).find? (spareToneFree s u.inst)
  | 2 => if spareFree s 2 u.inst then some 0 else none
  | 4 => if spareFree s 4 u.inst then some 16 else none
  | 5 => if spareFree s 5 u.inst then some (rowsUsed s u.inst) else none
  | _ => none

/-- The customer region of a sequencer is copied into a spare's own store, with the CRC it was committed with (R103). -/
def copyRegion (q sp : Nat) (s : State) : State :=
  let a := controlBase q
  let b := controlBase (120 + sp)
  { s with
    stores := mapSplice (mapShift (mapTake s.stores a (a + 0x3C000)) a b) s.stores b (b + 0x3C000)
    committed := mapSet (fun _ => none) s.committed b (mapGet (fun _ => none) s.committed a) }

/-- A sequencer's spare takes over: its store has been checked, its vendor section loaded; the page it serves shows that
section's version too (R103, log 71). STORE_BAD stays: only a commit ends it (R98, R111). -/
def spareSeqIn (q sp : Nat) (s : State) : State :=
  let s1 := copyRegion q sp s
  let s2 := if (getSeq s1 q).st == .mchk then setSeq s1 q { getSeq s1 q with st := .idle } else s1
  if s2.vimg.image = .empty then s2 else vendorSet ([120 + sp, q].foldl (vendorCopy s2.vimg.image) s2)

/-- A substitution pending for this boundary is made, waits, or finds no spare (R103, R451 to R453). -/
def makeSub (s : State) (u : Sub) : State :=
  match spareFor s u with
  | none =>
    let k := wearKey u.kind u.inst u.unit
    raiseFault .spare 0 0 (setSpareState u.kind u.inst 3
      (setWear { s with subs := s.subs.filter (· ≠ u) } k { getWear s k with st := 6 }))
  | some sp =>
    match u.kind with
    | 0 => if storeCheckOk s u.inst then finishSub 0 1 u.inst 0 sp (spareSeqIn u.inst sp (serveUnit 0 u.inst 0 sp s)) else s
    | 2 => finishSub 2 2 u.inst u.unit sp (serveUnit 2 u.inst u.unit sp s)
    | k => finishSub k 1 u.inst u.unit sp (serveUnit k u.inst u.unit sp s)

/-- A page's units return to their original ones (R166, R454): the indicator is below WARN and the idle test passes. The
committed-CRC check is a sequencer's; no command reports the others, so their outcome is free. -/
def healthOk (kind ins : Nat) (s : State) : Bool × State :=
  let low := decide (0 < rd s .spare 0 (0x040 + 4 * kind) 23 16)
  if kind = 0 then (low && storeCheckOk s ins, s)
  else
    let (v, s1) := freeDraw s
    (low && decide (v % 2 = 0), s1)

/-- Give n spares of a kind back, and clear the page's substitution state. -/
def spareBack (kind n : Nat) (pt : PT) (i : Nat) (s : State) : State :=
  let s1 := wr s .spare 0 (0x080 + 4 * kind) 15 0 (rd s .spare 0 (0x080 + 4 * kind) 15 0 + n)
  wr (wr s1 pt i 0x020 3 0 0) pt i 0x020 27 16 0

/-- FORCE_PRIMARY at its boundary (R454). -/
def returnPage (s : State) (pg : Nat) : State :=
  let s0 := { s with returns := s.returns.filter (· ≠ pg) }
  match pageOf pg with
  | some (.seq, q) =>
    match (List.range 4).find? (fun k => decide (rd s0 .seq (120 + k) 0x040 15 9 = q)) with
    | none => s0
    | some k =>
      let (ok, s1) := healthOk 0 q s0
      if ok then spareBack 0 1 .seq q (unitBack 0 q 0 (setReg s1 (addrOf .seq (120 + k) 0x040) (regReset (addrOf .seq (120 + k) 0x040))))
      else s1
  | some (.drv, n) =>
    if !rdBit s0 .drv n 0x054 30 then s0
    else
      let (ok, s1) := healthOk 1 n s0
      if ok then spareBack 1 1 .drv n (unitBack 1 n (rd s1 .drv n 0x054 4 0) (wrAll s1 .drv n 0x054 0x1F1F)) else s1
  | some (.prb, n) =>
    let used := b2n (rdBit s0 .prb n 0x054 30) + b2n (rdBit s0 .prb n 0x054 31)
    if used = 0 then s0
    else
      let (ok, s1) := healthOk 1 (64 + n) s0
      let back (b f : Nat) (t : State) : State :=
        if rdBit s1 .prb n 0x054 b then unitBack 1 (64 + n) (rd s1 .prb n 0x054 (f + 4) f) t else t
      if ok then spareBack 1 used .prb n (back 31 8 (back 30 0 (wrAll s1 .prb n 0x054 0x1F1F))) else s1
  | some (.rdi, n) =>
    if (getRdi s0 n).retired.isNone then s0
    else
      let (ok, s1) := healthOk 2 n s0
      let x := getRdi s1 n
      if ok then spareBack 2 1 .rdi n (unitBack 2 n (x.retired.getD x.spare) (setRdi s1 n { x with retired := none, fails := 0, spare := x.retired.getD x.spare })) else s1
  | some (.tile, t) =>
    if t < 16 ∧ rdBit s0 .tile 16 0x040 27 ∧ rd s0 .tile 16 0x040 31 28 = t then
      let (ok, s1) := healthOk 4 t s0
      if ok then spareBack 4 1 .tile t (unitBack 4 t 0 (wr (wr (wr s1 .tile 16 0x040 31 28 0) .tile 16 0x040 27 27 0) .tile t 0x040 27 27 1))
      else s1
    else s0
  | _ => s0

/-- The order of substitutions: kind, instance, then the tone of a DRV output with the highest error count, other units by
number (R139, R453). -/
def subBefore (s : State) (a b : Sub) : Bool :=
  let count (u : Sub) : Nat := if u.kind = 1 ∧ u.inst < 64 then wearCount (getWear s (wearKey 1 u.inst u.unit)) else 0
  let ka := wearKey a.kind a.inst 0
  let kb := wearKey b.kind b.inst 0
  decide (ka < kb) || (decide (ka = kb) && (decide (count b < count a) || (decide (count a = count b) && decide (a.unit ≤ b.unit))))

/-- The substitutions of a boundary, in ascending kind and instance, and the returns (R26 step 3, R453, R454). -/
def boundarySubs (g : Nat) (s : State) : State :=
  let us := (s.subs.filter (subHere s g)).mergeSort (subBefore s)
  let s1 := us.foldl makeSub s
  let back (pg : Nat) : Bool := match pageOf pg with
    | some (pt, n) => (usesGroups s1 pt n).contains g
    | none => false
  (s1.returns.filter back).foldl returnPage s1

/-- The store images of a boundary (R26 step 2): accepted images, vendor regions, Mortar's banks. -/
def boundaryCopies (g : Nat) (s : State) : State :=
  let s1 := copyReady s
  let vs := s1.vimg.waiting.filter (fun q => !seqActive s1 q)
  let s2 := if vs.isEmpty then s1 else vendorSet (vs.foldl (vendorCopy s1.vimg.image) s1)
  if decide (rd s2 .mortar 0 0x040 2 0 = g) && !s2.mort.run then exchangeWaiting s2 else s2

/-- What waits for shots to end takes effect (R22, R26 step 4, R152, R190, R481). -/
def boundaryWrites (g : Nat) (s : State) : State :=
  let s1 := freed s
  let os := (List.range 256).filter (fun o => decide (seqGroup s1 (fluxSeq o) = some g))
  os.foldl (fun t o => pdClrApply o t) s1

/-- SHOT_BOUNDARY: the boundary actions in their order; the boundary lasts 48 ticks and what copies and a throttle
stretch add, and a calibration window lengthens it further (R26, R71, R400, R430, R452). -/
def shotBoundary (g : Nat) (s : State) : State :=
  if !(getGroup s g).boundary || s.calWin.any (fun w => decide (w.1 = g)) then s
  else
    let copies := (s.accepted.filter (fun e => !storeBusy s e.store)).length +
      (s.vimg.waiting.filter (fun q => !seqActive s q)).length +
      (s.subs.filter (fun u => decide (u.kind = 0) && subHere s g u)).length
    let rows := (s.subs.filter (fun u => decide (u.kind = 5) && subHere s g u)).length
    let s2 := boundarySubs g (boundaryCopies g s)
    let s3 := boundaryWrites g s2
    let s4 := settleWithdrawn (shedAtBoundary g (setGroup s3 g { getGroup s3 g with throttle := throttle s3 }))
    let (v, s5) := freeDraw s4
    let natural := 48 + v % (30000 * copies + 100 * rows + 1)
    let x := getGroup s5 g
    let need := (x.len * x.throttle + 3) / 4
    let s6 := setGroup s5 g { x with stretched := decide (natural < need) }
    let s7 := passTo (x.closedAt + BitVec.ofNat 48 (max natural need)) s6
    if windowOpens s7 g then openWindow g (setGroup s7 g { getGroup s7 g with calReq := false }) else endBoundary g s7

/-! ## Activations (R216, R217) -/

/-- A TRIGGER flit sent by task input 164 + k, due at tick a (R338). -/
def ringTask (k : Nat) (a : BitVec 48) (s : State) : State :=
  let cfg (r : Nat) : Word := reg s .ring r (0x080 + 4 * k)
  let ports := [0, 1].filter (fun r => wbit (cfg r) 31)
  if ports.isEmpty then s
  else
    let n := (s.tseq + 1) % 2 ^ 16
    ports.foldl (fun t r =>
      doKept 0 (.trig r (fget (cfg r) 29 24) (a + BitVec.ofNat 48 (max 24 (fget (cfg r) 15 0))) n) t) { s with tseq := n }

/-- An activation acts at its consumer (R77, R104, R115, R217, R224, R256, R338, R362, R375, R416). -/
def activate (i : Nat) (a : BitVec 48) (s : State) : State :=
  if i < 120 then (if goStarts s i then startAt (i - 112) 4 a s else goActivate i s)
  else if i < 152 then
    let u := (i - 120) / 4
    setCap u { getCap s u with acts := (getCap s u).acts ++ [((i - 120) % 4, a)] } s
  else if i < 160 then tsuStamp (i - 152) s
  else if i < 164 then urgActivate (i - 160) a s
  else if i < 172 then ringTask (i - 164) a s
  else if i < 180 then
    if rdBit s .tbus 0 (0x050 + 4 * (i - 172)) 31 then askTbus (rd s .tbus 0 (0x050 + 4 * (i - 172)) 2 0) a s else s
  else if i < 188 then raiseEvt .evt 0 (8 + (i - 180)) s
  else s

/-- The page that raises LATE for a late activation: its consumer's, or the router's where the consumer's has no LATE
(R20). -/
def inputPage (i : Nat) : PT × Nat :=
  if i < 120 then (.seq, i) else if i < 152 then (.cap, (i - 120) / 4) else if 172 ≤ i ∧ i < 180 then (.tbus, 0)
  else (.evt, 0)

/-- An input receives one activation in a tick: a further one makes a coincidence (R219). -/
def activateOnce (i : Nat) (s : State) : State :=
  if s.tick.acts.contains i then coincide i s
  else activate i s.clk.tc { s with tick := { s.tick with acts := i :: s.tick.acts } }

/-- TASK_ACTIVATION: a hop delivers an activation to a task input, the one due first. A late one acts in the tick of its
acceptance (R20); when it meets another of that tick the two make one (R219). -/
def taskActivation (i : Nat) (s : State) : State :=
  let note (it : Item) (t : State) : State := tagItem it tagLate (raiseEvt (inputPage i).1 (inputPage i).2 0 t)
  let late (_ : Item) (t : State) : State := if actWaits i t.clk.tc t then coincide i t else activateOnce i t
  deliver (fun l => decide (l = .act i)) (fun _ t => activateOnce i t) note late (nextAct i s)

end Sys2Proof.Machine
end

