-- ==== Sys2Proof/Machine/MeanShots.lean ====
section
/-! DEFINITION. The meanings of shot commands (01_architecture.md, 03_sequencers.md). -/

namespace Sys2Proof.Machine

/-- SHOT_GO (R104): A software start to a master whose SRC is 6. -/
def execShotGo (m : Fin 8) (s : State) : Host.Outcome State Fault Refusal :=
  .next (whenReg .seq (shotGo m.val) s)

/-- SELF_START (R104): A self-starting master's repetition interval elapses, and it opens the next shot. -/
def execSelfStart (m : Fin 8) (s : State) : Host.Outcome State Fault Refusal :=
  .next (whenUp .seq (selfStart m.val) s)

/-- SYNC_LINE (R215): TC[15:0] reaches 0 every 65,536 ticks; event line 126 is active, and SYNC-sourced starts are
taken. -/
def execSyncLine (s : State) : Host.Outcome State Fault Refusal :=
  .next (whenUp .seq syncLine s)

/-- SHOT_OPEN (R23): Tick 0 of a shot: members begin at their entry words, stacks clear and Ladle clears apply. -/
def execShotOpen (g : Fin 8) (s : State) : Host.Outcome State Fault Refusal :=
  .next (whenUp .seq (shotOpen g.val) s)

/-- SHOT_CLOSE (R23): The last member has reached its end word and the last result is written; the tag becomes
final. -/
def execShotClose (g : Fin 8) (s : State) : Host.Outcome State Fault Refusal :=
  .next (whenUp .seq (shotClose g.val) s)

/-- SHOT_BOUNDARY (R26): Performs the boundary actions in order, after which the next start may be accepted. -/
def execShotBoundary (g : Fin 8) (s : State) : Host.Outcome State Fault Refusal :=
  .next (whenUp .seq (shotBoundary g.val) s)

/-- TASK_ACTIVATION (R217): An event-router hop delivers an activation to a task input. -/
def execTaskActivation (i : Fin 192) (s : State) : Host.Outcome State Fault Refusal :=
  .next (whenUp .evt (taskActivation i.val) s)

end Sys2Proof.Machine
end

