-- ==== Sys2Proof/Machine/MeanStores.lean ====
section
/-! DEFINITION. The meanings of store commands (03_sequencers.md, 05_drive_synthesis.md, 07_readout.md, 10_decoder.md). -/

namespace Sys2Proof.Machine

/-- APERTURE_WRITE (R69): A store aperture write is staged in the path's buffer, binding it to the store or refused
with BOUND. -/
def execApertureWrite (p : Path) (addr : Word) (v : Word) (s : State) : Host.Outcome State Fault Refusal :=
  .next (whenPath p (apertureWord_ p addr.toNat v) s)

/-- LOAD_COMMIT (R70): Checks the staged control-store image for CRC, parity and illegal words, and accepts or
rejects it whole. -/
def execLoadCommit (p : Path) (q : Fin 124) (s : State) : Host.Outcome State Fault Refusal :=
  .next (whenPath p (whenReg .seq (commitReg (pathNo p) (controlBase q.val))) s)

/-- LOAD_DISCARD (R479): Unbinds the writing path's staging buffer from the named control store. -/
def execLoadDiscard (p : Path) (q : Fin 124) (s : State) : Host.Outcome State Fault Refusal :=
  .next (whenPath p (whenReg .seq (fun t => (discardStore (pathNo p) (controlBase q.val) t).2)) s)

/-- ENV_COMMIT (R124): Commits a staged envelope unit after a CRC-only check. -/
def execEnvCommit (p : Path) (u : EnvUnit) (s : State) : Host.Outcome State Fault Refusal :=
  .next (whenPath p (whenReg .drv (commitReg (pathNo p) (envBase u))) s)

/-- ENV_DISCARD (R124): Unbinds the writing path's buffer from an envelope unit. -/
def execEnvDiscard (p : Path) (u : EnvUnit) (s : State) : Host.Outcome State Fault Refusal :=
  .next (whenPath p (whenReg .drv (fun t => (discardStore (pathNo p) (envBase u) t).2)) s)

/-- WT_COMMIT (R176): Commits a staged weight unit after a CRC-only check. -/
def execWtCommit (p : Path) (n : Fin 16) (u : Fin 2) (s : State) : Host.Outcome State Fault Refusal :=
  .next (whenPath p (whenReg .rdi (commitReg (pathNo p) (weightBase n.val u.val))) s)

/-- WT_DISCARD (R176): Unbinds the writing path's buffer from a weight unit. -/
def execWtDiscard (p : Path) (n : Fin 16) (u : Fin 2) (s : State) : Host.Outcome State Fault Refusal :=
  .next (whenPath p (whenReg .rdi (fun t => (discardStore (pathNo p) (weightBase n.val u.val) t).2)) s)

/-- GRAPH_COMMIT (R242): Checks the staged Mortar graph under R240 and accepts or rejects it whole. -/
def execGraphCommit (p : Path) (s : State) : Host.Outcome State Fault Refusal :=
  .next (whenPath p (whenReg .mortar (fun t => (commitGraph (pathNo p) (reg t .mortar 0 0x064) t).2)) s)

/-- GRAPH_DISCARD (R242): Unbinds the Mortar staging bank. -/
def execGraphDiscard (p : Path) (s : State) : Host.Outcome State Fault Refusal :=
  .next (whenPath p (whenReg .mortar (fun t => (discardGraph (pathNo p) t).2)) s)

/-- VIMG_DATA_ACCESS (R101): Reads or writes a word of the vendor staging buffer and advances VIMG_ADDR; a write
returns the status to IDLE. -/
def execVimgDataAccess (v : Option Word) (s : State) : Host.Outcome State Fault Refusal :=
  .next (whenReg .nvm (vimgAccess v) s)

/-- VERIFY (R101): Starts the check of format, CRC, key hash and signature of the vendor staging buffer. -/
def execVerify (s : State) : Host.Outcome State Fault Refusal :=
  .next (whenReg .nvm vimgVerify s)

/-- VERIFY_COMPLETE (R101): Vendor image verification ends with OK or a BAD status. -/
def execVerifyComplete (_keyReport : Bool) (_sigReport : Bool) (s : State) : Host.Outcome State Fault Refusal :=
  .next (whenUp .nvm vimgVerified s)

/-- INSTALL (R101): Starts writing a verified vendor image over the older NVM slot, refused with WP while WP_N is
low. -/
def execInstall (s : State) : Host.Outcome State Fault Refusal :=
  .next (whenReg .nvm vimgInstall s)

/-- INSTALL_COMPLETE (R101): The NVM write of an install ends, and the image is loaded. -/
def execInstallComplete (ok : Bool) (s : State) : Host.Outcome State Fault Refusal :=
  .next (whenUp .nvm (vimgInstalled ok) s)

/-- LOAD (R101): Loads a verified vendor image into the vendor regions without writing NVM. -/
def execLoad (s : State) : Host.Outcome State Fault Refusal :=
  .next (whenReg .nvm vimgLoad s)

/-- VIMG_DISCARD (R101): Clears the vendor staging buffer to zero and sets the status to IDLE. -/
def execVimgDiscard (s : State) : Host.Outcome State Fault Refusal :=
  .next (whenReg .nvm vimgDiscard s)

/-- SEQ_MODE_WRITE (R111): A change of SEQ_CFG.MODE marks the customer region unchecked, and the state becomes
STORE_BAD. -/
def execSeqModeWrite (q : Fin 124) (mode : Bool) (s : State) : Host.Outcome State Fault Refusal :=
  .next (whenReg .seq (seqModeWrite q.val mode) s)

end Sys2Proof.Machine
end

