-- ==== Sys2Proof/Machine/MeanSupply.lean ====
section
/-! DEFINITION. The meanings of supply, pin and start-up commands (02_control_interface.md). -/

namespace Sys2Proof.Machine

/-- POWER_ON (R59): VIN enters its range with RST_N high, and the start-up phases begin. -/
def execPowerOn (straps : BitVec 4) (s : State) : Host.Outcome State Fault Refusal :=
  .next (powerOn straps s)

/-- POWER_LOSS (R64): VIN is lost; the bypass closes and the flux outputs decay to 0 V. -/
def execPowerLoss (s : State) : Host.Outcome State Fault Refusal :=
  .next (powerLoss s)

/-- RST_N_ASSERT (R48): RST_N has been low for 1 µs; the module reset begins with the entry actions of R58. -/
def execRstNAssert (s : State) : Host.Outcome State Fault Refusal :=
  .next (rstNAssert s)

/-- RST_N_RELEASE (R59): RST_N rises; STRAP is sampled and start-up runs from phase 1. -/
def execRstNRelease (straps : BitVec 4) (s : State) : Host.Outcome State Fault Refusal :=
  .next (rstNRelease straps s)

/-- REF_IN_VALID (R60): REF_IN becomes valid, and phase 3 leaves its wait. -/
def execRefInValid (s : State) : Host.Outcome State Fault Refusal :=
  .next (refInValid s)

/-- SHED_N_ASSERT (R48): SHED_N has been low for 1 µs and demands shed stage 4. -/
def execShedNAssert (s : State) : Host.Outcome State Fault Refusal :=
  .next (shedLevel false s)

/-- SHED_N_RELEASE (R48): The release of SHED_N lowers the shed demand. -/
def execShedNRelease (s : State) : Host.Outcome State Fault Refusal :=
  .next (shedLevel true s)

/-- STARTUP_PHASE_DONE (R59): A start-up phase finishes; its pages come up under R63, the next phase begins, or
start-up reaches READY or stops with FAIL. -/
def execStartupPhaseDone (ok : Bool) (bad : Failures) (s : State) : Host.Outcome State Fault Refusal :=
  .next (whenAlive (startupPhaseDone ok bad.channels (bad.rows.map (·.toNat))) s)

end Sys2Proof.Machine
end

