-- ==== Sys2Proof/Machine/Tbus.lean ====
section
/-! DEFINITION. The trigger bus (R373 to R379): cycles, driving, HOLD, STARTs. -/

namespace Sys2Proof.Machine

/-- ACT_LAT, at least 10. -/
def actLat (s : State) : Nat := max 10 (rd s .tbus 0 0x040 7 0)

/-- START_LEAD, at least 24. -/
def startLead (s : State) : Nat := max 24 (rd s .tbus 0 0x044 15 0)

/-- The first tick of a cycle that begins at u or the next after it (R373). Cycle 0 follows the short last one. -/
def cycleFrom (u : Nat) : BitVec 48 := BitVec.ofNat 48 (if (u + 5) / 6 * 6 < 2 ^ 48 then (u + 5) / 6 * 6 else 0)

/-- The next cycle to act on: the first whose act(c) has not gone by and that has not been acted on. -/
def cycleStart (s : State) : BitVec 48 :=
  let x := cycleFrom (s.clk.tc - BitVec.ofNat 48 (actLat s)).toNat
  if s.tbusAt = some x then cycleFrom (x.toNat + 1) else x

/-- A master with SRC 1 holds the bus at tick x (R377): a shot runs or ran, its boundary lasts or lasted, a start had been
accepted, or it would refuse one. -/
def masterHolds (s : State) (x : BitVec 48) (m : Nat) : Bool :=
  let g := getGroup s m
  let since (t : BitVec 48) : Bool := decide (0 ≤ ticksTo (t - BitVec.ofNat 48 (startLead s)) x)
  decide (startSrc s m = 1) && (refusesStart s m || g.running || g.boundary || decide (0 < ticksTo x g.bEnd) ||
    g.opening.any since || g.pend.any (fun p => since p.2))

/-- The module drives HOLD in the cycle that starts at tick x (R272, R377). -/
def drivesHold (s : State) (x : BitVec 48) : Bool :=
  rdBit s .tbus 0 0x040 29 ||
  (rdBit s .tbus 0 0x040 30 && (List.range 8).any (masterHolds s x)) ||
  (List.range 8).any (fun u => rdBit s .cap u 0x040 20 && decide (capStatus s u ≠ 2))

/-- A request is driven in the cycle that starts at x (R375, R376). -/
def reqDue (s : State) (x : BitVec 48) (r : TbReq) : Bool :=
  decide (0 ≤ ticksTo r.notBefore x) && match r.start with
    | none => true
    | some o => decide (0 ≤ ticksTo o (x + BitVec.ofNat 48 (actLat s + startLead s)))

/-- A driven START that was void is driven again, until HOLD_LIMIT void cycles (R377). -/
def retryStarts (s : State) (rs : List TbReq) : State :=
  let limit := rd s .tbus 0 0x040 15 8
  let tried := (rs.filter (fun r => r.start.isSome)).map (fun r => { r with voids := r.voids + 1 })
  let over_ (r : TbReq) : Bool := decide (limit ≠ 0 ∧ limit ≤ r.voids)
  raiseEvtIf (tried.any over_) .tbus 0 2 { s with tbusQ := tried.filter (fun r => !over_ r) ++ s.tbusQ }

/-- TBUS_CYCLE: the next cycle, with the lines and HOLD as others drive them. The module drives what is due, samples the
wired OR, and acts at act(c) (R373 to R379). -/
def tbusCycle (lines : BitVec 8) (hold : Bool) (s0 : State) : State :=
  if !tbusOn s0 then { s0 with tbusQ := [] }
  else
    let x := cycleStart s0
    let s := passTo x { s0 with tbusAt := some x }
    let due := s.tbusQ.filter (reqDue s x)
    let testLine := rd s .tbus 0 0x070 2 0
    let beat := decide (x.toNat / 6 % 4 = 0)
    let own (l : Nat) : Bool := due.any (fun r => decide (r.line = l)) || (rdBit s .tbus 0 0x070 31 && beat && decide (l = testLine))
    let ownHold := drivesHold s x
    let on (l : Nat) : Bool := nbit lines.toNat l || own l
    let held := hold || ownHold
    let mask (f : Nat → Bool) : Nat := ((List.range 8).filter f).foldl (fun n l => n + 2 ^ l) 0
    let s1 := emit (.tbus (mask own + 256 * b2n ownHold) x) { s with tbusQ := s.tbusQ.filter (fun r => !reqDue s x r) }
    let s2 := wr (wr s1 .tbus 0 0x078 23 16 (mask on)) .tbus 0 0x078 31 31 (b2n held)
    let a := x + BitVec.ofNat 48 (actLat s)
    let s3 := passTo a s2
    let bad := rdBit s3 .tbus 0 0x070 30 && decide (on testLine ≠ beat)
    let s4 := raiseEvtIf bad .tbus 0 3 (bump s3 .tbus 0 0x074 31 0 (b2n bad))
    let sl := rd s4 .tbus 0 0x040 26 24
    let void := on sl && held
    let s5 := ((List.range 8).filter (fun l => on l && !(void && decide (l = sl)))).foldl
      (fun t l => fireLine (104 + l) a false t) s4
    if void then raiseEvt .tbus 0 1 (bump (retryStarts s5 due) .tbus 0 0x07C 31 16 1)
    else if on sl then
      (List.range 8).foldl (fun t m => startAt m 1 (a + BitVec.ofNat 48 (startLead t)) t) (bump s5 .tbus 0 0x07C 15 0 1)
    else s5

/-- HOLD_STUCK: HOLD sampled asserted in every cycle for 1 ms, the last one too (R377). -/
def holdStuck (s : State) : State := if tbusOn s && rdBit s .tbus 0 0x078 31 then raiseFault .tbus 0 0 s else s

end Sys2Proof.Machine
end

