-- ==== Sys2Proof/Machine/MeanTime.lean ====
section
/-! DEFINITION. The meanings of the time commands (15_time_and_sync.md). -/

namespace Sys2Proof.Machine

/-- PTP_SYNC (R367): A slave receives a Sync message from its master. -/
def execPtpSync (h : Fin 2) (m : PtpMsg) (twoStep : Bool) (s : State) : Host.Outcome State Fault Refusal :=
  .next (whenUp .host (ptpSync h.val m twoStep) s)

/-- FOLLOW_UP (R367): A slave receives a Follow_Up with preciseOriginTimestamp. -/
def execFollowUp (h : Fin 2) (m : PtpMsg) (s : State) : Host.Outcome State Fault Refusal :=
  .next (whenUp .host (followUp h.val m) s)

/-- DELAY_REQ (R368): A master receives a Delay_Req and answers with a Delay_Resp. -/
def execDelayReq (h : Fin 2) (m : PtpMsg) (s : State) : Host.Outcome State Fault Refusal :=
  .next (whenUp .host (delayReq h.val m) s)

/-- DELAY_RESP (R367): A slave receives a Delay_Resp and computes θ for the servo. -/
def execDelayResp (h : Fin 2) (m : PtpMsg) (s : State) : Host.Outcome State Fault Refusal :=
  .next (whenUp .host (delayResp h.val m) s)

/-- PDELAY_REQ (R365): A Pdelay_Req is answered when P2P_RESP is set. -/
def execPdelayReq (h : Fin 2) (m : PtpMsg) (s : State) : Host.Outcome State Fault Refusal :=
  .next (whenUp .host (pdelayReq h.val m) s)

/-- PDELAY_RESP (R365): A Pdelay_Resp is received. -/
def execPdelayResp (h : Fin 2) (m : PtpMsg) (s : State) : Host.Outcome State Fault Refusal :=
  .next (whenUp .host (pdelayResp h.val m) s)

/-- PDELAY_RESP_FOLLOW_UP (R365): A Pdelay_Resp_Follow_Up is received. -/
def execPdelayRespFollowUp (h : Fin 2) (m : PtpMsg) (s : State) : Host.Outcome State Fault Refusal :=
  .next (whenUp .host (pdelayRespFollowUp h.val m) s)

/-- ANNOUNCE (R369): A received Announce is queued for software. -/
def execAnnounce (h : Fin 2) (bytes : List Byte) (s : State) : Host.Outcome State Fault Refusal :=
  .next (whenUp .host (ptpQueue h.val bytes) s)

/-- SIGNALING (R369): A received Signaling message is queued for software. -/
def execSignaling (h : Fin 2) (bytes : List Byte) (s : State) : Host.Outcome State Fault Refusal :=
  .next (whenUp .host (ptpQueue h.val bytes) s)

/-- MANAGEMENT (R369): A received Management message is queued for software. -/
def execManagement (h : Fin 2) (bytes : List Byte) (s : State) : Host.Outcome State Fault Refusal :=
  .next (whenUp .host (ptpQueue h.val bytes) s)

/-- SYNC_INTERVAL (R368): A master sends Sync, and Follow_Up when TWO_STEP is set. -/
def execSyncInterval (h : Fin 2) (s : State) : Host.Outcome State Fault Refusal :=
  .next (whenUp .host (syncInterval h.val) s)

/-- DELAY_REQ_INTERVAL (R367): A slave sends a Delay_Req at a randomised instant. -/
def execDelayReqInterval (h : Fin 2) (tx : Int) (s : State) : Host.Outcome State Fault Refusal :=
  .next (whenUp .host (delayReqInterval h.val tx) s)

/-- ANNOUNCE_INTERVAL (R368): A master sends an Announce from its template. -/
def execAnnounceInterval (h : Fin 2) (s : State) : Host.Outcome State Fault Refusal :=
  .next (whenUp .host (announceInterval h.val) s)

/-- SYNC_TIMEOUT (R367): No Sync arrives for 3 intervals, and ADJ holds. -/
def execSyncTimeout (src : Fin 3) (s : State) : Host.Outcome State Fault Refusal :=
  .next (whenUp .time (syncTimeout src.val) s)

/-- RXQ_POP (R369): Removes the head entry of the PTP receive queue. -/
def execRxqPop (h : Fin 2) (s : State) : Host.Outcome State Fault Refusal :=
  .next (whenReg .time (rxqPop h.val) s)

/-- ALIGN (R354): Arms alignment on the first SYNC_IN edge at or after ALIGN_AT. -/
def execAlign (s : State) : Host.Outcome State Fault Refusal :=
  .next (whenReg .time alignArm s)

/-- SYNC_EDGE (R355): A SYNC_IN edge arrives; it is aligned to or checked, and may raise SYNC_SLIP. -/
def execSyncEdge (offset : Int) (_report : Bool) (s : State) : Host.Outcome State Fault Refusal :=
  .next (whenUp .time (syncEdge offset) s)

/-- SYNC_ABSENT (R355): A SYNC period passes with no edge, and SYNC_MISS is raised. -/
def execSyncAbsent (s : State) : Host.Outcome State Fault Refusal :=
  .next (whenUp .time syncAbsent s)

/-- REF_LOSS (R352): REF_IN becomes absent, and the PLL holds over. -/
def execRefLoss (s : State) : Host.Outcome State Fault Refusal :=
  .next (refLoss s)

/-- REF_RETURN (R352): REF_IN returns, and the PLL relocks without a phase step. -/
def execRefReturn (s : State) : Host.Outcome State Fault Refusal :=
  .next (refReturn s)

/-- MT_STEP (R357): Adds MT_STEP to MT in the next tick and raises STEPPED. -/
def execMtStep (s : State) : Host.Outcome State Fault Refusal :=
  .next (whenReg .time mtStep s)

/-- INC_COMMIT (R357): A commit of INC takes effect in the next tick. -/
def execIncCommit (p : Path) (hi : Word) (s : State) : Host.Outcome State Fault Refusal :=
  .next (whenPath p (wordWrite p 0x8064 hi) s)

/-- SERVO_RST (R360): Zeroes the servo's integrator and ADJ. -/
def execServoRst (s : State) : Host.Outcome State Fault Refusal :=
  .next (whenReg .time servoRst s)

/-- SERVO_OFS (R361): A software offset updates the servo when SRC is SOFT. -/
def execServoOfs (v : Word) (s : State) : Host.Outcome State Fault Refusal :=
  .next (whenReg .time (servoOfs v) s)

/-- MT_READ (R359): A read of MT_LO latches MT and TC of the same tick. -/
def execMtRead (p : Path) (s : State) : Host.Outcome State Fault Refusal :=
  .next (whenPath p (whenRead .time (mtRead p)) s)

/-- TSU_READ (R362): A read of TSU_MT_LO latches the unit and clears VALID and OVW. -/
def execTsuRead (p : Path) (k : Fin 8) (s : State) : Host.Outcome State Fault Refusal :=
  .next (whenPath p (whenRead .time (tsuRead p k.val)) s)

/-- CMP_FIRE (R363): MT reaches a compare value, and the compare unit fires and disables itself. -/
def execCmpFire (k : Fin 4) (s : State) : Host.Outcome State Fault Refusal :=
  .next (whenUp .time (cmpFire k.val) s)

/-- TBUS_CYCLE (R373): The module acts on a sampled TBUS cycle at act(c): lines, START and HOLD. -/
def execTbusCycle (lines : BitVec 8) (hold : Bool) (s : State) : Host.Outcome State Fault Refusal :=
  .next (whenUp .tbus (tbusCycle lines hold) s)

/-- HOLD_STUCK (R377): HOLD is sampled asserted in every cycle for 1 ms. -/
def execHoldStuck (s : State) : Host.Outcome State Fault Refusal :=
  .next (whenUp .tbus holdStuck s)

end Sys2Proof.Machine
end

