-- ==== Sys2Proof/Machine/MeanWords.lean ====
section
/-! DEFINITION. The meanings of the microword commands (03_sequencers.md, 04_segment_tables.md). -/

namespace Sys2Proof.Machine

/-- SEQ (R73): NEXT SEQ: the successor is word W + 1. -/
def execWordSeq (q : Fin 124) (s : State) : Host.Outcome State Fault Refusal :=
  .next (whenUp .seq (wordSeq q.val) s)

/-- JUMP (R73): NEXT JUMP: the successor is TARGET. -/
def execWordJump (q : Fin 124) (s : State) : Host.Outcome State Fault Refusal :=
  .next (whenUp .seq (wordJump q.val) s)

/-- BR (R92): NEXT BR: a conditional branch on decision channel DCH, with optional run-ahead on the predicted path. -/
def execWordBr (q : Fin 124) (s : State) : Host.Outcome State Fault Refusal :=
  .next (whenUp .seq (wordBr q.val) s)

/-- CALL (R89): NEXT CALL: pushes W + 1 onto the call stack and goes to TARGET. -/
def execWordCall (q : Fin 124) (s : State) : Host.Outcome State Fault Refusal :=
  .next (whenUp .seq (wordCall q.val) s)

/-- RET (R89): NEXT RET: pops the call stack and goes to that address. -/
def execWordRet (q : Fin 124) (s : State) : Host.Outcome State Fault Refusal :=
  .next (whenUp .seq (wordRet q.val) s)

/-- LOOP (R88): NEXT LOOP: decrements the innermost loop counter and repeats the loop or leaves it. -/
def execWordLoop (q : Fin 124) (s : State) : Host.Outcome State Fault Refusal :=
  .next (whenUp .seq (wordLoop q.val) s)

/-- END (R87): NEXT END: the sequencer's part in the shot ends at the next word tick. -/
def execWordEnd (q : Fin 124) (s : State) : Host.Outcome State Fault Refusal :=
  .next (whenUp .seq (wordEnd q.val) s)

/-- PUSH (R88): LOOP_OP PUSH: pushes a loop frame with the count chosen by LSRC. -/
def execLoopPush (q : Fin 124) (s : State) : Host.Outcome State Fault Refusal :=
  .next (whenUp .seq (loopPush q.val) s)

/-- BREAK (R88): LOOP_OP BREAK: pops the innermost loop frame. -/
def execLoopBreak (q : Fin 124) (s : State) : Host.Outcome State Fault Refusal :=
  .next (whenUp .seq (loopBreak q.val) s)

/-- WAIT_EXPIRY (R76): A TIME, ABS or SYNC wait elapses, and the next word starts. -/
def execWaitExpiry (q : Fin 124) (s : State) : Host.Outcome State Fault Refusal :=
  .next (whenUp .seq (waitExpiry q.val) s)

/-- DECISION_WAIT_END (R76): A DECISION wait ends when its channel resolves at the sequencer group. -/
def execDecisionWaitEnd (q : Fin 124) (s : State) : Host.Outcome State Fault Refusal :=
  .next (whenUp .seq (decisionWaitEnd q.val) s)

/-- EVENT_WAIT_END (R77): An EVENT wait ends by consuming a GO activation. -/
def execEventWaitEnd (q : Fin 124) (s : State) : Host.Outcome State Fault Refusal :=
  .next (whenUp .seq (eventWaitEnd q.val) s)

/-- MARK_WAIT_END (R76): A MARK wait ends on the matching mark from the group's master. -/
def execMarkWaitEnd (q : Fin 124) (s : State) : Host.Outcome State Fault Refusal :=
  .next (whenUp .seq (markWaitEnd q.val) s)

/-- WAIT_TIMEOUT (R78): A data-dependent wait reaches WAIT_LIMIT and ends; the shot is tagged LATE. -/
def execWaitTimeout (q : Fin 124) (s : State) : Host.Outcome State Fault Refusal :=
  .next (whenUp .seq (waitTimeout q.val) s)

/-- DRIVE_PULSE (R80): A port with ENV not 0 starts a pulse on its tone generator. -/
def execDrivePulse (q : Fin 64) (port : Fin 8) (s : State) : Host.Outcome State Fault Refusal :=
  .next (whenUp .seq (drivePulse q.val port.val) s)

/-- ADD_A (R121): PHOP ADD_A: the phase offset increases by PHASE_A. -/
def execAddA (q : Fin 80) (port : Fin 32) (s : State) : Host.Outcome State Fault Refusal :=
  .next (whenUp .seq (phaseOp q.val port.val 1) s)

/-- ADD_B (R121): PHOP ADD_B: the phase offset increases by PHASE_B. -/
def execAddB (q : Fin 80) (port : Fin 32) (s : State) : Host.Outcome State Fault Refusal :=
  .next (whenUp .seq (phaseOp q.val port.val 2) s)

/-- SUB_A (R121): PHOP SUB_A: the phase offset decreases by PHASE_A. -/
def execSubA (q : Fin 80) (port : Fin 32) (s : State) : Host.Outcome State Fault Refusal :=
  .next (whenUp .seq (phaseOp q.val port.val 3) s)

/-- SET_A (R121): PHOP SET_A: the phase offset is set to PHASE_A. -/
def execSetA (q : Fin 80) (port : Fin 32) (s : State) : Host.Outcome State Fault Refusal :=
  .next (whenUp .seq (phaseOp q.val port.val 4) s)

/-- ZERO_ACC (R119): PHOP ZERO_ACC: the phase accumulator is set to 0. -/
def execZeroAcc (q : Fin 80) (port : Fin 32) (s : State) : Host.Outcome State Fault Refusal :=
  .next (whenUp .seq (phaseOp q.val port.val 5) s)

/-- ADD_SW (R121): PHOP ADD_SW: the phase offset increases by the phase sweep value. -/
def execAddSw (q : Fin 80) (port : Fin 32) (s : State) : Host.Outcome State Fault Refusal :=
  .next (whenUp .seq (phaseOp q.val port.val 6) s)

/-- PLAY (R145): FOP PLAY: adds a scaled envelope to the flux base level. -/
def execPlay (g : Fin 32) (port : Fin 8) (s : State) : Host.Outcome State Fault Refusal :=
  .next (whenUp .seq (fluxOp g.val port.val 1) s)

/-- PLAY_HOLD (R145): FOP PLAY_HOLD: plays like PLAY, then the base takes the envelope's last level. -/
def execPlayHold (g : Fin 32) (port : Fin 8) (s : State) : Host.Outcome State Fault Refusal :=
  .next (whenUp .seq (fluxOp g.val port.val 2) s)

/-- STEP (R145): FOP STEP: the base level is set to the AMP entry. -/
def execStep (g : Fin 32) (port : Fin 8) (s : State) : Host.Outcome State Fault Refusal :=
  .next (whenUp .seq (fluxOp g.val port.val 3) s)

/-- PARK (R154): FOP PARK: stops any pulse and ramps the output to its park value. -/
def execPark (g : Fin 32) (port : Fin 8) (s : State) : Host.Outcome State Fault Refusal :=
  .next (whenUp .seq (fluxOp g.val port.val 4) s)

/-- SWR (R122): Reloads the sweep registers with their start values before the word's actions. -/
def execSwr (q : Fin 112) (s : State) : Host.Outcome State Fault Refusal :=
  .next (whenUp .seq (sweepReload q.val) s)

/-- SWP (R122): Steps the sweep registers after the word's actions, with saturation. -/
def execSwp (q : Fin 112) (s : State) : Host.Outcome State Fault Refusal :=
  .next (whenUp .seq (sweepStep q.val) s)

/-- EVT_FIRE (R84): A word fires event lines at tick W + 1. -/
def execEvtFire (q : Fin 120) (s : State) : Host.Outcome State Fault Refusal :=
  .next (whenUp .seq (evtFire q.val) s)

/-- MARK_EN (R83): A master word issues mark MARK_ID to every member of its group. -/
def execMarkEn (m : Fin 8) (s : State) : Host.Outcome State Fault Refusal :=
  .next (whenUp .seq (markEn m.val) s)

/-- CALWIN (R400): A master word requests a calibration window at the shot's boundary. -/
def execCalwin (m : Fin 8) (s : State) : Host.Outcome State Fault Refusal :=
  .next (whenUp .seq (calwin m.val) s)

/-- TBUS_START (R376): A master word drives START on TBUS. -/
def execTbusStart (m : Fin 8) (s : State) : Host.Outcome State Fault Refusal :=
  .next (whenUp .seq (tbusStart m.val) s)

/-- RING_TRIG (R338): A master word sends a TRIGGER flit. -/
def execRingTrig (m : Fin 8) (s : State) : Host.Outcome State Fault Refusal :=
  .next (whenUp .seq (ringTrig m.val) s)

/-- WINDOW_ARM (R82): A read-out word arms the windows of the demodulators selected in WMASK. -/
def execWindowArm (n : Fin 16) (s : State) : Host.Outcome State Fault Refusal :=
  .next (whenUp .seq (windowArm n.val) s)

/-- PROBE_PULSE (R138): A read-out word starts the probe tones selected in PMASK with profile PBANK. -/
def execProbePulse (n : Fin 16) (s : State) : Host.Outcome State Fault Refusal :=
  .next (whenUp .seq (probePulse n.val) s)

/-- BRANCH_RESOLVE (R92): At S − 4 a BR takes its channel's value, or its DEF successor if the channel is not
resolved. -/
def execBranchResolve (q : Fin 124) (s : State) : Host.Outcome State Fault Refusal :=
  .next (whenUp .seq (branchResolve q.val) s)

/-- COMMIT_GATE_RESOLUTION (R95): A branch resolution reaches a converter group and opens or discards provisional
samples. -/
def execCommitGateResolution (q : Fin 124) (s : State) : Host.Outcome State Fault Refusal :=
  .next (whenUp .seq (commitGate q.val) s)

/-- SEGMENT_PLAY (R112): A segment play starts and acts as a microword at its tick. -/
def execSegmentPlay (q : Fin 124) (s : State) : Host.Outcome State Fault Refusal :=
  .next (whenUp .seq (segmentPlay q.val) s)

/-- SEGMENT_DECIDE (R113): At B − 4 the successor of a play is fixed: jump, stop, repeat, end or NEXT. -/
def execSegmentDecide (q : Fin 124) (s : State) : Host.Outcome State Fault Refusal :=
  .next (whenUp .seq (segmentDecide q.val) s)

/-- SEG_JUMP (R115): A software jump request becomes pending and replaces any earlier request. -/
def execSegJump (q : Fin 124) (target : BitVec 12) (s : State) : Host.Outcome State Fault Refusal :=
  .next (whenReg .seq (softRequest q.val (.jump target.toNat)) s)

/-- SEG_STOP (R115): A software stop request becomes pending. -/
def execSegStop (q : Fin 124) (s : State) : Host.Outcome State Fault Refusal :=
  .next (whenReg .seq (softRequest q.val .stop) s)

/-- MARK_DUE (R85): A master's mark reaches its members' sequencer groups. -/
def execMarkDue (g : Fin 8) (s : State) : Host.Outcome State Fault Refusal :=
  .next (whenUp .seq (markDue g.val) s)

end Sys2Proof.Machine
end

