-- ==== Sys2Proof/Machine/Dispatch.lean ====
section
/-! DEFINITION. What each command does: one direct call of its meaning. -/

namespace Sys2Proof.Machine

/-- The effect of a command on everything but the queue. -/
def exec (i : Instr) (s : State) : Host.Outcome State Fault Refusal :=
  match i with
  | .privateWrite good bytes => Sys2Proof.Machine.execPrivateWrite good bytes s
  | .privateRead nbytes => Sys2Proof.Machine.execPrivateRead nbytes s
  | .enthdr0 => Sys2Proof.Machine.execEnthdr0 s
  | .hdrExit => Sys2Proof.Machine.execHdrExit s
  | .entdaa addr => Sys2Proof.Machine.execEntdaa addr s
  | .setdasa static addr => Sys2Proof.Machine.execSetdasa static addr s
  | .setnewda addr => Sys2Proof.Machine.execSetnewda addr s
  | .rstdaa => Sys2Proof.Machine.execRstdaa s
  | .enec => Sys2Proof.Machine.execEnec s
  | .disec => Sys2Proof.Machine.execDisec s
  | .setmwl n => Sys2Proof.Machine.execSetmwl n s
  | .getmwl => Sys2Proof.Machine.execGetmwl s
  | .setmrl n => Sys2Proof.Machine.execSetmrl n s
  | .getmrl => Sys2Proof.Machine.execGetmrl s
  | .getpid => Sys2Proof.Machine.execGetpid s
  | .getbcr => Sys2Proof.Machine.execGetbcr s
  | .getdcr => Sys2Proof.Machine.execGetdcr s
  | .getstatus => Sys2Proof.Machine.execGetstatus s
  | .getmxds => Sys2Proof.Machine.execGetmxds s
  | .getcaps => Sys2Proof.Machine.execGetcaps s
  | .rstact defining => Sys2Proof.Machine.execRstact defining s
  | .unsupportedCcc direct => Sys2Proof.Machine.execUnsupportedCcc direct s
  | .targetResetPattern => Sys2Proof.Machine.execTargetResetPattern s
  | .pwinDataWrite v => Sys2Proof.Machine.execPwinDataWrite v s
  | .pwinDataRead => Sys2Proof.Machine.execPwinDataRead s
  | .powerOn straps => Sys2Proof.Machine.execPowerOn straps s
  | .powerLoss => Sys2Proof.Machine.execPowerLoss s
  | .rstNAssert => Sys2Proof.Machine.execRstNAssert s
  | .rstNRelease straps => Sys2Proof.Machine.execRstNRelease straps s
  | .refInValid => Sys2Proof.Machine.execRefInValid s
  | .shedNAssert => Sys2Proof.Machine.execShedNAssert s
  | .shedNRelease => Sys2Proof.Machine.execShedNRelease s
  | .registerWrite p addr v => Sys2Proof.Machine.execRegisterWrite p addr v s
  | .softReset p pg v => Sys2Proof.Machine.execSoftReset p pg v s
  | .pageLock p pg => Sys2Proof.Machine.execPageLock p pg s
  | .enableSet p pg => Sys2Proof.Machine.execEnableSet p pg s
  | .enableClear p pg => Sys2Proof.Machine.execEnableClear p pg s
  | .auto p pg => Sys2Proof.Machine.execAuto p pg s
  | .forceSpare p pg => Sys2Proof.Machine.execForceSpare p pg s
  | .forcePrimary p pg => Sys2Proof.Machine.execForcePrimary p pg s
  | .inhibit p pg => Sys2Proof.Machine.execInhibit p pg s
  | .swrst v => Sys2Proof.Machine.execSwrst v s
  | .standAside on => Sys2Proof.Machine.execStandAside on s
  | .release on => Sys2Proof.Machine.execRelease on s
  | .apertureWrite p addr v => Sys2Proof.Machine.execApertureWrite p addr v s
  | .loadCommit p q => Sys2Proof.Machine.execLoadCommit p q s
  | .loadDiscard p q => Sys2Proof.Machine.execLoadDiscard p q s
  | .envCommit p u => Sys2Proof.Machine.execEnvCommit p u s
  | .envDiscard p u => Sys2Proof.Machine.execEnvDiscard p u s
  | .wtCommit p n u => Sys2Proof.Machine.execWtCommit p n u s
  | .wtDiscard p n u => Sys2Proof.Machine.execWtDiscard p n u s
  | .graphCommit p => Sys2Proof.Machine.execGraphCommit p s
  | .graphDiscard p => Sys2Proof.Machine.execGraphDiscard p s
  | .vimgDataAccess v => Sys2Proof.Machine.execVimgDataAccess v s
  | .verify => Sys2Proof.Machine.execVerify s
  | .verifyComplete keyReport sigReport => Sys2Proof.Machine.execVerifyComplete keyReport sigReport s
  | .install => Sys2Proof.Machine.execInstall s
  | .installComplete ok => Sys2Proof.Machine.execInstallComplete ok s
  | .load => Sys2Proof.Machine.execLoad s
  | .vimgDiscard => Sys2Proof.Machine.execVimgDiscard s
  | .seqModeWrite q mode => Sys2Proof.Machine.execSeqModeWrite q mode s
  | .shotGo m => Sys2Proof.Machine.execShotGo m s
  | .selfStart m => Sys2Proof.Machine.execSelfStart m s
  | .syncLine => Sys2Proof.Machine.execSyncLine s
  | .shotOpen g => Sys2Proof.Machine.execShotOpen g s
  | .shotClose g => Sys2Proof.Machine.execShotClose g s
  | .shotBoundary g => Sys2Proof.Machine.execShotBoundary g s
  | .wordSeq q => Sys2Proof.Machine.execWordSeq q s
  | .wordJump q => Sys2Proof.Machine.execWordJump q s
  | .wordBr q => Sys2Proof.Machine.execWordBr q s
  | .wordCall q => Sys2Proof.Machine.execWordCall q s
  | .wordRet q => Sys2Proof.Machine.execWordRet q s
  | .wordLoop q => Sys2Proof.Machine.execWordLoop q s
  | .wordEnd q => Sys2Proof.Machine.execWordEnd q s
  | .loopPush q => Sys2Proof.Machine.execLoopPush q s
  | .loopBreak q => Sys2Proof.Machine.execLoopBreak q s
  | .waitExpiry q => Sys2Proof.Machine.execWaitExpiry q s
  | .decisionWaitEnd q => Sys2Proof.Machine.execDecisionWaitEnd q s
  | .eventWaitEnd q => Sys2Proof.Machine.execEventWaitEnd q s
  | .markWaitEnd q => Sys2Proof.Machine.execMarkWaitEnd q s
  | .waitTimeout q => Sys2Proof.Machine.execWaitTimeout q s
  | .drivePulse q port => Sys2Proof.Machine.execDrivePulse q port s
  | .addA q port => Sys2Proof.Machine.execAddA q port s
  | .addB q port => Sys2Proof.Machine.execAddB q port s
  | .subA q port => Sys2Proof.Machine.execSubA q port s
  | .setA q port => Sys2Proof.Machine.execSetA q port s
  | .zeroAcc q port => Sys2Proof.Machine.execZeroAcc q port s
  | .addSw q port => Sys2Proof.Machine.execAddSw q port s
  | .play g port => Sys2Proof.Machine.execPlay g port s
  | .playHold g port => Sys2Proof.Machine.execPlayHold g port s
  | .step g port => Sys2Proof.Machine.execStep g port s
  | .park g port => Sys2Proof.Machine.execPark g port s
  | .swr q => Sys2Proof.Machine.execSwr q s
  | .swp q => Sys2Proof.Machine.execSwp q s
  | .evtFire q => Sys2Proof.Machine.execEvtFire q s
  | .markEn m => Sys2Proof.Machine.execMarkEn m s
  | .calwin m => Sys2Proof.Machine.execCalwin m s
  | .tbusStart m => Sys2Proof.Machine.execTbusStart m s
  | .ringTrig m => Sys2Proof.Machine.execRingTrig m s
  | .windowArm n => Sys2Proof.Machine.execWindowArm n s
  | .probePulse n => Sys2Proof.Machine.execProbePulse n s
  | .branchResolve q => Sys2Proof.Machine.execBranchResolve q s
  | .commitGateResolution q => Sys2Proof.Machine.execCommitGateResolution q s
  | .segmentPlay q => Sys2Proof.Machine.execSegmentPlay q s
  | .segmentDecide q => Sys2Proof.Machine.execSegmentDecide q s
  | .segJump q target => Sys2Proof.Machine.execSegJump q target s
  | .segStop q => Sys2Proof.Machine.execSegStop q s
  | .portActionDue out tone => Sys2Proof.Machine.execPortActionDue out tone s
  | .fluxActionDue o => Sys2Proof.Machine.execFluxActionDue o s
  | .windowArmDue d => Sys2Proof.Machine.execWindowArmDue d s
  | .windowClose d lead raw => Sys2Proof.Machine.execWindowClose d lead raw s
  | .resultDue d => Sys2Proof.Machine.execResultDue d s
  | .armCopyDue d => Sys2Proof.Machine.execArmCopyDue d s
  | .frameUpdateDue => Sys2Proof.Machine.execFrameUpdateDue s
  | .broadcastDue c => Sys2Proof.Machine.execBroadcastDue c s
  | .markDue g => Sys2Proof.Machine.execMarkDue g s
  | .taskActivation i_ => Sys2Proof.Machine.execTaskActivation i_ s
  | .refillData out strm samples => Sys2Proof.Machine.execRefillData out strm samples s
  | .refillUnderrun out strm report => Sys2Proof.Machine.execRefillUnderrun out strm report s
  | .mute out on => Sys2Proof.Machine.execMute out on s
  | .parkNow o on => Sys2Proof.Machine.execParkNow o on s
  | .toneVerify out tone mismatch => Sys2Proof.Machine.execToneVerify out tone mismatch s
  | .dacFault out => Sys2Proof.Machine.execDacFault out s
  | .adcFault n => Sys2Proof.Machine.execAdcFault n s
  | .rampDone o => Sys2Proof.Machine.execRampDone o s
  | .parkHandover o => Sys2Proof.Machine.execParkHandover o s
  | .pdClr o => Sys2Proof.Machine.execPdClr o s
  | .shadowStep n resid ofs gain skew => Sys2Proof.Machine.execShadowStep n resid ofs gain skew s
  | .handover n => Sys2Proof.Machine.execHandover n s
  | .slotBindWrite v => Sys2Proof.Machine.execSlotBindWrite v s
  | .slotCfgWrite v => Sys2Proof.Machine.execSlotCfgWrite v s
  | .clrEntries => Sys2Proof.Machine.execClrEntries s
  | .clrLost => Sys2Proof.Machine.execClrLost s
  | .dchWrite idx v => Sys2Proof.Machine.execDchWrite idx v s
  | .resend => Sys2Proof.Machine.execResend s
  | .tableParity channel idx => Sys2Proof.Machine.execTableParity channel idx s
  | .evtFireWrite k v => Sys2Proof.Machine.execEvtFireWrite k v s
  | .lineDisWrite k v => Sys2Proof.Machine.execLineDisWrite k v s
  | .detectionInputDue slot => Sys2Proof.Machine.execDetectionInputDue slot s
  | .roundClose => Sys2Proof.Machine.execRoundClose s
  | .decodeWindowComplete => Sys2Proof.Machine.execDecodeWindowComplete s
  | .windowOutputIssue largest slack abandoned => Sys2Proof.Machine.execWindowOutputIssue largest slack abandoned s
  | .testDecode t ok => Sys2Proof.Machine.execTestDecode t ok s
  | .tileParity t => Sys2Proof.Machine.execTileParity t s
  | .graphParity => Sys2Proof.Machine.execGraphParity s
  | .arm u => Sys2Proof.Machine.execArm u s
  | .abort u => Sys2Proof.Machine.execAbort u s
  | .clrCnt u => Sys2Proof.Machine.execClrCnt u s
  | .triggerSample u => Sys2Proof.Machine.execTriggerSample u s
  | .hitDue u src h => Sys2Proof.Machine.execHitDue u src h s
  | .sourceItem u src bytes => Sys2Proof.Machine.execSourceItem u src bytes s
  | .preFilled u => Sys2Proof.Machine.execPreFilled u s
  | .captureComplete u => Sys2Proof.Machine.execCaptureComplete u s
  | .recordRelease u => Sys2Proof.Machine.execRecordRelease u s
  | .recordSend u => Sys2Proof.Machine.execRecordSend u s
  | .egrEnable u => Sys2Proof.Machine.execEgrEnable u s
  | .portAdmit => Sys2Proof.Machine.execPortAdmit s
  | .portRelease => Sys2Proof.Machine.execPortRelease s
  | .mapWrite k v => Sys2Proof.Machine.execMapWrite k v s
  | .pantryRequest port addr write => Sys2Proof.Machine.execPantryRequest port addr write s
  | .escalation id => Sys2Proof.Machine.execEscalation id s
  | .deadlineMiss id => Sys2Proof.Machine.execDeadlineMiss id s
  | .bankRefresh ch postponed => Sys2Proof.Machine.execBankRefresh ch postponed s
  | .retrainSlot ch margin temp full => Sys2Proof.Machine.execRetrainSlot ch margin temp full s
  | .retirementStart ch => Sys2Proof.Machine.execRetirementStart ch s
  | .evacuationDone ch => Sys2Proof.Machine.execEvacuationDone ch s
  | .channelLoss ch => Sys2Proof.Machine.execChannelLoss ch s
  | .slip n => Sys2Proof.Machine.execSlip n s
  | .restart n => Sys2Proof.Machine.execRestart n s
  | .prbsClr n => Sys2Proof.Machine.execPrbsClr n s
  | .los n => Sys2Proof.Machine.execLos n s
  | .signalReturn n => Sys2Proof.Machine.execSignalReturn n s
  | .rxReady n snr => Sys2Proof.Machine.execRxReady n snr s
  | .prbsLock n => Sys2Proof.Machine.execPrbsLock n s
  | .prbsUnlock n bits errs => Sys2Proof.Machine.execPrbsUnlock n bits errs s
  | .lockAcquire n => Sys2Proof.Machine.execLockAcquire n s
  | .lockLoss n => Sys2Proof.Machine.execLockLoss n s
  | .autoAlignSlip n => Sys2Proof.Machine.execAutoAlignSlip n s
  | .swapStart n => Sys2Proof.Machine.execSwapStart n s
  | .swapReq port lane => Sys2Proof.Machine.execSwapReq port lane s
  | .swapReqAbrupt port lane => Sys2Proof.Machine.execSwapReqAbrupt port lane s
  | .swapReady port => Sys2Proof.Machine.execSwapReady port s
  | .swapAbort port cause => Sys2Proof.Machine.execSwapAbort port cause s
  | .swapSwitch port => Sys2Proof.Machine.execSwapSwitch port s
  | .swapTimeout port skew => Sys2Proof.Machine.execSwapTimeout port skew s
  | .laneFail n => Sys2Proof.Machine.execLaneFail n s
  | .abruptSwitch port => Sys2Proof.Machine.execAbruptSwitch port s
  | .laneFrame r w => Sys2Proof.Machine.execLaneFrame r w s
  | .decisionFlit r f => Sys2Proof.Machine.execDecisionFlit r f s
  | .syndromeEvents r f => Sys2Proof.Machine.execSyndromeEvents r f s
  | .syndromeCorrections r f => Sys2Proof.Machine.execSyndromeCorrections r f s
  | .triggerFlit r f => Sys2Proof.Machine.execTriggerFlit r f s
  | .lossFlit r f => Sys2Proof.Machine.execLossFlit r f s
  | .bulkFlit r f => Sys2Proof.Machine.execBulkFlit r f s
  | .idleFlit r f => Sys2Proof.Machine.execIdleFlit r f s
  | .flitSend r report => Sys2Proof.Machine.execFlitSend r report s
  | .replayTimeout r => Sys2Proof.Machine.execReplayTimeout r s
  | .graceExpiry r => Sys2Proof.Machine.execGraceExpiry r s
  | .regWrite h hd addr bytes => Sys2Proof.Machine.execRegWrite h hd addr bytes s
  | .regRead h hd addr len => Sys2Proof.Machine.execRegRead h hd addr len s
  | .storeWrite h hd space index off bytes => Sys2Proof.Machine.execStoreWrite h hd space index off bytes s
  | .storeCommit h hd space index bytes => Sys2Proof.Machine.execStoreCommit h hd space index bytes s
  | .storeDiscard h hd space index => Sys2Proof.Machine.execStoreDiscard h hd space index s
  | .storeRead h hd space index off len => Sys2Proof.Machine.execStoreRead h hd space index off len s
  | .pantryWrite h hd addr bytes => Sys2Proof.Machine.execPantryWrite h hd addr bytes s
  | .pantryRead h hd addr len => Sys2Proof.Machine.execPantryRead h hd addr len s
  | .moduleOnlyFrame h op => Sys2Proof.Machine.execModuleOnlyFrame h op s
  | .credit h => Sys2Proof.Machine.execCredit h s
  | .unreach h msgid => Sys2Proof.Machine.execUnreach h msgid s
  | .arpRequest h src ip => Sys2Proof.Machine.execArpRequest h src ip s
  | .neighbourSolicitation h src ip => Sys2Proof.Machine.execNeighbourSolicitation h src ip s
  | .hostModeWrite h mode => Sys2Proof.Machine.execHostModeWrite h mode s
  | .linkFail h => Sys2Proof.Machine.execLinkFail h s
  | .ptpSync h m twoStep => Sys2Proof.Machine.execPtpSync h m twoStep s
  | .followUp h m => Sys2Proof.Machine.execFollowUp h m s
  | .delayReq h m => Sys2Proof.Machine.execDelayReq h m s
  | .delayResp h m => Sys2Proof.Machine.execDelayResp h m s
  | .pdelayReq h m => Sys2Proof.Machine.execPdelayReq h m s
  | .pdelayResp h m => Sys2Proof.Machine.execPdelayResp h m s
  | .pdelayRespFollowUp h m => Sys2Proof.Machine.execPdelayRespFollowUp h m s
  | .announce h bytes => Sys2Proof.Machine.execAnnounce h bytes s
  | .signaling h bytes => Sys2Proof.Machine.execSignaling h bytes s
  | .management h bytes => Sys2Proof.Machine.execManagement h bytes s
  | .syncInterval h => Sys2Proof.Machine.execSyncInterval h s
  | .delayReqInterval h tx => Sys2Proof.Machine.execDelayReqInterval h tx s
  | .announceInterval h => Sys2Proof.Machine.execAnnounceInterval h s
  | .syncTimeout src => Sys2Proof.Machine.execSyncTimeout src s
  | .rxqPop h => Sys2Proof.Machine.execRxqPop h s
  | .ringSync r f rx => Sys2Proof.Machine.execRingSync r f rx s
  | .ringDelayReq r f rx => Sys2Proof.Machine.execRingDelayReq r f rx s
  | .ringDelayResp r f rx => Sys2Proof.Machine.execRingDelayResp r f rx s
  | .ringPdelayReq r f rx => Sys2Proof.Machine.execRingPdelayReq r f rx s
  | .ringPdelayResp r f rx => Sys2Proof.Machine.execRingPdelayResp r f rx s
  | .ringSyncInterval => Sys2Proof.Machine.execRingSyncInterval s
  | .ringPdelayInterval => Sys2Proof.Machine.execRingPdelayInterval s
  | .align => Sys2Proof.Machine.execAlign s
  | .syncEdge offset report => Sys2Proof.Machine.execSyncEdge offset report s
  | .syncAbsent => Sys2Proof.Machine.execSyncAbsent s
  | .refLoss => Sys2Proof.Machine.execRefLoss s
  | .refReturn => Sys2Proof.Machine.execRefReturn s
  | .mtStep => Sys2Proof.Machine.execMtStep s
  | .incCommit p hi => Sys2Proof.Machine.execIncCommit p hi s
  | .servoRst => Sys2Proof.Machine.execServoRst s
  | .servoOfs v => Sys2Proof.Machine.execServoOfs v s
  | .mtRead p => Sys2Proof.Machine.execMtRead p s
  | .tsuRead p k => Sys2Proof.Machine.execTsuRead p k s
  | .cmpFire k => Sys2Proof.Machine.execCmpFire k s
  | .tbusCycle lines hold => Sys2Proof.Machine.execTbusCycle lines hold s
  | .holdStuck => Sys2Proof.Machine.execHoldStuck s
  | .ctxCfgWrite slot v => Sys2Proof.Machine.execCtxCfgWrite slot v s
  | .ctxData slot v => Sys2Proof.Machine.execCtxData slot v s
  | .crcWindowWrite eng v => Sys2Proof.Machine.execCrcWindowWrite eng v s
  | .ctxValWrite slot v => Sys2Proof.Machine.execCtxValWrite slot v s
  | .submit k => Sys2Proof.Machine.execSubmit k s
  | .clear k => Sys2Proof.Machine.execClear k s
  | .cancel k => Sys2Proof.Machine.execCancel k s
  | .calSegmentDone r0 r1 qual => Sys2Proof.Machine.execCalSegmentDone r0 r1 qual s
  | .attemptTimeout k => Sys2Proof.Machine.execAttemptTimeout k s
  | .backgroundPassDone k r0 r1 qual => Sys2Proof.Machine.execBackgroundPassDone k r0 r1 qual s
  | .referenceCheck resid => Sys2Proof.Machine.execReferenceCheck resid s
  | .conversion raw => Sys2Proof.Machine.execConversion raw s
  | .housekeepingConversion raw => Sys2Proof.Machine.execHousekeepingConversion raw s
  | .urgentConversion k raw => Sys2Proof.Machine.execUrgentConversion k raw s
  | .zero => Sys2Proof.Machine.execZero s
  | .full => Sys2Proof.Machine.execFull s
  | .scalMeasureDone mean => Sys2Proof.Machine.execScalMeasureDone mean s
  | .trivetUpdate readings => Sys2Proof.Machine.execTrivetUpdate readings s
  | .diodeCrosscheck site prim spare => Sys2Proof.Machine.execDiodeCrosscheck site prim spare s
  | .freezeTimeout => Sys2Proof.Machine.execFreezeTimeout s
  | .throttleUp => Sys2Proof.Machine.execThrottleUp s
  | .throttleDown => Sys2Proof.Machine.execThrottleDown s
  | .shutdownExit => Sys2Proof.Machine.execShutdownExit s
  | .phaseFail d => Sys2Proof.Machine.execPhaseFail d s
  | .domainTrip d => Sys2Proof.Machine.execDomainTrip d s
  | .shedDwell => Sys2Proof.Machine.execShedDwell s
  | .shedHold => Sys2Proof.Machine.execShedHold s
  | .shedWait g => Sys2Proof.Machine.execShedWait g s
  | .vinThreshold mv => Sys2Proof.Machine.execVinThreshold mv s
  | .brownoutRestart => Sys2Proof.Machine.execBrownoutRestart s
  | .overVoltage => Sys2Proof.Machine.execOverVoltage s
  | .hmClear v => Sys2Proof.Machine.execHmClear v s
  | .hmCfgWrite u v => Sys2Proof.Machine.execHmCfgWrite u v s
  | .wearHour => Sys2Proof.Machine.execWearHour s
  | .mapClear => Sys2Proof.Machine.execMapClear s
  | .mapRead => Sys2Proof.Machine.execMapRead s
  | .logRead => Sys2Proof.Machine.execLogRead s
  | .logClear v => Sys2Proof.Machine.execLogClear v s
  | .softResetDone pg => Sys2Proof.Machine.execSoftResetDone pg s
  | .targetResetDone => Sys2Proof.Machine.execTargetResetDone s
  | .startupPhaseDone ok bad => Sys2Proof.Machine.execStartupPhaseDone ok bad s
  | .ibiDelivered => Sys2Proof.Machine.execIbiDelivered s
  | .pantryRequestDone id ecc => Sys2Proof.Machine.execPantryRequestDone id ecc s
  | .pantryReadTimeout h tag => Sys2Proof.Machine.execPantryReadTimeout h tag s
  | .laneSnrUpdate n snr eye => Sys2Proof.Machine.execLaneSnrUpdate n snr eye s
  | .inputQuiet n below => Sys2Proof.Machine.execInputQuiet n below s
  | .inputOverrange n => Sys2Proof.Machine.execInputOverrange n s
  | .badOpRequest h hd op addr => Sys2Proof.Machine.execBadOpRequest h hd op addr s
  | .hostFrameDiscard h why => Sys2Proof.Machine.execHostFrameDiscard h why s
  | .hmInterval u v => Sys2Proof.Machine.execHmInterval u v s

end Sys2Proof.Machine
end

