-- ==== Sys2Proof/Safety.lean ====
section
/-! DEFINITION. What counts as a safe step, the invariants that statements use, and the words in which statements say
what a command answers and what it leaves unchanged. -/

namespace Sys2Proof.Machine

/-- A step of this state answers a next state. -/
def Safe (s : State) : Prop := ∃ t, step s = .next t

/-- The state after a number of steps, if each of them answers a next state. -/
def afterSteps : Nat → State → Option State
  | 0, s => some s
  | n + 1, s => match step s with
    | .next t => afterSteps n t
    | _ => none

/-- The registers stand in their canonical form: rising addresses, no entry that holds its reset value. -/
def State.regsOk (s : State) : Prop := mapOk regReset 0 s.regs = true

/-- A table of bytes in its canonical form: rising addresses, no byte that is zero. -/
def bytesOk (m : Bytes) : Prop := mapOk (fun _ => (0 : Byte)) 0 m = true

def imageOk : VImage → Prop
  | .empty => True
  | .spoilt => True
  | .factory => True
  | .bytes b => bytesOk b

/-- The stores, all that is staged for them or waits to be copied into them, the vendor images and the Pantry stand in
their canonical form. -/
def State.storesOk (s : State) : Prop :=
  bytesOk s.stores ∧ (∀ e ∈ s.staging, bytesOk e.2.data) ∧ bytesOk s.gStage ∧ (∀ e ∈ s.accepted, bytesOk e.data) ∧
  (∀ e ∈ s.gWait, bytesOk e.2) ∧ bytesOk s.vimg.buf ∧ imageOk s.vimg.slotA ∧ imageOk s.vimg.slotB ∧
  imageOk s.vimg.held ∧ imageOk s.vimg.image ∧ mapOk (fun _ => (none : Option Byte)) 0 s.pantry = true

/-- The command answers a next state, and that state has the property. -/
def Gives (c : Instr) (s : State) (P : State → Prop) : Prop := ∃ t, exec c s = .next t ∧ P t

/-- Every register but those at the addresses listed holds what it held. -/
def regsBut (l : List Nat) (s t : State) : Prop := ∀ a, a ∉ l → getReg t a = getReg s a

/-- Every register of a page that is not listed (by number, address / 4096) holds what it held. -/
def pagesBut (l : List Nat) (s t : State) : Prop := ∀ a, a / 4096 ∉ l → getReg t a = getReg s a

/-- Everything but the registers is as it was; the record of what happened in the current tick (R7, R35) is no state of the
module and does not count. -/
def onlyRegs (s t : State) : Prop := { t with regs := s.regs, tick := s.tick } = s

/-- Everything but the registers, and whether an in-band interrupt is requested, is as it was; the record of the current tick
does not count. -/
def onlyRegsIrq (s t : State) : Prop :=
  { t with regs := s.regs, tick := s.tick, i3c := { t.i3c with ibiReq := s.i3c.ibiReq } } = s

/-- Nothing waits for a tick at a sequencer: no work kept for one, no stack fault of a path that is not resolved, no end or
successor of a play fixed or being fixed. -/
def SeqStill (s : State) (q : Nat) : Prop :=
  let x : Seq := getSeq s q
  s.later = [] ∧ x.halt = false ∧ x.fixing = false ∧ x.succAt = none ∧ x.endAt = none

/-- The same at a sequencer in microcode: no latched GO activation either that the word it stands in is to take (R77). -/
def SeqQuiet (s : State) (q : Nat) : Prop :=
  let x : Seq := getSeq s q
  SeqStill s q ∧ (x.go = none ∨ (uword s q x.pc).wait ≠ 4 ∨ x.met ≠ none)

/-- The command, for which the state is `u` once all that comes before it is done, brings the first waiting item whose payload
a test accepts to its receiver (R16 to R20): none waits, or its sender holds it while the crossing's queue is full, and nothing
more happens; an item on time acts in its due tick, with every other part of it; a late one takes its default, which never
delays it. -/
def Delivers (c : Instr) (s u : State) (p : Payload → Bool) (onTime once late : Item → State → State) : Prop :=
  (takeItem p u.items = none → exec c s = .next u) ∧
  ∀ i rest, takeItem p u.items = some (i, rest) →
    let s1 : State := { u with items := rest.filter (fun j => !partOf i j) }
    let parts : List Item := i :: rest.filter (partOf i)
    (heldBack i u = true → exec c s = .next u) ∧
    (heldBack i u = false → isLate i u = false →
      exec c s = .next (parts.foldl (fun t j => onTime j t) (passTo (dueTick i u) s1))) ∧
    (heldBack i u = false → isLate i u = true → exec c s = .next (parts.foldl (fun t j => late j t) (once i s1)))

end Sys2Proof.Machine
end

