-- ==== Sys2Proof/WellFormed.lean ====
section
/-! DEFINITION. Which terms are commands of the module: operands that the types alone do not bound. -/

namespace Sys2Proof

open Sys2Proof.Machine (pageOf)

/-- A word address (R41). -/
def wordAddr (a : Word) : Bool := decide (a.toNat % 4 = 0)

/-- A page of R54. -/
def isPage (pg : Nat) : Bool := (pageOf pg).isSome

/-- A drive sequencer has 8 ports, a read-out sequencer 32 tones (R79, R82). -/
def hasPort (q port : Nat) : Bool := decide (q < 64 → port < 8)

/-- A drive output has 9 tones with its spare, a probe output 34 (R118, R139). -/
def hasTone (out tone : Nat) : Bool := decide (out < 64 → tone < 9)

/-- A term that is a command. -/
def Instr.wellFormed : Instr → Bool
  | .registerWrite _ addr _ => wordAddr addr
  | .apertureWrite _ addr _ => wordAddr addr && decide (0x40000000 ≤ addr.toNat)
  | .softReset _ pg _ => isPage pg.val
  | .pageLock _ pg => isPage pg.val
  | .enableSet _ pg => isPage pg.val
  | .enableClear _ pg => isPage pg.val
  | .auto _ pg => isPage pg.val
  | .forceSpare _ pg => isPage pg.val
  | .forcePrimary _ pg => isPage pg.val
  | .inhibit _ pg => isPage pg.val
  | .softResetDone pg => isPage pg.val
  | .addA q port => hasPort q.val port.val
  | .addB q port => hasPort q.val port.val
  | .subA q port => hasPort q.val port.val
  | .setA q port => hasPort q.val port.val
  | .zeroAcc q port => hasPort q.val port.val
  | .addSw q port => hasPort q.val port.val
  | .portActionDue out tone => hasTone out.val tone.val
  | .toneVerify out tone _ => hasTone out.val tone.val
  -- R425 places 24 sensor sites
  | .trivetUpdate readings => decide (readings.length = 24)
  | _ => true

end Sys2Proof
end

