-- ==== Sys2Proof/Certificates/Slice0/Obligations.lean ====
section
/-! DEFINITION. The statements for the provers, by family of commands. -/

open Sys2Proof Sys2Proof.Machine

/-- The commands by which a flit with given bits arrives at a ring port. -/
def flitCommands (r : Fin 2) (f : BitVec 256) (rx : Int) : List Instr :=
  [.decisionFlit r f, .syndromeEvents r f, .syndromeCorrections r f, .triggerFlit r f, .lossFlit r f, .bulkFlit r f,
   .idleFlit r f, .ringSync r f rx, .ringDelayReq r f rx, .ringDelayResp r f rx, .ringPdelayReq r f rx,
   .ringPdelayResp r f rx]

/-- The check of a flit holds, and its TYPE and TTL are legal (R327, R328). -/
def flitGood (f : BitVec 256) : Prop :=
  crc24 29 (f.toNat % 2 ^ 232) = f.toNat / 2 ^ 232 ∧ nbits f.toNat 3 0 < 7 ∧ (nbits f.toNat 3 0 ≠ 0 → nbits f.toNat 18 14 ≠ 0)

/-- A step with a command at the front of the queue is that command's effect with the queue's rest. -/
def Obligations.StepActsOnTheFrontCommand : Prop :=
  ∀ (c : Instr) (cs : List Instr) (s : State), step { s with pending := c :: cs } = exec c { s with pending := cs }

/-- With no command waiting a step lets one tick pass and changes nothing but the clock and the record of what the
tick holds (the model's choice, log 2). -/
def Obligations.IdleStepLetsOneTickPass : Prop :=
  ∀ s : State, s.pending = [] →
    step s = .next (passTicks 1 s) ∧ { passTicks 1 s with clk := s.clk, tick := s.tick } = s ∧
    (clockRuns s = true → (passTicks 1 s).clk.tc = s.clk.tc + 1) ∧ (clockRuns s = false → passTicks 1 s = s)

/-- R47, R59, R64 (reset): every register holds its reset value: the cause is power-on and the phase 1; READY is 0,
time is 0, no command waits, and the registers and stores are in canonical form. That the model starts at power-on
with REF_IN present is its choice (log 4). -/
def Obligations.ResetIsTheStateAfterPowerOn : Prop :=
  let s : State := State.reset
  (∀ a, getReg s a = regReset a) ∧
  rd s .sys 0 0x050 31 0 = 1 ∧ phase s = 1 ∧ rdBit s .sys 0 0x04C 31 = false ∧ s.clk = {} ∧ s.pending = [] ∧
  s.regsOk ∧ s.storesOk

/-- No command changes the queue, so every step takes the front command out of it and adds none; and registers,
stores, staged and waiting images and the Pantry keep their canonical form in every step, whatever the command. -/
def Obligations.EveryStepKeepsTheCanonicalForms : Prop :=
  ∀ s t : State, s.regsOk → s.storesOk → step s = .next t → t.pending = s.pending.tail ∧ t.regsOk ∧ t.storesOk

/-- R47, R48, R63: a module without power, or held in reset, stands still: while none of the commands that power it,
move its reset pins, tell it a level it must note (REF_IN, SHED_N) or end a target reset waits, every step answers a
next state that differs in the queue only, is again such a state, and after any number of steps nothing else has
changed. -/
def Obligations.ModuleHeldInResetStandsStill : Prop :=
  let calm (c : Instr) : Prop := c.wellFormed = true ∧
    (∀ straps : BitVec 4, c ≠ .powerOn straps ∧ c ≠ .rstNRelease straps) ∧ c ≠ .powerLoss ∧ c ≠ .rstNAssert ∧
    c ≠ .targetResetDone ∧ c ≠ .refInValid ∧ c ≠ .refLoss ∧ c ≠ .refReturn ∧ c ≠ .shedNAssert ∧ c ≠ .shedNRelease
  let held (s : State) : Prop := alive s = false ∧ ∀ c ∈ s.pending, calm c
  (∀ s : State, held s → step s = .next { s with pending := s.pending.tail } ∧ held { s with pending := s.pending.tail }) ∧
  (∀ (n : Nat) (s : State), held s → afterSteps n s = some { s with pending := s.pending.drop n })

/-- R356: in every tick MT advances by INC + ADJ + e, where e is 2^-32 ns in each tick whose TC is 0 mod 3 while THIRD
= 1 and 0 otherwise; ticks pass one after another; and with the nominal INC and THIRD = 1 three ticks add exactly 4
ns. -/
def Obligations.TimeAdvancesTickByTick : Prop :=
  ∀ s : State, clockRuns s = true →
    let third : Bool := rdBit s .time 0 0x040 8
    let inc : Int := ((reg s .time 0 0x060).toNat : Int) + 2 ^ 32 * (rd s .time 0 0x064 3 0 : Int) + (reg s .time 0 0x07C).toInt
    let e : Int := if third = true ∧ s.clk.tc.toNat % 3 = 0 then 1 else 0
    (s.clk.step = 0 → (passTicks 1 s).clk.mt = s.clk.mt + BitVec.ofInt 96 (inc + e)) ∧
    (passTicks 1 s).clk.tc = s.clk.tc + 1 ∧
    (∀ m n : Nat, passTicks (m + n) s = passTicks n (passTicks m s)) ∧
    (third = true → reg s .time 0 0x060 = 0x55555555 → rd s .time 0 0x064 3 0 = 1 → reg s .time 0 0x07C = 0 →
      s.clk.step = 0 → s.clk.tc.toNat + 3 < 2 ^ 48 → (passTicks 3 s).clk.mt = s.clk.mt + BitVec.ofInt 96 (4 * 2 ^ 32))

/-- Every command whose operands are well formed answers a next state and leaves the queue as it was, in every state
of the module. Five of them with their effect: R57, a target reset with action 1 resets the target logic; R76, R83, a
mark due now reaches a member of its group; R219, an activation due now raises its host event; R156, an output of a
page in reset or before READY hands over to the park holder; R413, R418, R422, a valid list entry shows its corrected
result. Once the block a command acts in works, and the path it comes by answers, the command answers the state that
its own operation gives, for each constructor of Instr: a register or pin command from that page's start-up phase on,
a receiver's event once receivers work, and one of I3C or a host port while its path answers. It states the completion
of every constructor of Instr. -/
def Obligations.EveryCommandCompletes : Prop :=
  ((∀ (c : Instr) (s : State), c.wellFormed = true → Gives c s (fun t => t.pending = s.pending)) ∧
   ∀ (s : State) (g : Fin 8) (n : Fin 192) (o : Fin 256) (raw : BitVec 18),
     let dueNow (l : Payload) : Prop := ∃ grp, s.items = [{ stamp := stampOf s.clk.tc, group := grp, deps := [], load := l }]
     let p : Nat := s.mon.pos
     let ch : Nat := rd s .monadc 0 (0x100 + 4 * p) 11 4
     (ptUp s .mgmt = true → s.i3c.rstact = 0x01 → Gives .targetResetPattern s (fun t =>
       t.i3c.ptr = 0 ∧ t.i3c.ibiOn = true ∧ t.i3c.inReset = true ∧ rd t .mgmt 0 0x040 23 0 = 0 ∧ t.clk = s.clk)) ∧
     (∀ q id : Nat, ptUp s .seq = true → dueNow (.mark g.val id) → q < 120 → seqGroup s q = some g.val →
       (getSeq s q).inShot = true → segMode s q = false → Gives (.markDue g) s (fun t =>
         t.items = [] ∧ (getSeq t q).marks = (getSeq s q).marks ++ [(id, s.clk.tc)] ∧ t.clk = s.clk)) ∧
     (ptUp s .evt = true → dueNow (.act n.val) → 180 ≤ n.val → n.val < 188 → s.lines = [] → n.val ∉ s.tick.acts → Gives (.taskActivation n) s (fun t =>
       t.items = [] ∧ rdBit t .evt 0 0x010 (8 + (n.val - 180)) = true ∧ t.clk = s.clk)) ∧
     (ptUp s .flx = true → (getFlux s o.val).holder = false → (isResetting s .flx (flxPage o.val) = true ∨ ready s = false) →
       Gives (.parkHandover o) s (fun t =>
         (getFlux t o.val).holder = true ∧ (getFlux t o.val).atPark = true ∧ (getFlux t o.val).ramp = none)) ∧
     (ptUp s .monadc = true → p < 64 → monOk ch (rd s .monadc 0 (0x100 + 4 * p) 3 0) = true →
       Gives (.conversion raw) s (fun t =>
         rd t .monadc 0 (0x200 + 4 * p) 17 0 =
           (clampI 0 262143 (rndAway (((raw.toNat : Int) - sx 20 (rd s .monadc 0 (0x300 + 8 * ch) 19 0)) *
             rd s .monadc 0 (0x304 + 8 * ch) 19 0) 18)).toNat ∧
         rdBit t .monadc 0 (0x200 + 4 * p) 31 = true ∧ t.mon.pos ≠ p ∧ t.clk = s.clk))) ∧
  (∀ s : State,
     let up (pt : PT) : Prop := ptUp s pt = true
     let pgUp (pg : Nat) : Prop := ∃ pt n, pageOf pg = some (pt, n) ∧ ptUp s pt = true
     ((∀ (good : Bool) (bytes : List Byte), up .mgmt → exec (.privateWrite good bytes) s = .next (addressed
       (privateWrite good bytes) s)) ∧
     (∀ (nbytes : Nat), up .mgmt → exec (.privateRead nbytes) s = .next (addressed (privateRead nbytes) s)) ∧
     (up .mgmt → exec .enthdr0 s = .next (broadcast (fun t => setI3c { t.i3c with hdr := true } t) s)) ∧
     (up .mgmt → exec .hdrExit s = .next (broadcast (fun t => setI3c { t.i3c with hdr := false } t) s)) ∧
     (∀ (addr : BitVec 7), up .mgmt → exec (.entdaa addr) s = .next (broadcast (entdaa addr.toNat) s)) ∧
     (∀ (static : BitVec 7) (addr : BitVec 7), up .mgmt → exec (.setdasa static addr) s = .next (setdasa static.toNat
       addr.toNat s)) ∧
     (∀ (addr : BitVec 7), up .mgmt → exec (.setnewda addr) s = .next (addressed (setnewda addr.toNat) s)) ∧
     (up .mgmt → exec .rstdaa s = .next (broadcast rstdaa s)) ∧
     (up .mgmt → exec .enec s = .next (broadcast enec s)) ∧
     (up .mgmt → exec .disec s = .next (broadcast disec s)) ∧
     (∀ (n : BitVec 16), up .mgmt → exec (.setmwl n) s = .next (broadcast (setmwl n.toNat) s)) ∧
     (up .mgmt → exec .getmwl s = .next (addressed (fun t => i3cReply (beBytes t.i3c.mwl 2) t) s)) ∧
     (∀ (n : BitVec 16), up .mgmt → exec (.setmrl n) s = .next (broadcast (setmrl n.toNat) s)) ∧
     (up .mgmt → exec .getmrl s = .next (addressed (fun t => i3cReply (beBytes t.i3c.mrl 2 ++ [0x05]) t) s)) ∧
     (up .mgmt → exec .getpid s = .next (addressed (fun t => i3cReply (beBytes (provId t) 6) t) s)) ∧
     (up .mgmt → exec .getbcr s = .next (addressed (i3cReply [0x26]) s)) ∧
     (up .mgmt → exec .getdcr s = .next (addressed (i3cReply [0x00]) s)) ∧
     (up .mgmt → exec .getstatus s = .next (addressed (freeReply 2) s)) ∧
     (up .mgmt → exec .getmxds s = .next (addressed (i3cReply [0x00, 0x00, 0x00, 0x00, 0x00]) s)) ∧
     (up .mgmt → exec .getcaps s = .next (addressed (freeReply 2) s)) ∧
     (∀ (defining : BitVec 8), up .mgmt → exec (.rstact defining) s = .next (rstact defining s)) ∧
     (∀ (direct : Bool), up .mgmt → exec (.unsupportedCcc direct) s = .next (unsupportedCcc direct s)) ∧
     (up .mgmt → exec .targetResetPattern s = .next (targetReset s)) ∧
     (∀ (v : Word), up .mgmt → exec (.pwinDataWrite v) s = .next (pwinWriteBy 0 v s)) ∧
     (up .mgmt → exec .pwinDataRead s = .next (pwinDataRead s))) ∧
     ((∀ (straps : BitVec 4), exec (.powerOn straps) s = .next (powerOn straps s)) ∧
     (exec .powerLoss s = .next (powerLoss s)) ∧
     (exec .rstNAssert s = .next (rstNAssert s)) ∧
     (∀ (straps : BitVec 4), exec (.rstNRelease straps) s = .next (rstNRelease straps s)) ∧
     (exec .refInValid s = .next (refInValid s)) ∧
     (exec .shedNAssert s = .next (shedLevel false s)) ∧
     (exec .shedNRelease s = .next (shedLevel true s)) ∧
     (∀ (p : Path) (addr : Word) (v : Word), pathUp s p = true → exec (.registerWrite p addr v) s = .next (wordWrite
       p addr.toNat v s)) ∧
     (∀ (p : Path) (pg : Fin 1024) (v : Word), pathUp s p = true → exec (.softReset p pg v) s = .next (busWrite p
       (pg.val * 4096 + 8) (v ||| 2) s)) ∧
     (∀ (p : Path) (pg : Fin 1024), pathUp s p = true → pgUp pg.val → exec (.pageLock p pg) s = .next (lockPart p
       pg.val s)) ∧
     (∀ (p : Path) (pg : Fin 1024), pathUp s p = true → pgUp pg.val → exec (.enableSet p pg) s = .next (pgPart p
       pg.val (enableBlock pg.val) s)) ∧
     (∀ (p : Path) (pg : Fin 1024), pathUp s p = true → pgUp pg.val → exec (.enableClear p pg) s = .next (pgPart p
       pg.val (disableBlock pg.val) s)) ∧
     (∀ (p : Path) (pg : Fin 1024), pathUp s p = true → pgUp pg.val → exec (.auto p pg) s = .next (pgPart p pg.val
       (spareSelWrite pg.val 0) s)) ∧
     (∀ (p : Path) (pg : Fin 1024), pathUp s p = true → pgUp pg.val → exec (.forceSpare p pg) s = .next (pgPart p
       pg.val (spareSelWrite pg.val 1) s)) ∧
     (∀ (p : Path) (pg : Fin 1024), pathUp s p = true → pgUp pg.val → exec (.forcePrimary p pg) s = .next (pgPart p
       pg.val (spareSelWrite pg.val 2) s)) ∧
     (∀ (p : Path) (pg : Fin 1024), pathUp s p = true → pgUp pg.val → exec (.inhibit p pg) s = .next (pgPart p pg.val
       (spareSelWrite pg.val 3) s)) ∧
     (∀ (v : Word), up .sys → exec (.swrst v) s = .next (swrst v s)) ∧
     (∀ (on : Bool), up .sys → exec (.standAside on) s = .next (standAsideWrite on s)) ∧
     (∀ (on : Bool), up .sys → exec (.release on) s = .next (releaseWrite on s)) ∧
     (∀ (p : Path) (addr : Word) (v : Word), pathUp s p = true → exec (.apertureWrite p addr v) s = .next
       (apertureWord_ p addr.toNat v s)) ∧
     (∀ (p : Path) (q : Fin 124), pathUp s p = true → up .seq → exec (.loadCommit p q) s = .next (commitReg (pathNo
       p) (controlBase q.val) s)) ∧
     (∀ (p : Path) (q : Fin 124), pathUp s p = true → up .seq → exec (.loadDiscard p q) s = .next ((discardStore
       (pathNo p) (controlBase q.val) s).2)) ∧
     (∀ (p : Path) (u : EnvUnit), pathUp s p = true → up .drv → exec (.envCommit p u) s = .next (commitReg (pathNo p)
       (envBase u) s)) ∧
     (∀ (p : Path) (u : EnvUnit), pathUp s p = true → up .drv → exec (.envDiscard p u) s = .next ((discardStore
       (pathNo p) (envBase u) s).2)) ∧
     (∀ (p : Path) (n : Fin 16) (u : Fin 2), pathUp s p = true → up .rdi → exec (.wtCommit p n u) s = .next
       (commitReg (pathNo p) (weightBase n.val u.val) s))) ∧
     ((∀ (p : Path) (n : Fin 16) (u : Fin 2), pathUp s p = true → up .rdi → exec (.wtDiscard p n u) s = .next
       ((discardStore (pathNo p) (weightBase n.val u.val) s).2)) ∧
     (∀ (p : Path), pathUp s p = true → up .mortar → exec (.graphCommit p) s = .next ((commitGraph (pathNo p) (reg s
       .mortar 0 0x064) s).2)) ∧
     (∀ (p : Path), pathUp s p = true → up .mortar → exec (.graphDiscard p) s = .next ((discardGraph (pathNo p) s).2)) ∧
     (∀ (v : Option Word), up .nvm → exec (.vimgDataAccess v) s = .next (vimgAccess v s)) ∧
     (up .nvm → exec .verify s = .next (vimgVerify s)) ∧
     (∀ (keyReport : Bool) (sigReport : Bool), up .nvm → exec (.verifyComplete keyReport sigReport) s = .next
       (vimgVerified s)) ∧
     (up .nvm → exec .install s = .next (vimgInstall s)) ∧
     (∀ (ok : Bool), up .nvm → exec (.installComplete ok) s = .next (vimgInstalled ok s)) ∧
     (up .nvm → exec .load s = .next (vimgLoad s)) ∧
     (up .nvm → exec .vimgDiscard s = .next (vimgDiscard s)) ∧
     (∀ (q : Fin 124) (mode : Bool), up .seq → exec (.seqModeWrite q mode) s = .next (seqModeWrite q.val mode s)) ∧
     (∀ (m : Fin 8), up .seq → exec (.shotGo m) s = .next (shotGo m.val s)) ∧
     (∀ (m : Fin 8), up .seq → exec (.selfStart m) s = .next (selfStart m.val s)) ∧
     (up .seq → exec .syncLine s = .next (syncLine s)) ∧
     (∀ (g : Fin 8), up .seq → exec (.shotOpen g) s = .next (shotOpen g.val s)) ∧
     (∀ (g : Fin 8), up .seq → exec (.shotClose g) s = .next (shotClose g.val s)) ∧
     (∀ (g : Fin 8), up .seq → exec (.shotBoundary g) s = .next (shotBoundary g.val s)) ∧
     (∀ (q : Fin 124), up .seq → exec (.wordSeq q) s = .next (wordSeq q.val s)) ∧
     (∀ (q : Fin 124), up .seq → exec (.wordJump q) s = .next (wordJump q.val s)) ∧
     (∀ (q : Fin 124), up .seq → exec (.wordBr q) s = .next (wordBr q.val s)) ∧
     (∀ (q : Fin 124), up .seq → exec (.wordCall q) s = .next (wordCall q.val s)) ∧
     (∀ (q : Fin 124), up .seq → exec (.wordRet q) s = .next (wordRet q.val s)) ∧
     (∀ (q : Fin 124), up .seq → exec (.wordLoop q) s = .next (wordLoop q.val s)) ∧
     (∀ (q : Fin 124), up .seq → exec (.wordEnd q) s = .next (wordEnd q.val s)) ∧
     (∀ (q : Fin 124), up .seq → exec (.loopPush q) s = .next (loopPush q.val s))) ∧
     ((∀ (q : Fin 124), up .seq → exec (.loopBreak q) s = .next (loopBreak q.val s)) ∧
     (∀ (q : Fin 124), up .seq → exec (.waitExpiry q) s = .next (waitExpiry q.val s)) ∧
     (∀ (q : Fin 124), up .seq → exec (.decisionWaitEnd q) s = .next (decisionWaitEnd q.val s)) ∧
     (∀ (q : Fin 124), up .seq → exec (.eventWaitEnd q) s = .next (eventWaitEnd q.val s)) ∧
     (∀ (q : Fin 124), up .seq → exec (.markWaitEnd q) s = .next (markWaitEnd q.val s)) ∧
     (∀ (q : Fin 124), up .seq → exec (.waitTimeout q) s = .next (waitTimeout q.val s)) ∧
     (∀ (q : Fin 64) (port : Fin 8), up .seq → exec (.drivePulse q port) s = .next (drivePulse q.val port.val s)) ∧
     (∀ (q : Fin 80) (port : Fin 32), up .seq → exec (.addA q port) s = .next (phaseOp q.val port.val 1 s)) ∧
     (∀ (q : Fin 80) (port : Fin 32), up .seq → exec (.addB q port) s = .next (phaseOp q.val port.val 2 s)) ∧
     (∀ (q : Fin 80) (port : Fin 32), up .seq → exec (.subA q port) s = .next (phaseOp q.val port.val 3 s)) ∧
     (∀ (q : Fin 80) (port : Fin 32), up .seq → exec (.setA q port) s = .next (phaseOp q.val port.val 4 s)) ∧
     (∀ (q : Fin 80) (port : Fin 32), up .seq → exec (.zeroAcc q port) s = .next (phaseOp q.val port.val 5 s)) ∧
     (∀ (q : Fin 80) (port : Fin 32), up .seq → exec (.addSw q port) s = .next (phaseOp q.val port.val 6 s)) ∧
     (∀ (g : Fin 32) (port : Fin 8), up .seq → exec (.play g port) s = .next (fluxOp g.val port.val 1 s)) ∧
     (∀ (g : Fin 32) (port : Fin 8), up .seq → exec (.playHold g port) s = .next (fluxOp g.val port.val 2 s)) ∧
     (∀ (g : Fin 32) (port : Fin 8), up .seq → exec (.step g port) s = .next (fluxOp g.val port.val 3 s)) ∧
     (∀ (g : Fin 32) (port : Fin 8), up .seq → exec (.park g port) s = .next (fluxOp g.val port.val 4 s)) ∧
     (∀ (q : Fin 112), up .seq → exec (.swr q) s = .next (sweepReload q.val s)) ∧
     (∀ (q : Fin 112), up .seq → exec (.swp q) s = .next (sweepStep q.val s)) ∧
     (∀ (q : Fin 120), up .seq → exec (.evtFire q) s = .next (evtFire q.val s)) ∧
     (∀ (m : Fin 8), up .seq → exec (.markEn m) s = .next (markEn m.val s)) ∧
     (∀ (m : Fin 8), up .seq → exec (.calwin m) s = .next (calwin m.val s)) ∧
     (∀ (m : Fin 8), up .seq → exec (.tbusStart m) s = .next (tbusStart m.val s)) ∧
     (∀ (m : Fin 8), up .seq → exec (.ringTrig m) s = .next (ringTrig m.val s)) ∧
     (∀ (n : Fin 16), up .seq → exec (.windowArm n) s = .next (windowArm n.val s))) ∧
     ((∀ (n : Fin 16), up .seq → exec (.probePulse n) s = .next (probePulse n.val s)) ∧
     (∀ (q : Fin 124), up .seq → exec (.branchResolve q) s = .next (branchResolve q.val s)) ∧
     (∀ (q : Fin 124), up .seq → exec (.commitGateResolution q) s = .next (commitGate q.val s)) ∧
     (∀ (q : Fin 124), up .seq → exec (.segmentPlay q) s = .next (segmentPlay q.val s)) ∧
     (∀ (q : Fin 124), up .seq → exec (.segmentDecide q) s = .next (segmentDecide q.val s)) ∧
     (∀ (q : Fin 124) (target : BitVec 12), up .seq → exec (.segJump q target) s = .next (softRequest q.val (.jump
       target.toNat) s)) ∧
     (∀ (q : Fin 124), up .seq → exec (.segStop q) s = .next (softRequest q.val .stop s)) ∧
     (∀ (out : Fin 80) (tone : Fin 34), up .drv → exec (.portActionDue out tone) s = .next (portActionDue out.val
       tone.val s)) ∧
     (∀ (o : Fin 256), up .flx → exec (.fluxActionDue o) s = .next (fluxActionDue o.val s)) ∧
     (∀ (d : Fin 512), up .rdi → exec (.windowArmDue d) s = .next (windowArmDue d.val s)) ∧
     (∀ (d : Fin 512) (lead : List (BitVec 12)) (raw : List (BitVec 12)), up .rdi → exec (.windowClose d lead raw) s
       = .next (windowClose d.val lead raw s)) ∧
     (∀ (d : Fin 512), up .ladle → exec (.resultDue d) s = .next (resultArrives d.val s)) ∧
     (∀ (d : Fin 512), up .ladle → exec (.armCopyDue d) s = .next (armCopyDue d.val s)) ∧
     (up .ladle → exec .frameUpdateDue s = .next (frameUpdateDue s)) ∧
     (∀ (c : Fin 64), up .ladle → exec (.broadcastDue c) s = .next (broadcastDue c.val s)) ∧
     (∀ (g : Fin 8), up .seq → exec (.markDue g) s = .next (markDue g.val s)) ∧
     (∀ (i : Fin 192), up .evt → exec (.taskActivation i) s = .next (taskActivation i.val s)) ∧
     (∀ (out : Fin 80) (strm : Fin 8) (samples : Nat), up .drv → exec (.refillData out strm samples) s = .next
       (refillData out.val strm.val samples s)) ∧
     (∀ (out : Fin 80) (strm : Fin 8) (report : Nat), up .drv → exec (.refillUnderrun out strm report) s = .next
       (refillUnderrun out.val strm.val s)) ∧
     (∀ (out : Fin 80) (on : Bool), up .drv → exec (.mute out on) s = .next (muteWrite out.val on s)) ∧
     (∀ (o : Fin 256) (on : Bool), up .flx → exec (.parkNow o on) s = .next (parkNowWrite o.val on s)) ∧
     (∀ (out : Fin 80) (tone : Fin 34) (mismatch : Bool), up .drv → exec (.toneVerify out tone mismatch) s = .next
       (toneVerify out.val tone.val mismatch s)) ∧
     (∀ (out : Fin 336), up .drv → exec (.dacFault out) s = .next (dacFaultAt out.val s)) ∧
     (∀ (n : Fin 16), up .rdi → exec (.adcFault n) s = .next (adcFaultAt n.val s)) ∧
     (∀ (o : Fin 256), up .flx → exec (.rampDone o) s = .next (rampDone o.val s))) ∧
     ((∀ (o : Fin 256), alive s = true → exec (.parkHandover o) s = .next (parkHandover o.val s)) ∧
     (∀ (o : Fin 256), up .flx → exec (.pdClr o) s = .next (pdClrWrite o.val s)) ∧
     (∀ (n : Fin 16) (resid : Residuals) (ofs : BitVec 16) (gain : BitVec 16) (skew : BitVec 16), up .rdi → exec
       (.shadowStep n resid ofs gain skew) s = .next (shadowStep n.val resid.spare.toNat ofs.toNat gain.toNat
       skew.toNat resid.pos.val resid.active.toNat s)) ∧
     (∀ (n : Fin 16), up .rdi → exec (.handover n) s = .next (handoverAt n.val s)) ∧
     (∀ (v : Word), up .ladle → exec (.slotBindWrite v) s = .next (slotBindWrite v s)) ∧
     (∀ (v : Word), up .ladle → exec (.slotCfgWrite v) s = .next (slotCfgWrite v s)) ∧
     (up .ladle → exec .clrEntries s = .next (clrEntriesNow s)) ∧
     (up .ladle → exec .clrLost s = .next (clrLost s)) ∧
     (∀ (idx : Fin 256) (v : Word), up .ladle → exec (.dchWrite idx v) s = .next (dchWrite idx.val v s)) ∧
     (up .ladle → exec .resend s = .next (resendAll s)) ∧
     (∀ (channel : Bool) (idx : Fin 512), up .ladle → exec (.tableParity channel idx) s = .next (tableParity channel
       idx.val s)) ∧
     (∀ (k : Fin 4) (v : Word), up .evt → exec (.evtFireWrite k v) s = .next (fireWrite k.val v s)) ∧
     (∀ (k : Fin 4) (v : Word), up .evt → exec (.lineDisWrite k v) s = .next (lineDisWrite k.val v s)) ∧
     (∀ (slot : Fin 512), up .mortar → exec (.detectionInputDue slot) s = .next (detectionInputDue slot.val s)) ∧
     (up .mortar → exec .roundClose s = .next (roundClose s)) ∧
     (up .mortar → exec .decodeWindowComplete s = .next (decodeWindowComplete s)) ∧
     (∀ (largest : Nat) (slack : Nat) (abandoned : List (Nat × Nat)), up .mortar → exec (.windowOutputIssue largest
       slack abandoned) s = .next (windowOutputIssue largest slack abandoned s)) ∧
     (∀ (t : Fin 17) (ok : Bool), up .mortar → exec (.testDecode t ok) s = .next (testDecode t.val ok s)) ∧
     (∀ (t : Fin 17), up .mortar → exec (.tileParity t) s = .next (tileParity t.val s)) ∧
     (up .mortar → exec .graphParity s = .next (graphParity s)) ∧
     (∀ (u : Fin 8), up .cap → exec (.arm u) s = .next (armUnit u.val s)) ∧
     (∀ (u : Fin 8), up .cap → exec (.abort u) s = .next (abortUnit u.val s)) ∧
     (∀ (u : Fin 8), up .cap → exec (.clrCnt u) s = .next (clrCapCounts u.val s)) ∧
     (∀ (u : Fin 8), up .cap → exec (.triggerSample u) s = .next (triggerSample u.val s)) ∧
     (∀ (u : Fin 8) (src : BitVec 48) (h : Hit), up .cap → exec (.hitDue u src h) s = .next (hitDue u.val src h s))) ∧
     ((∀ (u : Fin 8) (src : BitVec 48) (bytes : List Byte), up .cap → exec (.sourceItem u src bytes) s = .next
       (sourceItem u.val src bytes s)) ∧
     (∀ (u : Fin 8), up .cap → exec (.preFilled u) s = .next (preFilled u.val s)) ∧
     (∀ (u : Fin 8), up .cap → exec (.captureComplete u) s = .next (captureComplete u.val s)) ∧
     (∀ (u : Fin 8), up .cap → exec (.recordRelease u) s = .next (recordRelease u.val s)) ∧
     (∀ (u : Fin 8), up .cap → exec (.recordSend u) s = .next (recordSend u.val s)) ∧
     (∀ (u : Fin 8), up .cap → exec (.egrEnable u) s = .next (egrEnable u.val s)) ∧
     (up .pantry → exec .portAdmit s = .next (admitPort s)) ∧
     (up .pantry → exec .portRelease s = .next (releaseNow s)) ∧
     (∀ (k : Fin 9) (v : Word), up .pantry → exec (.mapWrite k v) s = .next (mapMaskWrite k.val v s)) ∧
     (∀ (port : Fin 97) (addr : BitVec 35) (write : Option (List Byte)), up .pantry → exec (.pantryRequest port addr
       write) s = .next (pantryRequest port.val addr.toNat write s)) ∧
     (∀ (id : Nat), up .pantry → exec (.escalation id) s = .next (escalation id s)) ∧
     (∀ (id : Nat), up .pantry → exec (.deadlineMiss id) s = .next (deadlineMiss id s)) ∧
     (∀ (ch : Fin 32) (postponed : Bool), up .pantry → exec (.bankRefresh ch postponed) s = .next (bankRefresh ch.val
       postponed s)) ∧
     (∀ (ch : Fin 32) (margin : BitVec 16) (temp : BitVec 8) (full : Bool), up .pantry → exec (.retrainSlot ch margin
       temp full) s = .next (trainSlot ch.val margin.toNat temp.toNat full s)) ∧
     (∀ (ch : Fin 32), up .pantry → exec (.retirementStart ch) s = .next (retirementStart ch.val s)) ∧
     (∀ (ch : Fin 32), up .pantry → exec (.evacuationDone ch) s = .next (if s.evac = some ch.val then evacuationDone
       s else s)) ∧
     (∀ (ch : Fin 32), up .pantry → exec (.channelLoss ch) s = .next (channelLoss ch.val s)) ∧
     (∀ (n : Fin 20), up .lane → exec (.slip n) s = .next (slip n.val s)) ∧
     (∀ (n : Fin 20), up .lane → exec (.restart n) s = .next (restart n.val s)) ∧
     (∀ (n : Fin 20), up .lane → exec (.prbsClr n) s = .next (prbsClr n.val s)) ∧
     (∀ (n : Fin 20), receiving s = true → exec (.los n) s = .next (los n.val s)) ∧
     (∀ (n : Fin 20), receiving s = true → exec (.signalReturn n) s = .next (signalReturn n.val s)) ∧
     (∀ (n : Fin 20) (snr : BitVec 16), receiving s = true → exec (.rxReady n snr) s = .next (rxReady n.val snr.toNat
       s)) ∧
     (∀ (n : Fin 20), receiving s = true → exec (.prbsLock n) s = .next (prbsLock n.val s)) ∧
     (∀ (n : Fin 20) (bits : Nat) (errs : Nat), receiving s = true → exec (.prbsUnlock n bits errs) s = .next
       (prbsUnlock n.val bits errs s))) ∧
     ((∀ (n : Fin 20), receiving s = true → exec (.lockAcquire n) s = .next (lockAcquire n.val s)) ∧
     (∀ (n : Fin 20), receiving s = true → exec (.lockLoss n) s = .next (lockLoss n.val s)) ∧
     (∀ (n : Fin 20), up .lane → exec (.autoAlignSlip n) s = .next (autoAlignSlip n.val s)) ∧
     (∀ (n : Fin 20), up .lane → exec (.swapStart n) s = .next (swapStart n.val s)) ∧
     (∀ (port : Fin 4) (lane : Fin 4), up .lane → exec (.swapReq port lane) s = .next (swapReq port.val lane.val s)) ∧
     (∀ (port : Fin 4) (lane : Fin 4), up .lane → exec (.swapReqAbrupt port lane) s = .next (swapReqAbrupt port.val
       lane.val s)) ∧
     (∀ (port : Fin 4), up .lane → exec (.swapReady port) s = .next (swapReady port.val s)) ∧
     (∀ (port : Fin 4) (cause : Fin 4), up .lane → exec (.swapAbort port cause) s = .next (swapAbort port.val s)) ∧
     (∀ (port : Fin 4), up .lane → exec (.swapSwitch port) s = .next (swapSwitch port.val s)) ∧
     (∀ (port : Fin 4) (skew : Bool), up .lane → exec (.swapTimeout port skew) s = .next (swapTimeout port.val skew s)) ∧
     (∀ (n : Fin 20), up .lane → exec (.laneFail n) s = .next (laneFail n.val s)) ∧
     (∀ (port : Fin 4), up .lane → exec (.abruptSwitch port) s = .next (abruptSwitch port.val s)) ∧
     (∀ (r : Fin 2) (w : BitVec 128), up .ring → exec (.laneFrame r w) s = .next (laneFrame r.val w s)) ∧
     (∀ (r : Fin 2) (f : BitVec 256), up .ring → exec (.decisionFlit r f) s = .next (rxFlit r.val [1] f 0 s)) ∧
     (∀ (r : Fin 2) (f : BitVec 256), up .ring → exec (.syndromeEvents r f) s = .next (rxFlit r.val (if nbit f.toNat
       48 then [] else [2]) f 0 s)) ∧
     (∀ (r : Fin 2) (f : BitVec 256), up .ring → exec (.syndromeCorrections r f) s = .next (rxFlit r.val (if nbit
       f.toNat 48 then [2] else []) f 0 s)) ∧
     (∀ (r : Fin 2) (f : BitVec 256), up .ring → exec (.triggerFlit r f) s = .next (rxFlit r.val [3] f 0 s)) ∧
     (∀ (r : Fin 2) (f : BitVec 256), up .ring → exec (.lossFlit r f) s = .next (rxFlit r.val [4] f 0 s)) ∧
     (∀ (r : Fin 2) (f : BitVec 256), up .ring → exec (.bulkFlit r f) s = .next (takeInbox (rxFlit r.val [5] f 0 s))) ∧
     (∀ (r : Fin 2) (f : BitVec 256), up .ring → exec (.idleFlit r f) s = .next (rxFlit r.val [0] f 0 s)) ∧
     (∀ (r : Fin 2) (report : Bool), up .ring → exec (.flitSend r report) s = .next (flitSend r.val s)) ∧
     (∀ (r : Fin 2), up .ring → exec (.replayTimeout r) s = .next (replayTimeout r.val s)) ∧
     (∀ (r : Fin 2), up .ring → exec (.graceExpiry r) s = .next (graceExpiry r.val s)) ∧
     (∀ (h : Fin 2) (hd : DxHead) (addr : Word) (bytes : List Byte), up .host → exec (.regWrite h hd addr bytes) s =
       .next (request h.val hd 1 addr.toNat bytes.length bytes s)) ∧
     (∀ (h : Fin 2) (hd : DxHead) (addr : Word) (len : Nat), up .host → exec (.regRead h hd addr len) s = .next
       (request h.val hd 2 addr.toNat len [] s))) ∧
     ((∀ (h : Fin 2) (hd : DxHead) (space : BitVec 8) (index : BitVec 16) (off : Word) (bytes : List Byte), up .host →
       exec (.storeWrite h hd space index off bytes) s = .next (request h.val hd 3 (storeAddr space index off)
       bytes.length bytes s)) ∧
     (∀ (h : Fin 2) (hd : DxHead) (space : BitVec 8) (index : BitVec 16) (bytes : List Byte), up .host → exec
       (.storeCommit h hd space index bytes) s = .next (request h.val hd 4 (storeAddr space index 0) bytes.length
       bytes s)) ∧
     (∀ (h : Fin 2) (hd : DxHead) (space : BitVec 8) (index : BitVec 16), up .host → exec (.storeDiscard h hd space
       index) s = .next (request h.val hd 5 (storeAddr space index 0) 0 [] s)) ∧
     (∀ (h : Fin 2) (hd : DxHead) (space : BitVec 8) (index : BitVec 16) (off : Word) (len : Nat), up .host → exec
       (.storeRead h hd space index off len) s = .next (request h.val hd 6 (storeAddr space index off) len [] s)) ∧
     (∀ (h : Fin 2) (hd : DxHead) (addr : BitVec 64) (bytes : List Byte), up .host → exec (.pantryWrite h hd addr
       bytes) s = .next (request h.val hd 7 addr.toNat bytes.length bytes s)) ∧
     (∀ (h : Fin 2) (hd : DxHead) (addr : BitVec 64) (len : Nat), up .host → exec (.pantryRead h hd addr len) s =
       .next (request h.val hd 8 addr.toNat len [] s)) ∧
     (∀ (h : Fin 2) (op : BitVec 8), up .host → exec (.moduleOnlyFrame h op) s = .next (moduleOnlyFrame h.val
       op.toNat s)) ∧
     (∀ (h : Fin 2), up .host → exec (.credit h) s = .next (credit h.val s)) ∧
     (∀ (h : Fin 2) (msgid : BitVec 8), up .host → exec (.unreach h msgid) s = .next (unreach h.val msgid.toNat s)) ∧
     (∀ (h : Fin 2) (src : BitVec 48) (ip : Word), up .host → exec (.arpRequest h src ip) s = .next (arpRequest h.val
       src ip s)) ∧
     (∀ (h : Fin 2) (src : BitVec 48) (ip : BitVec 128), up .host → exec (.neighbourSolicitation h src ip) s = .next
       (neighbourSolicitation h.val src ip s)) ∧
     (∀ (h : Fin 2) (mode : BitVec 2), up .host → exec (.hostModeWrite h mode) s = .next (hostModeWrite h.val
       mode.toNat s)) ∧
     (∀ (h : Fin 2), up .host → exec (.linkFail h) s = .next (linkFail h.val s)) ∧
     (∀ (h : Fin 2) (m : PtpMsg) (twoStep : Bool), up .host → exec (.ptpSync h m twoStep) s = .next (ptpSync h.val m
       twoStep s)) ∧
     (∀ (h : Fin 2) (m : PtpMsg), up .host → exec (.followUp h m) s = .next (followUp h.val m s)) ∧
     (∀ (h : Fin 2) (m : PtpMsg), up .host → exec (.delayReq h m) s = .next (delayReq h.val m s)) ∧
     (∀ (h : Fin 2) (m : PtpMsg), up .host → exec (.delayResp h m) s = .next (delayResp h.val m s)) ∧
     (∀ (h : Fin 2) (m : PtpMsg), up .host → exec (.pdelayReq h m) s = .next (pdelayReq h.val m s)) ∧
     (∀ (h : Fin 2) (m : PtpMsg), up .host → exec (.pdelayResp h m) s = .next (pdelayResp h.val m s)) ∧
     (∀ (h : Fin 2) (m : PtpMsg), up .host → exec (.pdelayRespFollowUp h m) s = .next (pdelayRespFollowUp h.val m s)) ∧
     (∀ (h : Fin 2) (bytes : List Byte), up .host → exec (.announce h bytes) s = .next (ptpQueue h.val bytes s)) ∧
     (∀ (h : Fin 2) (bytes : List Byte), up .host → exec (.signaling h bytes) s = .next (ptpQueue h.val bytes s)) ∧
     (∀ (h : Fin 2) (bytes : List Byte), up .host → exec (.management h bytes) s = .next (ptpQueue h.val bytes s)) ∧
     (∀ (h : Fin 2), up .host → exec (.syncInterval h) s = .next (syncInterval h.val s)) ∧
     (∀ (h : Fin 2) (tx : Int), up .host → exec (.delayReqInterval h tx) s = .next (delayReqInterval h.val tx s))) ∧
     ((∀ (h : Fin 2), up .host → exec (.announceInterval h) s = .next (announceInterval h.val s)) ∧
     (∀ (src : Fin 3), up .time → exec (.syncTimeout src) s = .next (syncTimeout src.val s)) ∧
     (∀ (h : Fin 2), up .time → exec (.rxqPop h) s = .next (rxqPop h.val s)) ∧
     (∀ (r : Fin 2) (f : BitVec 256) (rx : Int), up .ring → exec (.ringSync r f rx) s = .next (rxFlit r.val
       (timeTypes 0 f) f rx s)) ∧
     (∀ (r : Fin 2) (f : BitVec 256) (rx : Int), up .ring → exec (.ringDelayReq r f rx) s = .next (rxFlit r.val
       (timeTypes 1 f) f rx s)) ∧
     (∀ (r : Fin 2) (f : BitVec 256) (rx : Int), up .ring → exec (.ringDelayResp r f rx) s = .next (rxFlit r.val
       (timeTypes 2 f) f rx s)) ∧
     (∀ (r : Fin 2) (f : BitVec 256) (rx : Int), up .ring → exec (.ringPdelayReq r f rx) s = .next (rxFlit r.val
       (timeTypes 3 f) f rx s)) ∧
     (∀ (r : Fin 2) (f : BitVec 256) (rx : Int), up .ring → exec (.ringPdelayResp r f rx) s = .next (rxFlit r.val
       (timeTypes 4 f) f rx s)) ∧
     (up .ring → exec .ringSyncInterval s = .next (ringSyncInterval s)) ∧
     (up .ring → exec .ringPdelayInterval s = .next (ringPdelayInterval s)) ∧
     (up .time → exec .align s = .next (alignArm s)) ∧
     (∀ (offset : Int) (report : Bool), up .time → exec (.syncEdge offset report) s = .next (syncEdge offset s)) ∧
     (up .time → exec .syncAbsent s = .next (syncAbsent s)) ∧
     (exec .refLoss s = .next (refLoss s)) ∧
     (exec .refReturn s = .next (refReturn s)) ∧
     (up .time → exec .mtStep s = .next (mtStep s)) ∧
     (∀ (p : Path) (hi : Word), pathUp s p = true → exec (.incCommit p hi) s = .next (wordWrite p 0x8064 hi s)) ∧
     (up .time → exec .servoRst s = .next (servoRst s)) ∧
     (∀ (v : Word), up .time → exec (.servoOfs v) s = .next (servoOfs v s)) ∧
     (∀ (p : Path), pathUp s p = true → up .time → exec (.mtRead p) s = .next (mtRead p s)) ∧
     (∀ (p : Path) (k : Fin 8), pathUp s p = true → up .time → exec (.tsuRead p k) s = .next (tsuRead p k.val s)) ∧
     (∀ (k : Fin 4), up .time → exec (.cmpFire k) s = .next (cmpFire k.val s)) ∧
     (∀ (lines : BitVec 8) (hold : Bool), up .tbus → exec (.tbusCycle lines hold) s = .next (tbusCycle lines hold s)) ∧
     (up .tbus → exec .holdStuck s = .next (holdStuck s)) ∧
     (∀ (slot : Fin 64) (v : Word), up .crc → exec (.ctxCfgWrite slot v) s = .next (ctxCfgWrite slot.val v s))) ∧
     ((∀ (slot : Fin 64) (v : Word), up .crc → exec (.ctxData slot v) s = .next (ctxData slot.val v s)) ∧
     (∀ (eng : Fin 4) (v : Word), up .crc → exec (.crcWindowWrite eng v) s = .next (crcWindowWrite eng.val v s)) ∧
     (∀ (slot : Fin 64) (v : Word), up .crc → exec (.ctxValWrite slot v) s = .next (ctxValWrite slot.val v s)) ∧
     (∀ (k : Fin 16), up .cal → exec (.submit k) s = .next (submit k.val s)) ∧
     (∀ (k : Fin 16), up .cal → exec (.clear k) s = .next (clearSlot k.val s)) ∧
     (∀ (k : Fin 16), up .cal → exec (.cancel k) s = .next (cancelSlot k.val s)) ∧
     (∀ (r0 : Word) (r1 : Word) (qual : BitVec 16), up .cal → exec (.calSegmentDone r0 r1 qual) s = .next
       (calSegmentDone r0 r1 qual.toNat s)) ∧
     (∀ (k : Fin 16), up .cal → exec (.attemptTimeout k) s = .next (attemptTimeout k.val s)) ∧
     (∀ (k : Fin 16) (r0 : Word) (r1 : Word) (qual : BitVec 16), up .cal → exec (.backgroundPassDone k r0 r1 qual) s
       = .next (backgroundPassDone k.val r0 r1 qual.toNat s)) ∧
     (∀ (resid : BitVec 16), up .cal → exec (.referenceCheck resid) s = .next (referenceCheck resid.toNat s)) ∧
     (∀ (raw : BitVec 18), up .monadc → exec (.conversion raw) s = .next (conversion raw s)) ∧
     (∀ (raw : BitVec 18), up .monadc → exec (.housekeepingConversion raw) s = .next (housekeeping raw s)) ∧
     (∀ (k : Fin 4) (raw : BitVec 18), up .monadc → exec (.urgentConversion k raw) s = .next (urgentConversion k.val
       raw s)) ∧
     (up .monadc → exec .zero s = .next (scalZero s)) ∧
     (up .monadc → exec .full s = .next (scalFull s)) ∧
     (∀ (mean : BitVec 18), up .monadc → exec (.scalMeasureDone mean) s = .next (scalDone mean s)) ∧
     (∀ (readings : List Int), readings.length = 24 → up .therm → exec (.trivetUpdate readings) s = .next
       (trivetUpdate readings s)) ∧
     (∀ (site : Fin 24) (prim : BitVec 16) (spare : BitVec 16), up .therm → exec (.diodeCrosscheck site prim spare) s
       = .next (diodeCrosscheck site.val prim.toInt spare.toInt s)) ∧
     (up .therm → exec .freezeTimeout s = .next (freezeTimeout s)) ∧
     (up .therm → exec .throttleUp s = .next (throttleUp s)) ∧
     (up .therm → exec .throttleDown s = .next (throttleDown s)) ∧
     (alive s = true → exec .shutdownExit s = .next (shutdownExit s)) ∧
     (∀ (d : Fin 48), up .pwr → exec (.phaseFail d) s = .next (phaseFail d.val s)) ∧
     (∀ (d : Fin 48), up .pwr → exec (.domainTrip d) s = .next (domainTrip d.val s)) ∧
     (up .pwr → exec .shedDwell s = .next (shedDwell s))) ∧
     ((up .pwr → exec .shedHold s = .next (shedHold s)) ∧
     (∀ (g : Fin 8), up .pwr → exec (.shedWait g) s = .next (shedWait g.val s)) ∧
     (∀ (mv : BitVec 16), up .pwr → exec (.vinThreshold mv) s = .next (vinThreshold mv.toNat s)) ∧
     (alive s = true → exec .brownoutRestart s = .next (brownoutRestart s)) ∧
     (up .pwr → exec .overVoltage s = .next (overVoltage s)) ∧
     (∀ (v : Word), up .health → exec (.hmClear v) s = .next (hmClear v s)) ∧
     (∀ (u : Fin 32) (v : Word), up .health → exec (.hmCfgWrite u v) s = .next (hmCfgWrite u.val v s)) ∧
     (up .spare → exec .wearHour s = .next (wearHour s)) ∧
     (up .spare → exec .mapClear s = .next (mapClear s)) ∧
     (up .spare → exec .mapRead s = .next (mapRead s)) ∧
     (up .nvm → exec .logRead s = .next (logRead s)) ∧
     (∀ (v : Word), up .nvm → exec (.logClear v) s = .next (logClear v s)) ∧
     (∀ (pg : Fin 1024), alive s = true → exec (.softResetDone pg) s = .next (softResetDone pg.val s)) ∧
     (exec .targetResetDone s = .next (targetDone s)) ∧
     (∀ (ok : Bool) (bad : Failures), alive s = true → exec (.startupPhaseDone ok bad) s = .next (startupPhaseDone ok
       bad.channels (bad.rows.map (·.toNat)) s)) ∧
     (up .mgmt → exec .ibiDelivered s = .next (ibiDelivered s)) ∧
     (∀ (id : Nat) (ecc : EccReport), up .pantry → exec (.pantryRequestDone id ecc) s = .next (requestServed id
       ecc.corr.toNat ecc.retries.val ecc.uncorr s)) ∧
     (∀ (h : Fin 2) (tag : BitVec 16), up .host → exec (.pantryReadTimeout h tag) s = .next (pantryReadTimeout h.val
       tag.toNat s)) ∧
     (∀ (n : Fin 20) (snr : BitVec 16) (eye : Word), receiving s = true → exec (.laneSnrUpdate n snr eye) s = .next
       (laneSnrUpdate n.val snr.toNat eye s)) ∧
     (∀ (n : Fin 16) (below : Nat), up .rdi → exec (.inputQuiet n below) s = .next (inputQuiet n.val below s)) ∧
     (∀ (n : Fin 16), up .rdi → exec (.inputOverrange n) s = .next (inputOverrange n.val s)) ∧
     (∀ (h : Fin 2) (hd : DxHead) (op : BitVec 8) (addr : BitVec 64), up .host → exec (.badOpRequest h hd op addr) s
       = .next (badOpRequest h.val hd op.toNat addr.toNat s)) ∧
     (∀ (h : Fin 2) (why : Discard), up .host → exec (.hostFrameDiscard h why) s = .next (hostFrameDiscard h.val why
       s)) ∧
     (∀ (u : Fin 32) (v : Word), up .health → exec (.hmInterval u v) s = .next (hmInterval u.val v s))))

/-- R47, R56, R64, R480: power-on, loss of power, RST_N, SWRST and the restarts reset the module: every register
outside SYS.RESET_CAUSE, the MGMT page and the flux pages takes its reset value, time is zero, start-up begins in
phase 1 (phase 2 after a restart, whose first phase has passed, so that the demand of the SHED_N pin acts at once),
the cause is recorded, and the stores are kept or given up as R56's table says. The event log and the spare map, in
NVM, are kept. It states the completion of: powerOn, powerLoss, rstNAssert, swrst, shutdownExit, brownoutRestart,
rstNRelease. -/
def Obligations.ModuleResetsFollowTheirTable : Prop :=
  ∀ s : State, let lost (t : State) : Prop := t.stores = [] ∧ t.committed = []
    let begun (ph : Nat) (t : State) : Prop :=
      (∀ a, a ≠ addrOf .sys 0 0x050 → a ≠ addrOf .sys 0 0x04C → a ≠ addrOf .nvm 0 0x10C → a / 4096 ≠ ptBase .mgmt →
        ¬ (ptBase .flx ≤ a / 4096 ∧ a / 4096 < ptBase .flx + 32) → getReg t a = regReset a) ∧
      phase t = ph ∧ rdBit t .sys 0 0x04C 31 = false ∧ t.clk = {} ∧ t.pantry = [] ∧ t.i3c = {} ∧
      t.evLog = s.evLog ∧ t.spareMap = s.spareMap ∧ t.pending = s.pending
    (∀ straps : BitVec 4, s.boot.powered = false → Gives (.powerOn straps) s (fun t => begun 1 t ∧ lost t ∧
      reg t .sys 0 0x050 = 1 ∧ t.pins.strap = straps ∧ t.boot.powered = true ∧ t.boot.inReset = !s.pins.rstN ∧
      t.boot.zeroFill = true ∧ reg t .mgmt 0 0x040 = 0)) ∧
    (∀ straps : BitVec 4, s.boot.powered = true → exec (.powerOn straps) s = .next s) ∧
    Gives .powerLoss s (fun t => begun 1 t ∧ lost t ∧ t.boot.powered = false) ∧
    (s.boot.powered = true → Gives .rstNAssert s (fun t => begun 1 t ∧ rdBit t .sys 0 0x050 1 = true ∧
      t.boot.inReset = true ∧ t.pins.rstN = false ∧ (s.boot.dark = false → t.stores = s.stores) ∧
      reg t .mgmt 0 0x040 = 0)) ∧
    (∀ straps : BitVec 4, s.boot.powered = true → exec (.rstNRelease straps) s = .next { s with
      pins := { s.pins with rstN := true, strap := straps }
      boot := { s.boot with inReset := false, target := false } }) ∧
    (ptUp s .sys = true → Gives (.swrst 0x5120) s (fun t => begun 1 t ∧ rdBit t .sys 0 0x050 3 = true ∧
      (s.boot.dark = false → t.stores = s.stores))) ∧
    (∀ v : Word, v ≠ 0x5120 → ptUp s .sys = true → exec (.swrst v) s = .next s) ∧
    (alive s = true → s.boot.shutdown = true → s.therm.auto = true → Gives .shutdownExit s (fun t =>
      ∃ u : State, begun 2 u ∧ lost u ∧ rdBit u .sys 0 0x050 4 = true ∧ u.boot.zeroFill = true ∧ u.boot.shutdown = false ∧
        u.pins = s.pins ∧ t = applyDemand u)) ∧
    (alive s = true → s.boot.dark = true → s.boot.shutdown = false → Gives .brownoutRestart s (fun t =>
      ∃ u : State, begun 2 u ∧ lost u ∧ rdBit u .sys 0 0x050 5 = true ∧ u.boot.zeroFill = true ∧ u.boot.dark = false ∧
        u.pins = s.pins ∧ t = applyDemand u))

/-- R59, R60, R62: a start-up phase that ends gives way to the next, phase 3 waiting while REF_IN is absent; READY
follows phase 8, and the bypass follows READY; a phase that fails sets FAIL and stays. R48, R60: REF_IN's presence at
the strapped frequency ends the wait of phase 3, and the SHED_N pin asks for stage 4 while it is low; before the PWR
page is up only its level is noted (log 40). R65 (SYS.BYPASS): STAND_ASIDE and RELEASE take the value written; the
bypass then opens only when start-up is ready, it is released, not told to stand aside, and both ring ports are up or
in grace, and is closed otherwise. It states the completion of: refInValid, shedNAssert, shedNRelease,
startupPhaseDone, standAside, release. -/
def Obligations.StartUpPinsAndBypassFollowTheirRules : Prop :=
  (∀ (s : State) (bad : Failures), alive s = true → rdBit s .sys 0 0x04C 31 = false →
     rdBit s .sys 0 0x04C 30 = false → s.boot.dark = false →
     (∀ ph ∈ [6, 7], phase s = ph → Gives (.startupPhaseDone true bad) s (fun t =>
       phase t = ph + 1 ∧ regsBut [addrOf .sys 0 0x04C] s t ∧ onlyRegs s t)) ∧
     (phase s = 8 → Gives (.startupPhaseDone true bad) s (fun t => ∃ u : State,
       rdBit u .sys 0 0x04C 31 = true ∧ phase u = 8 ∧ regsBut [addrOf .sys 0 0x04C] s u ∧ onlyRegs s u ∧
       t = bypassUpdate u)) ∧
     (phase s = 3 → refOk s = true → Gives (.startupPhaseDone true bad) s (fun t =>
       phase t = 4 ∧ regsBut [addrOf .sys 0 0x04C, addrOf .time 0 0x0AC] s t ∧ onlyRegs s t)) ∧
     (phase s = 3 → refOk s = false → ∀ ok : Bool, exec (.startupPhaseDone ok bad) s = .next s) ∧
     (phase s ≠ 3 → phase s ≠ 4 → Gives (.startupPhaseDone false bad) s (fun t =>
       rdBit t .sys 0 0x04C 30 = true ∧ phase t = phase s ∧ t.logSeq = s.logSeq + 1))) ∧
  (∀ s : State,
     Gives .refInValid s (fun t =>
       refOk t = true ∧ rdBit t .sys 0 0x04C 29 = false ∧ phase t = phase s ∧
       regsBut [addrOf .sys 0 0x04C, addrOf .time 0 0x0AC] s t) ∧
     (ptUp s .pwr = false → exec .shedNAssert s = .next { s with pins := { s.pins with shedN := false } } ∧
       exec .shedNRelease s = .next { s with pins := { s.pins with shedN := true } }) ∧
     (ptUp s .pwr = true → Gives .shedNAssert s (fun t => ∃ u : State,
       u = { s with pins := { s.pins with shedN := false } } ∧ 4 ≤ shedDemand u ∧ t = applyDemand u)) ∧
     (ptUp s .pwr = true → Gives .shedNRelease s (fun t => ∃ u : State,
       u = { s with pins := { s.pins with shedN := true } } ∧ shedDemand u ≤ shedDemand s ∧ t = applyDemand u))) ∧
  (∀ (s : State) (on : Bool), ptUp s .sys = true → ∀ k ∈ [0, 1],
     Gives (if k = 1 then .standAside on else .release on) s (fun t =>
       rdBit t .sys 0 0x05C k = on ∧ rdBit t .sys 0 0x05C (1 - k) = rdBit s .sys 0 0x05C (1 - k) ∧
       regsBut [addrOf .sys 0 0x05C] s t ∧
       rdBit t .sys 0 0x05C 8 = !(ready s && !s.boot.dark && rdBit t .sys 0 0x05C 0 && !rdBit t .sys 0 0x05C 1 &&
         ringCounts s 0 && ringCounts s 1)))

/-- R5, R6, R7, R12, R35, R41, R63: writes to the common block of a page that is up, after the block's own work has
been brought to the present tick: the enables take the value, unless a path that comes later has written them in this
tick; a 1 clears a bit of PG_EVT or PG_FAULT, unless hardware set it in this tick, and a 0 leaves it; read-only
registers do not change, a reserved address is ignored; a page that is not up only sets EARLY_ACC. That an address
that is no multiple of 4 names no register is the model's choice (log 3). -/
def Obligations.CommonRegistersFollowTheirAccess : Prop :=
  ∀ (s : State) (p : Path) (pg : Nat) (pt : PT) (n : Nat) (v : Word), pathUp s p = true → pageOf pg = some (pt, n) →
    let w (o : Nat) : Instr := .registerWrite p (BitVec.ofNat 32 (pg * 4096 + o)) v
    let s0 : State := blockCatch pt n s
    (ptUp s pt = true →
      (∀ o ∈ [0x014, 0x01C], laterWrote s0 p (addrOf pt n o) = false → Gives (w o) s (fun t =>
        reg t pt n o = v ∧ regsBut [addrOf pt n o] s0 t ∧ onlyRegsIrq s0 t)) ∧
      (∀ o ∈ [0x014, 0x01C], laterWrote s0 p (addrOf pt n o) = true → Gives (w o) s (fun t =>
        regsBut [] s0 t ∧ onlyRegsIrq s0 t)) ∧
      (∀ o ∈ [0x010, 0x018], Gives (w o) s (fun t =>
        reg t pt n o = reg s0 pt n o &&& ~~~(v &&& ~~~raisedNow s0 (addrOf pt n o)) ∧
        regsBut [addrOf pt n o] s0 t ∧ onlyRegs s0 t)) ∧
      (∀ o ∈ [0x000, 0x004, 0x00C, 0x020, 0x024, 0x03C], Gives (w o) s (fun t => regsBut [] s0 t ∧ onlyRegs s0 t))) ∧
    (ptUp s pt = false → ∀ o, o < 4096 → o % 4 = 0 → Gives (w o) s (fun t =>
      rdBit t .sys 0 0x04C 27 = true ∧ regsBut [addrOf .sys 0 0x04C] s t ∧ onlyRegs s t)) ∧
    (∀ a : Word, a.toNat % 4 ≠ 0 ∨ (a.toNat < 0x40000000 ∧ pageOf (a.toNat / 4096) = none) →
      exec (.registerWrite p a v) s = .next s)

/-- R8, R35: a write to the _LO of a pair is staged for its path and changes no register; the write to its _HI brings
both halves into the pair in one update, and the staged half stays staged, unless a path that comes later has written
the pair in this tick. The pair is CMP k of the TIME page, whose compare counts from this tick (R363). R22, R35: a
write to a shadowed field takes effect at once while no group that uses the block has a shot running, and is held
otherwise, without changing the register; a later write to the field replaces the held value. The field is SEQ.ENTRY,
on a page whose own work has been brought to the present tick, and no later path has written it in the tick. It states
the completion of: registerWrite. -/
def Obligations.PairsAndShadowedFieldsCommit : Prop :=
  (∀ (s : State) (p q : Path) (k : Fin 4) (v : Word), pathUp s p = true → ptUp s .time = true →
     let lo : Nat := addrOf .time 0 (0x180 + 16 * k.val)
     let hi : Nat := addrOf .time 0 (0x184 + 16 * k.val)
     Gives (.registerWrite p (BitVec.ofNat 32 lo) v) s (fun t =>
       getWlatch t p lo = v ∧ (∀ b, q ≠ p ∨ b ≠ lo → b < 2 ^ 32 → getWlatch t q b = getWlatch s q b) ∧
       { t with wlatch := s.wlatch } = s) ∧
     (laterWrote s p hi = false → Gives (.registerWrite p (BitVec.ofNat 32 hi) v) s (fun t =>
       getReg t lo = getWlatch s p lo ∧ getReg t hi = v ∧ regsBut [lo, hi] s t ∧
       mapGet (fun _ => 0) t.cmpFrom k.val = s.clk.tc ∧ onlyRegs { s with cmpFrom := t.cmpFrom } t)) ∧
     (laterWrote s p hi = true → exec (.registerWrite p (BitVec.ofNat 32 hi) v) s = .next s)) ∧
  (∀ (s : State) (p : Path) (q : Fin 124) (v : Word), pathUp s p = true → ptUp s .seq = true →
     fget v 12 0 < 0x1E10 →
     let a : Nat := addrOf .seq q.val 0x044
     let s0 : State := blockCatch .seq q.val s
     laterWrote s0 p a = false →
     (seqShotRuns s0 q.val = false → s0.held = [] → Gives (.registerWrite p (BitVec.ofNat 32 a) v) s (fun t =>
       fget (getReg t a) 12 0 = fget v 12 0 ∧ regsBut [a] s0 t ∧ onlyRegs s0 t)) ∧
     (seqShotRuns s0 q.val = true → Gives (.registerWrite p (BitVec.ofNat 32 a) v) s (fun t =>
       t.regs = s0.regs ∧ (t.held.filter (fun h => h.addr = a)).getLast? = some { addr := a, mask := 0x1FFF, val := v } ∧
       (∀ h ∈ t.held, h.addr = a → h.val = v ∨ h.mask &&& 0x1FFF = 0) ∧
       { t with held := s0.held, tick := s0.tick } = s0)))

/-- PG_CTRL (R5, R35, R50, R451, R481), after the block's own work has been brought to the present tick, and unless a
path that comes later has written it in the tick: LOCK, once written 1, is set; SPARE_SEL takes the code written,
INHIBIT with no further effect and the others followed by the policy; ENABLE acts at once, with a note of the tick
where it mutes outputs (R482), while no shot uses the block and waits otherwise; a soft reset resets the page before
the write's other fields apply, and ends at SOFT_RESET_DONE. It states the completion of: pageLock, enableSet,
enableClear, auto, forceSpare, forcePrimary, inhibit, softReset. -/
def Obligations.PageControlActsByItsFields : Prop :=
  ∀ (s : State) (p : Path) (pg : Fin 1024) (pt : PT) (n : Nat), pathUp s p = true → pageOf pg.val = some (pt, n) →
    ptUp s pt = true →
    let ctrl (x : State) : Word := reg x pt n 0x008
    let s0 : State := blockCatch pt n s
    -- a block of the router settles its lines first
    let b : State := if pt = .evt then lineCatch s0 else s0
    let alone (x t : State) : Prop := regsBut [addrOf pt n 0x008] x t ∧ onlyRegs x t
    let noted (x : State) : State := noteWrite p (pg.val * 4096 + 8) x
    let selected (k : Nat) (t : State) : Prop :=
      fget (ctrl t) 11 8 = k ∧ fget (ctrl t) 7 0 = fget (ctrl s0) 7 0 ∧ alone s0 t
    let waits (x : State) : State := { x with enWait := x.enWait.filter (· ≠ pg.val) }
    Gives (.pageLock p pg) s (fun t =>
      wbit (ctrl t) 2 = true ∧ (∀ i, i ≠ 2 → wbit (ctrl t) i = wbit (ctrl s) i) ∧ alone s t) ∧
    (laterWrote s p (pg.val * 4096 + 8) = true → ∀ c ∈ [Instr.inhibit p pg, .auto p pg, .forceSpare p pg, .forcePrimary p pg,
      .enableSet p pg, .enableClear p pg], exec c s = .next s) ∧
    (laterWrote s p (pg.val * 4096 + 8) = false →
      Gives (.inhibit p pg) s (selected 3) ∧
      Gives (.auto p pg) s (fun t => ∃ u, selected 0 u ∧ t = noted (autoSel pg.val u)) ∧
      (fget (ctrl s0) 11 8 ≠ 1 ∨ rd s0 pt n 0x020 3 0 ≠ 2 →
        Gives (.forceSpare p pg) s (fun t => ∃ u, selected 1 u ∧ t = noted (forceSpareSel pg.val u))) ∧
      (fget (ctrl s0) 11 8 = 1 → rd s0 pt n 0x020 3 0 = 2 → Gives (.forceSpare p pg) s (selected 1)) ∧
      Gives (.forcePrimary p pg) s (fun t => ∃ u, selected 2 u ∧ t = noted (forcePrimarySel pg.val u)) ∧
      (alwaysEnabled pt = true ∨ wbit (ctrl s0) 0 = true → exec (.enableSet p pg) s = .next (noted s0)) ∧
      (alwaysEnabled pt = false → wbit (ctrl s0) 0 = false → blockBusy s0 pt n = false →
        Gives (.enableSet p pg) s (fun t => ∃ u, wbit (ctrl u) 0 = true ∧ regsBut [addrOf pt n 0x008] b u ∧
          onlyRegs { waits b with outs := u.outs } u ∧ t = noted (enableChanged pt n u))) ∧
      (alwaysEnabled pt = false → wbit (ctrl s0) 0 = false → blockBusy s0 pt n = true →
        Gives (.enableSet p pg) s (fun t => pg.val ∈ t.enWait ∧ { t with enWait := s0.enWait, tick := s0.tick } = s0)) ∧
      (alwaysEnabled pt = true → exec (.enableClear p pg) s = .next (noted s0)) ∧
      (alwaysEnabled pt = false → wbit (ctrl b) 0 = true → hasStop b pt n = false →
        Gives (.enableClear p pg) s (fun t => ∃ u, wbit (ctrl u) 0 = false ∧ regsBut [addrOf pt n 0x008] b u ∧
          onlyRegs { waits b with outs := u.outs } u ∧ t = noted (enableChanged pt n u))) ∧
      (alwaysEnabled pt = false → wbit (ctrl b) 0 = false → exec (.enableClear p pg) s = .next (noted (waits b))) ∧
      (alwaysEnabled pt = false → wbit (ctrl b) 0 = true → hasStop b pt n = true →
        Gives (.enableClear p pg) s (fun t => ∃ x u, x = stopBlock pt n (waits b) ∧
          wbit (ctrl u) 0 = false ∧ alone { x with outs := u.outs } u ∧ t = noted (enableChanged pt n u)))) ∧
    (∀ v : Word, laterWrote s0 p (addrOf pt n 0x008) = false →
      exec (.softReset p pg v) s = .next (noteWrite p (addrOf pt n 0x008) (pgFields pg.val (v ||| 2) (softReset pg.val s0))))

/-- R50, R480: a soft reset of the CRC, TBUS, EVT or HEALTH page, the router's lines having been settled, puts every
register of the page but PG_SPARE at its reset value and every other page's as it was, and the page reads RESETTING
until SOFT_RESET_DONE, which changes nothing else. It states the completion of: softResetDone. -/
def Obligations.SoftResetRestoresThePage : Prop :=
  ∀ (s : State) (pg : Fin 1024) (pt : PT), pageOf pg.val = some (pt, 0) → pt ∈ [PT.crc, .tbus, .evt, .health] →
    let b : State := if pt = .evt then lineCatch s else s
    blockBusy b pt 0 = false →
    let t := softReset pg.val s
    (∀ off, off < 4096 → off ≠ 0x020 → reg t pt 0 off = regReset (addrOf pt 0 off)) ∧
    (b.regsOk → ∀ a, a / 4096 ≠ pg.val → getReg t a = getReg b a) ∧
    isResetting t pt 0 = true ∧ t.stores = s.stores ∧ t.groups = b.groups ∧
    (∀ x, x ∈ t.items ↔ x ∈ b.items ∧ (pt = .evt → ∀ i, x.load ≠ .act i)) ∧
    (∀ u : State, alive u = true → isResetting u pt 0 = true →
      (∀ e ∈ u.accepted, (storePage e.store).1 ≠ pt) →
      exec (.softResetDone pg) u = .next { u with resetting := u.resetting.filter (· ≠ pg.val) }) ∧
    (∀ u : State, isResetting u pt 0 = false → exec (.softResetDone pg) u = .next u)

/-- R36, R57 (I3C_STAT.DA_VALID, DYN_ADDR): the dynamic address is taken by ENTDAA and SETDASA while the target has
none, changed by SETNEWDA while it has one, and given up at RSTDAA; SETDASA answers only to the static address 0x60 +
STRAP[2:0]. Only I3C_STAT[31:24] and what the target answers change; where the target does not answer, only that
shows. That a command out of its turn, or within a peripheral reset, is refused or ignored so is the model's reading
(log 3, log 96). R40, R52: with every block's own work brought to the present tick, the in-band interrupt carries 0xA1
while some page has a pending fault, else 0xA0, and then PEND_FIRST, most significant byte first; it is then no longer
requested. It states the completion of: entdaa, setdasa, setnewda, rstdaa, ibiDelivered. -/
def Obligations.DynamicAddressAndInterrupts : Prop :=
  (∀ (s : State) (a static : BitVec 7), ptUp s .mgmt = true →
     let taken (t : State) : Prop :=
       rd t .mgmt 0 0x040 31 24 = 128 + a.toNat ∧ rd t .mgmt 0 0x040 23 0 = rd s .mgmt 0 0x040 23 0 ∧
       regsBut [addrOf .mgmt 0 0x040] s t ∧ t.i3c = { s.i3c with reply := [], nack := false } ∧
       { t with regs := s.regs, i3c := s.i3c } = s
     let refused : Host.Outcome State Fault Refusal := .next { s with i3c := { s.i3c with reply := [], nack := true } }
     (s.i3c.inReset = true → exec (.entdaa a) s = .next s ∧ exec .rstdaa s = .next s ∧
       exec (.setdasa static a) s = refused ∧ exec (.setnewda a) s = refused) ∧
     (s.i3c.inReset = false →
     (rdBit s .mgmt 0 0x040 31 = false → Gives (.entdaa a) s taken) ∧
     (rdBit s .mgmt 0 0x040 31 = true → exec (.entdaa a) s = .next s) ∧
     (rdBit s .mgmt 0 0x040 31 = false → static.toNat = 0x60 + s.pins.strap.toNat % 8 → Gives (.setdasa static a) s taken) ∧
     (rdBit s .mgmt 0 0x040 31 = true ∨ static.toNat ≠ 0x60 + s.pins.strap.toNat % 8 →
       exec (.setdasa static a) s = refused) ∧
     (rdBit s .mgmt 0 0x040 31 = true → Gives (.setnewda a) s taken) ∧
     (rdBit s .mgmt 0 0x040 31 = false →
       exec (.setnewda a) s = refused) ∧
     Gives .rstdaa s (fun t =>
       rd t .mgmt 0 0x040 31 24 = 0 ∧ rd t .mgmt 0 0x040 23 0 = rd s .mgmt 0 0x040 23 0 ∧
       regsBut [addrOf .mgmt 0 0x040] s t ∧ onlyRegs s t))) ∧
  (∀ s : State, ptUp s .mgmt = true →
     let u : State := allWork s
     (u.i3c.ibiReq = false ∨ i3cAnswers u = false → exec .ibiDelivered s = .next u) ∧
     (u.i3c.ibiReq = true → i3cAnswers u = true → exec .ibiDelivered s = .next { u with i3c := { u.i3c with
       ibiReq := false
       nack := false
       reply := (if alertLow u then 0xA1 else 0xA0) ::
         (match pendingPages u with
           | pg :: _ => beBytes (pg * 4096) 4
           | [] => [0xFF, 0xFF, 0xFF, 0xFF]) } }))

/-- R36, R37, R39, R52, R57: HDR mode is entered and left; SETMWL and SETMRL set the lengths, above 4,096 acting as
4,096; DISEC and ENEC disable and enable in-band interrupts, and ENEC requests one at once while a page is pending;
RSTACT sets the action of 0x00 to 0x02; a CCC that is not supported sets CCC_UNSUP, and a direct one is refused. What
is addressed to the target needs its dynamic address, and the target is not in a peripheral reset. R38, R39, R57: what
the target answers to the CCCs that read it: BCR 0x26, DCR 0x00, the provisional ID with part number 0x5120 and
STRAP[2:0] in PID[15:12], the lengths in force, no speed limit and a turnaround of 0. The bytes of GETSTATUS and
GETCAPS are free (log 36), as is GETMRL's third byte here. Nothing else changes. Without a dynamic address the target
refuses them (R36). It states the completion of: getmwl, getmrl, getpid, getbcr, getdcr, getmxds, unsupportedCcc,
enthdr0, hdrExit, enec, disec, setmwl, setmrl, getstatus, getcaps, rstact. -/
def Obligations.TargetSettingsAndCharacteristics : Prop :=
  (∀ s : State, ptUp s .mgmt = true → s.i3c.inReset = false →
     exec .enthdr0 s = .next { s with i3c := { s.i3c with hdr := true } } ∧
     exec .hdrExit s = .next { s with i3c := { s.i3c with hdr := false } } ∧
     (∀ n : BitVec 16, exec (.setmwl n) s = .next { s with i3c := { s.i3c with mwl := min n.toNat 4096 } }) ∧
     (∀ n : BitVec 16, exec (.setmrl n) s = .next { s with i3c := { s.i3c with mrl := min n.toNat 4096 } }) ∧
     exec .disec s = .next { s with i3c := { s.i3c with ibiOn := false } } ∧
     (s.i3c.ibiOn = false → pendingPages s = [] →
       exec .enec s = .next { s with i3c := { s.i3c with ibiOn := true } }) ∧
     (s.i3c.ibiOn = false → pendingPages s ≠ [] →
       exec .enec s = .next { s with i3c := { s.i3c with ibiOn := true, ibiReq := true } }) ∧
     (∀ b : BitVec 8, b.toNat ≤ 2 →
       exec (.rstact b) s = .next { s with i3c := { s.i3c with rstact := b, reply := [], nack := false } }) ∧
     (hasAddr s = true → exec (.rstact 0x81) s = .next { s with i3c := { s.i3c with reply := [0x01], nack := false } } ∧
       exec (.rstact 0x82) s = .next { s with i3c := { s.i3c with reply := [0x05], nack := false } }) ∧
     (∀ direct : Bool, direct = false ∨ hasAddr s = true → Gives (.unsupportedCcc direct) s (fun t =>
       rdBit t .mgmt 0 0x040 5 = true ∧ regsBut [addrOf .mgmt 0 0x040] s t ∧
       (∀ i, i ≠ 5 → rdBit t .mgmt 0 0x040 i = rdBit s .mgmt 0 0x040 i) ∧
       { t with regs := s.regs, tick := s.tick, i3c := s.i3c } = s ∧
       t.i3c = if direct then { s.i3c with reply := [], nack := true } else s.i3c))) ∧
  (∀ s : State, ptUp s .mgmt = true →
     (i3cAnswers s = false → ∀ c ∈ [Instr.getbcr, .getdcr, .getmwl, .getmrl, .getpid, .getmxds, .getstatus, .getcaps],
       exec c s = .next { s with i3c := { s.i3c with reply := [], nack := true } }) ∧
     (i3cAnswers s = true →
     let answers (t : State) (bs : List Byte) : Prop := t = { s with i3c := { s.i3c with reply := bs, nack := false } }
     Gives .getbcr s (fun t => answers t [0x26]) ∧
     Gives .getdcr s (fun t => answers t [0x00]) ∧
     Gives .getmwl s (fun t => ∃ x y : Byte, answers t [x, y] ∧
       (s.i3c.mwl ≤ 4096 → 256 * x.toNat + y.toNat = s.i3c.mwl)) ∧
     Gives .getmrl s (fun t => ∃ x y z : Byte, answers t [x, y, z] ∧
       (s.i3c.mrl ≤ 4096 → 256 * x.toNat + y.toNat = s.i3c.mrl)) ∧
     Gives .getpid s (fun t => ∃ x y : Byte, answers t [x, y, 0x51, 0x20, BitVec.ofNat 8 (s.pins.strap.toNat % 8 * 16), 0x00] ∧
       y.getLsbD 0 = false) ∧
     Gives .getmxds s (fun t => answers t [0x00, 0x00, 0x00, 0x00, 0x00]) ∧
     (∀ c ∈ [Instr.getstatus, Instr.getcaps], Gives c s (fun t => ∃ x y : Byte,
       t = { s with i3c := { s.i3c with reply := [x, y], nack := false }, free := s.free + 1 }))))

/-- R39, R41 to R43: a private write of whole words within the maximum write length writes its words one after another
from its address on, as REGISTER_WRITE would, and leaves the pointer after the last; with the address alone only the
pointer changes; one whose address is no multiple of 4 sets ALIGN_ERR and one that ends within its address sets
PARTIAL, and one with a parity error (a CRC error in HDR mode) is discarded and flagged. R42, R44: a private read of a
word returns what the bus read gives, least significant byte first, and leaves the pointer after it; a read that ends
within its word has no effect but the bytes returned; a read whose word is not ready ends with EARLY_END and returns
nothing. Which words of a store aperture are ready is free (log 37). It states the completion of: privateWrite,
privateRead. -/
def Obligations.PrivateTransfersMoveWholeWords : Prop :=
  (∀ (s : State) (addr : Word) (ws : List Word), ptUp s .mgmt = true → i3cAnswers s = true →
     let address : List Byte := (wordBytes addr).reverse
     let flagged (i : Nat) (t : State) : Prop :=
       rdBit t .mgmt 0 0x040 i = true ∧ regsBut [addrOf .mgmt 0 0x040] s t ∧ onlyRegs s t
     let written : State := (ws.foldl
       (fun (x : Nat × State) v => (x.1 + 4, busWrite .i3c (x.1 % 2 ^ 32) v x.2)) (addr.toNat, s)).2
     (addr.toNat % 4 = 0 → 4 + 4 * ws.length ≤ s.i3c.mwl → phase written = phase s →
       exec (.privateWrite true (address ++ ws.flatMap wordBytes)) s = .next { written with
         i3c := { written.i3c with ptr := (addr.toNat + 4 * ws.length) % 2 ^ 32 } }) ∧
     (addr.toNat % 4 ≠ 0 → Gives (.privateWrite true (address ++ ws.flatMap wordBytes)) s (flagged 0)) ∧
     (∀ bs : List Byte, bs.length < 4 → Gives (.privateWrite true bs) s (flagged 1)) ∧
     (∀ bs : List Byte, Gives (.privateWrite false bs) s (flagged (if s.i3c.hdr then 4 else 3)))) ∧
  (∀ s : State, ptUp s .mgmt = true → i3cAnswers s = true →
     let s0 : State := (wordReady s.i3c.ptr s).2
     ((wordReady s.i3c.ptr s).1 = true → 4 ≤ s.i3c.mrl → Gives (.privateRead 4) s (fun t =>
       let u := busRead .i3c s.i3c.ptr s0
       t.i3c.reply = wordBytes u.rdata ∧ t.i3c.ptr = (u.i3c.ptr + 4) % 2 ^ 32 ∧ t.regs = u.regs ∧ t.rlatch = u.rlatch)) ∧
     ((wordReady s.i3c.ptr s).1 = true → ∀ n : Nat, 0 < n → n < 4 → n ≤ s.i3c.mrl →
       exec (.privateRead n) s = .next { s0 with i3c := { s.i3c with
         nack := false
         reply := (wordBytes (busRead .i3c s.i3c.ptr s0).rdata).take n } }) ∧
     ((wordReady s.i3c.ptr s).1 = false → ∀ n : Nat, 0 < n → 0 < s.i3c.mrl → Gives (.privateRead n) s (fun t =>
       rdBit t .mgmt 0 0x040 2 = true ∧ regsBut [addrOf .mgmt 0 0x040] s t ∧
       t.i3c = { s.i3c with reply := [], nack := false } ∧ onlyRegs { s0 with i3c := t.i3c } t)))

/-- R45, R46: a write through the window puts its word at the window address and a read returns the word there, and
each then advances the address by 4 while INC is 1; an access to the reserved top 64 MB or beyond the capacity writes
nothing, reads zero and sets ERR_RANGE, and is an access that advances too. Here the address does not enter a new
block of 64 bytes, and no request of this tick is for the same block, nor a word of the window from a later path
written in it (R285, R35 order those). That an access before the PANTRY page is up is refused so is the model's choice
(log 99). It states the completion of: pwinDataWrite, pwinDataRead. -/
def Obligations.PantryWindowMovesWords : Prop :=
  ∀ (s : State) (v : Word), ptUp s .mgmt = true →
    let a := pwinAddr s
    let alone : Prop := ∀ e ∈ s.tick.ports, e.1 = addrOf .mgmt 0 0x068 → e.2.1 = 0
    let advanced (t : State) : Prop :=
      pwinAddr t = if rdBit s .mgmt 0 0x06C 0 then (a + 4) % 2 ^ 35 else a
    (ptUp s .pantry = true → a + 4 ≤ reservedFrom s → (a + 4) % 64 ≠ 0 → alone →
      (∀ q ∈ s.preqs, q.acc ≠ s.clk.tc ∨ q.addr / 64 ≠ a / 64) →
      Gives (.pwinDataWrite v) s (fun t => advanced t ∧
        (∀ i, i < 4 → pantryByte t (a + i) = v.extractLsb' (8 * i) 8) ∧
        (∀ b, b < 2 ^ 35 → (b < a ∨ a + 4 ≤ b) → pantryByte t b = pantryByte s b) ∧
        regsBut [addrOf .mgmt 0 0x060, addrOf .mgmt 0 0x064] s t)) ∧
    (ptUp s .pantry = true → a + 4 ≤ reservedFrom s → (a + 4) % 64 ≠ 0 → pwinWaits s = false →
      s.pbad.contains (a / 64) = false →
      Gives .pwinDataRead s (fun t => advanced t ∧ t.pantry = s.pantry ∧
        t.i3c.reply = [pantryByte s a, pantryByte s (a + 1), pantryByte s (a + 2), pantryByte s (a + 3)])) ∧
    (ptUp s .pantry = false ∨ reservedFrom s < a + 4 →
      let refusedRegs : List Nat := [addrOf .mgmt 0 0x06C, addrOf .mgmt 0 0x060, addrOf .mgmt 0 0x064]
      (alone → Gives (.pwinDataWrite v) s (fun t =>
        rdBit t .mgmt 0 0x06C 2 = true ∧ advanced t ∧ t.pantry = s.pantry ∧ regsBut refusedRegs s t)) ∧
      (pwinWaits s = false → Gives .pwinDataRead s (fun t =>
        rdBit t .mgmt 0 0x06C 2 = true ∧ advanced t ∧ t.i3c.reply = [0, 0, 0, 0] ∧ t.pantry = s.pantry ∧
        regsBut refusedRegs s t)))

/-- R57: after a Target Reset Pattern the last action set is performed: nothing, a reset of the target logic, or a
reset of the module; the resets end at TARGET_RESET_DONE. A reset of the target logic clears I3C_STAT but for the
dynamic address, and puts pointer, lengths, interrupts and HDR mode back; the registers of every other page stay. That
the target answers nothing until its reset has ended, and then asks again for what is pending, is the model's reading
(log 96). It states the completion of: targetResetPattern, targetResetDone. -/
def Obligations.TargetResetPerformsTheActionSet : Prop :=
  ∀ s : State, ptUp s .mgmt = true →
    (s.i3c.rstact = 0x00 → exec .targetResetPattern s = .next s) ∧
    (s.i3c.rstact = 0x01 → Gives .targetResetPattern s (fun t =>
      rd t .mgmt 0 0x040 23 0 = 0 ∧ rd t .mgmt 0 0x040 31 24 = rd s .mgmt 0 0x040 31 24 ∧
      regsBut [addrOf .mgmt 0 0x040] s t ∧ { t with regs := s.regs, i3c := s.i3c } = s ∧
      t.i3c.ptr = 0 ∧ t.i3c.mwl = 4096 ∧ t.i3c.mrl = 4096 ∧ t.i3c.ibiOn = true ∧ t.i3c.hdr = false ∧
      t.i3c.rstact = 0x01 ∧ t.i3c.ibiReq = false ∧ t.i3c.inReset = true)) ∧
    (s.i3c.rstact = 0x02 → Gives .targetResetPattern s (fun t =>
      t.boot.target = true ∧ rdBit t .sys 0 0x050 2 = true ∧ phase t = 1 ∧ t.i3c = {} ∧ t.clk = {} ∧
      (s.boot.dark = false → t.stores = s.stores))) ∧
    (s.i3c.inReset = false → exec .targetResetDone s = .next { s with boot := { s.boot with target := false } }) ∧
    (s.i3c.inReset = true → Gives .targetResetDone s (fun t => t = { s with
      boot := { s.boot with target := false }
      i3c := { s.i3c with
        inReset := false
        ibiReq := s.i3c.ibiReq || (s.i3c.ibiOn && decide (pendingPages t ≠ [])) } }))

/-- R55, R68, R69: a word written in a store's aperture is staged in its path's buffer, which the first write binds to
the store and fills with the committed image; the path then reads what it staged, and the store itself, the other
paths' buffers and all else stay. A buffer bound to another store, or the vendor region, refuses the write and shows
BOUND or VTARGET. R70, R71, R124, R157, R176, R479: a commit of a control store, an envelope unit or a weight unit is
refused while its path's buffer is unbound (NONE) or bound to another store (BOUND); a staged image that fails a check
is rejected whole with the first failing status and LOAD_FAIL, and stays staged; an accepted one is copied at once,
with LOAD_DONE, the CRC shown and the buffer unbound, unless a shot or a calibration segment holds the store, when it
waits as BUSY; it ends STORE_BAD, or shows its unit. A discard unbinds the buffer. It states the completion of:
apertureWrite, loadCommit, loadDiscard, envCommit, envDiscard, wtCommit, wtDiscard. -/
def Obligations.ApertureStagesAndCommitsStores : Prop :=
  (∀ (s : State) (p : Path) (a v : Word) (b : Nat), s.storesOk → pathUp s p = true → a.toNat % 4 = 0 →
     storeAt a.toNat = some b → ptUp s (storePage b).1 = true →
     let k : Nat := pathNo p
     let vendor (j : Nat) : Prop := isControl b = true ∧ b + 0x3C000 ≤ j
     let statAddr : Nat := addrOf (storePage b).1 (storePage b).2.1 (statOff b)
     let shows (st : Nat) (t : State) : Prop :=
       rd t (storePage b).1 (storePage b).2.1 (statOff b) 31 28 = st ∧ regsBut [statAddr] s t ∧ onlyRegs s t
     (¬ vendor a.toNat → ((getStaging s k).bound = none ∨ (getStaging s k).bound = some b) →
       Gives (.apertureWrite p a v) s (fun t =>
         (getStaging t k).bound = some b ∧
         (∀ j, storeAt j = some b → ¬ vendor j →
           storeByte t k j =
             if a.toNat ≤ j ∧ j < a.toNat + 4 then (wordBytes v).getD (j - a.toNat) 0 else storeByte s k j) ∧
         (∀ r, r ≠ k → getStaging t r = getStaging s r) ∧ { t with staging := s.staging } = s)) ∧
     (¬ vendor a.toNat → ∀ c, (getStaging s k).bound = some c → c ≠ b →
       Gives (.apertureWrite p a v) s (shows 6)) ∧
     (vendor a.toNat → Gives (.apertureWrite p a v) s (shows 5) ∧ storeByte s k a.toNat = 0)) ∧
  (∀ (s : State) (p : Path), s.storesOk → pathUp s p = true → ptUp s .drv = true → ptUp s .seq = true → ptUp s .rdi = true →
     let k : Nat := pathNo p
     let x : Staging := getStaging s k
     let rule (c d : Instr) (b : Nat) : Prop :=
       let pg : PT := (storePage b).1
       let n : Nat := (storePage b).2.1
       let crc : Word := reg s pg n (crcOff b)
       let r := commitCheck s b x.data crc
       let st (t : State) : Nat := rd t pg n (statOff b) 31 28
       let near (t : State) : Prop :=
         regsBut [addrOf pg n (statOff b), addrOf pg n (crcOff b), addrOf pg n 0x010, addrOf pg n 0x018] s t
       let rejected (m : Nat) (t : State) : Prop :=
         st t = m ∧ (if isControl b then rdBit t pg n 0x018 3 else rdBit t pg n 0x010 6) = true ∧ near t ∧ onlyRegsIrq s t
       let good (t : State) : Prop := if isControl b then (getSeq t n).st ≠ .storeBad ∧ n ∉ t.unchecked
         else rd t pg n 0xE00 2 0 = (storePage b).2.2
       (x.bound = none → Gives c s (rejected 7) ∧ exec d s = .next s) ∧
       (∀ o, x.bound = some o → o ≠ b → Gives c s (rejected 6) ∧
         Gives d s (fun t => st t = 6 ∧ regsBut [addrOf pg n (statOff b)] s t ∧ onlyRegs s t)) ∧
       (x.bound = some b →
         Gives d s (fun t => getStaging t k = {} ∧ (∀ r, r ≠ k → getStaging t r = getStaging s r) ∧
           { t with staging := s.staging } = s) ∧
         (r.1 ≠ 0 → Gives c s (fun t => rejected r.1 t ∧
           (∀ w, r.2 = some w → isControl b = true → rd t pg n (statOff b) 12 0 = w % 8192))) ∧
         (crc32c (dense x.data b (storeLen b)) ≠ crc → r.1 = 2) ∧
         (crc32c (dense x.data b (storeLen b)) = crc → isControl b = false → r.1 = 0) ∧
         (r.1 = 0 → storeBusy s b = true → Gives c s (fun t =>
           st t = 1 ∧ (∃ e ∈ t.accepted, e.store = b ∧ e.data = x.data ∧ e.crc = crc) ∧ t.stores = s.stores ∧
           getStaging t k = x ∧ near t ∧ good t)) ∧
         (r.1 = 0 → storeBusy s b = false → Gives c s (fun t =>
           st t = 0 ∧ reg t pg n (crcOff b) = crc ∧ rdBit t pg n 0x010 7 = true ∧ getStaging t k = {} ∧
           (∀ j, byteAt t.stores j = if b ≤ j ∧ j < b + storeLen b then byteAt x.data j else byteAt s.stores j) ∧
           (if isControl b then near t else pagesBut [ptBase pg + n] s t) ∧ good t)))
     (∀ q, rule (.loadCommit p q) (.loadDiscard p q) (controlBase q.val)) ∧
     (∀ u, rule (.envCommit p u) (.envDiscard p u) (envBase u)) ∧
     (∀ n u, rule (.wtCommit p n u) (.wtDiscard p n u) (weightBase n.val u.val)))

/-- R242, R479: a word written in the graph's aperture is staged in the one staging bank, which the first write binds
to its path and fills with the active image; another path is refused with BOUND. A commit of the bound bank that the
checks of R240 pass makes it the active one, at once when no stream runs, and holds it until the boundary when one
does; one that fails them raises LOAD_FAIL and names what failed; a commit of an unbound bank or from another path
changes neither bank. A discard frees the bank. It states the completion of: apertureWrite, graphCommit, graphDiscard.
-/
def Obligations.GraphBanksAreStagedAndExchanged : Prop :=
  ∀ (s : State) (p : Path) (a v : Word), s.storesOk → pathUp s p = true → ptUp s .mortar = true →
    let k : Nat := pathNo p
    let crc : Word := reg s .mortar 0 0x064
    let r := graphCheck s.gStage crc
    let st (t : State) : Nat := rd t .mortar 0 0x060 31 28
    let failed (n : Nat) (t : State) : Prop :=
      st t = n ∧ rdBit t .mortar 0 0x010 8 = true ∧ t.stores = s.stores ∧ t.gStage = s.gStage ∧ t.gBind = s.gBind ∧
      regsBut [addrOf .mortar 0 0x060, addrOf .mortar 0 0x010] s t ∧ onlyRegsIrq s t
    (a.toNat % 4 = 0 → inGraph a.toNat = true →
      (s.gWait = none → (s.gBind = none ∨ s.gBind = some k) → Gives (.apertureWrite p a v) s (fun t =>
        t.gBind = some k ∧
        (∀ j, inGraph j = true → graphByte t k j =
          if a.toNat ≤ j ∧ j < a.toNat + 4 then (wordBytes v).getD (j - a.toNat) 0 else graphByte s k j) ∧
        { t with gBind := s.gBind, gStage := s.gStage } = s)) ∧
      (∀ c, s.gBind = some c → c ≠ k → Gives (.apertureWrite p a v) s (fun t =>
        st t = 6 ∧ regsBut [addrOf .mortar 0 0x060] s t ∧ onlyRegs s t))) ∧
    (s.gBind = none → Gives (.graphCommit p) s (failed 7) ∧ exec (.graphDiscard p) s = .next s) ∧
    (∀ c, s.gBind = some c → c ≠ k → Gives (.graphCommit p) s (failed 6) ∧
      Gives (.graphDiscard p) s (fun t => st t = 6 ∧ regsBut [addrOf .mortar 0 0x060] s t ∧ onlyRegs s t)) ∧
    (s.gBind = some k →
      Gives (.graphDiscard p) s (fun t => t = { s with gBind := none, gStage := [] }) ∧
      (r.1 ≠ 0 → Gives (.graphCommit p) s (fun t => failed r.1 t ∧ rdBit t .mortar 0 0x060 16 = r.2.edge ∧
        rd t .mortar 0 0x060 15 0 = r.2.item % 65536)) ∧
      (crc32c (dense s.gStage gBase gLen) ≠ crc → r.1 = 2) ∧
      (r.1 = 0 → s.mort.run = true → Gives (.graphCommit p) s (fun t =>
        st t = 1 ∧ t.gWait = some (crc, s.gStage) ∧ t.gBind = none ∧ t.stores = s.stores ∧
        regsBut [addrOf .mortar 0 0x060] s t)) ∧
      (r.1 = 0 → s.mort.run = false → Gives (.graphCommit p) s (fun t =>
        st t = 0 ∧ rdBit t .mortar 0 0x060 24 = !rdBit s .mortar 0 0x060 24 ∧ reg t .mortar 0 0x064 = crc ∧
        (∀ j, byteAt t.stores j = if inGraph j then byteAt s.gStage j else byteAt s.stores j) ∧
        rdBit t .mortar 0 0x010 9 = true ∧ t.gBind = none ∧ t.gWait = none ∧ pagesBut [ptBase .mortar, 0] s t)))

/-- R35, R100 to R102: VIMG_DATA moves words of the vendor staging buffer and advances VIMG_ADDR, a write returning
the status to IDLE; VERIFY ends with OK or the first failing check, that of the key hash and of the signature by free
functions of the bytes (log 6); INSTALL and LOAD act only while the status is OK, INSTALL not while WP_N is low; an
install replaces the older slot, which a failed one spoils; a loaded image reaches the idle sequencers at once and
waits for the others; a discard clears the buffer. It states the completion of: vimgDataAccess, verify,
verifyComplete, install, installComplete, load, vimgDiscard. -/
def Obligations.VendorImageFollowsItsStatus : Prop :=
  ∀ (s : State) (w : Word), s.storesOk → ptUp s .nvm = true →
    let o : Nat := 4 * rd s .nvm 0 0x100 16 2
    let m : Bytes := s.vimg.buf
    let st (t : State) : Nat := rd t .nvm 0 0x10C 31 28
    let near (t : State) : Prop := regsBut [addrOf .nvm 0 0x100, addrOf .nvm 0 0x10C] s t ∧ { t with regs := s.regs, vimg := s.vimg, tick := s.tick } = s
    -- no path that comes later has written VIMG_DATA in this tick (R35)
    let alone : Prop := ∀ e ∈ s.tick.ports, e.1 = addrOf .nvm 0 0x104 → e.2.1 = 0
    let moved (t : State) : Prop := rd t .nvm 0 0x100 16 2 = (o / 4 + 1) % 32768
    let verdict : Nat := if vimgFormat m = false then 3
      else if crc32c (dense m 0 0x10080) ≠ wordAt m 0x10080 then 4
      else if Config.keyOk (mapTake m 0x10084 0x100E5) = false then 5
      else if Config.sigOk (mapTake m 0 0x10145) = false then 6 else 2
    let loaded (t : State) : Prop := t.vimg.image = .bytes m ∧ ∀ q ∈ vendorSeqs s,
      (q ∈ t.vimg.waiting ↔ seqActive s q = true) ∧
      (seqActive s q = false → reg t .seq q 0x05C = BitVec.ofNat 32 (2 ^ 31 + vimgVersion m) ∧
        rdBit t .seq q 0x010 8 = true ∧ ∀ j, j < 0x4000 →
          byteAt t.stores (controlBase q + 0x3C000 + j) = byteAt m (sectionOff (kindOf s q) + j))
    (o < vimgLen →
      (alone → Gives (.vimgDataAccess (some w)) s (fun t => moved t ∧ st t = 0 ∧ t.vimg.cmd = none ∧ near t ∧
        ∀ j, byteAt t.vimg.buf j = if o ≤ j ∧ j < o + 4 then (wordBytes w).getD (j - o) 0 else byteAt m j)) ∧
      Gives (.vimgDataAccess none) s (fun t => moved t ∧ t.rdata = wordAt m o ∧ t.vimg = s.vimg ∧ st t = st s)) ∧
    (vimgLen ≤ o →
      (alone → Gives (.vimgDataAccess (some w)) s (fun t => moved t ∧ t.vimg = s.vimg ∧ st t = st s)) ∧
      Gives (.vimgDataAccess none) s (fun t => moved t ∧ t.rdata = 0 ∧ t.vimg = s.vimg)) ∧
    (s.vimg.cmd = none → Gives .verify s (fun t => st t = 1 ∧ t.vimg = { s.vimg with cmd := some .verify } ∧ near t)) ∧
    (∀ key sig : Bool, s.vimg.cmd = some .verify → Gives (.verifyComplete key sig) s (fun t =>
      st t = verdict ∧ t.vimg = { s.vimg with cmd := none } ∧ near t ∧
      (verdict = 2 → rd t .nvm 0 0x10C 23 0 = vimgVersion m))) ∧
    (∀ key sig : Bool, s.vimg.cmd ≠ some .verify → exec (.verifyComplete key sig) s = .next s) ∧
    (st s ≠ 2 → exec .install s = .next s ∧ exec .load s = .next s) ∧
    (st s = 2 → s.pins.wpN = false → Gives .install s (fun t => st t = 7 ∧ t.vimg = s.vimg ∧ near t)) ∧
    (st s = 2 → s.pins.wpN = true → Gives .install s (fun t =>
      st t = 1 ∧ t.vimg = { s.vimg with cmd := some .install } ∧ near t)) ∧
    (st s = 2 → ptUp s .seq = true → Gives .load s (fun t => loaded t ∧ st t = 2 ∧
      t.vimg.slotA = s.vimg.slotA ∧ t.vimg.slotB = s.vimg.slotB)) ∧
    (s.vimg.cmd = some .install →
      Gives (.installComplete false) s (fun t => st t = 8 ∧ near t ∧ t.vimg =
        if s.vimg.newerB then { s.vimg with cmd := none, slotA := .spoilt } else { s.vimg with cmd := none, slotB := .spoilt }) ∧
      (ptUp s .seq = true → Gives (.installComplete true) s (fun t => loaded t ∧ st t = 2 ∧ t.vimg.cmd = none ∧
        t.vimg.newerB = (!s.vimg.newerB) ∧ rdBit t .nvm 0 0x10C 24 = (!s.vimg.newerB) ∧
        (if s.vimg.newerB then t.vimg.slotA = .bytes m ∧ t.vimg.slotB = s.vimg.slotB
         else t.vimg.slotB = .bytes m ∧ t.vimg.slotA = s.vimg.slotA)))) ∧
    Gives .vimgDiscard s (fun t => st t = 0 ∧ t.vimg = { s.vimg with buf := [], cmd := none } ∧ near t)

/-- R24, R25, R104, R105, R440 (starts): a software start of a master whose SRC is 6 opens an idle group's shot 24
ticks from now, is pending while a shot or a boundary lasts, and is refused with START_OVERRUN where a start is
pending or the master takes none; a start of another source has no effect. A self-starting master opens 24 ticks after
SRC = 5 took effect, or after its last refusal, then REP_INTERVAL after its last opening, but no earlier than 24 ticks
after the boundary. SYNC starts open at the next tick whose low 16 bits are zero. It states the completion of: shotGo,
selfStart, syncLine. -/
def Obligations.StartsAreAcceptedOrCounted : Prop :=
  ∀ (s : State) (m : Fin 8), ptUp s .seq = true →
    let x : Group := getGroup s m.val
    let mine (f : Group → Group) (t : State) : Prop :=
      getGroup t m.val = f x ∧ (∀ g, g ≠ m.val → getGroup t g = getGroup s g) ∧ { t with groups := s.groups } = s
    let overrun (t : State) : Prop :=
      rdBit t .seq (112 + m.val) 0x010 1 = true ∧ regsBut [addrOf .seq (112 + m.val) 0x010] s t ∧ onlyRegsIrq s t
    let src : Nat := rd s .seq (112 + m.val) 0x0A0 2 0
    let free : Prop := refusesStart s m.val = false ∧ x.pend = none ∧ x.opening = none
    (src ≠ 6 → exec (.shotGo m) s = .next s) ∧
    (src = 6 → (refusesStart s m.val = true ∨ x.pend ≠ none ∨ x.opening ≠ none) → Gives (.shotGo m) s overrun) ∧
    (src = 6 → free → (x.running = true ∨ x.boundary = true) →
      Gives (.shotGo m) s (mine fun x => { x with pend := some (6, s.clk.tc) })) ∧
    (src = 6 → free → x.running = false → x.boundary = false →
      Gives (.shotGo m) s (mine fun x => { x with opening := some (s.clk.tc + 24) })) ∧
    ((src ≠ 5 ∨ x.running = true ∨ x.boundary = true ∨ x.opening ≠ none) → exec (.selfStart m) s = .next s) ∧
    (src = 5 → x.running = false → x.boundary = false → x.opening = none → refusesStart s m.val = true →
      Gives (.selfStart m) s (fun t => rdBit t .seq (112 + m.val) 0x010 1 = true ∧
        regsBut [addrOf .seq (112 + m.val) 0x010] s t ∧ getGroup t m.val = { x with selfAt := some s.clk.tc } ∧
        (∀ g, g ≠ m.val → getGroup t g = getGroup s g))) ∧
    (src = 5 → x.running = false → x.boundary = false → x.opening = none → refusesStart s m.val = false →
      let due : BitVec 48 := match x.selfAt with
        | some t => t + 24
        | none => if x.opened then x.t0 + BitVec.ofNat 48 (reg s .seq (112 + m.val) 0x0A4).toNat else s.clk.tc + 24
      Gives (.selfStart m) s (mine fun x => { x with opening := some (if x.opened then laterTick due (x.bEnd + 24) else due) })) ∧
    (src = 2 → free → x.running = false → x.boundary = false → Gives .syncLine s (fun t =>
      (getGroup t m.val).opening = some (syncFrom (t.clk.tc + 24)) ∧ t.clk = (passTo (syncFrom s.clk.tc) s).clk)) ∧
    (ptUp s .evt = true → Gives .syncLine s (fun t => ((passTo (syncFrom s.clk.tc) s).clk.tc, 126, false) ∈ t.lines))

/-- R20, R23, R26, R105 (the opening of a shot): at its tick 0 an accepted start makes the group's shot run, counts
it, and tags it THROTTLED after a stretched boundary; every member's latch and request are cleared, and every one that
may run takes part with its stacks empty, the others stand idle; a late opening tags the shot LATE and CORRUPT, and
leaves its members idle with LATE raised; a start whose master then refuses it is counted as an overrun. R11, R23,
R26, R105 (closing and boundary): a shot closes once its members are done, those whose end is fixed having reached it,
and no result is still to come; its tag is then final and shown, and kept with its ticks. A boundary then copies every
accepted image that no running shot holds back, lasts at least 48 ticks, and ends with the pending start accepted,
unless a calibration window of the group opens. It states the completion of: shotOpen, shotClose, shotBoundary. -/
def Obligations.ShotsOpenAndClose : Prop :=
  (∀ (s : State) (g : Fin 8) (at_ : BitVec 48), ptUp s .seq = true →
     let x : Group := getGroup s g.val
     let u : State := passTo at_ s
     let late : Prop := ticksTo s.clk.tc at_ < 0
     (x.opening = none ∨ x.running = true ∨ x.boundary = true → exec (.shotOpen g) s = .next s) ∧
     (x.opening = some at_ → x.running = false → x.boundary = false →
       (refusesStart u g.val = true → Gives (.shotOpen g) s (fun t =>
         getGroup t g.val = { x with opening := none } ∧ rdBit t .seq (112 + g.val) 0x010 1 = true ∧
         t.seqs = s.seqs ∧ t.stores = s.stores ∧ t.clk = u.clk)) ∧
       (refusesStart u g.val = false → Gives (.shotOpen g) s (fun t =>
         (getGroup t g.val).running = true ∧ (getGroup t g.val).opening = none ∧ (getGroup t g.val).t0 = at_ ∧
         rdPair t .seq (112 + g.val) 0x0B0 = (rdPair s .seq (112 + g.val) 0x0B0 + 1) % 2 ^ 64 ∧
         (x.stretched = true → (getGroup t g.val).tag &&& tagThrottled = tagThrottled) ∧
         (late → (getGroup t g.val).tag &&& (tagLate ||| tagCorrupt) = tagLate ||| tagCorrupt) ∧
         t.clk = u.clk ∧ t.stores = s.stores ∧ t.pantry = s.pantry ∧
         (∀ q ∈ members s g.val, (getSeq t q).go = none ∧ (getSeq t q).req = none ∧
           (late → q < 112 → (getSeq t q).inShot = false ∧ rdBit t .seq q 0x010 0 = true) ∧
           ((¬ late ∨ 112 ≤ q) → mayRun s q = false → (getSeq t q).inShot = false) ∧
           ((¬ late ∨ 112 ≤ q) → mayRun s q = true →
             (getSeq t q).inShot = true ∧ (getSeq t q).loops = [] ∧ (getSeq t q).calls = [] ∧
             (segMode s q = false → badLane s q (rd s .seq q 0x044 12 0) = none →
               (getSeq t q).pc = rd s .seq q 0x044 12 0 ∧ (getSeq t q).w = at_))))))) ∧
  (∀ (s : State) (g : Fin 8), ptUp s .seq = true →
     let v : State := finishParts g.val s
     let x : Group := getGroup s g.val
     let u : State := mortarClose g.val (lastWritten g.val v)
     let y : Group := getGroup u g.val
     let tag : Nat := (getGroup u g.val).tag.toNat
     let shown (t : State) (hi lo : Nat) : Nat := rd t .seq (112 + g.val) 0x0B8 hi lo
     ((shotRuns v g.val = false ∨ (members v g.val).all (seqDone v) = false ∨ resultsAhead v g.val = true) →
       exec (.shotClose g) s = .next v) ∧
     (shotRuns v g.val = true → (members v g.val).all (seqDone v) = true → resultsAhead v g.val = false →
       Gives (.shotClose g) s (fun t =>
         (getGroup t g.val).running = false ∧ (getGroup t g.val).boundary = true ∧
         (getGroup t g.val).closedAt = u.clk.tc ∧ (getGroup t g.val).len = (ticksTo y.t0 u.clk.tc).toNat ∧
         (getGroup t g.val).past = (y.t0, u.clk.tc, y.tag) :: y.past ∧
         shown t 7 0 = tag ∧ shown t 15 8 = shown u 15 8 ||| tag ∧
         (∀ q ∈ members u g.val, (getSeq t q).inShot = false) ∧
         regsBut [addrOf .seq (112 + g.val) 0x0B8] u t)) ∧
     ((x.boundary = false ∨ (∃ w, s.calWin = some w ∧ w.1 = g.val)) → exec (.shotBoundary g) s = .next s) ∧
     (x.boundary = true → s.calWin = none → Gives (.shotBoundary g) s (fun t =>
       (∀ e ∈ t.accepted, e ∈ s.accepted ∧ storeBusy s e.store = true) ∧
       ((∃ w, t.calWin = some w ∧ w.1 = g.val) ∨ t.calWin = none ∧
         (getGroup t g.val).boundary = false ∧ (getGroup t g.val).bEnd = t.clk.tc ∧
         (getGroup t g.val).pend = none ∧
         (s.held = [] → ptUp s .time = true → ∃ n, 48 ≤ n ∧
           n ≤ max (48 + 30000 * (s.accepted.length + s.vimg.waiting.length + s.subs.length) + 100 * s.subs.length)
             ((7 * x.len + 3) / 4) ∧
           (0 < ticksTo s.clk.tc (x.closedAt + BitVec.ofNat 48 n) → t.clk.tc = x.closedAt + BitVec.ofNat 48 n))))))

/-- R73, R87 to R90 (the end of a word): in a live microcode sequencer whose word has not chosen its successor,
LOOP_OP acts first and NEXT chooses it once, in the word's tick: the next word, TARGET, the top of the call stack, the
start of the innermost frame while its counter exceeds 1, or the end of its part in the shot; PUSH and BREAK change
the loop stack, a PUSH with count 0 raising its event; a ninth entry, or a pop of an empty stack, stops the sequencer
with a stack fault. Nothing else changes, and a sequencer that is not live does nothing. Here nothing else waits for a
tick. It states the completion of: wordSeq, wordJump, wordCall, wordRet, wordLoop, wordEnd, loopPush, loopBreak. -/
def Obligations.WordsChooseTheirSuccessors : Prop :=
  ∀ (s : State) (q : Fin 124), ptUp s .seq = true →
    let x : Seq := getSeq s q.val
    SeqQuiet s q.val →
    let u : Uword := uword s q.val x.pc
    let all : List Instr := [.wordSeq q, .wordJump q, .wordCall q, .wordRet q, .wordLoop q, .wordEnd q, .loopPush q, .loopBreak q]
    let count : Nat := if u.lsrc = 0 then u.limm else rd s .seq q.val (0x060 + 4 * (u.lsrc - 1)) 23 0
    let frame : Loop := { start := pushStart x u, count := count }
    let pushes : Prop := u.loopOp = 1 ∧ 300 ∉ x.did
    let pops : Prop := u.loopOp = 2 ∧ 301 ∉ x.did
    let y : Seq := if u.loopOp = 1 ∧ 300 ∉ x.did then { x with did := 300 :: x.did, loops := frame :: x.loops }
      else if u.loopOp = 2 ∧ 301 ∉ x.did then { x with did := 301 :: x.did, loops := x.loops.tail } else x
    let rest (t : State) : Prop := (∀ r, r ≠ q.val → getSeq t r = getSeq s r) ∧ t.clk = (passTo x.w s).clk ∧
      (pushes ∧ count = 0 → rdBit t .seq q.val 0x010 4 = true) ∧
      (¬ (pushes ∧ count = 0) → { t with seqs := s.seqs } = passTo x.w s)
    let does (code : Nat) (f : Seq → Seq) (t : State) : Prop :=
      getSeq t q.val = f { y with did := code :: y.did } ∧ rest t
    let halts (t : State) : Prop :=
      (getSeq t q.val).st = .stopped ∧ (getSeq t q.val).succ = none ∧ rdBit t .seq q.val 0x018 1 = true ∧
      (getSeq t q.val).calls = x.calls
    (seqLive s q.val = false ∨ segMode s q.val = true → ∀ c ∈ all, exec c s = .next s) ∧
    (x.pc < 8191 → nextOf x.pc = x.pc + 1) ∧
    ((u.next = 0 → pushStart x u = nextOf x.pc) ∧ (u.next = 1 ∨ u.next = 3 → pushStart x u = u.target)) ∧
    (seqLive s q.val = true → segMode s q.val = false → x.ahead = [] → 999 ∉ x.did → x.st ≠ .stopped →
      ((pushes → x.loops.length < 8) → (pops → x.loops ≠ []) → x.succ = none → 200 + u.next ∉ x.did →
        (u.next = 0 → Gives (.wordSeq q) s (does 200 fun z => { z with succ := some (.word (nextOf x.pc)) })) ∧
        (u.next = 1 → Gives (.wordJump q) s (does 201 fun z => { z with succ := some (.word u.target) })) ∧
        (u.next = 3 → x.calls.length < 8 → Gives (.wordCall q) s (does 203 fun z =>
          { z with succ := some (.word u.target), calls := nextOf x.pc :: x.calls })) ∧
        (u.next = 3 → 8 ≤ x.calls.length → Gives (.wordCall q) s halts) ∧
        (u.next = 4 → (∀ a r, x.calls = a :: r → Gives (.wordRet q) s (does 204 fun z =>
            { z with succ := some (.word a), calls := r })) ∧
          (x.calls = [] → Gives (.wordRet q) s halts)) ∧
        (u.next = 5 → (∀ l r, y.loops = l :: r →
            (1 < l.count → Gives (.wordLoop q) s (does 205 fun z =>
              { z with succ := some (.word l.start), loops := { l with count := l.count - 1 } :: r })) ∧
            (l.count ≤ 1 → Gives (.wordLoop q) s (does 205 fun z =>
              { z with succ := some (.word (nextOf x.pc)), loops := r }))) ∧
          (y.loops = [] → Gives (.wordLoop q) s halts)) ∧
        (u.next = 6 → Gives (.wordEnd q) s (does 206 fun z => { z with succ := some .fin }))) ∧
      (pushes → x.loops.length < 8 → Gives (.loopPush q) s (fun t => getSeq t q.val = y ∧ rest t)) ∧
      (pushes → 8 ≤ x.loops.length → Gives (.loopPush q) s halts) ∧
      (pops → (x.loops ≠ [] → Gives (.loopBreak q) s (fun t => getSeq t q.val = y ∧ rest t)) ∧
        (x.loops = [] → Gives (.loopBreak q) s halts)))

/-- R76 to R78, R87 (waits): once a word has its successor, that word starts in the tick its wait gives: W + 1 + CNT,
the later of W + 1 and the opening plus CNT, or CNT after the first SYNC tick; a DECISION, EVENT or MARK wait ends 4
ticks and CNT after the item it waited for, but not before W + 1 + CNT; the item is the first tick from W - 4 with a
resolved channel, the GO activation that it consumed, or the first matching mark at or after W; a wait that reaches
WAIT_LIMIT ends then, with its event raised, unless its item was due 4 ticks before; and it goes on waiting while
there is no item. The next word enters with no part of it done, and consumes a latched GO if it waits for an EVENT;
after END the part has ended. Here nothing else waits for a tick. It states the completion of: waitExpiry,
waitTimeout, decisionWaitEnd, eventWaitEnd, markWaitEnd. -/
def Obligations.WaitsEndInTheirTicks : Prop :=
  ∀ (s : State) (q : Fin 124) (a : Nat), ptUp s .seq = true → seqLive s q.val = true → segMode s q.val = false →
    let x : Seq := getSeq s q.val
    SeqQuiet s q.val → x.st ≠ .stopped → x.ahead = [] →
    let u : Uword := uword s q.val x.pc
    let cnt : BitVec 48 := BitVec.ofNat 48 u.cnt
    let lim : Nat := rd s .seq q.val 0x07C 23 0
    let enters (w : BitVec 48) (t : State) : Prop :=
      let takes : Prop := (uword s q.val a).wait = 4 ∧ goStarts s q.val = false ∧ 0 ≤ ticksTo w t.clk.tc
      (getSeq t q.val).pc = a ∧ (getSeq t q.val).w = w ∧ (getSeq t q.val).succ = none ∧ (getSeq t q.val).did = [] ∧
      (getSeq t q.val).loops = x.loops ∧ (getSeq t q.val).calls = x.calls ∧
      (getSeq t q.val).met = (if takes then x.go else none) ∧ (getSeq t q.val).go = (if takes then none else x.go) ∧
      (getSeq t q.val).st = (if 3 ≤ (uword s q.val a).wait then .wait else .run) ∧
      (∀ r, r ≠ q.val → getSeq t r = getSeq s r) ∧ t.stores = s.stores
    let after (d : BitVec 48) : BitVec 48 := laterTick (x.w + 1) (d + 4) + cnt
    let limit : BitVec 48 := x.w + BitVec.ofNat 48 lim
    let ends (c : Instr) (d : BitVec 48) : Prop :=
      ((lim = 0 ∨ ticksTo limit (d + 4) ≤ 0) → Gives c s (enters (after d))) ∧
      (lim ≠ 0 → 0 < ticksTo limit (d + 4) → Gives c s (fun t => rdBit t .seq q.val 0x010 2 = true ∧
        enters (after (limit - 4)) t))
    let seen : State := bcastCatch u.dch (laterTick (x.w - 4) s.clk.tc) (passTo (x.w - 4) s)
    let first : Option (BitVec 48) := resolvedFrom (getDch seen u.dch).bc (getDch seen u.dch).hist (x.w - 4)
    (x.succ = some .fin → u.wait ≤ 2 → Gives (.waitExpiry q) s (fun t => (getSeq t q.val).st = .ended ∧
      (x.loops ≠ [] ∨ x.calls ≠ [] → rdBit t .seq q.val 0x010 5 = true))) ∧
    (x.succ = some (.word a) → badLane s q.val a = none →
      (u.wait = 0 → Gives (.waitExpiry q) s (enters (x.w + 1 + cnt))) ∧
      (u.wait = 1 → Gives (.waitExpiry q) s (fun t => enters (laterTick (x.w + 1) (seqT0 s q.val + cnt)) t ∧
        (waitPast s q.val x u = true → ticksTo t.clk.tc x.w ≤ 0 → rdBit t .seq q.val 0x010 3 = true))) ∧
      (u.wait = 2 → Gives (.waitExpiry q) s (enters (nextSync (x.w + 1) + cnt))) ∧
      (3 ≤ u.wait → x.met = none → exec (.waitExpiry q) s = .next s) ∧
      (u.wait = 3 → x.met = none → ∀ d, first = some d → ends (.decisionWaitEnd q) d) ∧
      (u.wait = 4 → goStarts s q.val = false → ∀ d, x.met = some d → ends (.eventWaitEnd q) d) ∧
      (u.wait = 5 → x.met = none →
        ∀ m, x.marks.find? (fun m => decide (m.1 = u.dch % 16) && decide (0 ≤ ticksTo x.w m.2)) = some m →
        ends (.markWaitEnd q) m.2) ∧
      (lim = 0 → exec (.waitTimeout q) s = .next s) ∧
      (lim ≠ 0 → 3 ≤ u.wait →
        let known : State := passTo (timeoutTick q.val s x) s
        let item : Option (BitVec 48) :=
          waitItem (if u.wait = 3 then bcastCatch u.dch (laterTick (x.w - 4) known.clk.tc) known else known) q.val x u
        (∀ d, item = some d → ticksTo limit (d + 4) ≤ 0 → Gives (.waitTimeout q) s (enters (after d))) ∧
        ((∀ d, item = some d → 0 < ticksTo limit (d + 4)) → Gives (.waitTimeout q) s (fun t =>
          rdBit t .seq q.val 0x010 2 = true ∧ enters (after (limit - 4)) t)))) ∧
    (u.wait = 3 → x.met = none → first = none → exec (.decisionWaitEnd q) s = .next seen) ∧
    (u.wait = 4 → goStarts s q.val = true → exec (.eventWaitEnd q) s = .next s) ∧
    (u.wait = 4 → goStarts s q.val = false → x.met = none → exec (.eventWaitEnd q) s = .next (passTo x.w s)) ∧
    (u.wait = 5 → x.met = none →
      x.marks.find? (fun m => decide (m.1 = u.dch % 16) && decide (0 ≤ ticksTo x.w m.2)) = none →
      exec (.markWaitEnd q) s = .next (passTo x.w s))

/-- R92 to R96 (branches): after its LOOP_OP and its sweeps, a BR word that does not run ahead waits for its branch;
one that runs ahead keeps the stacks and the sweeps of the branch and goes on along the predicted path. A branch takes
TARGET when its channel, as it stood 4 ticks before the branch, is resolved and equals POL, the coded default when it
does not resolve, counted and, unless it is VOID, with LATE raised. A prediction that stands opens the gate of its
path when its first samples reach it; a wrong one discards the path, restores the stacks, is counted, and goes the
other way. Here nothing else waits for a tick. It states the completion of: wordBr, branchResolve,
commitGateResolution. -/
def Obligations.BranchesResolveAndRunAhead : Prop :=
  ∀ (s : State) (q : Fin 124), ptUp s .seq = true → seqLive s q.val = true → segMode s q.val = false →
    let x : Seq := getSeq s q.val
    SeqQuiet s q.val →
    let u : Uword := uword s q.val x.pc
    let seen (v : Uword) (d : BitVec 48) : DState := bcastAt (bcastCatch v.dch d (passTo d s)) v.dch d
    let way (v : Uword) (d : BitVec 48) : Bool := match seen v d with
      | .resolved b => b == v.pol
      | _ => v.defT
    let defaults (v : Uword) (d : BitVec 48) (t : State) : Prop :=
      (∀ b, seen v d = .resolved b → rd t .seq q.val 0x080 15 0 = rd s .seq q.val 0x080 15 0) ∧
      ((∀ b, seen v d ≠ .resolved b) → rd t .seq q.val 0x080 15 0 = min (rd s .seq q.val 0x080 15 0 + 1) 65535) ∧
      (seen v d = .unresolved ∨ seen v d = .lost → rdBit t .seq q.val 0x010 0 = true)
    let acted : State := sweepStep q.val (loopBreak q.val (loopPush q.val (passWord x x.w s)))
    let y : Seq := getSeq acted q.val
    let runs (e : BitVec 48) : Prop := nextWordTick acted q.val y u = some e ∧ rdBit acted .seq q.val 0x040 8 = true ∧
      u.pred ≠ 0 ∧ y.ahead.length < 2 ∧ 0 < ticksTo acted.clk.tc (e - 4)
    let rest (t : State) : Prop :=
      (∀ r, r ≠ q.val → getSeq t r = getSeq acted r) ∧ { t with seqs := acted.seqs } = acted
    let gatesOf (l : List Ahead) (ok : Bool) : List (Nat × Bool × BitVec 48) :=
      if q.val < 112 then x.gates ++ l.map (fun b => (depOf q.val b.id, ok, b.s + 22)) else x.gates
    (u.next = 2 → x.succ = none → 999 ∉ x.did → x.st ≠ .stopped →
      (y.halt = true ∨ y.st = .stopped → exec (.wordBr q) s = .next acted) ∧
      (y.halt = false → y.st ≠ .stopped →
        ((∀ e, ¬ runs e) → Gives (.wordBr q) s (fun t => getSeq t q.val = { y with br := true } ∧ rest t)) ∧
        (∀ e, runs e →
          let path : Nat := if u.pred = 2 then u.target else nextOf y.pc
          Gives (.wordBr q) s (fun t => getSeq t q.val = { y with
            succ := some (.word path), br := false, nextId := y.nextId + 1
            loops := y.loops.map (fun l => if l.start = brStart then { l with start := path } else l)
            ahead := y.ahead ++ [{
              id := y.nextId, word := y.pc, w := y.w, s := e, predTarget := decide (u.pred = 2), loops := y.loops
              calls := y.calls, sweeps := sweepsOf acted q.val, met := y.met }] } ∧ rest t)))) ∧
    (x.ahead = [] → x.br = true → ∀ e, nextWordTick s q.val x u = some e → Gives (.branchResolve q) s (fun t =>
      (getSeq t q.val).succ = some (.word (if way u (e - 4) then u.target else nextOf x.pc)) ∧ (getSeq t q.val).br = false ∧
      defaults u (e - 4) t)) ∧
    (x.ahead = [] → x.br = false ∨ nextWordTick s q.val x u = none → exec (.branchResolve q) s = .next s) ∧
    (∀ e r, x.ahead = e :: r →
      let v : Uword := uword s q.val e.word
      let d : BitVec 48 := e.s - 4
      (way v d = e.predTarget → e.kept = [] → x.br = false → Gives (.branchResolve q) s (fun t =>
        getSeq t q.val = { x with ahead := r, gates := gatesOf [e] true } ∧ defaults v d t)) ∧
      (way v d ≠ e.predTarget → Gives (.branchResolve q) s (fun t =>
        (getSeq t q.val).succ = some (.word (if way v d then v.target else nextOf e.word)) ∧
        (getSeq t q.val).pc = e.word ∧ (getSeq t q.val).w = e.w ∧ (getSeq t q.val).calls = e.calls ∧
        (getSeq t q.val).met = e.met ∧ (getSeq t q.val).loops.length = e.loops.length ∧ (getSeq t q.val).ahead = [] ∧
        (getSeq t q.val).gates = gatesOf (e :: r) false ∧
        rd t .seq q.val 0x080 31 16 = min (rd s .seq q.val 0x080 31 16 + 1) 65535 ∧ defaults v d t))) ∧
    (x.gates = [] → exec (.commitGateResolution q) s = .next s) ∧
    (∀ dep ok due r, x.gates = (dep, ok, due) :: r → Gives (.commitGateResolution q) s (fun t =>
      getSeq t q.val = { x with gates := r } ∧ (∀ r, r ≠ q.val → getSeq t r = getSeq s r) ∧ t.stores = s.stores ∧
      t.clk = (passTo due s).clk ∧ (q.val < 64 ∨ 80 ≤ q.val → t.items = s.items.filterMap (resolveItem dep ok)) ∧
      (ok = true → 80 ≤ q.val → t.regs = s.regs)))

/-- R80 to R85, R120 to R122, R138, R145, R182, R193 (actions of a word): in a live word that codes it, an action acts
once, in the word's tick, after its SWR and with the sweep values before its SWP: pulses, phase and flux operations,
probe pulses and window arms go out as items due 4 ticks after it, each of the sequencer's group; sweeps reload and
step; a master's mark goes to its group, and its calibration window, TBUS START and TRIGGER are asked for, the TRIGGER
held while its opening is more than the lead limit ahead. Here nothing else waits for a tick. It states the completion
of: drivePulse, swr, swp, evtFire, markEn, calwin, tbusStart, ringTrig, windowArm, probePulse, addA, addB, subA, setA,
zeroAcc, addSw, play, playHold, step, park. -/
def Obligations.WordActionsAreSentOnce : Prop :=
  ∀ (s : State) (q : Fin 124) (p : Fin 8), ptUp s .seq = true → seqLive s q.val = true → segMode s q.val = false →
    let x : Seq := getSeq s q.val
    SeqQuiet s q.val →
    let u : Uword := uword s q.val x.pc
    let now : State := passTo x.w s
    let due : BitVec 48 := x.w + 4
    let item (l : Payload) : Item := { stamp := stampOf due, group := seqGroup s q.val, deps := [], load := l }
    let once (code : Nat) : Prop := x.ahead = [] ∧ code ∉ x.did ∧ 999 ∉ x.did ∧ (u.swr = true → 302 ∈ x.did)
    let sends (code : Nat) (ls : List Payload) (t : State) : Prop :=
      t.items = s.items ++ ls.map item ∧ getSeq t q.val = { x with did := code :: x.did } ∧
      (∀ r, r ≠ q.val → getSeq t r = getSeq s r) ∧
      { t with items := s.items, seqs := s.seqs, strms := s.strms } = now
    let f : Nat := portField u p.val
    let sw : Int × Nat := swAt s q.val p.val
    let tone : Tone := getTone s q.val p.val
    (∀ n : Fin 64, n.val = q.val → once p.val → nbits f 10 5 ≠ 0 → Gives (.drivePulse n p) s (sends p.val
      [.port q.val p.val (nbits f 4 0) (nbits f 10 5) (nbits f 15 11) 0 (nbit f 19) u.tset x.w sw.1 sw.2])) ∧
    (∀ (n : Fin 80) (k : Fin 32) (c : Instr) (code : Nat), n.val = q.val → once (10 + k.val) →
      (c, code) ∈ [(Instr.addA n k, 1), (Instr.addB n k, 2), (Instr.subA n k, 3), (Instr.setA n k, 4),
        (Instr.zeroAcc n k, 5), (Instr.addSw n k, 6)] →
      (if n.val < 64 then k.val < 8 ∧ nbits (portField u k.val) 18 16 = code
        else nbit u.k k.val = true ∧ nbits u.k 41 39 = code) →
      Gives c s (sends (10 + k.val) [.port q.val k.val
        (if n.val < 64 then nbits (portField u k.val) 4 0 else nbits u.k 36 32) 0 0 code false u.tset x.w 0
        (swAt s q.val k.val).2])) ∧
    (∀ (g : Fin 32) (c : Instr) (code : Nat), 80 + g.val = q.val → once p.val → nbits f 18 16 = code →
      (c, code) ∈ [(Instr.play g p, 1), (Instr.playHold g p, 2), (Instr.step g p, 3), (Instr.park g p, 4)] →
      Gives c s (sends p.val [.flux (8 * g.val + p.val) (nbits f 1 0) (nbits f 10 5) (nbits f 15 11) code u.tset x.w
        sw.1])) ∧
    (∀ n : Fin 16, 64 + n.val = q.val →
      (once 0 → nbits u.k 31 0 ≠ 0 → Gives (.probePulse n) s (sends 0 (((List.range 32).filter (nbit u.k)).map fun k =>
        .port q.val k (nbits u.k 36 32) 1 (nbits u.k 38 37) 0 false u.tset x.w 0 (swAt s q.val k).2))) ∧
      (once 1 → nbits u.k 73 42 ≠ 0 → Gives (.windowArm n) s (sends 1
        (((List.range 32).filter fun i => nbit u.k (42 + i)).flatMap fun i =>
          [.arm (32 * n.val + i) x.w (nbits u.k 85 74), .armCopy (32 * n.val + i)])))) ∧
    (∀ m : Fin 8, 112 + m.val = q.val →
      (once 305 → nbit u.k 0 = true → Gives (.markEn m) s (fun t =>
        t.items = s.items ++ [{ stamp := stampOf due, group := some m.val, deps := [], load := .mark m.val (nbits u.k 4 1) }] ∧
        t.clk = now.clk)) ∧
      (once 306 → nbit u.k 5 = true → Gives (.calwin m) s (fun t =>
        getGroup t m.val = { getGroup s m.val with calReq := true } ∧ t.regs = s.regs)) ∧
      (once 307 → nbit u.k 6 = true → tbusOn s = true → Gives (.tbusStart m) s (fun t =>
        t.tbusQ = s.tbusQ ++ [{
          line := rd s .tbus 0 0x040 26 24
          notBefore := x.w + 2
          start := some (x.w + BitVec.ofNat 48 (trigLead s m.val))
          master := m.val }] ∧ t.regs = s.regs)) ∧
      (once 308 → nbit u.k 7 = true →
        let opening : BitVec 48 := x.w + BitVec.ofNat 48 (trigLead s m.val)
        (ticksTo now.clk.tc (opening - 16384) ≤ 0 → masterTrigPorts s ≠ [] → Gives (.ringTrig m) s (fun t =>
          t.tseq = (s.tseq + 1) % 2 ^ 16 ∧ t.items = s.items ∧ t.clk = now.clk)) ∧
        (0 < ticksTo now.clk.tc (opening - 16384) → Gives (.ringTrig m) s (fun t =>
          t.later = [(opening - 16384, q.val, .ring m.val (nbits u.k 13 8) opening)] ∧ t.tseq = s.tseq ∧
          t.items = s.items ∧ t.clk = now.clk)))) ∧
    (∀ n : Fin 120, n.val = q.val → once 304 → u.fire ≠ 0 → ptUp s .evt = true → u.fire < 16 →
      Gives (.evtFire n) s (fun t => t.clk = now.clk ∧ ∀ b, b < (if 112 ≤ q.val then 4 else 2) → nbit u.fire b = true →
        (x.w + 1, fireLineOf q.val b, false) ∈ t.lines)) ∧
    (∀ n : Fin 112, n.val = q.val →
      (x.ahead = [] → 302 ∉ x.did → 999 ∉ x.did → u.swr = true → Gives (.swr n) s (fun t => t.regs = s.regs ∧
        302 ∈ (getSeq t q.val).did ∧
        (n.val < 64 → (getTone t q.val p.val).asw = sx 16 (toneReg s q.val p.val 0x1C % 65536) ∧
          (getTone t q.val p.val).psw = toneReg s q.val p.val 0x14) ∧
        ((∀ k : Fin 64, k.val = q.val → exec (.drivePulse k p) s = exec (.drivePulse k p) t) ∧ exec (.swp n) s = exec (.swp n) t))) ∧
      (once 303 → u.swp = true → Gives (.swp n) s (fun t =>
        (getSeq t q.val).preSwp = sweepsOf s q.val ∧
        (n.val < 64 → (getTone t q.val p.val).psw = (tone.psw + toneReg s q.val p.val 0x18) % 2 ^ 32 ∧
          (getTone t q.val p.val).asw = satS 16 (tone.asw + sx 16 (toneReg s q.val p.val 0x1C / 65536))))))

/-- R107, R110 to R115 (segment tables): a play sends its ports' actions as items of a word at its tick, and its
fires; its successor is chosen from the requests accepted up to D, 4 ticks before its end B: a pending request where
the entry takes one, a repeat while plays are left, the end, or NEXT. What is chosen starts, or ends the part, in B;
an empty entry ends the part, with its event. A request replaces a pending one, which is counted; outside segment mode
it does nothing; one that comes after the decision of a play finds it made. A change of mode marks the store
unchecked, and is refused while the sequencer is in use. It states the completion of: seqModeWrite, segmentPlay,
segmentDecide, segJump, segStop. -/
def Obligations.SegmentsPlayAndFollow : Prop :=
  ∀ (s : State) (q : Fin 124), ptUp s .seq = true →
    let x : Seq := getSeq s q.val
    let w : Nat := segEntry s q.val x.entry
    let b : BitVec 48 := x.playAt + BitVec.ofNat 48 (nbits w 15 0)
    let atD : State := passTo (b - 4) s
    let req : Option SegReq := if nbit w 40 then x.req else none
    let others (t : State) : Prop := ∀ r, r ≠ q.val → getSeq t r = getSeq s r
    let starts (e : Nat) (at_ : BitVec 48) (t : State) : Prop :=
      badLane s q.val e = none → (getSeq t q.val).entry = e ∧
        (segEntry s q.val e = 0 → (getSeq t q.val).st = .ended ∧ rdBit t .seq q.val 0x010 10 = true) ∧
        (segEntry s q.val e ≠ 0 →
          (getSeq t q.val).playAt = at_ ∧ (getSeq t q.val).w = at_ ∧ (getSeq t q.val).played = false ∧
          (getSeq t q.val).plays = nbits (segEntry s q.val e) 27 16 ∧ (getSeq t q.val).st = .run)
    let follows (n : SegNext) (at_ : BitVec 48) (t : State) : Prop := match n with
      | .again => (getSeq t q.val).plays = x.plays - 1 ∧ (getSeq t q.val).playAt = at_ ∧ (getSeq t q.val).w = at_ ∧
          (getSeq t q.val).played = false ∧ (getSeq t q.val).entry = x.entry ∧ (getSeq t q.val).st = x.st
      | .next e => starts e at_ t
      | .jump e => starts e at_ t ∧ rd t .seq q.val 0x094 31 16 = min (rd s .seq q.val 0x094 31 16 + 1) 65535
    let fixed (y : Seq) (act : State → Prop) : Prop :=
      (0 < ticksTo (b - 4) atD.clk.tc → ticksTo b atD.clk.tc < 0 → Gives (.segmentDecide q) s (fun t =>
        getSeq t q.val = y ∧ others t ∧ { t with seqs := s.seqs } = atD)) ∧
      (0 < ticksTo (b - 4) atD.clk.tc → 0 ≤ ticksTo b atD.clk.tc → Gives (.segmentDecide q) s (fun t =>
        act t ∧ (getSeq t q.val).req = y.req ∧ others t))
    let isEnded (t : State) : Prop := (getSeq t q.val).st = .ended
    let port (k : Nat) : List Item :=
      let y : Nat := nbits w (48 + 16 * k + 15) (48 + 16 * k)
      let tone : Nat := k + 4 * rd s .seq q.val 0x088 12 12
      let sw : Int × Nat := segSweep s q.val tone
      if nbits y 5 0 = 0 ∧ nbits y 13 11 = 0 then [] else
        [{ stamp := stampOf (x.playAt + 4), group := seqGroup s q.val, deps := [], load :=
            if q.val < 64 then .port q.val tone 0 (nbits y 5 0) (nbits y 10 6) (nbits y 13 11) false (nbits w 44 42) x.playAt sw.1 sw.2
            else .flux (8 * (q.val - 80) + tone) 0 (nbits y 5 0) (nbits y 10 6) (nbits y 13 11) (nbits w 44 42) x.playAt sw.1 }]
    (SeqStill s q.val →
      (segLive s q.val = false → exec (.segmentPlay q) s = .next s ∧ exec (.segmentDecide q) s = .next s) ∧
      (segLive s q.val = true →
        (x.played = true → exec (.segmentPlay q) s = .next s) ∧
        (x.played = false → x.w = x.playAt → x.ahead = [] → nbits w 46 45 = 0 → Gives (.segmentPlay q) s (fun t =>
          t.items = s.items ++ (List.range 4).flatMap port ∧ getSeq t q.val = { x with played := true } ∧ others t ∧
          { t with items := s.items, seqs := s.seqs, strms := s.strms } = passTo x.playAt s)) ∧
        (x.played = false → ∀ k, k < 2 → nbit w (45 + k) = true → ptUp s .evt = true → Gives (.segmentPlay q) s (fun t =>
          (getSeq t q.val).played = true ∧ (x.playAt + 1, fireLineOf q.val k, false) ∈ t.lines)) ∧
        (ticksTo (b - 4) atD.clk.tc ≤ 0 → Gives (.segmentDecide q) s (fun t =>
          getSeq t q.val = { x with fixing := true } ∧ others t ∧ { t with seqs := s.seqs } = atD)) ∧
        (req = some .stop → fixed { x with req := none, endAt := some b } isEnded) ∧
        (∀ e, req = some (.jump e) → fixed { x with req := none, succAt := some (b, .jump e) } (follows (.jump e) b)) ∧
        (req = none → (nbits w 27 16 = 0 ∨ 1 < x.plays) →
          fixed { x with succAt := some (b, .again) } (follows .again b)) ∧
        (req = none → nbits w 27 16 ≠ 0 → x.plays ≤ 1 →
          (nbit w 41 = true → fixed { x with endAt := some b } isEnded) ∧
          (nbit w 41 = false → fixed { x with succAt := some (b, .next (nbits w 39 28)) } (follows (.next (nbits w 39 28)) b))) ∧
        (ticksTo (b - 4) s.clk.tc ≤ 0 → x.req = none → ∀ e : BitVec 12,
          Gives (.segStop q) s (fun t =>
            getSeq t q.val = { x with req := some .stop, swAt := some s.clk.tc } ∧ { t with seqs := s.seqs } = s) ∧
          Gives (.segJump q e) s (fun t =>
            getSeq t q.val = { x with req := some (.jump e.toNat), swAt := some s.clk.tc } ∧ { t with seqs := s.seqs } = s)))) ∧
    (s.later = [] → x.halt = false → x.fixing = false → x.endAt = none → segLive s q.val = true → x.played = true →
      ∀ n at_, x.succAt = some (at_, n) →
        let v : State := startSuccessor q.val (passTo at_ s)
        exec (.segmentPlay q) s = exec (.segmentPlay q) v ∧ (0 ≤ ticksTo at_ v.clk.tc → follows n at_ v ∧ others v)) ∧
    (∀ e : BitVec 12,
      (segMode s q.val = false → exec (.segJump q e) s = .next s ∧ exec (.segStop q) s = .next s) ∧
      (segMode s q.val = true →
        let v : State := overdue q.val s
        let y : Seq := getSeq v q.val
        let asked (r : SegReq) (t : State) : Prop := getSeq t q.val = { y with req := some r, swAt := some s.clk.tc } ∧
          (∀ r, r ≠ q.val → getSeq t r = getSeq v r) ∧
          regsBut [addrOf .seq q.val 0x094, addrOf .seq q.val 0x010] v t ∧
          (y.req = none → t.regs = v.regs) ∧
          (y.req ≠ none → rdBit t .seq q.val 0x010 9 = true ∧
            rd t .seq q.val 0x094 15 0 = min (rd v .seq q.val 0x094 15 0 + 1) 65535)
        (SeqStill s q.val → segLive s q.val = false ∨ ticksTo (b - 4) s.clk.tc ≤ 0 → v = s) ∧
        Gives (.segJump q e) s (asked (.jump e.toNat)) ∧ Gives (.segStop q) s (asked .stop))) ∧
    (∀ mode : Bool,
      ((kindOf s q.val = 0 ∨ kindOf s q.val = 2) → seqActive s q.val = false → segMode s q.val ≠ mode →
        Gives (.seqModeWrite q mode) s (fun t =>
          rdBit t .seq q.val 0x040 16 = mode ∧ getSeq t q.val = { x with st := .storeBad } ∧ q.val ∈ t.unchecked ∧
          others t ∧ regsBut [addrOf .seq q.val 0x040] s t ∧ t.stores = s.stores)) ∧
      ((kindOf s q.val = 0 ∨ kindOf s q.val = 2) → seqActive s q.val = true → Gives (.seqModeWrite q mode) s (fun t =>
        rdBit t .seq q.val 0x010 6 = true ∧ regsBut [addrOf .seq q.val 0x010] s t ∧ onlyRegsIrq s t)) ∧
      ((kindOf s q.val ≠ 0 ∧ kindOf s q.val ≠ 2) ∨ (seqActive s q.val = false ∧ segMode s q.val = mode) →
        exec (.seqModeWrite q mode) s = .next s))

/-- R76, R83, R85 (marks), R77, R84, R104, R216, R217, R219, R220 (activations): a mark reaches every member of its
group that is in the shot in microcode, in its due tick; a late one raises LATE at the master. An activation delivered
in its due tick, the first of its input in that tick, ends a wait or is latched as GO at its sequencer, replaces a
segment request but for a software request of its own tick, starts a shot, triggers a capture unit, asks for a TBUS
cycle, or raises its host event, as its task input says; a further one of the tick is counted as a coincidence, and a
late one acts when it is accepted, or makes one with the activation due then. It states the completion of: markDue,
taskActivation. -/
def Obligations.MarksAndActivationsReachTheirConsumers : Prop :=
  ∀ (s : State) (g : Fin 8) (n : Fin 192), ptUp s .seq = true → ptUp s .evt = true →
    let k : Nat := n.val
    let isM : Payload → Bool := fun l => match l with
      | .mark h _ => decide (h = g.val)
      | _ => false
    let isA : Payload → Bool := fun l => decide (l = .act k)
    let takes (t : State) (q : Nat) : Prop :=
      q < 120 ∧ seqGroup t q = some g.val ∧ (getSeq t q).inShot = true ∧ segMode t q = false
    let t : State := activate k s.clk.tc s
    let x : Seq := getSeq s k
    let y : Group := getGroup s (k - 112)
    let calm : Prop := x.st = .wait → 0 ≤ ticksTo x.w s.clk.tc →
      x.ahead = [] ∧ ∀ l, limitTick s k x = some l → ticksTo l s.clk.tc < 0
    let waits : Prop := seqLive s k = true ∧ x.st = .wait ∧ (uword s k x.pc).wait = 4 ∧ x.met = none ∧
      0 ≤ ticksTo x.w s.clk.tc
    (∃ act : Item → State → State,
      Delivers (.markDue g) s s isM act (fun i t => tagItem i tagLate (raiseEvt .seq (112 + g.val) 0 t)) act ∧
      ∀ (i : Item) (id : Nat) (u : State), i.load = .mark g.val id →
        (∀ q, takes u q → getSeq (act i u) q = { getSeq u q with marks := (getSeq u q).marks ++ [(id, dueTick i u)] }) ∧
        (∀ q, ¬ takes u q → getSeq (act i u) q = getSeq u q) ∧ { act i u with seqs := u.seqs } = u) ∧
    Delivers (.taskActivation n) s (nextAct k s) isA (fun _ t => activateOnce k t)
      (fun i t => tagItem i tagLate (raiseEvt (inputPage k).1 (inputPage k).2 0 t))
      (fun _ t => if actWaits k t.clk.tc t then coincide k t else activateOnce k t) ∧
    (k ∉ s.tick.acts → activateOnce k s = activate k s.clk.tc { s with tick := { s.tick with acts := k :: s.tick.acts } }) ∧
    (k < 188 → let c : Nat := 0x404 + 8 * k
      (k ∈ s.tick.acts → activateOnce k s = coincide k s) ∧
      rdBit (coincide k s) .evt 0 0x010 1 = true ∧ rdBit (coincide k s) .evt 0 c 31 = true ∧
      rd (coincide k s) .evt 0 c 15 0 = min (rd s .evt 0 c 15 0 + 1) 65535 ∧
      regsBut [addrOf .evt 0 0x010, addrOf .evt 0 c] s (coincide k s)) ∧
    (k < 120 → goStarts s k = true → refusesStart s (k - 112) = false → y.pend = none → y.opening = none →
      y.running = false → y.boundary = false → (getGroup t (k - 112)).opening = some (s.clk.tc + 24)) ∧
    (k < 120 → goStarts s k = false → enabled s .seq k = false → t = s) ∧
    (k < 120 → goStarts s k = false → enabled s .seq k = true → segMode s k = true →
      (x.swAt ≠ some s.clk.tc → (getSeq t k).req = some (.jump (rd s .seq k 0x088 27 16)) ∧
        ((getSeq (overdue k s) k).req ≠ none → rdBit t .seq k 0x010 9 = true)) ∧
      (x.swAt = some s.clk.tc → t.seqs = s.seqs ∧ rdBit t .seq k 0x010 9 = true ∧
        rd t .seq k 0x094 15 0 = min (rd s .seq k 0x094 15 0 + 1) 65535)) ∧
    (k < 120 → goStarts s k = false → enabled s .seq k = true → segMode s k = false → SeqQuiet s k → calm →
      (waits → getSeq t k = { x with met := some s.clk.tc } ∧ (∀ r, r ≠ k → getSeq t r = getSeq s r) ∧
        { t with seqs := s.seqs } = s) ∧
      (¬ waits →
        (x.go = none → getSeq t k = { x with go := some s.clk.tc } ∧ (∀ r, r ≠ k → getSeq t r = getSeq s r) ∧
          rdBit t .seq k 0x084 16 = true ∧ regsBut [addrOf .seq k 0x084] s t) ∧
        (x.go ≠ none → t.seqs = s.seqs ∧ rd t .seq k 0x084 15 0 = min (rd s .seq k 0x084 15 0 + 1) 65535))) ∧
    (120 ≤ k → k < 152 → let u : Nat := (k - 120) / 4
      getCap t u = { getCap s u with acts := (getCap s u).acts ++ [((k - 120) % 4, s.clk.tc)] } ∧
      (∀ v, v ≠ u → getCap t v = getCap s v) ∧ { t with caps := s.caps } = s) ∧
    (172 ≤ k → k < 180 → let v : Nat := 0x050 + 4 * (k - 172)
      (rdBit s .tbus 0 v 31 = false ∨ tbusOn s = false → t = s) ∧
      (rdBit s .tbus 0 v 31 = true → tbusOn s = true → t = { s with tbusQ := s.tbusQ ++
        [{ line := rd s .tbus 0 v 2 0, notBefore := s.clk.tc + 2, start := none }] })) ∧
    (180 ≤ k → k < 188 → rdBit t .evt 0 0x010 (8 + (k - 180)) = true ∧ t.items = s.items ∧ t.clk = s.clk ∧
      regsBut [addrOf .evt 0 0x010] s t) ∧
    (188 ≤ k → t = s)

/-- R116, R120 to R138, R20 (drive and probe outputs): a port action due at an output is delivered with all its parts;
it places its phase operation 36 ticks after its word, delayed by its timing set, and a pulse there with the amplitude
latched, playing zeros when its slot is bad, which is counted, or when it is late, in place of what has not passed the
gate; the frame updates of its tick come first. Stream samples arrive as far as the window has room; samples not there
when they were due are counted and tag the shot in which they were due. MUTE sets its bit; a tone mismatch is counted
and faults; a DAC fault mutes the output. It states the completion of: portActionDue, refillData, refillUnderrun,
mute, toneVerify, dacFault. -/
def Obligations.DriveActionsPlaceTheirPulses : Prop :=
  ∀ (s : State) (out : Fin 80) (tone : Fin 34), ptUp s .drv = true →
    let o : Nat := out.val
    let n : Nat := tone.val
    let pg : PT := (outPage o).1
    let k : Nat := (outPage o).2
    let isP : Payload → Bool := fun l => match l with
      | .port a b _ _ _ _ _ _ _ _ _ => decide (a = o ∧ b = n)
      | _ => false
    Delivers (.portActionDue out tone) s s isP (fun i t => portAct false i (framesFirst t))
      (fun i t => tagItem i (tagLate ||| tagCorrupt) (raiseEvt pg k 0 t)) (portAct true) ∧
    (∀ (i : Item) (late : Bool) start env amp phop fs tset w asw psw,
      i.load = .port o n start env amp phop fs tset w asw psw →
      let t : State := portAct late i s
      let sp : Nat := 32 * (w.toNat + 36) + start
      let dp : Nat := 256 * sp + tsetDelay s o tset
      let op : PhOp := phOp s o n phop psw
      let x : Tone := toneNow s o n
      let e : Nat := envOf s o n env amp
      let bad : Bool := slotBad s o e n w.toNat
      t.items = s.items ∧ t.clk = s.clk ∧
      ((e = 0 ∨ enabled s pg k = false) → op ≠ .none →
        (getTone t o n).ops = placePhase { sp := sp, dp := dp, w := w.toNat, op := op, deps := i.deps } x.ops ∧
        (getTone t o n).pulses = x.pulses) ∧
      (op ≠ .none → drvPast s ≤ dp →
        ({ sp := sp, dp := dp, w := w.toNat, op := op, deps := i.deps } : Phase) ∈ (getTone t o n).ops) ∧
      (e ≠ 0 → enabled s pg k = true →
        (late = false → bad = true → rdBit t pg k 0x010 4 = true ∧
          rd t pg k 0x058 31 16 = min (rd s pg k 0x058 31 16 + 1) 65535) ∧
        (outRd s o (slotOff o e + 4) 23 0 ≠ 0 → ∃ p ∈ (getTone t o n).pulses,
          p.dp = (if late then max dp (256 * gatedUpTo s) else dp) ∧ p.w = w.toNat ∧ p.ts = tsetDelay s o tset ∧
          p.base = fget (outReg s o (slotOff o e)) 16 0 ∧ p.len = outRd s o (slotOff o e + 4) 23 0 ∧
          p.m = rateM (fget (outReg s o (slotOff o e)) 31 30) ∧ p.stop = dp + 256 * p.len * p.m ∧
          p.amp = latchAmp s o n amp asw ∧ p.half = (fs && frameZ s o n) ∧
          p.mute = (late || (!late && bad)) ∧ p.deps = i.deps))) ∧
    (∀ (m : Fin 8) (v : Nat),
      let y : Stream := getStream s o m.val
      let due : Nat := strmEntered s y
      let missing (j : Nat) : Prop := y.got ≤ j ∨ ∃ g ∈ y.gaps, g.1 ≤ j ∧ j < g.2
      let counted (t : State) : Prop := ∃ c : Nat,
        rd t pg k 0x050 23 0 = min (rd s pg k 0x050 23 0 + c) (2 ^ 24 - 1) ∧
        (0 < c ↔ ∃ j, y.counted ≤ j ∧ j < due ∧ missing j) ∧
        (0 < c → rdBit t pg k 0x010 1 = true) ∧
        (∀ g, outGroup s o = some g → (getGroup s g).running = true →
          (∃ j, y.counted ≤ j ∧ j < due ∧ missing j ∧ 0 ≤ ticksTo (getGroup s g).t0 (strmDue y j)) →
          (getGroup t g).tag = (getGroup s g).tag ||| tagCorrupt)
      (strmBusy s o m.val = false → exec (.refillData out m v) s = .next s ∧ exec (.refillUnderrun out m v) s = .next s) ∧
      (strmBusy s o m.val = true →
        Gives (.refillUnderrun out m v) s (fun t => counted t ∧ t.clk = s.clk ∧ t.stores = s.stores ∧
          getStream t o m.val = { y with counted := max y.counted due }) ∧
        (portServes s o = true → Gives (.refillData out m v) s (fun t => counted t ∧ t.clk = s.clk ∧
          (getStream t o m.val).got = max y.got (min (y.got + v) (min y.len (due + strmWindow s o m.val))))) ∧
        (portServes s o = false → exec (.refillData out m v) s = .next s))) ∧
    (∀ on : Bool, Gives (.mute out on) s (fun t => rdBit t pg k 0x040 0 = on ∧ regsBut [addrOf pg k 0x040] s t ∧
      (on = false → { t with regs := s.regs, outs := s.outs } = s) ∧
      (on = true → ∀ g, seqGroup s o = some g → (getGroup s g).running = true →
        (getGroup t g).tag = (getGroup s g).tag ||| tagCorrupt))) ∧
    exec (.toneVerify out tone false) s = .next s ∧
    Gives (.toneVerify out tone true) s (fun t => rd t pg k 0x05C 15 0 = min (rd s pg k 0x05C 15 0 + 1) 65535 ∧
      rd t pg k 0x05C 21 16 = n ∧ rdBit t pg k 0x018 0 = true) ∧
    (∀ d : Fin 336, d.val = o → Gives (.dacFault d) s (fun t =>
      (getOut t o).dacFault = true ∧ rdBit t pg k 0x018 1 = true ∧ outMuted t o = true))

/-- R145, R152, R154 to R156, R20, R466 (flux outputs): a flux action due is delivered with all its parts; a PLAY,
STEP or PARK at an output that follows its schedule is placed 36 ticks after its word, delayed by its timing set,
unless its sequencer's fault stops it, a PLAY with a bad slot as zeros, counted; a late step makes the output hold its
level. PARK_NOW sets its bit and places a ramp to park, unless the output goes to 0 V; a ramp reaches its target at
its rate, PARKED with park; an output that resets hands over to the park holder once it is near park after its ramp,
or 1 ms after. PD_CFG.CLR waits for the boundary, and a DAC fault keeps the output from its schedule. It states the
completion of: fluxActionDue, parkNow, dacFault, rampDone, parkHandover, pdClr. -/
def Obligations.FluxOutputsRampAndHandOver : Prop :=
  ∀ (s : State) (o : Fin 256), ptUp s .flx = true → ptUp s .drv = true →
    let n : Nat := o.val
    let f : Flux := getFlux s n
    let ev (t : State) (b : Nat) : Bool := rdBit t .flx (flxPage n) 0x010 b
    let isF : Payload → Bool := fun l => match l with
      | .flux k _ _ _ _ _ _ _ => decide (k = n)
      | _ => false
    Delivers (.fluxActionDue o) s s isF fluxAct
      (fun i t => tagItem i (tagLate ||| tagCorrupt) (raiseEvt .flx (flxPage n) 0 t)) fluxLate ∧
    (∀ (i : Item) start env amp fop tset w asw, i.load = .flux n start env amp fop tset w asw → tset < 8 → amp < 32 →
      let p : Nat := 256 * (4 * (w.toNat + 36) + start) + 256 * flxRd s n (0x10 + 4 * tset) 19 8 +
        flxRd s n (0x10 + 4 * tset) 7 0
      let slot : Word := reg s .flx (flxPage n) (0x504 + 4 * (env - 1))
      let len : Nat := fget slot 16 0
      let base : Nat := 8 * fget slot 29 17
      let bad : Prop := len = 0 ∨ 65536 < base + len
      (fluxHeld s n = true ∨ fop = 0 ∨ ((fop = 1 ∨ fop = 2) ∧ env = 0) → fluxAct i s = s) ∧
      (fluxHeld s n = false → (fop = 1 ∨ fop = 2) → env ≠ 0 → env < 64 →
        (fluxAct i s).items = s.items ∧ (fluxAct i s).clk = s.clk ∧
        (bad → rdBit (fluxAct i s) .flx (flxPage n) 0x010 3 = true ∧
          rd (fluxAct i s) .flx (flxPage n) 0x040 31 16 = min (rd s .flx (flxPage n) 0x040 31 16 + 1) 65535) ∧
        (len ≠ 0 → (∀ e ∈ f.stopAt, p < e) → ∃ a ∈ (getFlux (fluxAct i s) n).acts, a.p = p ∧ a.w = w.toNat ∧
          a.deps = i.deps ∧ ∃ u, a.act = .play u ∧ u.p = p ∧ u.amp = fluxAmp s n amp asw ∧ u.base = base ∧ u.len = len ∧
            u.m = 2 ^ fget slot 31 30 ∧ u.hold = decide (fop = 2) ∧ (u.mute = true ↔ bad) ∧ u.deps = i.deps)) ∧
      (fluxHeld s n = false → (fop = 3 ∨ fop = 4) →
        (fluxAct i s).items = s.items ∧ (fluxAct i s).clk = s.clk ∧ (getFlux (fluxAct i s) n).holder = false ∧
        ((∀ e ∈ f.stopAt, p < e) → ∃ a ∈ (getFlux (fluxAct i s) n).acts, a.p = p ∧ a.w = w.toNat ∧ a.deps = i.deps ∧
          a.act = (if fop = 3 then .step (fluxAmp s n amp asw) else .park))) ∧
      (fluxHeld s n = false → f.holder = false → f.stopAt = none →
        ∃ a ∈ (getFlux (fluxLate i s) n).acts, a.p = fluxPosAt s.clk.tc ∧ a.act = .hold)) ∧
    (∀ on : Bool, Gives (.parkNow o on) s (fun t =>
      rdBit t .flx (flxPage n) (flxOff n 0x00) 0 = on ∧ t.clk = s.clk ∧
      (on = true → (getFlux t n).holder = true ∨ ((getFlux t n).atPark = true ∧ (getFlux t n).ramp = none) ∨
        (getFlux t n).holds.contains .off = true ∨
        ∃ a ∈ (getFlux t n).acts, a.p = fluxPosAt s.clk.tc ∧ a.act = .park))) ∧
    (∀ toPark : Bool, f.holder = false → f.ramp = some toPark → f.acts = [] → f.playing = [] → f.moves = [] → f.tails = [] →
      f.next = fluxNow s → f.b ≠ rampTarget s n toPark → 256 * f.next ≤ f.rampPos + 256 → f.rampPos ≤ 256 * f.next →
      s.clk.tc.toNat + rampTicks s n < 2 ^ 48 - 24 →
      Gives (.rampDone o) s (fun t =>
        (getFlux t n).ramp = none ∧ (getFlux t n).b = rampTarget s n toPark ∧
        (toPark = true → (getFlux t n).b = (parkCode s n : Rat) ∧ (getFlux t n).atPark = true ∧ ev t 8 = true) ∧
        t.clk = (passTicks (rampTicks s n) s).clk)) ∧
    ((f.holder = true ∨ (isResetting s .flx (flxPage n) = false ∧ ready s = true)) → exec (.parkHandover o) s = .next s) ∧
    (f.holder = false → (isResetting s .flx (flxPage n) = true ∨ ready s = false) →
      Gives (.parkHandover o) s (fun t => ∃ u v : State, exec (.rampDone o) s = .next v ∧
        (nearPark u n = true ∨ u.clk.tc = v.clk.tc + 750000) ∧
        (getFlux t n).holder = true ∧ (getFlux t n).atPark = true ∧ (getFlux t n).code = parkCode s n ∧
        (getFlux t n).acts = [] ∧ { t with fluxes := u.fluxes } = u)) ∧
    Gives (.pdClr o) s (fun t => getFlux t n = { f with clr := true } ∧ (∀ m, m ≠ n → getFlux t m = getFlux s m) ∧
      { t with fluxes := s.fluxes } = s) ∧
    (∀ d : Fin 336, d.val = 80 + n → Gives (.dacFault d) s (fun t =>
      (getFlux t n).holds.contains .dacFault = true ∧ rdBit t .flx (flxPage n) 0x018 0 = true ∧ fluxHeld t n = true))

/-- R160, R168, R172, R173, R174, R180, R182, R184, R20 (windows): an arm due at a demodulator is delivered; it places
a window 36 ticks and the offsets after its word when its settings are good, unless two are held or one shares a tick
with it; a refused arm, and a late one, has its VOID word formed in the 4th tick after, due at the Ladle 4 ticks after
that. The window that ends first closes with the raw codes it spans, whose corrected samples and filtered components
stay within their formats; its word shows in the page 23 ticks after its last tick and is due at the Ladle 28 ticks
after it; a list of another length changes nothing (the model's reading, log 3). It states the completion of:
windowArmDue, windowClose. -/
def Obligations.WindowsAreHeldAndAnswered : Prop :=
  ∀ (s : State) (d : Fin 512), ptUp s .rdi = true →
    let k : Nat := d.val
    let n : Nat := dmIn k
    let x : Demod := getDemod s k
    let isA : Payload → Bool := fun l => match l with
      | .arm m _ _ => decide (m = k)
      | _ => false
    let near (t : State) : Prop := pagesBut [ptBase .rdi + n] s t ∧ t.stores = s.stores ∧ t.pantry = s.pantry
    Delivers (.windowArmDue d) s s isA armAct (fun i t => tagItem i (tagLate ||| tagVoid) (raiseEvt .rdi n 0 t)) armLate ∧
    (∀ (i : Item) w woff, i.load = .arm k w woff →
      let t : State := armAct i s
      let len : Nat := dmRd s k 0x0C 28 16
      let t0 : BitVec 48 := w + BitVec.ofNat 48 (36 + woff + rd s .rdi n 0x044 15 0)
      let live : List Win := x.wins.filter fun v => decide (0 ≤ ticksTo s.clk.tc (v.openAt + BitVec.ofNat 48 (v.len - 1)))
      let full : Prop := live.any (fun v => shareTick v.openAt v.len t0 len) = true ∨ 2 ≤ live.length
      let refused (cause : Nat) (due : BitVec 48) (u : State) : Prop := u.items = s.items ∧ u.clk = s.clk ∧ near u ∧
        getDemod u k = { x with refused := x.refused ++
          [{ cause := cause, due := due, form := s.clk.tc + 4, group := i.group, deps := i.deps }] }
      (isResetting s .rdi n = true → refused 7 s.clk.tc t) ∧
      (isResetting s .rdi n = false → winErr s k = true → refused 6 s.clk.tc t ∧ rdBit t .rdi n 0x010 2 = true ∧
        rd t .rdi n 0x054 15 0 = min (rd s .rdi n 0x054 15 0 + 1) 65535) ∧
      (isResetting s .rdi n = false → winErr s k = false → full → refused 2 s.clk.tc t ∧ rdBit t .rdi n 0x010 1 = true ∧
        rd t .rdi n 0x054 31 16 = min (rd s .rdi n 0x054 31 16 + 1) 65535) ∧
      (isResetting s .rdi n = false → winErr s k = false → ¬ full →
        getDemod t k = { x with wins := x.wins ++
          [{ openAt := t0, len := len, due := s.clk.tc, group := i.group, deps := i.deps }] } ∧
        { t with demods := s.demods } = s) ∧
      refused (if isResetting s .rdi n then 7 else 1) (dueTick i s) (armLate i s)) ∧
    (∀ r : Refused, r.cause < 8 →
      let t : State := formRefused k s r
      t.items = s.items ++ [{
        stamp := stampOf (r.form + 4)
        group := r.group
        deps := []
        load := .result { void := true, cause := r.cause, demod := k, endTc := r.due } }] ∧
      rdBit t .rdi n (dmOff k 0x38) 8 = true ∧ rd t .rdi n (dmOff k 0x38) 11 9 = r.cause ∧
      rd t .rdi n 0x050 15 0 = min (rd s .rdi n 0x050 15 0 + 1) 65535 ∧ near t) ∧
    (∀ lead raw : List (BitVec 12),
      let xs : List (BitVec 12) := lead ++ raw
      (x.wins = [] → exec (.windowClose d lead raw) s = .next s) ∧
      (∀ w, firstEnd x.wins = some w →
        let last : BitVec 48 := w.openAt + BitVec.ofNat 48 (w.len - 1)
        let u : State := passTo (last + 23) s
        let zs : List (Int × Int) := windowSamples u k w xs
        let r : Res := windowResult u k w zs (windowOvr u k w xs)
        (lead.length ≠ 192 ∨ raw.length ≠ 32 * (w.len + 6) → exec (.windowClose d lead raw) s = .next s) ∧
        (lead.length = 192 → raw.length = 32 * (w.len + 6) → Gives (.windowClose d lead raw) s (fun t =>
          getDemod t k = { x with wins := x.wins.erase w } ∧ (∀ m, m ≠ k → getDemod t m = getDemod s m) ∧ t.clk = u.clk ∧
          t.items = s.items ++ [{ stamp := stampOf (last + 28), group := w.group, deps := w.deps, load := .result r }] ∧
          zs.length = w.len ∧ (∀ z ∈ zs, -32767 ≤ z.1 ∧ z.1 ≤ 32767 ∧ -32767 ≤ z.2 ∧ z.2 ≤ 32767) ∧
          (∀ y ∈ combineAll u n (w.openAt - 6) xs, -2048 ≤ y ∧ y ≤ 2047) ∧
          r.demod = k ∧ r.endTc = last ∧ (w.withdrawn = true → r.void = true ∧ r.cause = 3) ∧
          reg t .rdi n (dmOff k 0x30) = BitVec.ofNat 32 (ux 32 r.i) ∧
          reg t .rdi n (dmOff k 0x34) = BitVec.ofNat 32 (ux 32 r.q) ∧
          rdBit t .rdi n (dmOff k 0x38) 31 = true ∧ rdBit t .rdi n (dmOff k 0x38) 8 = r.void ∧ near t))))

/-- R162 to R166, R467, R187 (read-out inputs): a shadow of the spare slice that is not paused shows its residual, and
the spare takes its fitted corrections; within the limit it is ready, beyond it a failure is noted, and a second in a
row faults, as does an active slice beyond it. At a permitted tick, while the rotation is on, a ready spare takes its
position, and the slice there becomes the spare. Over-range samples are counted with their tick, and raised once in a
shot; QUIET is raised at the start of a pause; a bias out of limits faults. It states the completion of: adcFault,
handover, inputQuiet, inputOverrange, shadowStep. -/
def Obligations.SlicesRotateUnderTheirChecks : Prop :=
  ∀ (s : State) (n : Fin 16) (resid ofs gain skew : BitVec 16) (pos : Fin 16) (act : BitVec 16), ptUp s .rdi = true →
    let k : Nat := n.val
    let x : Rdi := getRdi s k
    let o : Nat := sliceOff x.spare
    let lim : Nat := rd s .rdi k 0x070 15 0
    let shadow : Instr := .shadowStep n ⟨resid, pos, act⟩ ofs gain skew
    let near (t : State) : Prop := regsBut [addrOf .rdi k 0x04C, addrOf .rdi k 0x010, addrOf .rdi k 0x018] s t
    (shadowPaused s k = true → exec shadow s = .next s) ∧
    (shadowPaused s k = false → Gives shadow s (fun t => t.clk = s.clk ∧ t.items = s.items ∧
      (lim < act.toNat → rdBit t .rdi k 0x018 0 = true) ∧
      (x.retired ≠ none ∨ x.ready = true → { getRdi t k with fitted := x.fitted } = x))) ∧
    (shadowPaused s k = false → x.retired = none → x.ready = false → x.spare < 17 → Gives shadow s (fun t =>
      { getRdi t k with fitted := x.fitted } = (if resid.toNat ≤ lim then { x with fails := 0, ready := true } else { x with fails := x.fails + 1 }) ∧
      rd t .rdi k 0x048 15 0 = resid.toNat ∧ rd t .rdi k (o + 12) 15 0 = resid.toNat ∧ rd t .rdi k o 15 0 = ofs.toNat ∧
      rd t .rdi k (o + 4) 15 0 = gain.toNat ∧ rd t .rdi k (o + 8) 15 0 = skew.toNat ∧
      (lim < resid.toNat → 0 < x.fails → rdBit t .rdi k 0x018 0 = true))) ∧
    ((x.ready = false ∨ handoverOk s k = false ∨ x.retired ≠ none ∨ rdBit s .rdi k 0x040 1 = false) → exec (.handover n) s = .next s) ∧
    (x.ready = true → handoverOk s k = true → x.retired = none → rdBit s .rdi k 0x040 1 = true → x.spare < 17 → x.pos < 16 → Gives (.handover n) s (fun t =>
      sliceAt t k x.pos = x.spare ∧ (∀ p, p < 16 → p ≠ x.pos → sliceAt t k p = sliceAt s k p) ∧
      { getRdi t k with moved := x.moved } = { x with spare := sliceAt s k x.pos, pos := (x.pos + 1) % 16, ready := false } ∧
      (s.clk.tc, x.pos, sliceAt s k x.pos) ∈ (getRdi t k).moved ∧
      rdBit t .rdi k 0x010 8 = true ∧ rd t .rdi k 0x048 31 16 = min (rd s .rdi k 0x048 31 16 + 1) 65535)) ∧
    (∀ below : Nat, let q : Bool := decide (256 * rd s .rdi k 0x040 15 8 < below)
      Gives (.inputQuiet n below) s (fun t => getRdi t k = { x with quiet := q } ∧ near t ∧
        (q = true → x.quiet = false → rdBit t .rdi k 0x010 9 = true) ∧ (q = false ∨ x.quiet = true → t.regs = s.regs))) ∧
    Gives (.inputOverrange n) s (fun t => rd t .rdi k 0x04C 31 0 = min (rd s .rdi k 0x04C 31 0 + 1) (2 ^ 32 - 1) ∧ near t ∧
      s.clk.tc ∈ (getRdi t k).ovrs ∧
      (s.seen.contains ((ptBase .rdi + k) * 32 + 3) = false → rdBit t .rdi k 0x010 3 = true) ∧
      (s.seen.contains ((ptBase .rdi + k) * 32 + 3) = true → rdBit t .rdi k 0x010 3 = rdBit s .rdi k 0x010 3)) ∧
    Gives (.adcFault n) s (fun t => rdBit t .rdi k 0x018 1 = true ∧ near t ∧ onlyRegsIrq s t)

/-- R189, R191, R193, R195 to R197, R204, R205, R212 (results, arms and frames): a result due at the Ladle is
delivered, a late one as VOID; it puts an entry write into the next tick for every enabled slot that binds its
demodulator, with the state its basis and frame show; a withdrawn one is counted and writes nothing, one with no slot
is counted and raised. An entry's write sets its fields and has the channels evaluated a tick later. An arm copy
counts in PEND, a frame item toggles the frames and observables it names, and a parity error takes a slot out of
service with its entry VOID, or a channel. R190, R192, R196, R212 (writes of the slot table): a write of the selected
slot's bindings or settings takes effect while no shot runs in a group its old or new binding concerns, and is held
otherwise with CFG_DEFER; the frame bits follow the drive group's shots; a settings write advances the index while INC
is set; the updates Mortar makes in the same tick come after it. CLR_ENTRIES clears every entry's flags and round once
no shot runs. It states the completion of: resultDue, armCopyDue, frameUpdateDue, slotBindWrite, slotCfgWrite,
clrEntries, tableParity. -/
def Obligations.LadleEntriesAndSlotsFollow : Prop :=
  (∀ (s : State) (d : Fin 512), ptUp s .ladle = true →
     let v : State := ladleCatch s
     let ks : List Nat := slotsOf v d.val
     let ent (t : State) (k hi lo : Nat) : Nat := rd t .ladle 0 (entryOff k) hi lo
     let isR : Payload → Bool := fun l => match l with
       | .result r => decide (r.demod = d.val)
       | _ => false
     let isA : Payload → Bool := fun l => decide (l = .armCopy d.val)
     let onR (late : Bool) : Item → State → State := fun i t => match i.load with
       | .result r => noteWritten i r (takeResult { r with void := late || r.void } t)
       | _ => t
     let onA : Item → State → State := fun i t => match i.load with
       | .armCopy k => countArm k i.deps t
       | _ => t
     let next (t : State) : Prop := (s.clk.tc + 1, LJob.eval) ∈ t.ladleJobs ∧ t.clk = s.clk
     Delivers (.resultDue d) s (if s.items.any (fun i => isR i.load) then readCatch d.val s else readUntil d.val s) isR (onR false)
       (fun i t => tagItem i (tagLate ||| tagVoid) (ladleLate t)) (onR true) ∧
     (∀ r : Res, r.demod = d.val → s.items.any (fun i => isFrame i.load) = false → ladleOn v = true →
       let t : State := takeResult r s
       (ks = [] → rdBit t .ladle 0 0x010 3 = true ∧
         rd t .ladle 0 0x054 31 16 = min (rd v .ladle 0 0x054 31 16 + 1) 65535 ∧ onlyRegsIrq v t) ∧
       (ks ≠ [] → r.cause = 3 → rd t .ladle 0 0x054 15 0 = min (rd v .ladle 0 0x054 15 0 + 1) 65535 ∧
         regsBut [addrOf .ladle 0 0x054] v t ∧ onlyRegs v t) ∧
       (ks ≠ [] → r.cause ≠ 3 → { t with ladleJobs := v.ladleJobs } = v ∧ ∀ k ∈ ks, (v.clk.tc + 1,
         LJob.write k r (framed (getSlot v k) r.state).1 (framed (getSlot v k) r.state).2) ∈ t.ladleJobs)) ∧
     (∀ (k : Fin 512) (r : Res) (st : Nat) (fl : Bool), ladleOn s = true → r.state < 4 → st < 4 →
       let t : State := runJob s.clk.tc (.write k.val r st fl) s
       ent t k.val 28 25 = ent s k.val 28 25 - 1 ∧ ent t k.val 15 0 = (ent s k.val 15 0 + 1) % 65536 ∧
       ent t k.val 31 31 = b2n (!r.void) ∧ ent t k.val 30 30 = b2n r.void ∧ next t ∧
       (r.void = false → ent t k.val 19 18 = r.state ∧ ent t k.val 17 16 = st ∧ ent t k.val 29 29 = b2n fl)) ∧
     Delivers (.armCopyDue d) s s isA onA (fun i t => tagItem i tagLate (ladleLate t)) onA ∧
     (∀ deps : List Nat, ladleOn v = true →
       let t : State := countArm d.val deps s
       (ks.Nodup → ∀ k ∈ ks, k < 512 → ent t k 28 25 = (ent v k 28 25 + 1) % 16) ∧ next t ∧
       t.provArms = v.provArms ++ (if deps = [] then [] else [(d.val, deps)])) ∧
     Delivers .frameUpdateDue s s isFrame frameAct (fun i t => tagItem i (tagLate ||| tagFrame) (ladleLate t)) frameAct ∧
     (∀ (i : Item) own flips obs pend, i.load = .frame own flips obs pend → ladleOn v = true →
       let t : State := frameAct i s
       next t ∧
       ((flips.map (·.1)).Nodup → (∀ f ∈ flips,
           slotFx (getSlot t f.1) = xor (slotFx (getSlot v f.1)) f.2.1 ∧
           slotFz (getSlot t f.1) = xor (slotFz (getSlot v f.1)) f.2.2) ∧
         ∀ k, k ∉ flips.map (·.1) → getSlot t k = getSlot v k) ∧
       (obs.Nodup → ∀ b, b < 64 → rdBit t .ladle 0 (0x080 + 4 * (b / 32)) (b % 32) =
         xor (rdBit v .ladle 0 (0x080 + 4 * (b / 32)) (b % 32)) (decide (b ∈ obs)))) ∧
     (∀ idx : Fin 512, Gives (.tableParity false idx) s (fun t => (getSlot t idx.val).bad = true ∧ next t ∧
       ent t idx.val 31 30 = 1 ∧ rdBit t .ladle 0 0x018 0 = true ∧ (∀ k, k ≠ idx.val → getSlot t k = getSlot s k))) ∧
     (∀ idx : Fin 512, Gives (.tableParity true idx) s (fun t => (getDch t (idx.val % 64)).bad = true ∧ next t ∧
       evalDch t (idx.val % 64) = .void ∧ rdBit t .ladle 0 0x018 0 = true ∧ t.slots = s.slots))) ∧
  (∀ (s : State) (v : Word), ptUp s .ladle = true →
     let k : Nat := rd s .ladle 0 0x048 8 0
     let x : LSlot := getSlot s k
     let v1 : Word := v &&& 0x07FFFFFF
     let others (t : State) : Prop := ∀ j, j ≠ k → getSlot t j = getSlot s j
     (x.hCfg = none → bindBusy s x.bind x.cfg = false → bindBusy s v1 x.cfg = false → Gives (.slotBindWrite v) s (fun t =>
       (getSlot t k).bind = v1 ∧ (getSlot t k).hBind = none ∧ slotFx (getSlot t k) = slotFx x ∧
       slotFz (getSlot t k) = slotFz x ∧ others t)) ∧
     (bindBusy s x.bind x.cfg = true ∨ bindBusy s v1 (x.hCfg.getD x.cfg) = true → Gives (.slotBindWrite v) s (fun t =>
       (getSlot t k).bind = x.bind ∧ (getSlot t k).cfg = x.cfg ∧ (getSlot t k).hBind = some v1 ∧ others t ∧
       rdBit t .ladle 0 0x010 4 = true ∧ regsBut [addrOf .ladle 0 0x010] s t)) ∧
     (x.hBind = none → bindBusy s x.bind x.cfg = false → bindBusy s x.bind (v &&& slotCfgMask) = false →
       Gives (.slotCfgWrite v) s (fun t =>
         (getSlot t k).cfg &&& slotCfgMask = v &&& slotCfgMask ∧
         ((∀ u ∈ s.tick.flips, u.1 ≠ k) → slotFx (getSlot t k) = wbit v 0 ∧ slotFz (getSlot t k) = wbit v 1) ∧ (getSlot t k).hCfg = none ∧ (getSlot t k).hFrame = none ∧ others t ∧
         rd t .ladle 0 0x048 8 0 = (if rdBit s .ladle 0 0x048 31 then (k + 1) % 512 else k))) ∧
     (bindBusy s x.bind x.cfg = true → Gives (.slotCfgWrite v) s (fun t =>
       (getSlot t k).bind = x.bind ∧ (getSlot t k).cfg &&& slotCfgMask = x.cfg &&& slotCfgMask ∧
       (getSlot t k).hCfg = some (v &&& slotCfgMask) ∧ rdBit t .ladle 0 0x010 4 = true ∧ others t ∧
       (seqShotRuns s (slotDrvSeq x) = true → (getSlot t k).cfg = x.cfg ∧
         (getSlot t k).hFrame = some (wbit v 0, wbit v 1)))) ∧
     ((List.range 8).any (shotRuns s) = true → Gives .clrEntries s (fun t => t = { s with clrEntries := true })) ∧
     ((List.range 8).any (shotRuns s) = false → Gives .clrEntries s (fun t => t.clrEntries = false ∧ t.slots = s.slots ∧
       ∀ j, j < 512 → rd t .ladle 0 (entryOff j) 31 30 = 0 ∧ rd t .ladle 0 (entryOff j) 15 0 = 0 ∧
         entryPend t j = entryPend (ladleCatchEval s) j)))

/-- R198, R200, R202, R203, R206, R209, R210 (channels): a channel's new state reaches the sequencer groups in its due
tick, noting when it last became other than UNRESOLVED; a write of a channel block sets the register, ends its parity
condition, supersedes the broadcasts to come, leaves UNRESOLVED as the last one, two ticks later, and has the channels
evaluated in the next tick; CLR_LOST makes every LOST channel UNRESOLVED and no other; a refresh sends every exported
channel again, with its next number. R214 to R222 (the event router): a write of EVT_FIRE fires the lines of its ones
in its tick, a second write of the tick in the next one. What the router settles of a tick, once it is over: a fired
line is shown; when the router is in service and the line is not disabled, it sends an activation due in the next tick
to each task input that listens to it; a disabled line's activation is dropped and counted; a line beyond the loop
guard's limit is disabled, with a fault. Two lines of a tick at one input make one activation, counted as a
coincidence; a software fire that meets its line's producer merges with it. Ones written to LINE_DIS put their lines
back, with their counts cleared, but for one disabled in that very tick. It states the completion of: broadcastDue,
clrLost, dchWrite, resend, evtFireWrite, lineDisWrite. -/
def Obligations.ChannelsAndLinesReachTheirListeners : Prop :=
  (∀ (s : State) (c : Fin 64), ptUp s .ladle = true →
     let v : State := ladleCatch s
     let y : Dch := getDch v c.val
     let act : Item → State → State := fun i t => match i.load with
       | .bcast k st => setBcast k st t.clk.tc t
       | _ => t
     Delivers (.broadcastDue c) s (ladleUntil (isBcast c.val) (2 * s.ladleJobs.length) v) (isBcast c.val) act
       (fun i t => tagItem i tagLate (lateDecision (dueTick i t) t)) act ∧
     (∀ (st : DState) (d : BitVec 48),
       let t : State := setBcast c.val st d s
       let x : Dch := getDch s c.val
       (getDch t c.val).bc = st ∧ (getDch t c.val).cur = x.cur ∧
       (getDch t c.val).since = (if x.bc = .unresolved ∧ st ≠ .unresolved then d else x.since) ∧
       (getDch t c.val).moved = (if x.bc = st then x.moved else some d) ∧
       (∀ k, k ≠ c.val → getDch t k = getDch s k) ∧ t.clk = s.clk ∧ t.slots = s.slots) ∧
     (∀ (idx : Fin 256) (w : Word), idx.val / 4 = c.val → Gives (.dchWrite idx w) s (fun t =>
       reg t .ladle 0 (dchOff c.val + 4 * (idx.val % 4)) = (w &&& (if idx.val % 4 = 0 then 0x01FFFFFF
         else if idx.val % 4 = 3 then 0x0003FFFF else 0x07FFFFFF)) ∧
       (getDch t c.val).bad = false ∧ (getDch t c.val).got = none ∧ (getDch t c.val).bc = y.bc ∧
       (getDch t c.val).cur = .unresolved ∧ lastBcast c.val t = .unresolved ∧
       (∀ i ∈ t.items, isBcast c.val i.load = true → dueIn i.stamp s.clk.tc ≤ 2) ∧
       (s.clk.tc + 1, LJob.eval) ∈ t.ladleJobs ∧
       (∀ k, k ≠ c.val → getDch t k = getDch v k) ∧ t.slots = s.slots ∧ t.clk = s.clk)) ∧
     Gives .clrLost s (fun t =>
       (y.cur = .lost → (getDch t c.val).cur = .unresolved ∧
         { stamp := stampOf (s.clk.tc + 2), group := none, deps := [], load := .bcast c.val .unresolved } ∈ t.items) ∧
       (y.cur ≠ .lost → getDch t c.val = y) ∧ (getDch t c.val).bc = y.bc ∧ t.slots = s.slots ∧ t.clk = s.clk) ∧
     (rd v .ladle 0 0x040 15 0 = 0 → exec .resend s = .next v) ∧
     (rd v .ladle 0 0x040 15 0 ≠ 0 → Gives .resend s (fun t =>
       (getDch t c.val).cur = y.cur ∧ (getDch t c.val).bc = y.bc ∧ t.items = v.items ∧ t.slots = s.slots ∧
       (getDch t c.val).sent =
         if ladleOn v = true ∧ dchType v c.val ≠ 5 ∧ rd v .ladle 0 (dchOff c.val) 19 18 ≠ 0 then (y.sent + 1) % 256
         else y.sent))) ∧
  (∀ (s : State) (k : Fin 4) (b : Fin 32) (v : Word), ptUp s .evt = true →
     let line : Nat := 32 * k.val + b.val
     let u : State := lineCatch s
     let fireAt : State := if u.lines.any (fun l => decide (l.1 = u.clk.tc) && l.2.2) then passTicks 1 u else u
     let ones : Word := v &&& ~~~raisedNow u (addrOf .evt 0 (0x060 + 4 * k.val))
     Gives (.evtFireWrite k v) s (fun t => { t with lines := fireAt.lines } = fireAt ∧ ∀ e, e ∈ t.lines ↔
       e ∈ fireAt.lines ∨ ∃ j, j < 32 ∧ wbit v j = true ∧ e = (fireAt.clk.tc, 32 * k.val + j, true)) ∧
     ((∀ e ∈ s.lines, ticksTo e.1 s.clk.tc ≤ 0) → u = s) ∧
     (∀ (x : BitVec 48) (soft : Bool), s.lines = [(x, line, soft)] →
       (0 < ticksTo x s.clk.tc → u = atTick x (settleTick x) s) ∧
       ((∀ f ∈ s.fires, f.at_ ≠ x) →
         let t : State := settleTick x s
         let limit : Nat := rd s .evt 0 0x040 6 0
         let counts : Bool := !lineBit s 0x070 line
         let exceeds : Prop := counts = true ∧ limit < 64 ∧ limit ≤ guardCount x line s
         let dropped : Prop := rd t .evt 0 0x044 15 0 = min (rd s .evt 0 0x044 15 0 + 1) 65535 ∧
           rdBit t .evt 0 0x010 2 = true ∧ t.items = s.items
         lineBit t 0x080 line = true ∧ t.lines = [] ∧ t.clk = s.clk ∧ pagesBut [ptBase .evt] s t ∧
         (enabled s .evt 0 = false → t.items = s.items ∧ t.fires = s.fires) ∧
         (enabled s .evt 0 = true →
           (lineBit s 0x060 line = true → dropped) ∧
           (lineBit s 0x060 line = false → exceeds → dropped ∧ lineBit t 0x060 line = true ∧
             rdBit t .evt 0 0x018 0 = true ∧ rd t .evt 0 0x040 22 16 = line) ∧
           (lineBit s 0x060 line = false → ¬ exceeds → linesActive x t = [line] ∧
             t.items = s.items ++ ((List.range 188).filter (listens s line)).map (fun i =>
               { stamp := stampOf (x + 1), group := inputGroup s i, deps := [], load := .act i }) ∧
             regsBut [addrOf .evt 0 (0x080 + 4 * (line / 32))] s t)))) ∧
     (∀ (x : BitVec 48) (i : Fin 188),
       let t : State := settleInput x s i.val
       let ls : List Nat := (linesActive x s).filter (fun l => listens s l i.val)
       let c : Nat := 0x404 + 8 * i.val
       (ls = [] → t = s) ∧
       (ls ≠ [] → t.items = s.items ++
         [{ stamp := stampOf (x + 1), group := inputGroup s i.val, deps := [], load := .act i.val }]) ∧
       (ls.length = 1 → t.regs = s.regs) ∧
       (2 ≤ ls.length → rdBit t .evt 0 0x010 1 = true ∧ rdBit t .evt 0 c 31 = true ∧
         rd t .evt 0 c 15 0 = min (rd s .evt 0 c 15 0 + 1) 65535)) ∧
     (∀ x : BitVec 48, s.lines = [(x, line, true), (x, line, false)] ∨ s.lines = [(x, line, false), (x, line, true)] →
       rd (settleTick x s) .evt 0 0x044 31 16 = min (rd s .evt 0 0x044 31 16 + 1) 65535) ∧
     Gives (.lineDisWrite k v) s (fun t =>
       reg t .evt 0 (0x060 + 4 * k.val) = (reg u .evt 0 (0x060 + 4 * k.val) &&& ~~~ones) ∧
       regsBut [addrOf .evt 0 (0x060 + 4 * k.val)] u t ∧ { t with regs := u.regs, fires := u.fires } = u ∧
       (wbit ones b.val = true → ∀ f ∈ t.fires, f.line = line → f.counted = false)))

/-- R225 to R228, R243 (rounds): a syndrome due at Mortar is taken into the round its tick falls in when its slot
feeds a detector and the round is one of the stream's, and is a stray otherwise; a late one raises LATE and tags the
shot. At the end of a round each local or forwarded detector's event is formed, once, from its one input: the change
of its state, with a missing or unreadable input counted; the round is then closed. It states the completion of:
detectionInputDue, roundClose. -/
def Obligations.MortarRoundsFormTheirEvents : Prop :=
  ∀ (s : State) (slot : Fin 512), ptUp s .mortar = true →
    let g : Bytes := s.stores
    let isD : Payload → Bool := fun l => match l with
      | .det k _ _ => decide (k = slot.val)
      | _ => false
    let strays (u t : State) : Prop := rdBit t .mortar 0 0x010 4 = true ∧
      rd t .mortar 0 0x078 15 0 = min (rd u .mortar 0 0x078 15 0 + 1) 65535 ∧ t.mort = u.mort ∧ t.clk = u.clk
    let r : Nat := s.mort.rounds
    let u : State := passTo (mortTick s (roundTick s r + 1)) s
    (∃ act : Item → State → State,
      Delivers (.detectionInputDue slot) s s isD act
        (fun i t => tagItem i (tagLate ||| tagFrame) (raiseEvt .mortar 0 0 t)) (fun _ t => t) ∧
      ∀ (i : Item) (n st : Nat) (u : State), i.load = .det slot.val n st →
        let round : Nat := roundOf u (ticksTo u.mort.t0 u.clk.tc).toNat
        (u.mort.run = false → u.mort.issued = 0 → act i u = u) ∧
        (u.mort.run = true ∨ 0 < u.mort.issued →
          ((detOf u.stores slot = none ∨ rndCount u ≤ round) → strays u (act i u)) ∧
          (∀ d, detOf u.stores slot = some d → round < rndCount u →
            act i u = { u with mort := { u.mort with ins := u.mort.ins ++ [(round, d.1, st)] } }))) ∧
    ((s.mort.run = false ∨ rndCount s ≤ r) → exec .roundClose s = .next s) ∧
    (s.mort.run = true → r < rndCount s → Gives .roundClose s (fun t =>
      t.mort.rounds = r + 1 ∧ rd t .mortar 0 0x070 15 0 = r % 65536 ∧ t.clk = u.clk ∧ t.stores = s.stores ∧
      (∀ i ∈ t.mort.ins, i ∈ s.mort.ins ∧ i.1 ≠ r) ∧
      (∀ d st, (d, gDet g d) ∈ gDets g → detKind (gDet g d) = 0 → st < 2 → (∀ e, (r, e) ∉ s.mort.events) →
        s.mort.ins.filter (fun i => decide (i.1 = r ∧ i.2.1 = d)) = [(r, d, st)] →
        (d ∈ t.mort.refs ↔ st = 1) ∧
        ((r, d) ∈ t.mort.events ↔ ¬ (r = 0 ∧ detExcl0 (gDet g d) = true) ∧ (st = 1 ↔ d ∉ s.mort.refs))) ∧
      (∀ d, (d, gDet g d) ∈ gDets g → detKind (gDet g d) = 0 →
        s.mort.ins.filter (fun i => decide (i.1 = r ∧ i.2.1 = d)) = [] → rdBit t .mortar 0 0x010 2 = true)))

/-- R229 to R235, R244 to R248 (windows): each window is complete once, in its tick; its outputs are issued 900 ticks
later as one item due four ticks after, in the order of windows, with its largest cluster, slack and count shown and
its event lines fired; a window with no cluster over 256 detectors is not abandoned; the final window ends the stream.
A failed test decode or a parity error faults its tile and is counted; a tile's parity error abandons the window being
decoded, and the graph's ends the stream in GRAPH_BAD. It states the completion of: decodeWindowComplete,
windowOutputIssue, testDecode, tileParity, graphParity. -/
def Obligations.MortarWindowsAreIssuedInOrder : Prop :=
  ∀ (s : State) (largest slack : Nat) (abandoned : List (Nat × Nat)) (n : Fin 17), ptUp s .mortar = true →
    let m : Mort := s.mort
    let grp : Nat := m.group
    let fin (j : Nat) : Bool := (windowOf s j).2.2
    let x : BitVec 48 := windowY s m.issued + 900
    let frames (t : State) : List Item := t.items.filter fun i => match i.load with
      | .frame _ _ _ _ => true
      | _ => false
    let state (t : State) : Nat := rd t .mortar 0 0x070 31 29
    let atX : State := passTo x s
    let gone : Prop := m.wrecked = true ∨ abandonedNodes atX m.issued abandoned ≠ []
    let k : Nat := n.val
    let faulted (t : State) : Prop := rdBit t .tile k 0x018 0 = true ∧
      rd t .tile k 0x044 15 0 = min (rd s .tile k 0x044 15 0 + 1) 65535
    ((m.run = false ∨ (0 < m.wins ∧ fin (m.wins - 1) = true)) → exec .decodeWindowComplete s = .next s) ∧
    (m.run = true → (m.wins = 0 ∨ fin (m.wins - 1) = false) → Gives .decodeWindowComplete s (fun t =>
      t.mort.wins = m.wins + 1 ∧ t.mort.issued = m.issued ∧ t.mort.events = m.events ∧ t.mort.run = true ∧
      t.clk = (passTo (windowY s m.wins) s).clk ∧ t.items = s.items)) ∧
    ((m.run = false ∨ m.wins ≤ m.issued) → exec (.windowOutputIssue largest slack abandoned) s = .next s) ∧
    (m.run = true → m.issued < m.wins → Gives (.windowOutputIssue largest slack abandoned) s (fun t =>
      t.mort.issued = m.issued + 1 ∧ t.mort.lastX = x ∧ t.mort.run = (!fin m.issued) ∧ t.mort.wrecked = false ∧
      t.clk = atX.clk ∧ rd t .mortar 0 0x080 31 16 = min (largestCluster atX m.issued) 65535 ∧
      rd t .mortar 0 0x080 15 0 = (if gone then 0 else min slack 65535) ∧
      rd t .mortar 0 0x070 23 16 = min (rd s .mortar 0 0x070 23 16 + 1) 255 ∧
      (fin m.issued = true → state t = 2 ∧ t.mort.events = []) ∧ (fin m.issued = false → state t = state s) ∧
      (ptUp s .evt = true → (x, 124, false) ∈ t.lines ∧ (gone → (x, 125, false) ∈ t.lines)) ∧
      (largestCluster atX m.issued ≤ 256 → m.wrecked = false → ¬ gone) ∧
      (gone → rdBit t .mortar 0 0x010 1 = true ∧
        rd t .mortar 0 0x07C 31 16 = min (rd s .mortar 0 0x07C 31 16 + 1) 65535) ∧
      (frames t = frames s ∨ ∃ i, frames t = frames s ++ [i] ∧ i.stamp = stampOf (x + 4) ∧ i.group = some grp ∧ i.deps = []))) ∧
    exec (.testDecode n true) s = .next s ∧
    Gives (.testDecode n false) s (fun t => faulted t ∧ t.mort = m) ∧
    Gives (.tileParity n) s (fun t => faulted t ∧
      (m.run = true → m.issued < m.wins → tileServes s k = true → t.mort = { m with wrecked := true }) ∧
      ((m.run = false ∨ m.wins ≤ m.issued ∨ tileServes s k = false) → t.mort = m)) ∧
    Gives .graphParity s (fun t => t.graphBad = true ∧ state t = 4 ∧ rdBit t .mortar 0 0x018 0 = true ∧ t.clk = s.clk ∧
      (m.run = false → t.mort = m ∧ t.items = s.items) ∧
      (m.run = true → t.mort = {} ∧ (∃ i, t.items = s.items ++ [i] ∧ i.stamp = stampOf (s.clk.tc + 4) ∧ i.group = some grp) ∧
        ((getGroup s grp).running = true → (getGroup t grp).tag = (getGroup s grp).tag ||| tagFrame)))

/-- R255 to R261, R273 (capture units): ARM arms a unit with cleared counters and an empty capture, or shows the first
failing check with its event; a busy unit ignores it. An abort before the trigger ends the unit, and one in the
trigger's tick restores what the trigger showed and takes its line back. A true condition moves the trigger sequencer,
and one with TRIG starts the capture in that tick and fires the unit's line, unless its pre-trigger is short and such
triggers are ignored, which is counted. It states the completion of: arm, abort, clrCnt, triggerSample. -/
def Obligations.CaptureUnitsArmAndTrigger : Prop :=
  ∀ (s : State) (u : Fin 8), ptUp s .cap = true →
    let n : Nat := u.val
    let x : Cap := getCap s n
    let st : Nat := capState s n
    let tc : BitVec 48 := s.clk.tc
    let busy : Prop := 1 ≤ capStatus s n ∧ capStatus s n ≤ 3
    let evt (t : State) (b : Nat) : Bool := rdBit t .cap n 0x010 b
    let near (t : State) : Prop := pagesBut [ptBase .cap + n] s t ∧ t.stores = s.stores ∧ t.pantry = s.pantry ∧ t.clk = s.clk
    let refused (e : Nat) (t : State) : Prop := capStatus t n = e ∧ evt t 7 = true ∧ getCap t n = x ∧ near t
    let ended (e : Nat) (t : State) : Prop := capStatus t n = e ∧ (getCap t n).recs = x.recs ∧ (getCap t n).hist = [] ∧
      (getCap t n).cur = [] ∧ (getCap t n).trig = none ∧ near t
    let only (c : Nat) (p : Nat) : Prop := rd s .cap n (condOff st c) 2 0 = p ∧ rdBit s .cap n (condOff st c) 31 = true ∧
      (∀ i, i < 4 → i ≠ c → rdBit s .cap n (condOff st i) 31 = false) ∧ predType s n p = 9 ∧
      rdBit s .cap n (0x100 + 8 * p) 31 = false
    (busy → exec (.arm u) s = .next s) ∧
    (¬ busy → 1 ≤ stage s → Gives (.arm u) s (refused 0xB)) ∧
    (¬ busy → stage s = 0 → capCfgOk s n = false → Gives (.arm u) s (refused 0xA)) ∧
    (¬ busy → stage s = 0 → capCfgOk s n = true →
      (capRangeOk s n = false → Gives (.arm u) s (refused 0x9)) ∧
      (capRangeOk s n = true → capPortOk s n = false → Gives (.arm u) s (refused 0x8)) ∧
      (capRangeOk s n = true → capPortOk s n = true → capSizeOk s n = false → Gives (.arm u) s (refused 0x7)) ∧
      (capRangeOk s n = true → capPortOk s n = true → capSizeOk s n = true → Gives (.arm u) s (fun t =>
        capStatus t n = 1 ∧ capState t n = rd s .cap n 0x040 2 0 ∧ rdBit t .cap n 0x074 31 = false ∧
        (∀ j, j < 4 → capCount t n j = 0) ∧ (getCap t n).a0 = tc ∧ (getCap t n).recs = x.recs ∧
        (getCap t n).base = capBase s n ∧ (getCap t n).ring = capSize s n ∧ (getCap t n).hist = [] ∧
        (getCap t n).trig = none ∧ (getCap t n).egrAt = x.egrAt ∧ near t))) ∧
    (¬ busy → (capStatus s n ≠ 4 ∨ x.ended ≠ some tc) → exec (.abort u) s = .next s) ∧
    ((capStatus s n = 1 ∨ capStatus s n = 2) → x.ended ≠ some tc → Gives (.abort u) s (ended 5)) ∧
    (∀ g, capStatus s n = 3 → x.trig = some g → g.at_ = tc → Gives (.abort u) s (fun t => ended 5 t ∧
      reg t .cap n 0x07C = g.old.1 ∧ reg t .cap n 0x080 = g.old.2.1 ∧ reg t .cap n 0x084 = g.old.2.2 ∧
      evt t 1 = g.oldEvt ∧ (tc, 96 + n, false) ∉ t.lines)) ∧
    Gives (.clrCnt u) s (fun t => reg t .cap n 0x088 = 0 ∧ reg t .cap n 0x318 = 0 ∧ reg t .cap n 0x31C = 0 ∧ onlyRegs s t ∧
      regsBut [addrOf .cap n 0x088, addrOf .cap n 0x318, addrOf .cap n 0x31C] s t) ∧
    ((¬ busy ∨ x.done = some tc) → exec (.triggerSample u) s = .next s) ∧
    (busy → x.done ≠ some tc → (∀ i, i < 4 → rdBit s .cap n (condOff st i) 31 = false) → Gives (.triggerSample u) s (fun t =>
      capStatus t n = capStatus s n ∧ capState t n = st ∧ (getCap t n).done = some tc ∧ (getCap t n).hits = [] ∧
      (getCap t n).trig = x.trig ∧ near t)) ∧
    (∀ c p, busy → x.done ≠ some tc → c < 4 → only c p →
      rdBit s .cap n (condOff st c) 8 = true → rdBit s .cap n (condOff st c) 9 = false → capStatus s n ≠ 3 →
      ((preFull s n tc = true ∨ rdBit s .cap n 0x040 19 = true) → Gives (.triggerSample u) s (fun t =>
        capStatus t n = 3 ∧ capState t n = rd s .cap n (condOff st c) 6 4 ∧ evt t 1 = true ∧
        rdPair t .cap n 0x080 = tc.toNat ∧ rd t .cap n 0x07C 14 12 = rd s .cap n (condOff st c) 6 4 ∧
        (∃ g, (getCap t n).trig = some g ∧ g.t = tc ∧ g.cond = c ∧ g.left = st) ∧
        (ptUp s .evt = true → (tc, 96 + n, false) ∈ t.lines))) ∧
      (preFull s n tc = false → rdBit s .cap n 0x040 19 = false → Gives (.triggerSample u) s (fun t =>
        capStatus t n = capStatus s n ∧ capState t n = st ∧ evt t 3 = true ∧
        rd t .cap n 0x088 15 0 = min (rd s .cap n 0x088 15 0 + 1) 65535)))

/-- R252, R253, R259, R260, R265 to R269, R273 (captured data and egress): hits and items reach a busy unit at their
tick and lag; the pre-trigger's fill makes it READY, the last datum completes the capture as DONE. A record whose
shots have closed is released with their tags; a released one that its egress port reaches is sent in order with the
next sequence number, or overwritten when its destination is not valid. Enabling egress starts the numbers anew; a
busy unit ignores it. It states the completion of: hitDue, sourceItem, preFilled, captureComplete, recordRelease,
recordSend, egrEnable. -/
def Obligations.CapturedRecordsAreReleasedAndSent : Prop :=
  ∀ (s : State) (u : Fin 8) (src : BitVec 48), ptUp s .cap = true →
    let n : Nat := u.val
    let x : Cap := getCap s n
    let k : Nat := capKind s n
    let now : State := passTo (src + BitVec.ofNat 48 (capLag k)) s
    let busy : Prop := 1 ≤ capStatus s n ∧ capStatus s n ≤ 3
    (∀ h : Hit,
      ((¬ busy ∨ hitOf now n src h = none) → exec (.hitDue u src h) s = .next now) ∧
      (∀ g, busy → hitOf now n src h = some g → Gives (.hitDue u src h) s (fun t => t.clk = now.clk ∧
        (getCap t n).hits = x.hits ++ [(src, g, decide (0 < ticksTo (src + BitVec.ofNat 48 (capLag k)) s.clk.tc))] ∧
        (0 < ticksTo (src + BitVec.ofNat 48 (capLag k)) s.clk.tc → rdBit t .cap n 0x010 0 = true))) ∧
      (k < 4 → hitOf now n src h = some h)) ∧
    (∀ bytes : List Byte,
      let at1 : BitVec 48 := match nextIq s n with
        | some w => if k = 4 then w.res.endTc else src
        | none => src
      let here : State := passTo (at1 + BitVec.ofNat 48 (capLag k)) s
      let old (a : BitVec 48) : Prop := k ≠ 4 ∧ ∃ g, x.got = some g ∧ ticksTo g a ≤ 0
      (k < 4 → itemOf here n at1 bytes = some (src, bytes)) ∧
      (itemOf here n at1 bytes = none → exec (.sourceItem u src bytes) s = .next here) ∧
      (∀ a bs, itemOf here n at1 bytes = some (a, bs) →
        ((¬ busy ∨ bs.length ≠ capItemSize k ∨ bs = [] ∨ old a ∨ ticksTo x.a0 a < 0) →
          exec (.sourceItem u src bytes) s = .next (wordTaken n here)) ∧
        (busy → bs.length = capItemSize k → bs ≠ [] → ¬ old a → 0 ≤ ticksTo x.a0 a → capDense k = true → x.trig = none →
          Gives (.sourceItem u src bytes) s (fun t => t.clk = here.clk ∧ (getCap t n).got = some a ∧ (getCap t n).gap = false ∧
            ∃ it : CapItem, it.tick = a ∧ it.bytes = bs ∧ it.gap = x.gap ∧
              (getCap t n).hist = x.hist ++ [it])))) ∧
    (capStatus s n ≠ 1 → exec (.preFilled u) s = .next s) ∧
    (capStatus s n = 1 → capDense k = true → Gives (.preFilled u) s (fun t => capStatus t n = 2 ∧
      regsBut [addrOf .cap n 0x074] s t ∧ { t with regs := s.regs } = passTo (x.a0 + BitVec.ofNat 48 (capPre s n)) s)) ∧
    (capStatus s n = 1 → capDense k = false → capPre s n ≤ x.hist.length → Gives (.preFilled u) s (fun t =>
      capStatus t n = 2 ∧ regsBut [addrOf .cap n 0x074] s t ∧ onlyRegs s t)) ∧
    (capStatus s n ≠ 3 ∨ captureFull (beginRecords n s) n = false → exec (.captureComplete u) s = .next s) ∧
    (capStatus s n = 3 → captureFull (beginRecords n s) n = true → capMode s n ≠ 1 → Gives (.captureComplete u) s (fun t =>
      capStatus t n = 4 ∧ rdBit t .cap n 0x010 2 = true ∧ (getCap t n).cur = [] ∧ (getCap t n).hist = [] ∧
      (getCap t n).trig = none ∧ (getCap t n).ended = some s.clk.tc)) ∧
    (releaseFirst s (capGroup s n) x.recs = none → exec (.recordRelease u) s = .next s) ∧
    (∀ r rs, releaseFirst s (capGroup s n) x.recs = some (r, rs) →
      let a : Nat := r.base + (r.place + 2) % r.ring
      Gives (.recordRelease u) s (fun t => getCap t n = { x with recs := rs } ∧ t.regs = s.regs ∧
        (a < 2 ^ 35 → (∀ q ∈ s.preqs, ¬ (q.acc = s.clk.tc ∧ q.port = 96 ∧ q.addr / 64 = a / 64)) → ∀ b, b < 2 ^ 35 → pantryByte t b = if b = a then recordTag s (capGroup s n) r else pantryByte s b))) ∧
    ((egrReady s n = false ∨ x.recs = [] ∨ (∃ r rs, x.recs = r :: rs ∧ r.released = false)) →
      exec (.recordSend u) s = .next s) ∧
    (∀ r rs, egrReady s n = true → x.recs = r :: rs → r.released = true →
      (egrDest s n = none → Gives (.recordSend u) s (fun t => (getCap t n).recs = rs ∧ rdBit t .cap n 0x010 5 = true ∧
        rd t .cap n 0x318 31 0 = min (rd s .cap n 0x318 31 0 + 1) (2 ^ 32 - 1) ∧ t.outbox = s.outbox)) ∧
      (∀ dest, egrDest s n = some dest → portReaches s (88 + n) r.base r.ring = false → exec (.recordSend u) s = .next s) ∧
      (∀ dest, egrDest s n = some dest → portReaches s (88 + n) r.base r.ring = true → headerDue s n r.mt = false → Gives (.recordSend u) s (fun t =>
        (getCap t n).recs = rs ∧ (getCap t n).ovw = 0 ∧ t.outbox.length = s.outbox.length + 1 ∧
        t.clk = (egrWait n s).clk ∧
        rd t .cap n 0x310 31 0 = (rd s .cap n 0x310 31 0 + 1) % 2 ^ 32 ∧ t.pantry = s.pantry))) ∧
    ((busy ∨ egrOn s n = true) → exec (.egrEnable u) s = .next s) ∧
    (¬ busy → egrOn s n = false → Gives (.egrEnable u) s (fun t => egrOn t n = true ∧ t.pantry = s.pantry ∧
      (egrDest s n = none ∨ enabled s .host (egrPort s n) = false ∨ rdBit s .host (egrPort s n) 0x060 29 = false →
        rd t .cap n 0x310 31 0 = 0 ∧ t.outbox = s.outbox)))

/-- R276: whatever the masks, and as they are at reset, the mapping of addresses to places is one-to-one, each channel
and bank bit is the address bit XOR the parity of the masked row bits, and the row and column are the address's own;
in one row every aligned span of 32 blocks falls on 32 different channels. -/
def Obligations.PantryMappingIsOneToOne : Prop :=
  ∀ (s : State) (a b : BitVec 35),
    let ch (x : BitVec 35) (k : Nat) : Bool :=
      xor (nbit x.toNat (6 + k)) (oddOnes 15 (nbits x.toNat 34 20 &&& rd s .pantry 0 (0x080 + 4 * k) 14 0))
    let bk (x : BitVec 35) (k : Nat) : Bool :=
      xor (nbit x.toNat (16 + k)) (oddOnes 15 (nbits x.toNat 34 20 &&& rd s .pantry 0 (0x094 + 4 * k) 14 0))
    (placeOf s a.toNat = placeOf s b.toNat → a = b) ∧
    placeOf s a.toNat < 2 ^ 35 ∧
    (∀ k, k < 5 → nbit (placeOf s a.toNat) (6 + k) = ch a k) ∧
    (∀ k, k < 4 → nbit (placeOf s a.toNat) (16 + k) = bk a k) ∧
    nbits (placeOf s a.toNat) 34 20 = nbits a.toNat 34 20 ∧ nbits (placeOf s a.toNat) 15 11 = nbits a.toNat 15 11 ∧
    nbits (placeOf s a.toNat) 5 0 = nbits a.toNat 5 0 ∧
    (a.toNat / 2048 = b.toNat / 2048 → a.toNat / 64 ≠ b.toNat / 64 → chanBits s a.toNat ≠ chanBits s b.toNat) ∧
    (∀ k, k < 5 → reg State.reset .pantry 0 (0x080 + 4 * k) = BitVec.ofNat 32 (2 ^ (4 + k))) ∧
    (∀ k, k < 4 → reg State.reset .pantry 0 (0x094 + 4 * k) = BitVec.ofNat 32 (2 ^ k))

/-- R277, R280, R281 (the ledger): ADMIT gives the selected port the result of the first failing check, with
ADMIT_REFUSED, or admits it; RELEASE is refused as BUSY while the port is active, and otherwise releases it; a mask is
written only while no port is admitted, and otherwise raises MAP_BUSY. It states the completion of: portAdmit,
portRelease, mapWrite. -/
def Obligations.PortsAreAdmittedByTheLedger : Prop :=
  ∀ (s : State) (k : Fin 9) (v : Word), ptUp s .pantry = true →
    let p : Nat := rd s .pantry 0 0x048 6 0
    let x : Port := getPort s p
    let used : Nat := ((List.range 96).map fun q => if (getPort s q).admitted then (getPort s q).bw else 0).sum
    let overlaps : Prop := ∃ q, q < 96 ∧ q ≠ p ∧ (getPort s q).admitted = true ∧
      x.base < (getPort s q).base + (getPort s q).size ∧ (getPort s q).base < x.base + x.size ∧
      ¬ (80 ≤ p ∧ 80 ≤ q ∧ p % 8 = q % 8)
    let others (t : State) : Prop := (∀ q, q ≠ p → getPort t q = getPort s q) ∧ t.pantry = s.pantry ∧ t.preqs = s.preqs
    let admits (t : State) : Prop := getPort t p = { x with admitted := true, result := 0 } ∧ others t ∧ t.regs = s.regs
    let refuses (r : Nat) (t : State) : Prop := getPort t p = { x with result := r } ∧ others t ∧
      rdBit t .pantry 0 0x010 0 = true ∧ regsBut [addrOf .pantry 0 0x010] s t
    let inside : Prop := x.base ≠ 0 ∧ x.size ≠ 0 ∧ x.base + x.size ≤ reservedFrom s
    let calm : Prop := s.evac = none ∨ rd s .pantry 0 0x0A4 31 28 ≠ 1
    (96 ≤ p → exec .portAdmit s = .next s ∧ (calm → exec .portRelease s = .next s)) ∧
    (p < 96 →
      (x.admitted = true → Gives .portAdmit s (refuses 1)) ∧
      (x.admitted = false → ¬ inside → Gives .portAdmit s (refuses 2)) ∧
      (x.admitted = false → inside → overlaps → Gives .portAdmit s (refuses 3)) ∧
      (x.admitted = false → inside → ¬ overlaps →
        (x.lat < 384 → Gives .portAdmit s (refuses 4)) ∧
        (384 ≤ x.lat → (x.bw = 0 ∨ 240 * liveChannels s < used + x.bw) → Gives .portAdmit s (refuses 5)) ∧
        (384 ≤ x.lat → 0 < x.bw → used + x.bw ≤ 240 * liveChannels s → Gives .portAdmit s admits)) ∧
      (x.admitted = false → Gives .portRelease s (fun t => t.ports = s.ports ∧ (calm → t = s))) ∧
      (x.admitted = true → portActive s p = true → Gives .portRelease s (fun t =>
        getPort t p = { x with result := 6 } ∧ others t ∧ t.wdrawn = s.wdrawn ∧ (calm → t.regs = s.regs))) ∧
      (x.admitted = true → portActive s p = false → Gives .portRelease s (fun t =>
        getPort t p = { x with admitted := false, result := 0 } ∧ others t ∧
        t.wdrawn = s.wdrawn.filter (fun q => decide (q ≠ p)) ∧ (calm → t.regs = s.regs)))) ∧
    (rdBit s .pantry 0 0x008 2 = true → exec (.mapWrite k v) s = .next s) ∧
    (rdBit s .pantry 0 0x008 2 = false → anyAdmitted s = true → Gives (.mapWrite k v) s (fun t =>
      rdBit t .pantry 0 0x010 1 = true ∧ regsBut [addrOf .pantry 0 0x010] s t ∧ onlyRegsIrq s t)) ∧
    (rdBit s .pantry 0 0x008 2 = false → anyAdmitted s = false → Gives (.mapWrite k v) s (fun t =>
      rd t .pantry 0 (0x080 + 4 * k.val) 14 0 = v.toNat % 32768 ∧ regsBut [addrOf .pantry 0 (0x080 + 4 * k.val)] s t ∧ onlyRegs s t))

/-- R278, R282 to R285, R288 to R290 (requests): a request inside its port's region is accepted with the deadline its
latency gives; a write acts and a read takes its bytes in the order of acceptance, those of one tick in port order. A
request escalates to ELEVATED and URGENT, and a missed deadline is counted, shown and raised. One is served when none
comes before it, its corrected errors and retries counted; an uncorrectable read raises ECC_UNCORR. Refreshes are
postponed at most four times; a slot shows its margin and starts a full retrain below the limit, which lasts at most
64 slots. It states the completion of: pantryRequest, escalation, deadlineMiss, bankRefresh, retrainSlot,
pantryRequestDone. -/
def Obligations.PantryRequestsKeepTheirOrder : Prop :=
  ∀ (s : State) (port : Fin 97) (a : BitVec 35) (bs : List Byte) (id : Nat) (ch : Fin 32), ptUp s .pantry = true →
    let n : Nat := 64 - a.toNat % 64
    let x : Port := getPort s port.val
    let may : Prop := if port.val = 96 then mgmtMay s a.toNat n = true
      else (x.admitted = true ∨ port.val ∈ s.wfreed) ∧ x.base ≤ a.toNat ∧ a.toNat + n ≤ x.base + x.size
    let lat : Nat := if port.val < 96 then x.lat else 0
    let here (q : PReq) : Bool := decide (q.acc = s.clk.tc ∧ q.addr / 64 = a.toNat / 64)
    let alone : Prop := ∀ q ∈ s.preqs, here q = false
    let q0 (data put : List Byte) : PReq := {
      id := s.preqNo, port := port.val, ch := channelOf s a.toNat, addr := a.toNat
      deadline := s.clk.tc + BitVec.ofNat 48 lat, data := data, acc := s.clk.tc, put := put
      before := pantryBytes s (a.toNat / 64 * 64) 64 }
    let entered (t : State) : Prop := t.preqs.map (·.id) = s.preqs.map (·.id) ++ [s.preqNo] ∧ t.preqNo = s.preqNo + 1 ∧
      t.regs = s.regs ∧ t.clk = s.clk ∧ ∀ q ∈ t.preqs, here q = true → q.data ≠ [] →
        q.data = readData (t.preqs.filter here) q q.data.length
    let find : Option PReq := s.preqs.find? (fun q => decide (q.id = id))
    let set (l : Nat) : List PReq := s.preqs.map (fun r => if r.id = id then { r with level := l } else r)
    let quiet : Prop := (getHPort s 0).replies = [] ∧ (getHPort s 1).replies = []
    let c : Nat := ch.val
    (¬ may → exec (.pantryRequest port a (some bs)) s = .next s ∧ exec (.pantryRequest port a none) s = .next s) ∧
    (may → portReads port.val = true → Gives (.pantryRequest port a none) s (fun t => entered t ∧ t.pantry = s.pantry ∧
      (alone → t.preqs = s.preqs ++ [q0 (pantryBytes s a.toNat n) []]))) ∧
    (may → portWrites port.val = true → bs.length ≤ n → Gives (.pantryRequest port a (some bs)) s (fun t => entered t ∧
      (alone → t.preqs = s.preqs ++ [q0 [] bs] ∧ ∀ b, b < 2 ^ 35 → pantryByte t b =
        if a.toNat ≤ b ∧ b < a.toNat + bs.length then bs.getD (b - a.toNat) 0 else pantryByte s b))) ∧
    (find = none → exec (.escalation id) s = .next s ∧ exec (.deadlineMiss id) s = .next s) ∧
    (∀ q, find = some q → q.port < 96 →
      (2 ≤ q.level → exec (.escalation id) s = .next s) ∧
      (q.level = 0 → Gives (.escalation id) s (fun t => t.preqs = set 1 ∧
        t.clk = (passTo (q.deadline - BitVec.ofNat 48 ((getPort s q.port).lat / 2)) s).clk ∧
        rd t .pch q.ch 0x054 15 0 = min (rd s .pch q.ch 0x054 15 0 + 1) 65535)) ∧
      (q.level = 1 → Gives (.escalation id) s (fun t => t.preqs = set 2 ∧ t.clk = (passTo (q.deadline - 96) s).clk ∧
        rd t .pch q.ch 0x054 31 16 = min (rd s .pch q.ch 0x054 31 16 + 1) 65535)) ∧
      (q.level ≠ 3 → q.ch < 32 → Gives (.deadlineMiss id) s (fun t => t.preqs = set 3 ∧ rdBit t .pantry 0 0x018 0 = true ∧
        t.clk = (passTo (q.deadline + 1) s).clk ∧
        getPort t q.port = { getPort s q.port with breach := min ((getPort s q.port).breach + 1) 0xFFFF } ∧
        rd t .pantry 0 0x0A8 30 24 = q.port ∧ rd t .pantry 0 0x0A8 20 16 = q.ch ∧
        rd t .pantry 0 0x0A8 15 0 = min (max 0 (ticksTo q.deadline t.clk.tc)).toNat 0xFFFF))) ∧
    (∀ q (corr : BitVec 16) (k : Fin 5) (bad : Bool), find = some q → quiet → q.level < 4 →
      let done : Instr := .pantryRequestDone id ⟨corr, k, bad⟩
      let gone (t : State) : Prop := t.preqs = s.preqs.filter (fun r => decide (r.id ≠ id)) ∧ t.pantry = s.pantry ∧
        mapGet (fun _ => none) t.rows (q.ch * 16 + bankBits s q.addr) = some (nbits q.addr 34 20)
      (s.preqs.any (fun r => decide (r.level < 4) && servedBefore s r q) = true → Gives done s (fun t =>
        t.preqs = s.preqs ∧ t.regs = s.regs ∧ t.pantry = s.pantry)) ∧
      (s.preqs.any (fun r => decide (r.level < 4) && servedBefore s r q) = false → q.wait = .port → q.ch < 32 →
        (96 ≤ q.port ∨ 0 ≤ ticksTo s.clk.tc q.deadline) →
        (corr = 0 → k.val = 0 → bad = false → Gives done s (fun t => gone t ∧ t.regs = s.regs)) ∧
        Gives done s (fun t => gone t ∧
          rd t .pch q.ch 0x04C 15 0 = min (rd s .pch q.ch 0x04C 15 0 + corr.toNat) 65535 ∧
          rd t .pch q.ch 0x050 15 0 = min (rd s .pch q.ch 0x050 15 0 + min k.val 3) 65535 ∧
          (k.val ≠ 0 → rdBit t .pch q.ch 0x010 2 = true) ∧
          (k.val = 4 → rd t .pch q.ch 0x050 31 16 = min (rd s .pch q.ch 0x050 31 16 + 1) 65535)) ∧
        (q.data ≠ [] → (bad = true ∨ k.val = 4) → Gives done s (fun t => rdBit t .pch q.ch 0x018 0 = true ∧
          rd t .pch q.ch 0x04C 31 16 = min (rd s .pch q.ch 0x04C 31 16 + 1) 65535 ∧
          (q.ch, bankBits s q.addr * 2 ^ 15 + nbits q.addr 34 20) ∈ t.marked)))) ∧
    (∀ postponed : Bool, let held : Nat := rd s .pch c 0x040 2 0
      (c ∈ s.retired → exec (.bankRefresh ch postponed) s = .next s) ∧
      (c ∉ s.retired →
        (held = 4 → escalated s c 1 = true → Gives (.bankRefresh ch postponed) s (fun t => rd t .pch c 0x040 2 0 = 4 ∧
          rd t .pch c 0x044 31 16 = min (rd s .pch c 0x044 31 16 + 1) 65535)) ∧
        (held < 4 → postponed = true → escalated s c 2 = true → Gives (.bankRefresh ch postponed) s (fun t =>
          rd t .pch c 0x040 2 0 = held + 1 ∧ rd t .pch c 0x044 15 0 = min (rd s .pch c 0x044 15 0 + 1) 65535)) ∧
        (held < 4 → escalated s c 1 = true → (postponed = false ∨ escalated s c 2 = false) →
          exec (.bankRefresh ch postponed) s = .next s) ∧
        (escalated s c 1 = false → Gives (.bankRefresh ch postponed) s (fun t =>
          rd t .pch c 0x040 2 0 = 0 ∧ regsBut [addrOf .pch c 0x040] s t ∧ onlyRegs s t)))) ∧
    (∀ (margin : BitVec 16) (temp : BitVec 8) (full : Bool),
      let low : Prop := margin.toNat < rd s .pch c 0x05C 15 0
      let used : Nat := ((mapGet (fun _ => none) s.trainSlots c).map (·.2)).getD 0
      let slots (t : State) (k : Nat) : Prop := mapGet (fun _ => none) t.trainSlots c = some ((toSlot c s).1, k)
      let st (t : State) : Nat := rd t .pch c 0x040 31 28
      (c ∈ s.retired → exec (.retrainSlot ch margin temp full) s = .next (notePass c s)) ∧
      (c ∉ s.retired → Gives (.retrainSlot ch margin temp full) s (fun t =>
        rd t .pch c 0x048 15 0 = margin.toNat ∧ rd t .pch c 0x040 27 20 = temp.toNat ∧ t.pantry = s.pantry ∧
        t.clk = (toSlot c s).2.clk ∧
        (0 < used → (full = true ∨ 63 ≤ used) → slots t 0 ∧ (s.evac ≠ some c → st t = 1) ∧
          (low → rdBit t .pch c 0x018 1 = true)) ∧
        (0 < used → full = false → used < 63 → slots t (used + 1) ∧ st t = st s) ∧
        (used = 0 → low → slots t 1 ∧ rdBit t .pch c 0x010 0 = true ∧ (s.evac ≠ some c → st t = 2) ∧
          rd t .pch c 0x048 31 16 = min (rd s .pch c 0x048 31 16 + 1) 65535) ∧
        (used = 0 → ¬ low → slots t 0 ∧ st t = st s))))

/-- R33, R291 to R295 (retirement): a planned retirement that is pending begins when none is in progress: the ledger
is made to fit the channels that stay, and the evacuation shows once no withdrawal waits for its shot boundary; one
waits while another runs, and the last live channel stays. At the end of the evacuation the channel leaves service
with the top gigabyte, and nothing below it is lost. A channel lost abruptly retires at once: its blocks read zero,
and DATA_LOST is raised. It states the completion of: retirementStart, evacuationDone, channelLoss. -/
def Obligations.RetirementKeepsOrLosesData : Prop :=
  ∀ (s : State) (ch : Fin 32), s.storesOk → ptUp s .pantry = true →
    let c : Nat := ch.val
    let due : Prop := c ∉ s.retired ∧ s.evac ≠ some c ∧ c ∉ s.retWait ∧ { kind := 7, inst := c, unit := 0 } ∈ s.subs
    let top : Nat := (liveChannels s - 1) * 2 ^ 30
    let shown (t : State) : Nat := rd t .pantry 0 0x0A4 31 28
    let gone (t : State) : Prop := rd t .pch c 0x040 31 28 = 4 ∧ rd t .pch c 0x020 3 0 = 4 ∧ shown t = 3 ∧
      rd t .pantry 0 0x0A4 20 16 = c ∧ rdBit t .pantry 0 0x010 2 = true
    (¬ due → exec (.retirementStart ch) s = .next s) ∧
    (due → liveChannels s ≤ 1 → Gives (.retirementStart ch) s (fun t => rd t .pch c 0x020 3 0 = 3 ∧ t.retired = s.retired ∧
      t.evac = s.evac ∧ t.pantry = s.pantry)) ∧
    (due → 1 < liveChannels s → s.evac ≠ none → Gives (.retirementStart ch) s (fun t =>
      t = { s with retWait := s.retWait ++ [c] })) ∧
    (due → 1 < liveChannels s → s.evac = none → Gives (.retirementStart ch) s (fun t =>
      t.evac = some c ∧ t.retired = s.retired ∧ t.pantry = s.pantry ∧
      (t.wdrawn = [] → t.wfreed = [] → shown t = 2 ∧ rd t .pch c 0x040 31 28 = 3) ∧
      ((t.wdrawn ≠ [] ∨ t.wfreed ≠ []) → shown t = 1 ∧ rd t .pch c 0x040 31 28 = rd s .pch c 0x040 31 28) ∧
      ledgerUsed t ≤ 240 * (liveChannels s - 1))) ∧
    ((s.evac ≠ some c ∨ shown s ≠ 2) → exec (.evacuationDone ch) s = .next s) ∧
    (s.evac = some c → shown s = 2 → s.retWait = [] → Gives (.evacuationDone ch) s (fun t =>
      t.retired = s.retired ++ [c] ∧ t.evac = none ∧ gone t ∧ ∀ p, p < top → placeByte t p = placeByte s p)) ∧
    (c ∈ s.retired → exec (.channelLoss ch) s = .next s) ∧
    (c ∉ s.retired → s.evac = none → s.retWait = [] → Gives (.channelLoss ch) s (fun t =>
      t.retired = s.retired ++ [c] ∧ gone t ∧ rdBit t .pantry 0 0x018 2 = true ∧
      ∀ p, p < top → placeByte t p = if placeChannel s p = c then 0 else placeByte s p)) ∧
    (∀ e, c ∉ s.retired → s.evac = some e → Gives (.channelLoss ch) s (fun t =>
      c ∈ t.retired ∧ e ∈ t.retired ∧ rdBit t .pantry 0 0x018 2 = true))

/-- R302, R304, R305, R310, R311, R312, R323 (LANE_STAT): from the phase in which receivers acquire, loss and return
of signal, readiness, restart, lock and slip set and clear SIGNAL, CDR, ADAPTED and LOCK as the rules say, the lands
counting in no near-end loopback and LOCK following its source; a slip moves SLIP_POS by one modulo 64, and is refused
with an event while the lane carries a logical lane of an enabled port. Only the lane's page, its port's page and the
bypass state can change. R299, R300, R305 to R307, R309, R310, R450: what a receiver decodes is what the transmitter
encoded, with the precoder or without; an idle spare of an enabled port sends PRBS31Q and checks it, whatever its
TX_SRC; an SNR report shows the figures, sets ADAPTED by SNR_MIN and raises the event below it, and counts nothing in
NEAR_PARALLEL loopback; PRBS_CLR clears the counters; the checker locks only while it works and its pattern comes, and
at an unlock its bits and errors, at least those of the window that ends it, are added, the errors saturating, and the
unlock is counted and raised. It states the completion of: slip, restart, prbsClr, los, signalReturn, rxReady,
prbsLock, prbsUnlock, lockAcquire, lockLoss, autoAlignSlip, laneSnrUpdate. -/
def Obligations.LaneStateAndFiguresFollowTheReceiver : Prop :=
  (∀ (s : State) (n : Fin 20) (snr : BitVec 16), receiving s = true →
     let page : Nat := ptBase .lane + n.val
     let port : Nat := ptBase .ring + n.val / 5
     let bit (t : State) (i : Nat) : Bool := rdBit t .lane n.val 0x04C i
     let near (t : State) : Prop := pagesBut [page, port, 0] s t ∧ t.stores = s.stores ∧ t.pantry = s.pantry
     let slipped (t : State) : Prop :=
       rd t .lane n.val 0x04C 5 0 = (rd s .lane n.val 0x04C 5 0 + 1) % 64 ∧ bit t 24 = false ∧ near t
     let inUse : Bool := portOn s (n.val / 5) && decide (laneRole s n.val < 4)
     let loop : Nat := rd s .lane n.val 0x040 27 26
     let src : Nat := rd s .lane n.val 0x040 25 24
     let live : Prop := lanePowered s n.val = true
     let lands : Prop := live ∧ (loop = 0 ∨ loop = 3)
     let hears : Prop := live ∧ loop ≠ 2 ∧ (bit s 27 = true ∨ loop = 1)
     (lands → Gives (.los n) s (fun t => bit t 27 = false ∧ bit t 26 = false ∧ bit t 25 = false ∧ bit t 24 = false ∧
       rdBit t .lane n.val 0x010 0 = true ∧ near t)) ∧
     (lands → Gives (.signalReturn n) s (fun t => bit t 27 = true ∧ (∀ i, i ≠ 27 → bit t i = bit s i) ∧
       regsBut [addrOf .lane n.val 0x04C] s t ∧ onlyRegs s t)) ∧
     (¬ lands → ∀ c ∈ [Instr.los n, .signalReturn n], exec c s = .next s) ∧
     (hears → Gives (.rxReady n snr) s (fun t =>
       bit t 26 = true ∧ rd t .lane n.val 0x054 15 0 = snr.toNat ∧
       bit t 25 = decide (10 * rd s .lane n.val 0x040 15 8 ≤ snr.toNat) ∧ bit t 24 = bit s 24 ∧
       regsBut [addrOf .lane n.val 0x04C, addrOf .lane n.val 0x054] s t ∧ onlyRegs s t)) ∧
     (¬ hears → exec (.rxReady n snr) s = .next s) ∧
     (lockReaches s n.val = true → live → Gives (.lockAcquire n) s (fun t => bit t 24 = true ∧ near t)) ∧
     ((lockReaches s n.val = false ∨ ¬ live) → exec (.lockAcquire n) s = .next s) ∧
     (lands → (lockReaches s n.val = true ↔ src ≠ 3)) ∧
     Gives (.lockLoss n) s (fun t => bit t 24 = false ∧ near t) ∧
     (ptUp s .lane = true →
     Gives (.restart n) s (fun t => bit t 26 = false ∧ bit t 25 = false ∧ bit t 24 = false ∧ bit t 27 = bit s 27 ∧ near t) ∧
     (inUse = true → Gives (.slip n) s (fun t =>
       rdBit t .lane n.val 0x010 1 = true ∧ regsBut [addrOf .lane n.val 0x010] s t ∧ onlyRegsIrq s t)) ∧
     (inUse = false → Gives (.slip n) s slipped) ∧
     (n.val < 10 → portOn s (n.val / 5) = true → rdBit s .ring (n.val / 5) 0x044 6 = true → bit s 24 = false →
       Gives (.autoAlignSlip n) s slipped) ∧
     (bit s 24 = true ∨ 10 ≤ n.val → exec (.autoAlignSlip n) s = .next s))) ∧
  (∀ (s : State) (n : Fin 20) (snr : BitVec 16) (eye : Word) (bits errs : Nat), receiving s = true →
     let run : Nat × Nat := prbsRun s n.val
     let locks : Prop := checking s n.val = true ∧ lanePowered s n.val = true ∧ loopPattern s n.val = true ∧
       rdBit s .lane n.val 0x04C 23 = false
     let drops : Prop := rdBit s .lane n.val 0x04C 23 = true ∧ rd s .lane n.val 0x040 27 26 ≠ 2 ∧ 64 < errs ∧ errs ≤ bits ∧
       bits ≤ 1024
     (∀ (gs : List Nat) (p : Nat), (∀ g ∈ gs, g < 4) → p < 4 → unprecode p (precode p gs) = gs) ∧
     (∀ l : List Bool, l.length % 2 = 0 → (grayMap l).flatMap grayBits = l) ∧
     (portOn s (n.val / 5) = true → laneRole s n.val = 4 → txSource s n.val = .prbs 7 ∧ chkCode s n.val = 7 ∧
       checking s n.val = true) ∧
     let ok : Bool := decide (10 * rd s .lane n.val 0x040 15 8 ≤ snr.toNat)
     (rd s .lane n.val 0x040 27 26 ≠ 2 → lanePowered s n.val = true → Gives (.laneSnrUpdate n snr eye) s (fun t =>
       rd t .lane n.val 0x054 15 0 = snr.toNat ∧ reg t .lane n.val 0x050 = eye ∧
       rdBit t .lane n.val 0x04C 25 = (ok && rdBit s .lane n.val 0x04C 26) ∧
       (ok = false → rdBit t .lane n.val 0x010 2 = true))) ∧
     (rd s .lane n.val 0x040 27 26 = 2 ∨ lanePowered s n.val = false → exec (.laneSnrUpdate n snr eye) s = .next s) ∧
     (ptUp s .lane = true → Gives (.prbsClr n) s (fun t =>
       reg t .lane n.val 0x05C = 0 ∧ reg t .lane n.val 0x060 = 0 ∧ reg t .lane n.val 0x064 = 0 ∧
       rd t .lane n.val 0x068 15 0 = 0 ∧ onlyRegs s { t with prbsFrom := s.prbsFrom } ∧
       prbsErr t n.val = 0 ∧ prbsBits t n.val = 0 ∧
       regsBut [addrOf .lane n.val 0x05C, addrOf .lane n.val 0x060, addrOf .lane n.val 0x064, addrOf .lane n.val 0x068] s t)) ∧
     (locks → Gives (.prbsLock n) s (fun t => rdBit t .lane n.val 0x04C 23 = true ∧ regsBut [addrOf .lane n.val 0x04C] s t ∧
         onlyRegs s { t with prbsFrom := s.prbsFrom } ∧ prbsErr t n.val = prbsErr s n.val ∧ prbsBits t n.val = prbsBits s n.val)) ∧
     (¬ locks → exec (.prbsLock n) s = .next s) ∧
     (drops → Gives (.prbsUnlock n bits errs) s (fun t =>
         (rdPair s .lane n.val 0x060 + max run.1 bits < 2 ^ 48 →
           rdPair t .lane n.val 0x060 = rdPair s .lane n.val 0x060 + max run.1 bits) ∧
         rd t .lane n.val 0x05C 31 0 = min (rd s .lane n.val 0x05C 31 0 + max run.2 errs) (2 ^ 32 - 1) ∧
         rd t .lane n.val 0x068 15 0 = min (rd s .lane n.val 0x068 15 0 + 1) 65535 ∧
         rdBit t .lane n.val 0x04C 23 = false ∧ rdBit t .lane n.val 0x010 3 = true ∧
         onlyRegsIrq s { t with prbsFrom := s.prbsFrom, free := s.free })) ∧
     (¬ drops → exec (.prbsUnlock n bits errs) s = .next s))

/-- R309, R314, R315, R326 (substitution of a lane, begun): with an idle spare at the port whose counters approve it,
a wanted exchange bridges the logical lane onto the spare and sends SWAP_REQ; without one the page shows that no spare
is free, and a lane under test ends BUSY. A request received is followed by bridging, or answered by SWAP_ABORT when
it cannot be. R314, R315: while a lane is bridged, this end notes SWAP_READY and, once the spare's receiver is live,
its own switch, of which it tells the far end; with both, the spare takes the logical lane and the lane it leaves
becomes idle; an abort or a timeout gives the spare back. R316: a lane of an enabled port that has lost clock recovery
or LOCK for long raises its fault, and its logical lane moves to the idle spare only, which the far end is told,
unless the page inhibits it or none is free; a far end's abrupt request moves it too; once the receiver has LOCK to
the port's framing or markers on it the spare carries the lane and the failed one stays out. It states the completion
of: swapStart, swapReq, swapReqAbrupt, swapReady, swapAbort, swapSwitch, swapTimeout, laneFail, abruptSwitch. -/
def Obligations.LaneSubstitutionTakesItsSteps : Prop :=
  (∀ (s : State) (p k : Fin 4) (n : Fin 20) (m : Nat), ptUp s .lane = true → getSwap s p.val = none →
     let lmsg (t : State) : Nat := mapGet (fun _ => 0) t.lmsgs p.val
     let bridged (mine : Bool) (t : State) : Prop :=
       laneRole t m = 5 ∧ getSwap t p.val = some { lane := k.val, mine := mine } ∧
       (∀ j, j < 20 → j ≠ m → laneRole t j = laneRole s j) ∧
       pagesBut ((List.range 5).map (fun i => ptBase .lane + 5 * p.val + i)) s t
     let wanted : Prop := portOf n.val = p.val ∧ laneRole s n.val = k.val ∧ swapTime s = true ∧
       (spareSel s 3 n.val = 1 ∨ s.subs.contains { kind := 3, inst := n.val, unit := 0 } = true)
     let noSpare (t : State) : Prop := rd t .lane n.val 0x020 3 0 = 3 ∧ rdBit t .spare 0 0x018 0 = true ∧ t.swaps = s.swaps
     let fit : Prop := laneRole s (5 * p.val + 4) = 4 ∧ lanePowered s m = true ∧ spareApproved s m = true
     (laneWith s p.val k.val = some n.val → laneWith s p.val 4 = some m → laneTest s n.val = false →
       Gives (.swapReq p k) s (bridged false) ∧
       (wanted → fit → Gives (.swapStart n) s (fun t => bridged true t ∧ lmsg t = 1 + 16 * k.val)) ∧
       (wanted → ¬ fit → Gives (.swapStart n) s noSpare)) ∧
     (laneWith s p.val k.val = some n.val → laneTest s n.val = true → wanted → Gives (.swapStart n) s (fun t =>
       rdBit t .lane n.val 0x010 5 = true ∧ rd t .lane n.val 0x080 15 0 = min (rd s .lane n.val 0x080 15 0 + 1) 65535 ∧
       getSwap t p.val = none)) ∧
     (laneWith s p.val 4 = none →
       Gives (.swapReq p k) s (fun t => lmsg t = 4 + 16 * k.val + 64 * 3 ∧ t.regs = s.regs ∧ t.swaps = s.swaps) ∧
       (wanted → laneTest s n.val = false → Gives (.swapStart n) s noSpare)) ∧
     (portOf n.val = p.val → swapTime s = false → exec (.swapStart n) s = .next s) ∧
     exec (.swapReady p) s = .next s) ∧
  (∀ (s : State) (p : Fin 4) (x : Swap) (n m : Nat), ptUp s .lane = true → getSwap s p.val = some x → x.abrupt = false →
     x.lane < 4 → laneWith s p.val x.lane = some n → laneWith s p.val 5 = some m →
     let done (t : State) : Prop :=
       laneRole t m = x.lane ∧ laneRole t n = 4 ∧ getSwap t p.val = none ∧ rdBit t .lane n 0x010 4 = true
     let undone (t : State) : Prop := laneRole t m = 4 ∧ laneRole t n = x.lane ∧ getSwap t p.val = none
     (x.switched = false → Gives (.swapReady p) s (fun t =>
       getSwap t p.val = some { x with ready := true } ∧ t.regs = s.regs)) ∧
     (x.switched = true → Gives (.swapReady p) s done) ∧
     (rxLive s m = false → exec (.swapSwitch p) s = .next s) ∧
     (rxLive s m = true → x.ready = false → Gives (.swapSwitch p) s (fun t =>
       getSwap t p.val = some { x with switched := true } ∧ mapGet (fun _ => 0) t.lmsgs p.val = 3 + 16 * x.lane ∧
       rdBit t .lane m 0x04C 24 = decide (rd s .lane m 0x040 25 24 < 2) ∧ regsBut [addrOf .lane m 0x04C] s t)) ∧
     (rxLive s m = true → x.ready = true → Gives (.swapSwitch p) s (fun t => done t ∧ mapGet (fun _ => 0) t.lmsgs p.val = 3 + 16 * x.lane)) ∧
     (∀ cause : Fin 4, Gives (.swapAbort p cause) s (fun t => undone t ∧
       (x.mine = true → rdBit t .lane n 0x010 5 = true ∧
         rd t .lane n 0x080 15 0 = min (rd s .lane n 0x080 15 0 + 1) 65535))) ∧
     (∀ skew : Bool, Gives (.swapTimeout p skew) s (fun t => undone t ∧
       (x.mine = true → mapGet (fun _ => 0) t.lmsgs p.val = 4 + 16 * x.lane + 64 * (if skew then 2 else 1))))) ∧
  (∀ (s : State) (p k : Fin 4) (n : Fin 20) (m : Nat), ptUp s .lane = true → laneWith s p.val k.val = some n.val →
     laneWith s p.val 4 = some m →
     let moved (mine : Bool) (t : State) : Prop :=
       laneRole t n.val = 6 ∧ laneRole t m = 5 ∧ getSwap t p.val = some { lane := k.val, mine := mine, abrupt := true }
     (getSwap s p.val = none → Gives (.swapReqAbrupt p k) s (moved false)) ∧
     (getSwap s p.val = none → portOf n.val = p.val → laneRole s n.val = k.val → portOn s p.val = true →
       lanePowered s n.val = true → (rdBit s .lane n.val 0x04C 26 = false ∨ laneLock s n.val = false) →
       spareSel s 3 n.val ≠ 3 → laneRole s (5 * p.val + 4) = 4 → lanePowered s (5 * p.val + 4) = true →
       Gives (.laneFail n) s (fun t => moved true t ∧ rdBit t .lane n.val 0x018 0 = true ∧
         mapGet (fun _ => 0) t.lmsgs p.val = 2 + 16 * k.val)) ∧
     (getSwap s p.val = none → portOf n.val = p.val → laneRole s n.val = k.val → portOn s p.val = true →
       lanePowered s n.val = true → (rdBit s .lane n.val 0x04C 26 = false ∨ laneLock s n.val = false) →
       let free : Prop := laneRole s (5 * p.val + 4) = 4 ∧ lanePowered s (5 * p.val + 4) = true
       (free → spareSel s 3 n.val = 3 → Gives (.laneFail n) s (fun t => rdBit t .lane n.val 0x018 0 = true ∧
         (∀ j, j < 20 → laneRole t j = laneRole s j) ∧ t.lmsgs = s.lmsgs)) ∧
       (¬ free → Gives (.laneFail n) s (fun t => rdBit t .lane n.val 0x018 0 = true ∧
         rd t .lane n.val 0x020 3 0 = 3 ∧ t.lmsgs = s.lmsgs))) ∧
     (portOn s (portOf n.val) = false ∨ lanePowered s n.val = false ∨
         (rdBit s .lane n.val 0x04C 26 = true ∧ laneLock s n.val = true) → exec (.laneFail n) s = .next s) ∧
     (∀ (u : State) (x : Swap) (a b : Nat), ptUp u .lane = true → getSwap u p.val = some x → x.abrupt = true → x.lane < 4 →
       laneWith u p.val 5 = some a → laneWith u p.val 6 = some b →
       let finds : Prop := rxLive u a = true ∧ rd u .lane a 0x040 25 24 < 2
       (¬ finds → exec (.abruptSwitch p) u = .next u) ∧
       (finds → Gives (.abruptSwitch p) u (fun t => laneRole t a = x.lane ∧ laneRole t b = 6 ∧ getSwap t p.val = none))))

/-- R322, R328, R350: a port with ENABLE = 0 takes no flit, and one behind the closed bypass none from the cable; at
one in service a flit whose CRC, TYPE or TTL is wrong is counted and raises its event, whatever command brings it.
R332 to R335, R339: the first good copy of a real-time number is delivered by its type (a decision to the Ladle,
events and corrections to Mortar, a trigger to the router and the masters, a loss report to both) and forwarded; a
further copy is only forwarded: both copies leave the other port under one new number, 2 ticks on, with TTL reduced,
while TTL allows it and that port is up. Here the number follows the last one seen, or none had been. R337, R370: a
BULK or TIME flit is taken only with the next replay number: its number is then acknowledged, and it goes to its
receiver, the fragment store or the time exchange; any other asks for a replay and is counted. Here the flit is
addressed to this module. It states the completion of: decisionFlit, syndromeEvents, syndromeCorrections, triggerFlit,
lossFlit, bulkFlit, idleFlit, ringSync, ringDelayReq, ringDelayResp, ringPdelayReq, ringPdelayResp. -/
def Obligations.ReceivedFlitsAreTakenByTheirRules : Prop :=
  (∀ (s : State) (r : Fin 2) (f : BitVec 256) (rx : Int), ptUp s .ring = true → s.inbox = [] →
     ∀ c ∈ flitCommands r f rx,
       (enabled s .ring r.val = false → exec c s = .next s) ∧
       (bypassClosed s = true → Output.flit (1 - r.val) f ∉ s.outbox → exec c s = .next s) ∧
       ((bypassClosed s = false ∨ Output.flit (1 - r.val) f ∈ s.outbox) → enabled s .ring r.val = true → ¬ flitGood f →
         Gives c s (fun t =>
         rd t .ring r.val 0x04C 31 16 = min (rd s .ring r.val 0x04C 31 16 + 1) 65535 ∧
         rdBit t .ring r.val 0x010 2 = true ∧ t.stores = s.stores ∧ t.pantry = s.pantry ∧ t.items = s.items))) ∧
  (∀ (s : State) (r : Fin 2) (f : BitVec 256), ptUp s .ring = true → enabled s .ring r.val = true → flitGood f →
     (bypassClosed s = false ∨ Output.flit (1 - r.val) f ∈ s.outbox) →
     let n : Nat := nbits f.toNat 47 36
     let ty : Nat := nbits f.toNat 3 0
     let x := getRPort s r.val
     let taken (t : State) : Prop := ∃ u : State, (getRPort u r.val).rxTop = some n ∧ u.regs = s.regs ∧ u.items = s.items ∧
       t = forward r.val f.toNat false true (deliverRt r.val f.toNat u)
     let again (t : State) : Prop := t = forward r.val f.toNat false false s
     let mine : Prop := (x.rxTop = none ∨ ∃ top, x.rxTop = some top ∧ top < 4096 ∧ n = (top + 1) % 4096) ∧ x.lost = [] ∧
       nbits f.toNat 8 4 ≠ ringAddr s
     ((mine ∧ ty = 1) → Gives (.decisionFlit r f) s taken) ∧
     ((mine ∧ ty = 2 ∧ nbit f.toNat 48 = false) → Gives (.syndromeEvents r f) s taken) ∧
     ((mine ∧ ty = 2 ∧ nbit f.toNat 48 = true) → Gives (.syndromeCorrections r f) s taken) ∧
     ((mine ∧ ty = 3) → Gives (.triggerFlit r f) s taken) ∧
     ((mine ∧ ty = 4) → Gives (.lossFlit r f) s taken) ∧
     (x.rxTop = some n → x.lost = [] →
       (ty = 1 → Gives (.decisionFlit r f) s again) ∧ (ty = 3 → Gives (.triggerFlit r f) s again) ∧
       (ty = 4 → Gives (.lossFlit r f) s again)) ∧
     (ty = 0 → (x.rxTop = none ∨ ∃ top, x.rxTop = some top ∧ n = top) → Gives (.idleFlit r f) s (fun t =>
       (getRPort t r.val).rxTop = some n ∧ t.regs = s.regs ∧ t.items = s.items ∧ t.outbox = s.outbox)) ∧
     (∀ (u : State) (stomp first : Bool),
       let o : Nat := 1 - r.val
       let passes : Prop := 2 ≤ nbits f.toNat 18 14 ∧ ringUp u o = true ∧ nbits f.toNat 8 4 ≠ ringAddr u ∧
         ¬ (ty = 2 ∧ nbits f.toNat 13 9 = ringAddr u)
       let g : BitVec 256 := BitVec.ofNat 256 (f.toNat % 2 ^ 232 - 2 ^ 14)
       (¬ passes → forward r.val f.toNat stomp first u = u) ∧
       (passes → enabled u .ring o = true → u.txWait = [] → u.txq = [] → (getRPort u r.val).relay = [] →
         (forward r.val f.toNat false true u).txWait = [(o, u.clk.tc + 2, .fwd n [(g, false)])]) ∧
       (passes → u.txWait = [(o, u.clk.tc + 2, .fwd n [(g, false)])] →
         (forward r.val f.toNat false false u).txWait = [(o, u.clk.tc + 2, .fwd n [(g, false), (g, false)])]))) ∧
  (∀ (s : State) (r : Fin 2) (f : BitVec 256) (rx : Int), ptUp s .ring = true → enabled s .ring r.val = true → flitGood f →
     (bypassClosed s = false ∨ Output.flit (1 - r.val) f ∈ s.outbox) → s.inbox = [] → nbits f.toNat 13 9 = ringAddr s → nbits f.toNat 8 4 ≠ ringAddr s →
     let n : Nat := nbits f.toNat 47 36
     let x := getRPort s r.val
     let next : Prop := n = (x.rplRx + 1) % 4096
     let acknowledged : State := setRPort s r.val { x with rplRx := n, nak := false }
     let refused (t : State) : Prop := (getRPort t r.val).nak = true ∧ (getRPort t r.val).rplRx = x.rplRx ∧
       rd t .ring r.val 0x058 15 0 = min (rd s .ring r.val 0x058 15 0 + 1) 65535 ∧ t.slaves = s.slaves ∧ t.frags = s.frags
     (nbits f.toNat 3 0 = 5 →
       (next → exec (.bulkFlit r f) s = .next (takeInbox (takeFrag f.toNat acknowledged))) ∧
       (¬ next → Gives (.bulkFlit r f) s refused)) ∧
     (nbits f.toNat 3 0 = 6 → ∀ e ∈ [(0, Instr.ringSync r f rx), (1, .ringDelayReq r f rx), (2, .ringDelayResp r f rx),
         (3, .ringPdelayReq r f rx), (4, .ringPdelayResp r f rx)], nbits f.toNat 51 48 = e.1 →
       (next → exec e.2 s = .next (takeTime r.val f.toNat rx acknowledged)) ∧
       (¬ next → Gives e.2 s refused)))

/-- R325, R326, R328, R331, R336, R337: at the start of a frame a framing word goes out on each lane that sends. A
port that is out of service then sends IDLE; one in service sends the oldest real-time message that waits for it, in
two copies, counted when it became ready more than 14 ticks before, and with none waiting and nothing to resend or new
a further IDLE that carries the last number sent. A replay timeout resends from the oldest flit not acknowledged, the
sixteenth in a row raising the fault, and does nothing while none waits. R372: while the TIME page is in service the
ring master sends a SYNC on both ports in service, and every port that is up sends a PDELAY_REQ to its neighbour. It
states the completion of: flitSend, replayTimeout, ringSyncInterval, ringPdelayInterval. -/
def Obligations.RingPortsSendInOrder : Prop :=
  (∀ (s : State) (r : Fin 2) (report : Bool), ptUp s .ring = true →
     let x := getRPort s r.val
     let v : State := rtCatch (ladleCatch s)
     let y := getRPort v r.val
     let lanes : List Nat := framedLanes v r.val
     let heads : List Output := if y.slot = 0 then lanes.map (fun k => .lane r.val (frameWord v r.val k)) else []
     let slots (k : Nat) (t : State) : Prop := (getRPort t r.val).slot = if 128 ≤ y.slot + k then 0 else y.slot + k
     let idle (t : State) : Prop := t.outbox = .flit r.val (idleOut v r.val) :: heads.reverse ++ v.outbox ∧ slots 1 t ∧
       t.regs = v.regs ∧ t.txq = v.txq ∧ (getRPort t r.val).buf = y.buf
     (enabled v .ring r.val = false → lanes = [] → exec (.flitSend r report) s = .next v) ∧
     (enabled v .ring r.val = false → lanes ≠ [] → Gives (.flitSend r report) s idle) ∧
     (enabled v .ring r.val = true → (∀ e ∈ v.txq, e.1 ≠ r.val) → y.resend = none → y.timeQ = [] → y.bulkQ = [] →
       Gives (.flitSend r report) s idle) ∧
     (enabled v .ring r.val = true → ∀ (n : Nat) (at_ : BitVec 48) (m : TxMsg) (pre rest : List (Nat × Nat × BitVec 48 × TxMsg)),
       v.txq = pre ++ (r.val, n, at_, m) :: rest → (∀ e ∈ pre, e.1 ≠ r.val) → Gives (.flitSend r report) s (fun t =>
         let again : Prop := ∃ f stomp, m = .again f stomp
         t.txq = pre ++ rest ∧
         t.outbox = ((msgFlits v r.val n m).map (Output.flit r.val)).reverse ++ heads.reverse ++ v.outbox ∧
         (again → slots 1 t ∧ (getRPort t r.val).rtLast = y.rtLast ∧ t.regs = v.regs) ∧
         (¬ again → slots 2 t ∧ (getRPort t r.val).rtLast = n ∧ regsBut [addrOf .ring r.val 0x050] v t ∧
           rd t .ring r.val 0x050 15 0 = (if 14 < ticksTo at_ v.clk.tc then min (rd v .ring r.val 0x050 15 0 + 1) 65535
             else rd v .ring r.val 0x050 15 0)))) ∧
     (x.buf = [] → exec (.replayTimeout r) s = .next s) ∧
     (x.buf ≠ [] → Gives (.replayTimeout r) s (fun t =>
       (getRPort t r.val).resend = some 0 ∧ (getRPort t r.val).tries = x.tries + 1 ∧ (getRPort t r.val).buf = x.buf ∧
       rd t .ring r.val 0x058 31 16 = min (rd s .ring r.val 0x058 31 16 + 1) 65535 ∧
       (x.tries + 1 = 16 → rdBit t .ring r.val 0x018 3 = true)))) ∧
  (∀ s : State, ptUp s .ring = true → enabled s .time 0 = true →
     (rdBit s .time 0 0x040 9 = true → enabled s .ring 0 = true → enabled s .ring 1 = true →
       Gives .ringSyncInterval s (fun t => t.regs = s.regs ∧ ∀ r, r < 2 → ∃ b : TimeTx,
         (getRPort t r).timeQ = (getRPort s r).timeQ ++ [b] ∧ nbits b.bits.toNat 3 0 = 6 ∧ nbits b.bits.toNat 51 48 = 0 ∧
         nbits b.bits.toNat 18 14 = 31 ∧ nbits b.bits.toNat 8 4 = ringAddr s)) ∧
     (rdBit s .time 0 0x040 9 = false → exec .ringSyncInterval s = .next s) ∧
     (ringUp s 0 = true → ringUp s 1 = false → enabled s .ring 0 = true → Gives .ringPdelayInterval s (fun t => t.regs = s.regs ∧
       ∃ b : TimeTx, (getRPort t 0).timeQ = (getRPort s 0).timeQ ++ [b] ∧ nbits b.bits.toNat 3 0 = 6 ∧
         nbits b.bits.toNat 51 48 = 3 ∧ nbits b.bits.toNat 18 14 = 1 ∧
         nbits b.bits.toNat 13 9 = rd s .ring 0 0x048 20 16)) ∧
     (ringUp s 0 = false → ringUp s 1 = false → exec .ringPdelayInterval s = .next s))

/-- R321, R322, R323, R325, R337: a good framing word shows the neighbour's address and port, a wrong port and this
module's own address each with its fault, and its ACK takes the acknowledged flits out of the replay buffer, a resend
going on behind them; one that fails its check, or comes from the cable while the bypass is closed, changes nothing. A
port still reacquiring when its grace expires goes down with its fault. It states the completion of: laneFrame,
graceExpiry. -/
def Obligations.FramingWordsShowTheNeighbour : Prop :=
  ∀ (s : State) (r : Fin 2) (w : BitVec 128), ptUp s .ring = true →
    let b : Nat := w.toNat
    let good : Prop := nbits b 31 0 = 0x5A3C96E1 ∧ crc24 13 (b % 2 ^ 104) = b / 2 ^ 104
    let x := getRPort s r.val
    let comes : Prop := bypassClosed s = false ∨ Output.lane (1 - r.val) w ∈ s.outbox
    let shown (t : State) : Prop := rdBit t .ring r.val 0x048 23 = true ∧
      rd t .ring r.val 0x048 22 22 = nbits b 37 37 ∧ rd t .ring r.val 0x048 20 16 = nbits b 36 32
    (¬ good → exec (.laneFrame r w) s = .next s) ∧
    (¬ comes → (∀ k, k < 4 → frameWord s (1 - r.val) k ≠ w) → exec (.laneFrame r w) s = .next s) ∧
    (good → comes → enabled s .ring r.val = false → Gives (.laneFrame r w) s (fun t => shown t ∧
      (nbits b 37 37 = r.val → x.cable = false → rdBit t .ring r.val 0x018 2 = true) ∧
      (nbits b 36 32 = ringAddr s → bypassClosed s = false → x.conflict = false → rdBit t .ring r.val 0x018 1 = true))) ∧
    (good → comes → enabled s .ring r.val = true → x.cable = false → x.conflict = false → nbits b 37 37 ≠ r.val → nbits b 36 32 ≠ ringAddr s →
      x.rxTop = some (nbits b 64 53) → x.lmsgRx = nbits b 88 65 → nbit b 52 = false →
      Gives (.laneFrame r w) s (fun t => shown t ∧
        let rest := x.buf.filter (fun e => decide (0 < seqDist (nbits b 51 40) e.1))
        (getRPort t r.val).buf = rest ∧ (getRPort t r.val).resend =
          (if rest = [] then none else x.resend.map (· - (x.buf.length - rest.length))) ∧
        regsBut [addrOf .ring r.val 0x048] s t)) ∧
    (x.grace = true → ringUp s r.val = false → Gives (.graceExpiry r) s (fun t =>
      ringState t r.val = 0 ∧ rdBit t .ring r.val 0x018 0 = true ∧ (getRPort t r.val).grace = false ∧
      (x.own = true → bypassClosed s = false → rdBit t .ring r.val 0x018 4 = true))) ∧
    (x.grace = false ∨ ringUp s r.val = true → exec (.graceExpiry r) s = .next s)

/-- R344, R345, R347: a Daxka request that arrives in its window at an active port, is addressed to it and names this
module counts in CONSUMED and acts at once: register words are written or read in order, store bytes are staged,
committed, discarded or read, the Pantry is written or read where it may be reached; the response, where one is due,
carries the status. It states the completion of: regWrite, regRead, storeWrite, storeCommit, storeDiscard, storeRead,
pantryWrite, pantryRead. -/
def Obligations.HostRequestsActAndAnswer : Prop :=
  ∀ (s : State) (h : Fin 2) (hd : DxHead) (bytes : List Byte) (k : Nat), hostOn s h.val = true →
    frameOk s h.val hd = true →
    (consumed s h.val + 65536 - (getHPort s h.val).reported) % 65536 < 256 → (getHPort s h.val).stalled = [] →
    (hd.loc = true ∨ hd.node.val = ringAddr s) → bytes.length = 4 * k → k ≤ 2048 →
    let p : Path := hostPath h.val
    let acked (st : Nat) : Option (Nat × List Byte × DxWait) := if hd.ack then some (st, [], .ready) else none
    let acts (c : Instr) (q : DxReq) (r : State → Option (Nat × List Byte × DxWait) × State) : Prop :=
      Gives c s (fun t => ∃ u : State, consumed u h.val = (consumed s h.val + 1) % 65536 ∧
        (getHPort u h.val).last = some hd.src ∧ regsBut [addrOf .host h.val 0x060] s u ∧ u.stores = s.stores ∧
        dxExec h.val q u = r u ∧
        t = match (r u).1 with
          | some (st, data, w) => addReply h.val (replyTo u q st data w) (r u).2
          | none => (r u).2)
    (∀ a : Word, a.toNat % 4 = 0 → acts (.regWrite h hd a bytes) (hostReq hd 1 a.toNat (4 * k) bytes)
      (fun u => (acked 0, writeWords p k a.toNat bytes u))) ∧
    (∀ a : Word, a.toNat % 4 = 0 → acts (.regRead h hd a (4 * k)) (hostReq hd 2 a.toNat (4 * k) [])
      (fun u => (some (0, (readWords p k a.toNat u).1, .ready), (readWords p k a.toNat u).2))) ∧
    (∀ (sp : BitVec 8) (ix : BitVec 16) (off : Word) (b len : Nat), storeUnit sp.toNat ix.toNat = some (b, len) →
      off.toNat % 4 = 0 → off.toNat + 4 * k ≤ len →
      acts (.storeWrite h hd sp ix off bytes) (hostReq hd 3 (storeAddr sp ix off) (4 * k) bytes)
        (fun u => (acked (storePut (pathNo p) sp.toNat b off.toNat bytes u).1,
          (storePut (pathNo p) sp.toNat b off.toNat bytes u).2)) ∧
      acts (.storeRead h hd sp ix off (4 * k)) (hostReq hd 6 (storeAddr sp ix off) (4 * k) [])
        (fun u => (some (0, storeGet u (pathNo p) sp.toNat b off.toNat (4 * k), .ready), u))) ∧
    (∀ (sp : BitVec 8) (ix : BitVec 16) (b len : Nat), storeUnit sp.toNat ix.toNat = some (b, len) → sp.toNat < 6 →
      (k = 1 → acts (.storeCommit h hd sp ix bytes) (hostReq hd 4 (storeAddr sp ix 0) 4 bytes)
        (fun u => (some (storeStatus (commitStore (pathNo p) b (BitVec.ofNat 32 (ofBytes bytes)) u).1, [], .ready),
          (commitStore (pathNo p) b (BitVec.ofNat 32 (ofBytes bytes)) u).2))) ∧
      acts (.storeDiscard h hd sp ix) (hostReq hd 5 (storeAddr sp ix 0) 0 [])
        (fun u => (some (storeStatus (discardStore (pathNo p) b u).1, [], .ready), (discardStore (pathNo p) b u).2))) ∧
    (∀ a : BitVec 64, a.toNat < 2 ^ 35 → a.toNat % 4 = 0 → a.toNat + 4 * k ≤ reservedFrom s →
      acts (.pantryWrite h hd a bytes) (hostReq hd 7 a.toNat (4 * k) bytes)
        (fun u => (acked 0, pantryRun h.val false k a.toNat (4 * k) bytes u)) ∧
      acts (.pantryRead h hd a (4 * k)) (hostReq hd 8 a.toNat (4 * k) [])
        (fun u => (some (0, [], .pantry u.preqNo ((pantryRun h.val true k a.toNat (4 * k) [] u).preqNo - u.preqNo)),
          pantryRun h.val true k a.toNat (4 * k) [] u)) ∧
      ∀ u : State, u.preqs = [] → let t : State := pantryRun h.val true k a.toNat (4 * k) [] u
        readBlocks t u.preqNo (t.preqNo - u.preqNo) = pantryBytes u a.toNat (4 * k))

/-- R342 to R344, R347: a request whose header is wrong is answered BAD_OP and counted, in its place among the port's
requests, one beyond the window is counted as overrun, one whose address or VLAN tag is not the port's is discarded
and counted, frames that only modules send are counted, discarded frames are counted by their reason, and a port that
is not active takes nothing. It states the completion of: moduleOnlyFrame, badOpRequest, hostFrameDiscard. -/
def Obligations.HostRefusalsAreCounted : Prop :=
  ∀ (s : State) (h : Fin 2) (hd : DxHead) (op : BitVec 8) (a : BitVec 64), ptUp s .host = true →
    let used : Nat := (consumed s h.val + 65536 - (getHPort s h.val).reported) % 65536 + (getHPort s h.val).stalled.length
    let on : Prop := hostOn s h.val = true
    let fits : Prop := hd.dst.toNat = hostMac s h.val ∧
      (rdBit s .host h.val 0x040 31 = true → hd.vid.map (·.toNat) = some (rd s .host h.val 0x040 27 16))
    let late : List DxReq := (getHPort s h.val).stalled
    (on → fits → (op.toNat < 9 ∨ 0xC < op.toNat) → used < 256 → late ≠ [] →
      Gives (.badOpRequest h hd op a) s (fun t => t.regs = s.regs ∧ (getHPort t h.val).replies = (getHPort s h.val).replies ∧
        (getHPort t h.val).stalled = late ++ [{ hostReq hd op.toNat a.toNat 0 [] with bad := true }])) ∧
    (on → fits → (op.toNat < 9 ∨ 0xC < op.toNat) → used < 256 → late = [] →
      Gives (.badOpRequest h hd op a) s (fun t => ∃ u : State,
        consumed u h.val = (consumed s h.val + 1) % 65536 ∧
        rd u .host h.val 0x074 15 0 = min (rd s .host h.val 0x074 15 0 + 1) 65535 ∧
        regsBut [addrOf .host h.val 0x060, addrOf .host h.val 0x074] s u ∧
        ∃ r : DxReply, r.status = 1 ∧ r.from_ = .host hd.src ∧ r.tag = hd.tag.toNat ∧ r.op = op.toNat ∧
          r.data = [] ∧ r.waits = .ready ∧ t = addReply h.val r u)) ∧
    (on → fits → (op.toNat < 9 ∨ 0xC < op.toNat) → 256 ≤ used →
      Gives (.badOpRequest h hd op a) s (fun t =>
        rd t .host h.val 0x070 15 0 = min (rd s .host h.val 0x070 15 0 + 1) 65535 ∧ rdBit t .host h.val 0x010 4 = true)) ∧
    (on → (op = 0x09 ∨ op = 0x0B ∨ op = 0x0C) → Gives (.moduleOnlyFrame h op) s (fun t =>
      rd t .host h.val 0x074 15 0 = min (rd s .host h.val 0x074 15 0 + 1) 65535 ∧
      regsBut [addrOf .host h.val 0x074] s t ∧ onlyRegs s t)) ∧
    (on → Gives (.hostFrameDiscard h .fcs) s (fun t =>
      rd t .host h.val 0x074 31 16 = min (rd s .host h.val 0x074 31 16 + 1) 65535 ∧
      regsBut [addrOf .host h.val 0x074] s t ∧ onlyRegs s t)) ∧
    (on → ∀ w ∈ [Discard.filtered, .macControl], Gives (.hostFrameDiscard h w) s (fun t =>
      rd t .host h.val 0x070 31 16 = min (rd s .host h.val 0x070 31 16 + 1) 65535 ∧
      regsBut [addrOf .host h.val 0x070] s t ∧ onlyRegs s t)) ∧
    (on → ¬ fits → ∀ (x : Word) (bs : List Byte) (n : Nat) (sp : BitVec 8) (ix : BitVec 16),
      ∀ c ∈ [Instr.regWrite h hd x bs, .regRead h hd x n, .storeWrite h hd sp ix x bs, .storeCommit h hd sp ix bs,
        .storeDiscard h hd sp ix, .storeRead h hd sp ix x n, .pantryWrite h hd a bs, .pantryRead h hd a n],
      Gives c s (fun t => rd t .host h.val 0x070 31 16 = min (rd s .host h.val 0x070 31 16 + 1) 65535 ∧
        regsBut [addrOf .host h.val 0x070] s t ∧ onlyRegs s t)) ∧
    (¬ on → ∀ (w : Discard) (x : Word) (y : BitVec 128) (src : BitVec 48) (bs : List Byte) (n : Nat)
        (sp : BitVec 8) (ix : BitVec 16),
      ∀ c ∈ [Instr.badOpRequest h hd op a, .moduleOnlyFrame h op, .hostFrameDiscard h w, .arpRequest h src x,
        .neighbourSolicitation h src y, .regWrite h hd x bs, .regRead h hd x n, .storeWrite h hd sp ix x bs,
        .storeCommit h hd sp ix bs, .storeDiscard h hd sp ix, .storeRead h hd sp ix x n, .pantryWrite h hd a bs,
        .pantryRead h hd a n, .credit h], exec c s = .next s)

/-- R340, R341, R346 to R348, R351: HOST_CFG.MODE takes the mode written; the port answers for its own IP addresses
and no others; a CREDIT reports CONSUMED when it has changed; a link lost raises its fault; a tunnelled request
without an answer and a Pantry read without its data are answered UNREACH and TIMEOUT. It states the completion of:
credit, unreach, hostModeWrite, linkFail, pantryReadTimeout, arpRequest, neighbourSolicitation. -/
def Obligations.HostPortsAnswerAndReport : Prop :=
  ∀ (s : State) (h : Fin 2) (src : BitVec 48), hostOn s h.val = true →
    let x := getHPort s h.val
    let tag : Option Nat := if rdBit s .host h.val 0x040 31 then
      some (rd s .host h.val 0x040 30 28 * 2 ^ 13 + rd s .host h.val 0x040 27 16) else none
    (∀ ip : Word, ip ≠ 0 → reg s .host h.val 0x04C = ip → exec (.arpRequest h src ip) s =
      .next { s with outbox := .resolved h.val src false (ip.setWidth 128) tag :: s.outbox }) ∧
    (∀ ip : Word, reg s .host h.val 0x04C ≠ ip → exec (.arpRequest h src ip) s = .next s) ∧
    (∀ ip : BitVec 128, ip ≠ 0 → hostIp6 s h.val = ip.toNat → exec (.neighbourSolicitation h src ip) s =
      .next { s with outbox := .resolved h.val src true ip tag :: s.outbox }) ∧
    (∀ ip : BitVec 128, hostIp6 s h.val ≠ ip.toNat → exec (.neighbourSolicitation h src ip) s = .next s) ∧
    (∀ a : BitVec 48, x.last = some a → x.reported ≠ consumed s h.val → Gives (.credit h) s (fun t =>
      (getHPort t h.val).reported = consumed s h.val ∧ t.regs = s.regs ∧ ∃ bs : List Byte,
        t.outbox = .frame h.val bs :: s.outbox)) ∧
    (x.reported = consumed s h.val → exec (.credit h) s = .next s) ∧
    (∀ mode : BitVec 2, Gives (.hostModeWrite h mode) s (fun t =>
      rd t .host h.val 0x040 1 0 = mode.toNat ∧
      rd t .host h.val 0x060 31 30 = if rdBit s .host h.val 0x060 28 then 2 else min 2 mode.toNat)) ∧
    (rdBit s .host h.val 0x060 29 = false → Gives (.linkFail h) s (fun t =>
      rdBit t .host h.val 0x018 0 = true ∧ regsBut [addrOf .host h.val 0x018] s t ∧ onlyRegsIrq s t)) ∧
    (rdBit s .host h.val 0x060 29 = true → exec (.linkFail h) s = .next s) ∧
    (∀ (m : BitVec 8) (node : Nat) (r : DxReply), x.replies = [r] → r.waits = .tunnel m.toNat node → x.stalled = [] →
      Gives (.unreach h m) s (fun t => ∃ u : State, rdBit u .host h.val 0x010 5 = true ∧ (getHPort u h.val).replies = [] ∧
        t = sendReply h.val u { r with status := 0x0D, data := [], waits := .ready })) ∧
    (x.replies = [] → ∀ m : BitVec 8, exec (.unreach h m) s = .next s) ∧
    (∀ (r : DxReply) (f n : Nat), x.replies = [r] → r.waits = .pantry f n → replyReady s r = false → r.tag < 2 ^ 16 →
      Gives (.pantryReadTimeout h (BitVec.ofNat 16 r.tag)) s (fun t => ∃ u : State, (getHPort u h.val).replies = [] ∧
        u.regs = s.regs ∧ t = sendReply h.val u { r with status := 0x0E, data := [], waits := .ready })) ∧
    (x.replies = [] → ∀ tag : BitVec 16, exec (.pantryReadTimeout h tag) s = .next s)

/-- R352 to R363: REF_IN, the SYNC_IN edges, steps and increment of MT, the servo, latched reads and the compares do
what their rules say. That a servo value that is no integer is one of its two neighbours is the model's choice (log
16). It states the completion of: syncEdge, refLoss, refReturn, mtStep, incCommit, servoRst, servoOfs, mtRead,
tsuRead, cmpFire, align. -/
def Obligations.TimeFollowsItsReferences : Prop :=
  ∀ (s : State) (p : Path), ptUp s .time = true → pathUp s p = true →
    let a (o : Nat) : Nat := addrOf .time 0 o
    let bit (t : State) (o i : Nat) : Bool := rdBit t .time 0 o i
    -- the record of the rates that MT had does not count
    let ticks (c : Clock) (t : State) : Prop := { t.clk with was := s.clk.was } = { c with was := s.clk.was }
    let only (l : List Nat) (t : State) : Prop := regsBut (l.map a) s t ∧ onlyRegs s { t with clk := s.clk } ∧ ticks s.clk t
    let noted (l : List Nat) (t : State) : Prop := regsBut (l.map a) s t ∧ onlyRegsIrq s t
    let stepped (d : Int) (t : State) : Prop := bit t 0x010 3 = true ∧ ticks { s.clk with step := s.clk.step + d } t ∧
      t.owesHeader = List.range 8 ∧ (∀ k ∈ [0, 1, 2], (getSlave t k).resp = none)
    let qual : Bool := s.align.armed && decide (rdPair s .time 0 0x098 ≤ mtNs s)
    let shots : Bool := (List.range 8).any (shotRuns s)
    Gives .refLoss s (fun t => bit t 0x0AC 29 = true ∧ bit t 0x0AC 30 = false ∧ bit t 0x018 0 = true ∧
      t.boot = { s.boot with ref := none } ∧ t.clk = s.clk ∧ t.groups = s.groups ∧ regsBut ([0x0AC, 0x018].map a) s t) ∧
    Gives .refReturn s (fun t => bit t 0x0AC 29 = false ∧ bit t 0x0AC 30 = true ∧
      t.boot = { s.boot with ref := some (nbit s.pins.strap.toNat 3) } ∧ t.clk = s.clk ∧ regsBut ([0x0AC].map a) s t) ∧
    exec .align s = .next { s with align := { armed := true, passed := 0 } } ∧
    (∀ (off : Int) (report : Bool),
      (qual = true → shots = true → Gives (.syncEdge off report) s (fun t => bit t 0x010 1 = true ∧ t.clk = s.clk ∧
        t.align = { s.align with passed := s.align.passed + 1 } ∧ regsBut ([0x010].map a) s t)) ∧
      (qual = true → shots = false → Gives (.syncEdge off report) s (fun t =>
        bit t 0x094 31 = true ∧ rd t .time 0 0x094 15 0 = 0 ∧ bit t 0x010 0 = true ∧
        -- from the edge's place in its tick, which is open (log 19)
        let samples : Nat := (freeDraw s).1 % 32 + rd s .time 0 0x090 15 0
        t.clk = { (passTicks (samples / 32) s).clk with
          tc := BitVec.ofNat 48 (rdPair s .time 0 0x0A0 + 65536 * s.align.passed), was := [] } ∧ t.align = {})) ∧
      (qual = false → bit s 0x094 31 = false → exec (.syncEdge off report) s = .next s)) ∧
    (bit s 0x094 31 = false → exec .syncAbsent s = .next s) ∧
    Gives .mtStep s (fun t => stepped (sx 64 (rdPair s .time 0 0x068) * 2 ^ 32) t ∧ regsBut ([0x010].map a) s t) ∧
    (∀ hi : Word, (laterWrote s p (a 0x064) = true → exec (.incCommit p hi) s = .next s) ∧
      (laterWrote s p (a 0x064) = false → Gives (.incCommit p hi) s (fun t =>
        reg t .time 0 0x060 = getWlatch s p (a 0x060) ∧ reg t .time 0 0x064 = hi &&& 0xF ∧ only [0x060, 0x064] t))) ∧
    Gives .servoRst s (fun t => ticks { s.clk with integ := 0 } t ∧ reg t .time 0 0x07C = 0 ∧ regsBut ([0x07C].map a) s t) ∧
    (∀ v : Word, (rd s .time 0 0x040 2 0 ≠ 1 ∨ enabled s .time 0 = false → exec (.servoOfs v) s = .next s) ∧
      let th : Rat := (v.toInt : Rat) / 256
      let thr : Rat := (reg s .time 0 0x084).toNat
      let lim : Int := (reg s .time 0 0x080).toNat
      let near (i : Int) (x : Rat) : Prop := i = x.floor ∨ (i = x.floor + 1 ∧ x.den ≠ 1)
      (rd s .time 0 0x040 2 0 = 1 → enabled s .time 0 = true → Gives (.servoOfs v) s (fun t =>
        reg t .time 0 0x088 = v ∧
        (thr ≠ 0 ∧ thr < |th| → stepped (-(v.toInt * 2 ^ 24)) t ∧ regsBut ([0x088, 0x010].map a) s t) ∧
        (thr = 0 ∨ |th| ≤ thr → ∃ i j : Int,
          near i (s.clk.integ + ((reg s .time 0 0x078).toNat : Rat) / 65536 * th) ∧
          ticks { s.clk with integ := clampI (-lim) lim i } t ∧
          near j (-(((reg s .time 0 0x074).toNat : Rat) / 65536 * th) - t.clk.integ) ∧
          reg t .time 0 0x07C = BitVec.ofInt 32 (clampI (-lim) lim j) ∧
          (clampI (-lim) lim i ≠ i ∨ clampI (-lim) lim j ≠ j → bit t 0x010 4 = true) ∧
          regsBut ([0x088, 0x07C, 0x010].map a) s t)))) ∧
    Gives (.mtRead p) s (fun t => t.rdata = BitVec.ofNat 32 (s.clk.mt.toNat / 2 ^ 32) ∧ t.regs = s.regs ∧ t.clk = s.clk ∧
      (∀ e ∈ [(0x04C, s.clk.mt.toNat / 2 ^ 64), (0x050, s.clk.mt.toNat), (0x054, s.clk.tc.toNat), (0x058, s.clk.tc.toNat / 2 ^ 32)],
        getRlatch t p (a e.1) = some (BitVec.ofNat 32 e.2))) ∧
    (∀ k : Fin 8, let o : Nat := 0x100 + 0x10 * k.val
      Gives (.tsuRead p k) s (fun t => t.rdata = reg s .time 0 o ∧ rd t .time 0 (o + 12) 31 30 = 0 ∧
        rd t .time 0 (o + 12) 15 0 = rd s .time 0 (o + 12) 15 0 ∧ regsBut ([o + 12].map a) s t ∧
        (∀ d ∈ [4, 8, 12], getRlatch t p (a (o + d)) = some (reg s .time 0 (o + d))))) ∧
    (∀ k : Fin 4, let o : Nat := 0x180 + 0x10 * k.val
      let past : Int := sx 64 (ux 64 ((mtNs s : Int) - rdPair s .time 0 o))
      let reached : Prop := 0 ≤ past
      let fired : BitVec 48 := s.clk.tc - BitVec.ofNat 48 (cmpAgo s k)
      ((enabled s .time 0 = false ∨ bit s (o + 8) 31 = false ∨ ¬ reached) → exec (.cmpFire k) s = .next s) ∧
      (enabled s .time 0 = true → bit s (o + 8) 31 = true → reached → Gives (.cmpFire k) s (fun t =>
        bit t (o + 8) 31 = false ∧ reg t .time 0 (o + 12) = BitVec.ofNat 32 fired.toNat ∧
        (0 < mtInc s → past * 2 ^ 32 + (s.clk.mt.toNat % 2 ^ 32 : Nat) < mtInc s → fired = s.clk.tc) ∧
        bit t 0x010 (12 + k.val) = true ∧ noted [o + 8, o + 12, 0x010] t)))

/-- R355: after alignment an edge of SYNC_IN that is not awaited for an alignment leaves TC as it is and shows its
place in PHASE; one that lies more than half an RF sample (125 / 6 ps) from its place sets SLIP, counts, and raises
SYNC_SLIP; a period without an edge counts and raises SYNC_MISS. What PHASE shows of a place outside its 16 bits is
open (log 19). It states the completion of: syncEdge, syncAbsent. -/
def Obligations.SyncEdgesAreCheckedAfterAlignment : Prop :=
  ∀ (s : State) (off : Int) (report : Bool), ptUp s .time = true → rdBit s .time 0 0x094 31 = true →
    let a (o : Nat) : Nat := addrOf .time 0 o
    let cnt (t : State) (hi lo : Nat) : Nat := rd t .time 0 0x0B0 hi lo
    let slip : Prop := (125 : Rat) / 6 < |(off : Rat)|
    ((s.align.armed = false ∨ mtNs s < rdPair s .time 0 0x098) → Gives (.syncEdge off report) s (fun t =>
      rdBit t .time 0 0x094 31 = true ∧ t.clk = s.clk ∧
      (-32768 ≤ off → off ≤ 32767 → rd t .time 0 0x094 15 0 = ux 16 off ∧ t.free = s.free) ∧
      (¬ slip → rdBit t .time 0 0x094 30 = rdBit s .time 0 0x094 30 ∧ regsBut [a 0x094] s t ∧
        onlyRegs s { t with free := s.free }) ∧
      (slip → rdBit t .time 0 0x094 30 = true ∧ rdBit t .time 0 0x018 1 = true ∧
        cnt t 15 0 = min (cnt s 15 0 + 1) 65535 ∧ cnt t 31 16 = cnt s 31 16 ∧
        regsBut [a 0x094, a 0x0B0, a 0x018] s t ∧ onlyRegsIrq s { t with free := s.free }))) ∧
    Gives .syncAbsent s (fun t => rdBit t .time 0 0x010 2 = true ∧ cnt t 31 16 = min (cnt s 31 16 + 1) 65535 ∧
      cnt t 15 0 = cnt s 15 0 ∧ regsBut [a 0x0B0, a 0x010] s t ∧ onlyRegsIrq s t)

/-- R340, R365 to R369 (PTP): messages go to the addresses of their port's transport. A port acts by its role. A
master sends Sync and Announce and answers each Delay_Req of its domain; a responder answers a Pdelay_Req in one step
or two; a slave keeps the Sync and the Delay_Resp of its own master and forms the offset once when it has both; every
other message is queued only in LISTEN, and Announce, Signaling and Management in every role but DISABLED. A full
queue discards and faults. It states the completion of: ptpSync, followUp, delayReq, delayResp, pdelayReq,
syncInterval, delayReqInterval, announceInterval, syncTimeout, rxqPop, pdelayResp, pdelayRespFollowUp, announce,
signaling, management. -/
def Obligations.PtpPortsActByTheirRole : Prop :=
  ∀ (s : State) (h : Fin 2) (m : PtpMsg), ptUp s .host = true → ptUp s .time = true →
    let n : Nat := h.val
    let role : Nat := ptpRole s n
    let x : Slave := getSlave s n
    let cfg (b : Nat) : Bool := rdBit s .time 0 (0x200 + 0x80 * n) b
    let now : Int := (s.clk.mt.toNat / 2 ^ 16 : Nat)
    let mine : Bool := ptpDomain s n m
    let sent (os : List Output) (t : State) : Prop := t.outbox = os ++ s.outbox ∧ { t with outbox := s.outbox } = s
    let kept (y : Slave) (t : State) : Prop := getSlave t n = y ∧ (∀ k, k ≠ n → getSlave t k = getSlave s k) ∧
      { t with slaves := s.slaves } = s
    let peer : Option (BitVec 64 × BitVec 16) := some (m.clockId, m.portNo)
    let dst (kind : Nat) : PtpTo := ptpTo s n kind
    let net : Nat := rd s .time 0 (0x200 + 0x80 * n) 29 28
    (∀ kind : Nat, let p : Prop := kind = 2 ∨ kind = 3 ∨ kind = 10
      (dst kind).tag = hostTag s n ∧
      (net = 0 → (dst kind).etype = 0x88F7 ∧ (dst kind).udp = none ∧ (p → (dst kind).mac = 0x0180C200000E) ∧
        (¬ p → (dst kind).mac = 0x011B19000000)) ∧
      (net = 1 ∨ net = 2 → ∃ ip, (dst kind).udp = some (ip, if kind ≤ 3 then 319 else 320) ∧
        (net = 1 → ip = 0xE000006B ∧ p ∨ ip = 0xE0000181 ∧ ¬ p))) ∧
    let q : List (List Byte) := mapGet (fun _ => []) s.rxqs n
    let queued (bs : List Byte → Prop) (t : State) : Prop :=
      (q.length < 16 → rdBit t .time 0 0x010 (9 + n) = true ∧
        ∃ b, bs b ∧ mapGet (fun _ => []) t.rxqs n = q ++ [leBytes (mtNs s) 8 ++ b]) ∧
      (16 ≤ q.length → t.rxqs = s.rxqs ∧ rdBit t .time 0 0x018 2 = true ∧ rdBit t .time 0 (0x21C + 0x80 * n) 31 = true)
    let others : List Instr := [.ptpSync h m false, .ptpSync h m true, .followUp h m, .delayReq h m, .delayResp h m,
      .pdelayReq h m, .pdelayResp h m, .pdelayRespFollowUp h m]
    let used (y : Slave) (t : State) : Prop := ∃ t1 t3 t4 c2, y.t1 = some t1 ∧ y.resp = some (t3, t4, c2) ∧
      rd t .time 0 (0x218 + 0x80 * n) 31 16 = min (rd s .time 0 (0x218 + 0x80 * n) 31 16 + 1) 65535 ∧
      rd t .time 0 (0x218 + 0x80 * n) 15 0 = min (rd s .time 0 (0x218 + 0x80 * n) 15 0 + 1) 65535 ∧
      (getSlave t n).fresh = false ∧
      (timeSrc s ≠ n + 2 → kept { y with fresh := false } { t with regs := s.regs }) ∧
      (timeSrc s = n + 2 → ∃ u : State, u.clk = s.clk ∧
        let there : Rat := ((y.t2 - t1 - y.c1 : Int) : Rat) / 65536
        let path : Rat := (there + ((t4 - t3 - c2 : Int) : Rat) / 65536) / 2
        t = servoUpdate (there - (path + ((reg s .time 0 (0x204 + 0x80 * n)).toInt : Rat) / 1000)) u)
    (role = 0 → ∀ c ∈ others ++ [.syncInterval h, .delayReqInterval h 0, .announceInterval h, .announce h [], .signaling h [],
      .management h []], exec c s = .next s) ∧
    (role = 3 → ∀ c ∈ others, Gives c s (queued fun b => b.length = 44)) ∧
    (role = 1 ∨ role = 2 → ∀ c ∈ [Instr.pdelayResp h m, .pdelayRespFollowUp h m], exec c s = .next s) ∧
    (role ≠ 0 → ∀ bs : List Byte, ∀ c ∈ [Instr.announce h bs, .signaling h bs, .management h bs],
      Gives c s (queued fun b => b = bs)) ∧
    (role = 1 → mine = true → Gives (.delayReq h m) s (sent [.ptp n 9 m.seqId.toNat (some (m.rx * 256)) m.corr peer [] (dst 9)])) ∧
    (role = 1 ∨ role = 2 → cfg 26 = true → mine = true →
      (cfg 27 = false → Gives (.pdelayReq h m) s (sent [.ptp n 3 m.seqId.toNat none (m.corr + now - m.rx * 256) peer [] (dst 3)])) ∧
      (cfg 27 = true → Gives (.pdelayReq h m) s (sent [.ptp n 10 m.seqId.toNat (some now) m.corr peer [] (dst 10),
        .ptp n 3 m.seqId.toNat (some (m.rx * 256)) 0 peer [] (dst 3)]))) ∧
    (let no (k : Nat) : Nat := (mapGet (fun _ => 0) s.seqIds k + 1) % 65536
     let sends (k : Nat) (os : List Output) (t : State) : Prop := t.outbox = os ++ s.outbox ∧ t.regs = s.regs ∧
       mapGet (fun _ => 0) t.seqIds k = no k
     (role = 1 → cfg 27 = false → Gives (.syncInterval h) s (sends n [.ptp n 0 (no n) (some now) 0 none [] (dst 0)])) ∧
     (role = 1 → cfg 27 = true → Gives (.syncInterval h) s (sends n [.ptp n 8 (no n) (some now) 0 none [] (dst 8),
       .ptp n 0 (no n) none 0 none [] (dst 0)])) ∧
     (role = 1 → Gives (.announceInterval h) s (sends (4 + n) [.ptp n 11 (no (4 + n)) none 0 none
       ((List.range 8).flatMap (fun k => wordBytes (reg s .time 0 (0x240 + 0x80 * n + 4 * k)))) (dst 11)])) ∧
     (∀ tx : Int, role = 2 → Gives (.delayReqInterval h tx) s (fun t =>
       sends (2 + n) [.ptp n 1 (no (2 + n)) none 0 none [] (dst 1)] t ∧
       getSlave t n = { x with dseq := no (2 + n), t3 := some (tx * 256) }))) ∧
    (role = 2 → fromMaster s n m = true →
      let y (two : Bool) : Slave := { x with
        seq := m.seqId.toNat, t1 := if two then none else m.time.map (· * 65536), t2 := m.rx * 256, c1 := m.corr
        fresh := true }
      let z : Slave := { x with t1 := m.time.map (· * 65536), c1 := x.c1 + m.corr }
      Gives (.ptpSync h m true) s (kept (y true)) ∧
      (m.time ≠ none → x.resp ≠ none → Gives (.ptpSync h m false) s (used (y false))) ∧
      (m.time = none ∨ x.resp = none → Gives (.ptpSync h m false) s (kept (y false))) ∧
      ((x.fresh = false ∨ x.t1 ≠ none ∨ x.seq ≠ m.seqId.toNat) → exec (.followUp h m) s = .next s) ∧
      (x.fresh = true → x.t1 = none → x.seq = m.seqId.toNat → m.time ≠ none →
        (x.resp = none → Gives (.followUp h m) s (kept z)) ∧ (x.resp ≠ none → Gives (.followUp h m) s (used z))) ∧
      ((x.t3 = none ∨ m.time = none ∨ x.dseq ≠ m.seqId.toNat) → exec (.delayResp h m) s = .next s) ∧
      (∀ t3 t4, x.t3 = some t3 → m.time = some t4 → x.dseq = m.seqId.toNat →
        let w : Slave := { x with resp := some (t3, t4 * 65536, m.corr) }
        (x.fresh = true ∧ x.t1 ≠ none → Gives (.delayResp h m) s (used w)) ∧
        (x.fresh = false ∨ x.t1 = none → Gives (.delayResp h m) s (kept w)))) ∧
    Gives (.rxqPop h) s (fun t => mapGet (fun _ => []) t.rxqs n = q.tail ∧ mapGet (fun _ => 0) t.rxqPos n = 0 ∧
      { t with rxqs := s.rxqs, rxqPos := s.rxqPos } = s) ∧
    (∀ k : Fin 3, let live : Bool := enabled s .time 0 && (decide (k.val = 2 ∧ timeSrc s = 4) ||
        (decide (k.val < 2) && decide (ptpRole s k.val = 2)))
      (live = false → exec (.syncTimeout k) s = .next s) ∧
      (live = true → Gives (.syncTimeout k) s (fun t => rdBit t .time 0 0x010 (6 + k.val) = true ∧
        regsBut [addrOf .time 0 0x010] s t ∧ onlyRegsIrq s t)))

/-- R272, R373 to R379 (TBUS): in each cycle the module drives the requests that are due and HOLD, samples the wired
OR and shows it, and acts at act(c): lines sampled asserted become active, a START with HOLD released is accepted by
every idle master whose SRC is 1, and one with HOLD asserted is void, counted and driven again up to its limit. HOLD
stuck is a fault. It states the completion of: tbusCycle, holdStuck. -/
def Obligations.TriggerBusActsOnItsCycles : Prop :=
  ∀ (s : State) (lines : BitVec 8) (hold : Bool), ptUp s .tbus = true →
    (tbusOn s = false → exec .holdStuck s = .next s ∧ exec (.tbusCycle lines hold) s = .next { s with tbusQ := [] }) ∧
    (tbusOn s = true →
      (rdBit s .tbus 0 0x078 31 = false → exec .holdStuck s = .next s) ∧
      (rdBit s .tbus 0 0x078 31 = true → Gives .holdStuck s (fun t =>
        rdBit t .tbus 0 0x018 0 = true ∧ regsBut [addrOf .tbus 0 0x018] s t ∧ onlyRegsIrq s t)) ∧
      let x : BitVec 48 := cycleStart s
      let a : BitVec 48 := x + BitVec.ofNat 48 (max 10 (rd s .tbus 0 0x040 7 0))
      let named : BitVec 48 := a + BitVec.ofNat 48 (max 24 (rd s .tbus 0 0x044 15 0))
      let due : List TbReq := s.tbusQ.filter (reqDue s x)
      let test : Nat := rd s .tbus 0 0x070 2 0
      let beat : Bool := decide (x.toNat / 6 % 4 = 0)
      let own (l : Nat) : Bool := due.any (fun r => decide (r.line = l)) ||
        (rdBit s .tbus 0 0x070 31 && beat && decide (l = test))
      let held : Bool := hold || drivesHold s x
      let on (l : Nat) : Bool := nbit lines.toNat l || own l
      let sl : Nat := rd s .tbus 0 0x040 26 24
      let limit : Nat := rd s .tbus 0 0x040 15 8
      Gives (.tbusCycle lines hold) s (fun t =>
        t.clk = (passTo a (passTo x s)).clk ∧ t.tbusAt = some x ∧
        (∃ d, Output.tbus d x ∈ t.outbox ∧ nbit d 8 = drivesHold s x ∧ ∀ l, l < 8 → nbit d l = own l) ∧
        (∀ l, l < 8 → rdBit t .tbus 0 0x078 (16 + l) = on l) ∧ rdBit t .tbus 0 0x078 31 = held ∧
        (∀ l, l < 8 → on l = true → (l ≠ sl ∨ held = false) → ptUp s .evt = true → (a, 104 + l, false) ∈ t.lines) ∧
        (rdBit s .tbus 0 0x070 30 = true → on test ≠ beat → rdBit t .tbus 0 0x010 3 = true ∧
          rd t .tbus 0 0x074 31 0 = min (rd s .tbus 0 0x074 31 0 + 1) (2 ^ 32 - 1)) ∧
        (∀ r ∈ s.tbusQ, reqDue s x r = false → r ∈ t.tbusQ) ∧
        (on sl = true → held = true → t.groups = s.groups ∧ rdBit t .tbus 0 0x010 1 = true ∧
          rd t .tbus 0 0x07C 31 16 = min (rd s .tbus 0 0x07C 31 16 + 1) 65535 ∧
          (∀ r ∈ due, r.start ≠ none → (limit = 0 ∨ r.voids + 1 < limit → { r with voids := r.voids + 1 } ∈ t.tbusQ) ∧
            (limit ≠ 0 ∧ limit ≤ r.voids + 1 → rdBit t .tbus 0 0x010 2 = true))) ∧
        (on sl = true → held = false → rd t .tbus 0 0x07C 15 0 = min (rd s .tbus 0 0x07C 15 0 + 1) 65535 ∧
          (∀ m, m < 8 → startSrc s m = 1 → refusesStart s m = false → (getGroup s m).pend = none →
            (getGroup s m).opening = none → 0 ≤ ticksTo (t.clk.tc + 24) named →
            (getGroup s m).running = false → (getGroup s m).boundary = false → (getGroup t m).opening = some named)) ∧
        (on sl = false → t.groups = s.groups)))

/-- R389 to R391, R481: a context slot takes its mode and, with INIT, its initial value; each data word, written to
the slot or to the window of an engine that selects it, feeds its lowest bytes and returns NBYTES to 0; a slot whose
mode is OFF, or a page out of service, discards the word with SLOT_OFF; a write of CTX_VAL replaces the value, 24 bits
of it in CRC-24; CTX_RES reads the value XOR the final XOR of the mode. It states the completion of: ctxCfgWrite,
ctxValWrite, ctxData, crcWindowWrite. -/
def Obligations.ContextSlotsFeedTheirValue : Prop :=
  ∀ (s : State) (slot : Fin 64) (v : Word), ptUp s .crc = true →
    let o : Nat := 0x100 + 0x10 * slot.val
    let a (k : Nat) : Nat := addrOf .crc 0 (o + k)
    let val (t : State) : Word := reg t .crc 0 (o + 4)
    let m : Nat := rd s .crc 0 o 17 16
    let nb : Nat := rd s .crc 0 o 9 8
    let feeds : List Instr := .ctxData slot v :: (if rd s .crc 0 (0x040 + 4 * (slot.val / 16)) 3 0 = slot.val % 16 then
      [.crcWindowWrite ⟨slot.val / 16, Nat.div_lt_of_lt_mul slot.isLt⟩ v] else [])
    (wbit v 31 = false ∨ fget v 17 16 = 0 → Gives (.ctxCfgWrite slot v) s (fun t =>
      reg t .crc 0 o = v &&& 0x30300 ∧ regsBut [a 0] s t ∧ onlyRegs s t)) ∧
    (wbit v 31 = true → fget v 17 16 ≠ 0 → Gives (.ctxCfgWrite slot v) s (fun t =>
      reg t .crc 0 o = v &&& 0x30300 ∧ val t = (if fget v 17 16 = 2 then 0xB704CE else 0xFFFFFFFF) ∧
      regsBut [a 0, a 4] s t ∧ onlyRegs s t)) ∧
    (m ≠ 0 → enabled s .crc 0 = true → ∀ c ∈ feeds, Gives c s (fun t =>
      val t = ((wordBytes v).take (if nb = 0 then 4 else nb)).foldl (crcFeed m) (val s) ∧
      rd t .crc 0 o 9 8 = 0 ∧ rd t .crc 0 o 17 16 = m ∧ regsBut [a 0, a 4] s t ∧ onlyRegs s t)) ∧
    (m = 0 ∨ enabled s .crc 0 = false → ∀ c ∈ feeds, Gives c s (fun t =>
      rdBit t .crc 0 0x010 0 = true ∧ regsBut [addrOf .crc 0 0x010] s t ∧ onlyRegsIrq s t)) ∧
    Gives (.ctxValWrite slot v) s (fun t =>
      val t = (if m = 2 then v &&& 0xFFFFFF else v) ∧ regsBut [a 4] s t ∧ onlyRegs s t) ∧
    viewWord s .crc 0 (o + 0xC) =
      (if m = 1 ∨ m = 3 then val s ^^^ 0xFFFFFFFF else if m = 2 then val s &&& 0xFFFFFF else val s)

/-- R393 to R396, R399, R400, R403 to R406, R408 (calibration): a live slot ignores SUBMIT; a request that fails a
check ends with its status, and one that passes waits or runs; CLEAR empties a slot; CANCEL ends a queued request at
once and a running one at its segment's end, over which a completion wins; an attempt of a LEVEL-0 request that ends
gives the results and QUAL, and ends the request by its quality; a timeout fails the attempt; a reference check above
50 is a fault unless paused. It states the completion of: submit, clear, cancel, calSegmentDone, attemptTimeout,
backgroundPassDone, referenceCheck. -/
def Obligations.CalibrationRequestsRunAndEnd : Prop :=
  ∀ (s : State) (k : Fin 16) (r0 r1 : Word) (qual : BitVec 16), ptUp s .cal = true →
    let n : Nat := k.val
    let st (t : State) : Nat := rqStatus t n
    let q : Nat := qual.toNat
    let x : CalReq := getCal s n
    let evt (t : State) (b : Nat) : Bool := rdBit t .cal 0 0x010 b
    let cfgs (t : State) : Prop := ∀ j < 16, ∀ o ∈ [0, 4, 8], reg t .cal 0 (rqOff j o) = reg s .cal 0 (rqOff j o)
    let fields (t : State) (hi lo : Nat) : Nat := rd t .cal 0 (rqOff n 0x10) hi lo
    let attempted (t : State) : Prop := fields t 23 20 = min (fields s 23 20 + 1) 15
    let f : State := freshRequest n s
    let fore : Bool := foreground (rqKind s n)
    let long : Bool := decide (rd s .cal 0 0x048 23 0 < calTicks s n) && !rdBit s .cal 0 0x040 2
    let ends (v : Nat) (t : State) : Prop := st t = v ∧ (getCal t n).order = s.calNo + 1 ∧ fields t 27 0 = 0 ∧ cfgs t
    let z : Word × Word × Nat := calResult s n r0 r1 q
    let result (t : State) : Prop := reg t .cal 0 (rqOff n 0x18) = z.1 ∧ reg t .cal 0 (rqOff n 0x1C) = z.2.1 ∧
      rd t .cal 0 (rqOff n 0x14) 15 0 = z.2.2 % 65536 ∧ attempted t ∧
      (qualOk s n z.2.2 = true → (st t = 3 ∧ evt t 0 = true) ∨ (st t = 0xC ∧ evt t 1 = true)) ∧
      (qualOk s n z.2.2 = false → st t = 7 ∧ evt t 1 = true)
    (rqLive s n = true → exec (.submit k) s = .next s) ∧
    (rqLive s n = false →
      (requestOk f n = false → Gives (.submit k) s (ends 0xA)) ∧
      (requestOk f n = true → fore = true → rdBit s .sys 0 0x04C 28 = true → Gives (.submit k) s (ends 0xD)) ∧
      (requestOk f n = true → fore = true → rdBit s .sys 0 0x04C 28 = false → long = true → Gives (.submit k) s (ends 0xB)) ∧
      (requestOk f n = true → (fore = false ∨ rdBit s .sys 0 0x04C 28 = false ∧ long = false) → Gives (.submit k) s (fun t =>
        cfgs t ∧ (getCal t n).order = s.calNo + 1 ∧ (st t = 1 ∨ st t = 2 ∨ (st t = 4 ∧ evt t 2 = true)) ∧
        (fore = true → st t = 2 → calSlot t = n ∧ calMode t = 2) ∧
        (st t = 4 → fore = true ∧ rdBit s .cal 0 0x040 0 = true)))) ∧
    Gives (.clear k) s (fun t => reg t .cal 0 (rqOff n 0x10) = 0 ∧ getCal t n = {} ∧ cfgs t) ∧
    (st s = 1 → Gives (.cancel k) s (fun t => st t = 8 ∧ evt t 1 = true ∧ cfgs t ∧ t.clk = s.clk)) ∧
    (st s = 2 → Gives (.cancel k) s (fun t => getCal t n = { x with cancel := true } ∧ { t with cals := s.cals } = s)) ∧
    (rqLive s n = false → exec (.cancel k) s = .next s) ∧
    (calMode s = 0 → exec (.calSegmentDone r0 r1 qual) s = .next s) ∧
    (calMode s ≠ 0 → calSlot s = n → st s = 2 →
      (x.seg + 1 < calSegs (rqKind s n) → Gives (.calSegmentDone r0 r1 qual) s (fun t => cfgs t ∧
        fields t 15 0 = min (fields s 15 0 + 1) 65535 ∧ (getCal t n).seg = x.seg + 1 ∧ (getCal t n).cancel = false ∧
        (x.cancel = true → st t = 8 ∧ evt t 1 = true) ∧ (x.cancel = false → st t = 1 ∨ st t = 2))) ∧
      (x.seg + 1 = calSegs (rqKind s n) → rqLevel s n = 0 → Gives (.calSegmentDone r0 r1 qual) s (fun t =>
        result t ∧ (x.cancel = true → st t = 3 → fields t 27 27 = 1)))) ∧
    ((background (rqKind s n) = false ∨ st s ≠ 2 ∨ passWaits s n = true) →
      exec (.backgroundPassDone k r0 r1 qual) s = .next s) ∧
    (background (rqKind s n) = true → st s = 2 → passWaits s n = false → rqLevel s n = 0 →
      Gives (.backgroundPassDone k r0 r1 qual) s result) ∧
    (st s ≠ 2 → exec (.attemptTimeout k) s = .next s) ∧
    (st s = 2 → Gives (.attemptTimeout k) s (fun t => attempted t ∧ cfgs t ∧ (getCal t n).run = [] ∧ fields t 19 16 = 0 ∧
      (rqLevel s n = 0 → st t = 5 ∧ evt t 1 = true) ∧
      (rqLevel s n ≠ 0 → rqAttempts s n ≤ fields t 23 20 → st t = 6 ∧ evt t 1 = true) ∧
      (rqLevel s n ≠ 0 → fields t 23 20 < rqAttempts s n → x.cancel = true → st t = 8 ∧ evt t 1 = true) ∧
      (rqLevel s n ≠ 0 → fields t 23 20 < rqAttempts s n → x.cancel = false → st t = 1 ∨ st t = 2))) ∧
    ((bgPaused s = true ∨ q ≤ 50) → exec (.referenceCheck qual) s = .next s) ∧
    (bgPaused s = false → 50 < q → Gives (.referenceCheck qual) s (fun t => rdBit t .cal 0 0x018 0 = true ∧
      regsBut [addrOf .cal 0 0x018] s t ∧ onlyRegsIrq s t))

/-- R413 to R416, R418, R420 to R422 (monitor converter): the next list entry is converted, corrected, compared and
shown; an invalid one converts nothing and is told of; after the list come one reference and three flux readbacks; an
urgent request is converted 1 to 376 ticks after it became pending, lowest first, and shown 377 ticks after its
sample; a zero and a full-scale measurement store the zero, or the offset and gain, or fail. It states the completion
of: conversion, housekeepingConversion, urgentConversion, zero, full, scalMeasureDone. -/
def Obligations.MonitorConvertsItsListAndRequests : Prop :=
  ∀ (s : State) (raw : BitVec 18), ptUp s .monadc = true →
    let r (t : State) (o : Nat) : Word := reg t .monadc 0 o
    let evt (t : State) (b : Nat) : Bool := rdBit t .monadc 0 0x010 b
    let p : Nat := s.mon.pos
    let ch : Nat := rd s .monadc 0 (0x100 + 4 * p) 11 4
    let code (t : State) (ch : Nat) : Nat :=
      (clampI 0 262143 (rndAway (((raw.toNat : Int) - sx 20 (rd t .monadc 0 (0x300 + 8 * ch) 19 0)) *
        rd t .monadc 0 (0x304 + 8 * ch) 19 0) 18)).toNat
    let c : Nat := code s ch
    let word (c : Nat) (w : Word) : Prop := fget w 17 0 = c ∧ wbit w 31 = true ∧ wbit w 29 = s.mon.suspect ∧ fget w 28 18 = 0
    let lim : Nat := rd s .monadc 0 (0x100 + 4 * p) 18 16
    let out (l c : Nat) : Prop := c < rd s .monadc 0 (0x0A0 + 0x10 * (l - 1)) 17 0 ∨ rd s .monadc 0 (0x0A4 + 0x10 * (l - 1)) 17 0 < c
    let after : Nat := if p < max 48 (rd s .monadc 0 0x040 5 0) then p + 1 else 64
    let valid : Bool := monOk ch (rd s .monadc 0 (0x100 + 4 * p) 3 0)
    (64 ≤ p → exec (.conversion raw) s = .next s) ∧
    (p < 64 → valid = false → Gives (.conversion raw) s (fun t => t.mon.pos = after ∧ p ∈ t.mon.told ∧
      (p ∉ s.mon.told → evt t 5 = true) ∧ regsBut [addrOf .monadc 0 0x010] s t)) ∧
    (p < 64 → valid = true → Gives (.conversion raw) s (fun t =>
      t.mon.pos = after ∧ t.clk = s.clk ∧ word c (r t (0x200 + 4 * p)) ∧
      (lim = 0 ∨ 4 < lim → wbit (r t (0x200 + 4 * p)) 30 = false ∧ t.mon.outside = s.mon.outside) ∧
      (1 ≤ lim → lim ≤ 4 → (wbit (r t (0x200 + 4 * p)) 30 = true ↔ out lim c) ∧
        ((p, lim - 1) ∈ t.mon.outside ↔ out lim c) ∧
        (out lim c → (rdBit s .monadc 0 (0x0A8 + 0x10 * (lim - 1)) 0 = false ∨ (p, lim - 1) ∉ s.mon.outside) →
          evt t (lim - 1) = true ∧ (ptUp s .evt = true → (s.clk.tc, 119 + lim, false) ∈ t.lines))) ∧
      (p = 48 → rd t .pwr 0 0x054 15 0 = (2 * (c * 24000) + 262144) / 524288) ∧
      (ch ≠ 58 → t.mon.suspect = s.mon.suspect) ∧
      (ch = 58 → (t.mon.suspect = true ↔ c + 1280 < 256000 ∨ 257280 < c) ∧
        (t.mon.suspect = true → rdBit t .monadc 0 0x018 0 = true)) ∧
      (∀ e, e < 64 → e ≠ p → r t (0x200 + 4 * e) = r s (0x200 + 4 * e)))) ∧
    (p < 64 → exec (.housekeepingConversion raw) s = .next s) ∧
    (p = 64 → s.mon.ref < 15 → Gives (.housekeepingConversion raw) s (fun t => let z : Nat := code s (57 + s.mon.ref)
      word z (r t (0xA00 + 4 * s.mon.ref)) ∧ t.mon.ref = (s.mon.ref + 1) % 15 ∧ t.mon.pos = 65 ∧ t.clk = s.clk ∧
      (s.mon.ref = 1 → (t.mon.suspect = true ↔ z + 1280 < 256000 ∨ 257280 < z) ∧
        (t.mon.suspect = true → rdBit t .monadc 0 0x018 0 = true)))) ∧
    (64 < p → p ≤ 67 → s.mon.flx < 256 → Gives (.housekeepingConversion raw) s (fun t =>
      word (code s (41 + s.mon.flx / 16)) (r t (0x600 + 4 * s.mon.flx)) ∧ t.mon.flx = (s.mon.flx + 1) % 256 ∧
      t.mon.pos = (if p = 67 then 0 else p + 1) ∧
      rd t .monadc 0 0x044 31 16 = (rd s .monadc 0 0x044 31 16 + (if p = 67 then 1 else 0)) % 65536)) ∧
    (∀ k : Fin 4, (s.mon.urg.all (fun e => decide (e.1 ≠ k.val)) = true → exec (.urgentConversion k raw) s = .next s) ∧
      (∀ a, s.mon.urg.find? (fun e => decide (e.1 = k.val)) = some (k.val, a) →
        let u : State := passTo (a + 1) s
        let lower : Prop := ∃ e ∈ s.mon.urg, e.1 < k.val ∧ 0 ≤ ticksTo e.2 u.clk.tc
        let at_ : BitVec 48 := if 376 < ticksTo a u.clk.tc then a + 376 else u.clk.tc
        let uch : Nat := rd s .monadc 0 (0x060 + 4 * k.val) 11 4
        let usub : Nat := rd s .monadc 0 (0x060 + 4 * k.val) 3 0
        let left (t : State) : Prop := ∀ e, e ∈ t.mon.urg ↔ e ∈ s.mon.urg ∧ e.1 ≠ k.val
        (lower → exec (.urgentConversion k raw) s = .next s) ∧
        (¬ lower → monOk uch usub = false → Gives (.urgentConversion k raw) s (fun t => t.clk = u.clk ∧ left t ∧
          evt t 5 = true ∧ regsBut [addrOf .monadc 0 0x010] s t)) ∧
        (¬ lower → monOk uch usub = true → Gives (.urgentConversion k raw) s (fun t =>
          t.clk = (passTo (at_ + 377) u).clk ∧ left t ∧ r t (0x080 + 4 * k.val) = BitVec.ofNat 32 at_.toNat ∧
          word (code s uch) (r t (0x070 + 4 * k.val)) ∧
          (uch = 58 → (t.mon.suspect = true ↔ code s uch + 1280 < 256000 ∨ 257280 < code s uch)))))) ∧
    (let run (t : State) : Nat := rd t .monadc 0 0x050 31 28
     let cal : Nat := rd s .monadc 0 0x048 4 0
     let failed (v : Nat) (t : State) : Prop := run t = v ∧ evt t 7 = true
     (s.mon.run ≠ none → Gives .zero s (fun t => failed 6 t ∧ t.mon = s.mon) ∧ Gives .full s (fun t => failed 6 t ∧ t.mon = s.mon)) ∧
     (s.mon.run = none → Gives .zero s (fun t => run t = 1 ∧ t.mon = { s.mon with run := some (false, cal) }) ∧
       (s.mon.zeroOf ≠ some cal → Gives .full s (fun t => failed 4 t ∧ t.mon = s.mon)) ∧
       (s.mon.zeroOf = some cal → Gives .full s (fun t => run t = 1 ∧
         t.mon = { s.mon with run := some (true, cal), zeroOf := none }))) ∧
     (s.mon.run = none → exec (.scalMeasureDone raw) s = .next s) ∧
     (∀ w, s.mon.run = some (false, w) → Gives (.scalMeasureDone raw) s (fun t => run t = 2 ∧
       rd t .monadc 0 0x050 17 0 = raw.toNat ∧ t.mon = { s.mon with run := none, zeroOf := some w })) ∧
     (∀ w, s.mon.run = some (true, w) → w < 32 → let z : Nat := rd s .monadc 0 0x050 17 0
       let d : Nat := raw.toNat - z
       let gain : Nat := (2 * (rd s .monadc 0 0x048 31 14 * 2 ^ 18) + d) / (2 * d)
       (raw.toNat < z + 65536 ∨ 2 ^ 20 ≤ gain → Gives (.scalMeasureDone raw) s (fun t => failed 5 t ∧
         t.mon = { s.mon with run := none })) ∧
       (z + 65536 ≤ raw.toNat → gain < 2 ^ 20 → Gives (.scalMeasureDone raw) s (fun t => run t = 3 ∧ evt t 6 = true ∧
         r t (0x300 + 8 * w) = BitVec.ofNat 32 z ∧ r t (0x304 + 8 * w) = BitVec.ofNat 32 gain ∧
         t.mon = { s.mon with run := none }))))

/-- R429, R430: the throttle level rises by one at each THROTTLE_UP while THROT is set and falls by one at
THROTTLE_DOWN below its release, with its event; at level 7 a rise raises THROT_MAX instead; a frozen level does not
fall. R425 to R428: a sensor update shows at every site that is not estimated the reading taken, and the thresholds
are judged on the highest and lowest corrected estimates; an update without 24 readings is no command (safe). The
values that trims would give, and the roundings, are free (log 16). R426: the comparison of the two diodes of a site
whose primary works judges, when they differ by more than 2.0 K, the one further from the model failed, and changes
nothing otherwise. Which one goes when both are equally far is open (log 107). R435, R436, R463: a failed phase leaves
service, with its event while a spare phase stood for it and the fault after that; a domain out of regulation is
logged, raises DOMAIN_TRIP and leads to stage 6, as an over-voltage does. R438, R439: the voltage demand follows the
thresholds that VIN lies below, the current demand rises by one each DWELL, up to 5 and one above the stage in force,
and falls by one each HOLD; the stages then follow the demand. A stage entry that has waited WAIT is made in the
running shot, which is CORRUPT. It states the completion of: trivetUpdate, diodeCrosscheck, freezeTimeout, throttleUp,
throttleDown, phaseFail, domainTrip, shedDwell, shedHold, shedWait, vinThreshold, overVoltage. -/
def Obligations.ThermalAndSupplyStagesFollow : Prop :=
  (∀ s : State, ptUp s .therm = true →
     let stepped (level evt : Nat) (t : State) : Prop := ∃ u : State,
       rd u .therm 0 0x05C 31 29 = level ∧ rdBit u .therm 0 0x010 evt = true ∧
       rd u .therm 0 0x05C 28 0 = rd s .therm 0 0x05C 28 0 ∧
       regsBut [addrOf .therm 0 0x05C, addrOf .therm 0 0x010] s u ∧ onlyRegsIrq s u ∧ t = throttleTakes u
     let released : Prop := hottest s < (threshold s 0x048).1 - (threshold s 0x048).2
     (s.therm.throt = false → exec .throttleUp s = .next s) ∧
     (s.therm.throt = true → throttle s = 7 → Gives .throttleUp s (fun t =>
       rdBit t .therm 0 0x018 1 = true ∧ regsBut [addrOf .therm 0 0x018] s t ∧ onlyRegsIrq s t)) ∧
     (s.therm.throt = true → throttle s < 7 → Gives .throttleUp s (stepped (throttle s + 1) 2)) ∧
     (released → 0 < throttle s → rdBit s .therm 0 0x05C 28 = false → Gives .throttleDown s (stepped (throttle s - 1) 3)) ∧
     (rdBit s .therm 0 0x05C 28 = true → exec .throttleDown s = .next s) ∧
     (rdBit s .therm 0 0x05C 28 = false → exec .freezeTimeout s = .next s) ∧
     (rdBit s .therm 0 0x05C 28 = true → Gives .freezeTimeout s (fun t =>
       rdBit t .therm 0 0x018 0 = true ∧ t = raiseFault .therm 0 0 (throttleRise s)))) ∧
  (∀ (s : State) (r : List Int), ptUp s .therm = true →
     (r.length ≠ 24 → exec (.trivetUpdate r) s = .fault .illFormed) ∧
     (r.length = 24 → Gives (.trivetUpdate r) s (fun t => ∃ (u : State) (hot cold : Int),
       t = driftChecks (evalThresholds hot cold u) ∧
       rd u .therm 0 0x05C 15 0 = ux 16 hot ∧ rd u .therm 0 0x064 15 0 = ux 16 cold ∧
       (∀ k, k < 24 → rdBit u .therm 0 (0x100 + 4 * k) 0 = false →
         rd u .therm 0 (0x100 + 4 * k) 31 16 = ux 16 (r.getD k 0))))) ∧
  (∀ (s : State) (k : Fin 24) (prim spare : BitVec 16), ptUp s .therm = true →
     let m : Int := sx 16 (rd s .therm 0 (0x200 + 4 * siteNodeOf k.val) 15 0)
     let dp : Int := |prim.toInt - m|
     let ds : Int := |spare.toInt - m|
     let far : Prop := 2 < |((prim.toInt : Rat) - spare.toInt) / 16|
     (siteBit s k.val 1 = true ∨ siteBit s k.val 2 = true ∨ siteBit s k.val 3 = true ∨ ¬ far →
       exec (.diodeCrosscheck k prim spare) s = .next s) ∧
     (siteBit s k.val 1 = false → siteBit s k.val 2 = false → siteBit s k.val 3 = false → far →
       (dp < ds → Gives (.diodeCrosscheck k prim spare) s (fun t =>
         siteBit t k.val 3 = true ∧ (∀ i, i ≠ 3 → siteBit t k.val i = siteBit s k.val i) ∧
         regsBut [addrOf .therm 0 (0x100 + 4 * k.val)] s t ∧ onlyRegs s t)) ∧
       (ds < dp → Gives (.diodeCrosscheck k prim spare) s (fun t =>
         siteBit t k.val 2 = true ∧ siteBit t k.val 3 = false ∧ siteBit t k.val 0 = true ∧
         (siteBit t k.val 1 = true ↔ rd s .therm 0 0x008 11 8 ≠ 3))) ∧
       (dp = ds → Gives (.diodeCrosscheck k prim spare) s (fun t =>
         (siteBit t k.val 2 = true ∧ siteBit t k.val 3 = false) ∨ (siteBit t k.val 2 = false ∧ siteBit t k.val 3 = true))))) ∧
  (∀ (s : State) (d : Fin 48), ptUp s .pwr = true →
     let o : Nat := 0x080 + 4 * d.val
     Gives (.phaseFail d) s (fun t =>
       rd t .pwr 0 o 25 22 = rd s .pwr 0 o 25 22 - 1 ∧ rd t .pwr 0 o 29 26 = rd s .pwr 0 o 29 26 ∧
       if rd s .pwr 0 o 25 22 = rd s .pwr 0 o 29 26 then rdBit t .pwr 0 0x010 3 = true else rdBit t .pwr 0 0x018 0 = true) ∧
     Gives (.domainTrip d) s (fun t => ∃ u : State,
       rdBit u .pwr 0 0x018 1 = true ∧ rdBit u .pwr 0 o 30 = false ∧ u.logSeq = s.logSeq + 1 ∧
       (∃ e l, u.evLog = e :: l ∧ e.cause = 3 ∧ e.detail = d.val) ∧ u.stores = s.stores ∧ t = enterNow 6 u) ∧
     Gives .overVoltage s (fun t => t = enterNow 6 s)) ∧
  (∀ (s : State) (mv : BitVec 16) (g : Fin 8), ptUp s .pwr = true →
     Gives (.vinThreshold mv) s (fun t => ∃ u : State,
       rd u .pwr 0 0x054 15 0 = mv.toNat ∧ regsBut [addrOf .pwr 0 0x054] s u ∧
       u.shed = { s.shed with volt := max s.shed.volt (voltDemand s mv.toNat false) } ∧ t = applyDemand u) ∧
     Gives .shedDwell s (fun t => ∃ u : State,
       u = { s with shed := { s.shed with cur := max s.shed.cur (min 5 (min (s.shed.cur + 1) (stage s + 1))) } } ∧
       t = applyDemand u) ∧
     (let u : State := { s with shed := { s.shed with
         cur := s.shed.cur - 1
         volt := min s.shed.volt (voltDemand s (rd s .pwr 0 0x054 15 0) true) } }
      (¬ (shedDemand u < stageFirst s ∧ stageFirst s < 6) → Gives .shedHold s (fun t =>
        t.shed.cur = u.shed.cur ∧ t.shed.volt = u.shed.volt ∧ t.groups = s.groups ∧ t.stores = s.stores)) ∧
      (shedDemand u < stageFirst s → stageFirst s < 6 → (∃ h : Fin 8, shotRuns s h.val = true) → Gives .shedHold s (fun t =>
        t.shed.cur = u.shed.cur ∧ t.shed.volt = u.shed.volt ∧ t.shed.due = true ∧ t.groups = s.groups)) ∧
      (shedDemand u < stageFirst s → stageFirst s < 6 → (∀ h : Fin 8, shotRuns s h.val = false) →
        Gives .shedHold s (fun t => t = stepDown { u with shed := { u.shed with due := true } }))) ∧
     (shotRuns s g.val = true → (getGroup s g.val).stage < min 4 (shedDemand s) → Gives (.shedWait g) s (fun t =>
       ∃ u : State, rd u .pwr 0 0x05C 15 0 = min (rd s .pwr 0 0x05C 15 0 + 1) 65535 ∧
         (getGroup u g.val).tag = (getGroup s g.val).tag ||| tagCorrupt ∧
         t = enterStages g.val (min 4 (shedDemand s)) u)) ∧
     (shotRuns s g.val = false → exec (.shedWait g) s = .next s))

/-- R447 to R449 (HM_CTRL, HM_CFG): clearing a unit, or configuring it, puts its extremes, count and bins back at
their start; the value at the end of a source's interval is taken by the enabled unit: it is the last value, and the
count rises, saturating. Other units keep their registers. R49, R294, R450, R455 to R460: an hour's end shifts the
counts of the wear windows; MAP_CMD and LOG_CTRL obey WP_N; reads of the map and of the log return the selected word
and step on. It states the completion of: hmClear, hmCfgWrite, wearHour, mapClear, mapRead, logRead, hmInterval,
logClear. -/
def Obligations.MonitorUnitsMapAndLogFollow : Prop :=
  (∀ (s : State) (v : Word) (u : Fin 32), ptUp s .health = true →
     let o (w : Nat) : Nat := 0x400 + 0x60 * w
     let cleared (w : Nat) (t : State) : Prop :=
       reg t .health 0 (o w + 0x0C) = 0x7FFFFFFF ∧ reg t .health 0 (o w + 0x10) = 0x80000000 ∧
       reg t .health 0 (o w + 0x14) = 0 ∧ (∀ b, b < 16 → reg t .health 0 (o w + 0x20 + 4 * b) = 0)
     Gives (.hmClear v) s (fun t => onlyRegs s t ∧ (∀ w : Nat, w < 32 → wbit v w = true → cleared w t) ∧
       (∀ a, (∀ w, w < 32 → wbit v w = true → ¬ (addrOf .health 0 (o w) ≤ a ∧ a < addrOf .health 0 (o w) + 0x60)) →
         getReg t a = getReg s a)) ∧
     Gives (.hmCfgWrite u v) s (fun t => onlyRegs s t ∧ reg t .health 0 (o u.val) = v &&& 0x9FFFFFFF ∧ cleared u.val t ∧
       (∀ a, ¬ (addrOf .health 0 (o u.val) ≤ a ∧ a < addrOf .health 0 (o u.val) + 0x60) → getReg t a = getReg s a)) ∧
     (let c := reg s .health 0 (o u.val)
      (wbit c 31 = true → (fget c 28 24 = 2 ∨ fget c 28 24 = 6 ∨ fget c 28 24 = 9) →
        hmRange (fget c 28 24) (fget c 23 12) (fget c 11 4) = true →
        Gives (.hmInterval u v) s (fun t => reg t .health 0 (o u.val + 0x08) = v ∧ onlyRegsIrq s t ∧
          rd t .health 0 (o u.val + 0x14) 31 0 = min (rd s .health 0 (o u.val + 0x14) 31 0 + 1) (2 ^ 32 - 1))) ∧
      (wbit c 31 = false → exec (.hmInterval u v) s = .next s))) ∧
  (∀ s : State,
     (ptUp s .spare = true →
       (mapOk (fun _ => ({} : Wear)) 0 s.wears = true → Gives .wearHour s (fun t =>
         (∀ k win, win = rd s .spare 0 (0x040 + 4 * (k / 2 ^ 24)) 7 0 → win ≠ 0 → getWear s k ≠ {} →
           getWear t k = { getWear s k with hours := (0 :: (getWear s k).hours).take win }) ∧
         { t with wears := s.wears } = s)) ∧
       (s.pins.wpN = false → Gives .mapClear s (fun t =>
         rd t .spare 0 0x0E0 31 28 = 2 ∧ regsBut [addrOf .spare 0 0x0E0] s t ∧ onlyRegs s t)) ∧
       (s.pins.wpN = true → Gives .mapClear s (fun t =>
         rd t .spare 0 0x0E0 31 28 = 0 ∧ regsBut [addrOf .spare 0 0x0E0] s t ∧ t.spareMap.length = s.spareMap.length ∧
         (∀ j, j ≠ rd s .spare 0 0x0D0 9 0 → t.spareMap[j]? = s.spareMap[j]?) ∧
         (∀ e, s.spareMap[rd s .spare 0 0x0D0 9 0]? = some e → ∃ e', t.spareMap[rd s .spare 0 0x0D0 9 0]? = some e' ∧
           nbits e' 7 4 = 4 ∧ nbits e' 3 0 = nbits e 3 0 ∧ e' / 2 ^ 8 = e / 2 ^ 8 ∧
           -- it takes effect until the next power-on
           t.mapOld = s.mapOld ++ (if nbits e 7 4 = 4 then [] else [(rd s .spare 0 0x0D0 9 0, e)])))) ∧
       Gives .mapRead s (fun t =>
         t.rdata = BitVec.ofNat 32 (s.spareMap.getD (rd s .spare 0 0x0D0 9 0) 0 / 2 ^ 32) ∧
         regsBut [addrOf .spare 0 0x0D0] s t ∧ t.spareMap = s.spareMap ∧
         rd t .spare 0 0x0D0 9 0 = if rdBit s .spare 0 0x0D0 31 then (rd s .spare 0 0x0D0 9 0 + 1) % 1024
           else rd s .spare 0 0x0D0 9 0)) ∧
     (ptUp s .nvm = true →
       Gives .logRead s (fun t => t.rdata = logWord s ∧ t.evLog = s.evLog ∧ regsBut [addrOf .nvm 0 0x044] s t ∧
         rd t .nvm 0 0x044 18 16 = (rd s .nvm 0 0x044 18 16 + 1) % 8 ∧
         rd t .nvm 0 0x044 9 0 = if rd s .nvm 0 0x044 18 16 = 7 then (rd s .nvm 0 0x044 9 0 + 1) % 1024
           else rd s .nvm 0 0x044 9 0) ∧
       (∀ v : Word, s.pins.wpN = true → wbit v 0 = true → fget v 31 16 = 0x5120 →
         exec (.logClear v) s = .next { s with evLog := [] }) ∧
       (∀ v : Word, s.pins.wpN = false ∨ wbit v 0 = false ∨ fget v 31 16 ≠ 0x5120 → exec (.logClear v) s = .next s)))
end

