-- ==== Sys2Proof/Laws/Fields.lean ====
section
/-! SUPPORT. Bit fields of register words: reading the field written, and reading another field. -/

namespace Sys2Proof.Machine

theorem nbits_lt (x hi lo : Nat) : nbits x hi lo < 2 ^ (hi + 1 - lo) := Nat.mod_lt _ (Nat.two_pow_pos _)

theorem testBit_nbits (x hi lo i : Nat) :
    (nbits x hi lo).testBit i = (decide (i < hi + 1 - lo) && x.testBit (lo + i)) := by
  unfold nbits
  rw [Nat.testBit_mod_two_pow, Nat.testBit_div_two_pow, Nat.add_comm i lo]

theorem nbit_eq_testBit (x i : Nat) : nbit x i = x.testBit i := by
  unfold nbit
  rw [Nat.testBit_eq_decide_div_mod_eq]

theorem getLsbD_fmask (hi lo i : Nat) (hl : lo ≤ hi) (h : hi < 32) :
    (fmask hi lo).getLsbD i = decide (lo ≤ i ∧ i ≤ hi) := by
  unfold fmask
  rw [BitVec.getLsbD_ofNat, Nat.mul_comm, Nat.testBit_two_pow_mul, Nat.testBit_two_pow_sub_one]
  by_cases h1 : lo ≤ i <;> by_cases h2 : i ≤ hi <;> simp [h1, h2] <;> omega

theorem getLsbD_fput (w : Word) (hi lo v i : Nat) (hl : lo ≤ hi) (h : hi < 32) :
    (fput w hi lo v).getLsbD i = if lo ≤ i ∧ i ≤ hi then v.testBit (i - lo) else w.getLsbD i := by
  unfold fput
  rw [BitVec.getLsbD_or, BitVec.getLsbD_and, BitVec.getLsbD_not, getLsbD_fmask hi lo i hl h, BitVec.getLsbD_ofNat,
    Nat.mul_comm, Nat.testBit_two_pow_mul, Nat.testBit_mod_two_pow]
  by_cases h1 : lo ≤ i <;> by_cases h2 : i ≤ hi
  · have : i - lo < hi + 1 - lo := by omega
    have : i < 32 := by omega
    simp [*]
  · have : ¬ i - lo < hi + 1 - lo := by omega
    by_cases h3 : i < 32
    · simp [*]
    · have : w.getLsbD i = false := BitVec.getLsbD_of_ge w i (by omega)
      simp [*]
  · by_cases h3 : i < 32
    · simp [*]
    · omega
  · by_cases h3 : i < 32
    · simp [*]
    · omega

/-- Reading the field that was written. -/
theorem fget_fput_self (w : Word) (hi lo v : Nat) (hl : lo ≤ hi) (h : hi < 32) :
    fget (fput w hi lo v) hi lo = v % 2 ^ (hi + 1 - lo) := by
  apply Nat.eq_of_testBit_eq
  intro i
  unfold fget
  rw [testBit_nbits, ← BitVec.getLsbD, getLsbD_fput w hi lo v _ hl h, Nat.testBit_mod_two_pow]
  by_cases hi' : i < hi + 1 - lo
  · have h1 : lo ≤ lo + i := by omega
    have h2 : lo + i ≤ hi := by omega
    simp [hi', h1, h2]
  · simp [hi']

/-- A field that shares no bit with the one written reads as before. -/
theorem fget_fput_ne (w : Word) (hi lo hi' lo' v : Nat) (hl : lo ≤ hi) (h : hi < 32) (hd : hi' < lo ∨ hi < lo') :
    fget (fput w hi lo v) hi' lo' = fget w hi' lo' := by
  apply Nat.eq_of_testBit_eq
  intro i
  unfold fget
  rw [testBit_nbits, testBit_nbits, ← BitVec.getLsbD, ← BitVec.getLsbD, getLsbD_fput w hi lo v _ hl h]
  by_cases hi2 : i < hi' + 1 - lo'
  · rw [if_neg (by omega)]
  · simp [hi2]

theorem wbit_eq (w : Word) (i : Nat) : wbit w i = w.getLsbD i := by
  unfold wbit
  rw [nbit_eq_testBit]
  rfl

/-- A bit of a word with a field set. -/
theorem wbit_fput (w : Word) (hi lo v i : Nat) (hl : lo ≤ hi) (h : hi < 32) :
    wbit (fput w hi lo v) i = if lo ≤ i ∧ i ≤ hi then v.testBit (i - lo) else wbit w i := by
  rw [wbit_eq, wbit_eq, getLsbD_fput w hi lo v i hl h]

/-- A word with a field set, as a number, outside the field. -/
theorem fput_same (w : Word) (hi lo : Nat) (hl : lo ≤ hi) (h : hi < 32) : fput w hi lo (fget w hi lo) = w := by
  apply BitVec.eq_of_getLsbD_eq
  intro i hi'
  rw [getLsbD_fput w hi lo _ i hl h]
  split
  · rename_i hr
    unfold fget
    rw [testBit_nbits]
    have : i - lo < hi + 1 - lo := by omega
    have h2 : lo + (i - lo) = i := by omega
    simp [this, h2, BitVec.getLsbD]
  · rfl

theorem fget_ofNat (v hi lo : Nat) (h : v < 2 ^ 32) : fget (BitVec.ofNat 32 v) hi lo = nbits v hi lo := by
  unfold fget
  rw [BitVec.toNat_ofNat, Nat.mod_eq_of_lt h]

end Sys2Proof.Machine
end

