-- ==== Sys2Proof/Laws/Sparse.lean ====
section
/-! SUPPORT. Sparse tables: a read after a write gives the value written and every other key reads as before, on any
list; every operation keeps the canonical form; canonical tables that read alike are equal. -/

namespace Sys2Proof.Machine

variable {α : Type}

@[simp] theorem mapGet_nil (d : Nat → α) (k : Nat) : mapGet d [] k = d k := rfl

theorem mapGet_cons (d : Nat → α) (k' : Nat) (v : α) (m : List (Nat × α)) (k : Nat) :
    mapGet d ((k', v) :: m) k = if k = k' then v else if k < k' then d k else mapGet d m k := rfl

/-- A key below the head of what dropWhile leaves has its initial value. -/
theorem mapGet_dropWhile_le (d : Nat → α) (k : Nat) :
    ∀ m : List (Nat × α), mapGet d (m.dropWhile (fun e => decide (e.1 ≤ k))) k = d k
  | [] => rfl
  | (k', v) :: m => by
    rw [List.dropWhile_cons]
    split
    · exact mapGet_dropWhile_le d k m
    · rename_i h
      simp only [decide_eq_true_eq, not_le] at h
      simp [mapGet_cons, h, Nat.ne_of_lt h]

theorem mapGet_dropWhile_gt (d : Nat → α) (k j : Nat) (hj : k < j) :
    ∀ m : List (Nat × α), mapGet d (m.dropWhile (fun e => decide (e.1 ≤ k))) j = mapGet d m j
  | [] => rfl
  | (k', v) :: m => by
    rw [List.dropWhile_cons]
    split
    · rename_i h
      simp only [decide_eq_true_eq] at h
      rw [mapGet_dropWhile_gt d k j hj m, mapGet_cons, if_neg (by omega), if_neg (by omega)]
    · rfl

theorem mapGet_dropWhile_lt (d : Nat → α) (k j : Nat) (hj : j < k) :
    ∀ m : List (Nat × α), mapGet d (m.dropWhile (fun e => decide (e.1 ≤ k))) j = d j
  | [] => rfl
  | (k', v) :: m => by
    rw [List.dropWhile_cons]
    split
    · exact mapGet_dropWhile_lt d k j hj m
    · rename_i h
      simp only [decide_eq_true_eq, not_le] at h
      rw [mapGet_cons, if_neg (by omega), if_pos (by omega)]

/-- Read after write. -/
theorem mapGet_mapSet [DecidableEq α] (d : Nat → α) (k j : Nat) (v : α) :
    ∀ m : List (Nat × α), mapGet d (mapSet d m k v) j = if j = k then v else mapGet d m j
  | [] => by
    by_cases hv : v = d k <;> by_cases hj : j = k <;> simp [mapSet, hv, hj, mapGet_cons]
  | (k', v') :: m => by
    have ih := mapGet_mapSet d k j v m
    unfold mapSet
    by_cases h1 : k < k'
    · by_cases hv : v = d k <;> by_cases hj : j = k
      · subst hj; simp [h1, hv, mapGet_cons, Nat.ne_of_lt h1]
      · simp [h1, hv, hj]
      · subst hj; simp [h1, hv, mapGet_cons]
      · simp only [h1, hv, hj, if_true, if_false]
        rw [mapGet_cons, if_neg hj]
        by_cases hjk : j < k
        · rw [if_pos hjk, mapGet_cons, if_neg (by omega), if_pos (by omega)]
        · rw [if_neg hjk]
    · by_cases h2 : k = k'
      · subst h2
        by_cases hv : v = d k
        · simp only [Nat.lt_irrefl, hv, if_true, if_false]
          by_cases hj : j = k
          · subst hj; simp [mapGet_dropWhile_le]
          · rw [if_neg hj, mapGet_cons, if_neg hj]
            by_cases hjk : j < k
            · rw [if_pos hjk, mapGet_dropWhile_lt _ _ _ hjk]
            · rw [if_neg hjk, mapGet_dropWhile_gt _ _ _ (by omega)]
        · by_cases hj : j = k
          · subst hj; simp [hv, mapGet_cons]
          · simp [hv, hj, mapGet_cons]
      · simp only [h1, h2, if_false, mapGet_cons]
        by_cases hj : j = k
        · subst hj; simp [h1, h2, ih]
        · simp [ih, hj]

@[simp] theorem mapGet_mapSet_self [DecidableEq α] (d : Nat → α) (m : List (Nat × α)) (k : Nat) (v : α) :
    mapGet d (mapSet d m k v) k = v := by rw [mapGet_mapSet, if_pos rfl]

theorem mapGet_mapSet_of_ne [DecidableEq α] (d : Nat → α) (m : List (Nat × α)) {j k : Nat} (v : α) (h : j ≠ k) :
    mapGet d (mapSet d m k v) j = mapGet d m j := by rw [mapGet_mapSet, if_neg h]

theorem mapOk_cons [DecidableEq α] (d : Nat → α) (lb k : Nat) (v : α) (m : List (Nat × α)) :
    mapOk d lb ((k, v) :: m) = true ↔ lb ≤ k ∧ v ≠ d k ∧ mapOk d (k + 1) m = true := by
  simp [mapOk, and_assoc]

theorem mapOk_mono [DecidableEq α] {d : Nat → α} {lb lb' : Nat} (h : lb' ≤ lb) :
    ∀ {m : List (Nat × α)}, mapOk d lb m = true → mapOk d lb' m = true
  | [], _ => rfl
  | (k, v) :: m, hm => by
    rw [mapOk_cons] at hm ⊢
    exact ⟨by omega, hm.2⟩

theorem dropWhile_of_mapOk [DecidableEq α] {d : Nat → α} {k : Nat} :
    ∀ {m : List (Nat × α)}, mapOk d (k + 1) m = true → m.dropWhile (fun e => decide (e.1 ≤ k)) = m
  | [], _ => rfl
  | (k', v) :: m, hm => by
    rw [mapOk_cons] at hm
    rw [List.dropWhile_cons, if_neg]
    simp only [decide_eq_true_eq]
    omega

/-- A write keeps the canonical form. -/
theorem mapOk_mapSet [DecidableEq α] {d : Nat → α} (k : Nat) (v : α) :
    ∀ {m : List (Nat × α)} {lb : Nat}, lb ≤ k → mapOk d lb m = true → mapOk d lb (mapSet d m k v) = true
  | [], lb, hk, _ => by
    by_cases hv : v = d k
    · simp [mapSet, hv, mapOk]
    · simp [mapSet, hv, mapOk, hk]
  | (k', v') :: m, lb, hk, hm => by
    have hm' := (mapOk_cons d lb k' v' m).1 hm
    unfold mapSet
    split
    · rename_i h
      split
      · exact hm
      · rename_i hv
        exact (mapOk_cons _ _ _ _ _).2 ⟨hk, hv, (mapOk_cons _ _ _ _ _).2 ⟨h, hm'.2⟩⟩
    · split
      · rename_i h1 h
        subst h
        split
        · rw [dropWhile_of_mapOk hm'.2.2]
          exact mapOk_mono (by omega) hm'.2.2
        · rename_i hv
          exact (mapOk_cons _ _ _ _ _).2 ⟨hk, hv, hm'.2.2⟩
      · exact (mapOk_cons _ _ _ _ _).2 ⟨hm'.1, hm'.2.1, mapOk_mapSet k v (by omega) hm'.2.2⟩

/-- Leaving entries out keeps the canonical form. -/
theorem mapOk_filter [DecidableEq α] {d : Nat → α} (p : Nat × α → Bool) :
    ∀ {m : List (Nat × α)} {lb : Nat}, mapOk d lb m = true → mapOk d lb (m.filter p) = true
  | [], _, _ => rfl
  | (k, v) :: m, lb, hm => by
    rw [mapOk_cons] at hm
    have ih := mapOk_filter (d := d) p (m := m) (lb := k + 1) hm.2.2
    rw [List.filter_cons]
    split
    · exact (mapOk_cons _ _ _ _ _).2 ⟨hm.1, hm.2.1, ih⟩
    · exact mapOk_mono (by omega) ih

theorem mapOk_mapDrop [DecidableEq α] {d : Nat → α} {m : List (Nat × α)} {lb : Nat} (lo hi : Nat)
    (h : mapOk d lb m = true) : mapOk d lb (mapDrop m lo hi) = true := mapOk_filter _ h

theorem mapOk_mapTake [DecidableEq α] {d : Nat → α} {m : List (Nat × α)} {lb : Nat} (lo hi : Nat)
    (h : mapOk d lb m = true) : mapOk d lb (mapTake m lo hi) = true := mapOk_filter _ h

/-- Canonical tables one after the other, the first below a bound and the second from it on. -/
theorem mapOk_append [DecidableEq α] {d : Nat → α} {m' : List (Nat × α)} {b : Nat} (h' : mapOk d b m' = true) :
    ∀ {m : List (Nat × α)} {lb : Nat}, lb ≤ b → (∀ e ∈ m, e.1 < b) → mapOk d lb m = true →
      mapOk d lb (m ++ m') = true
  | [], lb, hb, _, _ => mapOk_mono hb h'
  | (k, v) :: m, lb, hb, hlt, hm => by
    rw [mapOk_cons] at hm
    have hk := hlt (k, v) (by simp)
    exact (mapOk_cons _ _ _ _ _).2 ⟨hm.1, hm.2.1,
      mapOk_append h' (by exact hk) (fun e he => hlt e (by simp [he])) hm.2.2⟩

/-- A canonical table whose keys are all at or above a bound is canonical from it on. -/
theorem mapOk_of_ge [DecidableEq α] {d : Nat → α} {b : Nat} :
    ∀ {m : List (Nat × α)} {lb : Nat}, (∀ e ∈ m, b ≤ e.1) → mapOk d lb m = true → mapOk d b m = true
  | [], _, _, _ => rfl
  | (k, v) :: m, lb, hge, hm => by
    rw [mapOk_cons] at hm ⊢
    exact ⟨hge (k, v) (by simp), hm.2⟩

/-- Splicing keeps the canonical form. -/
theorem mapOk_mapSplice [DecidableEq α] {d : Nat → α} {src dst : List (Nat × α)} (lo hi : Nat) (hlh : lo ≤ hi)
    (hs : mapOk d 0 src = true) (hd : mapOk d 0 dst = true) : mapOk d 0 (mapSplice src dst lo hi) = true := by
  unfold mapSplice mapTake
  refine mapOk_append (b := hi) (mapOk_of_ge (lb := 0) ?_ (mapOk_filter _ hd)) (Nat.zero_le _) ?_ ?_
  · intro e he
    simp only [List.mem_filter, decide_eq_true_eq] at he
    exact he.2
  · intro e he
    simp only [List.mem_append, List.mem_filter, decide_eq_true_eq] at he
    omega
  · refine mapOk_append (b := lo) (mapOk_of_ge (lb := 0) ?_ (mapOk_filter _ hs)) (Nat.zero_le _) ?_ (mapOk_filter _ hd)
    · intro e he
      simp only [List.mem_filter, decide_eq_true_eq] at he
      exact he.2.1
    · intro e he
      simp only [List.mem_filter, decide_eq_true_eq] at he
      exact he.2

/-- Below its bound a canonical table lists nothing. -/
theorem mapGet_of_lt [DecidableEq α] {d : Nat → α} {j : Nat} :
    ∀ {m : List (Nat × α)} {lb : Nat}, j < lb → mapOk d lb m = true → mapGet d m j = d j
  | [], _, _, _ => rfl
  | (k, v) :: m, lb, hj, hm => by
    rw [mapOk_cons] at hm
    rw [mapGet_cons, if_neg (by omega), if_pos (by omega)]

/-- Canonical tables that read alike are equal. -/
theorem mapOk_ext [DecidableEq α] {d : Nat → α} :
    ∀ {m m' : List (Nat × α)} {lb lb' : Nat}, mapOk d lb m = true → mapOk d lb' m' = true →
      (∀ k, mapGet d m k = mapGet d m' k) → m = m'
  | [], [], _, _, _, _, _ => rfl
  | [], (k, v) :: m', _, _, _, h', h => by
    rw [mapOk_cons] at h'
    have := h k
    simp [mapGet_cons] at this
    exact absurd this.symm h'.2.1
  | (k, v) :: m, [], _, _, h', _, h => by
    rw [mapOk_cons] at h'
    have := h k
    simp [mapGet_cons] at this
    exact absurd this h'.2.1
  | (k, v) :: m, (k', v') :: m', _, _, hm, hm', h => by
    rw [mapOk_cons] at hm hm'
    have hk : k = k' := by
      rcases Nat.lt_trichotomy k k' with hlt | heq | hgt
      · have := h k
        rw [mapGet_cons, if_pos rfl, mapGet_cons, if_neg (by omega), if_pos hlt] at this
        exact absurd this hm.2.1
      · exact heq
      · have := h k'
        rw [mapGet_cons, if_neg (by omega), if_pos hgt, mapGet_cons, if_pos rfl] at this
        exact absurd this.symm hm'.2.1
    subst hk
    have hv : v = v' := by simpa [mapGet_cons] using h k
    subst hv
    have ht : m = m' := mapOk_ext hm.2.2 hm'.2.2 (by
      intro j
      rcases Nat.lt_or_ge k j with hj | hj
      · have := h j
        rwa [mapGet_cons, if_neg (by omega), if_neg (by omega), mapGet_cons, if_neg (by omega), if_neg (by omega)]
          at this
      · rw [mapGet_of_lt (by omega) hm.2.2, mapGet_of_lt (by omega) hm'.2.2])
    rw [ht]

/-- Reading a canonical table with a range left out. -/
theorem mapGet_mapDrop [DecidableEq α] {d : Nat → α} (lo hi j : Nat) :
    ∀ {m : List (Nat × α)} {lb : Nat}, mapOk d lb m = true →
      mapGet d (mapDrop m lo hi) j = if lo ≤ j ∧ j < hi then d j else mapGet d m j
  | [], _, _ => by simp [mapDrop]
  | (k, v) :: m, lb, hm => by
    have hm' := (mapOk_cons _ _ _ _ _).1 hm
    have ih := mapGet_mapDrop lo hi j hm'.2.2
    unfold mapDrop at ih ⊢
    rw [List.filter_cons]
    split
    · rename_i h
      simp only [decide_eq_true_eq] at h
      rw [mapGet_cons, mapGet_cons, ih]
      split
      · subst_vars; rw [if_neg (by omega)]
      · split
        · simp
        · rfl
    · rename_i h
      simp only [decide_eq_true_eq, not_or, not_lt, not_le] at h
      rw [ih, mapGet_cons]
      split
      · rfl
      · rename_i hn
        rw [if_neg (by omega)]
        split
        · exact mapGet_of_lt (by omega) hm'.2.2
        · rfl

/-! ## Bytes -/

theorem byteAt_putByte (m : Bytes) (a b : Nat) (v : Byte) :
    byteAt (putByte m a v) b = if b = a then v else byteAt m b := mapGet_mapSet _ _ _ _ m

theorem byteAt_putBytes_of_lt (b : Nat) :
    ∀ (l : List Byte) (m : Bytes) (a : Nat), b < a → byteAt (putBytes m a l) b = byteAt m b
  | [], _, _, _ => rfl
  | v :: l, m, a, h => by
    rw [putBytes, byteAt_putBytes_of_lt b l _ (a + 1) (by omega), byteAt_putByte, if_neg (by omega)]

/-- A run of bytes written: its own bytes read back, all others as before. -/
theorem byteAt_putBytes (b : Nat) :
    ∀ (l : List Byte) (m : Bytes) (a : Nat),
      byteAt (putBytes m a l) b = if h : a ≤ b ∧ b < a + l.length then l[b - a]'(by omega) else byteAt m b
  | [], m, a => by simp [putBytes]
  | v :: l, m, a => by
    rw [putBytes, byteAt_putBytes b l _ (a + 1)]
    by_cases h1 : a + 1 ≤ b ∧ b < a + 1 + l.length
    · have h2 : a ≤ b ∧ b < a + (v :: l).length := by simp only [List.length_cons]; omega
      rw [dif_pos h1, dif_pos h2]
      have : b - a = (b - (a + 1)) + 1 := by omega
      simp only [this, List.getElem_cons_succ]
    · rw [dif_neg h1, byteAt_putByte]
      by_cases hb : b = a
      · subst hb
        simp
      · rw [if_neg hb, dif_neg]
        simp only [List.length_cons]
        omega

theorem mapOk_putByte {m : Bytes} (a : Nat) (v : Byte) (h : mapOk (fun _ => (0 : Byte)) 0 m = true) :
    mapOk (fun _ => (0 : Byte)) 0 (putByte m a v) = true := mapOk_mapSet a v (Nat.zero_le _) h

theorem mapOk_putBytes :
    ∀ (l : List Byte) {m : Bytes} (a : Nat), mapOk (fun _ => (0 : Byte)) 0 m = true →
      mapOk (fun _ => (0 : Byte)) 0 (putBytes m a l) = true
  | [], _, _, h => h
  | v :: l, _, a, h => mapOk_putBytes l (a + 1) (mapOk_putByte a v h)

theorem mapOk_putWord {m : Bytes} (a : Nat) (v : Word) (h : mapOk (fun _ => (0 : Byte)) 0 m = true) :
    mapOk (fun _ => (0 : Byte)) 0 (putWord m a v) = true := mapOk_putBytes _ a h

end Sys2Proof.Machine
end

