-- ==== Sys2Proof/Laws/State.lean ====
section
/-! SUPPORT. One lemma for each field under each basic update of the state, so that no proof unfolds a record update. -/

namespace Sys2Proof.Machine

variable (s : State)

/-! ## Registers -/

@[simp] theorem setReg_regs (a : Nat) (v : Word) : (setReg s a v).regs = mapSet regReset s.regs a v := rfl
@[simp] theorem setReg_held (a : Nat) (v : Word) : (setReg s a v).held = s.held := rfl
@[simp] theorem setReg_wlatch (a : Nat) (v : Word) : (setReg s a v).wlatch = s.wlatch := rfl
@[simp] theorem setReg_rlatch (a : Nat) (v : Word) : (setReg s a v).rlatch = s.rlatch := rfl
@[simp] theorem setReg_clk (a : Nat) (v : Word) : (setReg s a v).clk = s.clk := rfl
@[simp] theorem setReg_boot (a : Nat) (v : Word) : (setReg s a v).boot = s.boot := rfl
@[simp] theorem setReg_i3c (a : Nat) (v : Word) : (setReg s a v).i3c = s.i3c := rfl
@[simp] theorem setReg_pins (a : Nat) (v : Word) : (setReg s a v).pins = s.pins := rfl
@[simp] theorem setReg_resetting (a : Nat) (v : Word) : (setReg s a v).resetting = s.resetting := rfl
@[simp] theorem setReg_enWait (a : Nat) (v : Word) : (setReg s a v).enWait = s.enWait := rfl
@[simp] theorem setReg_stores (a : Nat) (v : Word) : (setReg s a v).stores = s.stores := rfl
@[simp] theorem setReg_staging (a : Nat) (v : Word) : (setReg s a v).staging = s.staging := rfl
@[simp] theorem setReg_accepted (a : Nat) (v : Word) : (setReg s a v).accepted = s.accepted := rfl
@[simp] theorem setReg_committed (a : Nat) (v : Word) : (setReg s a v).committed = s.committed := rfl
@[simp] theorem setReg_unchecked (a : Nat) (v : Word) : (setReg s a v).unchecked = s.unchecked := rfl
@[simp] theorem setReg_vimg (a : Nat) (v : Word) : (setReg s a v).vimg = s.vimg := rfl
@[simp] theorem setReg_groups (a : Nat) (v : Word) : (setReg s a v).groups = s.groups := rfl
@[simp] theorem setReg_seqs (a : Nat) (v : Word) : (setReg s a v).seqs = s.seqs := rfl
@[simp] theorem setReg_tones (a : Nat) (v : Word) : (setReg s a v).tones = s.tones := rfl
@[simp] theorem setReg_strms (a : Nat) (v : Word) : (setReg s a v).strms = s.strms := rfl
@[simp] theorem setReg_outs (a : Nat) (v : Word) : (setReg s a v).outs = s.outs := rfl
@[simp] theorem setReg_fluxes (a : Nat) (v : Word) : (setReg s a v).fluxes = s.fluxes := rfl
@[simp] theorem setReg_seen (a : Nat) (v : Word) : (setReg s a v).seen = s.seen := rfl
@[simp] theorem setReg_items (a : Nat) (v : Word) : (setReg s a v).items = s.items := rfl
@[simp] theorem setReg_demods (a : Nat) (v : Word) : (setReg s a v).demods = s.demods := rfl
@[simp] theorem setReg_rdis (a : Nat) (v : Word) : (setReg s a v).rdis = s.rdis := rfl
@[simp] theorem setReg_txq (a : Nat) (v : Word) : (setReg s a v).txq = s.txq := rfl
@[simp] theorem setReg_slots (a : Nat) (v : Word) : (setReg s a v).slots = s.slots := rfl
@[simp] theorem setReg_dchs (a : Nat) (v : Word) : (setReg s a v).dchs = s.dchs := rfl
@[simp] theorem setReg_provArms (a : Nat) (v : Word) : (setReg s a v).provArms = s.provArms := rfl
@[simp] theorem setReg_clrEntries (a : Nat) (v : Word) : (setReg s a v).clrEntries = s.clrEntries := rfl
@[simp] theorem setReg_fires (a : Nat) (v : Word) : (setReg s a v).fires = s.fires := rfl
@[simp] theorem setReg_mort (a : Nat) (v : Word) : (setReg s a v).mort = s.mort := rfl
@[simp] theorem setReg_gBind (a : Nat) (v : Word) : (setReg s a v).gBind = s.gBind := rfl
@[simp] theorem setReg_gStage (a : Nat) (v : Word) : (setReg s a v).gStage = s.gStage := rfl
@[simp] theorem setReg_gWait (a : Nat) (v : Word) : (setReg s a v).gWait = s.gWait := rfl
@[simp] theorem setReg_caps (a : Nat) (v : Word) : (setReg s a v).caps = s.caps := rfl
@[simp] theorem setReg_ports (a : Nat) (v : Word) : (setReg s a v).ports = s.ports := rfl
@[simp] theorem setReg_pantry (a : Nat) (v : Word) : (setReg s a v).pantry = s.pantry := rfl
@[simp] theorem setReg_preqs (a : Nat) (v : Word) : (setReg s a v).preqs = s.preqs := rfl
@[simp] theorem setReg_preqNo (a : Nat) (v : Word) : (setReg s a v).preqNo = s.preqNo := rfl
@[simp] theorem setReg_retired (a : Nat) (v : Word) : (setReg s a v).retired = s.retired := rfl
@[simp] theorem setReg_evac (a : Nat) (v : Word) : (setReg s a v).evac = s.evac := rfl
@[simp] theorem setReg_retWait (a : Nat) (v : Word) : (setReg s a v).retWait = s.retWait := rfl
@[simp] theorem setReg_wdrawn (a : Nat) (v : Word) : (setReg s a v).wdrawn = s.wdrawn := rfl
@[simp] theorem setReg_marked (a : Nat) (v : Word) : (setReg s a v).marked = s.marked := rfl
@[simp] theorem setReg_pbad (a : Nat) (v : Word) : (setReg s a v).pbad = s.pbad := rfl
@[simp] theorem setReg_swaps (a : Nat) (v : Word) : (setReg s a v).swaps = s.swaps := rfl
@[simp] theorem setReg_lmsgs (a : Nat) (v : Word) : (setReg s a v).lmsgs = s.lmsgs := rfl
@[simp] theorem setReg_laneSec (a : Nat) (v : Word) : (setReg s a v).laneSec = s.laneSec := rfl
@[simp] theorem setReg_rports (a : Nat) (v : Word) : (setReg s a v).rports = s.rports := rfl
@[simp] theorem setReg_hports (a : Nat) (v : Word) : (setReg s a v).hports = s.hports := rfl
@[simp] theorem setReg_frags (a : Nat) (v : Word) : (setReg s a v).frags = s.frags := rfl
@[simp] theorem setReg_inbox (a : Nat) (v : Word) : (setReg s a v).inbox = s.inbox := rfl
@[simp] theorem setReg_trigSeen (a : Nat) (v : Word) : (setReg s a v).trigSeen = s.trigSeen := rfl
@[simp] theorem setReg_tbusQ (a : Nat) (v : Word) : (setReg s a v).tbusQ = s.tbusQ := rfl
@[simp] theorem setReg_tbusAt (a : Nat) (v : Word) : (setReg s a v).tbusAt = s.tbusAt := rfl
@[simp] theorem setReg_tseq (a : Nat) (v : Word) : (setReg s a v).tseq = s.tseq := rfl
@[simp] theorem setReg_slaves (a : Nat) (v : Word) : (setReg s a v).slaves = s.slaves := rfl
@[simp] theorem setReg_align (a : Nat) (v : Word) : (setReg s a v).align = s.align := rfl
@[simp] theorem setReg_rxqs (a : Nat) (v : Word) : (setReg s a v).rxqs = s.rxqs := rfl
@[simp] theorem setReg_rxqPos (a : Nat) (v : Word) : (setReg s a v).rxqPos = s.rxqPos := rfl
@[simp] theorem setReg_seqIds (a : Nat) (v : Word) : (setReg s a v).seqIds = s.seqIds := rfl
@[simp] theorem setReg_owesHeader (a : Nat) (v : Word) : (setReg s a v).owesHeader = s.owesHeader := rfl
@[simp] theorem setReg_cals (a : Nat) (v : Word) : (setReg s a v).cals = s.cals := rfl
@[simp] theorem setReg_calNo (a : Nat) (v : Word) : (setReg s a v).calNo = s.calNo := rfl
@[simp] theorem setReg_calWin (a : Nat) (v : Word) : (setReg s a v).calWin = s.calWin := rfl
@[simp] theorem setReg_dacTrims (a : Nat) (v : Word) : (setReg s a v).dacTrims = s.dacTrims := rfl
@[simp] theorem setReg_trace (a : Nat) (v : Word) : (setReg s a v).trace = s.trace := rfl
@[simp] theorem setReg_mon (a : Nat) (v : Word) : (setReg s a v).mon = s.mon := rfl
@[simp] theorem setReg_therm (a : Nat) (v : Word) : (setReg s a v).therm = s.therm := rfl
@[simp] theorem setReg_shed (a : Nat) (v : Word) : (setReg s a v).shed = s.shed := rfl
@[simp] theorem setReg_evLog (a : Nat) (v : Word) : (setReg s a v).evLog = s.evLog := rfl
@[simp] theorem setReg_logSeq (a : Nat) (v : Word) : (setReg s a v).logSeq = s.logSeq := rfl
@[simp] theorem setReg_spareMap (a : Nat) (v : Word) : (setReg s a v).spareMap = s.spareMap := rfl
@[simp] theorem setReg_wears (a : Nat) (v : Word) : (setReg s a v).wears = s.wears := rfl
@[simp] theorem setReg_subs (a : Nat) (v : Word) : (setReg s a v).subs = s.subs := rfl
@[simp] theorem setReg_returns (a : Nat) (v : Word) : (setReg s a v).returns = s.returns := rfl
@[simp] theorem setReg_rdata (a : Nat) (v : Word) : (setReg s a v).rdata = s.rdata := rfl
@[simp] theorem setReg_outbox (a : Nat) (v : Word) : (setReg s a v).outbox = s.outbox := rfl
@[simp] theorem setReg_free (a : Nat) (v : Word) : (setReg s a v).free = s.free := rfl
@[simp] theorem setReg_pending (a : Nat) (v : Word) : (setReg s a v).pending = s.pending := rfl
@[simp] theorem setReg_lines (a : Nat) (v : Word) : (setReg s a v).lines = s.lines := rfl
@[simp] theorem setReg_graphBad (a : Nat) (v : Word) : (setReg s a v).graphBad = s.graphBad := rfl
@[simp] theorem setReg_mapOld (a : Nat) (v : Word) : (setReg s a v).mapOld = s.mapOld := rfl
@[simp] theorem setReg_txWait (a : Nat) (v : Word) : (setReg s a v).txWait = s.txWait := rfl
@[simp] theorem setReg_softRows (a : Nat) (v : Word) : (setReg s a v).softRows = s.softRows := rfl
@[simp] theorem setReg_tick (a : Nat) (v : Word) : (setReg s a v).tick = s.tick := rfl
@[simp] theorem setReg_later (a : Nat) (v : Word) : (setReg s a v).later = s.later := rfl
@[simp] theorem setReg_iqWords (a : Nat) (v : Word) : (setReg s a v).iqWords = s.iqWords := rfl
@[simp] theorem setReg_iqSent (a : Nat) (v : Word) : (setReg s a v).iqSent = s.iqSent := rfl
@[simp] theorem setReg_ladleJobs (a : Nat) (v : Word) : (setReg s a v).ladleJobs = s.ladleJobs := rfl
@[simp] theorem setReg_fills (a : Nat) (v : Word) : (setReg s a v).fills = s.fills := rfl
@[simp] theorem setReg_pzero (a : Nat) (v : Word) : (setReg s a v).pzero = s.pzero := rfl
@[simp] theorem setReg_rows (a : Nat) (v : Word) : (setReg s a v).rows = s.rows := rfl
@[simp] theorem setReg_refilled (a : Nat) (v : Word) : (setReg s a v).refilled = s.refilled := rfl
@[simp] theorem setReg_trainSlots (a : Nat) (v : Word) : (setReg s a v).trainSlots = s.trainSlots := rfl
@[simp] theorem setReg_wfreed (a : Nat) (v : Word) : (setReg s a v).wfreed = s.wfreed := rfl
@[simp] theorem setReg_corrs (a : Nat) (v : Word) : (setReg s a v).corrs = s.corrs := rfl
@[simp] theorem setReg_fecs (a : Nat) (v : Word) : (setReg s a v).fecs = s.fecs := rfl
@[simp] theorem setReg_prbsFrom (a : Nat) (v : Word) : (setReg s a v).prbsFrom = s.prbsFrom := rfl
@[simp] theorem setReg_cmpFrom (a : Nat) (v : Word) : (setReg s a v).cmpFrom = s.cmpFrom := rfl
@[simp] theorem setReg_calPlays (a : Nat) (v : Word) : (setReg s a v).calPlays = s.calPlays := rfl

@[simp] theorem wr_held (pt : PT) (n off hi lo v : Nat) : (wr s pt n off hi lo v).held = s.held := rfl
@[simp] theorem wr_wlatch (pt : PT) (n off hi lo v : Nat) : (wr s pt n off hi lo v).wlatch = s.wlatch := rfl
@[simp] theorem wr_rlatch (pt : PT) (n off hi lo v : Nat) : (wr s pt n off hi lo v).rlatch = s.rlatch := rfl
@[simp] theorem wr_clk (pt : PT) (n off hi lo v : Nat) : (wr s pt n off hi lo v).clk = s.clk := rfl
@[simp] theorem wr_boot (pt : PT) (n off hi lo v : Nat) : (wr s pt n off hi lo v).boot = s.boot := rfl
@[simp] theorem wr_i3c (pt : PT) (n off hi lo v : Nat) : (wr s pt n off hi lo v).i3c = s.i3c := rfl
@[simp] theorem wr_pins (pt : PT) (n off hi lo v : Nat) : (wr s pt n off hi lo v).pins = s.pins := rfl
@[simp] theorem wr_resetting (pt : PT) (n off hi lo v : Nat) : (wr s pt n off hi lo v).resetting = s.resetting := rfl
@[simp] theorem wr_enWait (pt : PT) (n off hi lo v : Nat) : (wr s pt n off hi lo v).enWait = s.enWait := rfl
@[simp] theorem wr_stores (pt : PT) (n off hi lo v : Nat) : (wr s pt n off hi lo v).stores = s.stores := rfl
@[simp] theorem wr_staging (pt : PT) (n off hi lo v : Nat) : (wr s pt n off hi lo v).staging = s.staging := rfl
@[simp] theorem wr_accepted (pt : PT) (n off hi lo v : Nat) : (wr s pt n off hi lo v).accepted = s.accepted := rfl
@[simp] theorem wr_committed (pt : PT) (n off hi lo v : Nat) : (wr s pt n off hi lo v).committed = s.committed := rfl
@[simp] theorem wr_unchecked (pt : PT) (n off hi lo v : Nat) : (wr s pt n off hi lo v).unchecked = s.unchecked := rfl
@[simp] theorem wr_vimg (pt : PT) (n off hi lo v : Nat) : (wr s pt n off hi lo v).vimg = s.vimg := rfl
@[simp] theorem wr_groups (pt : PT) (n off hi lo v : Nat) : (wr s pt n off hi lo v).groups = s.groups := rfl
@[simp] theorem wr_seqs (pt : PT) (n off hi lo v : Nat) : (wr s pt n off hi lo v).seqs = s.seqs := rfl
@[simp] theorem wr_tones (pt : PT) (n off hi lo v : Nat) : (wr s pt n off hi lo v).tones = s.tones := rfl
@[simp] theorem wr_strms (pt : PT) (n off hi lo v : Nat) : (wr s pt n off hi lo v).strms = s.strms := rfl
@[simp] theorem wr_outs (pt : PT) (n off hi lo v : Nat) : (wr s pt n off hi lo v).outs = s.outs := rfl
@[simp] theorem wr_fluxes (pt : PT) (n off hi lo v : Nat) : (wr s pt n off hi lo v).fluxes = s.fluxes := rfl
@[simp] theorem wr_seen (pt : PT) (n off hi lo v : Nat) : (wr s pt n off hi lo v).seen = s.seen := rfl
@[simp] theorem wr_items (pt : PT) (n off hi lo v : Nat) : (wr s pt n off hi lo v).items = s.items := rfl
@[simp] theorem wr_demods (pt : PT) (n off hi lo v : Nat) : (wr s pt n off hi lo v).demods = s.demods := rfl
@[simp] theorem wr_rdis (pt : PT) (n off hi lo v : Nat) : (wr s pt n off hi lo v).rdis = s.rdis := rfl
@[simp] theorem wr_txq (pt : PT) (n off hi lo v : Nat) : (wr s pt n off hi lo v).txq = s.txq := rfl
@[simp] theorem wr_slots (pt : PT) (n off hi lo v : Nat) : (wr s pt n off hi lo v).slots = s.slots := rfl
@[simp] theorem wr_dchs (pt : PT) (n off hi lo v : Nat) : (wr s pt n off hi lo v).dchs = s.dchs := rfl
@[simp] theorem wr_provArms (pt : PT) (n off hi lo v : Nat) : (wr s pt n off hi lo v).provArms = s.provArms := rfl
@[simp] theorem wr_clrEntries (pt : PT) (n off hi lo v : Nat) : (wr s pt n off hi lo v).clrEntries = s.clrEntries := rfl
@[simp] theorem wr_fires (pt : PT) (n off hi lo v : Nat) : (wr s pt n off hi lo v).fires = s.fires := rfl
@[simp] theorem wr_mort (pt : PT) (n off hi lo v : Nat) : (wr s pt n off hi lo v).mort = s.mort := rfl
@[simp] theorem wr_gBind (pt : PT) (n off hi lo v : Nat) : (wr s pt n off hi lo v).gBind = s.gBind := rfl
@[simp] theorem wr_gStage (pt : PT) (n off hi lo v : Nat) : (wr s pt n off hi lo v).gStage = s.gStage := rfl
@[simp] theorem wr_gWait (pt : PT) (n off hi lo v : Nat) : (wr s pt n off hi lo v).gWait = s.gWait := rfl
@[simp] theorem wr_caps (pt : PT) (n off hi lo v : Nat) : (wr s pt n off hi lo v).caps = s.caps := rfl
@[simp] theorem wr_ports (pt : PT) (n off hi lo v : Nat) : (wr s pt n off hi lo v).ports = s.ports := rfl
@[simp] theorem wr_pantry (pt : PT) (n off hi lo v : Nat) : (wr s pt n off hi lo v).pantry = s.pantry := rfl
@[simp] theorem wr_preqs (pt : PT) (n off hi lo v : Nat) : (wr s pt n off hi lo v).preqs = s.preqs := rfl
@[simp] theorem wr_preqNo (pt : PT) (n off hi lo v : Nat) : (wr s pt n off hi lo v).preqNo = s.preqNo := rfl
@[simp] theorem wr_retired (pt : PT) (n off hi lo v : Nat) : (wr s pt n off hi lo v).retired = s.retired := rfl
@[simp] theorem wr_evac (pt : PT) (n off hi lo v : Nat) : (wr s pt n off hi lo v).evac = s.evac := rfl
@[simp] theorem wr_retWait (pt : PT) (n off hi lo v : Nat) : (wr s pt n off hi lo v).retWait = s.retWait := rfl
@[simp] theorem wr_wdrawn (pt : PT) (n off hi lo v : Nat) : (wr s pt n off hi lo v).wdrawn = s.wdrawn := rfl
@[simp] theorem wr_marked (pt : PT) (n off hi lo v : Nat) : (wr s pt n off hi lo v).marked = s.marked := rfl
@[simp] theorem wr_pbad (pt : PT) (n off hi lo v : Nat) : (wr s pt n off hi lo v).pbad = s.pbad := rfl
@[simp] theorem wr_swaps (pt : PT) (n off hi lo v : Nat) : (wr s pt n off hi lo v).swaps = s.swaps := rfl
@[simp] theorem wr_lmsgs (pt : PT) (n off hi lo v : Nat) : (wr s pt n off hi lo v).lmsgs = s.lmsgs := rfl
@[simp] theorem wr_laneSec (pt : PT) (n off hi lo v : Nat) : (wr s pt n off hi lo v).laneSec = s.laneSec := rfl
@[simp] theorem wr_rports (pt : PT) (n off hi lo v : Nat) : (wr s pt n off hi lo v).rports = s.rports := rfl
@[simp] theorem wr_hports (pt : PT) (n off hi lo v : Nat) : (wr s pt n off hi lo v).hports = s.hports := rfl
@[simp] theorem wr_frags (pt : PT) (n off hi lo v : Nat) : (wr s pt n off hi lo v).frags = s.frags := rfl
@[simp] theorem wr_inbox (pt : PT) (n off hi lo v : Nat) : (wr s pt n off hi lo v).inbox = s.inbox := rfl
@[simp] theorem wr_trigSeen (pt : PT) (n off hi lo v : Nat) : (wr s pt n off hi lo v).trigSeen = s.trigSeen := rfl
@[simp] theorem wr_tbusQ (pt : PT) (n off hi lo v : Nat) : (wr s pt n off hi lo v).tbusQ = s.tbusQ := rfl
@[simp] theorem wr_tbusAt (pt : PT) (n off hi lo v : Nat) : (wr s pt n off hi lo v).tbusAt = s.tbusAt := rfl
@[simp] theorem wr_tseq (pt : PT) (n off hi lo v : Nat) : (wr s pt n off hi lo v).tseq = s.tseq := rfl
@[simp] theorem wr_slaves (pt : PT) (n off hi lo v : Nat) : (wr s pt n off hi lo v).slaves = s.slaves := rfl
@[simp] theorem wr_align (pt : PT) (n off hi lo v : Nat) : (wr s pt n off hi lo v).align = s.align := rfl
@[simp] theorem wr_rxqs (pt : PT) (n off hi lo v : Nat) : (wr s pt n off hi lo v).rxqs = s.rxqs := rfl
@[simp] theorem wr_rxqPos (pt : PT) (n off hi lo v : Nat) : (wr s pt n off hi lo v).rxqPos = s.rxqPos := rfl
@[simp] theorem wr_seqIds (pt : PT) (n off hi lo v : Nat) : (wr s pt n off hi lo v).seqIds = s.seqIds := rfl
@[simp] theorem wr_owesHeader (pt : PT) (n off hi lo v : Nat) : (wr s pt n off hi lo v).owesHeader = s.owesHeader := rfl
@[simp] theorem wr_cals (pt : PT) (n off hi lo v : Nat) : (wr s pt n off hi lo v).cals = s.cals := rfl
@[simp] theorem wr_calNo (pt : PT) (n off hi lo v : Nat) : (wr s pt n off hi lo v).calNo = s.calNo := rfl
@[simp] theorem wr_calWin (pt : PT) (n off hi lo v : Nat) : (wr s pt n off hi lo v).calWin = s.calWin := rfl
@[simp] theorem wr_dacTrims (pt : PT) (n off hi lo v : Nat) : (wr s pt n off hi lo v).dacTrims = s.dacTrims := rfl
@[simp] theorem wr_trace (pt : PT) (n off hi lo v : Nat) : (wr s pt n off hi lo v).trace = s.trace := rfl
@[simp] theorem wr_mon (pt : PT) (n off hi lo v : Nat) : (wr s pt n off hi lo v).mon = s.mon := rfl
@[simp] theorem wr_therm (pt : PT) (n off hi lo v : Nat) : (wr s pt n off hi lo v).therm = s.therm := rfl
@[simp] theorem wr_shed (pt : PT) (n off hi lo v : Nat) : (wr s pt n off hi lo v).shed = s.shed := rfl
@[simp] theorem wr_evLog (pt : PT) (n off hi lo v : Nat) : (wr s pt n off hi lo v).evLog = s.evLog := rfl
@[simp] theorem wr_logSeq (pt : PT) (n off hi lo v : Nat) : (wr s pt n off hi lo v).logSeq = s.logSeq := rfl
@[simp] theorem wr_spareMap (pt : PT) (n off hi lo v : Nat) : (wr s pt n off hi lo v).spareMap = s.spareMap := rfl
@[simp] theorem wr_wears (pt : PT) (n off hi lo v : Nat) : (wr s pt n off hi lo v).wears = s.wears := rfl
@[simp] theorem wr_subs (pt : PT) (n off hi lo v : Nat) : (wr s pt n off hi lo v).subs = s.subs := rfl
@[simp] theorem wr_returns (pt : PT) (n off hi lo v : Nat) : (wr s pt n off hi lo v).returns = s.returns := rfl
@[simp] theorem wr_rdata (pt : PT) (n off hi lo v : Nat) : (wr s pt n off hi lo v).rdata = s.rdata := rfl
@[simp] theorem wr_outbox (pt : PT) (n off hi lo v : Nat) : (wr s pt n off hi lo v).outbox = s.outbox := rfl
@[simp] theorem wr_free (pt : PT) (n off hi lo v : Nat) : (wr s pt n off hi lo v).free = s.free := rfl
@[simp] theorem wr_pending (pt : PT) (n off hi lo v : Nat) : (wr s pt n off hi lo v).pending = s.pending := rfl
@[simp] theorem wr_lines (pt : PT) (n off hi lo v : Nat) : (wr s pt n off hi lo v).lines = s.lines := rfl
@[simp] theorem wr_graphBad (pt : PT) (n off hi lo v : Nat) : (wr s pt n off hi lo v).graphBad = s.graphBad := rfl
@[simp] theorem wr_mapOld (pt : PT) (n off hi lo v : Nat) : (wr s pt n off hi lo v).mapOld = s.mapOld := rfl
@[simp] theorem wr_txWait (pt : PT) (n off hi lo v : Nat) : (wr s pt n off hi lo v).txWait = s.txWait := rfl
@[simp] theorem wr_softRows (pt : PT) (n off hi lo v : Nat) : (wr s pt n off hi lo v).softRows = s.softRows := rfl
@[simp] theorem wr_tick (pt : PT) (n off hi lo v : Nat) : (wr s pt n off hi lo v).tick = s.tick := rfl
@[simp] theorem wr_later (pt : PT) (n off hi lo v : Nat) : (wr s pt n off hi lo v).later = s.later := rfl
@[simp] theorem wr_iqWords (pt : PT) (n off hi lo v : Nat) : (wr s pt n off hi lo v).iqWords = s.iqWords := rfl
@[simp] theorem wr_iqSent (pt : PT) (n off hi lo v : Nat) : (wr s pt n off hi lo v).iqSent = s.iqSent := rfl
@[simp] theorem wr_ladleJobs (pt : PT) (n off hi lo v : Nat) : (wr s pt n off hi lo v).ladleJobs = s.ladleJobs := rfl
@[simp] theorem wr_fills (pt : PT) (n off hi lo v : Nat) : (wr s pt n off hi lo v).fills = s.fills := rfl
@[simp] theorem wr_pzero (pt : PT) (n off hi lo v : Nat) : (wr s pt n off hi lo v).pzero = s.pzero := rfl
@[simp] theorem wr_rows (pt : PT) (n off hi lo v : Nat) : (wr s pt n off hi lo v).rows = s.rows := rfl
@[simp] theorem wr_refilled (pt : PT) (n off hi lo v : Nat) : (wr s pt n off hi lo v).refilled = s.refilled := rfl
@[simp] theorem wr_trainSlots (pt : PT) (n off hi lo v : Nat) : (wr s pt n off hi lo v).trainSlots = s.trainSlots := rfl
@[simp] theorem wr_wfreed (pt : PT) (n off hi lo v : Nat) : (wr s pt n off hi lo v).wfreed = s.wfreed := rfl
@[simp] theorem wr_corrs (pt : PT) (n off hi lo v : Nat) : (wr s pt n off hi lo v).corrs = s.corrs := rfl
@[simp] theorem wr_fecs (pt : PT) (n off hi lo v : Nat) : (wr s pt n off hi lo v).fecs = s.fecs := rfl
@[simp] theorem wr_prbsFrom (pt : PT) (n off hi lo v : Nat) : (wr s pt n off hi lo v).prbsFrom = s.prbsFrom := rfl
@[simp] theorem wr_cmpFrom (pt : PT) (n off hi lo v : Nat) : (wr s pt n off hi lo v).cmpFrom = s.cmpFrom := rfl
@[simp] theorem wr_calPlays (pt : PT) (n off hi lo v : Nat) : (wr s pt n off hi lo v).calPlays = s.calPlays := rfl

@[simp] theorem wrAll_held (pt : PT) (n off v : Nat) : (wrAll s pt n off v).held = s.held := rfl
@[simp] theorem wrAll_wlatch (pt : PT) (n off v : Nat) : (wrAll s pt n off v).wlatch = s.wlatch := rfl
@[simp] theorem wrAll_rlatch (pt : PT) (n off v : Nat) : (wrAll s pt n off v).rlatch = s.rlatch := rfl
@[simp] theorem wrAll_clk (pt : PT) (n off v : Nat) : (wrAll s pt n off v).clk = s.clk := rfl
@[simp] theorem wrAll_boot (pt : PT) (n off v : Nat) : (wrAll s pt n off v).boot = s.boot := rfl
@[simp] theorem wrAll_i3c (pt : PT) (n off v : Nat) : (wrAll s pt n off v).i3c = s.i3c := rfl
@[simp] theorem wrAll_pins (pt : PT) (n off v : Nat) : (wrAll s pt n off v).pins = s.pins := rfl
@[simp] theorem wrAll_resetting (pt : PT) (n off v : Nat) : (wrAll s pt n off v).resetting = s.resetting := rfl
@[simp] theorem wrAll_enWait (pt : PT) (n off v : Nat) : (wrAll s pt n off v).enWait = s.enWait := rfl
@[simp] theorem wrAll_stores (pt : PT) (n off v : Nat) : (wrAll s pt n off v).stores = s.stores := rfl
@[simp] theorem wrAll_staging (pt : PT) (n off v : Nat) : (wrAll s pt n off v).staging = s.staging := rfl
@[simp] theorem wrAll_accepted (pt : PT) (n off v : Nat) : (wrAll s pt n off v).accepted = s.accepted := rfl
@[simp] theorem wrAll_committed (pt : PT) (n off v : Nat) : (wrAll s pt n off v).committed = s.committed := rfl
@[simp] theorem wrAll_unchecked (pt : PT) (n off v : Nat) : (wrAll s pt n off v).unchecked = s.unchecked := rfl
@[simp] theorem wrAll_vimg (pt : PT) (n off v : Nat) : (wrAll s pt n off v).vimg = s.vimg := rfl
@[simp] theorem wrAll_groups (pt : PT) (n off v : Nat) : (wrAll s pt n off v).groups = s.groups := rfl
@[simp] theorem wrAll_seqs (pt : PT) (n off v : Nat) : (wrAll s pt n off v).seqs = s.seqs := rfl
@[simp] theorem wrAll_tones (pt : PT) (n off v : Nat) : (wrAll s pt n off v).tones = s.tones := rfl
@[simp] theorem wrAll_strms (pt : PT) (n off v : Nat) : (wrAll s pt n off v).strms = s.strms := rfl
@[simp] theorem wrAll_outs (pt : PT) (n off v : Nat) : (wrAll s pt n off v).outs = s.outs := rfl
@[simp] theorem wrAll_fluxes (pt : PT) (n off v : Nat) : (wrAll s pt n off v).fluxes = s.fluxes := rfl
@[simp] theorem wrAll_seen (pt : PT) (n off v : Nat) : (wrAll s pt n off v).seen = s.seen := rfl
@[simp] theorem wrAll_items (pt : PT) (n off v : Nat) : (wrAll s pt n off v).items = s.items := rfl
@[simp] theorem wrAll_demods (pt : PT) (n off v : Nat) : (wrAll s pt n off v).demods = s.demods := rfl
@[simp] theorem wrAll_rdis (pt : PT) (n off v : Nat) : (wrAll s pt n off v).rdis = s.rdis := rfl
@[simp] theorem wrAll_txq (pt : PT) (n off v : Nat) : (wrAll s pt n off v).txq = s.txq := rfl
@[simp] theorem wrAll_slots (pt : PT) (n off v : Nat) : (wrAll s pt n off v).slots = s.slots := rfl
@[simp] theorem wrAll_dchs (pt : PT) (n off v : Nat) : (wrAll s pt n off v).dchs = s.dchs := rfl
@[simp] theorem wrAll_provArms (pt : PT) (n off v : Nat) : (wrAll s pt n off v).provArms = s.provArms := rfl
@[simp] theorem wrAll_clrEntries (pt : PT) (n off v : Nat) : (wrAll s pt n off v).clrEntries = s.clrEntries := rfl
@[simp] theorem wrAll_fires (pt : PT) (n off v : Nat) : (wrAll s pt n off v).fires = s.fires := rfl
@[simp] theorem wrAll_mort (pt : PT) (n off v : Nat) : (wrAll s pt n off v).mort = s.mort := rfl
@[simp] theorem wrAll_gBind (pt : PT) (n off v : Nat) : (wrAll s pt n off v).gBind = s.gBind := rfl
@[simp] theorem wrAll_gStage (pt : PT) (n off v : Nat) : (wrAll s pt n off v).gStage = s.gStage := rfl
@[simp] theorem wrAll_gWait (pt : PT) (n off v : Nat) : (wrAll s pt n off v).gWait = s.gWait := rfl
@[simp] theorem wrAll_caps (pt : PT) (n off v : Nat) : (wrAll s pt n off v).caps = s.caps := rfl
@[simp] theorem wrAll_ports (pt : PT) (n off v : Nat) : (wrAll s pt n off v).ports = s.ports := rfl
@[simp] theorem wrAll_pantry (pt : PT) (n off v : Nat) : (wrAll s pt n off v).pantry = s.pantry := rfl
@[simp] theorem wrAll_preqs (pt : PT) (n off v : Nat) : (wrAll s pt n off v).preqs = s.preqs := rfl
@[simp] theorem wrAll_preqNo (pt : PT) (n off v : Nat) : (wrAll s pt n off v).preqNo = s.preqNo := rfl
@[simp] theorem wrAll_retired (pt : PT) (n off v : Nat) : (wrAll s pt n off v).retired = s.retired := rfl
@[simp] theorem wrAll_evac (pt : PT) (n off v : Nat) : (wrAll s pt n off v).evac = s.evac := rfl
@[simp] theorem wrAll_retWait (pt : PT) (n off v : Nat) : (wrAll s pt n off v).retWait = s.retWait := rfl
@[simp] theorem wrAll_wdrawn (pt : PT) (n off v : Nat) : (wrAll s pt n off v).wdrawn = s.wdrawn := rfl
@[simp] theorem wrAll_marked (pt : PT) (n off v : Nat) : (wrAll s pt n off v).marked = s.marked := rfl
@[simp] theorem wrAll_pbad (pt : PT) (n off v : Nat) : (wrAll s pt n off v).pbad = s.pbad := rfl
@[simp] theorem wrAll_swaps (pt : PT) (n off v : Nat) : (wrAll s pt n off v).swaps = s.swaps := rfl
@[simp] theorem wrAll_lmsgs (pt : PT) (n off v : Nat) : (wrAll s pt n off v).lmsgs = s.lmsgs := rfl
@[simp] theorem wrAll_laneSec (pt : PT) (n off v : Nat) : (wrAll s pt n off v).laneSec = s.laneSec := rfl
@[simp] theorem wrAll_rports (pt : PT) (n off v : Nat) : (wrAll s pt n off v).rports = s.rports := rfl
@[simp] theorem wrAll_hports (pt : PT) (n off v : Nat) : (wrAll s pt n off v).hports = s.hports := rfl
@[simp] theorem wrAll_frags (pt : PT) (n off v : Nat) : (wrAll s pt n off v).frags = s.frags := rfl
@[simp] theorem wrAll_inbox (pt : PT) (n off v : Nat) : (wrAll s pt n off v).inbox = s.inbox := rfl
@[simp] theorem wrAll_trigSeen (pt : PT) (n off v : Nat) : (wrAll s pt n off v).trigSeen = s.trigSeen := rfl
@[simp] theorem wrAll_tbusQ (pt : PT) (n off v : Nat) : (wrAll s pt n off v).tbusQ = s.tbusQ := rfl
@[simp] theorem wrAll_tbusAt (pt : PT) (n off v : Nat) : (wrAll s pt n off v).tbusAt = s.tbusAt := rfl
@[simp] theorem wrAll_tseq (pt : PT) (n off v : Nat) : (wrAll s pt n off v).tseq = s.tseq := rfl
@[simp] theorem wrAll_slaves (pt : PT) (n off v : Nat) : (wrAll s pt n off v).slaves = s.slaves := rfl
@[simp] theorem wrAll_align (pt : PT) (n off v : Nat) : (wrAll s pt n off v).align = s.align := rfl
@[simp] theorem wrAll_rxqs (pt : PT) (n off v : Nat) : (wrAll s pt n off v).rxqs = s.rxqs := rfl
@[simp] theorem wrAll_rxqPos (pt : PT) (n off v : Nat) : (wrAll s pt n off v).rxqPos = s.rxqPos := rfl
@[simp] theorem wrAll_seqIds (pt : PT) (n off v : Nat) : (wrAll s pt n off v).seqIds = s.seqIds := rfl
@[simp] theorem wrAll_owesHeader (pt : PT) (n off v : Nat) : (wrAll s pt n off v).owesHeader = s.owesHeader := rfl
@[simp] theorem wrAll_cals (pt : PT) (n off v : Nat) : (wrAll s pt n off v).cals = s.cals := rfl
@[simp] theorem wrAll_calNo (pt : PT) (n off v : Nat) : (wrAll s pt n off v).calNo = s.calNo := rfl
@[simp] theorem wrAll_calWin (pt : PT) (n off v : Nat) : (wrAll s pt n off v).calWin = s.calWin := rfl
@[simp] theorem wrAll_dacTrims (pt : PT) (n off v : Nat) : (wrAll s pt n off v).dacTrims = s.dacTrims := rfl
@[simp] theorem wrAll_trace (pt : PT) (n off v : Nat) : (wrAll s pt n off v).trace = s.trace := rfl
@[simp] theorem wrAll_mon (pt : PT) (n off v : Nat) : (wrAll s pt n off v).mon = s.mon := rfl
@[simp] theorem wrAll_therm (pt : PT) (n off v : Nat) : (wrAll s pt n off v).therm = s.therm := rfl
@[simp] theorem wrAll_shed (pt : PT) (n off v : Nat) : (wrAll s pt n off v).shed = s.shed := rfl
@[simp] theorem wrAll_evLog (pt : PT) (n off v : Nat) : (wrAll s pt n off v).evLog = s.evLog := rfl
@[simp] theorem wrAll_logSeq (pt : PT) (n off v : Nat) : (wrAll s pt n off v).logSeq = s.logSeq := rfl
@[simp] theorem wrAll_spareMap (pt : PT) (n off v : Nat) : (wrAll s pt n off v).spareMap = s.spareMap := rfl
@[simp] theorem wrAll_wears (pt : PT) (n off v : Nat) : (wrAll s pt n off v).wears = s.wears := rfl
@[simp] theorem wrAll_subs (pt : PT) (n off v : Nat) : (wrAll s pt n off v).subs = s.subs := rfl
@[simp] theorem wrAll_returns (pt : PT) (n off v : Nat) : (wrAll s pt n off v).returns = s.returns := rfl
@[simp] theorem wrAll_rdata (pt : PT) (n off v : Nat) : (wrAll s pt n off v).rdata = s.rdata := rfl
@[simp] theorem wrAll_outbox (pt : PT) (n off v : Nat) : (wrAll s pt n off v).outbox = s.outbox := rfl
@[simp] theorem wrAll_free (pt : PT) (n off v : Nat) : (wrAll s pt n off v).free = s.free := rfl
@[simp] theorem wrAll_pending (pt : PT) (n off v : Nat) : (wrAll s pt n off v).pending = s.pending := rfl
@[simp] theorem wrAll_lines (pt : PT) (n off v : Nat) : (wrAll s pt n off v).lines = s.lines := rfl
@[simp] theorem wrAll_graphBad (pt : PT) (n off v : Nat) : (wrAll s pt n off v).graphBad = s.graphBad := rfl
@[simp] theorem wrAll_mapOld (pt : PT) (n off v : Nat) : (wrAll s pt n off v).mapOld = s.mapOld := rfl
@[simp] theorem wrAll_txWait (pt : PT) (n off v : Nat) : (wrAll s pt n off v).txWait = s.txWait := rfl
@[simp] theorem wrAll_softRows (pt : PT) (n off v : Nat) : (wrAll s pt n off v).softRows = s.softRows := rfl
@[simp] theorem wrAll_tick (pt : PT) (n off v : Nat) : (wrAll s pt n off v).tick = s.tick := rfl
@[simp] theorem wrAll_later (pt : PT) (n off v : Nat) : (wrAll s pt n off v).later = s.later := rfl
@[simp] theorem wrAll_iqWords (pt : PT) (n off v : Nat) : (wrAll s pt n off v).iqWords = s.iqWords := rfl
@[simp] theorem wrAll_iqSent (pt : PT) (n off v : Nat) : (wrAll s pt n off v).iqSent = s.iqSent := rfl
@[simp] theorem wrAll_ladleJobs (pt : PT) (n off v : Nat) : (wrAll s pt n off v).ladleJobs = s.ladleJobs := rfl
@[simp] theorem wrAll_fills (pt : PT) (n off v : Nat) : (wrAll s pt n off v).fills = s.fills := rfl
@[simp] theorem wrAll_pzero (pt : PT) (n off v : Nat) : (wrAll s pt n off v).pzero = s.pzero := rfl
@[simp] theorem wrAll_rows (pt : PT) (n off v : Nat) : (wrAll s pt n off v).rows = s.rows := rfl
@[simp] theorem wrAll_refilled (pt : PT) (n off v : Nat) : (wrAll s pt n off v).refilled = s.refilled := rfl
@[simp] theorem wrAll_trainSlots (pt : PT) (n off v : Nat) : (wrAll s pt n off v).trainSlots = s.trainSlots := rfl
@[simp] theorem wrAll_wfreed (pt : PT) (n off v : Nat) : (wrAll s pt n off v).wfreed = s.wfreed := rfl
@[simp] theorem wrAll_corrs (pt : PT) (n off v : Nat) : (wrAll s pt n off v).corrs = s.corrs := rfl
@[simp] theorem wrAll_fecs (pt : PT) (n off v : Nat) : (wrAll s pt n off v).fecs = s.fecs := rfl
@[simp] theorem wrAll_prbsFrom (pt : PT) (n off v : Nat) : (wrAll s pt n off v).prbsFrom = s.prbsFrom := rfl
@[simp] theorem wrAll_cmpFrom (pt : PT) (n off v : Nat) : (wrAll s pt n off v).cmpFrom = s.cmpFrom := rfl
@[simp] theorem wrAll_calPlays (pt : PT) (n off v : Nat) : (wrAll s pt n off v).calPlays = s.calPlays := rfl

/-! ## Groups and sequencers -/

@[simp] theorem setGroup_groups (g : Nat) (x : Group) : (setGroup s g x).groups = mapSet (fun _ => {}) s.groups g x := rfl
@[simp] theorem setGroup_regs (g : Nat) (x : Group) : (setGroup s g x).regs = s.regs := rfl
@[simp] theorem setGroup_held (g : Nat) (x : Group) : (setGroup s g x).held = s.held := rfl
@[simp] theorem setGroup_wlatch (g : Nat) (x : Group) : (setGroup s g x).wlatch = s.wlatch := rfl
@[simp] theorem setGroup_rlatch (g : Nat) (x : Group) : (setGroup s g x).rlatch = s.rlatch := rfl
@[simp] theorem setGroup_clk (g : Nat) (x : Group) : (setGroup s g x).clk = s.clk := rfl
@[simp] theorem setGroup_boot (g : Nat) (x : Group) : (setGroup s g x).boot = s.boot := rfl
@[simp] theorem setGroup_i3c (g : Nat) (x : Group) : (setGroup s g x).i3c = s.i3c := rfl
@[simp] theorem setGroup_pins (g : Nat) (x : Group) : (setGroup s g x).pins = s.pins := rfl
@[simp] theorem setGroup_resetting (g : Nat) (x : Group) : (setGroup s g x).resetting = s.resetting := rfl
@[simp] theorem setGroup_enWait (g : Nat) (x : Group) : (setGroup s g x).enWait = s.enWait := rfl
@[simp] theorem setGroup_stores (g : Nat) (x : Group) : (setGroup s g x).stores = s.stores := rfl
@[simp] theorem setGroup_staging (g : Nat) (x : Group) : (setGroup s g x).staging = s.staging := rfl
@[simp] theorem setGroup_accepted (g : Nat) (x : Group) : (setGroup s g x).accepted = s.accepted := rfl
@[simp] theorem setGroup_committed (g : Nat) (x : Group) : (setGroup s g x).committed = s.committed := rfl
@[simp] theorem setGroup_unchecked (g : Nat) (x : Group) : (setGroup s g x).unchecked = s.unchecked := rfl
@[simp] theorem setGroup_vimg (g : Nat) (x : Group) : (setGroup s g x).vimg = s.vimg := rfl
@[simp] theorem setGroup_seqs (g : Nat) (x : Group) : (setGroup s g x).seqs = s.seqs := rfl
@[simp] theorem setGroup_tones (g : Nat) (x : Group) : (setGroup s g x).tones = s.tones := rfl
@[simp] theorem setGroup_strms (g : Nat) (x : Group) : (setGroup s g x).strms = s.strms := rfl
@[simp] theorem setGroup_outs (g : Nat) (x : Group) : (setGroup s g x).outs = s.outs := rfl
@[simp] theorem setGroup_fluxes (g : Nat) (x : Group) : (setGroup s g x).fluxes = s.fluxes := rfl
@[simp] theorem setGroup_seen (g : Nat) (x : Group) : (setGroup s g x).seen = s.seen := rfl
@[simp] theorem setGroup_items (g : Nat) (x : Group) : (setGroup s g x).items = s.items := rfl
@[simp] theorem setGroup_demods (g : Nat) (x : Group) : (setGroup s g x).demods = s.demods := rfl
@[simp] theorem setGroup_rdis (g : Nat) (x : Group) : (setGroup s g x).rdis = s.rdis := rfl
@[simp] theorem setGroup_txq (g : Nat) (x : Group) : (setGroup s g x).txq = s.txq := rfl
@[simp] theorem setGroup_slots (g : Nat) (x : Group) : (setGroup s g x).slots = s.slots := rfl
@[simp] theorem setGroup_dchs (g : Nat) (x : Group) : (setGroup s g x).dchs = s.dchs := rfl
@[simp] theorem setGroup_provArms (g : Nat) (x : Group) : (setGroup s g x).provArms = s.provArms := rfl
@[simp] theorem setGroup_clrEntries (g : Nat) (x : Group) : (setGroup s g x).clrEntries = s.clrEntries := rfl
@[simp] theorem setGroup_fires (g : Nat) (x : Group) : (setGroup s g x).fires = s.fires := rfl
@[simp] theorem setGroup_mort (g : Nat) (x : Group) : (setGroup s g x).mort = s.mort := rfl
@[simp] theorem setGroup_gBind (g : Nat) (x : Group) : (setGroup s g x).gBind = s.gBind := rfl
@[simp] theorem setGroup_gStage (g : Nat) (x : Group) : (setGroup s g x).gStage = s.gStage := rfl
@[simp] theorem setGroup_gWait (g : Nat) (x : Group) : (setGroup s g x).gWait = s.gWait := rfl
@[simp] theorem setGroup_caps (g : Nat) (x : Group) : (setGroup s g x).caps = s.caps := rfl
@[simp] theorem setGroup_ports (g : Nat) (x : Group) : (setGroup s g x).ports = s.ports := rfl
@[simp] theorem setGroup_pantry (g : Nat) (x : Group) : (setGroup s g x).pantry = s.pantry := rfl
@[simp] theorem setGroup_preqs (g : Nat) (x : Group) : (setGroup s g x).preqs = s.preqs := rfl
@[simp] theorem setGroup_preqNo (g : Nat) (x : Group) : (setGroup s g x).preqNo = s.preqNo := rfl
@[simp] theorem setGroup_retired (g : Nat) (x : Group) : (setGroup s g x).retired = s.retired := rfl
@[simp] theorem setGroup_evac (g : Nat) (x : Group) : (setGroup s g x).evac = s.evac := rfl
@[simp] theorem setGroup_retWait (g : Nat) (x : Group) : (setGroup s g x).retWait = s.retWait := rfl
@[simp] theorem setGroup_wdrawn (g : Nat) (x : Group) : (setGroup s g x).wdrawn = s.wdrawn := rfl
@[simp] theorem setGroup_marked (g : Nat) (x : Group) : (setGroup s g x).marked = s.marked := rfl
@[simp] theorem setGroup_pbad (g : Nat) (x : Group) : (setGroup s g x).pbad = s.pbad := rfl
@[simp] theorem setGroup_swaps (g : Nat) (x : Group) : (setGroup s g x).swaps = s.swaps := rfl
@[simp] theorem setGroup_lmsgs (g : Nat) (x : Group) : (setGroup s g x).lmsgs = s.lmsgs := rfl
@[simp] theorem setGroup_laneSec (g : Nat) (x : Group) : (setGroup s g x).laneSec = s.laneSec := rfl
@[simp] theorem setGroup_rports (g : Nat) (x : Group) : (setGroup s g x).rports = s.rports := rfl
@[simp] theorem setGroup_hports (g : Nat) (x : Group) : (setGroup s g x).hports = s.hports := rfl
@[simp] theorem setGroup_frags (g : Nat) (x : Group) : (setGroup s g x).frags = s.frags := rfl
@[simp] theorem setGroup_inbox (g : Nat) (x : Group) : (setGroup s g x).inbox = s.inbox := rfl
@[simp] theorem setGroup_trigSeen (g : Nat) (x : Group) : (setGroup s g x).trigSeen = s.trigSeen := rfl
@[simp] theorem setGroup_tbusQ (g : Nat) (x : Group) : (setGroup s g x).tbusQ = s.tbusQ := rfl
@[simp] theorem setGroup_tbusAt (g : Nat) (x : Group) : (setGroup s g x).tbusAt = s.tbusAt := rfl
@[simp] theorem setGroup_tseq (g : Nat) (x : Group) : (setGroup s g x).tseq = s.tseq := rfl
@[simp] theorem setGroup_slaves (g : Nat) (x : Group) : (setGroup s g x).slaves = s.slaves := rfl
@[simp] theorem setGroup_align (g : Nat) (x : Group) : (setGroup s g x).align = s.align := rfl
@[simp] theorem setGroup_rxqs (g : Nat) (x : Group) : (setGroup s g x).rxqs = s.rxqs := rfl
@[simp] theorem setGroup_rxqPos (g : Nat) (x : Group) : (setGroup s g x).rxqPos = s.rxqPos := rfl
@[simp] theorem setGroup_seqIds (g : Nat) (x : Group) : (setGroup s g x).seqIds = s.seqIds := rfl
@[simp] theorem setGroup_owesHeader (g : Nat) (x : Group) : (setGroup s g x).owesHeader = s.owesHeader := rfl
@[simp] theorem setGroup_cals (g : Nat) (x : Group) : (setGroup s g x).cals = s.cals := rfl
@[simp] theorem setGroup_calNo (g : Nat) (x : Group) : (setGroup s g x).calNo = s.calNo := rfl
@[simp] theorem setGroup_calWin (g : Nat) (x : Group) : (setGroup s g x).calWin = s.calWin := rfl
@[simp] theorem setGroup_dacTrims (g : Nat) (x : Group) : (setGroup s g x).dacTrims = s.dacTrims := rfl
@[simp] theorem setGroup_trace (g : Nat) (x : Group) : (setGroup s g x).trace = s.trace := rfl
@[simp] theorem setGroup_mon (g : Nat) (x : Group) : (setGroup s g x).mon = s.mon := rfl
@[simp] theorem setGroup_therm (g : Nat) (x : Group) : (setGroup s g x).therm = s.therm := rfl
@[simp] theorem setGroup_shed (g : Nat) (x : Group) : (setGroup s g x).shed = s.shed := rfl
@[simp] theorem setGroup_evLog (g : Nat) (x : Group) : (setGroup s g x).evLog = s.evLog := rfl
@[simp] theorem setGroup_logSeq (g : Nat) (x : Group) : (setGroup s g x).logSeq = s.logSeq := rfl
@[simp] theorem setGroup_spareMap (g : Nat) (x : Group) : (setGroup s g x).spareMap = s.spareMap := rfl
@[simp] theorem setGroup_wears (g : Nat) (x : Group) : (setGroup s g x).wears = s.wears := rfl
@[simp] theorem setGroup_subs (g : Nat) (x : Group) : (setGroup s g x).subs = s.subs := rfl
@[simp] theorem setGroup_returns (g : Nat) (x : Group) : (setGroup s g x).returns = s.returns := rfl
@[simp] theorem setGroup_rdata (g : Nat) (x : Group) : (setGroup s g x).rdata = s.rdata := rfl
@[simp] theorem setGroup_outbox (g : Nat) (x : Group) : (setGroup s g x).outbox = s.outbox := rfl
@[simp] theorem setGroup_free (g : Nat) (x : Group) : (setGroup s g x).free = s.free := rfl
@[simp] theorem setGroup_pending (g : Nat) (x : Group) : (setGroup s g x).pending = s.pending := rfl
@[simp] theorem setGroup_lines (g : Nat) (x : Group) : (setGroup s g x).lines = s.lines := rfl
@[simp] theorem setGroup_graphBad (g : Nat) (x : Group) : (setGroup s g x).graphBad = s.graphBad := rfl
@[simp] theorem setGroup_mapOld (g : Nat) (x : Group) : (setGroup s g x).mapOld = s.mapOld := rfl
@[simp] theorem setGroup_txWait (g : Nat) (x : Group) : (setGroup s g x).txWait = s.txWait := rfl
@[simp] theorem setGroup_softRows (g : Nat) (x : Group) : (setGroup s g x).softRows = s.softRows := rfl
@[simp] theorem setGroup_tick (g : Nat) (x : Group) : (setGroup s g x).tick = s.tick := rfl
@[simp] theorem setGroup_later (g : Nat) (x : Group) : (setGroup s g x).later = s.later := rfl
@[simp] theorem setGroup_iqWords (g : Nat) (x : Group) : (setGroup s g x).iqWords = s.iqWords := rfl
@[simp] theorem setGroup_iqSent (g : Nat) (x : Group) : (setGroup s g x).iqSent = s.iqSent := rfl
@[simp] theorem setGroup_ladleJobs (g : Nat) (x : Group) : (setGroup s g x).ladleJobs = s.ladleJobs := rfl
@[simp] theorem setGroup_fills (g : Nat) (x : Group) : (setGroup s g x).fills = s.fills := rfl
@[simp] theorem setGroup_pzero (g : Nat) (x : Group) : (setGroup s g x).pzero = s.pzero := rfl
@[simp] theorem setGroup_rows (g : Nat) (x : Group) : (setGroup s g x).rows = s.rows := rfl
@[simp] theorem setGroup_refilled (g : Nat) (x : Group) : (setGroup s g x).refilled = s.refilled := rfl
@[simp] theorem setGroup_trainSlots (g : Nat) (x : Group) : (setGroup s g x).trainSlots = s.trainSlots := rfl
@[simp] theorem setGroup_wfreed (g : Nat) (x : Group) : (setGroup s g x).wfreed = s.wfreed := rfl
@[simp] theorem setGroup_corrs (g : Nat) (x : Group) : (setGroup s g x).corrs = s.corrs := rfl
@[simp] theorem setGroup_fecs (g : Nat) (x : Group) : (setGroup s g x).fecs = s.fecs := rfl
@[simp] theorem setGroup_prbsFrom (g : Nat) (x : Group) : (setGroup s g x).prbsFrom = s.prbsFrom := rfl
@[simp] theorem setGroup_cmpFrom (g : Nat) (x : Group) : (setGroup s g x).cmpFrom = s.cmpFrom := rfl
@[simp] theorem setGroup_calPlays (g : Nat) (x : Group) : (setGroup s g x).calPlays = s.calPlays := rfl

@[simp] theorem setSeq_seqs (q : Nat) (x : Seq) : (setSeq s q x).seqs = mapSet (fun _ => {}) s.seqs q x := rfl
@[simp] theorem setSeq_regs (q : Nat) (x : Seq) : (setSeq s q x).regs = s.regs := rfl
@[simp] theorem setSeq_held (q : Nat) (x : Seq) : (setSeq s q x).held = s.held := rfl
@[simp] theorem setSeq_wlatch (q : Nat) (x : Seq) : (setSeq s q x).wlatch = s.wlatch := rfl
@[simp] theorem setSeq_rlatch (q : Nat) (x : Seq) : (setSeq s q x).rlatch = s.rlatch := rfl
@[simp] theorem setSeq_clk (q : Nat) (x : Seq) : (setSeq s q x).clk = s.clk := rfl
@[simp] theorem setSeq_boot (q : Nat) (x : Seq) : (setSeq s q x).boot = s.boot := rfl
@[simp] theorem setSeq_i3c (q : Nat) (x : Seq) : (setSeq s q x).i3c = s.i3c := rfl
@[simp] theorem setSeq_pins (q : Nat) (x : Seq) : (setSeq s q x).pins = s.pins := rfl
@[simp] theorem setSeq_resetting (q : Nat) (x : Seq) : (setSeq s q x).resetting = s.resetting := rfl
@[simp] theorem setSeq_enWait (q : Nat) (x : Seq) : (setSeq s q x).enWait = s.enWait := rfl
@[simp] theorem setSeq_stores (q : Nat) (x : Seq) : (setSeq s q x).stores = s.stores := rfl
@[simp] theorem setSeq_staging (q : Nat) (x : Seq) : (setSeq s q x).staging = s.staging := rfl
@[simp] theorem setSeq_accepted (q : Nat) (x : Seq) : (setSeq s q x).accepted = s.accepted := rfl
@[simp] theorem setSeq_committed (q : Nat) (x : Seq) : (setSeq s q x).committed = s.committed := rfl
@[simp] theorem setSeq_unchecked (q : Nat) (x : Seq) : (setSeq s q x).unchecked = s.unchecked := rfl
@[simp] theorem setSeq_vimg (q : Nat) (x : Seq) : (setSeq s q x).vimg = s.vimg := rfl
@[simp] theorem setSeq_groups (q : Nat) (x : Seq) : (setSeq s q x).groups = s.groups := rfl
@[simp] theorem setSeq_tones (q : Nat) (x : Seq) : (setSeq s q x).tones = s.tones := rfl
@[simp] theorem setSeq_strms (q : Nat) (x : Seq) : (setSeq s q x).strms = s.strms := rfl
@[simp] theorem setSeq_outs (q : Nat) (x : Seq) : (setSeq s q x).outs = s.outs := rfl
@[simp] theorem setSeq_fluxes (q : Nat) (x : Seq) : (setSeq s q x).fluxes = s.fluxes := rfl
@[simp] theorem setSeq_seen (q : Nat) (x : Seq) : (setSeq s q x).seen = s.seen := rfl
@[simp] theorem setSeq_items (q : Nat) (x : Seq) : (setSeq s q x).items = s.items := rfl
@[simp] theorem setSeq_demods (q : Nat) (x : Seq) : (setSeq s q x).demods = s.demods := rfl
@[simp] theorem setSeq_rdis (q : Nat) (x : Seq) : (setSeq s q x).rdis = s.rdis := rfl
@[simp] theorem setSeq_txq (q : Nat) (x : Seq) : (setSeq s q x).txq = s.txq := rfl
@[simp] theorem setSeq_slots (q : Nat) (x : Seq) : (setSeq s q x).slots = s.slots := rfl
@[simp] theorem setSeq_dchs (q : Nat) (x : Seq) : (setSeq s q x).dchs = s.dchs := rfl
@[simp] theorem setSeq_provArms (q : Nat) (x : Seq) : (setSeq s q x).provArms = s.provArms := rfl
@[simp] theorem setSeq_clrEntries (q : Nat) (x : Seq) : (setSeq s q x).clrEntries = s.clrEntries := rfl
@[simp] theorem setSeq_fires (q : Nat) (x : Seq) : (setSeq s q x).fires = s.fires := rfl
@[simp] theorem setSeq_mort (q : Nat) (x : Seq) : (setSeq s q x).mort = s.mort := rfl
@[simp] theorem setSeq_gBind (q : Nat) (x : Seq) : (setSeq s q x).gBind = s.gBind := rfl
@[simp] theorem setSeq_gStage (q : Nat) (x : Seq) : (setSeq s q x).gStage = s.gStage := rfl
@[simp] theorem setSeq_gWait (q : Nat) (x : Seq) : (setSeq s q x).gWait = s.gWait := rfl
@[simp] theorem setSeq_caps (q : Nat) (x : Seq) : (setSeq s q x).caps = s.caps := rfl
@[simp] theorem setSeq_ports (q : Nat) (x : Seq) : (setSeq s q x).ports = s.ports := rfl
@[simp] theorem setSeq_pantry (q : Nat) (x : Seq) : (setSeq s q x).pantry = s.pantry := rfl
@[simp] theorem setSeq_preqs (q : Nat) (x : Seq) : (setSeq s q x).preqs = s.preqs := rfl
@[simp] theorem setSeq_preqNo (q : Nat) (x : Seq) : (setSeq s q x).preqNo = s.preqNo := rfl
@[simp] theorem setSeq_retired (q : Nat) (x : Seq) : (setSeq s q x).retired = s.retired := rfl
@[simp] theorem setSeq_evac (q : Nat) (x : Seq) : (setSeq s q x).evac = s.evac := rfl
@[simp] theorem setSeq_retWait (q : Nat) (x : Seq) : (setSeq s q x).retWait = s.retWait := rfl
@[simp] theorem setSeq_wdrawn (q : Nat) (x : Seq) : (setSeq s q x).wdrawn = s.wdrawn := rfl
@[simp] theorem setSeq_marked (q : Nat) (x : Seq) : (setSeq s q x).marked = s.marked := rfl
@[simp] theorem setSeq_pbad (q : Nat) (x : Seq) : (setSeq s q x).pbad = s.pbad := rfl
@[simp] theorem setSeq_swaps (q : Nat) (x : Seq) : (setSeq s q x).swaps = s.swaps := rfl
@[simp] theorem setSeq_lmsgs (q : Nat) (x : Seq) : (setSeq s q x).lmsgs = s.lmsgs := rfl
@[simp] theorem setSeq_laneSec (q : Nat) (x : Seq) : (setSeq s q x).laneSec = s.laneSec := rfl
@[simp] theorem setSeq_rports (q : Nat) (x : Seq) : (setSeq s q x).rports = s.rports := rfl
@[simp] theorem setSeq_hports (q : Nat) (x : Seq) : (setSeq s q x).hports = s.hports := rfl
@[simp] theorem setSeq_frags (q : Nat) (x : Seq) : (setSeq s q x).frags = s.frags := rfl
@[simp] theorem setSeq_inbox (q : Nat) (x : Seq) : (setSeq s q x).inbox = s.inbox := rfl
@[simp] theorem setSeq_trigSeen (q : Nat) (x : Seq) : (setSeq s q x).trigSeen = s.trigSeen := rfl
@[simp] theorem setSeq_tbusQ (q : Nat) (x : Seq) : (setSeq s q x).tbusQ = s.tbusQ := rfl
@[simp] theorem setSeq_tbusAt (q : Nat) (x : Seq) : (setSeq s q x).tbusAt = s.tbusAt := rfl
@[simp] theorem setSeq_tseq (q : Nat) (x : Seq) : (setSeq s q x).tseq = s.tseq := rfl
@[simp] theorem setSeq_slaves (q : Nat) (x : Seq) : (setSeq s q x).slaves = s.slaves := rfl
@[simp] theorem setSeq_align (q : Nat) (x : Seq) : (setSeq s q x).align = s.align := rfl
@[simp] theorem setSeq_rxqs (q : Nat) (x : Seq) : (setSeq s q x).rxqs = s.rxqs := rfl
@[simp] theorem setSeq_rxqPos (q : Nat) (x : Seq) : (setSeq s q x).rxqPos = s.rxqPos := rfl
@[simp] theorem setSeq_seqIds (q : Nat) (x : Seq) : (setSeq s q x).seqIds = s.seqIds := rfl
@[simp] theorem setSeq_owesHeader (q : Nat) (x : Seq) : (setSeq s q x).owesHeader = s.owesHeader := rfl
@[simp] theorem setSeq_cals (q : Nat) (x : Seq) : (setSeq s q x).cals = s.cals := rfl
@[simp] theorem setSeq_calNo (q : Nat) (x : Seq) : (setSeq s q x).calNo = s.calNo := rfl
@[simp] theorem setSeq_calWin (q : Nat) (x : Seq) : (setSeq s q x).calWin = s.calWin := rfl
@[simp] theorem setSeq_dacTrims (q : Nat) (x : Seq) : (setSeq s q x).dacTrims = s.dacTrims := rfl
@[simp] theorem setSeq_trace (q : Nat) (x : Seq) : (setSeq s q x).trace = s.trace := rfl
@[simp] theorem setSeq_mon (q : Nat) (x : Seq) : (setSeq s q x).mon = s.mon := rfl
@[simp] theorem setSeq_therm (q : Nat) (x : Seq) : (setSeq s q x).therm = s.therm := rfl
@[simp] theorem setSeq_shed (q : Nat) (x : Seq) : (setSeq s q x).shed = s.shed := rfl
@[simp] theorem setSeq_evLog (q : Nat) (x : Seq) : (setSeq s q x).evLog = s.evLog := rfl
@[simp] theorem setSeq_logSeq (q : Nat) (x : Seq) : (setSeq s q x).logSeq = s.logSeq := rfl
@[simp] theorem setSeq_spareMap (q : Nat) (x : Seq) : (setSeq s q x).spareMap = s.spareMap := rfl
@[simp] theorem setSeq_wears (q : Nat) (x : Seq) : (setSeq s q x).wears = s.wears := rfl
@[simp] theorem setSeq_subs (q : Nat) (x : Seq) : (setSeq s q x).subs = s.subs := rfl
@[simp] theorem setSeq_returns (q : Nat) (x : Seq) : (setSeq s q x).returns = s.returns := rfl
@[simp] theorem setSeq_rdata (q : Nat) (x : Seq) : (setSeq s q x).rdata = s.rdata := rfl
@[simp] theorem setSeq_outbox (q : Nat) (x : Seq) : (setSeq s q x).outbox = s.outbox := rfl
@[simp] theorem setSeq_free (q : Nat) (x : Seq) : (setSeq s q x).free = s.free := rfl
@[simp] theorem setSeq_pending (q : Nat) (x : Seq) : (setSeq s q x).pending = s.pending := rfl
@[simp] theorem setSeq_lines (q : Nat) (x : Seq) : (setSeq s q x).lines = s.lines := rfl
@[simp] theorem setSeq_graphBad (q : Nat) (x : Seq) : (setSeq s q x).graphBad = s.graphBad := rfl
@[simp] theorem setSeq_mapOld (q : Nat) (x : Seq) : (setSeq s q x).mapOld = s.mapOld := rfl
@[simp] theorem setSeq_txWait (q : Nat) (x : Seq) : (setSeq s q x).txWait = s.txWait := rfl
@[simp] theorem setSeq_softRows (q : Nat) (x : Seq) : (setSeq s q x).softRows = s.softRows := rfl
@[simp] theorem setSeq_tick (q : Nat) (x : Seq) : (setSeq s q x).tick = s.tick := rfl
@[simp] theorem setSeq_later (q : Nat) (x : Seq) : (setSeq s q x).later = s.later := rfl
@[simp] theorem setSeq_iqWords (q : Nat) (x : Seq) : (setSeq s q x).iqWords = s.iqWords := rfl
@[simp] theorem setSeq_iqSent (q : Nat) (x : Seq) : (setSeq s q x).iqSent = s.iqSent := rfl
@[simp] theorem setSeq_ladleJobs (q : Nat) (x : Seq) : (setSeq s q x).ladleJobs = s.ladleJobs := rfl
@[simp] theorem setSeq_fills (q : Nat) (x : Seq) : (setSeq s q x).fills = s.fills := rfl
@[simp] theorem setSeq_pzero (q : Nat) (x : Seq) : (setSeq s q x).pzero = s.pzero := rfl
@[simp] theorem setSeq_rows (q : Nat) (x : Seq) : (setSeq s q x).rows = s.rows := rfl
@[simp] theorem setSeq_refilled (q : Nat) (x : Seq) : (setSeq s q x).refilled = s.refilled := rfl
@[simp] theorem setSeq_trainSlots (q : Nat) (x : Seq) : (setSeq s q x).trainSlots = s.trainSlots := rfl
@[simp] theorem setSeq_wfreed (q : Nat) (x : Seq) : (setSeq s q x).wfreed = s.wfreed := rfl
@[simp] theorem setSeq_corrs (q : Nat) (x : Seq) : (setSeq s q x).corrs = s.corrs := rfl
@[simp] theorem setSeq_fecs (q : Nat) (x : Seq) : (setSeq s q x).fecs = s.fecs := rfl
@[simp] theorem setSeq_prbsFrom (q : Nat) (x : Seq) : (setSeq s q x).prbsFrom = s.prbsFrom := rfl
@[simp] theorem setSeq_cmpFrom (q : Nat) (x : Seq) : (setSeq s q x).cmpFrom = s.cmpFrom := rfl
@[simp] theorem setSeq_calPlays (q : Nat) (x : Seq) : (setSeq s q x).calPlays = s.calPlays := rfl

/-! ## Interrupt requests, events and faults -/

theorem requestIbi_eq :
    requestIbi s = { s with i3c := { s.i3c with ibiReq := s.i3c.ibiReq || (s.i3c.ibiOn && !s.i3c.inReset) } } := by
  unfold requestIbi
  cases h : s.i3c.ibiOn && !s.i3c.inReset
  · rw [if_neg (by simp), Bool.or_false]
  · rw [if_pos rfl, Bool.or_true]

/-- Noting a bit that hardware set changes the record of the current tick, nothing else. -/
theorem noteRaised_eq (a : Nat) (m : Word) (s : State) : noteRaised a m s = { s with tick := (noteRaised a m s).tick } := by
  unfold noteRaised
  split <;> rfl

@[simp] theorem noteRaised_regs (a : Nat) (m : Word) (s : State) : (noteRaised a m s).regs = s.regs := by rw [noteRaised_eq]
@[simp] theorem noteRaised_i3c (a : Nat) (m : Word) (s : State) : (noteRaised a m s).i3c = s.i3c := by rw [noteRaised_eq]

theorem raiseBit_eq (pt : PT) (n off i : Nat) (s : State) :
    raiseBit pt n off i s = { wr s pt n off i i 1 with tick := (raiseBit pt n off i s).tick } := noteRaised_eq _ _ _

@[simp] theorem raiseBit_regs (pt : PT) (n off i : Nat) (s : State) :
    (raiseBit pt n off i s).regs = (wr s pt n off i i 1).regs := noteRaised_regs _ _ _

@[simp] theorem requestIbi_regs : (requestIbi s).regs = s.regs := by rw [requestIbi_eq]
@[simp] theorem requestIbi_held : (requestIbi s).held = s.held := by rw [requestIbi_eq]
@[simp] theorem requestIbi_wlatch : (requestIbi s).wlatch = s.wlatch := by rw [requestIbi_eq]
@[simp] theorem requestIbi_rlatch : (requestIbi s).rlatch = s.rlatch := by rw [requestIbi_eq]
@[simp] theorem requestIbi_clk : (requestIbi s).clk = s.clk := by rw [requestIbi_eq]
@[simp] theorem requestIbi_boot : (requestIbi s).boot = s.boot := by rw [requestIbi_eq]
@[simp] theorem requestIbi_pins : (requestIbi s).pins = s.pins := by rw [requestIbi_eq]
@[simp] theorem requestIbi_resetting : (requestIbi s).resetting = s.resetting := by rw [requestIbi_eq]
@[simp] theorem requestIbi_enWait : (requestIbi s).enWait = s.enWait := by rw [requestIbi_eq]
@[simp] theorem requestIbi_stores : (requestIbi s).stores = s.stores := by rw [requestIbi_eq]
@[simp] theorem requestIbi_staging : (requestIbi s).staging = s.staging := by rw [requestIbi_eq]
@[simp] theorem requestIbi_accepted : (requestIbi s).accepted = s.accepted := by rw [requestIbi_eq]
@[simp] theorem requestIbi_committed : (requestIbi s).committed = s.committed := by rw [requestIbi_eq]
@[simp] theorem requestIbi_unchecked : (requestIbi s).unchecked = s.unchecked := by rw [requestIbi_eq]
@[simp] theorem requestIbi_vimg : (requestIbi s).vimg = s.vimg := by rw [requestIbi_eq]
@[simp] theorem requestIbi_groups : (requestIbi s).groups = s.groups := by rw [requestIbi_eq]
@[simp] theorem requestIbi_seqs : (requestIbi s).seqs = s.seqs := by rw [requestIbi_eq]
@[simp] theorem requestIbi_tones : (requestIbi s).tones = s.tones := by rw [requestIbi_eq]
@[simp] theorem requestIbi_strms : (requestIbi s).strms = s.strms := by rw [requestIbi_eq]
@[simp] theorem requestIbi_outs : (requestIbi s).outs = s.outs := by rw [requestIbi_eq]
@[simp] theorem requestIbi_fluxes : (requestIbi s).fluxes = s.fluxes := by rw [requestIbi_eq]
@[simp] theorem requestIbi_seen : (requestIbi s).seen = s.seen := by rw [requestIbi_eq]
@[simp] theorem requestIbi_items : (requestIbi s).items = s.items := by rw [requestIbi_eq]
@[simp] theorem requestIbi_demods : (requestIbi s).demods = s.demods := by rw [requestIbi_eq]
@[simp] theorem requestIbi_rdis : (requestIbi s).rdis = s.rdis := by rw [requestIbi_eq]
@[simp] theorem requestIbi_txq : (requestIbi s).txq = s.txq := by rw [requestIbi_eq]
@[simp] theorem requestIbi_slots : (requestIbi s).slots = s.slots := by rw [requestIbi_eq]
@[simp] theorem requestIbi_dchs : (requestIbi s).dchs = s.dchs := by rw [requestIbi_eq]
@[simp] theorem requestIbi_provArms : (requestIbi s).provArms = s.provArms := by rw [requestIbi_eq]
@[simp] theorem requestIbi_clrEntries : (requestIbi s).clrEntries = s.clrEntries := by rw [requestIbi_eq]
@[simp] theorem requestIbi_fires : (requestIbi s).fires = s.fires := by rw [requestIbi_eq]
@[simp] theorem requestIbi_mort : (requestIbi s).mort = s.mort := by rw [requestIbi_eq]
@[simp] theorem requestIbi_gBind : (requestIbi s).gBind = s.gBind := by rw [requestIbi_eq]
@[simp] theorem requestIbi_gStage : (requestIbi s).gStage = s.gStage := by rw [requestIbi_eq]
@[simp] theorem requestIbi_gWait : (requestIbi s).gWait = s.gWait := by rw [requestIbi_eq]
@[simp] theorem requestIbi_caps : (requestIbi s).caps = s.caps := by rw [requestIbi_eq]
@[simp] theorem requestIbi_ports : (requestIbi s).ports = s.ports := by rw [requestIbi_eq]
@[simp] theorem requestIbi_pantry : (requestIbi s).pantry = s.pantry := by rw [requestIbi_eq]
@[simp] theorem requestIbi_preqs : (requestIbi s).preqs = s.preqs := by rw [requestIbi_eq]
@[simp] theorem requestIbi_preqNo : (requestIbi s).preqNo = s.preqNo := by rw [requestIbi_eq]
@[simp] theorem requestIbi_retired : (requestIbi s).retired = s.retired := by rw [requestIbi_eq]
@[simp] theorem requestIbi_evac : (requestIbi s).evac = s.evac := by rw [requestIbi_eq]
@[simp] theorem requestIbi_retWait : (requestIbi s).retWait = s.retWait := by rw [requestIbi_eq]
@[simp] theorem requestIbi_wdrawn : (requestIbi s).wdrawn = s.wdrawn := by rw [requestIbi_eq]
@[simp] theorem requestIbi_marked : (requestIbi s).marked = s.marked := by rw [requestIbi_eq]
@[simp] theorem requestIbi_pbad : (requestIbi s).pbad = s.pbad := by rw [requestIbi_eq]
@[simp] theorem requestIbi_swaps : (requestIbi s).swaps = s.swaps := by rw [requestIbi_eq]
@[simp] theorem requestIbi_lmsgs : (requestIbi s).lmsgs = s.lmsgs := by rw [requestIbi_eq]
@[simp] theorem requestIbi_laneSec : (requestIbi s).laneSec = s.laneSec := by rw [requestIbi_eq]
@[simp] theorem requestIbi_rports : (requestIbi s).rports = s.rports := by rw [requestIbi_eq]
@[simp] theorem requestIbi_hports : (requestIbi s).hports = s.hports := by rw [requestIbi_eq]
@[simp] theorem requestIbi_frags : (requestIbi s).frags = s.frags := by rw [requestIbi_eq]
@[simp] theorem requestIbi_inbox : (requestIbi s).inbox = s.inbox := by rw [requestIbi_eq]
@[simp] theorem requestIbi_trigSeen : (requestIbi s).trigSeen = s.trigSeen := by rw [requestIbi_eq]
@[simp] theorem requestIbi_tbusQ : (requestIbi s).tbusQ = s.tbusQ := by rw [requestIbi_eq]
@[simp] theorem requestIbi_tbusAt : (requestIbi s).tbusAt = s.tbusAt := by rw [requestIbi_eq]
@[simp] theorem requestIbi_tseq : (requestIbi s).tseq = s.tseq := by rw [requestIbi_eq]
@[simp] theorem requestIbi_slaves : (requestIbi s).slaves = s.slaves := by rw [requestIbi_eq]
@[simp] theorem requestIbi_align : (requestIbi s).align = s.align := by rw [requestIbi_eq]
@[simp] theorem requestIbi_rxqs : (requestIbi s).rxqs = s.rxqs := by rw [requestIbi_eq]
@[simp] theorem requestIbi_rxqPos : (requestIbi s).rxqPos = s.rxqPos := by rw [requestIbi_eq]
@[simp] theorem requestIbi_seqIds : (requestIbi s).seqIds = s.seqIds := by rw [requestIbi_eq]
@[simp] theorem requestIbi_owesHeader : (requestIbi s).owesHeader = s.owesHeader := by rw [requestIbi_eq]
@[simp] theorem requestIbi_cals : (requestIbi s).cals = s.cals := by rw [requestIbi_eq]
@[simp] theorem requestIbi_calNo : (requestIbi s).calNo = s.calNo := by rw [requestIbi_eq]
@[simp] theorem requestIbi_calWin : (requestIbi s).calWin = s.calWin := by rw [requestIbi_eq]
@[simp] theorem requestIbi_dacTrims : (requestIbi s).dacTrims = s.dacTrims := by rw [requestIbi_eq]
@[simp] theorem requestIbi_trace : (requestIbi s).trace = s.trace := by rw [requestIbi_eq]
@[simp] theorem requestIbi_mon : (requestIbi s).mon = s.mon := by rw [requestIbi_eq]
@[simp] theorem requestIbi_therm : (requestIbi s).therm = s.therm := by rw [requestIbi_eq]
@[simp] theorem requestIbi_shed : (requestIbi s).shed = s.shed := by rw [requestIbi_eq]
@[simp] theorem requestIbi_evLog : (requestIbi s).evLog = s.evLog := by rw [requestIbi_eq]
@[simp] theorem requestIbi_logSeq : (requestIbi s).logSeq = s.logSeq := by rw [requestIbi_eq]
@[simp] theorem requestIbi_spareMap : (requestIbi s).spareMap = s.spareMap := by rw [requestIbi_eq]
@[simp] theorem requestIbi_wears : (requestIbi s).wears = s.wears := by rw [requestIbi_eq]
@[simp] theorem requestIbi_subs : (requestIbi s).subs = s.subs := by rw [requestIbi_eq]
@[simp] theorem requestIbi_returns : (requestIbi s).returns = s.returns := by rw [requestIbi_eq]
@[simp] theorem requestIbi_rdata : (requestIbi s).rdata = s.rdata := by rw [requestIbi_eq]
@[simp] theorem requestIbi_outbox : (requestIbi s).outbox = s.outbox := by rw [requestIbi_eq]
@[simp] theorem requestIbi_free : (requestIbi s).free = s.free := by rw [requestIbi_eq]
@[simp] theorem requestIbi_pending : (requestIbi s).pending = s.pending := by rw [requestIbi_eq]
@[simp] theorem requestIbi_lines : (requestIbi s).lines = s.lines := by rw [requestIbi_eq]
@[simp] theorem requestIbi_graphBad : (requestIbi s).graphBad = s.graphBad := by rw [requestIbi_eq]
@[simp] theorem requestIbi_mapOld : (requestIbi s).mapOld = s.mapOld := by rw [requestIbi_eq]
@[simp] theorem requestIbi_txWait : (requestIbi s).txWait = s.txWait := by rw [requestIbi_eq]
@[simp] theorem requestIbi_softRows : (requestIbi s).softRows = s.softRows := by rw [requestIbi_eq]
@[simp] theorem requestIbi_tick : (requestIbi s).tick = s.tick := by rw [requestIbi_eq]
@[simp] theorem requestIbi_later : (requestIbi s).later = s.later := by rw [requestIbi_eq]
@[simp] theorem requestIbi_iqWords : (requestIbi s).iqWords = s.iqWords := by rw [requestIbi_eq]
@[simp] theorem requestIbi_iqSent : (requestIbi s).iqSent = s.iqSent := by rw [requestIbi_eq]
@[simp] theorem requestIbi_ladleJobs : (requestIbi s).ladleJobs = s.ladleJobs := by rw [requestIbi_eq]
@[simp] theorem requestIbi_fills : (requestIbi s).fills = s.fills := by rw [requestIbi_eq]
@[simp] theorem requestIbi_pzero : (requestIbi s).pzero = s.pzero := by rw [requestIbi_eq]
@[simp] theorem requestIbi_rows : (requestIbi s).rows = s.rows := by rw [requestIbi_eq]
@[simp] theorem requestIbi_refilled : (requestIbi s).refilled = s.refilled := by rw [requestIbi_eq]
@[simp] theorem requestIbi_trainSlots : (requestIbi s).trainSlots = s.trainSlots := by rw [requestIbi_eq]
@[simp] theorem requestIbi_wfreed : (requestIbi s).wfreed = s.wfreed := by rw [requestIbi_eq]
@[simp] theorem requestIbi_corrs : (requestIbi s).corrs = s.corrs := by rw [requestIbi_eq]
@[simp] theorem requestIbi_fecs : (requestIbi s).fecs = s.fecs := by rw [requestIbi_eq]
@[simp] theorem requestIbi_prbsFrom : (requestIbi s).prbsFrom = s.prbsFrom := by rw [requestIbi_eq]
@[simp] theorem requestIbi_cmpFrom : (requestIbi s).cmpFrom = s.cmpFrom := by rw [requestIbi_eq]
@[simp] theorem requestIbi_calPlays : (requestIbi s).calPlays = s.calPlays := by rw [requestIbi_eq]

theorem notePending_eq (pg : Nat) (b a : State) :
    notePending pg b a = { a with i3c := (notePending pg b a).i3c } := by
  unfold notePending
  split
  · rw [requestIbi_eq]
  · rfl

/-- Raising an event writes its register bit, notes it for the tick and may request an interrupt, nothing else. -/
theorem raiseEvt_eq (pt : PT) (n bit : Nat) (s : State) : raiseEvt pt n bit s =
    { wr s pt n 0x010 bit bit 1 with i3c := (raiseEvt pt n bit s).i3c, tick := (raiseEvt pt n bit s).tick } := by
  unfold raiseEvt
  rw [notePending_eq, raiseBit_eq]

theorem raiseFault_eq (pt : PT) (n bit : Nat) (s : State) : raiseFault pt n bit s =
    { wr s pt n 0x018 bit bit 1 with i3c := (raiseFault pt n bit s).i3c, tick := (raiseFault pt n bit s).tick } := by
  unfold raiseFault
  rw [notePending_eq, raiseBit_eq]

@[simp] theorem raiseEvt_regs (pt : PT) (n bit : Nat) : (raiseEvt pt n bit s).regs = (wr s pt n 0x010 bit bit 1).regs := by
  rw [raiseEvt_eq]
@[simp] theorem raiseFault_regs (pt : PT) (n bit : Nat) :
    (raiseFault pt n bit s).regs = (wr s pt n 0x018 bit bit 1).regs := by rw [raiseFault_eq]
@[simp] theorem raiseEvt_held (pt : PT) (n bit : Nat) : (raiseEvt pt n bit s).held = s.held := by rw [raiseEvt_eq]; rfl
@[simp] theorem raiseEvt_wlatch (pt : PT) (n bit : Nat) : (raiseEvt pt n bit s).wlatch = s.wlatch := by rw [raiseEvt_eq]; rfl
@[simp] theorem raiseEvt_rlatch (pt : PT) (n bit : Nat) : (raiseEvt pt n bit s).rlatch = s.rlatch := by rw [raiseEvt_eq]; rfl
@[simp] theorem raiseEvt_clk (pt : PT) (n bit : Nat) : (raiseEvt pt n bit s).clk = s.clk := by rw [raiseEvt_eq]; rfl
@[simp] theorem raiseEvt_boot (pt : PT) (n bit : Nat) : (raiseEvt pt n bit s).boot = s.boot := by rw [raiseEvt_eq]; rfl
@[simp] theorem raiseEvt_pins (pt : PT) (n bit : Nat) : (raiseEvt pt n bit s).pins = s.pins := by rw [raiseEvt_eq]; rfl
@[simp] theorem raiseEvt_resetting (pt : PT) (n bit : Nat) : (raiseEvt pt n bit s).resetting = s.resetting := by rw [raiseEvt_eq]; rfl
@[simp] theorem raiseEvt_enWait (pt : PT) (n bit : Nat) : (raiseEvt pt n bit s).enWait = s.enWait := by rw [raiseEvt_eq]; rfl
@[simp] theorem raiseEvt_stores (pt : PT) (n bit : Nat) : (raiseEvt pt n bit s).stores = s.stores := by rw [raiseEvt_eq]; rfl
@[simp] theorem raiseEvt_staging (pt : PT) (n bit : Nat) : (raiseEvt pt n bit s).staging = s.staging := by rw [raiseEvt_eq]; rfl
@[simp] theorem raiseEvt_accepted (pt : PT) (n bit : Nat) : (raiseEvt pt n bit s).accepted = s.accepted := by rw [raiseEvt_eq]; rfl
@[simp] theorem raiseEvt_committed (pt : PT) (n bit : Nat) : (raiseEvt pt n bit s).committed = s.committed := by rw [raiseEvt_eq]; rfl
@[simp] theorem raiseEvt_unchecked (pt : PT) (n bit : Nat) : (raiseEvt pt n bit s).unchecked = s.unchecked := by rw [raiseEvt_eq]; rfl
@[simp] theorem raiseEvt_vimg (pt : PT) (n bit : Nat) : (raiseEvt pt n bit s).vimg = s.vimg := by rw [raiseEvt_eq]; rfl
@[simp] theorem raiseEvt_groups (pt : PT) (n bit : Nat) : (raiseEvt pt n bit s).groups = s.groups := by rw [raiseEvt_eq]; rfl
@[simp] theorem raiseEvt_seqs (pt : PT) (n bit : Nat) : (raiseEvt pt n bit s).seqs = s.seqs := by rw [raiseEvt_eq]; rfl
@[simp] theorem raiseEvt_tones (pt : PT) (n bit : Nat) : (raiseEvt pt n bit s).tones = s.tones := by rw [raiseEvt_eq]; rfl
@[simp] theorem raiseEvt_strms (pt : PT) (n bit : Nat) : (raiseEvt pt n bit s).strms = s.strms := by rw [raiseEvt_eq]; rfl
@[simp] theorem raiseEvt_outs (pt : PT) (n bit : Nat) : (raiseEvt pt n bit s).outs = s.outs := by rw [raiseEvt_eq]; rfl
@[simp] theorem raiseEvt_fluxes (pt : PT) (n bit : Nat) : (raiseEvt pt n bit s).fluxes = s.fluxes := by rw [raiseEvt_eq]; rfl
@[simp] theorem raiseEvt_seen (pt : PT) (n bit : Nat) : (raiseEvt pt n bit s).seen = s.seen := by rw [raiseEvt_eq]; rfl
@[simp] theorem raiseEvt_items (pt : PT) (n bit : Nat) : (raiseEvt pt n bit s).items = s.items := by rw [raiseEvt_eq]; rfl
@[simp] theorem raiseEvt_demods (pt : PT) (n bit : Nat) : (raiseEvt pt n bit s).demods = s.demods := by rw [raiseEvt_eq]; rfl
@[simp] theorem raiseEvt_rdis (pt : PT) (n bit : Nat) : (raiseEvt pt n bit s).rdis = s.rdis := by rw [raiseEvt_eq]; rfl
@[simp] theorem raiseEvt_txq (pt : PT) (n bit : Nat) : (raiseEvt pt n bit s).txq = s.txq := by rw [raiseEvt_eq]; rfl
@[simp] theorem raiseEvt_slots (pt : PT) (n bit : Nat) : (raiseEvt pt n bit s).slots = s.slots := by rw [raiseEvt_eq]; rfl
@[simp] theorem raiseEvt_dchs (pt : PT) (n bit : Nat) : (raiseEvt pt n bit s).dchs = s.dchs := by rw [raiseEvt_eq]; rfl
@[simp] theorem raiseEvt_provArms (pt : PT) (n bit : Nat) : (raiseEvt pt n bit s).provArms = s.provArms := by rw [raiseEvt_eq]; rfl
@[simp] theorem raiseEvt_clrEntries (pt : PT) (n bit : Nat) : (raiseEvt pt n bit s).clrEntries = s.clrEntries := by rw [raiseEvt_eq]; rfl
@[simp] theorem raiseEvt_fires (pt : PT) (n bit : Nat) : (raiseEvt pt n bit s).fires = s.fires := by rw [raiseEvt_eq]; rfl
@[simp] theorem raiseEvt_mort (pt : PT) (n bit : Nat) : (raiseEvt pt n bit s).mort = s.mort := by rw [raiseEvt_eq]; rfl
@[simp] theorem raiseEvt_gBind (pt : PT) (n bit : Nat) : (raiseEvt pt n bit s).gBind = s.gBind := by rw [raiseEvt_eq]; rfl
@[simp] theorem raiseEvt_gStage (pt : PT) (n bit : Nat) : (raiseEvt pt n bit s).gStage = s.gStage := by rw [raiseEvt_eq]; rfl
@[simp] theorem raiseEvt_gWait (pt : PT) (n bit : Nat) : (raiseEvt pt n bit s).gWait = s.gWait := by rw [raiseEvt_eq]; rfl
@[simp] theorem raiseEvt_caps (pt : PT) (n bit : Nat) : (raiseEvt pt n bit s).caps = s.caps := by rw [raiseEvt_eq]; rfl
@[simp] theorem raiseEvt_ports (pt : PT) (n bit : Nat) : (raiseEvt pt n bit s).ports = s.ports := by rw [raiseEvt_eq]; rfl
@[simp] theorem raiseEvt_pantry (pt : PT) (n bit : Nat) : (raiseEvt pt n bit s).pantry = s.pantry := by rw [raiseEvt_eq]; rfl
@[simp] theorem raiseEvt_preqs (pt : PT) (n bit : Nat) : (raiseEvt pt n bit s).preqs = s.preqs := by rw [raiseEvt_eq]; rfl
@[simp] theorem raiseEvt_preqNo (pt : PT) (n bit : Nat) : (raiseEvt pt n bit s).preqNo = s.preqNo := by rw [raiseEvt_eq]; rfl
@[simp] theorem raiseEvt_retired (pt : PT) (n bit : Nat) : (raiseEvt pt n bit s).retired = s.retired := by rw [raiseEvt_eq]; rfl
@[simp] theorem raiseEvt_evac (pt : PT) (n bit : Nat) : (raiseEvt pt n bit s).evac = s.evac := by rw [raiseEvt_eq]; rfl
@[simp] theorem raiseEvt_retWait (pt : PT) (n bit : Nat) : (raiseEvt pt n bit s).retWait = s.retWait := by rw [raiseEvt_eq]; rfl
@[simp] theorem raiseEvt_wdrawn (pt : PT) (n bit : Nat) : (raiseEvt pt n bit s).wdrawn = s.wdrawn := by rw [raiseEvt_eq]; rfl
@[simp] theorem raiseEvt_marked (pt : PT) (n bit : Nat) : (raiseEvt pt n bit s).marked = s.marked := by rw [raiseEvt_eq]; rfl
@[simp] theorem raiseEvt_pbad (pt : PT) (n bit : Nat) : (raiseEvt pt n bit s).pbad = s.pbad := by rw [raiseEvt_eq]; rfl
@[simp] theorem raiseEvt_swaps (pt : PT) (n bit : Nat) : (raiseEvt pt n bit s).swaps = s.swaps := by rw [raiseEvt_eq]; rfl
@[simp] theorem raiseEvt_lmsgs (pt : PT) (n bit : Nat) : (raiseEvt pt n bit s).lmsgs = s.lmsgs := by rw [raiseEvt_eq]; rfl
@[simp] theorem raiseEvt_laneSec (pt : PT) (n bit : Nat) : (raiseEvt pt n bit s).laneSec = s.laneSec := by rw [raiseEvt_eq]; rfl
@[simp] theorem raiseEvt_rports (pt : PT) (n bit : Nat) : (raiseEvt pt n bit s).rports = s.rports := by rw [raiseEvt_eq]; rfl
@[simp] theorem raiseEvt_hports (pt : PT) (n bit : Nat) : (raiseEvt pt n bit s).hports = s.hports := by rw [raiseEvt_eq]; rfl
@[simp] theorem raiseEvt_frags (pt : PT) (n bit : Nat) : (raiseEvt pt n bit s).frags = s.frags := by rw [raiseEvt_eq]; rfl
@[simp] theorem raiseEvt_inbox (pt : PT) (n bit : Nat) : (raiseEvt pt n bit s).inbox = s.inbox := by rw [raiseEvt_eq]; rfl
@[simp] theorem raiseEvt_trigSeen (pt : PT) (n bit : Nat) : (raiseEvt pt n bit s).trigSeen = s.trigSeen := by rw [raiseEvt_eq]; rfl
@[simp] theorem raiseEvt_tbusQ (pt : PT) (n bit : Nat) : (raiseEvt pt n bit s).tbusQ = s.tbusQ := by rw [raiseEvt_eq]; rfl
@[simp] theorem raiseEvt_tbusAt (pt : PT) (n bit : Nat) : (raiseEvt pt n bit s).tbusAt = s.tbusAt := by rw [raiseEvt_eq]; rfl
@[simp] theorem raiseEvt_tseq (pt : PT) (n bit : Nat) : (raiseEvt pt n bit s).tseq = s.tseq := by rw [raiseEvt_eq]; rfl
@[simp] theorem raiseEvt_slaves (pt : PT) (n bit : Nat) : (raiseEvt pt n bit s).slaves = s.slaves := by rw [raiseEvt_eq]; rfl
@[simp] theorem raiseEvt_align (pt : PT) (n bit : Nat) : (raiseEvt pt n bit s).align = s.align := by rw [raiseEvt_eq]; rfl
@[simp] theorem raiseEvt_rxqs (pt : PT) (n bit : Nat) : (raiseEvt pt n bit s).rxqs = s.rxqs := by rw [raiseEvt_eq]; rfl
@[simp] theorem raiseEvt_rxqPos (pt : PT) (n bit : Nat) : (raiseEvt pt n bit s).rxqPos = s.rxqPos := by rw [raiseEvt_eq]; rfl
@[simp] theorem raiseEvt_seqIds (pt : PT) (n bit : Nat) : (raiseEvt pt n bit s).seqIds = s.seqIds := by rw [raiseEvt_eq]; rfl
@[simp] theorem raiseEvt_owesHeader (pt : PT) (n bit : Nat) : (raiseEvt pt n bit s).owesHeader = s.owesHeader := by rw [raiseEvt_eq]; rfl
@[simp] theorem raiseEvt_cals (pt : PT) (n bit : Nat) : (raiseEvt pt n bit s).cals = s.cals := by rw [raiseEvt_eq]; rfl
@[simp] theorem raiseEvt_calNo (pt : PT) (n bit : Nat) : (raiseEvt pt n bit s).calNo = s.calNo := by rw [raiseEvt_eq]; rfl
@[simp] theorem raiseEvt_calWin (pt : PT) (n bit : Nat) : (raiseEvt pt n bit s).calWin = s.calWin := by rw [raiseEvt_eq]; rfl
@[simp] theorem raiseEvt_dacTrims (pt : PT) (n bit : Nat) : (raiseEvt pt n bit s).dacTrims = s.dacTrims := by rw [raiseEvt_eq]; rfl
@[simp] theorem raiseEvt_trace (pt : PT) (n bit : Nat) : (raiseEvt pt n bit s).trace = s.trace := by rw [raiseEvt_eq]; rfl
@[simp] theorem raiseEvt_mon (pt : PT) (n bit : Nat) : (raiseEvt pt n bit s).mon = s.mon := by rw [raiseEvt_eq]; rfl
@[simp] theorem raiseEvt_therm (pt : PT) (n bit : Nat) : (raiseEvt pt n bit s).therm = s.therm := by rw [raiseEvt_eq]; rfl
@[simp] theorem raiseEvt_shed (pt : PT) (n bit : Nat) : (raiseEvt pt n bit s).shed = s.shed := by rw [raiseEvt_eq]; rfl
@[simp] theorem raiseEvt_evLog (pt : PT) (n bit : Nat) : (raiseEvt pt n bit s).evLog = s.evLog := by rw [raiseEvt_eq]; rfl
@[simp] theorem raiseEvt_logSeq (pt : PT) (n bit : Nat) : (raiseEvt pt n bit s).logSeq = s.logSeq := by rw [raiseEvt_eq]; rfl
@[simp] theorem raiseEvt_spareMap (pt : PT) (n bit : Nat) : (raiseEvt pt n bit s).spareMap = s.spareMap := by rw [raiseEvt_eq]; rfl
@[simp] theorem raiseEvt_wears (pt : PT) (n bit : Nat) : (raiseEvt pt n bit s).wears = s.wears := by rw [raiseEvt_eq]; rfl
@[simp] theorem raiseEvt_subs (pt : PT) (n bit : Nat) : (raiseEvt pt n bit s).subs = s.subs := by rw [raiseEvt_eq]; rfl
@[simp] theorem raiseEvt_returns (pt : PT) (n bit : Nat) : (raiseEvt pt n bit s).returns = s.returns := by rw [raiseEvt_eq]; rfl
@[simp] theorem raiseEvt_rdata (pt : PT) (n bit : Nat) : (raiseEvt pt n bit s).rdata = s.rdata := by rw [raiseEvt_eq]; rfl
@[simp] theorem raiseEvt_outbox (pt : PT) (n bit : Nat) : (raiseEvt pt n bit s).outbox = s.outbox := by rw [raiseEvt_eq]; rfl
@[simp] theorem raiseEvt_free (pt : PT) (n bit : Nat) : (raiseEvt pt n bit s).free = s.free := by rw [raiseEvt_eq]; rfl
@[simp] theorem raiseEvt_pending (pt : PT) (n bit : Nat) : (raiseEvt pt n bit s).pending = s.pending := by rw [raiseEvt_eq]; rfl
@[simp] theorem raiseEvt_lines (pt : PT) (n bit : Nat) : (raiseEvt pt n bit s).lines = s.lines := by rw [raiseEvt_eq]; rfl
@[simp] theorem raiseEvt_graphBad (pt : PT) (n bit : Nat) : (raiseEvt pt n bit s).graphBad = s.graphBad := by rw [raiseEvt_eq]; rfl
@[simp] theorem raiseEvt_mapOld (pt : PT) (n bit : Nat) : (raiseEvt pt n bit s).mapOld = s.mapOld := by rw [raiseEvt_eq]; rfl
@[simp] theorem raiseEvt_txWait (pt : PT) (n bit : Nat) : (raiseEvt pt n bit s).txWait = s.txWait := by rw [raiseEvt_eq]; rfl
@[simp] theorem raiseEvt_softRows (pt : PT) (n bit : Nat) : (raiseEvt pt n bit s).softRows = s.softRows := by rw [raiseEvt_eq]; rfl
@[simp] theorem raiseEvt_later (pt : PT) (n bit : Nat) : (raiseEvt pt n bit s).later = s.later := by rw [raiseEvt_eq]; rfl
@[simp] theorem raiseEvt_iqWords (pt : PT) (n bit : Nat) : (raiseEvt pt n bit s).iqWords = s.iqWords := by rw [raiseEvt_eq]; rfl
@[simp] theorem raiseEvt_iqSent (pt : PT) (n bit : Nat) : (raiseEvt pt n bit s).iqSent = s.iqSent := by rw [raiseEvt_eq]; rfl
@[simp] theorem raiseEvt_ladleJobs (pt : PT) (n bit : Nat) : (raiseEvt pt n bit s).ladleJobs = s.ladleJobs := by rw [raiseEvt_eq]; rfl
@[simp] theorem raiseEvt_fills (pt : PT) (n bit : Nat) : (raiseEvt pt n bit s).fills = s.fills := by rw [raiseEvt_eq]; rfl
@[simp] theorem raiseEvt_pzero (pt : PT) (n bit : Nat) : (raiseEvt pt n bit s).pzero = s.pzero := by rw [raiseEvt_eq]; rfl
@[simp] theorem raiseEvt_rows (pt : PT) (n bit : Nat) : (raiseEvt pt n bit s).rows = s.rows := by rw [raiseEvt_eq]; rfl
@[simp] theorem raiseEvt_refilled (pt : PT) (n bit : Nat) : (raiseEvt pt n bit s).refilled = s.refilled := by rw [raiseEvt_eq]; rfl
@[simp] theorem raiseEvt_trainSlots (pt : PT) (n bit : Nat) : (raiseEvt pt n bit s).trainSlots = s.trainSlots := by rw [raiseEvt_eq]; rfl
@[simp] theorem raiseEvt_wfreed (pt : PT) (n bit : Nat) : (raiseEvt pt n bit s).wfreed = s.wfreed := by rw [raiseEvt_eq]; rfl
@[simp] theorem raiseEvt_corrs (pt : PT) (n bit : Nat) : (raiseEvt pt n bit s).corrs = s.corrs := by rw [raiseEvt_eq]; rfl
@[simp] theorem raiseEvt_fecs (pt : PT) (n bit : Nat) : (raiseEvt pt n bit s).fecs = s.fecs := by rw [raiseEvt_eq]; rfl
@[simp] theorem raiseEvt_prbsFrom (pt : PT) (n bit : Nat) : (raiseEvt pt n bit s).prbsFrom = s.prbsFrom := by rw [raiseEvt_eq]; rfl
@[simp] theorem raiseEvt_cmpFrom (pt : PT) (n bit : Nat) : (raiseEvt pt n bit s).cmpFrom = s.cmpFrom := by rw [raiseEvt_eq]; rfl
@[simp] theorem raiseEvt_calPlays (pt : PT) (n bit : Nat) : (raiseEvt pt n bit s).calPlays = s.calPlays := by rw [raiseEvt_eq]; rfl

@[simp] theorem raiseFault_held (pt : PT) (n bit : Nat) : (raiseFault pt n bit s).held = s.held := by rw [raiseFault_eq]; rfl
@[simp] theorem raiseFault_wlatch (pt : PT) (n bit : Nat) : (raiseFault pt n bit s).wlatch = s.wlatch := by rw [raiseFault_eq]; rfl
@[simp] theorem raiseFault_rlatch (pt : PT) (n bit : Nat) : (raiseFault pt n bit s).rlatch = s.rlatch := by rw [raiseFault_eq]; rfl
@[simp] theorem raiseFault_clk (pt : PT) (n bit : Nat) : (raiseFault pt n bit s).clk = s.clk := by rw [raiseFault_eq]; rfl
@[simp] theorem raiseFault_boot (pt : PT) (n bit : Nat) : (raiseFault pt n bit s).boot = s.boot := by rw [raiseFault_eq]; rfl
@[simp] theorem raiseFault_pins (pt : PT) (n bit : Nat) : (raiseFault pt n bit s).pins = s.pins := by rw [raiseFault_eq]; rfl
@[simp] theorem raiseFault_resetting (pt : PT) (n bit : Nat) : (raiseFault pt n bit s).resetting = s.resetting := by rw [raiseFault_eq]; rfl
@[simp] theorem raiseFault_enWait (pt : PT) (n bit : Nat) : (raiseFault pt n bit s).enWait = s.enWait := by rw [raiseFault_eq]; rfl
@[simp] theorem raiseFault_stores (pt : PT) (n bit : Nat) : (raiseFault pt n bit s).stores = s.stores := by rw [raiseFault_eq]; rfl
@[simp] theorem raiseFault_staging (pt : PT) (n bit : Nat) : (raiseFault pt n bit s).staging = s.staging := by rw [raiseFault_eq]; rfl
@[simp] theorem raiseFault_accepted (pt : PT) (n bit : Nat) : (raiseFault pt n bit s).accepted = s.accepted := by rw [raiseFault_eq]; rfl
@[simp] theorem raiseFault_committed (pt : PT) (n bit : Nat) : (raiseFault pt n bit s).committed = s.committed := by rw [raiseFault_eq]; rfl
@[simp] theorem raiseFault_unchecked (pt : PT) (n bit : Nat) : (raiseFault pt n bit s).unchecked = s.unchecked := by rw [raiseFault_eq]; rfl
@[simp] theorem raiseFault_vimg (pt : PT) (n bit : Nat) : (raiseFault pt n bit s).vimg = s.vimg := by rw [raiseFault_eq]; rfl
@[simp] theorem raiseFault_groups (pt : PT) (n bit : Nat) : (raiseFault pt n bit s).groups = s.groups := by rw [raiseFault_eq]; rfl
@[simp] theorem raiseFault_seqs (pt : PT) (n bit : Nat) : (raiseFault pt n bit s).seqs = s.seqs := by rw [raiseFault_eq]; rfl
@[simp] theorem raiseFault_tones (pt : PT) (n bit : Nat) : (raiseFault pt n bit s).tones = s.tones := by rw [raiseFault_eq]; rfl
@[simp] theorem raiseFault_strms (pt : PT) (n bit : Nat) : (raiseFault pt n bit s).strms = s.strms := by rw [raiseFault_eq]; rfl
@[simp] theorem raiseFault_outs (pt : PT) (n bit : Nat) : (raiseFault pt n bit s).outs = s.outs := by rw [raiseFault_eq]; rfl
@[simp] theorem raiseFault_fluxes (pt : PT) (n bit : Nat) : (raiseFault pt n bit s).fluxes = s.fluxes := by rw [raiseFault_eq]; rfl
@[simp] theorem raiseFault_seen (pt : PT) (n bit : Nat) : (raiseFault pt n bit s).seen = s.seen := by rw [raiseFault_eq]; rfl
@[simp] theorem raiseFault_items (pt : PT) (n bit : Nat) : (raiseFault pt n bit s).items = s.items := by rw [raiseFault_eq]; rfl
@[simp] theorem raiseFault_demods (pt : PT) (n bit : Nat) : (raiseFault pt n bit s).demods = s.demods := by rw [raiseFault_eq]; rfl
@[simp] theorem raiseFault_rdis (pt : PT) (n bit : Nat) : (raiseFault pt n bit s).rdis = s.rdis := by rw [raiseFault_eq]; rfl
@[simp] theorem raiseFault_txq (pt : PT) (n bit : Nat) : (raiseFault pt n bit s).txq = s.txq := by rw [raiseFault_eq]; rfl
@[simp] theorem raiseFault_slots (pt : PT) (n bit : Nat) : (raiseFault pt n bit s).slots = s.slots := by rw [raiseFault_eq]; rfl
@[simp] theorem raiseFault_dchs (pt : PT) (n bit : Nat) : (raiseFault pt n bit s).dchs = s.dchs := by rw [raiseFault_eq]; rfl
@[simp] theorem raiseFault_provArms (pt : PT) (n bit : Nat) : (raiseFault pt n bit s).provArms = s.provArms := by rw [raiseFault_eq]; rfl
@[simp] theorem raiseFault_clrEntries (pt : PT) (n bit : Nat) : (raiseFault pt n bit s).clrEntries = s.clrEntries := by rw [raiseFault_eq]; rfl
@[simp] theorem raiseFault_fires (pt : PT) (n bit : Nat) : (raiseFault pt n bit s).fires = s.fires := by rw [raiseFault_eq]; rfl
@[simp] theorem raiseFault_mort (pt : PT) (n bit : Nat) : (raiseFault pt n bit s).mort = s.mort := by rw [raiseFault_eq]; rfl
@[simp] theorem raiseFault_gBind (pt : PT) (n bit : Nat) : (raiseFault pt n bit s).gBind = s.gBind := by rw [raiseFault_eq]; rfl
@[simp] theorem raiseFault_gStage (pt : PT) (n bit : Nat) : (raiseFault pt n bit s).gStage = s.gStage := by rw [raiseFault_eq]; rfl
@[simp] theorem raiseFault_gWait (pt : PT) (n bit : Nat) : (raiseFault pt n bit s).gWait = s.gWait := by rw [raiseFault_eq]; rfl
@[simp] theorem raiseFault_caps (pt : PT) (n bit : Nat) : (raiseFault pt n bit s).caps = s.caps := by rw [raiseFault_eq]; rfl
@[simp] theorem raiseFault_ports (pt : PT) (n bit : Nat) : (raiseFault pt n bit s).ports = s.ports := by rw [raiseFault_eq]; rfl
@[simp] theorem raiseFault_pantry (pt : PT) (n bit : Nat) : (raiseFault pt n bit s).pantry = s.pantry := by rw [raiseFault_eq]; rfl
@[simp] theorem raiseFault_preqs (pt : PT) (n bit : Nat) : (raiseFault pt n bit s).preqs = s.preqs := by rw [raiseFault_eq]; rfl
@[simp] theorem raiseFault_preqNo (pt : PT) (n bit : Nat) : (raiseFault pt n bit s).preqNo = s.preqNo := by rw [raiseFault_eq]; rfl
@[simp] theorem raiseFault_retired (pt : PT) (n bit : Nat) : (raiseFault pt n bit s).retired = s.retired := by rw [raiseFault_eq]; rfl
@[simp] theorem raiseFault_evac (pt : PT) (n bit : Nat) : (raiseFault pt n bit s).evac = s.evac := by rw [raiseFault_eq]; rfl
@[simp] theorem raiseFault_retWait (pt : PT) (n bit : Nat) : (raiseFault pt n bit s).retWait = s.retWait := by rw [raiseFault_eq]; rfl
@[simp] theorem raiseFault_wdrawn (pt : PT) (n bit : Nat) : (raiseFault pt n bit s).wdrawn = s.wdrawn := by rw [raiseFault_eq]; rfl
@[simp] theorem raiseFault_marked (pt : PT) (n bit : Nat) : (raiseFault pt n bit s).marked = s.marked := by rw [raiseFault_eq]; rfl
@[simp] theorem raiseFault_pbad (pt : PT) (n bit : Nat) : (raiseFault pt n bit s).pbad = s.pbad := by rw [raiseFault_eq]; rfl
@[simp] theorem raiseFault_swaps (pt : PT) (n bit : Nat) : (raiseFault pt n bit s).swaps = s.swaps := by rw [raiseFault_eq]; rfl
@[simp] theorem raiseFault_lmsgs (pt : PT) (n bit : Nat) : (raiseFault pt n bit s).lmsgs = s.lmsgs := by rw [raiseFault_eq]; rfl
@[simp] theorem raiseFault_laneSec (pt : PT) (n bit : Nat) : (raiseFault pt n bit s).laneSec = s.laneSec := by rw [raiseFault_eq]; rfl
@[simp] theorem raiseFault_rports (pt : PT) (n bit : Nat) : (raiseFault pt n bit s).rports = s.rports := by rw [raiseFault_eq]; rfl
@[simp] theorem raiseFault_hports (pt : PT) (n bit : Nat) : (raiseFault pt n bit s).hports = s.hports := by rw [raiseFault_eq]; rfl
@[simp] theorem raiseFault_frags (pt : PT) (n bit : Nat) : (raiseFault pt n bit s).frags = s.frags := by rw [raiseFault_eq]; rfl
@[simp] theorem raiseFault_inbox (pt : PT) (n bit : Nat) : (raiseFault pt n bit s).inbox = s.inbox := by rw [raiseFault_eq]; rfl
@[simp] theorem raiseFault_trigSeen (pt : PT) (n bit : Nat) : (raiseFault pt n bit s).trigSeen = s.trigSeen := by rw [raiseFault_eq]; rfl
@[simp] theorem raiseFault_tbusQ (pt : PT) (n bit : Nat) : (raiseFault pt n bit s).tbusQ = s.tbusQ := by rw [raiseFault_eq]; rfl
@[simp] theorem raiseFault_tbusAt (pt : PT) (n bit : Nat) : (raiseFault pt n bit s).tbusAt = s.tbusAt := by rw [raiseFault_eq]; rfl
@[simp] theorem raiseFault_tseq (pt : PT) (n bit : Nat) : (raiseFault pt n bit s).tseq = s.tseq := by rw [raiseFault_eq]; rfl
@[simp] theorem raiseFault_slaves (pt : PT) (n bit : Nat) : (raiseFault pt n bit s).slaves = s.slaves := by rw [raiseFault_eq]; rfl
@[simp] theorem raiseFault_align (pt : PT) (n bit : Nat) : (raiseFault pt n bit s).align = s.align := by rw [raiseFault_eq]; rfl
@[simp] theorem raiseFault_rxqs (pt : PT) (n bit : Nat) : (raiseFault pt n bit s).rxqs = s.rxqs := by rw [raiseFault_eq]; rfl
@[simp] theorem raiseFault_rxqPos (pt : PT) (n bit : Nat) : (raiseFault pt n bit s).rxqPos = s.rxqPos := by rw [raiseFault_eq]; rfl
@[simp] theorem raiseFault_seqIds (pt : PT) (n bit : Nat) : (raiseFault pt n bit s).seqIds = s.seqIds := by rw [raiseFault_eq]; rfl
@[simp] theorem raiseFault_owesHeader (pt : PT) (n bit : Nat) : (raiseFault pt n bit s).owesHeader = s.owesHeader := by rw [raiseFault_eq]; rfl
@[simp] theorem raiseFault_cals (pt : PT) (n bit : Nat) : (raiseFault pt n bit s).cals = s.cals := by rw [raiseFault_eq]; rfl
@[simp] theorem raiseFault_calNo (pt : PT) (n bit : Nat) : (raiseFault pt n bit s).calNo = s.calNo := by rw [raiseFault_eq]; rfl
@[simp] theorem raiseFault_calWin (pt : PT) (n bit : Nat) : (raiseFault pt n bit s).calWin = s.calWin := by rw [raiseFault_eq]; rfl
@[simp] theorem raiseFault_dacTrims (pt : PT) (n bit : Nat) : (raiseFault pt n bit s).dacTrims = s.dacTrims := by rw [raiseFault_eq]; rfl
@[simp] theorem raiseFault_trace (pt : PT) (n bit : Nat) : (raiseFault pt n bit s).trace = s.trace := by rw [raiseFault_eq]; rfl
@[simp] theorem raiseFault_mon (pt : PT) (n bit : Nat) : (raiseFault pt n bit s).mon = s.mon := by rw [raiseFault_eq]; rfl
@[simp] theorem raiseFault_therm (pt : PT) (n bit : Nat) : (raiseFault pt n bit s).therm = s.therm := by rw [raiseFault_eq]; rfl
@[simp] theorem raiseFault_shed (pt : PT) (n bit : Nat) : (raiseFault pt n bit s).shed = s.shed := by rw [raiseFault_eq]; rfl
@[simp] theorem raiseFault_evLog (pt : PT) (n bit : Nat) : (raiseFault pt n bit s).evLog = s.evLog := by rw [raiseFault_eq]; rfl
@[simp] theorem raiseFault_logSeq (pt : PT) (n bit : Nat) : (raiseFault pt n bit s).logSeq = s.logSeq := by rw [raiseFault_eq]; rfl
@[simp] theorem raiseFault_spareMap (pt : PT) (n bit : Nat) : (raiseFault pt n bit s).spareMap = s.spareMap := by rw [raiseFault_eq]; rfl
@[simp] theorem raiseFault_wears (pt : PT) (n bit : Nat) : (raiseFault pt n bit s).wears = s.wears := by rw [raiseFault_eq]; rfl
@[simp] theorem raiseFault_subs (pt : PT) (n bit : Nat) : (raiseFault pt n bit s).subs = s.subs := by rw [raiseFault_eq]; rfl
@[simp] theorem raiseFault_returns (pt : PT) (n bit : Nat) : (raiseFault pt n bit s).returns = s.returns := by rw [raiseFault_eq]; rfl
@[simp] theorem raiseFault_rdata (pt : PT) (n bit : Nat) : (raiseFault pt n bit s).rdata = s.rdata := by rw [raiseFault_eq]; rfl
@[simp] theorem raiseFault_outbox (pt : PT) (n bit : Nat) : (raiseFault pt n bit s).outbox = s.outbox := by rw [raiseFault_eq]; rfl
@[simp] theorem raiseFault_free (pt : PT) (n bit : Nat) : (raiseFault pt n bit s).free = s.free := by rw [raiseFault_eq]; rfl
@[simp] theorem raiseFault_pending (pt : PT) (n bit : Nat) : (raiseFault pt n bit s).pending = s.pending := by rw [raiseFault_eq]; rfl
@[simp] theorem raiseFault_lines (pt : PT) (n bit : Nat) : (raiseFault pt n bit s).lines = s.lines := by rw [raiseFault_eq]; rfl
@[simp] theorem raiseFault_graphBad (pt : PT) (n bit : Nat) : (raiseFault pt n bit s).graphBad = s.graphBad := by rw [raiseFault_eq]; rfl
@[simp] theorem raiseFault_mapOld (pt : PT) (n bit : Nat) : (raiseFault pt n bit s).mapOld = s.mapOld := by rw [raiseFault_eq]; rfl
@[simp] theorem raiseFault_txWait (pt : PT) (n bit : Nat) : (raiseFault pt n bit s).txWait = s.txWait := by rw [raiseFault_eq]; rfl
@[simp] theorem raiseFault_softRows (pt : PT) (n bit : Nat) : (raiseFault pt n bit s).softRows = s.softRows := by rw [raiseFault_eq]; rfl
@[simp] theorem raiseFault_later (pt : PT) (n bit : Nat) : (raiseFault pt n bit s).later = s.later := by rw [raiseFault_eq]; rfl
@[simp] theorem raiseFault_iqWords (pt : PT) (n bit : Nat) : (raiseFault pt n bit s).iqWords = s.iqWords := by rw [raiseFault_eq]; rfl
@[simp] theorem raiseFault_iqSent (pt : PT) (n bit : Nat) : (raiseFault pt n bit s).iqSent = s.iqSent := by rw [raiseFault_eq]; rfl
@[simp] theorem raiseFault_ladleJobs (pt : PT) (n bit : Nat) : (raiseFault pt n bit s).ladleJobs = s.ladleJobs := by rw [raiseFault_eq]; rfl
@[simp] theorem raiseFault_fills (pt : PT) (n bit : Nat) : (raiseFault pt n bit s).fills = s.fills := by rw [raiseFault_eq]; rfl
@[simp] theorem raiseFault_pzero (pt : PT) (n bit : Nat) : (raiseFault pt n bit s).pzero = s.pzero := by rw [raiseFault_eq]; rfl
@[simp] theorem raiseFault_rows (pt : PT) (n bit : Nat) : (raiseFault pt n bit s).rows = s.rows := by rw [raiseFault_eq]; rfl
@[simp] theorem raiseFault_refilled (pt : PT) (n bit : Nat) : (raiseFault pt n bit s).refilled = s.refilled := by rw [raiseFault_eq]; rfl
@[simp] theorem raiseFault_trainSlots (pt : PT) (n bit : Nat) : (raiseFault pt n bit s).trainSlots = s.trainSlots := by rw [raiseFault_eq]; rfl
@[simp] theorem raiseFault_wfreed (pt : PT) (n bit : Nat) : (raiseFault pt n bit s).wfreed = s.wfreed := by rw [raiseFault_eq]; rfl
@[simp] theorem raiseFault_corrs (pt : PT) (n bit : Nat) : (raiseFault pt n bit s).corrs = s.corrs := by rw [raiseFault_eq]; rfl
@[simp] theorem raiseFault_fecs (pt : PT) (n bit : Nat) : (raiseFault pt n bit s).fecs = s.fecs := by rw [raiseFault_eq]; rfl
@[simp] theorem raiseFault_prbsFrom (pt : PT) (n bit : Nat) : (raiseFault pt n bit s).prbsFrom = s.prbsFrom := by rw [raiseFault_eq]; rfl
@[simp] theorem raiseFault_cmpFrom (pt : PT) (n bit : Nat) : (raiseFault pt n bit s).cmpFrom = s.cmpFrom := by rw [raiseFault_eq]; rfl
@[simp] theorem raiseFault_calPlays (pt : PT) (n bit : Nat) : (raiseFault pt n bit s).calPlays = s.calPlays := by rw [raiseFault_eq]; rfl

/-! ## Outputs -/

@[simp] theorem emit_outbox (o : Output) : (emit o s).outbox = o :: s.outbox := rfl
@[simp] theorem emit_regs (o : Output) : (emit o s).regs = s.regs := rfl
@[simp] theorem emit_held (o : Output) : (emit o s).held = s.held := rfl
@[simp] theorem emit_wlatch (o : Output) : (emit o s).wlatch = s.wlatch := rfl
@[simp] theorem emit_rlatch (o : Output) : (emit o s).rlatch = s.rlatch := rfl
@[simp] theorem emit_clk (o : Output) : (emit o s).clk = s.clk := rfl
@[simp] theorem emit_boot (o : Output) : (emit o s).boot = s.boot := rfl
@[simp] theorem emit_i3c (o : Output) : (emit o s).i3c = s.i3c := rfl
@[simp] theorem emit_pins (o : Output) : (emit o s).pins = s.pins := rfl
@[simp] theorem emit_resetting (o : Output) : (emit o s).resetting = s.resetting := rfl
@[simp] theorem emit_enWait (o : Output) : (emit o s).enWait = s.enWait := rfl
@[simp] theorem emit_stores (o : Output) : (emit o s).stores = s.stores := rfl
@[simp] theorem emit_staging (o : Output) : (emit o s).staging = s.staging := rfl
@[simp] theorem emit_accepted (o : Output) : (emit o s).accepted = s.accepted := rfl
@[simp] theorem emit_committed (o : Output) : (emit o s).committed = s.committed := rfl
@[simp] theorem emit_unchecked (o : Output) : (emit o s).unchecked = s.unchecked := rfl
@[simp] theorem emit_vimg (o : Output) : (emit o s).vimg = s.vimg := rfl
@[simp] theorem emit_groups (o : Output) : (emit o s).groups = s.groups := rfl
@[simp] theorem emit_seqs (o : Output) : (emit o s).seqs = s.seqs := rfl
@[simp] theorem emit_tones (o : Output) : (emit o s).tones = s.tones := rfl
@[simp] theorem emit_strms (o : Output) : (emit o s).strms = s.strms := rfl
@[simp] theorem emit_outs (o : Output) : (emit o s).outs = s.outs := rfl
@[simp] theorem emit_fluxes (o : Output) : (emit o s).fluxes = s.fluxes := rfl
@[simp] theorem emit_seen (o : Output) : (emit o s).seen = s.seen := rfl
@[simp] theorem emit_items (o : Output) : (emit o s).items = s.items := rfl
@[simp] theorem emit_demods (o : Output) : (emit o s).demods = s.demods := rfl
@[simp] theorem emit_rdis (o : Output) : (emit o s).rdis = s.rdis := rfl
@[simp] theorem emit_txq (o : Output) : (emit o s).txq = s.txq := rfl
@[simp] theorem emit_slots (o : Output) : (emit o s).slots = s.slots := rfl
@[simp] theorem emit_dchs (o : Output) : (emit o s).dchs = s.dchs := rfl
@[simp] theorem emit_provArms (o : Output) : (emit o s).provArms = s.provArms := rfl
@[simp] theorem emit_clrEntries (o : Output) : (emit o s).clrEntries = s.clrEntries := rfl
@[simp] theorem emit_fires (o : Output) : (emit o s).fires = s.fires := rfl
@[simp] theorem emit_mort (o : Output) : (emit o s).mort = s.mort := rfl
@[simp] theorem emit_gBind (o : Output) : (emit o s).gBind = s.gBind := rfl
@[simp] theorem emit_gStage (o : Output) : (emit o s).gStage = s.gStage := rfl
@[simp] theorem emit_gWait (o : Output) : (emit o s).gWait = s.gWait := rfl
@[simp] theorem emit_caps (o : Output) : (emit o s).caps = s.caps := rfl
@[simp] theorem emit_ports (o : Output) : (emit o s).ports = s.ports := rfl
@[simp] theorem emit_pantry (o : Output) : (emit o s).pantry = s.pantry := rfl
@[simp] theorem emit_preqs (o : Output) : (emit o s).preqs = s.preqs := rfl
@[simp] theorem emit_preqNo (o : Output) : (emit o s).preqNo = s.preqNo := rfl
@[simp] theorem emit_retired (o : Output) : (emit o s).retired = s.retired := rfl
@[simp] theorem emit_evac (o : Output) : (emit o s).evac = s.evac := rfl
@[simp] theorem emit_retWait (o : Output) : (emit o s).retWait = s.retWait := rfl
@[simp] theorem emit_wdrawn (o : Output) : (emit o s).wdrawn = s.wdrawn := rfl
@[simp] theorem emit_marked (o : Output) : (emit o s).marked = s.marked := rfl
@[simp] theorem emit_pbad (o : Output) : (emit o s).pbad = s.pbad := rfl
@[simp] theorem emit_swaps (o : Output) : (emit o s).swaps = s.swaps := rfl
@[simp] theorem emit_lmsgs (o : Output) : (emit o s).lmsgs = s.lmsgs := rfl
@[simp] theorem emit_laneSec (o : Output) : (emit o s).laneSec = s.laneSec := rfl
@[simp] theorem emit_rports (o : Output) : (emit o s).rports = s.rports := rfl
@[simp] theorem emit_hports (o : Output) : (emit o s).hports = s.hports := rfl
@[simp] theorem emit_frags (o : Output) : (emit o s).frags = s.frags := rfl
@[simp] theorem emit_inbox (o : Output) : (emit o s).inbox = s.inbox := rfl
@[simp] theorem emit_trigSeen (o : Output) : (emit o s).trigSeen = s.trigSeen := rfl
@[simp] theorem emit_tbusQ (o : Output) : (emit o s).tbusQ = s.tbusQ := rfl
@[simp] theorem emit_tbusAt (o : Output) : (emit o s).tbusAt = s.tbusAt := rfl
@[simp] theorem emit_tseq (o : Output) : (emit o s).tseq = s.tseq := rfl
@[simp] theorem emit_slaves (o : Output) : (emit o s).slaves = s.slaves := rfl
@[simp] theorem emit_align (o : Output) : (emit o s).align = s.align := rfl
@[simp] theorem emit_rxqs (o : Output) : (emit o s).rxqs = s.rxqs := rfl
@[simp] theorem emit_rxqPos (o : Output) : (emit o s).rxqPos = s.rxqPos := rfl
@[simp] theorem emit_seqIds (o : Output) : (emit o s).seqIds = s.seqIds := rfl
@[simp] theorem emit_owesHeader (o : Output) : (emit o s).owesHeader = s.owesHeader := rfl
@[simp] theorem emit_cals (o : Output) : (emit o s).cals = s.cals := rfl
@[simp] theorem emit_calNo (o : Output) : (emit o s).calNo = s.calNo := rfl
@[simp] theorem emit_calWin (o : Output) : (emit o s).calWin = s.calWin := rfl
@[simp] theorem emit_dacTrims (o : Output) : (emit o s).dacTrims = s.dacTrims := rfl
@[simp] theorem emit_trace (o : Output) : (emit o s).trace = s.trace := rfl
@[simp] theorem emit_mon (o : Output) : (emit o s).mon = s.mon := rfl
@[simp] theorem emit_therm (o : Output) : (emit o s).therm = s.therm := rfl
@[simp] theorem emit_shed (o : Output) : (emit o s).shed = s.shed := rfl
@[simp] theorem emit_evLog (o : Output) : (emit o s).evLog = s.evLog := rfl
@[simp] theorem emit_logSeq (o : Output) : (emit o s).logSeq = s.logSeq := rfl
@[simp] theorem emit_spareMap (o : Output) : (emit o s).spareMap = s.spareMap := rfl
@[simp] theorem emit_wears (o : Output) : (emit o s).wears = s.wears := rfl
@[simp] theorem emit_subs (o : Output) : (emit o s).subs = s.subs := rfl
@[simp] theorem emit_returns (o : Output) : (emit o s).returns = s.returns := rfl
@[simp] theorem emit_rdata (o : Output) : (emit o s).rdata = s.rdata := rfl
@[simp] theorem emit_free (o : Output) : (emit o s).free = s.free := rfl
@[simp] theorem emit_pending (o : Output) : (emit o s).pending = s.pending := rfl
@[simp] theorem emit_lines (o : Output) : (emit o s).lines = s.lines := rfl
@[simp] theorem emit_graphBad (o : Output) : (emit o s).graphBad = s.graphBad := rfl
@[simp] theorem emit_mapOld (o : Output) : (emit o s).mapOld = s.mapOld := rfl
@[simp] theorem emit_txWait (o : Output) : (emit o s).txWait = s.txWait := rfl
@[simp] theorem emit_softRows (o : Output) : (emit o s).softRows = s.softRows := rfl
@[simp] theorem emit_tick (o : Output) : (emit o s).tick = s.tick := rfl
@[simp] theorem emit_later (o : Output) : (emit o s).later = s.later := rfl
@[simp] theorem emit_iqWords (o : Output) : (emit o s).iqWords = s.iqWords := rfl
@[simp] theorem emit_iqSent (o : Output) : (emit o s).iqSent = s.iqSent := rfl
@[simp] theorem emit_ladleJobs (o : Output) : (emit o s).ladleJobs = s.ladleJobs := rfl
@[simp] theorem emit_fills (o : Output) : (emit o s).fills = s.fills := rfl
@[simp] theorem emit_pzero (o : Output) : (emit o s).pzero = s.pzero := rfl
@[simp] theorem emit_rows (o : Output) : (emit o s).rows = s.rows := rfl
@[simp] theorem emit_refilled (o : Output) : (emit o s).refilled = s.refilled := rfl
@[simp] theorem emit_trainSlots (o : Output) : (emit o s).trainSlots = s.trainSlots := rfl
@[simp] theorem emit_wfreed (o : Output) : (emit o s).wfreed = s.wfreed := rfl
@[simp] theorem emit_corrs (o : Output) : (emit o s).corrs = s.corrs := rfl
@[simp] theorem emit_fecs (o : Output) : (emit o s).fecs = s.fecs := rfl
@[simp] theorem emit_prbsFrom (o : Output) : (emit o s).prbsFrom = s.prbsFrom := rfl
@[simp] theorem emit_cmpFrom (o : Output) : (emit o s).cmpFrom = s.cmpFrom := rfl
@[simp] theorem emit_calPlays (o : Output) : (emit o s).calPlays = s.calPlays := rfl

end Sys2Proof.Machine
end

