-- ==== Sys2Proof/Laws/Regs.lean ====
section
/-! SUPPORT. Registers: what a register reads after each register operation; the registers' canonical form is kept; when
a command's occasion is there. -/

namespace Sys2Proof.Machine

/-! ## Addresses -/

theorem addrOf_inj {pt pt' : PT} {n n' off off' : Nat} (ho : off < 4096) (ho' : off' < 4096)
    (h : addrOf pt n off = addrOf pt' n' off') : ptBase pt + n = ptBase pt' + n' ∧ off = off' := by
  unfold addrOf at h
  omega

theorem addrOf_ne_off {pt : PT} {n off off' : Nat} (h : off ≠ off') : addrOf pt n off ≠ addrOf pt n off' := by
  unfold addrOf
  omega

theorem addrOf_ne_page {pt pt' : PT} {n n' off off' : Nat} (ho : off < 4096) (ho' : off' < 4096)
    (h : ptBase pt + n ≠ ptBase pt' + n') : addrOf pt n off ≠ addrOf pt' n' off' := by
  intro e
  exact h (addrOf_inj ho ho' e).1

/-! ## Reading after a write -/

theorem getReg_setReg (s : State) (a b : Nat) (v : Word) :
    getReg (setReg s a v) b = if b = a then v else getReg s b := mapGet_mapSet _ _ _ _ _

@[simp] theorem getReg_setReg_self (s : State) (a : Nat) (v : Word) : getReg (setReg s a v) a = v := by
  rw [getReg_setReg, if_pos rfl]

theorem getReg_setReg_ne (s : State) {a b : Nat} (v : Word) (h : b ≠ a) : getReg (setReg s a v) b = getReg s b := by
  rw [getReg_setReg, if_neg h]

theorem getReg_wr (s : State) (pt : PT) (n off hi lo v b : Nat) :
    getReg (wr s pt n off hi lo v) b = if b = addrOf pt n off then fput (reg s pt n off) hi lo v else getReg s b :=
  getReg_setReg _ _ _ _

theorem getReg_wr_ne (s : State) (pt : PT) (n off hi lo v : Nat) {b : Nat} (h : b ≠ addrOf pt n off) :
    getReg (wr s pt n off hi lo v) b = getReg s b := by rw [getReg_wr, if_neg h]

@[simp] theorem reg_wr_self (s : State) (pt : PT) (n off hi lo v : Nat) :
    reg (wr s pt n off hi lo v) pt n off = fput (reg s pt n off) hi lo v := by
  unfold reg
  rw [getReg_wr, if_pos rfl]
  rfl

theorem reg_wr_ne (s : State) (pt : PT) (n off hi lo v : Nat) {pt' : PT} {n' off' : Nat}
    (h : addrOf pt' n' off' ≠ addrOf pt n off) : reg (wr s pt n off hi lo v) pt' n' off' = reg s pt' n' off' :=
  getReg_wr_ne _ _ _ _ _ _ _ h

/-- The field written. -/
theorem rd_wr_self (s : State) (pt : PT) (n off hi lo v : Nat) (hl : lo ≤ hi) (h : hi < 32) :
    rd (wr s pt n off hi lo v) pt n off hi lo = v % 2 ^ (hi + 1 - lo) := by
  unfold rd
  rw [reg_wr_self, fget_fput_self _ _ _ _ hl h]

/-- Another field of the register written. -/
theorem rd_wr_field (s : State) (pt : PT) (n off hi lo hi' lo' v : Nat) (hl : lo ≤ hi) (h : hi < 32)
    (hd : hi' < lo ∨ hi < lo') : rd (wr s pt n off hi lo v) pt n off hi' lo' = rd s pt n off hi' lo' := by
  unfold rd
  rw [reg_wr_self, fget_fput_ne _ _ _ _ _ _ hl h hd]

theorem rd_wr_ne (s : State) (pt : PT) (n off hi lo v : Nat) {pt' : PT} {n' off' : Nat} (hi' lo' : Nat)
    (h : addrOf pt' n' off' ≠ addrOf pt n off) :
    rd (wr s pt n off hi lo v) pt' n' off' hi' lo' = rd s pt' n' off' hi' lo' := by
  unfold rd
  rw [reg_wr_ne _ _ _ _ _ _ _ h]

theorem rdBit_wr_self (s : State) (pt : PT) (n off hi lo v i : Nat) (hl : lo ≤ hi) (h : hi < 32) :
    rdBit (wr s pt n off hi lo v) pt n off i = if lo ≤ i ∧ i ≤ hi then v.testBit (i - lo) else rdBit s pt n off i := by
  unfold rdBit
  rw [reg_wr_self, wbit_fput _ _ _ _ _ hl h]

theorem rdBit_wr_ne (s : State) (pt : PT) (n off hi lo v : Nat) {pt' : PT} {n' off' : Nat} (i : Nat)
    (h : addrOf pt' n' off' ≠ addrOf pt n off) :
    rdBit (wr s pt n off hi lo v) pt' n' off' i = rdBit s pt' n' off' i := by
  unfold rdBit
  rw [reg_wr_ne _ _ _ _ _ _ _ h]

theorem getReg_wrAll (s : State) (pt : PT) (n off v b : Nat) :
    getReg (wrAll s pt n off v) b = if b = addrOf pt n off then BitVec.ofNat 32 v else getReg s b := getReg_setReg _ _ _ _

@[simp] theorem reg_wrAll_self (s : State) (pt : PT) (n off v : Nat) :
    reg (wrAll s pt n off v) pt n off = BitVec.ofNat 32 v := by
  unfold reg
  rw [getReg_wrAll, if_pos rfl]

theorem reg_wrAll_ne (s : State) (pt : PT) (n off v : Nat) {pt' : PT} {n' off' : Nat}
    (h : addrOf pt' n' off' ≠ addrOf pt n off) : reg (wrAll s pt n off v) pt' n' off' = reg s pt' n' off' := by
  unfold reg
  rw [getReg_wrAll, if_neg h]

/-- A counter field counts and saturates. -/
theorem rd_bump_self (s : State) (pt : PT) (n off hi lo k : Nat) (hl : lo ≤ hi) (h : hi < 32) :
    rd (bump s pt n off hi lo k) pt n off hi lo = min (rd s pt n off hi lo + k) (2 ^ (hi + 1 - lo) - 1) := by
  unfold bump
  rw [rd_wr_self _ _ _ _ _ _ _ hl h, Nat.mod_eq_of_lt]
  have := Nat.two_pow_pos (hi + 1 - lo)
  omega

theorem getReg_bump_ne (s : State) (pt : PT) (n off hi lo k : Nat) {b : Nat} (h : b ≠ addrOf pt n off) :
    getReg (bump s pt n off hi lo k) b = getReg s b := getReg_wr_ne _ _ _ _ _ _ _ h

/-! ## Registers of a state changed elsewhere -/

theorem getReg_congr {s t : State} (h : t.regs = s.regs) (a : Nat) : getReg t a = getReg s a := by
  unfold getReg
  rw [h]

theorem reg_congr {s t : State} (h : t.regs = s.regs) (pt : PT) (n off : Nat) : reg t pt n off = reg s pt n off :=
  getReg_congr h _

theorem rd_congr {s t : State} (h : t.regs = s.regs) (pt : PT) (n off hi lo : Nat) :
    rd t pt n off hi lo = rd s pt n off hi lo := by
  unfold rd
  rw [reg_congr h]

theorem rdBit_congr {s t : State} (h : t.regs = s.regs) (pt : PT) (n off i : Nat) :
    rdBit t pt n off i = rdBit s pt n off i := by
  unfold rdBit
  rw [reg_congr h]

/-! ## Events and faults -/

theorem getReg_raiseEvt (s : State) (pt : PT) (n bit b : Nat) :
    getReg (raiseEvt pt n bit s) b = if b = addrOf pt n 0x010 then fput (reg s pt n 0x010) bit bit 1 else getReg s b := by
  rw [getReg_congr (raiseEvt_regs s pt n bit), getReg_wr]

theorem getReg_raiseFault (s : State) (pt : PT) (n bit b : Nat) :
    getReg (raiseFault pt n bit s) b =
      if b = addrOf pt n 0x018 then fput (reg s pt n 0x018) bit bit 1 else getReg s b := by
  rw [getReg_congr (raiseFault_regs s pt n bit), getReg_wr]

/-- The event bit raised is set. -/
theorem rdBit_raiseEvt_self (s : State) (pt : PT) (n bit : Nat) (h : bit < 32) :
    rdBit (raiseEvt pt n bit s) pt n 0x010 bit = true := by
  rw [rdBit_congr (raiseEvt_regs s pt n bit), rdBit_wr_self _ _ _ _ _ _ _ _ (Nat.le_refl _) h]
  simp

/-- Raising an event clears no bit of the event register. -/
theorem rdBit_raiseEvt_of (s : State) (pt : PT) (n bit i : Nat) (h : bit < 32) (hi : rdBit s pt n 0x010 i = true) :
    rdBit (raiseEvt pt n bit s) pt n 0x010 i = true := by
  rw [rdBit_congr (raiseEvt_regs s pt n bit), rdBit_wr_self _ _ _ _ _ _ _ _ (Nat.le_refl _) h]
  split
  · have : i - bit = 0 := by omega
    simp [this]
  · exact hi

theorem rdBit_raiseFault_self (s : State) (pt : PT) (n bit : Nat) (h : bit < 32) :
    rdBit (raiseFault pt n bit s) pt n 0x018 bit = true := by
  rw [rdBit_congr (raiseFault_regs s pt n bit), rdBit_wr_self _ _ _ _ _ _ _ _ (Nat.le_refl _) h]
  simp

theorem reg_raiseEvt_ne (s : State) (pt : PT) (n bit : Nat) {pt' : PT} {n' off' : Nat}
    (h : addrOf pt' n' off' ≠ addrOf pt n 0x010) : reg (raiseEvt pt n bit s) pt' n' off' = reg s pt' n' off' := by
  unfold reg
  rw [getReg_raiseEvt, if_neg h]

theorem reg_raiseFault_ne (s : State) (pt : PT) (n bit : Nat) {pt' : PT} {n' off' : Nat}
    (h : addrOf pt' n' off' ≠ addrOf pt n 0x018) : reg (raiseFault pt n bit s) pt' n' off' = reg s pt' n' off' := by
  unfold reg
  rw [getReg_raiseFault, if_neg h]

/-! ## The canonical form -/

theorem regsOk_setReg {s : State} (a : Nat) (v : Word) (h : mapOk regReset 0 s.regs = true) :
    mapOk regReset 0 (setReg s a v).regs = true := mapOk_mapSet a v (Nat.zero_le _) h

theorem regsOk_wr {s : State} (pt : PT) (n off hi lo v : Nat) (h : mapOk regReset 0 s.regs = true) :
    mapOk regReset 0 (wr s pt n off hi lo v).regs = true := regsOk_setReg _ _ h

theorem regsOk_wrAll {s : State} (pt : PT) (n off v : Nat) (h : mapOk regReset 0 s.regs = true) :
    mapOk regReset 0 (wrAll s pt n off v).regs = true := regsOk_setReg _ _ h

theorem regsOk_bump {s : State} (pt : PT) (n off hi lo k : Nat) (h : mapOk regReset 0 s.regs = true) :
    mapOk regReset 0 (bump s pt n off hi lo k).regs = true := regsOk_wr _ _ _ _ _ _ h

theorem regsOk_raiseEvt {s : State} (pt : PT) (n bit : Nat) (h : mapOk regReset 0 s.regs = true) :
    mapOk regReset 0 (raiseEvt pt n bit s).regs = true := by
  rw [raiseEvt_regs]
  exact regsOk_wr _ _ _ _ _ _ h

theorem regsOk_raiseFault {s : State} (pt : PT) (n bit : Nat) (h : mapOk regReset 0 s.regs = true) :
    mapOk regReset 0 (raiseFault pt n bit s).regs = true := by
  rw [raiseFault_regs]
  exact regsOk_wr _ _ _ _ _ _ h

theorem regsOk_clearPages {s : State} (lo hi : Nat) (h : mapOk regReset 0 s.regs = true) :
    mapOk regReset 0 (clearPages s lo hi).regs = true := mapOk_mapDrop _ _ h

theorem regsOk_clearPageBut {s : State} (pg klo khi : Nat) (h : mapOk regReset 0 s.regs = true) :
    mapOk regReset 0 (clearPageBut s pg klo khi).regs = true := mapOk_mapDrop _ _ (mapOk_mapDrop _ _ h)

theorem regsOk_foldl {β : Type} (f : State → β → State)
    (hf : ∀ s b, mapOk regReset 0 s.regs = true → mapOk regReset 0 (f s b).regs = true) :
    ∀ (l : List β) {s : State}, mapOk regReset 0 s.regs = true → mapOk regReset 0 (l.foldl f s).regs = true
  | [], _, h => h
  | b :: l, s, h => regsOk_foldl f hf l (hf s b h)

/-! ## Occasions -/

theorem whenUp_of {pt : PT} {f : State → State} {s : State} (h : ptUp s pt = true) : whenUp pt f s = f s := by
  unfold whenUp
  rw [if_pos h]

theorem whenUp_not {pt : PT} {f : State → State} {s : State} (h : ptUp s pt = false) : whenUp pt f s = s := by
  unfold whenUp
  rw [if_neg (by simp [h])]

theorem whenAlive_of {f : State → State} {s : State} (h : alive s = true) : whenAlive f s = f s := by
  unfold whenAlive
  rw [if_pos h]

theorem whenAlive_not {f : State → State} {s : State} (h : alive s = false) : whenAlive f s = s := by
  unfold whenAlive
  rw [if_neg (by simp [h])]

theorem whenPath_of {p : Path} {f : State → State} {s : State} (h : pathUp s p = true) : whenPath p f s = f s := by
  unfold whenPath
  rw [if_pos h]

theorem whenPath_not {p : Path} {f : State → State} {s : State} (h : pathUp s p = false) : whenPath p f s = s := by
  unfold whenPath
  rw [if_neg (by simp [h])]

theorem ptUp_alive {s : State} {pt : PT} (h : ptUp s pt = true) : alive s = true := by
  unfold ptUp phaseEnded at h
  simp only [Bool.and_eq_true] at h
  exact h.1.1

theorem ptUp_of_dead {s : State} {pt : PT} (h : alive s = false) : ptUp s pt = false := by
  unfold ptUp phaseEnded
  rw [h]
  rfl

theorem enabled_up {s : State} {pt : PT} {n : Nat} (h : enabled s pt n = true) : ptUp s pt = true := by
  unfold enabled at h
  simp only [Bool.and_eq_true] at h
  exact h.1

end Sys2Proof.Machine
end

