-- ==== Sys2Proof/Laws/Frames.lean ====
section
/-! SUPPORT. Frames: what the register operations, events and faults leave unchanged, and how frames compose. -/

namespace Sys2Proof.Machine

theorem regsBut_of_eq {l : List Nat} {s t : State} (h : t.regs = s.regs) : regsBut l s t :=
  fun a _ => getReg_congr h a

theorem regsBut_refl (l : List Nat) (s : State) : regsBut l s s := fun _ _ => rfl

theorem regsBut_trans {l l' : List Nat} {s t u : State} (h : regsBut l s t) (h' : regsBut l' t u) :
    regsBut (l ++ l') s u := by
  intro a ha
  simp only [List.mem_append, not_or] at ha
  rw [h' a ha.2, h a ha.1]

theorem regsBut_mono {l l' : List Nat} {s t : State} (h : regsBut l s t) (hl : ∀ a ∈ l, a ∈ l') : regsBut l' s t :=
  fun a ha => h a (fun hm => ha (hl a hm))

/-- Two steps that change the same registers. -/
theorem regsBut_then {l : List Nat} {s t u : State} (h : regsBut l s t) (h' : regsBut l t u) : regsBut l s u :=
  fun a ha => (h' a ha).trans (h a ha)

theorem regsBut_setReg {l : List Nat} (s : State) (a : Nat) (v : Word) (h : a ∈ l) : regsBut l s (setReg s a v) := by
  intro b hb
  exact getReg_setReg_ne _ _ (fun e => hb (e ▸ h))

theorem regsBut_wr {l : List Nat} (s : State) (pt : PT) (n off hi lo v : Nat) (h : addrOf pt n off ∈ l) :
    regsBut l s (wr s pt n off hi lo v) := regsBut_setReg _ _ _ h

theorem regsBut_wrAll {l : List Nat} (s : State) (pt : PT) (n off v : Nat) (h : addrOf pt n off ∈ l) :
    regsBut l s (wrAll s pt n off v) := regsBut_setReg _ _ _ h

theorem regsBut_bump {l : List Nat} (s : State) (pt : PT) (n off hi lo k : Nat) (h : addrOf pt n off ∈ l) :
    regsBut l s (bump s pt n off hi lo k) := regsBut_setReg _ _ _ h

theorem regsBut_raiseEvt {l : List Nat} (s : State) (pt : PT) (n bit : Nat) (h : addrOf pt n 0x010 ∈ l) :
    regsBut l s (raiseEvt pt n bit s) := by
  intro b hb
  rw [getReg_raiseEvt, if_neg]
  exact fun e => hb (e ▸ h)

theorem regsBut_raiseFault {l : List Nat} (s : State) (pt : PT) (n bit : Nat) (h : addrOf pt n 0x018 ∈ l) :
    regsBut l s (raiseFault pt n bit s) := by
  intro b hb
  rw [getReg_raiseFault, if_neg]
  exact fun e => hb (e ▸ h)

theorem onlyRegs_refl (s : State) : onlyRegs s s := rfl
theorem onlyRegs_setReg (s : State) (a : Nat) (v : Word) : onlyRegs s (setReg s a v) := rfl
theorem onlyRegs_wr (s : State) (pt : PT) (n off hi lo v : Nat) : onlyRegs s (wr s pt n off hi lo v) := rfl
theorem onlyRegs_wrAll (s : State) (pt : PT) (n off v : Nat) : onlyRegs s (wrAll s pt n off v) := rfl
theorem onlyRegs_bump (s : State) (pt : PT) (n off hi lo k : Nat) : onlyRegs s (bump s pt n off hi lo k) := rfl

/-- A state that differs in registers only, written out. -/
theorem onlyRegs_iff {s t : State} : onlyRegs s t ↔ t = { s with regs := t.regs, tick := t.tick } := by
  unfold onlyRegs
  constructor
  · intro h
    conv_rhs => rw [← h]
  · intro h
    rw [h]

theorem onlyRegs_trans {s t u : State} (h : onlyRegs s t) (h' : onlyRegs t u) : onlyRegs s u := by
  rw [onlyRegs_iff] at *
  rw [h', h]

theorem onlyRegsIrq_iff {s t : State} :
    onlyRegsIrq s t ↔ t = { s with regs := t.regs, tick := t.tick, i3c := { s.i3c with ibiReq := t.i3c.ibiReq } } := by
  unfold onlyRegsIrq
  constructor
  · intro h
    conv_rhs => rw [← h]
  · intro h
    rw [h]

theorem onlyRegsIrq_of_onlyRegs {s t : State} (h : onlyRegs s t) : onlyRegsIrq s t := by
  rw [onlyRegs_iff] at h
  rw [onlyRegsIrq_iff, h]

theorem onlyRegsIrq_trans {s t u : State} (h : onlyRegsIrq s t) (h' : onlyRegsIrq t u) : onlyRegsIrq s u := by
  rw [onlyRegsIrq_iff] at *
  rw [h', h]

theorem onlyRegsIrq_requestIbi (s : State) : onlyRegsIrq s (requestIbi s) := by
  rw [requestIbi_eq]
  rfl

theorem onlyRegs_raiseBit (s : State) (pt : PT) (n off i : Nat) : onlyRegs s (raiseBit pt n off i s) := by
  rw [onlyRegs_iff, raiseBit_eq]
  rfl

theorem onlyRegsIrq_notePending {s t : State} (pg : Nat) (h : onlyRegs s t) : onlyRegsIrq s (notePending pg s t) := by
  unfold notePending
  split
  · exact onlyRegsIrq_trans (onlyRegsIrq_of_onlyRegs h) (onlyRegsIrq_requestIbi _)
  · exact onlyRegsIrq_of_onlyRegs h

theorem onlyRegsIrq_raiseEvt (s : State) (pt : PT) (n bit : Nat) : onlyRegsIrq s (raiseEvt pt n bit s) :=
  onlyRegsIrq_notePending _ (onlyRegs_raiseBit _ _ _ _ _)

theorem onlyRegsIrq_raiseFault (s : State) (pt : PT) (n bit : Nat) : onlyRegsIrq s (raiseFault pt n bit s) :=
  onlyRegsIrq_notePending _ (onlyRegs_raiseBit _ _ _ _ _)

/-- What only changes registers and the interrupt request does not change. -/
theorem onlyRegsIrq_keeps {s t : State} (h : onlyRegsIrq s t) :
    t.stores = s.stores ∧ t.pantry = s.pantry ∧ t.groups = s.groups ∧ t.seqs = s.seqs ∧ t.items = s.items ∧
    t.clk = s.clk ∧ t.boot = s.boot ∧ t.pins = s.pins ∧ t.outbox = s.outbox ∧ t.pending = s.pending ∧ t.free = s.free := by
  rw [onlyRegsIrq_iff] at h
  rw [h]
  simp

/-- Folding a step that keeps a relation. -/
theorem foldl_rel {β : Type} (R : State → State → Prop) (hr : ∀ s, R s s) (ht : ∀ s t u, R s t → R t u → R s u)
    (f : State → β → State) (hf : ∀ s b, R s (f s b)) : ∀ (l : List β) (s : State), R s (l.foldl f s)
  | [], s => hr s
  | b :: l, s => ht _ _ _ (hf s b) (foldl_rel R hr ht f hf l (f s b))

end Sys2Proof.Machine
end

