-- ==== Sys2Proof/Laws/Pantry.lean ====
section
/-! SUPPORT. The Pantry: the mapping of R276 gives every address a place of its own, and a write changes the bytes
written and no other. -/

namespace Sys2Proof.Machine

/-- The place of an address depends on the mapping masks alone. -/
theorem placeOf_congr {s t : State} (h : t.regs = s.regs) (a : Nat) : placeOf t a = placeOf s a := by
  unfold placeOf bankBits chanBits
  simp only [rd_congr h]

theorem chanBits_eq (s : State) (a : Nat) : ∃ p0 p1 p2 p3 p4 : Nat,
    (∀ b, nbits b 34 20 = nbits a 34 20 → chanBits s b =
      (nbits b 6 6 + p0) % 2 + (nbits b 7 7 + p1) % 2 * 2 + (nbits b 8 8 + p2) % 2 * 4 + (nbits b 9 9 + p3) % 2 * 8 +
      (nbits b 10 10 + p4) % 2 * 16) := by
  refine ⟨maskParity (nbits a 34 20) (rd s .pantry 0 (0x080 + 4 * 0) 14 0),
    maskParity (nbits a 34 20) (rd s .pantry 0 (0x080 + 4 * 1) 14 0),
    maskParity (nbits a 34 20) (rd s .pantry 0 (0x080 + 4 * 2) 14 0),
    maskParity (nbits a 34 20) (rd s .pantry 0 (0x080 + 4 * 3) 14 0),
    maskParity (nbits a 34 20) (rd s .pantry 0 (0x080 + 4 * 4) 14 0), fun b hb => ?_⟩
  unfold chanBits
  rw [hb]
  simp [List.range_succ, Nat.add_assoc]

theorem bankBits_eq (s : State) (a : Nat) : ∃ p0 p1 p2 p3 : Nat,
    (∀ b, nbits b 34 20 = nbits a 34 20 → bankBits s b =
      (nbits b 16 16 + p0) % 2 + (nbits b 17 17 + p1) % 2 * 2 + (nbits b 18 18 + p2) % 2 * 4 +
      (nbits b 19 19 + p3) % 2 * 8) := by
  refine ⟨maskParity (nbits a 34 20) (rd s .pantry 0 (0x094 + 4 * 0) 14 0),
    maskParity (nbits a 34 20) (rd s .pantry 0 (0x094 + 4 * 1) 14 0),
    maskParity (nbits a 34 20) (rd s .pantry 0 (0x094 + 4 * 2) 14 0),
    maskParity (nbits a 34 20) (rd s .pantry 0 (0x094 + 4 * 3) 14 0), fun b hb => ?_⟩
  unfold bankBits
  rw [hb]
  simp [List.range_succ, Nat.add_assoc]

theorem digit2 {x y m n : Nat} (hx : x < 2) (hy : y < 2) (h : x + 2 * m = y + 2 * n) : x = y ∧ m = n := by omega

theorem parity_cancel {x y p : Nat} (hx : x < 2) (hy : y < 2) (h : (x + p) % 2 = (y + p) % 2) : x = y := by omega

theorem nbits_one_lt (a k : Nat) : nbits a k k < 2 := by
  have := nbits_lt a k k
  rwa [show k + 1 - k = 1 by omega, Nat.pow_one] at this

/-- Five bits under a mask determine the bits. -/
theorem masked_bits {x0 x1 x2 x3 x4 y0 y1 y2 y3 y4 p0 p1 p2 p3 p4 : Nat}
    (h : (x0 + p0) % 2 + (x1 + p1) % 2 * 2 + (x2 + p2) % 2 * 4 + (x3 + p3) % 2 * 8 + (x4 + p4) % 2 * 16 =
      (y0 + p0) % 2 + (y1 + p1) % 2 * 2 + (y2 + p2) % 2 * 4 + (y3 + p3) % 2 * 8 + (y4 + p4) % 2 * 16) :
    (x0 + p0) % 2 = (y0 + p0) % 2 ∧ (x1 + p1) % 2 = (y1 + p1) % 2 ∧ (x2 + p2) % 2 = (y2 + p2) % 2 ∧
    (x3 + p3) % 2 = (y3 + p3) % 2 ∧ (x4 + p4) % 2 = (y4 + p4) % 2 := by
  generalize hx0 : (x0 + p0) % 2 = u0 at *
  generalize hx1 : (x1 + p1) % 2 = u1 at *
  generalize hx2 : (x2 + p2) % 2 = u2 at *
  generalize hx3 : (x3 + p3) % 2 = u3 at *
  generalize hx4 : (x4 + p4) % 2 = u4 at *
  generalize hy0 : (y0 + p0) % 2 = v0 at *
  generalize hy1 : (y1 + p1) % 2 = v1 at *
  generalize hy2 : (y2 + p2) % 2 = v2 at *
  generalize hy3 : (y3 + p3) % 2 = v3 at *
  generalize hy4 : (y4 + p4) % 2 = v4 at *
  have : u0 < 2 ∧ u1 < 2 ∧ u2 < 2 ∧ u3 < 2 ∧ u4 < 2 ∧ v0 < 2 ∧ v1 < 2 ∧ v2 < 2 ∧ v3 < 2 ∧ v4 < 2 := by
    refine ⟨?_, ?_, ?_, ?_, ?_, ?_, ?_, ?_, ?_, ?_⟩ <;> (subst_vars; exact Nat.mod_lt _ (by omega))
  clear hx0 hx1 hx2 hx3 hx4 hy0 hy1 hy2 hy3 hy4
  omega

/-- An address is put together of its fields. -/
theorem addr_fields {a : Nat} (ha : a < 2 ^ 35) : a = nbits a 34 20 * 2 ^ 20 + (nbits a 16 16 + nbits a 17 17 * 2 +
    nbits a 18 18 * 4 + nbits a 19 19 * 8) * 2 ^ 16 + nbits a 15 11 * 2 ^ 11 + (nbits a 6 6 + nbits a 7 7 * 2 +
    nbits a 8 8 * 4 + nbits a 9 9 * 8 + nbits a 10 10 * 16) * 2 ^ 6 + nbits a 5 0 := by
  have e1 : nbits a 10 6 = nbits a 6 6 + nbits a 7 7 * 2 + nbits a 8 8 * 4 + nbits a 9 9 * 8 + nbits a 10 10 * 16 := by
    unfold nbits
    omega
  have e2 : nbits a 19 16 = nbits a 16 16 + nbits a 17 17 * 2 + nbits a 18 18 * 4 + nbits a 19 19 * 8 := by
    unfold nbits
    omega
  rw [← e1, ← e2]
  clear e1 e2
  unfold nbits
  omega

theorem place_digits {r r' k k' g g' c c' y y' : Nat} (hk : k < 16) (hk' : k' < 16) (hg : g < 32) (hg' : g' < 32)
    (hc : c < 32) (hc' : c' < 32) (hy : y < 64) (hy' : y' < 64)
    (h : r * 2 ^ 20 + k * 2 ^ 16 + g * 2 ^ 11 + c * 2 ^ 6 + y = r' * 2 ^ 20 + k' * 2 ^ 16 + g' * 2 ^ 11 + c' * 2 ^ 6 + y') :
    r = r' ∧ k = k' ∧ g = g' ∧ c = c' ∧ y = y' := by omega

/-- No two addresses share a place. -/
theorem placeOf_inj (s : State) {a b : Nat} (ha : a < 2 ^ 35) (hb : b < 2 ^ 35) (h : placeOf s a = placeOf s b) :
    a = b := by
  obtain ⟨p0, p1, p2, p3, p4, hc⟩ := chanBits_eq s a
  obtain ⟨q0, q1, q2, q3, hk⟩ := bankBits_eq s a
  have bound5 : ∀ u0 u1 u2 u3 u4 : Nat,
      u0 % 2 + u1 % 2 * 2 + u2 % 2 * 4 + u3 % 2 * 8 + u4 % 2 * 16 < 32 := by intros; omega
  have bound4 : ∀ u0 u1 u2 u3 : Nat, u0 % 2 + u1 % 2 * 2 + u2 % 2 * 4 + u3 % 2 * 8 < 16 := by intros; omega
  have ca : ∀ x, chanBits s x < 32 := fun x => by
    obtain ⟨_, _, _, _, _, hx⟩ := chanBits_eq s x
    rw [hx x rfl]
    exact bound5 _ _ _ _ _
  have ka : ∀ x, bankBits s x < 16 := fun x => by
    obtain ⟨_, _, _, _, hx⟩ := bankBits_eq s x
    rw [hx x rfl]
    exact bound4 _ _ _ _
  obtain ⟨hrow, hbank, hpg, hch, hby⟩ := place_digits (ka a) (ka b) (nbits_lt a 15 11) (nbits_lt b 15 11) (ca a) (ca b)
    (nbits_lt a 5 0) (nbits_lt b 5 0) h
  rw [hc a rfl, hc b hrow.symm] at hch
  rw [hk a rfl, hk b hrow.symm] at hbank
  have m := masked_bits hch
  have m' := masked_bits (x4 := 0) (y4 := 0) (p4 := 0) (by simpa using hbank)
  have e (k : Nat) {p : Nat} (hm : (nbits a k k + p) % 2 = (nbits b k k + p) % 2) : nbits a k k = nbits b k k :=
    parity_cancel (nbits_one_lt a k) (nbits_one_lt b k) hm
  rw [addr_fields ha, addr_fields hb, hrow, hpg, hby, e 6 m.1, e 7 m.2.1, e 8 m.2.2.1, e 9 m.2.2.2.1, e 10 m.2.2.2.2,
    e 16 m'.1, e 17 m'.2.1, e 18 m'.2.2.1, e 19 m'.2.2.2.1]

/-- A byte written, and every other byte as before. -/
theorem pantryByte_pantryPut (s : State) {a b : Nat} (ha : a < 2 ^ 35) (hb : b < 2 ^ 35) (v : Byte) :
    pantryByte (pantryPut s a v) b = if b = a then v else pantryByte s b := by
  unfold pantryByte pantryPut
  have hp : placeOf { s with pantry := mapSet (fun _ => none) s.pantry (placeOf s a) (some v) } b = placeOf s b :=
    placeOf_congr rfl b
  have hu (p : Nat) : unwritten { s with pantry := mapSet (fun _ => none) s.pantry (placeOf s a) (some v) } p =
      unwritten s p := rfl
  rw [hp]
  unfold placeByte
  rw [hu]
  by_cases h : b = a
  · rw [if_pos h, h, mapGet_mapSet_self]
    rfl
  · rw [if_neg h, mapGet_mapSet_of_ne _ _ _ (fun e => h (placeOf_inj s hb ha e))]

@[simp] theorem pantryPut_regs (s : State) (a : Nat) (v : Byte) : (pantryPut s a v).regs = s.regs := rfl

/-- Writing bytes changes the bytes of the Pantry alone. -/
theorem pantryPutBytes_eq (s : State) (a : Nat) (bs : List Byte) :
    pantryPutBytes s a bs = { s with pantry := (pantryPutBytes s a bs).pantry } := by
  unfold pantryPutBytes
  generalize bs.zipIdx = l
  induction l generalizing s with
  | nil => rfl
  | cons e l ih =>
    rw [List.foldl_cons, ih (pantryPut s (a + e.2) e.1)]
    rfl

/-- The bytes written are at their addresses, and every other byte of the address space as before. -/
theorem pantryByte_zipIdx (a b : Nat) (hb : b < 2 ^ 35) :
    ∀ (bs : List Byte) (k : Nat) (s : State), a + k + bs.length ≤ 2 ^ 35 →
      pantryByte ((bs.zipIdx k).foldl (fun t e => pantryPut t (a + e.2) e.1) s) b =
        if h : a + k ≤ b ∧ b < a + k + bs.length then bs[b - (a + k)]'(by omega) else pantryByte s b
  | [], k, s, _ => by simp
  | v :: bs, k, s, h => by
    simp only [List.length_cons] at h
    rw [List.zipIdx_cons, List.foldl_cons, pantryByte_zipIdx a b hb bs (k + 1) _ (by omega),
      pantryByte_pantryPut s (by omega) hb]
    by_cases h1 : a + (k + 1) ≤ b ∧ b < a + (k + 1) + bs.length
    · rw [dif_pos h1, dif_pos (by simp only [List.length_cons]; omega)]
      have : b - (a + k) = (b - (a + (k + 1))) + 1 := by omega
      simp only [this, List.getElem_cons_succ]
    · rw [dif_neg h1]
      by_cases h2 : b = a + k
      · subst h2
        simp
      · rw [if_neg h2, dif_neg]
        simp only [List.length_cons]
        omega

theorem pantryByte_pantryPutBytes (s : State) {a b : Nat} (bs : List Byte) (ha : a + bs.length ≤ 2 ^ 35) (hb : b < 2 ^ 35) :
    pantryByte (pantryPutBytes s a bs) b =
      if h : a ≤ b ∧ b < a + bs.length then bs[b - a]'(by omega) else pantryByte s b :=
  pantryByte_zipIdx a b hb bs 0 s ha

theorem pantryByte_congr {s t : State} (hr : t.regs = s.regs) (hp : t.pantry = s.pantry) (hf : t.fills = s.fills)
    (hz : t.pzero = s.pzero) (b : Nat) : pantryByte t b = pantryByte s b := by
  unfold pantryByte placeByte unwritten
  rw [placeOf_congr hr, hp, hf, hz]

theorem reservedFrom_le (s : State) : reservedFrom s ≤ 2 ^ 35 - 2 ^ 26 := by
  unfold reservedFrom capacity liveChannels
  have : 32 - s.retired.length ≤ 32 := Nat.sub_le _ _
  have : (32 - s.retired.length) * 2 ^ 30 ≤ 32 * 2 ^ 30 := Nat.mul_le_mul_right _ this
  omega

end Sys2Proof.Machine
end

