-- ==== Sys2Proof/Tests/Slice0.lean ====
section
/-! SUPPORT. Ill-formed terms that the checks refuse, witnesses of the statements’ hypotheses, and worked examples. Each
expected value is from the spec, or worked out by hand from its rule. -/

namespace Sys2Proof.Tests

open Sys2Proof Sys2Proof.Machine

set_option maxRecDepth 100000
set_option Elab.async false

/-- Start-up has ended: READY, phase 8 (R59). -/
def fresh : State := { regs := [(0x4C, 0x80000008)] }

/-- And the target has the dynamic address 0x20 (R36). -/
def up : State := { regs := [(0x4C, 0x80000008), (0x1040, 0xA0000000)] }

/-- Registers set, by kind of page, number and offset. -/
def withRegs (l : List (PT × Nat × Nat × Word)) (s : State) : State :=
  l.foldl (fun s e => setReg s (addrOf e.1 e.2.1 e.2.2.1) e.2.2.2) s

/-- The module is up, with registers set. -/
def upWith (l : List (PT × Nat × Nat × Word)) : State := withRegs l up

/-- The state a command leaves; a stop leaves it as it is. -/
def after (c : Instr) (s : State) : State :=
  match exec c s with
  | .next t => t
  | _ => s

/-! ## Ill-formed terms -/

theorem test_wordAddr_refused : Instr.wellFormed (.registerWrite .i3c 0x802 0) = false := by decide
theorem test_aperture_refused : Instr.wellFormed (.apertureWrite .i3c 0x3FFFFFFC 0) = false ∧
    Instr.wellFormed (.apertureWrite .i3c 0x40000002 0) = false := by decide
theorem test_page_refused : Instr.wellFormed (.pageLock .i3c 1023) = false ∧ Instr.wellFormed (.softResetDone 1023) = false := by
  decide
theorem test_port_refused : Instr.wellFormed (.addA 63 8) = false ∧ Instr.wellFormed (.addA 64 31) = true := by decide
theorem test_tone_refused : Instr.wellFormed (.portActionDue 63 9) = false ∧
    Instr.wellFormed (.toneVerify 64 33 true) = true := by decide
theorem test_readings_refused : Instr.wellFormed (.trivetUpdate [0]) = false := by decide

/-! ## Steps -/

theorem witness_step : step { up with pending := [.enthdr0, .hdrExit] } = exec .enthdr0 { up with pending := [.hdrExit] } := rfl
theorem witness_idle : up.pending = [] ∧ clockRuns up = true ∧ clockRuns State.reset = false := by decide
theorem test_idle_counts : (passTicks 1 up).clk.tc = 1 ∧ (passTicks 3 up).clk.mt = 4 * 2 ^ 32 := by decide
theorem witness_held : alive { up with boot := { up.boot with inReset := true }, pending := [.enthdr0] } = false ∧
    Instr.wellFormed .enthdr0 = true := by decide
theorem witness_time : clockRuns up = true ∧ rdBit up .time 0 0x040 8 = true ∧ reg up .time 0 0x060 = 0x55555555 ∧
    rd up .time 0 0x064 3 0 = 1 ∧ reg up .time 0 0x07C = 0 ∧ up.clk.step = 0 := by decide
/-- TC wraps at 2^48, and the counting of thirds with it (R15, R356). -/
theorem test_thirds_wrap : thirds (2 ^ 48 - 1) 2 = 2 := by decide
theorem witness_canonical : up.regsOk ∧ step up = .next (passTicks 1 up) := ⟨by unfold State.regsOk; decide, rfl⟩

/-! ## I3C -/

theorem witness_dynamicAddress : rdBit fresh .mgmt 0 0x040 31 = false ∧
    rdBit (after (.entdaa 0x10) fresh) .mgmt 0 0x040 31 = true ∧ (after (.entdaa 0x10) fresh).regs = [(0x4C, 0x80000008), (0x1040, 0x90000000)] ∧
    (after (.setdasa 0x61 0x11) fresh).i3c.nack = true ∧ (0x60 : BitVec 7).toNat = 0x60 + up.pins.strap.toNat % 8 := by decide
theorem witness_interrupt : (after (.setmwl 0xFFFF) up).i3c.mwl = 4096 ∧ up.i3c.ibiOn = true ∧
    (after .disec up).i3c.ibiOn = false ∧ pendingPages up = [] := by decide
/-- R52: a page that becomes pending is named in the interrupt. -/
def pendingTime : State := after .syncAbsent (upWith [(.time, 0, 0x014, 4), (.time, 0, 0x094, 0x80000000)])
theorem test_interrupt : pendingTime.i3c.ibiReq = true ∧ (after .ibiDelivered pendingTime).i3c.reply = [0xA0, 0, 0, 0x80, 0] ∧
    (after .ibiDelivered pendingTime).i3c.ibiReq = false := by decide
theorem witness_targetAnswers : up.i3c.mwl ≤ 4096 ∧ up.i3c.mrl ≤ 4096 ∧ (after .getbcr up).i3c.reply = [0x26] := by decide
theorem witness_privateWrite : (0x8060 : Word).toNat % 4 = 0 ∧ 4 + 4 * [(1 : Word)].length ≤ up.i3c.mwl ∧
    reg (after (.privateWrite true [0, 0, 0x80, 0xB4, 1, 0, 0, 0]) up) .time 0 0x0B4 = 1 ∧
    rdBit (after (.privateWrite true [0, 0, 0x80, 0x62]) up) .mgmt 0 0x040 0 = true := by decide
theorem witness_privateRead : i3cAnswers up = true ∧ (wordReady up.i3c.ptr up).1 = true ∧ 4 ≤ up.i3c.mrl ∧ (after (.privateRead 4) up).i3c.ptr = 4 := by
  decide
theorem witness_pantryWindow : ptUp up .pantry = true ∧ pwinAddr up + 4 ≤ reservedFrom up ∧ (pwinAddr up + 4) % 64 ≠ 0 ∧
    pwinWaits up = false ∧ up.pbad.contains (pwinAddr up / 64) = false ∧
    pantryByte (after (.pwinDataWrite 0x04030201) up) 3 = 4 := by decide
theorem witness_pantryWindow_above :
    reservedFrom (upWith [(.mgmt, 0, 0x060, 0xFFFFFFFC), (.mgmt, 0, 0x064, 7)]) <
      pwinAddr (upWith [(.mgmt, 0, 0x060, 0xFFFFFFFC), (.mgmt, 0, 0x064, 7)]) + 4 := by decide
theorem witness_targetReset : up.i3c.rstact = 0x01 ∧ (after (.rstact 0) up).i3c.rstact = 0 ∧
    (after .targetResetPattern (after (.rstact 2) up)).boot.target = true := by decide

/-! ## Supply, pins, common registers -/

theorem witness_resets : ({ up with boot := { up.boot with powered := false } } : State).boot.powered = false ∧
    up.boot.powered = true ∧ ptUp up .sys = true ∧ up.boot.dark = false ∧ phase (after .rstNAssert up) = 1 ∧
    (after .rstNAssert up).boot.inReset = true ∧ reg (after (.swrst 0x5120) up) .sys 0 0x050 = 9 ∧
    reg (after .powerLoss up) .sys 0 0x050 = 1 := by decide
/-- The domains are dark; in thermal shutdown, with the restart automatic. -/
def dark0 : State := { up with boot := { up.boot with dark := true } }
def shut0 : State := { up with boot := { up.boot with dark := true, shutdown := true }, therm := { up.therm with auto := true } }
theorem witness_restarts : alive shut0 = true ∧ shut0.boot.shutdown = true ∧ shut0.therm.auto = true ∧
    phase (after .shutdownExit shut0) = 2 ∧ alive dark0 = true ∧ dark0.boot.dark = true ∧ dark0.boot.shutdown = false ∧
    rdBit (after .brownoutRestart dark0) .sys 0 0x050 5 = true := by decide
/-- Start-up in a phase. -/
def inPhase (n : Nat) : State := { regs := [(0x4C, BitVec.ofNat 32 n), (0x1040, 0xA0000000)] }
theorem witness_phases : phase (inPhase 6) = 6 ∧ alive (inPhase 6) = true ∧ rdBit (inPhase 6) .sys 0 0x04C 31 = false ∧
    rdBit (inPhase 6) .sys 0 0x04C 30 = false ∧ phase (after (.startupPhaseDone true ⟨0, []⟩) (inPhase 7)) = 8 ∧
    rdBit (after (.startupPhaseDone true ⟨0, []⟩) (inPhase 8)) .sys 0 0x04C 31 = true ∧
    phase (after (.startupPhaseDone true ⟨0, []⟩) (inPhase 3)) = 4 ∧ refOk (inPhase 3) = true ∧
    phase (after (.startupPhaseDone true ⟨0, []⟩) { inPhase 3 with boot := { up.boot with ref := none } }) = 3 ∧
    rdBit (after (.startupPhaseDone false ⟨0, []⟩) (inPhase 5)) .sys 0 0x04C 30 = true := by decide
theorem witness_pins : ptUp up .mgmt = true ∧ ptUp up .pwr = true ∧ ptUp (inPhase 1) .pwr = false ∧
    (after .shedNAssert (inPhase 1)).pins.shedN = false ∧ 4 ≤ shedDemand { up with pins := { up.pins with shedN := false } } ∧
    (after (.release true) up).regs = [(0x4C, 0x80000008), (0x5C, 0x101), (0x1040, 0xA0000000)] := by decide
theorem witness_commonRegisters : pathUp up .i3c = true ∧ pageOf 8 = some (.time, 0) ∧ ptUp up .time = true ∧
    reg (after (.registerWrite .i3c 0x8010 5) (upWith [(.time, 0, 0x010, 7)])) .time 0 0x010 = 2 ∧
    reg (after (.registerWrite .i3c 0x8014 5) up) .time 0 0x014 = 5 ∧
    pathUp (inPhase 2) .i3c = true ∧ ptUp (inPhase 2) .time = false ∧
    rdBit (after (.registerWrite .i3c 0x8014 5) (inPhase 2)) .sys 0 0x04C 27 = true ∧
    (2 : Word).toNat % 4 ≠ 0 ∧ (0x3FF000 : Word).toNat < 0x40000000 ∧ pageOf ((0x3FF000 : Word).toNat / 4096) = none := by decide
theorem witness_pairs : reg (after (.registerWrite .i3c 0x8184 1) (after (.registerWrite .i3c 0x8180 2) up)) .time 0 0x180 = 2 ∧
    reg (after (.registerWrite .i3c 0x8180 2) up) .time 0 0x180 = 0 := by decide
/-- A shot of group 0 runs. -/
def running0 : State := { up with groups := [(0, { running := true, t0 := 0 })] }
theorem witness_shadowed : fget (0x10 : Word) 12 0 < 0x1E10 ∧ seqShotRuns up 0 = false ∧ up.held = [] ∧
    seqShotRuns (withRegs [(.seq, 0, 0x040, 8)] running0) 0 = true := by decide

/-! ## Stores -/

theorem storesOk_up : up.storesOk := by
  refine ⟨rfl, ?_, rfl, ?_, ?_, rfl, ?_, ?_, ?_, ?_, rfl⟩ <;> simp [up, imageOk]
/-- A word staged in sequencer 0's store by I3C. -/
def staged0 : State := after (.apertureWrite .i3c 0x40000010 0xA1B2C3D4) up
theorem witness_aperture : pathUp up .i3c = true ∧ (0x40000010 : Word).toNat % 4 = 0 ∧ storeAt 0x40000010 = some 0x40000000 ∧
    ptUp up .seq = true ∧ (getStaging up 0).bound = none ∧ (getStaging staged0 0).bound = some 0x40000000 ∧
    storeByte staged0 0 0x40000010 = 0xD4 ∧ storeByte staged0 0 0x40000013 = 0xA1 ∧ storeByte staged0 1 0x40000010 = 0 ∧
    rd (after (.apertureWrite .i3c 0x40040000 1) staged0) .seq 1 0x04C 31 28 = 6 ∧
    rd (after (.apertureWrite .i3c 0x4003C000 1) up) .seq 0 0x04C 31 28 = 5 := by decide
/-- The check value of an empty envelope unit, as an expression; nothing here evaluates it. -/
def emptyCrc : Word := crc32c (dense [] 0x55000000 0x20000)
/-- Flux output 0's envelope unit is bound and empty, and its LOAD_CRC is right. -/
def goodEnv : State := { up with regs := [(0x4C, 0x80000008), (addrOf .flx 0 0xE04, emptyCrc)],
                                 staging := [(0, { bound := some 0x55000000, data := [] })] }
theorem witness_commit : crcOff 0x55000000 = 0xE04 ∧ storePage 0x55000000 = (.flx, 0, 0) ∧ isControl 0x55000000 = false ∧
    (getStaging goodEnv 0).bound = some 0x55000000 ∧ storeBusy goodEnv 0x55000000 = false ∧
    (getStaging up 0).bound = none ∧ rd (after (.loadCommit .i3c 0) up) .seq 0 0x04C 31 28 = 7 ∧
    rd (after (.loadCommit .i3c 1) staged0) .seq 1 0x04C 31 28 = 6 ∧
    (getStaging (after (.loadDiscard .i3c 0) staged0) 0).bound = none := by decide
theorem witness_commitAccepted : (commitCheck goodEnv 0x55000000 [] (reg goodEnv .flx 0 0xE04)).1 = 0 := by
  have h : reg goodEnv .flx 0 0xE04 = emptyCrc := rfl
  have hl : storeLen 0x55000000 = 0x20000 := by decide
  have hc : isControl 0x55000000 = false := by decide
  simp [commitCheck, h, emptyCrc, hl, hc]

/-- A graph of one detector and one edge to the boundary, W = 8, K = 4 (R236 to R238). -/
def tinyGraph : Bytes :=
  [(0x5C000000, 0x4D), (0x5C000001, 0x47), (0x5C000002, 0x52), (0x5C000003, 0x46), (0x5C000004, 1), (0x5C000008, 1),
   (0x5C00000A, 8), (0x5C00000B, 4), (0x5C00000C, 1), (0x5C002001, 0xF8), (0x5C002002, 0xBF)]
theorem tinyGraph_refs : refFail tinyGraph = none := by decide
theorem tinyGraph_capacity : capacityOk tinyGraph = true := by decide
theorem tinyGraph_format : formatFail tinyGraph = none := by decide
theorem witness_graphAccepted : (graphCheck tinyGraph (crc32c (dense tinyGraph gBase gLen))).1 = 0 := by
  simp [graphCheck, tinyGraph_refs, tinyGraph_capacity, tinyGraph_format]
/-- The graph's staging bank bound by I3C. -/
def graphBound : State := { up with gBind := some 0, gStage := tinyGraph }
theorem witness_graph : ptUp up .mortar = true ∧ inGraph 0x5C000000 = true ∧ up.gWait = none ∧ up.gBind = none ∧
    graphByte (after (.apertureWrite .i3c 0x5C000004 7) up) 0 0x5C000004 = 7 ∧
    rd (after (.graphCommit .i3c) up) .mortar 0 0x060 31 28 = 7 ∧ graphBound.gBind = some 0 ∧ graphBound.mort.run = false ∧
    (after (.graphDiscard .i3c) graphBound).gBind = none := by decide
theorem witness_graphOther : rd (after (.apertureWrite .i3c 0x5C000004 7) { graphBound with gBind := some 1 }) .mortar 0 0x060 31 28 = 6 ∧
    ({ graphBound with mort := { run := true } } : State).mort.run = true := by decide
/-- A vendor image's status and command. -/
def vimgAt (st : Word) (cmd : Option VimgCmd) : State := { upWith [(.nvm, 0, 0x10C, st)] with vimg := { cmd := cmd } }
theorem witness_vimg : ptUp up .nvm = true ∧ 4 * rd up .nvm 0 0x100 16 2 < vimgLen ∧
    vimgLen ≤ 4 * rd (upWith [(.nvm, 0, 0x100, 0x1FFFC)]) .nvm 0 0x100 16 2 ∧ up.vimg.cmd = none ∧
    rd (after (.vimgDataAccess (some 1)) up) .nvm 0 0x100 16 2 = 1 ∧ rd (after .verify up) .nvm 0 0x10C 31 28 = 1 ∧
    (vimgAt 0x10000000 (some .verify)).vimg.cmd = some .verify ∧
    (after (.verifyComplete true true) (vimgAt 0x10000000 (some .verify))).vimg.cmd = none ∧
    rd (after .install (vimgAt 0x20000000 none)) .nvm 0 0x10C 31 28 = 7 ∧
    rd (after (.installComplete false) (vimgAt 0x10000000 (some .install))) .nvm 0 0x10C 31 28 = 8 ∧
    (after .vimgDiscard (vimgAt 0x20000000 none)).vimg.buf = [] ∧ ptUp (vimgAt 0x20000000 none) .seq = true := by decide

/-! ## Starts and shots -/

/-- Master 0 in service with a good vendor image, START_SRC = src, and a state of its group. -/
def master0 (src : Word) (x : Group) : State :=
  { upWith [(.seq, 112, 0x008, 1), (.seq, 112, 0x040, 0), (.seq, 112, 0x05C, 0x80000000), (.seq, 112, 0x0A0, src)] with groups := [(0, x)] }
theorem witness_starts : startSrc (master0 6 {}) 0 = 6 ∧ refusesStart (master0 6 {}) 0 = false ∧ refusesStart up 0 = true ∧
    (getGroup (after (.shotGo 0) (master0 6 {})) 0).opening = some 24 ∧
    (getGroup (after (.shotGo 0) (master0 6 { running := true })) 0).pend = some (6, 0) ∧
    rdBit (after (.shotGo 0) (master0 6 { running := true, pend := some (6, 0) })) .seq 112 0x010 1 = true ∧
    (getGroup (after (.selfStart 0) (master0 5 {})) 0).opening = some 24 ∧
    (getGroup (after .syncLine (master0 2 {})) 0).opening = some 0x10000 ∧ ptUp up .evt = true := by decide
theorem witness_shotOpen : refusesStart (passTo 24 (master0 6 { opening := some 24 })) 0 = false ∧ 112 ∈ members (master0 6 {}) 0 ∧
    mayRun (master0 6 {}) 112 = true ∧ (getGroup (after (.shotOpen 0) (master0 6 { opening := some 24 })) 0).running = true ∧
    (after (.shotOpen 0) (master0 6 { opening := some 24 })).clk.tc = 24 ∧
    ticksTo (24 : BitVec 48) 0 < 0 := by decide
theorem witness_shotClose : (members (master0 6 { running := true }) 0).all (seqDone (master0 6 { running := true })) = true ∧
    resultsAhead (master0 6 { running := true }) 0 = false ∧
    (getGroup (after (.shotClose 0) (master0 6 { running := true, tag := 3 })) 0).boundary = true ∧
    rd (after (.shotClose 0) (master0 6 { running := true, tag := 3 })) .seq 112 0x0B8 7 0 = 3 ∧
    (master0 6 { boundary := true }).calWin = none := by decide

/-! ## Microwords -/

/-- A microword from its common field C and kind field K, in 16 lanes of 15 bits, each with even parity (R67, R72). -/
def placeWord (q w c k : Nat) (m : Bytes) : Bytes :=
  (List.range 16).foldl (fun m i =>
    let v := (c + 2 ^ 60 * k) / 2 ^ (15 * i) % 2 ^ 15
    let l := if oddOnes 15 v then v + 2 ^ 15 else v
    let a := 0x40000000 + q * 0x40000 + 32 * w + 2 * i
    putByte (putByte m a (BitVec.ofNat 8 l)) (a + 1) (BitVec.ofNat 8 (l / 256))) m
/-- Sequencer q plays its word 0 in a shot of group 0. -/
def playing (q c k : Nat) (x : Seq) : State :=
  { upWith [(.seq, q, 0x008, 1), (.seq, q, 0x040, 0xFE00)] with
    stores := placeWord q 0 c k [], seqs := [(q, { x with inShot := true, st := .run })], groups := [(0, { running := true })] }
def isNext (n : Nat) : Nat := n * 2 ^ 13
theorem witness_word : seqLive (playing 0 0 0 {}) 0 = true ∧ segMode (playing 0 0 0 {}) 0 = false ∧ badLane (playing 0 0 0 {}) 0 0 = none ∧
    (uword (playing 0 (isNext 1 + 5) 0 {}) 0 0).target = 5 ∧
    (getSeq (after (.wordSeq 0) (playing 0 0 0 {})) 0).succ = some (.word 1) ∧
    (getSeq (after (.wordJump 0) (playing 0 (isNext 1 + 5) 0 {})) 0).succ = some (.word 5) ∧
    (getSeq (after (.wordCall 0) (playing 0 (isNext 3 + 5) 0 {})) 0).calls = [1] ∧
    (getSeq (after (.wordEnd 0) (playing 0 (isNext 6) 0 {})) 0).succ = some .fin ∧ seqLive up 0 = false := by decide
theorem witness_wordStacks :
    (getSeq (after (.wordCall 0) (playing 0 (isNext 3 + 5) 0 { calls := List.replicate 8 1 })) 0).st = .stopped ∧
    (getSeq (after (.wordRet 0) (playing 0 (isNext 4) 0 { calls := [7] })) 0).succ = some (.word 7) ∧
    (getSeq (after (.wordRet 0) (playing 0 (isNext 4) 0 {})) 0).st = .stopped ∧
    (getSeq (after (.wordLoop 0) (playing 0 (isNext 5) 0 { loops := [{ start := 3, count := 2 }] })) 0).succ = some (.word 3) ∧
    (getSeq (after (.wordLoop 0) (playing 0 (isNext 5) 0 { loops := [{ start := 3, count := 1 }] })) 0).succ = some (.word 1) ∧
    (getSeq (after (.wordLoop 0) (playing 0 (isNext 5) 0 {})) 0).st = .stopped := by decide
theorem witness_loopOps :
    (getSeq (after (.loopPush 0) (playing 0 (2 ^ 16) (9 * 2 ^ 160) {})) 0).loops = [{ start := 1, count := 9 }] ∧
    rdBit (after (.loopPush 0) (playing 0 (2 ^ 16) 0 {})) .seq 0 0x010 4 = true ∧
    (getSeq (after (.loopPush 0) (playing 0 (2 ^ 16) (9 * 2 ^ 160) { loops := List.replicate 8 { start := 0, count := 2 } })) 0).st = .stopped ∧
    (getSeq (after (.loopBreak 0) (playing 0 (2 * 2 ^ 16) 0 { loops := [{ start := 3, count := 2 }] })) 0).loops = [] ∧
    (getSeq (after (.loopBreak 0) (playing 0 (2 * 2 ^ 16) 0 {})) 0).st = .stopped := by decide
/-- A word with a wait, whose successor is chosen. -/
def waiting (w : Nat) (x : Seq) : State := playing 0 (w * 2 ^ 18 + 100 * 2 ^ 22) 0 { x with succ := some (.word 1) }
theorem witness_waits : badLane (waiting 0 {}) 0 1 = none ∧ (getSeq (after (.waitExpiry 0) (waiting 0 {})) 0).w = 101 ∧
    (getSeq (after (.waitExpiry 0) (waiting 1 {})) 0).w = 100 ∧ (getSeq (after (.waitExpiry 0) (waiting 2 {})) 0).w = 0x10064 ∧
    (getDch (waiting 3 {}) 0).bc ≠ .unresolved ∧ (getSeq (after (.decisionWaitEnd 0) (waiting 3 {})) 0).w = 101 ∧
    goStarts (waiting 4 { met := some 6 }) 0 = false ∧ (getSeq (after (.eventWaitEnd 0) (waiting 4 { met := some 6 })) 0).w = 110 ∧
    after (.eventWaitEnd 0) (waiting 4 {}) = waiting 4 {} ∧
    (getSeq (after (.markWaitEnd 0) (waiting 5 { marks := [(0, 3)] })) 0).w = 107 ∧
    (getSeq (after (.waitTimeout 0) (withRegs [(.seq, 0, 0x07C, 50)] (waiting 4 {}))) 0).w = 150 := by decide

/-- A BR word of 101 ticks: run-ahead on with a prediction, or waiting for its branch. -/
def branching (pred : Nat) (x : Seq) : State := withRegs [(.seq, 0, 0x040, 0xFF00)] (playing 0 (isNext 2 + 5 + 100 * 2 ^ 22) (pred * 2 ^ 177) x)
def aheadOf (t : Bool) : Ahead :=
  { id := 0, word := 0, w := 0, s := 0, predTarget := t, loops := [], calls := [], sweeps := [] }
theorem witness_branches : (getSeq (after (.wordBr 0) (branching 0 {})) 0).br = true ∧ rdBit (branching 2 {}) .seq 0 0x040 8 = true ∧
    (getSeq (after (.wordBr 0) (branching 2 {})) 0).succ = some (.word 5) ∧
    (getSeq (after (.wordBr 0) (branching 1 {})) 0).succ = some (.word 1) ∧
    (getSeq (after (.branchResolve 0) (branching 0 { br := true })) 0).succ = some (.word 1) ∧
    rd (after (.branchResolve 0) (branching 0 { br := true })) .seq 0 0x080 15 0 = 1 ∧
    bcastAt { branching 0 {} with dchs := [(0, { bc := .resolved true, hist := [(0, .unresolved)] })] } 0 0xFFFFFFFFFFFC = .unresolved ∧
    bcastAt { branching 0 {} with dchs := [(0, { bc := .resolved true, hist := [(0, .unresolved)] })] } 0 0 = .resolved true ∧
    (getSeq (after (.branchResolve 0) (branching 1 { ahead := [aheadOf false] })) 0).gates.length = 1 ∧
    (getSeq (after (.branchResolve 0) (branching 2 { ahead := [aheadOf true] })) 0).succ = some (.word 1) ∧
    rd (after (.branchResolve 0) (branching 2 { ahead := [aheadOf true] })) .seq 0 0x080 31 16 = 1 ∧
    (getSeq (after (.commitGateResolution 0) (branching 1 { gates := [(3, true, 5)] })) 0).gates = [] := by decide
/-- Kind fields of a drive word: port 0 plays envelope 1, or adds entry 2 of its phase table. -/
theorem witness_driveActions : (after (.drivePulse 0 0) (playing 0 0 (2 ^ 5) {})).items.length = 1 ∧
    (after (.addA 0 0) (playing 0 0 (2 ^ 16) {})).items.length = 1 ∧ (after (.addSw 0 7) (playing 0 0 (6 * 2 ^ 156) {})).items.length = 1 ∧
    (after (.drivePulse 0 0) (playing 0 0 (2 ^ 5) {})).items.map (·.stamp) = [4] := by decide
theorem witness_otherActions : (after (.park 31 7) (playing 111 0 (4 * 2 ^ 156) {})).items.length = 1 ∧
    (after (.probePulse 0) (playing 64 0 1 {})).items.length = 1 ∧ (after (.windowArm 0) (playing 64 0 (2 ^ 42) {})).items.length = 2 ∧
    (after (.markEn 0) (playing 112 0 1 {})).items.length = 1 ∧ (getGroup (after (.calwin 0) (playing 112 0 32 {})) 0).calReq = true ∧
    tbusOn (withRegs [(.tbus, 0, 0x008, 1), (.tbus, 0, 0x040, 0x87FF000C)] (playing 112 0 64 {})) = true ∧
    (after (.tbusStart 0) (withRegs [(.tbus, 0, 0x008, 1), (.tbus, 0, 0x040, 0x87FF000C)] (playing 112 0 64 {}))).tbusQ.length = 1 ∧
    (after (.evtFire 0) (playing 0 (2 ^ 49) 0 {})).lines = [(1, fireLineOf 0 0, false)] := by decide
theorem witness_sweeps : (getTone (after (.swr 0) (withRegs [(.drv, 0, 0x114, 7)] (playing 0 0 (2 ^ 176) {}))) 0 0).psw =
    toneReg (withRegs [(.drv, 0, 0x114, 7)] (playing 0 0 (2 ^ 176) {})) 0 0 0x14 ∧
    (uword (playing 0 0 (2 ^ 175) {}) 0 0).swp = true ∧
    masterTrigPorts (withRegs [(.ring, 0, 0x044, 0x20)] (playing 112 0 128 {})) ≠ [] := by decide

/-! ## Segments, marks, activations -/

/-- Sequencer 0 in segment mode at entry 0. -/
def segments (entry : Nat) (x : Seq) : State := withRegs [(.seq, 0, 0x040, 0x1FE00)] (playing 0 entry 0 x)
/-- Length 1000, and the fields above it. -/
def entry0 (rep next flags p0 : Nat) : Nat := 1000 + rep * 2 ^ 16 + next * 2 ^ 28 + flags * 2 ^ 40 + p0 * 2 ^ 48
/-- The decision of a play of 1,000 ticks, made once tick D = 996 is past: as it stands in a tick. -/
def decideAt (n : Nat) (e : Nat) (x : Seq) : State := after (.segmentDecide 0) (passTicks n (segments e x))
theorem witness_segments : segLive (segments (entry0 2 1 0 3) {}) 0 = true ∧ segEntry (segments (entry0 2 1 0 3) {}) 0 0 ≠ 0 ∧
    (after (.segmentPlay 0) (segments (entry0 2 1 0 3) {})).items.length = 1 ∧
    (getSeq (decideAt 0 (entry0 2 1 0 3) { plays := 2 }) 0).fixing = true ∧
    (getSeq (decideAt 997 (entry0 2 1 0 3) { plays := 2 }) 0).succAt = some (1000, .again) ∧
    (getSeq (decideAt 1000 (entry0 2 1 0 3) { plays := 2 }) 0).playAt = 1000 ∧
    (getSeq (decideAt 1000 (entry0 1 0 0 3) { plays := 1 }) 0).entry = 0 ∧
    (getSeq (decideAt 997 (entry0 1 0 2 3) { plays := 1 }) 0).endAt = some 1000 ∧
    (getSeq (decideAt 997 (entry0 1 0 1 3) { plays := 1, req := some .stop }) 0).endAt = some 1000 ∧
    rd (decideAt 1000 (entry0 1 1 1 3) { plays := 1, req := some (.jump 0) }) .seq 0 0x094 31 16 = 1 ∧
    rdBit (decideAt 1000 (entry0 1 1 0 3) { plays := 1 }) .seq 0 0x010 10 = true ∧ segLive up 0 = false := by decide
theorem witness_segRequests : (getSeq (after (.segJump 0 5) (segments 0 {})) 0).req = some (.jump 5) ∧
    rd (after (.segStop 0) (segments 0 { req := some (.jump 5) })) .seq 0 0x094 15 0 = 1 ∧ kindOf up 0 = 0 ∧ seqActive up 0 = false ∧
    (getSeq (after (.seqModeWrite 0 true) up) 0).st = .storeBad ∧ seqActive (segments 0 {}) 0 = true ∧ kindOf up 64 ≠ 0 ∧ kindOf up 64 ≠ 2 := by
  decide
/-- An item that waits, due at a stamp, with the clock at a tick. -/
def itemAt (tc : BitVec 48) (stamp : BitVec 16) (l : Payload) (s : State) : State :=
  { s with clk := { s.clk with tc := tc }, items := [{ stamp := stamp, group := some 0, deps := [], load := l }] }
theorem witness_marks : (getSeq (after (.markDue 0) (itemAt 0 4 (.mark 0 7) (playing 0 0 0 {}))) 0).marks = [(7, 4)] ∧
    rdBit (after (.markDue 0) (itemAt 8 4 (.mark 0 7) up)) .seq 112 0x010 0 = true ∧ (after (.markDue 0) up).items = [] := by decide
theorem witness_activations : (getSeq (after (.taskActivation 0) (itemAt 0 4 (.act 0) (playing 0 0 0 {}))) 0).go = some 4 ∧
    goStarts (playing 0 0 0 {}) 0 = false ∧
    rd (after (.taskActivation 0) (itemAt 0 4 (.act 0) (playing 0 0 0 { go := some 1 }))) .seq 0 0x084 15 0 = 1 ∧
    (getSeq (after (.taskActivation 0) (itemAt 0 4 (.act 0) (withRegs [(.seq, 0, 0x088, 0x50000)] (segments 0 {})))) 0).req =
      some (.jump 5) ∧
    rd (after (.taskActivation 0) (itemAt 0 4 (.act 0) (segments 0 { req := some .stop, swAt := some 4 }))) .seq 0 0x094 15 0 = 1 ∧
    (getSeq (after (.taskActivation 0) (itemAt 0 4 (.act 0) (segments 0 { req := some .stop, swAt := some 4 }))) 0).req = some .stop ∧
    rdBit (after (.taskActivation 0) (itemAt 8 4 (.act 0) up)) .seq 0 0x010 0 = true ∧
    rdBit (after (.taskActivation 180) (itemAt 0 4 (.act 180) up)) .evt 0 0x010 8 = true ∧
    (after (.taskActivation 188) (itemAt 0 4 (.act 188) up)).items = [] := by decide

/-! ## Page control, converters -/

theorem witness_pageControl : pathUp up .i3c = true ∧ pageOf 8 = some (.time, 0) ∧ ptUp up .time = true ∧
    wbit (reg (after (.pageLock .i3c 8) up) .time 0 0x008) 2 = true ∧ rd (after (.inhibit .i3c 9) up) .tbus 0 0x008 11 8 = 3 ∧
    rd up .time 0 0x008 11 8 ≠ 1 ∧ rd (after (.forceSpare .i3c 0x101) (upWith [(.seq, 0, 0x008, 0x100)])) .seq 0 0x008 11 8 = 1 ∧
    rd (upWith [(.seq, 0, 0x008, 0x100), (.seq, 0, 0x020, 2)]) .seq 0 0x020 3 0 = 2 ∧ alwaysEnabled .pwr = true ∧
    alwaysEnabled .tbus = false ∧ rdBit up .tbus 0 0x008 0 = false ∧ blockBusy up .tbus 0 = false ∧
    rdBit (after (.enableSet .i3c 9) up) .tbus 0 0x008 0 = true ∧
    rdBit (after (.enableClear .i3c 9) (upWith [(.tbus, 0, 0x008, 1)])) .tbus 0 0x008 0 = false := by decide
theorem witness_pageControlBusy : blockBusy (master0 6 { running := true }) .seq 112 = true ∧
    blockBusy (withRegs [(.seq, 0, 0x040, 8)] running0) .seq 0 = true ∧
    rdBit (withRegs [(.seq, 0, 0x040, 8)] running0) .seq 0 0x008 0 = false ∧
    (after (.enableSet .i3c 16) (withRegs [(.seq, 0, 0x040, 8)] running0)).enWait = [16] ∧
    rdBit (after (.enableClear .i3c 128) (master0 6 { running := true })) .seq 112 0x008 0 = false := by decide
theorem witness_softReset : pageOf 9 = some (.tbus, 0) ∧ blockBusy up .tbus 0 = false ∧
    reg (softReset 9 (upWith [(.tbus, 0, 0x040, 0x87FF000C)])) .tbus 0 0x040 = regReset (addrOf .tbus 0 0x040) ∧
    isResetting (softReset 9 up) .tbus 0 = true ∧ isResetting (after (.softResetDone 9) (softReset 9 up)) .tbus 0 = false := by decide

/-- A port action of output 0, tone 0: envelope e, phase operation op, word tick 4, due at a stamp. -/
def portItem (e op : Nat) (tc : BitVec 48) (s : State) : State := itemAt tc 4 (.port 0 0 8 e 1 op false 0 4 0 0) s
/-- Output 0 in service, with envelope 1 of 64 samples at 0. -/
def drive0 : State := withRegs [(.drv, 0, 0x008, 1), (.drv, 0, 0x80C, 64), (.drv, 0, 0x08C, 5), (.drv, 0, 0x0C0, 0x70003)] running0
/-- R120: the operation stands 36 ticks after the word, START samples later: 32 × 40 + 8. -/
theorem witness_driveDue : ptUp drive0 .drv = true ∧ takeItem (fun l => decide (l = .port 0 0 8 0 1 1 false 0 4 0 0)) drive0.items = none ∧
    (getTone (after (.portActionDue 0 0) (portItem 0 1 0 drive0)) 0 0).ops.map (fun x => (x.sp, x.op)) = [(1288, .add 5)] ∧
    slotBad drive0 0 1 0 4 = false ∧
    (getTone (after (.portActionDue 0 0) (portItem 1 0 0 drive0)) 0 0).pulses.map (fun x => (x.dp, x.len, x.amp)) = [(329728, 64, 7)] ∧
    rdBit (after (.portActionDue 0 0) (portItem 2 0 0 drive0)) .drv 0 0x010 4 = true ∧
    rdBit (after (.portActionDue 0 0) (portItem 1 0 9 drive0)) .drv 0 0x010 0 = true ∧
    (getTone (after (.portActionDue 0 0) (portItem 1 0 9 drive0)) 0 0).pulses.map (·.mute) = [true] := by decide
/-- Output 0's descriptor 0 streams to tone 0 until sample 9,000, in a shot of its group. -/
def streaming0 : State :=
  { withRegs [(.seq, 0, 0x040, 8)] running0 with strms := [(0, { stop := 2304000, got := 64, len := 9000, sp := 1021 })], ports := [(0, { admitted := true })] }
/-- Three of its samples were due and are not there. -/
def starving0 : State := setStream streaming0 0 0 { stop := 2304000, len := 9000, sp := 1021 }
theorem witness_streams : strmBusy up 0 0 = false ∧ strmBusy streaming0 0 0 = true ∧ outGroup streaming0 0 = some 0 ∧
    (getStream (after (.refillData 0 0 64) streaming0) 0 0).got = 128 ∧
    rd (after (.refillUnderrun 0 0 3) starving0) .drv 0 0x050 23 0 = 3 ∧
    (getGroup (after (.refillUnderrun 0 0 3) starving0) 0).tag = tagCorrupt ∧
    seqGroup streaming0 0 = some 0 ∧ (getGroup (after (.mute 0 true) streaming0) 0).tag = tagCorrupt ∧
    rd (after (.toneVerify 0 5 true) up) .drv 0 0x05C 21 16 = 5 ∧ outMuted (after (.dacFault 0) up) 0 = true := by decide

/-- Flux output 0 follows its schedule. -/
def flux0 (x : Flux) : State := { upWith [(.flx, 0, 0x008, 1), (.flx, 0, 0x104, 100), (.flx, 0, 0x108, 256)] with fluxes := [(0, x)] }
def fluxItem (fop : Nat) (tc : BitVec 48) (s : State) : State := itemAt tc 4 (.flux 0 3 0 31 fop 0 4 77) s
theorem witness_fluxDue : fluxHeld (flux0 { holder := false }) 0 = false ∧ fluxHeld up 0 = true ∧
    (takeItem (fun l => decide (l = .flux 0 3 0 31 3 0 4 77)) (fluxItem 3 0 (flux0 { holder := false })).items).isSome = true ∧
    isLate { stamp := 4, group := some 0, deps := [], load := .flux 0 3 0 31 4 0 4 77 } (fluxItem 4 9 up) = true ∧
    fluxAmp up 0 31 77 = 77 ∧
    (after (.fluxActionDue 0) (fluxItem 4 0 up)).items = [] ∧ (after (.fluxActionDue 0) up).items = [] := by decide
theorem witness_fluxRamp : (flux0 { holder := false, ramp := some true, next := 96 }).clk.tc.toNat + 2 < 2 ^ 48 - 24 ∧
    fluxNow (flux0 { holder := false, ramp := some true, next := 96 }) = 96 ∧ ptUp (flux0 {}) .time = true ∧
    parkCode (flux0 {}) 0 = 100 ∧ rampRate (flux0 {}) 0 = 256 ∧
    ({ flux0 { holder := false } with resetting := [0x240] } : State).resetting = [0x240] ∧
    isResetting { flux0 { holder := false } with resetting := [0x240] } .flx (flxPage 0) = true ∧
    (getFlux (after (.pdClr 0) up) 0).clr = true ∧ fluxHeld (after (.dacFault 80) (flux0 {})) 0 = true ∧
    flxRd (after (.parkNow 0 true) (flux0 {})) 0 0x00 0 0 = 1 := by decide

/-! ## Read-out -/

/-- Demodulator 0 listens for 8 ticks; its windows. -/
def demod0 (ws : List Win) : State :=
  { upWith [(.rdi, 0, 0x008, 1), (.rdi, 0, 0x40C, 0x80000)] with demods := [(0, { wins := ws })] }
def armItem (tc : BitVec 48) (s : State) : State := itemAt tc 4 (.arm 0 4 10) s
def win0 (o : BitVec 48) : Win := { openAt := o, len := 2, due := 4, group := some 0, deps := [] }
/-- The causes of the VOID words that arms of a state leave to be formed. -/
def refusals (s : State) : List Nat := (getDemod (after (.windowArmDue 0) s) 0).refused.map (·.cause)
/-- R173: the window opens 36 + 10 ticks after its word. -/
theorem witness_arms : ptUp (demod0 []) .rdi = true ∧ isResetting (demod0 []) .rdi 0 = false ∧ winErr (demod0 []) 0 = false ∧
    (getDemod (after (.windowArmDue 0) (armItem 0 (demod0 []))) 0).wins.map (fun w => (w.openAt, w.len)) = [(50, 8)] ∧
    winErr up 0 = true ∧ rdBit (after (.windowArmDue 0) (armItem 0 up)) .rdi 0 0x010 2 = true ∧
    (getDemod (after (.windowArmDue 0) (armItem 0 up)) 0).refused.map (fun r => (r.cause, r.form)) = [(6, 8)] ∧
    shareTick 56 2 50 8 = true ∧ shareTick 58 2 50 8 = false ∧
    refusals (armItem 0 (demod0 [win0 56])) = [2] ∧
    (getDemod (after (.windowArmDue 0) (armItem 0 (demod0 [win0 58]))) 0).wins.length = 2 ∧
    rdBit (after (.windowArmDue 0) (armItem 0 (demod0 [win0 58, win0 70]))) .rdi 0 0x010 1 = true ∧
    refusals (armItem 9 (demod0 [])) = [1] ∧
    refusals (armItem 0 { demod0 [] with resetting := [0x120] }) = [7] ∧
    (formRefused 0 (demod0 []) { cause := 2, due := 4, form := 8, group := none, deps := [] }).items.map (·.stamp) = [12] ∧
    rd (formRefused 0 (demod0 []) { cause := 2, due := 4, form := 8, group := none, deps := [] }) .rdi 0 0x438 11 9 = 2 := by decide
theorem witness_windows : (getDemod (demod0 [win0 20]) 0).wins = [win0 20] ∧ (List.replicate 192 (0 : BitVec 12)).length = 192 ∧
    (List.replicate 256 (0 : BitVec 12)).length = 32 * ((win0 20).len + 6) ∧
    firstEnd [win0 20, win0 10] = some (win0 10) ∧
    (after (.windowClose 0 [] [1]) (demod0 [win0 20])).items = [] ∧ (getDemod up 0).wins = [] ∧ { win0 20 with withdrawn := true }.withdrawn = true := by decide
/-- Read-out input 0 with its shadow on, a limit of 9, and a state of its rotation. -/
def rdi0 (x : Rdi) : State := { upWith [(.rdi, 0, 0x008, 1), (.rdi, 0, 0x040, 2), (.rdi, 0, 0x070, 9)] with rdis := [(0, x)] }
theorem witness_slices : shadowPaused (rdi0 {}) 0 = false ∧ shadowPaused up 0 = !rdBit up .rdi 0 0x040 1 ∧
    shadowPaused (rdi0 { quiet := true }) 0 = true ∧ (getRdi (after (.shadowStep 0 ⟨9, 0, 0⟩ 1 2 3) (rdi0 {})) 0).ready = true ∧
    (getRdi (after (.shadowStep 0 ⟨10, 0, 0⟩ 1 2 3) (rdi0 {})) 0).fails = 1 ∧
    rdBit (after (.shadowStep 0 ⟨10, 0, 0⟩ 1 2 3) (rdi0 { fails := 1 })) .rdi 0 0x018 0 = true ∧
    handoverOk (rdi0 { ready := true }) 0 = true ∧ sliceAt (after (.handover 0) (rdi0 { ready := true })) 0 0 = 16 ∧
    (getRdi (after (.handover 0) (rdi0 { ready := true, pos := 15 })) 0).spare = 15 ∧
    (getRdi (after (.handover 0) (rdi0 { ready := true, pos := 15 })) 0).pos = 0 ∧
    rdBit (after (.inputQuiet 0 (256 * 255 + 1)) up) .rdi 0 0x010 9 = true ∧ rdBit (after (.inputQuiet 0 0) up) .rdi 0 0x010 9 = false ∧ rd (after (.inputOverrange 0) up) .rdi 0 0x04C 31 0 = 1 ∧
    up.seen.contains ((ptBase .rdi + 0) * 32 + 3) = false ∧ rdBit (after (.adcFault 0) up) .rdi 0 0x018 1 = true := by decide

/-! ## Ladle and event router -/

/-- Ladle in service, slot 3 enabled for demodulator 0. -/
def ladle0 : State := { upWith [(.ladle, 0, 0x008, 1)] with slots := [(3, { cfg := 0x80000000 })] }
def resultItem (r : Res) (tc : BitVec 48) (s : State) : State := itemAt tc 4 (.result r) s
/-- A field of slot 3's entry, 5 ticks after a result was accepted. -/
def entryAt5 (r : Res) (tc : BitVec 48) (hi lo : Nat) : Nat :=
  rd (ladleCatch (passTicks 5 (after (.resultDue 0) (resultItem r tc ladle0)))) .ladle 0 (entryOff 3) hi lo
theorem witness_results : ptUp ladle0 .ladle = true ∧ ladleOn ladle0 = true ∧ slotsOf ladle0 0 = [3] ∧ slotsOf ladle0 1 = [] ∧
    (after (.resultDue 0) (resultItem { state := 1 } 0 ladle0)).ladleJobs = [(5, .write 3 { state := 1 } 1 false)] ∧
    entryAt5 { state := 1 } 0 31 30 = 2 ∧ entryAt5 { state := 1 } 0 19 18 = 1 ∧ entryAt5 { state := 1 } 9 31 30 = 1 ∧
    rdBit (after (.resultDue 0) (resultItem {} 9 ladle0)) .ladle 0 0x010 0 = true ∧
    rdBit (after (.resultDue 1) (resultItem { demod := 1 } 0 ladle0)) .ladle 0 0x010 3 = true ∧
    rd (after (.resultDue 0) (resultItem { void := true, cause := 3 } 0 ladle0)) .ladle 0 0x054 15 0 = 1 ∧
    (after (.resultDue 0) ladle0).items = [] := by decide
theorem witness_armsAndFrames : rd (after (.armCopyDue 0) (itemAt 0 4 (.armCopy 0) ladle0)) .ladle 0 (entryOff 3) 28 25 = 1 ∧
    (after (.armCopyDue 0) (itemAt 0 4 (.armCopy 0) ladle0)).provArms = [] ∧ isLate { stamp := 4, group := none, deps := [], load := .armCopy 0 } ladle0 = false ∧
    slotFx (getSlot (after .frameUpdateDue (itemAt 0 4 (.frame true [(3, true, false)] [33] []) ladle0)) 3) = true ∧
    slotFz (getSlot (after .frameUpdateDue (itemAt 0 4 (.frame true [(3, true, false)] [33] []) ladle0)) 3) = false ∧
    rdBit (after .frameUpdateDue (itemAt 0 4 (.frame true [] [33] []) ladle0)) .ladle 0 0x084 1 = true ∧
    rdBit (after .frameUpdateDue (itemAt 9 4 (.frame true [] [] []) ladle0)) .ladle 0 0x010 0 = true ∧
    (getSlot (after (.tableParity false 3) ladle0) 3).bad = true ∧ (getDch (after (.tableParity true 511) ladle0) 63).bad = true := by decide
/-- Slot 0 is bound to drive sequencer 0, whose group's shot runs, or does not. -/
theorem witness_slotWrites : bindBusy ladle0 0 0 = false ∧ (getSlot (after (.slotBindWrite 7) ladle0) 0).bind = 7 ∧
    bindBusy streaming0 0 0 = true ∧ (getSlot (after (.slotBindWrite 7) streaming0) 0).hBind = some 7 ∧
    rdBit (after (.slotBindWrite 7) streaming0) .ladle 0 0x010 4 = true ∧ slotFx (getSlot (after (.slotCfgWrite 1) ladle0) 0) = true ∧
    rd (after (.slotCfgWrite 1) (upWith [(.ladle, 0, 0x048, 0x800001FF)])) .ladle 0 0x048 8 0 = 0 ∧
    seqShotRuns streaming0 (slotDrvSeq {}) = true ∧ (getSlot (after (.slotCfgWrite 2) streaming0) 0).hFrame = some (false, true) ∧
    (List.range 8).any (shotRuns streaming0) = true ∧ (List.range 8).any (shotRuns ladle0) = false := by decide
theorem witness_channels : (getDch (after (.broadcastDue 5) (itemAt 0 4 (.bcast 5 .unresolved) ladle0)) 5).bc = .unresolved ∧
    (getDch (after (.broadcastDue 5) (itemAt 0 4 (.bcast 5 .unresolved) ladle0)) 5).hist = [(4, .void)] ∧
    (after (.broadcastDue 5) up).items = [] ∧ reg (after (.dchWrite 255 0xFFFFFFFF) ladle0) .ladle 0 0x7FC = 0x3FFFF ∧
    (after (.dchWrite 255 0) ladle0).ladleJobs = [(1, .eval)] ∧
    (ladleCatch (passTicks 3 (after (.dchWrite 255 0) ladle0))).items.map (·.stamp) = [2, 3] ∧
    (getDch (after .clrLost { ladle0 with dchs := [(5, { cur := .lost, bc := .lost })] }) 5).cur = .unresolved ∧ rd up .ladle 0 0x040 15 0 = 0 ∧
    rd (upWith [(.ladle, 0, 0x008, 1), (.ladle, 0, 0x040, 100), (.ladle, 0, 0x400, 0x40001)]) .ladle 0 0x040 15 0 ≠ 0 ∧
    (getDch (after .resend (upWith [(.ladle, 0, 0x008, 1), (.ladle, 0, 0x040, 100), (.ladle, 0, 0x400, 0x40001)])) 0).sent = 1 := by decide
/-- The router in service, with a limit, and the firings so far. -/
def router (l : List (PT × Nat × Nat × Word)) : State := upWith ((.evt, 0, 0x008, 1) :: l)
/-- The router once the tick is over. -/
def nextTick (s : State) : State := lineCatch (passTicks 1 s)
def fired0 : Fire := { line := 5, at_ := 0, delivered := true, counted := true }
theorem witness_lines : ptUp up .evt = true ∧ enabled up .evt 0 = false ∧ enabled (router []) .evt 0 = true ∧
    (router []).fires = [] ∧ lineBit (router [(.evt, 0, 0x060, 0x20)]) 0x060 5 = true ∧ lineBit (router []) 0x060 5 = false ∧
    (after (.evtFireWrite 0 0x20) (router [])).lines = [(0, 5, true)] ∧
    lineBit (nextTick (after (.evtFireWrite 0 0x20) (router []))) 0x080 5 = true ∧
    rd (nextTick (after (.evtFireWrite 0 0x20) (router [(.evt, 0, 0x060, 0x20)]))) .evt 0 0x044 15 0 = 1 ∧
    guardCount 1 5 { router [(.evt, 0, 0x040, 1)] with clk := { tc := 1 }, fires := [fired0] } = 1 ∧
    lineBit (nextTick (after (.evtFireWrite 0 0x20) { router [(.evt, 0, 0x040, 1)] with clk := { tc := 1 }, fires := [fired0] })) 0x060 5 = true ∧
    actWaits 0 1 (router []) = false ∧ reg (after (.lineDisWrite 0 0x20) (router [(.evt, 0, 0x060, 0x30)])) .evt 0 0x060 = 0x10 ∧
    (after (.lineDisWrite 0 0x20) { router [] with fires := [fired0] }).fires.map (·.counted) = [false] := by decide

/-! ## Mortar -/

/-- A stream of five rounds of 450 ticks from tick 1,000 over tinyGraph, with W = 8 and K = 4. -/
def stream0 (m : Mort) : State :=
  { upWith [(.mortar, 0, 0x008, 1), (.mortar, 0, 0x044, 1000), (.mortar, 0, 0x048, 450), (.mortar, 0, 0x04C, 5), (.mortar, 0, 0x050, 1),
      (.tile, 3, 0x008, 1), (.tile, 3, 0x040, 0x08000000)] with
    stores := tinyGraph, mort := m, groups := [(0, { running := true, t0 := 0 })] }
def detItem (slot st : Nat) (tc : BitVec 48) (s : State) : State := itemAt tc 1004 (.det slot 0 st) s
theorem witness_detections : ptUp (stream0 {}) .mortar = true ∧ rndCount (stream0 {}) = 5 ∧ roundOf (stream0 {}) 1004 = 1 ∧
    roundOf (stream0 {}) 1000 = 0 ∧ detOf tinyGraph 0 = some (0, 0) ∧ detOf tinyGraph 1 = none ∧
    (after (.detectionInputDue 0) (stream0 {})).items = [] ∧ (after (.detectionInputDue 0) (detItem 0 1 0 (stream0 {}))).mort.ins = [] ∧
    (after (.detectionInputDue 0) (detItem 0 1 0 (stream0 { run := true }))).mort.ins = [(1, 0, 1)] ∧
    rdBit (after (.detectionInputDue 1) (detItem 1 1 0 (stream0 { run := true }))) .mortar 0 0x010 4 = true ∧
    rd (after (.detectionInputDue 0) (detItem 0 1 0 { stream0 { run := true, t0 := -2000 } with mort := { run := true, t0 := -2000 } }))
      .mortar 0 0x078 15 0 = 1 ∧
    rdBit (after (.detectionInputDue 0) (detItem 0 1 1009 (stream0 { run := true }))) .mortar 0 0x010 0 = true ∧
    (getGroup (after (.detectionInputDue 0) (detItem 0 1 1009 (stream0 { run := true }))) 0).tag = tagLate ||| tagFrame := by decide
theorem witness_rounds : (after .roundClose (stream0 { run := true, ins := [(0, 0, 1)] })).mort.refs = [0] ∧
    (after .roundClose (stream0 { run := true, ins := [(0, 0, 1)] })).mort.events = [(0, 0)] ∧
    (after .roundClose (stream0 { run := true, rounds := 1, refs := [0], ins := [(1, 0, 1)] })).mort.events = [] ∧
    (after .roundClose (stream0 { run := true, rounds := 4, refs := [0], ins := [(4, 0, 0)] })).mort.events = [(4, 0)] ∧
    (after .roundClose (stream0 { run := true })).clk.tc = 1001 ∧
    rdBit (after .roundClose (stream0 { run := true })) .mortar 0 0x010 2 = true ∧
    (after .roundClose (stream0 { run := true, rounds := 5 })).mort.rounds = 5 ∧ (gDets tinyGraph).contains (0, gDet tinyGraph 0) = true ∧
    detKind (gDet tinyGraph 0) = 0 ∧ detExcl0 (gDet tinyGraph 0) = false := by decide
/-- W = 8 rounds hold the whole stream, so its one window is final; it is complete CLOSE_LAG after C(4) = 2,800. -/
theorem witness_decodeWindows : windowOf (stream0 {}) 0 = (0, 4, true) ∧ (windowOf (withRegs [(.mortar, 0, 0x04C, 9)] (stream0 {})) 0).2.2 = false ∧
    (after .decodeWindowComplete (stream0 { run := true, rounds := 5 })).clk.tc = 2801 ∧
    (after .decodeWindowComplete (stream0 { run := true, wins := 1 })).mort.wins = 1 ∧
    (after .decodeWindowComplete (withRegs [(.mortar, 0, 0x04C, 9)] (stream0 { run := true, wins := 1 }))).mort.wins = 2 ∧
    windowY (stream0 { run := true }) 0 + 900 = 3701 ∧ (stream0 { run := true, wins := 1 }).mort.issued < 1 ∧
    (after (.windowOutputIssue 3 9 []) (stream0 { run := true, wins := 1, issued := 1 })).mort.issued = 1 := by decide
theorem witness_tiles : rdBit (after (.testDecode 3 false) up) .tile 3 0x018 0 = true ∧ rd (after (.tileParity 16) up) .tile 16 0x044 15 0 = 1 ∧
    tileServes (stream0 {}) 3 = true ∧ tileServes up 3 = false ∧ (after (.tileParity 3) (stream0 { run := true, wins := 1 })).mort.wrecked = true ∧
    (after (.tileParity 4) (withRegs [(.tile, 4, 0x040, 0)] (stream0 { run := true, wins := 1 }))).mort.wrecked = false ∧
    (after .graphParity (stream0 { run := true })).mort = {} ∧ rd (after .graphParity up) .mortar 0 0x070 31 29 = 4 ∧
    (after .graphParity (stream0 { run := true })).items.map (·.stamp) = [4] := by decide

/-! ## Capture -/

/-- Unit 0 listens to flux output 0's code stream into 64 KiB at 0, with both its ports admitted; a status and a state. -/
def unit0 (st : Word) (x : Cap) : State :=
  { upWith [(.cap, 0, 0x008, 1), (.cap, 0, 0x044, 0x70000000), (.cap, 0, 0x060, 1024), (.cap, 0, 0x064, 4), (.cap, 0, 0x068, 4),
      (.cap, 0, 0x06C, 8), (.cap, 0, 0x074, st), (.cap, 0, 0x108, 0x09000000), (.cap, 0, 0x200, 0x80000141)] with
    caps := [(0, x)], ports := [(80, { bw := 240, lat := 400, size := 0x10000, admitted := true }),
      (88, { bw := 240, lat := 400, size := 0x10000, admitted := true })] }
/-- A trigger taken in tick 0, and records waiting. -/
def trig0 : CapTrig := { t := 0, sample := 0, left := 0, cond := 0, also := 0, late := false, at_ := 0, old := (1, 2, 3), oldEvt := false }
def rec0 (b : Bool) : CapRec := { base := 0, ring := 0x10000, place := 0, size := 576, first := 2, last := 5, mt := 7, released := b, plen := 512 }
theorem witness_arm : ptUp (unit0 0 {}) .cap = true ∧ capCfgOk (unit0 0 {}) 0 = true ∧ capRangeOk (unit0 0 {}) 0 = true ∧ capPortOk (unit0 0 {}) 0 = true ∧
    capSizeOk (unit0 0 {}) 0 = true ∧ stage (unit0 0 {}) = 0 ∧ 1 ≤ stage (withRegs [(.pwr, 0, 0x054, 0x20000000)] (unit0 0 {})) ∧
    capStatus (after (.arm 0) (unit0 0 {})) 0 = 1 ∧
    capStatus (after (.arm 0) (withRegs [(.pwr, 0, 0x054, 0x20000000)] (unit0 0 {}))) 0 = 0xB ∧
    capStatus (after (.arm 0) (withRegs [(.cap, 0, 0x008, 0)] (unit0 0 {}))) 0 = 0xA ∧
    capStatus (after (.arm 0) (withRegs [(.cap, 0, 0x058, 64)] (unit0 0 {}))) 0 = 9 ∧
    capStatus (after (.arm 0) { unit0 0 {} with ports := [(80, { bw := 240, size := 0x10000, admitted := true })] }) 0 = 8 ∧
    capStatus (after (.arm 0) (withRegs [(.cap, 0, 0x068, 10000)] (unit0 0 {}))) 0 = 7 ∧ (after (.arm 0) (unit0 1 {})).caps = (unit0 1 {}).caps := by
  decide
theorem witness_abort : capStatus (after (.abort 0) (unit0 2 {})) 0 = 5 ∧ capStatus (after (.abort 0) (unit0 4 {})) 0 = 4 ∧
    (getCap (unit0 4 {}) 0).ended ≠ some (unit0 4 {}).clk.tc ∧ trig0.at_ = (unit0 3 {}).clk.tc ∧
    reg (after (.abort 0) (unit0 3 { trig := some trig0 })) .cap 0 0x080 = 2 ∧
    reg (after (.clrCnt 0) (withRegs [(.cap, 0, 0x318, 7)] up)) .cap 0 0x318 = 0 := by decide
/-- R257, R258: condition 0 of state 0 is true in every tick, triggers, and goes to state 4. -/
theorem witness_trigger : predType (unit0 0 {}) 0 1 = 9 ∧ condOff 0 0 = 0x200 ∧ rd (unit0 0 {}) .cap 0 (condOff 0 0) 2 0 = 1 ∧
    (∀ i, i < 4 → i ≠ 0 → rdBit (unit0 0 {}) .cap 0 (condOff 0 i) 31 = false) ∧
    (∀ i, i < 4 → rdBit (unit0 0x01000002 {}) .cap 0 (condOff 1 i) 31 = false) ∧
    preFull (unit0 2 {}) 0 0 = false ∧ preFull (unit0 2 { a0 := -4 }) 0 0 = true ∧
    capStatus (after (.triggerSample 0) (unit0 2 { a0 := -4 })) 0 = 3 ∧ capState (after (.triggerSample 0) (unit0 2 { a0 := -4 })) 0 = 4 ∧
    (after (.triggerSample 0) (unit0 2 { a0 := -4 })).lines.map (·.2.1) = [96] ∧
    rd (after (.triggerSample 0) (unit0 1 {})) .cap 0 0x088 15 0 = 1 ∧
    capStatus (after (.triggerSample 0) (withRegs [(.cap, 0, 0x040, 0x80000)] (unit0 1 {}))) 0 = 3 ∧
    (getCap (after (.triggerSample 0) (unit0 0x01000002 {})) 0).done = some 0 := by decide
theorem witness_items : capDense 7 = true ∧ capItemSize (capKind (unit0 2 {}) 0) = 8 ∧ capLag 7 = 4 ∧
    (getCap (after (.sourceItem 0 10 [1, 2, 3, 4, 5, 6, 7, 8]) (unit0 2 {})) 0).hist.map (·.tick) = [10] ∧
    (after (.sourceItem 0 10 [1, 2, 3, 4, 5, 6, 7, 8]) (unit0 2 {})).clk.tc = 14 ∧
    (getCap (after (.sourceItem 0 10 [1]) (unit0 2 {})) 0).hist.map (·.bytes.length) = [8] ∧ (getCap (after (.hitDue 0 10 (.result false 1)) (unit0 2 {})) 0).hits.length = 1 ∧
    (getCap (after (.hitDue 0 10 (.result false 1)) (unit0 0 {})) 0).hits = [] ∧
    capStatus (after (.preFilled 0) (unit0 1 {})) 0 = 2 ∧ (after (.preFilled 0) (unit0 1 {})).clk.tc = 4 ∧ capDense 4 = false ∧
    capStatus (after (.preFilled 0) (withRegs [(.cap, 0, 0x044, 0x40000000), (.cap, 0, 0x064, 0)] (unit0 1 {}))) 0 = 2 ∧
    captureFull (beginRecords 0 (unit0 3 { trig := some trig0, got := some 3 })) 0 = true ∧
    captureFull (beginRecords 0 (unit0 3 { trig := some trig0, got := some 2 })) 0 = false ∧
    capStatus (after (.captureComplete 0) (unit0 3 { trig := some trig0, got := some 3 })) 0 = 4 := by decide
/-- Egress of unit 0 through host port 0, whose lanes are locked, with destination 0 valid or not. -/
def egress0 (valid : Bool) (x : Cap) : State :=
  withRegs [(.cap, 0, 0x300, 0x80000000), (.host, 0, 0x008, 1), (.host, 0, 0x060, 0x20000000),
    (.host, 0, 0x104, if valid then 0x80000000 else 0)] (unit0 0 x)
theorem witness_records : (releaseFirst (unit0 0 {}) 0 [rec0 true, rec0 false]).isSome = true ∧ releaseFirst running0 0 [rec0 false] = none ∧
    releaseFirst (unit0 0 {}) (capGroup (unit0 0 {}) 0) [] = none ∧
    pantryByte (after (.recordRelease 0) { unit0 0 { recs := [rec0 false] } with groups := [(0, { past := [(0, 3, 9)] })] }) 2 = 9 ∧
    egrReady (egress0 true {}) 0 = true ∧ egrReady up 0 = false ∧ egrDest (egress0 false {}) 0 = none ∧ egrDest (egress0 true {}) 0 = some 0 ∧
    rd (after (.recordSend 0) (egress0 false { recs := [rec0 true] })) .cap 0 0x318 31 0 = 1 ∧
    headerDue (egress0 true { hdrMt := some 7 }) 0 7 = false ∧
    (after (.recordSend 0) (egress0 true { hdrMt := some 7, recs := [rec0 true] })).outbox.length = 1 ∧
    rd (after (.recordSend 0) (egress0 true { hdrMt := some 7, recs := [rec0 true] })) .cap 0 0x310 31 0 = 1 ∧
    egrOn (after (.egrEnable 0) up) 0 = true ∧ egrDest up 0 = none := by decide

/-! ## Pantry -/

/-- Port 0 is selected, and has a region of 64 KiB at 0x10000. -/
def port0 (x : Port) : State := { up with ports := [(0, x)] }
def ask0 : Port := { bw := 240, lat := 384, base := 0x10000, size := 0x10000 }
theorem witness_ledger : ptUp up .pantry = true ∧ rd up .pantry 0 0x048 6 0 = 0 ∧ rd (upWith [(.pantry, 0, 0x048, 96)]) .pantry 0 0x048 6 0 = 96 ∧
    (getPort (after .portAdmit (port0 ask0)) 0).admitted = true ∧ (getPort (after .portAdmit (port0 { ask0 with bw := 240 * 32 })) 0).admitted = true ∧
    (getPort (after .portAdmit (port0 { ask0 with admitted := true })) 0).result = 1 ∧ (getPort (after .portAdmit (port0 { ask0 with size := 0 })) 0).result = 2 ∧
    (getPort (after .portAdmit (port0 { ask0 with base := 0 })) 0).result = 2 ∧
    (getPort (after .portAdmit { up with ports := [(0, ask0), (5, { ask0 with base := 0x1FFFF, admitted := true })] }) 0).result = 3 ∧
    (getPort (after .portAdmit { up with ports := [(0, ask0), (5, { ask0 with base := 0x20000, admitted := true })] }) 0).result = 0 ∧
    (getPort (after .portAdmit (port0 { ask0 with lat := 383 })) 0).result = 4 ∧
    (getPort (after .portAdmit (port0 { ask0 with bw := 240 * 32 + 1 })) 0).result = 5 ∧ (getPort (after .portAdmit (port0 { ask0 with bw := 0 })) 0).result = 5 ∧
    liveChannels up = 32 ∧ (getPort (after .portRelease (port0 { ask0 with admitted := true })) 0).admitted = false ∧
    portActive { streaming0 with ports := [(0, { ask0 with admitted := true })] } 0 = true ∧ portActive (port0 ask0) 0 = false ∧
    (getPort (after .portRelease { streaming0 with ports := [(0, { ask0 with admitted := true })] }) 0).result = 6 := by decide
theorem witness_maps : rdBit up .pantry 0 0x008 2 = false ∧ anyAdmitted up = false ∧ anyAdmitted (port0 { ask0 with admitted := true }) = true ∧
    rd (after (.mapWrite 8 0xFFFF) up) .pantry 0 0x0A0 14 0 = 0x7FFF ∧
    rdBit (after (.mapWrite 8 1) (port0 { ask0 with admitted := true })) .pantry 0 0x010 1 = true ∧
    rdBit (upWith [(.pantry, 0, 0x008, 4)]) .pantry 0 0x008 2 = true := by decide
/-- A request in its queue, of port 0 with a latency of 400. -/
def req0 (l : Nat) (d : List Byte) : PReq := { id := 7, port := 0, ch := 3, addr := 0, deadline := 400, level := l, data := d }
def queue0 (l : List PReq) : State := { port0 { ask0 with lat := 400, admitted := true } with preqs := l }
theorem witness_requests : portReads 0 = true ∧ portWrites 0 = false ∧ portWrites 80 = true ∧ mgmtMay up 0x3FFFF 1 = true ∧ mgmtMay up (2 ^ 35 - 64) 64 = false ∧
    (after (.pantryRequest 0 0x10000 none) (queue0 [])).preqs.map (fun q => (q.deadline, q.data.length)) = [(400, 64)] ∧
    (after (.pantryRequest 0 0x1FFFF none) (queue0 [])).preqs.length = 1 ∧ (after (.pantryRequest 0 0x20000 none) (queue0 [])).preqs = [] ∧
    pantryByte (after (.pantryRequest 96 5 (some [1, 2])) up) 6 = 2 ∧ ([1, 2] : List Byte).length ≤ 64 - 5 % 64 := by decide
theorem witness_escalation : (after (.escalation 7) (queue0 [req0 0 []])).clk.tc = 200 ∧ (after (.escalation 7) (queue0 [req0 0 []])).preqs = [req0 1 []] ∧
    (after (.escalation 7) (queue0 [req0 1 []])).clk.tc = 304 ∧ (after (.escalation 7) (queue0 [req0 2 []])).preqs = [req0 2 []] ∧
    (after (.escalation 8) (queue0 [req0 0 []])).preqs = [req0 0 []] ∧ (after (.deadlineMiss 7) (queue0 [req0 2 []])).clk.tc = 401 ∧
    rdBit (after (.deadlineMiss 7) (queue0 [req0 2 []])) .pantry 0 0x018 0 = true ∧ (getPort (after (.deadlineMiss 7) (queue0 [req0 2 []])) 0).breach = 1 := by
  decide
theorem witness_served : (after (.pantryRequestDone 7 ⟨0, 0, false⟩) (queue0 [req0 0 []])).preqs = [] ∧
    servedBefore up { req0 1 [] with id := 6 } (req0 0 []) = true ∧
    (after (.pantryRequestDone 7 ⟨0, 0, false⟩) (queue0 [{ req0 1 [] with id := 6 }, req0 0 []])).preqs.length = 2 ∧
    servedBefore up (req0 0 []) (req0 0 []) = false ∧ 0 ≤ ticksTo (queue0 []).clk.tc (req0 0 []).deadline ∧
    (getHPort up 0).replies = [] ∧ (getHPort up 1).replies = [] ∧
    rdBit (after (.pantryRequestDone 7 ⟨0, 4, false⟩) (queue0 [req0 0 [1]])) .pch 3 0x018 0 = true ∧
    (after (.pantryRequestDone 7 ⟨0, 0, true⟩) (queue0 [req0 0 [1]])).marked = [(3, 0)] := by decide
theorem witness_refresh : escalated (queue0 [req0 2 []]) 3 2 = true ∧ escalated up 3 1 = false ∧ up.retired = [] ∧
    rd (after (.bankRefresh 3 true) (queue0 [req0 2 []])) .pch 3 0x040 2 0 = 1 ∧
    rd (after (.bankRefresh 3 true) (withRegs [(.pch, 3, 0x040, 4)] (queue0 [req0 2 []]))) .pch 3 0x044 31 16 = 1 ∧
    rd (after (.bankRefresh 3 false) (upWith [(.pch, 3, 0x040, 4)])) .pch 3 0x040 2 0 = 0 ∧
    rd (after (.retrainSlot 3 5 60 false) (upWith [(.pch, 3, 0x05C, 6)])) .pch 3 0x040 31 28 = 2 ∧
    rd (after (.retrainSlot 3 6 60 false) (upWith [(.pch, 3, 0x05C, 6)])) .pch 3 0x040 31 28 ≠ 2 ∧
    rdBit (after (.retrainSlot 3 5 60 true) { upWith [(.pch, 3, 0x05C, 6)] with trainSlots := [(3, some (0, 1))] }) .pch 3 0x018 1 = true ∧
    rdBit (after (.retrainSlot 3 5 60 false) { upWith [(.pch, 3, 0x05C, 6)] with trainSlots := [(3, some (0, 63))] }) .pch 3 0x018 1 = true := by decide
/-- Channel 2's retirement is pending. -/
def retiring (x : State) : State := { x with subs := [{ kind := 7, inst := 2, unit := 0 }] }
/-- Channel 2 is being evacuated. -/
def evacuating : State := { upWith [(.pantry, 0, 0x0A4, 0x20020000)] with evac := some 2 }
theorem witness_retirement : up.evac = none ∧ up.retWait = [] ∧ (after (.retirementStart 2) (retiring up)).evac = some 2 ∧
    rd (after (.retirementStart 2) (retiring up)) .pantry 0 0x0A4 31 28 = 2 ∧ (after (.retirementStart 2) up).evac = none ∧
    (after (.retirementStart 2) (retiring { up with evac := some 5 })).retWait = [2] ∧
    rd (after (.retirementStart 2) (retiring { up with retired := (List.range 32).filter (· ≠ 2) })) .pch 2 0x020 3 0 = 3 ∧
    (after (.evacuationDone 2) { evacuating with pantry := [(5, some 1), (2 ^ 35 - 1, some 2)] }).pantry = [(5, some 1)] ∧
    (after (.evacuationDone 2) evacuating).retired = [2] ∧ (after (.evacuationDone 2) { up with evac := some 2 }).retired = [] ∧
    (after (.channelLoss 2) { up with pantry := [(5, some 1), (130, some 2)] }).pantry = [(5, some 1)] ∧ placeChannel up 130 = 2 ∧
    rdBit (after (.channelLoss 2) up) .pantry 0 0x018 2 = true ∧ 2 ∉ ({ up with evac := some 5 } : State).retired ∧
    (after (.channelLoss 2) { up with retired := [2] }).retired = [2] := by decide

/-! ## Lanes -/

theorem witness_lanes : ptUp up .lane = true ∧ rdBit (upWith [(.lane, 7, 0x04C, 0x0F000000)]) .lane 7 0x04C 27 = true ∧
    rd (after (.los 7) (upWith [(.lane, 7, 0x04C, 0x0F000000)])) .lane 7 0x04C 27 24 = 0 ∧
    rd (after (.signalReturn 7) up) .lane 7 0x04C 27 24 = 8 ∧
    rd (after (.rxReady 7 180) (upWith [(.lane, 7, 0x040, 0x1200), (.lane, 7, 0x04C, 0x08000000)])) .lane 7 0x04C 27 24 = 14 ∧
    rd (after (.rxReady 7 179) (upWith [(.lane, 7, 0x040, 0x1200), (.lane, 7, 0x04C, 0x08000000)])) .lane 7 0x04C 27 24 = 12 ∧
    rd (after (.restart 7) (upWith [(.lane, 7, 0x04C, 0x0F000000)])) .lane 7 0x04C 27 24 = 8 ∧ rd up .lane 7 0x040 25 24 ≠ 3 ∧
    rdBit (after (.lockAcquire 7) up) .lane 7 0x04C 24 = true ∧ rd (upWith [(.lane, 7, 0x040, 0x03000000)]) .lane 7 0x040 25 24 = 3 ∧
    rd (after (.slip 7) (upWith [(.lane, 7, 0x04C, 0x0000003F)])) .lane 7 0x04C 5 0 = 0 ∧
    portOn (upWith [(.ring, 1, 0x008, 1)]) 1 = true ∧ laneRole up 7 = 2 ∧
    rdBit (after (.slip 7) (upWith [(.ring, 1, 0x008, 1)])) .lane 7 0x010 1 = true ∧
    rd (after (.autoAlignSlip 7) (upWith [(.ring, 1, 0x008, 1), (.ring, 1, 0x044, 0x40)])) .lane 7 0x04C 5 0 = 1 ∧ (10 : Fin 20).val = 10 := by
  decide
theorem witness_laneFigures : rd up .lane 7 0x040 27 26 ≠ 2 ∧
    rdBit (after (.laneSnrUpdate 7 179 1) (upWith [(.lane, 7, 0x040, 0x1200), (.lane, 7, 0x04C, 0x06000000)])) .lane 7 0x010 2 = true ∧
    rdBit (after (.laneSnrUpdate 7 180 1) (upWith [(.lane, 7, 0x040, 0x1200), (.lane, 7, 0x04C, 0x04000000)])) .lane 7 0x04C 25 = true ∧
    rd (upWith [(.lane, 7, 0x040, 0x08000000)]) .lane 7 0x040 27 26 = 2 ∧ checking (upWith [(.lane, 7, 0x058, 16)]) 7 = true ∧ checking up 7 = false ∧
    rdBit (after (.prbsLock 7) (upWith [(.lane, 7, 0x058, 16)])) .lane 7 0x04C 23 = true ∧
    rd (after (.prbsUnlock 7 900 70) (upWith [(.lane, 7, 0x05C, 0xFFFFFFFE), (.lane, 7, 0x04C, 0x00800000)])) .lane 7 0x05C 31 0 = 0xFFFFFFFF ∧
    rd (after (.prbsUnlock 7 900 70) (upWith [(.lane, 7, 0x04C, 0x00800000)])) .lane 7 0x060 31 0 = 900 ∧ (after (.prbsUnlock 7 900 70) up).regs = up.regs ∧
    rd (after (.prbsClr 7) (upWith [(.lane, 7, 0x05C, 5)])) .lane 7 0x05C 31 0 = 0 := by decide
/-- The exchange of lane 7, forced, at ring port 1, whose spare, lane 9, is idle. -/
def forced7 : State := upWith [(.lane, 7, 0x008, 0x100)]
theorem witness_swaps : getSwap up 1 = none ∧ laneWith up 1 2 = some 7 ∧ laneWith up 1 4 = some 9 ∧ laneTest up 7 = false ∧ portOf 7 = 1 ∧ spareSel forced7 3 7 = 1 ∧
    laneRole (after (.swapReq 1 2) up) 9 = 5 ∧ laneRole (after (.swapStart 7) forced7) 9 = 5 ∧ mapGet (fun _ => 0) (after (.swapStart 7) forced7).lmsgs 1 = 33 ∧
    laneWith (upWith [(.lane, 9, 0x04C, 0x60000000)]) 1 4 = none ∧
    mapGet (fun _ => 0) (after (.swapReq 1 2) (upWith [(.lane, 9, 0x04C, 0x60000000)])).lmsgs 1 = 4 + 32 + 192 ∧
    rd (after (.swapStart 7) (withRegs [(.lane, 9, 0x04C, 0x60000000)] forced7)) .lane 7 0x020 3 0 = 3 := by decide
/-- Lane 9 bridges lane 7's logical lane. -/
def bridged (x : Swap) : State := { upWith [(.lane, 9, 0x04C, 0x5C000000)] with swaps := [(1, x)] }
/-- The role of a lane when both conditions of the exchange hold. -/
def swapDone (n : Nat) : Nat := laneRole (finishSwap 1 (bridged { lane := 2, mine := true, ready := true, switched := true })) n
theorem witness_swapEnds : laneWith (bridged { lane := 2, mine := true }) 1 5 = some 9 ∧
    getSwap (after (.swapReady 1) (bridged { lane := 2, mine := true })) 1 = some { lane := 2, mine := true, ready := true } ∧
    laneRole (after (.swapReady 1) (bridged { lane := 2, mine := true, switched := true })) 9 = 2 ∧
    (swapDone 7, swapDone 9) = (4, 2) ∧
    mapGet (fun _ => 0) (after (.swapSwitch 1) (bridged { lane := 2, mine := true })).lmsgs 1 = 35 ∧
    rd (after (.swapAbort 1 3) (bridged { lane := 2, mine := true })) .lane 7 0x080 15 0 = 1 ∧
    mapGet (fun _ => 0) (after (.swapTimeout 1 true) (bridged { lane := 2, mine := true })).lmsgs 1 = 4 + 32 + 128 := by decide
theorem witness_abrupt : portOn (upWith [(.ring, 1, 0x008, 1)]) 1 = true ∧ spareSel up 3 7 ≠ 3 ∧ laneRole up 9 = 4 ∧ portOn up 1 = false ∧
    laneRole (after (.laneFail 7) (upWith [(.ring, 1, 0x008, 1)])) 7 = 6 ∧ laneRole (after (.laneFail 7) (upWith [(.ring, 1, 0x008, 1)])) 9 = 5 ∧
    laneRole (after (.swapReqAbrupt 1 2) up) 9 = 5 ∧
    laneWith (after (.swapReqAbrupt 1 2) up) 1 5 = some 9 ∧
    laneRole (takeOver 1 2 7 9 6 (after (.swapReqAbrupt 1 2) up)) 9 = 2 ∧ laneWith (after (.swapReqAbrupt 1 2) up) 1 6 = some 7 := by decide

/-! ## Ring -/

/-- The bypass open; and ring port 0 in service, with ring address 1. -/
def opened : State := upWith [(.sys, 0, 0x05C, 0)]
def ring0 (x : RPort) : State := { withRegs [(.ring, 0, 0x008, 1), (.ring, 0, 0x040, 1)] opened with rports := [(0, x)] }
/-- A flit with its check: TYPE, SRC, DST, TTL, number, and the payload above bit 48. -/
def flitOf (ty src dst ttl n pay : Nat) : BitVec 256 :=
  withCrc (ty + src * 2 ^ 4 + dst * 2 ^ 9 + ttl * 2 ^ 14 + n * 2 ^ 36 + pay * 2 ^ 48) false
def goodFlit (f : BitVec 256) : Bool :=
  decide (crc24 29 (f.toNat % 2 ^ 232) = f.toNat / 2 ^ 232) && decide (nbits f.toNat 3 0 < 7) &&
  (decide (nbits f.toNat 3 0 = 0) || decide (nbits f.toNat 18 14 ≠ 0))
theorem witness_badFlits : enabled up .ring 0 = false ∧ up.inbox = [] ∧ enabled (ring0 {}) .ring 0 = true ∧ goodFlit 1 = false ∧
    goodFlit (flitOf 7 2 0 1 5 0) = false ∧ goodFlit (flitOf 1 2 0 0 5 0) = false ∧ goodFlit (flitOf 0 2 0 0 5 0) = true ∧
    rd (after (.idleFlit 0 1) (ring0 {})) .ring 0 0x04C 31 16 = 1 ∧ (after (.idleFlit 0 1) up).regs = up.regs := by decide
theorem witness_realTime : goodFlit (flitOf 1 2 0 1 5 0) = true ∧ goodFlit (flitOf 2 2 1 1 5 1) = true ∧ goodFlit (flitOf 3 2 0 1 5 0) = true ∧
    goodFlit (flitOf 4 2 0 1 5 0) = true ∧ nbits (flitOf 1 2 0 1 5 0).toNat 47 36 = 5 ∧ nbits (flitOf 1 2 0 1 5 0).toNat 8 4 ≠ ringAddr (ring0 {}) ∧
    (getRPort (after (.triggerFlit 0 (flitOf 3 2 0 1 5 0)) (ring0 {})) 0).rxTop = some 5 ∧
    (getRPort (after (.triggerFlit 0 (flitOf 3 2 0 1 0 0)) (ring0 { rxTop := some 4095 })) 0).rxTop = some 0 ∧
    (after (.triggerFlit 0 (flitOf 3 2 0 1 5 (256 + 7))) (ring0 {})).trigSeen = [(2, 4)] ∧
    (after (.triggerFlit 0 (flitOf 3 2 0 1 5 (256 + 7))) (ring0 { rxTop := some 5 })).trigSeen = [] ∧
    (getRPort (after (.idleFlit 0 (flitOf 0 2 0 0 5 0)) (ring0 { rxTop := some 5 })) 0).lost = [] ∧
    rd (after (.triggerFlit 0 (flitOf 3 2 0 1 7 0)) (ring0 { rxTop := some 5 })) .ring 0 0x04C 15 0 = 1 := by decide
theorem witness_replay : goodFlit (flitOf 5 2 1 1 1 0) = true ∧ nbits (flitOf 5 2 1 1 1 0).toNat 13 9 = ringAddr (ring0 {}) ∧
    (getRPort (after (.bulkFlit 0 (flitOf 5 2 1 1 1 0)) (ring0 {})) 0).rplRx = 1 ∧
    (getRPort (after (.bulkFlit 0 (flitOf 5 2 1 1 0 0)) (ring0 { rplRx := 4095 })) 0).rplRx = 0 ∧
    (getRPort (after (.bulkFlit 0 (flitOf 5 2 1 1 2 0)) (ring0 {})) 0).nak = true ∧ (after (.bulkFlit 0 (flitOf 5 2 1 1 1 0)) (ring0 {})).frags.length = 1 ∧
    goodFlit (flitOf 6 2 1 1 1 3) = true ∧ nbits (flitOf 6 2 1 1 1 3).toNat 51 48 = 3 ∧
    (getRPort (after (.ringDelayResp 0 (flitOf 6 2 1 1 2 2) 0) (ring0 {})) 0).nak = true := by decide
theorem witness_sends : bypassClosed up = true ∧ bypassClosed opened = false ∧ (after (.flitSend 0 false) up).outbox.head? = some (.flit 0 (idleOut up 0)) ∧ (after (.flitSend 0 false) up).outbox.length = 5 ∧ framedLanes up 0 ≠ [] ∧ (ring0 {}).txq = [] ∧
    (after (.flitSend 0 false) (ring0 { slot := 1 })).outbox.length = 1 ∧ (after (.flitSend 0 false) { ring0 { slot := 1 } with txq := [(0, 5, 0, .loss)] }).outbox.length = 2 ∧
    rd (after (.flitSend 0 false) { ring0 {} with txq := [(0, 5, -15, .loss)] }) .ring 0 0x050 15 0 = 1 ∧
    rd (after (.flitSend 0 false) { ring0 {} with txq := [(0, 5, -14, .loss)] }) .ring 0 0x050 15 0 = 0 ∧
    (getRPort (after (.replayTimeout 0) (ring0 { buf := [(1, { bits := 5 })] })) 0).resend = some 0 ∧
    rdBit (after (.replayTimeout 0) (ring0 { tries := 15, buf := [(1, { bits := 5 })] })) .ring 0 0x018 3 = true ∧
    (getRPort (after (.replayTimeout 0) (ring0 {})) 0).tries = 0 := by decide
/-- A framing word: node 2, port 1, ACK 3, the last number 5. -/
def wordOf (ack : Nat) : BitVec 128 :=
  let b := 0x5A3C96E1 + 2 * 2 ^ 32 + 2 ^ 37 + ack * 2 ^ 40 + 5 * 2 ^ 53
  BitVec.ofNat 128 (b + crc24 13 b * 2 ^ 104)
theorem witness_framing : nbits (wordOf 3).toNat 31 0 = 0x5A3C96E1 ∧ crc24 13 ((wordOf 3).toNat % 2 ^ 104) = (wordOf 3).toNat / 2 ^ 104 ∧
    rd (after (.laneFrame 0 (wordOf 3)) opened) .ring 0 0x048 23 16 = 0xC2 ∧ (after (.laneFrame 0 1) up).regs = up.regs ∧ (ring0 {}).rports = [(0, {})] ∧
    nbits (wordOf 3).toNat 37 37 = 1 ∧ nbits (wordOf 3).toNat 64 53 = 5 ∧ nbits (wordOf 3).toNat 88 65 = 0 ∧ nbit (wordOf 3).toNat 52 = false ∧
    (getRPort (after (.laneFrame 0 (wordOf 3)) (ring0 { rxTop := some 5, buf := [(3, { bits := 5 }), (4, { bits := 6 })] })) 0).buf.map (·.1) = [4] ∧
    ringUp (ring0 { grace := true }) 0 = false ∧ rdBit (after (.graceExpiry 0) (ring0 { grace := true })) .ring 0 0x018 0 = true ∧
    (after (.graceExpiry 0) (ring0 {})).regs = (ring0 {}).regs := by decide
/-- TIME in service; both ring ports in service, or port 0 up. -/
def master1 (v : Word) : State := upWith [(.time, 0, 0x008, 1), (.time, 0, 0x040, v), (.ring, 0, 0x008, 1), (.ring, 1, 0x008, 1), (.ring, 0, 0x048, 0x60030000)]
theorem witness_exchanges : enabled (master1 0x200) .time 0 = true ∧ rdBit (master1 0x200) .time 0 0x040 9 = true ∧
    enabled (master1 0x200) .ring 1 = true ∧ rdBit (master1 0) .time 0 0x040 9 = false ∧ ringUp (master1 0) 0 = true ∧ ringUp (master1 0) 1 = false ∧ ringUp up 0 = false := by decide

/-! ## Host ports -/

def head0 (ack : Bool) (tag : BitVec 16) : DxHead :=
  { src := 0x112233445566, dst := BitVec.ofNat 48 (hostMac up 0), vid := none, node := 0, loc := true, ack := ack, tag := tag }
/-- Host port 0 in service. -/
def host0 (x : HPort) : State := { upWith [(.host, 0, 0x008, 1), (.host, 0, 0x04C, 0x0A000001)] with hports := [(0, x)] }
theorem witness_host : enabled (host0 {}) .host 0 = true ∧ (consumed (host0 {}) 0 + 65536 - (getHPort (host0 {}) 0).reported) % 65536 < 256 ∧
    (getHPort (host0 {}) 0).stalled = [] ∧ (head0 true 7).loc = true ∧
    reg (after (.regWrite 0 (head0 true 7) 0x80B4 [1, 0, 0, 0]) (host0 {})) .time 0 0x0B4 = 1 ∧
    consumed (after (.regWrite 0 (head0 true 7) 0x80B4 [1, 0, 0, 0]) (host0 {})) 0 = 1 ∧
    (after (.regRead 0 (head0 false 7) 0 4) (host0 {})).outbox.length = 1 ∧
    storeUnit 1 5 = some (0x40140000, 0x40000) ∧ storeByte (after (.storeWrite 0 (head0 false 7) 1 0 4 [9, 0, 0, 0]) (host0 {})) 1 0x40000004 = 9 ∧
    pantryByte (after (.pantryWrite 0 (head0 false 7) 8 [9, 0, 0, 0]) (host0 {})) 8 = 9 ∧ (8 : Nat) + 4 ≤ reservedFrom (host0 {}) := by decide
theorem witness_hostRefusals : ptUp up .host = true ∧ rd (after (.badOpRequest 0 (head0 false 7) 0x20 0) (host0 {})) .host 0 0x074 15 0 = 1 ∧
    (after (.badOpRequest 0 (head0 false 7) 0x20 0) (host0 {})).outbox.length = 1 ∧
    rd (after (.badOpRequest 0 (head0 false 7) 0x20 0) (withRegs [(.host, 0, 0x060, 256)] (host0 {}))) .host 0 0x070 15 0 = 1 ∧
    rd (after (.badOpRequest 0 (head0 false 7) 0x20 0) (withRegs [(.host, 0, 0x060, 255)] (host0 {}))) .host 0 0x070 15 0 = 0 ∧
    rd (after (.moduleOnlyFrame 0 0x0C) (host0 {})) .host 0 0x074 15 0 = 1 ∧ rd (after (.hostFrameDiscard 0 .fcs) (host0 {})) .host 0 0x074 31 16 = 1 ∧
    rd (after (.hostFrameDiscard 0 .macControl) (host0 {})) .host 0 0x070 31 16 = 1 ∧ enabled up .host 0 = false := by decide
def reply0 (w : DxWait) : DxReply := { from_ := .host 1, node := 0, op := 8, tag := 7, addr := 0, status := 0, data := [], waits := w }
theorem witness_hostAnswers : reg (host0 {}) .host 0 0x04C = 0x0A000001 ∧ (after (.arpRequest 0 5 0x0A000001) (host0 {})).outbox.length = 1 ∧
    (after (.arpRequest 0 5 0x0A000002) (host0 {})).outbox = [] ∧ hostIp6 (withRegs [(.host, 0, 0x050, 9)] (host0 {})) 0 = 9 ∧
    (getHPort (after (.credit 0) (withRegs [(.host, 0, 0x060, 3)] (host0 { last := some 5 }))) 0).reported = 3 ∧ (after (.credit 0) (host0 {})).outbox = [] ∧
    rd (after (.hostModeWrite 0 3) (host0 {})) .host 0 0x060 31 30 = 2 ∧ rd (after (.hostModeWrite 0 1) (host0 {})) .host 0 0x060 31 30 = 1 ∧
    rdBit (after (.linkFail 0) (host0 {})) .host 0 0x018 0 = true ∧ rdBit (upWith [(.host, 0, 0x060, 0x20000000)]) .host 0 0x060 29 = true ∧
    rdBit (after (.unreach 0 9) (host0 { replies := [reply0 (.tunnel 9 3)] })) .host 0 0x010 5 = true ∧
    replyReady { host0 {} with preqs := [{ id := 4, port := 96, ch := 0, addr := 0, deadline := 0 }] } (reply0 (.pantry 4 1)) = false ∧
    (after (.pantryReadTimeout 0 7) { host0 { replies := [reply0 (.pantry 4 1)] } with
      preqs := [{ id := 4, port := 96, ch := 0, addr := 0, deadline := 0 }] }).outbox.length = 1 := by decide

/-! ## Worked examples of the spec -/

/-- The DECISION flit of 14_ring_and_host_ports.md: channel 10 resolves to 1, LSEQ 0x01C, CSEQ 0x2B, due at 1,063. -/
theorem test_decision_flit :
    (msgFlits (withRegs [(.ring, 0, 0x040, 3)] up) 0 0x01C (.dec { ch := 10, st := .resolved true, seq := 0x2B, due := 1063, hops := 1 })).map
      (fun f => nbits f.toNat 63 0) = [0x570A01C042704031, 0x570A01C042784031] := by decide
/-- The check values of R383 for the nine bytes "123456789". -/
def digits : List Byte := [0x31, 0x32, 0x33, 0x34, 0x35, 0x36, 0x37, 0x38, 0x39]
theorem test_crc_check_values : crcOf 1 digits = 0xE3069283 ∧ crcOf 2 digits = 0x21CF02 ∧ crcOf 3 digits = 0xCBF43926 := by decide
/-- The calibration of MON_IN5 of 18_monitor_converter.md: zero at 312 and full scale at 255,100 store the gain 0x0404DF. -/
theorem test_mon_in5 :
    reg (after (.scalMeasureDone 255100) { upWith [(.monadc, 0, 0x048, 0xFA000005), (.monadc, 0, 0x050, 312)] with mon := { run := some (true, 5) } })
      .monadc 0 0x32C = 0x404DF := by decide

/-! ## Time -/

theorem witness_time_events : ptUp up .time = true ∧ pathUp up .i3c = true ∧ up.align.armed = false ∧
    (after .align up).align.armed = true ∧ (List.range 8).any (shotRuns up) = false ∧ (List.range 8).any (shotRuns running0) = true ∧
    rdPair (after .align up) .time 0 0x098 ≤ mtNs (after .align up) ∧
    rdBit (after (.syncEdge 0 false) (after .align running0)) .time 0 0x010 1 = true ∧
    rdBit (after .refLoss up) .time 0 0x0AC 29 = true ∧ rdBit (after .refReturn up) .time 0 0x0AC 30 = true ∧
    (after .mtStep (upWith [(.time, 0, 0x068, 0xFFFFFFFF), (.time, 0, 0x06C, 0xFFFFFFFF)])).clk.step = -(2 ^ 32) ∧
    rd up .time 0 0x040 2 0 ≠ 1 ∧ rdBit (after .mtStep up) .time 0 0x010 3 = true ∧
    rd (upWith [(.time, 0, 0x040, 1), (.time, 0, 0x008, 1)]) .time 0 0x040 2 0 = 1 ∧ (after .syncAbsent up).regs = up.regs := by decide
theorem witness_reads : (after (.mtRead .i3c) { up with clk := { mt := 7 * 2 ^ 32 + 5 } }).rdata = 7 ∧
    (after (.tsuRead .i3c 3) (upWith [(.time, 0, 0x130, 9), (.time, 0, 0x13C, 0xC0000001)])).rdata = 9 ∧
    rd (after (.tsuRead .i3c 3) (upWith [(.time, 0, 0x13C, 0xC0000001)])) .time 0 0x13C 31 30 = 0 ∧
    rdBit (after (.cmpFire 1) (upWith [(.time, 0, 0x008, 1), (.time, 0, 0x198, 0x80000000)])) .time 0 0x010 13 = true ∧
    (after (.cmpFire 1) up).regs = up.regs ∧
    (after (.cmpFire 1) (upWith [(.time, 0, 0x008, 1), (.time, 0, 0x190, 1), (.time, 0, 0x198, 0x80000000)])).regs =
      (upWith [(.time, 0, 0x008, 1), (.time, 0, 0x190, 1), (.time, 0, 0x198, 0x80000000)]).regs := by decide
/-- The module is aligned, with LOADED set. -/
def aligned : State := upWith [(.time, 0, 0x094, 0x80000000)]
theorem witness_edges : rdBit aligned .time 0 0x094 31 = true ∧ aligned.align.armed = false ∧
    rd (after (.syncEdge 5 false) aligned) .time 0 0x094 15 0 = 5 ∧ rdBit (after (.syncEdge 21 true) aligned) .time 0 0x018 1 = true ∧ rdBit (after (.syncEdge (-20) false) aligned) .time 0 0x018 1 = false ∧
    rd (after .syncAbsent aligned) .time 0 0x0B0 31 16 = 1 := by decide
/-- Port 0 in a PTP role, with a slave state; the master's identity is 0. -/
def ptp0 (role : Word) (x : Slave) : State :=
  { upWith [(.time, 0, 0x008, 1), (.host, 0, 0x008, 1), (.time, 0, 0x200, role)] with slaves := [(0, x)] }
def msg0 (q : BitVec 16) : PtpMsg := { clockId := 0, portNo := 0, dom := 0, seqId := q, time := some 100, corr := 0, rx := 5 }
theorem witness_ptp : ptUp (ptp0 0 {}) .host = true ∧ ptpRole (ptp0 0 {}) 0 = 0 ∧ ptpRole (ptp0 0x40000000 {}) 0 = 1 ∧ ptpRole (ptp0 0x80000000 {}) 0 = 2 ∧
    ptpRole (ptp0 0xC0000000 {}) 0 = 3 ∧ ptpDomain (ptp0 0x40000000 {}) 0 (msg0 1) = true ∧ fromMaster (ptp0 0x80000000 {}) 0 (msg0 1) = true ∧
    (mapGet (fun _ => []) (after (.pdelayResp 0 (msg0 1)) (ptp0 0xC0000000 {})).rxqs 0).length = 1 ∧
    rdBit (after (.announce 0 [1]) (ptp0 0x80000000 {})) .time 0 0x010 9 = true ∧
    rdBit (after (.announce 0 [1]) { ptp0 0x80000000 {} with rxqs := [(0, List.replicate 16 [])] }) .time 0 0x018 2 = true ∧
    rdBit (ptp0 0x44000000 {}) .time 0 0x200 26 = true ∧ (after (.pdelayReq 0 (msg0 1)) (ptp0 0x44000000 {})).outbox.length = 1 ∧
    (after (.pdelayReq 0 (msg0 1)) (ptp0 0x4C000000 {})).outbox.length = 2 ∧ (after (.syncInterval 0) (ptp0 0x48000000 {})).outbox.length = 2 ∧
    (after (.delayReq 0 (msg0 1)) (ptp0 0x40000000 {})).outbox.length = 1 := by decide
theorem witness_ptpSlave : (getSlave (after (.ptpSync 0 (msg0 9) true) (ptp0 0x80000000 {})) 0).t1 = none ∧
    (getSlave (after (.ptpSync 0 (msg0 9) false) (ptp0 0x80000000 {})) 0).t1 = some (100 * 65536) ∧
    (getSlave (after (.followUp 0 (msg0 9)) (ptp0 0x80000000 { fresh := true, seq := 9 })) 0).t1 = some (100 * 65536) ∧
    (after (.followUp 0 (msg0 8)) (ptp0 0x80000000 { fresh := true, seq := 9 })).slaves = (ptp0 0x80000000 { fresh := true, seq := 9 }).slaves ∧
    (getSlave (after (.delayReqInterval 0 7) (ptp0 0x80000000 {})) 0).t3 = some (7 * 256) ∧
    (getSlave (after (.delayResp 0 (msg0 3)) (ptp0 0x80000000 { dseq := 3, t3 := some 1 })) 0).resp = some (1, 100 * 65536, 0) ∧
    (getSlave (after (.delayResp 0 (msg0 4)) (ptp0 0x80000000 { dseq := 3, t3 := some 1 })) 0).resp = none ∧
    timeSrc (ptp0 0x80000000 {}) ≠ 2 ∧ timeSrc (upWith [(.time, 0, 0x040, 2)]) = 2 ∧
    (after (.rxqPop 0) { up with rxqs := [(0, [[1], [2]])] }).rxqs = [(0, [[2]])] ∧
    rdBit (after (.syncTimeout 0) (ptp0 0x80000000 {})) .time 0 0x010 6 = true ∧ (after (.syncTimeout 1) (ptp0 0x80000000 {})).regs = (ptp0 0x80000000 {}).regs ∧
    rdBit (after (.syncTimeout 2) (upWith [(.time, 0, 0x008, 1), (.time, 0, 0x040, 4)])) .time 0 0x010 8 = true := by decide
/-- The trigger bus on, START on line 3, ACT_LAT 12. -/
def bus (l : List TbReq) (s : State) : State :=
  { withRegs [(.tbus, 0, 0x008, 1), (.tbus, 0, 0x040, 0x8300000C), (.tbus, 0, 0x044, 24)] s with tbusQ := l }
/-- R373, R375, R376: from tick 1,000 the next cycle is that of 990, acted on at 1,002; a START of it opens at 1,026. -/
theorem witness_tbus : tbusOn up = false ∧ tbusOn (bus [] up) = true ∧ cycleStart { bus [] up with clk := { tc := 1000 } } = 990 ∧
    (after (.tbusCycle 0 false) { bus [] up with clk := { tc := 1000 } }).clk.tc = 1002 ∧
    (after (.tbusCycle 8 false) { bus [] up with clk := { tc := 1000 } }).lines = [(1002, 107, false)] ∧
    startSrc (bus [] (master0 1 {})) 0 = 1 ∧ refusesStart (bus [] (master0 1 {})) 0 = false ∧
    (getGroup (after (.tbusCycle 8 false) { bus [] (master0 1 {}) with clk := { tc := 1000 } }) 0).opening = some 1026 ∧
    (getGroup (after (.tbusCycle 8 true) { bus [] (master0 1 {}) with clk := { tc := 1000 } }) 0).opening = none ∧
    reqDue (bus [] up) 990 { line := 3, notBefore := 990, start := none } = true ∧ reqDue (bus [] up) 990 { line := 3, notBefore := 991, start := none } = false ∧
    (after (.tbusCycle 0 true) { bus [{ line := 3, notBefore := 0, start := some 0 }] up with clk := { tc := 1000 } }).tbusQ.map (·.voids) = [1] ∧
    rdBit (after .holdStuck (bus [] up)) .tbus 0 0x018 0 = false ∧
    rdBit (after .holdStuck (withRegs [(.tbus, 0, 0x078, 0x80000000)] (bus [] up))) .tbus 0 0x018 0 = true := by decide

/-! ## Check values, calibration, monitor -/

theorem witness_context : reg (after (.ctxCfgWrite 19 0x80010000) (upWith [(.crc, 0, 0x008, 1)])) .crc 0 0x234 = 0xFFFFFFFF ∧
    reg (after (.ctxCfgWrite 19 0x80020000) up) .crc 0 0x234 = 0xB704CE ∧ ptUp up .crc = true ∧
    rd (upWith [(.crc, 0, 0x044, 3)]) .crc 0 0x044 3 0 = 3 ∧
    reg (after (.crcWindowWrite 1 7) (upWith [(.crc, 0, 0x008, 1), (.crc, 0, 0x044, 3), (.crc, 0, 0x230, 0x10000)])) .crc 0 0x234 ≠ 0 ∧
    rdBit (after (.ctxData 19 7) up) .crc 0 0x010 0 = true ∧ reg (after (.ctxValWrite 19 0xFFFFFFFF) (upWith [(.crc, 0, 0x230, 0x20000)])) .crc 0 0x234 = 0xFFFFFF := by
  decide
/-- Request 0 of a kind, LEVEL 0, for read-out input 0, with a status and a state of it. -/
def request (kind st : Nat) (x : CalReq) : State :=
  { upWith [(.cal, 0, 0x008, 1), (.cal, 0, 0x048, 100000), (.cal, 0, 0x100, BitVec.ofNat 32 (kind * 2 ^ 27)), (.cal, 0, 0x104, 0x13000000),
      (.cal, 0, 0x110, BitVec.ofNat 32 (st * 2 ^ 28)), (.cal, 0, 0x114, 0x00320000), (.cal, 0, 0x04C, 0x20000000)] with cals := [(0, x)] }
theorem witness_submit : ptUp up .cal = true ∧ rqLive (request 4 2 {}) 0 = true ∧ rqLive (request 4 1 {}) 0 = true ∧ rqLive (request 4 0 {}) 0 = false ∧
    requestOk (freshRequest 0 (request 0 0 {})) 0 = false ∧ rqStatus (after (.submit 0) (request 0 0 {})) 0 = 10 ∧ foreground 8 = true ∧ foreground 14 = true ∧
    foreground 7 = false ∧ background 4 = true ∧ background 5 = false := by decide
theorem witness_calEnds : rqStatus (after (.clear 0) (request 4 3 {})) 0 = 0 ∧ rqStatus (after (.cancel 0) (request 4 1 {})) 0 = 8 ∧
    (getCal (after (.cancel 0) (request 4 2 {})) 0).cancel = true ∧ calMode (request 8 2 {}) = 2 ∧ calSlot (request 8 2 {}) = 0 ∧ calMode up = 0 ∧
    (getCal (request 8 2 { seg := 14 }) 0).seg + 1 < calSegs (rqKind (request 8 2 {}) 0) ∧ 15 + 1 = calSegs (rqKind (request 8 2 {}) 0) ∧
    rqLevel (request 8 2 {}) 0 = 0 ∧ (getCal (after (.calSegmentDone 1 2 3) (request 8 2 { seg := 14 })) 0).seg = 15 ∧
    rqStatus (after (.calSegmentDone 1 2 3) (request 8 2 { seg := 14, cancel := true })) 0 = 8 ∧
    rqStatus (after (.calSegmentDone 1 2 3) (request 8 2 { seg := 15 })) 0 = 7 ∧ qualOk (request 4 2 {}) 0 50 = true ∧ qualOk (request 4 2 {}) 0 51 = false ∧
    rqStatus (after (.backgroundPassDone 0 1 2 51) (request 4 2 {})) 0 = 7 ∧ rqStatus (after (.attemptTimeout 0) (request 4 2 {})) 0 = 5 ∧
    rqStatus (after (.attemptTimeout 0) (withRegs [(.cal, 0, 0x100, 0x21000000), (.cal, 0, 0x110, 0x20300000)] (request 4 2 {}))) 0 = 6 ∧
    rqStatus (after (.attemptTimeout 0) (withRegs [(.cal, 0, 0x100, 0x41000000), (.cal, 0, 0x110, 0x20000000)] (request 8 2 { cancel := true }))) 0 = 8 ∧
    rqStatus (after (.attemptTimeout 0) (withRegs [(.cal, 0, 0x100, 0x41000000), (.cal, 0, 0x110, 0x20000000)] (request 8 2 {}))) 0 = 1 ∧
    bgPaused up = false ∧ rdBit (after (.referenceCheck 51) up) .cal 0 0x018 0 = true ∧ (after (.referenceCheck 50) up).regs = up.regs := by decide
/-- The converter at an entry of its list. -/
def monitor (x : Mon) : State := { up with mon := x }
theorem witness_conversions : ptUp up .monadc = true ∧ monOk (rd up .monadc 0 0x100 11 4) (rd up .monadc 0 0x100 3 0) = true ∧
    (after (.conversion 5) up).mon.pos = 1 ∧ rd (after (.conversion 5) up) .monadc 0 0x200 31 31 = 1 ∧ (after (.conversion 5) (monitor { pos := 64 })).mon.pos = 64 ∧
    monOk (rd (upWith [(.monadc, 0, 0x100, 0x480)]) .monadc 0 0x100 11 4) 0 = false ∧ (after (.conversion 5) (upWith [(.monadc, 0, 0x100, 0x480)])).mon.told = [0] ∧
    (after (.conversion 5) (monitor { pos := 48 })).mon.pos = 64 ∧
    rdBit (after (.conversion 5) (upWith [(.monadc, 0, 0x100, 0x10000), (.monadc, 0, 0x0A0, 6)])) .monadc 0 0x010 0 = true ∧
    (after (.conversion 6) (upWith [(.monadc, 0, 0x100, 0x10000), (.monadc, 0, 0x0A0, 6), (.monadc, 0, 0x0A4, 6)])).mon.outside = [] ∧
    (after (.housekeepingConversion 5) (monitor { pos := 64 })).mon.pos = 65 ∧ (after (.housekeepingConversion 5) (monitor { pos := 64, ref := 1 })).mon.suspect = true ∧
    (after (.housekeepingConversion 5) (monitor { pos := 67 })).mon.pos = 0 ∧ (after (.housekeepingConversion 5) (monitor { pos := 67, flx := 255 })).mon.flx = 0 ∧
    (after (.urgentConversion 1 5) (monitor { urg := [(1, 7)] })).clk.tc = 385 ∧ reg (after (.urgentConversion 1 5) (monitor { urg := [(1, 7)] })) .monadc 0 0x084 = 8 ∧
    (after (.urgentConversion 2 5) (monitor { urg := [(1, 7)] })).clk.tc = 0 := by decide
theorem witness_scal : (after .zero up).mon.run = some (false, 0) ∧ rd (after .zero (monitor { run := some (true, 1) })) .monadc 0 0x050 31 28 = 6 ∧
    rd (after .full up) .monadc 0 0x050 31 28 = 4 ∧ (after .full (monitor { zeroOf := some 0 })).mon.run = some (true, 0) ∧
    (after (.scalMeasureDone 312) (monitor { run := some (false, 0) })).mon.zeroOf = some 0 ∧
    rd (after (.scalMeasureDone 65535) (monitor { run := some (true, 0) })) .monadc 0 0x050 31 28 = 5 := by decide

/-! ## Thermal model, power, health -/

theorem witness_throttle : ptUp up .therm = true ∧ up.therm.throt = false ∧
    throttle (after .throttleUp { up with therm := { up.therm with throt := true } }) = 1 ∧
    rdBit (after .throttleUp { upWith [(.therm, 0, 0x05C, 0xE0000000)] with therm := { up.therm with throt := true } }) .therm 0 0x018 1 = true ∧
    throttle (after .throttleDown (upWith [(.therm, 0, 0x05C, 0x20000000)])) = 0 ∧
    hottest (upWith [(.therm, 0, 0x05C, 0x20000000)]) < (threshold up 0x048).1 - (threshold up 0x048).2 ∧
    throttle (after .throttleDown (upWith [(.therm, 0, 0x05C, 0x30000000)])) = 1 ∧ rdBit (after .freezeTimeout (upWith [(.therm, 0, 0x05C, 0x30000000)])) .therm 0 0x018 0 = true ∧
    (after .freezeTimeout up).regs = up.regs := by decide
/-- Site 20, lid quadrant 0, whose model node 56 stands at a temperature, in 1/16 °C. -/
def warm (v : Nat) : State := upWith [(.therm, 0, 0x200 + 4 * siteNodeOf 20, BitVec.ofNat 32 v)]
theorem witness_sensors : (List.replicate 24 (400 : Int)).length = 24 ∧ (List.replicate 23 (400 : Int)).length ≠ 24 ∧
    siteBit up 3 1 = false ∧ siteBit up 3 2 = false ∧ siteBit (after (.diodeCrosscheck 20 400 433) (warm 400)) 20 3 = true ∧ siteBit (after (.diodeCrosscheck 20 433 400) (warm 400)) 20 0 = true ∧
    siteBit (after (.diodeCrosscheck 20 432 400) (warm 400)) 20 0 = false ∧ rdBit up .therm 0 0x100 0 = false := by decide
theorem witness_supply : ptUp up .pwr = true ∧ (5 : Fin 48).val = 5 ∧
    rdBit (after (.phaseFail 5) (upWith [(.pwr, 0, 0x094, 0x08800000)])) .pwr 0 0x010 3 = true ∧
    rdBit (after (.phaseFail 5) (upWith [(.pwr, 0, 0x094, 0x08400000)])) .pwr 0 0x018 0 = true := by decide
theorem witness_shed : (after .shedDwell up).shed.cur = 1 ∧ voltDemand up 0 false = 6 ∧ voltDemand up 5000 false = 0 ∧
    rd (after (.vinThreshold 5000) up) .pwr 0 0x054 15 0 = 5000 ∧ ¬ (shedDemand up < stageFirst up) ∧
    shedDemand { up with groups := [(0, { stage := 1 })] } < stageFirst { up with groups := [(0, { stage := 1 })] } ∧
    stageFirst { up with groups := [(0, { stage := 1, running := true })] } < 6 ∧ shotRuns { up with groups := [(0, { stage := 1, running := true })] } 0 = true ∧
    (∀ h : Fin 8, shotRuns { up with groups := [(0, { stage := 1 })] } h.val = false) ∧
    rd (after (.shedWait 0) (withRegs [(.pwr, 0, 0x040, 2)] running0)) .pwr 0 0x05C 15 0 = 1 ∧
    (getGroup (after (.shedWait 0) (withRegs [(.pwr, 0, 0x040, 2)] running0)) 0).tag = tagCorrupt ∧ shotRuns up 0 = false := by decide
theorem witness_units : ptUp up .health = true ∧ reg (after (.hmClear 2) (upWith [(.health, 0, 0x474, 5)])) .health 0 0x474 = 0 ∧
    reg (after (.hmCfgWrite 1 0xFFFFFFFF) up) .health 0 0x460 = 0x9FFFFFFF ∧ hmRange 6 79 33 = true ∧ hmRange 9 47 15 = true ∧ hmRange 2 19 0 = true ∧
    reg (after (.hmInterval 1 77) (upWith [(.health, 0, 0x460, 0x82000000)])) .health 0 0x468 = 77 ∧ (after (.hmInterval 1 77) up).regs = up.regs := by decide
def wear0 : Wear := { hours := [3, 0] }
def event0 : LogEntry := { seq := 0, cause := 3, stage := 0, hot := 0, mt := 0, tc := 0, vin := 0, page := 2, detail := 5 }
theorem witness_mapAndLog : ptUp up .spare = true ∧ ptUp up .nvm = true ∧ mapOk (fun _ => ({} : Wear)) 0 [(5, wear0)] = true ∧
    rd up .spare 0 0x040 7 0 ≠ 0 ∧ (getWear (after .wearHour { up with wears := [(5, wear0)] }) 5).hours = [0, 3, 0] ∧
    rd (after .mapClear up) .spare 0 0x0E0 31 28 = 2 ∧ (after .mapClear { up with pins := { up.pins with wpN := true }, spareMap := [0x911] }).spareMap = [0x941] ∧
    (after .mapRead { up with spareMap := [0x0000000800500911] }).rdata = 8 ∧ rd (after .mapRead (upWith [(.spare, 0, 0x0D0, 0x800003FF)])) .spare 0 0x0D0 9 0 = 0 ∧
    rd (after .logRead (upWith [(.nvm, 0, 0x044, 0x000703FF)])) .nvm 0 0x044 18 0 = 0 ∧
    (after (.logClear 0x51200001) { up with pins := { up.pins with wpN := true }, evLog := [event0] }).evLog = [] ∧
    (after (.logClear 0x51200001) { up with evLog := [event0] }).evLog.length = 1 := by decide

/-! ## Every command completes -/

/-- An item due now, in the state of its consumer. -/
def due0 (l : Payload) (s : State) : State := { s with items := [{ stamp := stampOf s.clk.tc, group := some 0, deps := [], load := l }] }
/-- Sequencer 0 belongs to group 0. -/
def inGroup0 (s : State) : State := withRegs [(.seq, 0, 0x040, 8)] s
theorem witness_completion : (∃ grp, (due0 (.act 180) up).items =
      [{ stamp := stampOf (due0 (.act 180) up).clk.tc, group := grp, deps := [], load := .act 180 }]) ∧
    (up.i3c.rstact = 0x01 ∧ ptUp up .mgmt = true) ∧ ready up = true ∧
    seqGroup (inGroup0 running0) 0 = some 0 ∧ segMode (inGroup0 running0) 0 = false ∧
    (getSeq (after (.markDue 0) (due0 (.mark 0 7) { inGroup0 running0 with seqs := [(0, { inShot := true })] })) 0).marks = [(7, 0)] ∧
    rdBit (after (.taskActivation 180) (due0 (.act 180) up)) .evt 0 0x010 8 = true ∧ ptUp up .flx = true ∧
    (getFlux { up with fluxes := [(0, { holder := false })], resetting := [0x240] } 0).holder = false ∧
    isResetting { up with resetting := [0x240] } .flx (flxPage 0) = true ∧ up.mon.pos < 64 ∧
    monOk (rd up .monadc 0 0x100 11 4) (rd up .monadc 0 0x100 3 0) = true :=
  ⟨⟨some 0, rfl⟩, by decide⟩

/-! ## Further witnesses: the hypotheses of each clause -/

/-- The window's read of block 0 is on its way, and a private read points at PWIN_DATA. -/
def pwinBusy : State :=
  { up with preqs := [{ id := 0, port := 96, ch := 0, addr := 0, deadline := 0, wait := .pwin true }], i3c := { up.i3c with ptr := 0x1068 } }
theorem witness_i3cClauses : ({ up with i3c := { up.i3c with inReset := true } } : State).i3c.inReset = true ∧ up.i3c.inReset = false ∧
    hasAddr up = true ∧ i3cAnswers up = true ∧ i3cAnswers fresh = false ∧ ptUp fresh .mgmt = true ∧
    (after .getbcr fresh).i3c.nack = true ∧ ({ up with i3c := { up.i3c with ibiOn := false } } : State).i3c.ibiOn = false ∧
    pendingPages { pendingTime with i3c := { up.i3c with ibiOn := false } } ≠ [] ∧ pwinWaits pwinBusy = true ∧
    (wordReady pwinBusy.i3c.ptr pwinBusy).1 = false ∧ 0 < pwinBusy.i3c.mrl ∧ up.preqs = [] ∧
    (after .targetResetPattern up).i3c.inReset = true ∧ (after .targetResetDone (after .targetResetPattern up)).i3c.inReset = false ∧
    ptUp (inPhase 3) .pantry = false ∧ ptUp (inPhase 3) .mgmt = true ∧ ({ up with i3c := { up.i3c with rstact := 2 } } : State).i3c.rstact = 2 := by decide
/-- A path that comes after I3C has written TIME's PG_IRQEN, a compare, INC and SEQ.ENTRY in this tick. -/
def written1 : State :=
  { up with tick := { up.tick with writes := [(0x8014, 2), (0x8184, 2), (0x8064, 2), (addrOf .seq 0 0x044, 2)] } }
theorem witness_registerClauses : laterWrote up .i3c 0x8014 = false ∧ laterWrote written1 .i3c 0x8014 = true ∧
    laterWrote written1 .i3c 0x8184 = true ∧ laterWrote written1 .i3c 0x8064 = true ∧ laterWrote written1 .h1 0x8014 = false ∧
    laterWrote (seqTick 0 up) .i3c (addrOf .seq 0 0x044) = false ∧ (seqTick 0 up).held = [] ∧
    hasStop (master0 6 { running := true }) .seq 112 = true ∧ hasStop up .tbus 0 = false ∧
    [PT.crc, .tbus, .evt, .health].all (fun pt => !blockBusy up pt 0) = true ∧ up.accepted = [] ∧
    ringCounts { ring0 { grace := true } with boot := up.boot } 0 = ringCounts (ring0 { grace := true }) 0 := by decide
/-- Flux output 0's envelope unit, bound and empty, with the wrong LOAD_CRC. -/
def badEnv : State := { up with regs := [(0x4C, 0x80000008), (addrOf .flx 0 0xE04, ~~~emptyCrc)],
                                staging := [(0, { bound := some 0x55000000, data := [] })] }
theorem not_eq_complement (v : Word) : v ≠ ~~~v := fun h => by
  have := congrArg (fun x => x.getLsbD 0) h
  simp at this
theorem witness_commitRefused : (commitCheck badEnv 0x55000000 [] (reg badEnv .flx 0 0xE04)).1 = 2 := by
  have h : reg badEnv .flx 0 0xE04 = ~~~emptyCrc := rfl
  have hl : storeLen 0x55000000 = 0x20000 := by decide
  have hn := not_eq_complement emptyCrc
  rw [emptyCrc] at hn
  simp [commitCheck, h, emptyCrc, hl, hn]
theorem witness_graphRefused : (graphCheck tinyGraph (~~~crc32c (dense tinyGraph gBase gLen))).1 = 2 := by
  have hn := not_eq_complement (crc32c (dense tinyGraph gBase gLen))
  simp [graphCheck, hn]
theorem witness_storeClauses : storeBusy (withRegs [(.seq, 0, 0x040, 8)] running0) 0x40000000 = true ∧
    (withRegs [(.seq, 0, 0x040, 8)] staged0).pins.wpN = false ∧
    ({ vimgAt 0x20000000 none with pins := { up.pins with wpN := true } } : State).pins.wpN = true ∧
    rd (vimgAt 0x20000000 none) .nvm 0 0x10C 31 28 = 2 ∧ rd (vimgAt 0 none) .nvm 0 0x10C 31 28 ≠ 2 ∧
    (after .install { vimgAt 0x20000000 none with pins := { up.pins with wpN := true } }).vimg.cmd = some .install := by decide
theorem witness_shotClauses : startSrc (upWith [(.seq, 112, 0x0A0, 5)]) 0 = 5 ∧ refusesStart (upWith [(.seq, 112, 0x0A0, 5)]) 0 = true ∧
    (getGroup (after (.selfStart 0) (master0 5 { opened := true, bEnd := 100, selfAt := some 90 })) 0).opening = some 124 ∧
    shotRuns (finishParts 0 (master0 6 { running := true })) 0 = true ∧
    (members (finishParts 0 (master0 6 { running := true })) 0).all (seqDone (finishParts 0 (master0 6 { running := true }))) = true ∧
    resultsAhead (finishParts 0 (master0 6 { running := true })) 0 = false ∧
    ({ up with calWin := some (0, 0) } : State).calWin = some (0, 0) ∧ mayRun up 0 = false ∧
    ticksTo (after (.shotOpen 0) { master0 6 { opening := some 0 } with clk := { tc := 40 } }).clk.tc (0 : BitVec 48) < 0 ∧
    (getGroup (after (.shotOpen 0) { master0 6 { opening := some 0 } with clk := { tc := 40 } }) 0).tag &&& (tagLate ||| tagCorrupt) =
      tagLate ||| tagCorrupt := by decide
/-- Sequencer 0 waits for an EVENT. -/
def eventWait : State :=
  { playing 0 (4 * 2 ^ 18) 0 {} with seqs := [(0, { inShot := true, st := .wait })] }
/-- Master 0 takes its starts from GO. -/
def goMaster : State := master0 4 {}
theorem witness_activationClauses : limitTick (playing 0 0 0 {}) 0 {} = none ∧ limitTick (withRegs [(.seq, 0, 0x07C, 50)] up) 0 {} = some 50 ∧
    ticksTo (50 : BitVec 48) 0 < 0 ∧ goStarts goMaster 112 = true ∧ refusesStart goMaster 0 = false ∧
    (getGroup (activate 112 0 goMaster) 0).opening = some 24 ∧ enabled up .seq 0 = false ∧ seqLive eventWait 0 = true ∧
    (uword eventWait 0 0).wait = 4 ∧ (getSeq (activate 0 0 eventWait) 0).met = some 0 ∧
    (getSeq (activate 0 0 (playing 0 0 0 {})) 0).go = some 0 ∧ up.later = [] ∧
    nbit (segEntry (segments (entry0 2 1 32 3) {}) 0 0) 45 = true ∧ nbits (segEntry (segments (entry0 2 1 0 3) {}) 0 0) 46 45 = 0 ∧
    (after (.segmentPlay 0) (segments (entry0 2 1 32 3) {})).lines = [(1, fireLineOf 0 0, false)] := by decide
/-- A word whose part ends after it. -/
def ending (x : Seq) : State := playing 0 0 0 { x with succ := some .fin }
theorem witness_wordClauses : (getSeq (after (.waitExpiry 0) (ending {})) 0).st = .ended ∧
    rdBit (after (.waitExpiry 0) (ending { calls := [1] })) .seq 0 0x010 5 = true ∧
    waitPast { waiting 1 { w := 500 } with groups := [(0, { running := true })] } 0 { w := 500 } (uword (waiting 1 {}) 0 0) = true ∧
    0 < ticksTo (50 : BitVec 48) ((60 : BitVec 48) + 4) ∧
    resolvedFrom .unresolved [] (0 - 4) = none ∧ resolvedFrom (.resolved true) [] (7 - 4) = some 3 ∧
    depOf 0 0 < 2 ^ 32 ∧ trigLead (playing 112 0 128 {}) 0 ≤ 16384 ∧
    (getSeq (after (.commitGateResolution 0) (playing 0 0 0 { gates := [(3, true, 5)] })) 0).gates = [] ∧
    (after (.commitGateResolution 0) (playing 0 0 0 { gates := [(3, true, 5)] })).clk.tc = 5 := by decide
theorem witness_outputClauses : strmEntered streaming0 (getStream streaming0 0 0) = 3 ∧ (getPort streaming0 0).admitted = true ∧
    (getPort { streaming0 with ports := [] } 0).admitted = false := by decide
/-- Flux output 0 ramps from 0 to PARK, 100, at 1/256 of a code a sample. -/
def ramp0 : State := flux0 { holder := false, ramp := some true, next := 96, rampPos := 256 * 96 }
theorem witness_rampClause : ramp0.clk.tc.toNat + rampTicks ramp0 0 < 2 ^ 48 - 24 ∧ fluxNow ramp0 = 96 ∧ (getFlux ramp0 0).b ≠ (parkCode ramp0 0 : Rat) ∧
    256 * (getFlux ramp0 0).next ≤ (getFlux ramp0 0).rampPos + 256 ∧ (getFlux ramp0 0).rampPos ≤ 256 * (getFlux ramp0 0).next := by
  have h1 : parkCode ramp0 0 = 100 := by decide
  have h2 : rampRate ramp0 0 = 256 := by decide
  have h3 : getFlux ramp0 0 = { holder := false, ramp := some true, next := 96, rampPos := 256 * 96 } := rfl
  have h4 : ramp0.clk.tc.toNat = 0 := rfl
  refine ⟨?_, rfl, ?_, ?_, ?_⟩ <;> simp [h1, h3]
  rw [h4, rampTicks, h3]
  simp [rampTarget, h1, h2, ticksToSample]
  norm_num
  have h5 : (25600 : Rat).ceil = 25600 := rfl
  rw [h5]
  omega
theorem witness_readoutClauses : 9 < (10 : BitVec 16).toNat ∧ (getRdi (rdi0 { retired := some 3 }) 0).retired ≠ none ∧
    rdBit (after (.shadowStep 0 ⟨9, 0, 10⟩ 1 2 3) (rdi0 {})) .rdi 0 0x018 0 = true ∧ (getRdi (rdi0 {}) 0).spare < 17 ∧
    ({ rdi0 {} with seen := [(ptBase .rdi + 0) * 32 + 3] } : State).seen.contains ((ptBase .rdi + 0) * 32 + 3) = true := by decide
/-- Slot 3's entry is written, as a job of the Ladle. -/
def wrote3 : State := runJob ladle0.clk.tc (.write 3 { state := 1 } 1 false) ladle0
theorem witness_ladleClauses : ladleOn (ladleCatch ladle0) = true ∧ rd wrote3 .ladle 0 (entryOff 3) 31 30 = 2 ∧
    (∃ j ∈ wrote3.ladleJobs, j = (1, .eval)) ∧ ladle0.items.any (fun i => isFrame i.load) = false ∧ ladle0.tick.flips = [] ∧
    (getSlot ladle0 0).hCfg = none ∧ (getSlot ladle0 0).hBind = none ∧ (slotsOf (ladleCatch ladle0) 0).Nodup ∧
    (getDch (ladleCatch ladle0) 5).cur ≠ .lost ∧ (getDch (ladleCatch { ladle0 with dchs := [(5, { cur := .lost })] }) 5).cur = .lost ∧
    (after (.dchWrite 20 0) ladle0).clk = ladle0.clk ∧ 20 / 4 = 5 := by decide
theorem witness_mortarClauses : (stream0 { run := true, wins := 1 }).mort.run = true ∧ tileServes (stream0 {}) 4 = false ∧
    256 < 257 ∧ rndCount (stream0 {}) ≤ roundOf (stream0 { t0 := -2000 }) 3000 := by decide
theorem witness_captureClauses : hitOf up 0 5 (.level []) = some (.level []) ∧ itemOf up 0 5 [1] = some (5, [1]) ∧ capKind up 0 < 4 ∧
    itemOf (withRegs [(.cap, 0, 0x044, 0x40000000)] up) 0 5 [1] = none ∧ capKind (withRegs [(.cap, 0, 0x044, 0x40000000)] up) 0 = 4 ∧
    capMode (unit0 3 {}) 0 ≠ 1 ∧ egrOn up 0 = false ∧ (getCap (unit0 1 { done := some 0 }) 0).done = some 0 := by decide
theorem witness_pantryClauses : (queue0 [{ req0 0 [] with level := 3 }]).preqs.all (fun q => decide (q.level < 4)) = true ∧
    portWrites 96 = true ∧ portReads 96 = true ∧ ({ up with retired := [3] } : State).retired.contains 3 = true ∧
    rd (after (.pantryRequestDone 7 ⟨5, 2, false⟩) (queue0 [req0 0 []])) .pch 3 0x04C 15 0 = 5 ∧
    rd (after (.pantryRequestDone 7 ⟨5, 2, false⟩) (queue0 [req0 0 []])) .pch 3 0x050 15 0 = 2 ∧
    ((mapGet (fun _ => none) ({ up with trainSlots := [(3, some (0, 63))] } : State).trainSlots 3).map (·.2)).getD 0 = 63 ∧
    liveChannels { up with retired := (List.range 32).filter (· ≠ 2) } = 1 := by decide
theorem witness_laneClauses : lanePowered up 7 = true ∧ lanePowered (upWith [(.lane, 19, 0x04C, 0x40000000), (.host, 1, 0x060, 0x10000000)]) 19 = false ∧
    (after (.los 19) (upWith [(.lane, 19, 0x04C, 0x40000000), (.host, 1, 0x060, 0x10000000)])).regs =
      (upWith [(.lane, 19, 0x04C, 0x40000000), (.host, 1, 0x060, 0x10000000)]).regs ∧ swapTime up = true ∧ swapTime running0 = false ∧
    laneLock up 7 = false ∧ laneLock (upWith [(.lane, 7, 0x04C, 0x01000000)]) 7 = true ∧ up.swaps = [] ∧
    (getSwap (bridged { lane := 2, mine := true, abrupt := true }) 1).map (·.abrupt) = some true := by decide
theorem witness_ringClauses : enabled (ring0 {}) .ring 0 = true ∧ (rtCatch (ladleCatch (ring0 {}))).txq = [] ∧ (ring0 {}).inbox = [] ∧
    14 < ticksTo (0 - 15 : BitVec 48) 0 ∧ (getRPort (ring0 {}) 0).cable = false ∧ (getRPort (ring0 {}) 0).conflict = false ∧ (getRPort (ring0 {}) 0).lmsgRx = 0 := by decide
theorem witness_hostClauses : hostOn (host0 {}) 0 = true ∧ frameOk (host0 {}) 0 (head0 true 7) = true ∧
    frameOk (host0 {}) 0 { head0 true 7 with dst := 5 } = false ∧
    frameOk (withRegs [(.host, 0, 0x040, 0x80050000)] (host0 {})) 0 { head0 true 7 with vid := some 5 } = true ∧
    frameOk (withRegs [(.host, 0, 0x040, 0x80050000)] (host0 {})) 0 { head0 true 7 with vid := some 6 } = false ∧
    rd (after (.regRead 0 { head0 false 7 with dst := 5 } 0 4) (host0 {})) .host 0 0x070 31 16 = 1 ∧ hostOn up 0 = false ∧
    hostOn (withRegs [(.host, 0, 0x008, 1)] (inPhase 7)) 0 = false := by decide
theorem witness_timeClauses : enabled (upWith [(.time, 0, 0x008, 1)]) .time 0 = true ∧ 0 < mtInc (upWith [(.time, 0, 0x008, 1)]) ∧
    cmpAgo (upWith [(.time, 0, 0x008, 1), (.time, 0, 0x198, 0x80000000)]) 1 = 0 ∧ mtNs up < rdPair (upWith [(.time, 0, 0x098, 5)]) .time 0 0x098 ∧
    rdBit (upWith [(.tbus, 0, 0x078, 0x80000000)]) .tbus 0 0x078 31 = true := by decide
theorem witness_calClauses : passWaits (request 3 2 {}) 0 = true ∧ passWaits (request 4 2 {}) 0 = false ∧
    requestOk (freshRequest 0 (request 4 0 {})) 0 = true ∧ rdBit (upWith [(.sys, 0, 0x04C, 0x90000008)]) .sys 0 0x04C 28 = true ∧
    monOk (rd (upWith [(.monadc, 0, 0x060, 0x480)]) .monadc 0 0x060 11 4) 0 = false ∧
    (after (.urgentConversion 1 5) (monitor { urg := [(0, 0), (1, 0)] })).mon.urg = [(0, 0), (1, 0)] ∧
    (after (.urgentConversion 0 5) (monitor { urg := [(0, 0), (1, 0)] })).mon.urg = [(1, 0)] ∧
    siteBit up 20 1 = false := by decide

/-! ## The hypotheses of the clauses: sequencers and activations -/

theorem witness_still : SeqQuiet (playing 0 0 0 {}) 0 ∧ SeqQuiet (waiting 0 {}) 0 ∧ SeqQuiet (branching 2 {}) 0 ∧
    SeqStill (segments (entry0 2 1 0 3) { plays := 2 }) 0 ∧ SeqQuiet (playing 112 0 128 {}) 112 := by
  simp only [SeqQuiet, SeqStill]
  decide
/-- A word that waits with a limit of 50 ticks. -/
def limited (w : Nat) (x : Seq) : State := withRegs [(.seq, 0, 0x07C, 50)] (waiting w x)
theorem witness_waitClauses :
    waitItem (limited 5 { marks := [(0, 3)] }) 0 { marks := [(0, 3)] } (uword (limited 5 {}) 0 0) = some 3 ∧
    ticksTo (50 : BitVec 48) (3 + 4) ≤ 0 ∧ 0 < ticksTo (50 : BitVec 48) (60 + 4) ∧
    (getSeq (after (.waitTimeout 0) (limited 5 { marks := [(0, 3)] })) 0).w = 107 ∧
    (getSeq (after (.waitTimeout 0) (limited 5 {})) 0).w = 150 ∧
    (uword (playing 0 (4 * 2 ^ 18) 0 {}) 0 0).wait = 4 ∧ goStarts (playing 0 (4 * 2 ^ 18) 0 {}) 0 = false ∧
    goStarts goMaster 112 = true ∧ ({} : Seq).met = none := by decide
/-- R92, R94: the word after the branch enters at 101, so one that predicts runs ahead from its own tick. -/
theorem witness_runsAhead : nextWordTick (branching 2 {}) 0 (getSeq (branching 2 {}) 0) (uword (branching 2 {}) 0 0) = some 101 ∧
    (uword (branching 2 {}) 0 0).pred = 2 ∧ (uword (branching 0 {}) 0 0).pred = 0 ∧ (getSeq (branching 2 {}) 0).ahead.length < 2 ∧
    0 < ticksTo (branching 2 {}).clk.tc (101 - 4) ∧ (getSeq (branching 2 { halt := true }) 0).halt = true ∧
    nextWordTick (waiting 4 {}) 0 {} (uword (waiting 4 {}) 0 0) = none ∧
    ((getSeq (after (.wordBr 0) (branching 2 {})) 0).ahead.map (fun a => (a.s, a.predTarget))) = [(101, true)] := by decide
theorem witness_segClauses : ticksTo (1000 - 4 : BitVec 48) (passTo (1000 - 4) (segments (entry0 2 1 0 3) {})).clk.tc ≤ 0 ∧
    0 < ticksTo (1000 - 4 : BitVec 48) (passTo (1000 - 4) (passTicks 997 (segments (entry0 2 1 0 3) {}))).clk.tc ∧
    ticksTo (1000 : BitVec 48) (passTo (1000 - 4) (passTicks 997 (segments (entry0 2 1 0 3) {}))).clk.tc < 0 ∧
    badLane (segments (entry0 2 1 0 3) {}) 0 1 = none ∧ segEntry (segments (entry0 2 1 0 3) {}) 0 1 = 0 ∧
    nbits (entry0 2 1 0 3) 27 16 ≠ 0 ∧ nbits (entry0 0 1 0 3) 27 16 = 0 ∧ nbit (entry0 1 1 2 3) 41 = true ∧ nbit (entry0 1 1 0 3) 41 = false ∧
    (getSeq (segments (entry0 2 1 0 3) { played := true, succAt := some (1000, .again) }) 0).succAt = some (1000, .again) ∧
    segLive (segments (entry0 2 1 0 3) { played := true, succAt := some (1000, .again) }) 0 = true := by decide
theorem witness_acts : 5 ∉ up.tick.acts ∧ 5 ∈ ({ up with tick := { up.tick with acts := [5] } } : State).tick.acts ∧
    rd (after (.taskActivation 5) { itemAt 4 4 (.act 5) up with tick := { up.tick with acts := [5] } }) .evt 0 0x42C 15 0 = 1 ∧
    (getCap (after (.taskActivation 121) (itemAt 0 4 (.act 121) up)) 0).acts = [(1, 4)] ∧
    rdBit (bus [] (upWith [(.tbus, 0, 0x050, 0x80000001)])) .tbus 0 0x050 31 = true ∧
    (after (.taskActivation 172) (itemAt 0 4 (.act 172) (bus [] (upWith [(.tbus, 0, 0x050, 0x80000001)])))).tbusQ.map (·.line) = [1] ∧
    (getSeq (playing 0 0 0 {}) 0).st ≠ .wait ∧ limitTick (playing 0 0 0 {}) 0 {} = none := by decide
/-- A path that comes after I3C has written TIME's PG_CTRL in this tick. -/
def controlled : State := { up with tick := { up.tick with writes := [(0x8008, 2)] } }
theorem witness_controlClauses : laterWrote controlled .i3c 0x8008 = true ∧ laterWrote up .i3c 0x8008 = false ∧
    after (.inhibit .i3c 8) controlled = controlled ∧ up.tick.ports = [] ∧ up.boot.dark = false ∧
    (∀ e ∈ (router [(.evt, 0, 0x040, 1)]).lines, ticksTo e.1 up.clk.tc ≤ 0) ∧
    0 < ticksTo (0 : BitVec 48) ({ up with clk := { tc := 1 } } : State).clk.tc := by decide

/-! ## Lanes -/

/-- The checker of lane 7 is on; or locked, with no spare at port 1 fit. -/
def checker (v : Word) : State := upWith [(.lane, 7, 0x058, 16), (.lane, 7, 0x04C, v)]
theorem witness_receivers : receiving up = true ∧ receiving (inPhase 3) = false ∧ lanePowered up 7 = true ∧ rd up .lane 7 0x040 27 26 = 0 ∧
    rd (upWith [(.lane, 7, 0x040, 0x04000000)]) .lane 7 0x040 27 26 = 1 ∧ lockReaches up 7 = true ∧
    lockReaches (upWith [(.lane, 7, 0x040, 0x03000000)]) 7 = false ∧ loopPattern (checker 0) 7 = true ∧
    checking (checker 0) 7 = true ∧ rdBit (checker 0) .lane 7 0x04C 23 = false ∧ rdBit (checker 0x00800000) .lane 7 0x04C 23 = true ∧
    64 < 70 ∧ 70 ≤ 900 ∧ 900 ≤ 1024 ∧ portOn (upWith [(.ring, 1, 0x008, 1)]) (9 / 5) = true ∧ laneRole (upWith [(.ring, 1, 0x008, 1)]) 9 = 4 ∧
    rdBit (upWith [(.lane, 7, 0x04C, 0x01000000)]) .lane 7 0x04C 24 = true := by decide
theorem witness_moves : swapTime forced7 = true ∧ lanePowered forced7 9 = true ∧ spareApproved forced7 9 = true ∧
    spareSel forced7 3 7 = 1 ∧ laneRole forced7 9 = 4 ∧ laneRole (withRegs [(.lane, 9, 0x04C, 0x60000000)] forced7) 9 ≠ 4 ∧
    laneTest (withRegs [(.lane, 7, 0x078, 0x80000000)] forced7) 7 = false ∧
    rxLive up 9 = false ∧ rxLive (bridged { lane := 2, mine := true }) 9 = true ∧
    spareSel (upWith [(.lane, 7, 0x008, 0x300)]) 3 7 = 3 ∧ rdBit up .lane 7 0x04C 26 = false ∧
    rd (after (.laneFail 7) (upWith [(.ring, 1, 0x008, 1), (.lane, 7, 0x008, 0x300)])) .lane 7 0x018 0 0 = 1 ∧
    rd (after (.laneFail 7) (upWith [(.ring, 1, 0x008, 1), (.lane, 9, 0x04C, 0x60000000)])) .lane 7 0x020 3 0 = 3 ∧
    rd (bridged { lane := 2, mine := true }) .lane 9 0x040 25 24 < 2 := by decide

/-! ## Ring and hosts -/

theorem witness_ringPath : bypassClosed up = true ∧ Output.flit 1 (flitOf 3 2 0 1 5 0) ∉ up.outbox ∧
    after (.triggerFlit 0 (flitOf 3 2 0 1 5 0)) up = up ∧ (∀ k, k < 4 → frameWord up 1 k ≠ wordOf 3) ∧
    2 ≤ nbits (flitOf 3 2 0 2 5 0).toNat 18 14 ∧ nbits (flitOf 3 2 0 2 5 0).toNat 8 4 ≠ ringAddr (ring0 {}) ∧
    ringUp (master1 0) 0 = true ∧ enabled (master1 0) .ring 0 = true ∧ (master1 0).txWait = [] ∧ (master1 0).txq = [] ∧
    (getRPort (master1 0) 1).relay = [] ∧
    (forward 1 (flitOf 3 2 0 2 5 0).toNat false true (master1 0)).txWait.map (fun e => (e.1, e.2.1)) = [(0, 2)] ∧
    enabled opened .ring 0 = false ∧ framedLanes opened 0 ≠ [] ∧
    framedLanes (upWith ((List.range 5).map (fun k => (.lane, k, 0x040, 0x30000000)))) 0 = [] ∧
    (getRPort (ring0 { own := true }) 0).own = true := by decide
theorem witness_hostQueue : (getHPort (host0 { stalled := [{ hostReq (head0 false 7) 2 0 4 [] with bad := true }] }) 0).stalled ≠ [] ∧
    (after (.badOpRequest 0 (head0 false 7) 0x20 0) (host0 { stalled := [hostReq (head0 false 7) 2 0 4 []] })).outbox = [] ∧
    rd (ptp0 0x50000000 {}) .time 0 0x200 29 28 = 1 ∧ (ptpTo (ptp0 0x50000000 {}) 0 0).udp = some (0xE0000181, 319) ∧
    (ptpTo (ptp0 0x40000000 {}) 0 0).mac = 0x011B19000000 ∧
    hostTag (withRegs [(.host, 0, 0x040, 0x80050000)] (host0 {})) 0 = some 5 := by decide

/-! ## Pantry and the whole -/

theorem witness_portClauses : (unit0 0 {}).evac = none ∧ portReaches (unit0 0 {}) 88 0 0x10000 = true ∧
    portReaches (unit0 0 {}) 88 0x10000 1 = false ∧ portServes streaming0 0 = true ∧ portServes { streaming0 with ports := [] } 0 = false ∧
    evacuating.retWait = [] ∧ rd evacuating .pantry 0 0x0A4 31 28 = 2 ∧
    ({ up with wdrawn := [3] } : State).wdrawn ≠ [] ∧ rd (upWith [(.pantry, 0, 0x0A4, 0x10020000)]) .pantry 0 0x0A4 31 28 = 1 := by decide
/-- Every path and every block of the module works, so each command's operation acts. -/
theorem witness_allWork : alive (host0 {}) = true ∧ receiving (host0 {}) = true ∧ pathUp (host0 {}) .i3c = true ∧ pathUp (host0 {}) .h0 = true ∧
    pathUp (upWith [(.host, 1, 0x008, 1)]) .h1 = true ∧
    [PT.sys, .mgmt, .seq, .drv, .rdi, .flx, .ladle, .evt, .mortar, .tile, .cap, .pantry, .pch, .lane, .ring, .host, .time, .tbus, .crc, .cal,
      .monadc, .therm, .pwr, .spare, .nvm, .health].all (ptUp (host0 {})) = true ∧ pageOf 9 = some (.tbus, 0) := by decide

end Sys2Proof.Tests
end

section
/-! The canonical forms (O4) as one predicate on states, with what keeps it: setting a register, an update of any part that
the predicate does not speak of, folds and branches; then one lemma for each operation of the model. -/

namespace Sys2Proof.Machine

/-! ## Tables -/

/-- A key of a table holds its initial value or that of an entry. -/
theorem mapGet_eq_initial_or_mem {α : Type} (d : Nat → α) (k : Nat) :
    ∀ m : List (Nat × α), mapGet d m k = d k ∨ ∃ e ∈ m, mapGet d m k = e.2
  | [] => .inl rfl
  | (k', v) :: m => by
    rw [mapGet_cons]
    split
    · exact .inr ⟨(k', v), by simp, rfl⟩
    · split
      · exact .inl rfl
      · rcases mapGet_eq_initial_or_mem d k m with h | ⟨e, he, h⟩
        · exact .inl h
        · exact .inr ⟨e, by simp [he], h⟩

/-- What a table lists after a write. -/
theorem mem_of_mem_mapSet {α : Type} [DecidableEq α] {d : Nat → α} {k : Nat} {v : α} {e : Nat × α} :
    ∀ {m : List (Nat × α)}, e ∈ mapSet d m k v → e ∈ m ∨ e = (k, v)
  | [], h => by
    unfold mapSet at h
    split at h <;> simp_all
  | (k', v') :: m, h => by
    unfold mapSet at h
    split at h
    · split at h
      · exact .inl h
      · rcases List.mem_cons.1 h with h | h
        · exact .inr h
        · exact .inl h
    · split at h
      · split at h
        · exact .inl (List.mem_cons_of_mem _ ((List.dropWhile_sublist _).mem h))
        · rcases List.mem_cons.1 h with h | h
          · exact .inr h
          · exact .inl (List.mem_cons_of_mem _ h)
      · rcases List.mem_cons.1 h with h | h
        · exact .inl (h ▸ List.mem_cons_self)
        · exact (mem_of_mem_mapSet h).imp_left (List.mem_cons_of_mem _)

/-- Keys that all lie at or above `a` can be moved: a constant initial value keeps the canonical form. -/
theorem mapOk_mapShift {α : Type} [DecidableEq α] {v0 : α} (a b : Nat) :
    ∀ {m : List (Nat × α)} {lb : Nat}, a ≤ lb → mapOk (fun _ => v0) lb m = true →
      mapOk (fun _ => v0) (lb - a + b) (mapShift m a b) = true
  | [], _, _, _ => rfl
  | (k, v) :: m, lb, ha, h => by
    rw [mapOk_cons] at h
    obtain ⟨hk, hv, hm⟩ := h
    have ih := mapOk_mapShift a b (lb := k + 1) (by omega) hm
    exact (mapOk_cons _ _ _ _ _).2 ⟨by omega, hv, mapOk_mono (by omega) ih⟩

theorem bytesOk_nil : bytesOk [] := rfl

theorem bytesOk_mapTake {m : Bytes} (lo hi : Nat) (h : bytesOk m) : bytesOk (mapTake m lo hi) := mapOk_mapTake _ _ h

theorem bytesOk_putBytes {m : Bytes} (a : Nat) (l : List Byte) (h : bytesOk m) : bytesOk (putBytes m a l) :=
  mapOk_putBytes l a h

theorem bytesOk_mapSplice {src dst : Bytes} (lo n : Nat) (hs : bytesOk src) (hd : bytesOk dst) :
    bytesOk (mapSplice src dst lo (lo + n)) := mapOk_mapSplice _ _ (Nat.le_add_right _ _) hs hd

/-- A part of a store, moved to another place. -/
theorem bytesOk_mapShift_mapTake {m : Bytes} (lo hi b : Nat) (h : bytesOk m) :
    bytesOk (mapShift (mapTake m lo hi) lo b) := by
  have ht : mapOk (fun _ => (0 : Byte)) lo (mapTake m lo hi) = true := by
    refine mapOk_of_ge ?_ (bytesOk_mapTake lo hi h)
    intro e he
    simp only [mapTake, List.mem_filter, decide_eq_true_eq] at he
    exact he.2.1
  exact mapOk_mono (Nat.zero_le _) (mapOk_mapShift lo b (Nat.le_refl _) ht)

/-- The bytes of every image, the factory's included, are a canonical table. -/
theorem bytesOk_imageBytes : ∀ {v : VImage}, imageOk v → bytesOk (imageBytes v)
  | .empty, _ => rfl
  | .spoilt, _ => rfl
  | .bytes _, h => h
  | .factory, _ => by
    have h : ∀ (l : List (Nat × Byte)) {m : Bytes}, bytesOk m → bytesOk (l.foldl (fun m e => putByte m e.1 e.2) m) := by
      intro l
      induction l with
      | nil => exact id
      | cons e l ih => exact fun h => ih (mapOk_putByte _ _ h)
    exact h _ rfl

/-! ## The predicate -/

/-- The queue is `cmds`, and the registers, the stores, all that is staged for them or waits to be copied into them, the
vendor images and the Pantry stand in their canonical form. -/
structure Canon (cmds : List Instr) (s : State) : Prop where
  queue : s.pending = cmds
  regs : s.regsOk
  stores : bytesOk s.stores
  staging : ∀ e ∈ s.staging, bytesOk e.2.data
  gStage : bytesOk s.gStage
  accepted : ∀ e ∈ s.accepted, bytesOk e.data
  gWait : ∀ e ∈ s.gWait, bytesOk e.2
  buf : bytesOk s.vimg.buf
  slotA : imageOk s.vimg.slotA
  slotB : imageOk s.vimg.slotB
  held : imageOk s.vimg.held
  image : imageOk s.vimg.image
  pantry : mapOk (fun _ => (none : Option Byte)) 0 s.pantry = true

theorem canon_iff {cmds : List Instr} {s : State} : Canon cmds s ↔ s.pending = cmds ∧ s.regsOk ∧ s.storesOk := by
  constructor
  · rintro ⟨hq, hr, h1, h2, h3, h4, h5, h6, h7, h8, h9, h10, h11⟩
    exact ⟨hq, hr, h1, h2, h3, h4, h5, h6, h7, h8, h9, h10, h11⟩
  · rintro ⟨hq, hr, h1, h2, h3, h4, h5, h6, h7, h8, h9, h10, h11⟩
    exact ⟨hq, hr, h1, h2, h3, h4, h5, h6, h7, h8, h9, h10, h11⟩

end Sys2Proof.Machine

/-! The lemmas of this namespace are named after the operation that keeps `Canon`: `Canon.wr` says it of `wr`. -/

namespace Sys2Proof.Machine.Canon

variable {cmds : List Instr} {s : State}

/-! ## How proofs compose -/

/-- An update of parts that `Canon` does not speak of. -/
protected theorem frame {held wlatch rlatch clk tick boot i3c pins resetting enWait committed unchecked groups seqs tones strms
      outs fluxes seen items later demods rdis iqWords iqSent txq txWait slots dchs provArms ladleJobs
      clrEntries fires lines mort graphBad gBind caps ports fills pzero preqs preqNo rows refilled trainSlots
      retired evac retWait wdrawn wfreed softRows corrs marked pbad swaps lmsgs laneSec fecs prbsFrom rports
      hports frags inbox trigSeen tbusQ tbusAt tseq slaves align cmpFrom rxqs rxqPos seqIds owesHeader cals
      calNo calWin dacTrims trace calPlays mon therm shed evLog logSeq spareMap mapOld wears subs returns rdata
      outbox free} (hs : Canon cmds s) :
    Canon cmds { s with
      held, wlatch, rlatch, clk, tick, boot, i3c, pins, resetting, enWait, committed, unchecked, groups, seqs,
      tones, strms, outs, fluxes, seen, items, later, demods, rdis, iqWords, iqSent, txq, txWait, slots, dchs,
      provArms, ladleJobs, clrEntries, fires, lines, mort, graphBad, gBind, caps, ports, fills, pzero, preqs,
      preqNo, rows, refilled, trainSlots, retired, evac, retWait, wdrawn, wfreed, softRows, corrs, marked,
      pbad, swaps, lmsgs, laneSec, fecs, prbsFrom, rports, hports, frags, inbox, trigSeen, tbusQ, tbusAt, tseq,
      slaves, align, cmpFrom, rxqs, rxqPos, seqIds, owesHeader, cals, calNo, calWin, dacTrims, trace, calPlays,
      mon, therm, shed, evLog, logSeq, spareMap, mapOld, wears, subs, returns, rdata, outbox, free } :=
  { hs with }

protected theorem ite {c : Prop} {_ : Decidable c} {a b : State} (ha : Canon cmds a) (hb : Canon cmds b) :
    Canon cmds (if c then a else b) := by
  split
  exacts [ha, hb]

/-- The same for an operation that answers a value beside the state. -/
protected theorem ite_snd {β : Type} {c : Prop} {_ : Decidable c} {a b : β × State} (ha : Canon cmds a.2)
    (hb : Canon cmds b.2) : Canon cmds (if c then a else b).2 := by
  split
  exacts [ha, hb]

/-- The state of a pair that an operation answers. -/
protected theorem of_pair {β : Type} {x : β × State} {v : β} {t : State} (e : x = (v, t)) (h : Canon cmds x.2) :
    Canon cmds t := by
  rw [e] at h
  exact h

protected theorem foldl {β : Type} {f : State → β → State} (hf : ∀ {b t}, Canon cmds t → Canon cmds (f t b)) :
    ∀ {l : List β} {s : State}, Canon cmds s → Canon cmds (l.foldl f s)
  | [], _, hs => hs
  | b :: l, s, hs => Canon.foldl (l := l) (s := f s b) hf (hf hs)

/-- A fold whose step keeps `Canon` for the members of the list only. -/
protected theorem foldl_mem {β : Type} {f : State → β → State} :
    ∀ {l : List β} {s : State}, (∀ b ∈ l, ∀ {t}, Canon cmds t → Canon cmds (f t b)) → Canon cmds s →
      Canon cmds (l.foldl f s)
  | [], _, _, hs => hs
  | b :: l, s, hf, hs =>
    Canon.foldl_mem (l := l) (s := f s b) (fun c hc => hf c (List.mem_cons_of_mem _ hc)) (hf b List.mem_cons_self hs)

/-! ## What the predicate says of stored images -/

/-- The image in a path's staging buffer is a canonical table. -/
theorem getStaging_data (hs : Canon cmds s) (p : Nat) : bytesOk (getStaging s p).data := by
  rcases mapGet_eq_initial_or_mem (fun _ => ({} : Staging)) p s.staging with h | ⟨e, he, h⟩
  · exact (congrArg (fun x : Staging => bytesOk x.data) h).mpr rfl
  · exact (congrArg (fun x : Staging => bytesOk x.data) h).mpr (hs.staging e he)

/-- The image that start-up or a soft reset loads is one of the two slots', or none. -/
theorem vimgNewest (hs : Canon cmds s) : imageOk (vimgNewest s.vimg) := by
  have h : ∀ a b : VImage, imageOk a → imageOk b →
      imageOk (if vimgVerifies a then a else if vimgVerifies b then b else .empty) := by
    intro a b ha hb
    split
    · exact ha
    · split
      exacts [hb, trivial]
  unfold Machine.vimgNewest
  split
  rename_i a b e
  split at e <;> cases e
  exacts [h _ _ hs.slotB hs.slotA, h _ _ hs.slotA hs.slotB]


/-! ## Ops -/

protected theorem setReg {a : Nat} {v : Word} (hs : Canon cmds s) : Canon cmds (setReg s a v) :=
  { hs with regs := regsOk_setReg _ _ hs.regs }

protected theorem wr {pt : PT} {n off hi lo v : Nat} (hs : Canon cmds s) : Canon cmds (wr s pt n off hi lo v) :=
  .setReg hs

protected theorem wrAll {pt : PT} {n off v : Nat} (hs : Canon cmds s) : Canon cmds (wrAll s pt n off v) :=
  .setReg hs

protected theorem bump {pt : PT} {n off hi lo k : Nat} (hs : Canon cmds s) : Canon cmds (bump s pt n off hi lo k) :=
  .wr hs

protected theorem wrPair {pt : PT} {n off v : Nat} (hs : Canon cmds s) : Canon cmds (wrPair s pt n off v) :=
  .wrAll <| .wrAll hs

protected theorem requestIbi (hs : Canon cmds s) : Canon cmds (requestIbi s) :=
  .ite (.frame hs) hs

protected theorem notePending {pg : Nat} {before after : State} (hafter : Canon cmds after) :
    Canon cmds (notePending pg before after) :=
  .ite (.requestIbi hafter) hafter

protected theorem noteRate (hs : Canon cmds s) : Canon cmds (noteRate s) :=
  .ite hs (.frame hs)

protected theorem passTicks {n : Nat} (hs : Canon cmds s) : Canon cmds (passTicks n s) :=
  .ite hs (.frame hs)

protected theorem passTo {t : BitVec 48} (hs : Canon cmds s) : Canon cmds (passTo t s) := by
  unfold passTo
  exact .ite (.passTicks hs) hs

protected theorem atTick {x : BitVec 48} {f : State → State} (hf : ∀ {t}, Canon cmds t → Canon cmds (f t))
    (hs : Canon cmds s) :
    Canon cmds (atTick x f s) :=
  .ite (hf hs) (.frame <| hf <| .frame hs)

protected theorem freeDraw (hs : Canon cmds s) : Canon cmds (freeDraw s).2 :=
  .frame hs

protected theorem noteRaised {a : Nat} {mask : Word} (hs : Canon cmds s) : Canon cmds (noteRaised a mask s) :=
  .ite (.frame hs) hs

protected theorem portDone {a : Nat} (hs : Canon cmds s) : Canon cmds (portDone a s) :=
  .frame hs

protected theorem raiseBit {pt : PT} {n off i : Nat} (hs : Canon cmds s) : Canon cmds (raiseBit pt n off i s) :=
  .noteRaised <| .wr hs

protected theorem setGroup {g : Nat} {x : Group} (hs : Canon cmds s) : Canon cmds (setGroup s g x) :=
  .frame hs

protected theorem setSeq {q : Nat} {x : Seq} (hs : Canon cmds s) : Canon cmds (setSeq s q x) :=
  .frame hs

protected theorem retag {g : Nat} {last : Bool} {bits : BitVec 8} (hs : Canon cmds s) :
    Canon cmds (retag g last bits s) := by
  unfold retag
  exact .noteRaised <| .wr hs

protected theorem tagDue {g : Nat} {d : BitVec 48} {bits : BitVec 8} (hs : Canon cmds s) :
    Canon cmds (tagDue g d bits s) := by
  unfold tagDue
  exact .ite (.setGroup hs) (.ite (.retag <| .setGroup hs) hs)

protected theorem tagShot {g : Nat} {bits : BitVec 8} (hs : Canon cmds s) : Canon cmds (tagShot g bits s) := by
  unfold tagShot
  exact .ite (.setGroup hs) hs

protected theorem tagSeq {q : Nat} {bits : BitVec 8} (hs : Canon cmds s) : Canon cmds (tagSeq q bits s) := by
  unfold tagSeq
  split
  exacts [hs, .tagShot hs]

protected theorem tagAll {bits : BitVec 8} (hs : Canon cmds s) : Canon cmds (tagAll bits s) :=
  .foldl .tagShot hs

protected theorem setTone {out tone : Nat} {x : Tone} (hs : Canon cmds s) : Canon cmds (setTone s out tone x) :=
  .frame hs

protected theorem setOut {out : Nat} {x : Out} (hs : Canon cmds s) : Canon cmds (setOut s out x) :=
  .frame hs

protected theorem setStream {out n : Nat} {x : Stream} (hs : Canon cmds s) : Canon cmds (setStream s out n x) :=
  .frame hs

protected theorem setFlux {o : Nat} {x : Flux} (hs : Canon cmds s) : Canon cmds (setFlux s o x) :=
  .frame hs

protected theorem sendItem {due : BitVec 48} {group : Option Nat} {deps : List Nat} {load : Payload}
    (hs : Canon cmds s) :
    Canon cmds (sendItem due group deps load s) :=
  .frame hs

protected theorem withinLead {due : BitVec 48} (hs : Canon cmds s) : Canon cmds (withinLead due s) :=
  .passTo hs

protected theorem deliver {p : Payload → Bool} {onTime once late : Item → State → State}
    (honTime : ∀ {x1 t}, Canon cmds t → Canon cmds (onTime x1 t))
    (honce : ∀ {x1 t}, Canon cmds t → Canon cmds (once x1 t))
    (hlate : ∀ {x1 t}, Canon cmds t → Canon cmds (late x1 t)) (hs : Canon cmds s) :
    Canon cmds (deliver p onTime once late s) := by
  unfold deliver
  split
  exacts [hs, .ite hs (.ite (.foldl hlate (honce <| .frame hs)) (.foldl honTime (.passTo <| .frame hs)))]

protected theorem tagItemAt {i : Item} {d : BitVec 48} {bits : BitVec 8} (hs : Canon cmds s) :
    Canon cmds (tagItemAt i d bits s) := by
  unfold tagItemAt
  split
  exacts [.tagDue hs, .foldl .tagDue hs]

protected theorem dueFirst {p : Payload → Bool} (hs : Canon cmds s) : Canon cmds (dueFirst p s) := by
  unfold dueFirst
  dsimp only
  split
  exacts [hs, .ite hs (.frame hs)]

protected theorem tagItem {i : Item} {bits : BitVec 8} (hs : Canon cmds s) : Canon cmds (tagItem i bits s) :=
  .tagItemAt hs

protected theorem whenAlive {f : State → State} (hf : ∀ {t}, Canon cmds t → Canon cmds (f t)) (hs : Canon cmds s) :
    Canon cmds (whenAlive f s) :=
  .ite (hf hs) hs

protected theorem whenUp {pt : PT} {f : State → State} (hf : ∀ {t}, Canon cmds t → Canon cmds (f t))
    (hs : Canon cmds s) :
    Canon cmds (whenUp pt f s) :=
  .ite (hf hs) hs

protected theorem earlyAcc (hs : Canon cmds s) : Canon cmds (earlyAcc s) :=
  .raiseBit hs

protected theorem whenReg {pt : PT} {f : State → State} (hf : ∀ {t}, Canon cmds t → Canon cmds (f t))
    (hs : Canon cmds s) :
    Canon cmds (whenReg pt f s) :=
  .ite (hf hs) (.ite (.earlyAcc hs) hs)

protected theorem whenRead {pt : PT} {f : State → State} (hf : ∀ {t}, Canon cmds t → Canon cmds (f t))
    (hs : Canon cmds s) :
    Canon cmds (whenRead pt f s) :=
  .ite (hf hs) (.ite (.earlyAcc <| .frame hs) hs)

protected theorem emit {o : Output} (hs : Canon cmds s) : Canon cmds (emit o s) :=
  .frame hs

/-! ## Flags -/

protected theorem raiseEvt {pt : PT} {n bit : Nat} (hs : Canon cmds s) : Canon cmds (raiseEvt pt n bit s) :=
  .notePending <| .raiseBit hs

protected theorem raiseFault {pt : PT} {n bit : Nat} (hs : Canon cmds s) : Canon cmds (raiseFault pt n bit s) :=
  .notePending <| .raiseBit hs

protected theorem raiseEvtIf {c : Bool} {pt : PT} {n bit : Nat} (hs : Canon cmds s) :
    Canon cmds (raiseEvtIf c pt n bit s) :=
  .ite (.raiseEvt hs) hs

protected theorem raiseFaultIf {c : Bool} {pt : PT} {n bit : Nat} (hs : Canon cmds s) :
    Canon cmds (raiseFaultIf c pt n bit s) :=
  .ite (.raiseFault hs) hs

protected theorem logEvent {cause page detail : Nat} (hs : Canon cmds s) :
    Canon cmds (logEvent cause page detail s) := by
  unfold logEvent
  exact .raiseEvtIf <| .frame hs

/-! ## Health -/

protected theorem hmTake {u : Nat} {v : Int} (hs : Canon cmds s) : Canon cmds (hmTake u v s) := by
  unfold hmTake
  extract_lets _ _ _ _ _ s2 s3 s4
  have hs2 : Canon cmds s2 := .bump <| .wrAll hs
  have hs3 : Canon cmds s3 := .ite (.wrAll hs2) hs2
  have hs4 : Canon cmds s4 := .ite (.wrAll hs3) hs3
  exact .ite hs4 (.raiseEvtIf <| .bump hs4)

protected theorem hmSample {src ins sub : Nat} {v : Int} (hs : Canon cmds s) :
    Canon cmds (hmSample src ins sub v s) :=
  .ite hs (.foldl .hmTake hs)

protected theorem hmReset {u : Nat} (hs : Canon cmds s) : Canon cmds (hmReset u s) := by
  unfold hmReset
  exact .foldl .wrAll (.wrAll <| .wrAll <| .wrAll hs)

protected theorem hmClear {v : Word} (hs : Canon cmds s) : Canon cmds (hmClear v s) :=
  .foldl .hmReset hs

protected theorem hmCfgWrite {u : Nat} {v : Word} (hs : Canon cmds s) : Canon cmds (hmCfgWrite u v s) :=
  .hmReset <| .wrAll hs

protected theorem hmInterval {u : Nat} {v : Word} (hs : Canon cmds s) : Canon cmds (hmInterval u v s) := by
  unfold hmInterval
  exact .ite (.hmTake hs) hs

protected theorem setWear {k : Nat} {x : Wear} (hs : Canon cmds s) : Canon cmds (setWear s k x) :=
  .frame hs

protected theorem setSpareState {kind ins st : Nat} (hs : Canon cmds s) : Canon cmds (setSpareState kind ins st s) := by
  unfold setSpareState
  split
  exacts [hs, .wr hs]

protected theorem noteWear {kind ins unit st bit : Nat} (hs : Canon cmds s) :
    Canon cmds (noteWear kind ins unit st bit s) := by
  unfold noteWear
  exact .raiseEvt <| .wrAll <| .setWear hs

protected theorem writeMap {kind act ins unit spare : Nat} (hs : Canon cmds s) :
    Canon cmds (writeMap kind act ins unit spare s) := by
  unfold writeMap
  exact .ite (.frame <| .logEvent hs) (.raiseFault <| .logEvent hs)

protected theorem unitBack {kind ins unit : Nat} (hs : Canon cmds s) : Canon cmds (unitBack kind ins unit s) := by
  unfold unitBack
  exact .setWear hs

protected theorem finishSub {kind act ins unit spare : Nat} (hs : Canon cmds s) :
    Canon cmds (finishSub kind act ins unit spare s) := by
  unfold finishSub
  refine .raiseEvt <| .writeMap ?_
  split
  · exact .ite (.wr <| .bump <| .setWear <| .frame hs) (.bump <| .wr <| .bump <| .setWear <| .frame hs)
  · exact .wr <| .bump <| .setWear <| .frame hs

protected theorem serveUnit {kind ins unit spare : Nat} (hs : Canon cmds s) :
    Canon cmds (serveUnit kind ins unit spare s) := by
  unfold serveUnit
  extract_lets page _ _ s0 _ _ s1
  have hpage : ∀ {id t}, Canon cmds t → Canon cmds (page id t) := by
    intro id t ht
    unfold page
    split
    exacts [.wr <| .wr ht, ht]
  split
  · exact hpage <| .wrAll <| .foldl (fun h => .setWear <| .setReg h) hs
  · split
    extract_lets _ _ _ sa s0 s1
    have hsa : Canon cmds sa := .ite (.wr <| .wr hs) hs
    have hs0 : Canon cmds s0 := .ite (.wr <| .wr hsa) hsa
    exact hpage <| .ite (.wr <| .wr hs0) (.wr <| .wr hs0)
  · have hs1 : Canon cmds s1 := by unfold s1; split; exacts [.wr hs, hs]
    exact hpage <| .frame hs1
  · exact hpage <| .wr <| .wr <| .wr hs
  · exact .wr hs
  · exact .wr hs
  · exact hs

protected theorem pendSub {kind ins unit : Nat} (hs : Canon cmds s) : Canon cmds (pendSub kind ins unit s) := by
  unfold pendSub
  exact .ite hs
      (.ite
         (.raiseFault <| .setSpareState <| .setWear hs)
         (.ite (.finishSub hs) (.setSpareState <| .setWear <| .frame hs)))

protected theorem candidate_ {kind ins unit : Nat} (hs : Canon cmds s) : Canon cmds (candidate_ kind ins unit s) :=
  .ite hs (.ite hs (.ite (.pendSub <| .noteWear hs) (.noteWear hs)))

protected theorem addWear {kind ins unit n : Nat} (hs : Canon cmds s) : Canon cmds (addWear kind ins unit n s) := by
  unfold addWear
  exact .ite
      (.candidate_ <| .ite (.noteWear <| .setWear hs) (.setWear hs))
      (.ite (.noteWear <| .setWear hs) (.setWear hs))

protected theorem wearHour (hs : Canon cmds s) : Canon cmds (wearHour s) := by
  unfold wearHour
  exact .frame hs

protected theorem mapClear (hs : Canon cmds s) : Canon cmds (mapClear s) :=
  .ite (.wr hs) (.wr <| .frame hs)

protected theorem mapRead (hs : Canon cmds s) : Canon cmds (mapRead s) := by
  unfold mapRead
  exact .ite (.wr <| .frame hs) (.frame hs)

protected theorem logRead (hs : Canon cmds s) : Canon cmds (logRead s) := by
  unfold logRead
  exact .ite (.wr <| .frame hs) (.wr <| .wr <| .frame hs)

protected theorem logClear {v : Word} (hs : Canon cmds s) : Canon cmds (logClear v s) :=
  .ite (.frame hs) hs

/-! ## Router -/

protected theorem coincide {i : Nat} (hs : Canon cmds s) : Canon cmds (coincide i s) :=
  .raiseEvt <| .bump <| .raiseBit hs

protected theorem setLineBit {off line : Nat} (hs : Canon cmds s) : Canon cmds (setLineBit off line s) :=
  .raiseBit hs

protected theorem dropFire (hs : Canon cmds s) : Canon cmds (dropFire s) :=
  .raiseEvt <| .bump hs

protected theorem fireLine {line : Nat} {x : BitVec 48} {soft : Bool} (hs : Canon cmds s) :
    Canon cmds (fireLine line x soft s) :=
  .ite hs (.frame hs)

protected theorem settleLine {x : BitVec 48} {s0 : State} {line : Nat} (hs0 : Canon cmds s0) :
    Canon cmds (settleLine x s0 line) := by
  unfold settleLine
  exact .ite
      (.setLineBit hs0)
      (.ite
         (.dropFire <| .frame <| .setLineBit hs0)
         (.ite
            (.dropFire <| .raiseFault <| .wr <| .setLineBit <| .frame <| .setLineBit hs0)
            (.frame <| .setLineBit hs0)))

protected theorem settleInput {x : BitVec 48} {i : Nat} (hs : Canon cmds s) : Canon cmds (settleInput x s i) := by
  unfold settleInput
  split
  exacts [hs, .sendItem hs, .coincide <| .sendItem hs]

protected theorem settleTick {x : BitVec 48} (hs : Canon cmds s) : Canon cmds (settleTick x s) := by
  unfold settleTick
  exact .foldl .settleInput (.foldl .settleLine (.ite (.frame hs) (.bump <| .frame hs)))

protected theorem lineCatch (hs : Canon cmds s) : Canon cmds (lineCatch s) :=
  .foldl (fun h => .atTick .settleTick h) hs

protected theorem nextAct {i : Nat} (hs : Canon cmds s) : Canon cmds (nextAct i s) := by
  unfold nextAct
  exact .dueFirst <| .foldl (fun h => .ite h (.lineCatch <| .passTo h)) (.lineCatch hs)

protected theorem routerEnabled (hs : Canon cmds s) : Canon cmds (routerEnabled s) :=
  .ite hs (.frame hs)

protected theorem fireWrite {k : Nat} {v : Word} (hs : Canon cmds s) : Canon cmds (fireWrite k v s) := by
  unfold fireWrite
  exact .foldl .fireLine (.ite (.passTicks <| .lineCatch hs) (.lineCatch hs))

protected theorem lineDisWrite {k : Nat} {v : Word} {s0 : State} (hs0 : Canon cmds s0) :
    Canon cmds (lineDisWrite k v s0) := by
  unfold lineDisWrite
  exact .frame <| .setReg <| .lineCatch hs0

/-! ## Frames -/

protected theorem daxkaSend {h dest op flags tag addr : Nat} {payload : List Byte} (hs : Canon cmds s) :
    Canon cmds (daxkaSend h dest op flags tag addr payload s) :=
  .emit hs

/-! ## TxQueue -/

protected theorem setRPort {r : Nat} {x : RPort} (hs : Canon cmds s) : Canon cmds (setRPort s r x) :=
  .frame hs

protected theorem noteRelay {r n : Nat} {k : Option Nat} (hs : Canon cmds s) : Canon cmds (noteRelay r n k s) := by
  unfold noteRelay
  exact .setRPort hs

protected theorem placeRt {r : Nat} {t : BitVec 48} {m : TxMsg} (hs : Canon cmds s) : Canon cmds (placeRt r t m s) := by
  unfold placeRt
  refine .ite ?_ (.frame <| .setRPort hs)
  extract_lets
  split
  exacts [.noteRelay <| .raiseEvt <| .bump <| .setRPort hs, .raiseEvt <| .bump <| .setRPort hs]

protected theorem rtCatch (hs : Canon cmds s) : Canon cmds (rtCatch s) := by
  unfold rtCatch
  exact .foldl (fun h => .atTick .placeRt h) (.frame hs)

protected theorem readyRt {t : BitVec 48} {m : TxMsg} {r : Nat} (hs : Canon cmds s) : Canon cmds (readyRt t m s r) :=
  .ite hs (.frame hs)

protected theorem queueRt {t : BitVec 48} {m : TxMsg} {r : Nat} (hs : Canon cmds s) : Canon cmds (queueRt t m s r) :=
  .readyRt hs

protected theorem unqueueRt {p : TxMsg → Bool} {r : Nat} (hs : Canon cmds s) : Canon cmds (unqueueRt p s r) :=
  .frame hs

/-! ## Ladle -/

protected theorem setSlot {k : Nat} {x : LSlot} (hs : Canon cmds s) : Canon cmds (setSlot s k x) :=
  .frame hs

protected theorem setDch {c : Nat} {x : Dch} (hs : Canon cmds s) : Canon cmds (setDch s c x) :=
  .frame hs

protected theorem setPend {k v : Nat} (hs : Canon cmds s) : Canon cmds (setPend k v s) :=
  .wr hs

protected theorem decPend {k : Nat} (hs : Canon cmds s) : Canon cmds (decPend k s) :=
  .setPend hs

protected theorem exportDch {c : Nat} {st : DState} {e : BitVec 48} (hs : Canon cmds s) :
    Canon cmds (exportDch c st e s) := by
  unfold exportDch
  exact .ite hs (.foldl .queueRt (.setDch hs))

protected theorem moveDch {e : BitVec 48} {c : Nat} {st : DState} (hs : Canon cmds s) :
    Canon cmds (moveDch e c st s) :=
  .ite hs (.exportDch <| .sendItem <| .setDch hs)

protected theorem evalAll {e : BitVec 48} (hs : Canon cmds s) : Canon cmds (evalAll e s) :=
  .foldl .moveDch hs

protected theorem addJob {t : BitVec 48} {j : LJob} (hs : Canon cmds s) : Canon cmds (addJob t j s) :=
  .frame hs

protected theorem evalAt {e : BitVec 48} (hs : Canon cmds s) : Canon cmds (evalAt e s) :=
  .ite hs (.addJob hs)

protected theorem evalNext (hs : Canon cmds s) : Canon cmds (evalNext s) :=
  .evalAt hs

protected theorem sendSynd {t : BitVec 48} {r : Res} {k : Nat} (hs : Canon cmds s) : Canon cmds (sendSynd t r s k) :=
  .ite (.sendItem hs) hs

protected theorem writeEntry {r : Res} {st : Nat} {fl : Bool} {k : Nat} (hs : Canon cmds s) :
    Canon cmds (writeEntry r st fl s k) := by
  unfold writeEntry
  exact .ite (.setReg hs) (.setReg hs)

protected theorem withdrawArms {dep : Nat} (hs : Canon cmds s) : Canon cmds (withdrawArms dep s) := by
  unfold withdrawArms
  exact .foldl (fun h => .foldl .decPend h) (.frame hs)

protected theorem ladleResolve {dep : Nat} {ok : Bool} {t : BitVec 48} {s0 : State} (hs0 : Canon cmds s0) :
    Canon cmds (ladleResolve dep ok t s0) := by
  unfold ladleResolve
  exact .ite
      (.frame <| .ite hs0 (.frame hs0))
      (.ite (.evalAt <| .withdrawArms <| .ite hs0 (.frame hs0)) (.ite hs0 (.frame hs0)))

protected theorem runJob {t : BitVec 48} {j : LJob} (hs : Canon cmds s) : Canon cmds (runJob t j s) := by
  unfold runJob
  split
  · exact .ladleResolve hs
  · exact .evalAll hs
  · exact .ite (.sendItem <| .setDch hs) hs
  · exact .ite (.evalAt <| .sendSynd <| .writeEntry hs) hs

protected theorem runJobs {x : BitVec 48} {rank : Nat} :
    ∀ {n : Nat} {s : State}, Canon cmds s → Canon cmds (runJobs n x rank s)
  | 0, _, hs => hs
  | n + 1, s, hs => by
    unfold runJobs
    split
    · exact hs
    · exact .ite (Canon.runJobs <| .runJob <| .frame hs) hs

protected theorem ladleCatch (hs : Canon cmds s) : Canon cmds (ladleCatch s) :=
  .runJobs hs

protected theorem ladleCatchEval (hs : Canon cmds s) : Canon cmds (ladleCatchEval s) :=
  .runJobs hs

protected theorem ladleUntil {p : Payload → Bool} :
    ∀ {n : Nat} {s : State}, Canon cmds s → Canon cmds (ladleUntil p n s)
  | 0, _, hs => hs
  | n + 1, s, hs => by
    unfold ladleUntil
    split
    · exact hs
    · split
      · exact hs
      · exact Canon.ladleUntil <| .ladleCatch <| .passTo hs

protected theorem retractDch {e : BitVec 48} {c : Nat} (hs : Canon cmds s) : Canon cmds (retractDch e c s) := by
  unfold retractDch
  exact .ite hs (.foldl .unqueueRt (.setDch <| .frame hs))

protected theorem setBcast {c : Nat} {st : DState} {d : BitVec 48} (hs : Canon cmds s) :
    Canon cmds (setBcast c st d s) := by
  unfold setBcast
  exact .foldl .fireLine (.ite hs (.setDch hs))

protected theorem bcastCatch {c : Nat} {x : BitVec 48} (hs : Canon cmds s) : Canon cmds (bcastCatch c x s) := by
  unfold bcastCatch
  exact .foldl (fun h => by split; exacts [.setBcast h, h]) (.frame <| .ladleCatch hs)

protected theorem ladleLate (hs : Canon cmds s) : Canon cmds (ladleLate s) :=
  .raiseEvt <| .bump hs

protected theorem flipFrame {u : Nat × Bool × Bool} (hs : Canon cmds s) : Canon cmds (flipFrame s u) := by
  unfold flipFrame
  exact .setSlot hs

protected theorem flipObs {o : Nat} (hs : Canon cmds s) : Canon cmds (flipObs s o) := by
  unfold flipObs
  exact .wr hs

protected theorem setObsPend {p : Nat × Bool} (hs : Canon cmds s) : Canon cmds (setObsPend s p) :=
  .wr hs

protected theorem noteFlips {us : List (Nat × Bool × Bool)} (hs : Canon cmds s) : Canon cmds (noteFlips us s) :=
  .ite (.frame hs) hs

protected theorem applyFrame {flips : List (Nat × Bool × Bool)} {obs : List Nat} {pend : List (Nat × Bool)}
    {s0 : State} (hs0 : Canon cmds s0) :
    Canon cmds (applyFrame flips obs pend s0) := by
  unfold applyFrame
  exact .ite
      (.ladleCatch hs0)
      (.evalNext <| .foldl .setObsPend (.foldl .flipObs (.noteFlips <| .foldl .flipFrame (.ladleCatch hs0))))

protected theorem frameAct {i : Item} (hs : Canon cmds s) : Canon cmds (frameAct i s) := by
  unfold frameAct
  split
  exacts [.applyFrame hs, hs]

protected theorem framesFirst (hs : Canon cmds s) : Canon cmds (framesFirst s) := by
  unfold framesFirst
  exact .foldl .frameAct (.frame hs)

protected theorem frameUpdateDue (hs : Canon cmds s) : Canon cmds (frameUpdateDue s) :=
  .deliver .frameAct (fun h => .tagItem <| .ladleLate h) .frameAct hs

protected theorem takeResult {r : Res} {s0 : State} (hs0 : Canon cmds s0) : Canon cmds (takeResult r s0) := by
  unfold takeResult
  extract_lets s
  have hs : Canon cmds s := .ladleCatch <| .framesFirst hs0
  exact .ite hs (.ite (.raiseEvt <| .bump hs) (.ite (.bump hs) (.foldl .addJob hs)))

protected theorem noteWritten {i : Item} {r : Res} (hs : Canon cmds s) : Canon cmds (noteWritten i r s) := by
  unfold noteWritten
  split
  exacts [.ite (.setGroup hs) hs, hs]

protected theorem resultDue {d : Nat} (hs : Canon cmds s) : Canon cmds (resultDue d s) := by
  unfold resultDue
  exact .deliver
      (fun h => by split; exacts [.noteWritten <| .takeResult h, h])
      (fun h => .tagItem <| .ladleLate h)
      (fun h => by split; exacts [.noteWritten <| .takeResult h, h])
      hs

protected theorem countArm {d : Nat} {deps : List Nat} {s0 : State} (hs0 : Canon cmds s0) :
    Canon cmds (countArm d deps s0) := by
  unfold countArm
  exact .ite
      (.ladleCatch hs0)
      (.evalNext <| .ite (.foldl .setPend (.ladleCatch hs0)) (.frame <| .foldl .setPend (.ladleCatch hs0)))

protected theorem armCopyDue {d : Nat} (hs : Canon cmds s) : Canon cmds (armCopyDue d s) := by
  unfold armCopyDue
  exact .deliver
      (fun h => by split; exacts [.countArm h, h])
      (fun h => .tagItem <| .ladleLate h)
      (fun h => by split; exacts [.countArm h, h])
      hs

protected theorem lateDecision {d : BitVec 48} (hs : Canon cmds s) : Canon cmds (lateDecision d s) :=
  .foldl .raiseEvt hs

protected theorem broadcastDue {c : Nat} {s0 : State} (hs0 : Canon cmds s0) : Canon cmds (broadcastDue c s0) := by
  unfold broadcastDue
  exact .deliver
      (fun h => by split; exacts [.setBcast h, h])
      (fun h => .tagItem <| .lateDecision h)
      (fun h => by split; exacts [.setBcast h, h])
      (.ladleUntil <| .ladleCatch hs0)

protected theorem dchChanged {c : Nat} (hs : Canon cmds s) : Canon cmds (dchChanged c s) := by
  unfold dchChanged
  exact .ite (.evalAt <| .setDch <| .retractDch hs) (.evalAt <| .exportDch <| .sendItem <| .setDch <| .retractDch hs)

protected theorem dchWrite {idx : Nat} {v : Word} (hs : Canon cmds s) : Canon cmds (dchWrite idx v s) := by
  unfold dchWrite
  exact .dchChanged <| .wrAll <| .ladleCatch hs

protected theorem slotChanged {k : Nat} {x : LSlot} (hs : Canon cmds s) : Canon cmds (slotChanged k x s) :=
  .evalNext <| .setSlot <| .ladleCatch hs

protected theorem releaseSlot {k : Nat} (hs : Canon cmds s) : Canon cmds (releaseSlot s k) := by
  unfold releaseSlot
  exact .ite hs (.ite hs (.slotChanged hs))

protected theorem reflip {k : Nat} (hs : Canon cmds s) : Canon cmds (reflip k s) :=
  .foldl .flipFrame hs

protected theorem noteSoft {k : Nat} {fx fz : Bool} (hs : Canon cmds s) : Canon cmds (noteSoft k fx fz s) :=
  .ite (.frame hs) hs

protected theorem releaseFrame {k : Nat} (hs : Canon cmds s) : Canon cmds (releaseFrame s k) := by
  unfold releaseFrame
  extract_lets
  split
  exacts [hs, .ite hs (.noteSoft <| .reflip <| .slotChanged hs)]

protected theorem clearEntries {s0 : State} (hs0 : Canon cmds s0) : Canon cmds (clearEntries s0) := by
  unfold clearEntries
  exact .evalNext <| .foldl .setReg (.frame <| .ladleCatchEval hs0)

protected theorem ladleRelease (hs : Canon cmds s) : Canon cmds (ladleRelease s) := by
  unfold ladleRelease
  exact .ite
      (.clearEntries <| .foldl .releaseFrame (.foldl .releaseSlot hs))
      (.foldl .releaseFrame (.foldl .releaseSlot hs))

protected theorem noteDefer {k : Nat} (hs : Canon cmds s) : Canon cmds (noteDefer k s) := by
  unfold noteDefer
  exact .raiseEvtIf hs

protected theorem slotBindWrite {v : Word} (hs : Canon cmds s) : Canon cmds (slotBindWrite v s) := by
  unfold slotBindWrite
  exact .noteDefer <| .releaseSlot <| .setSlot hs

protected theorem slotAdvance (hs : Canon cmds s) : Canon cmds (slotAdvance s) :=
  .ite (.wr hs) hs

protected theorem slotCfgWrite {v : Word} (hs : Canon cmds s) : Canon cmds (slotCfgWrite v s) := by
  unfold slotCfgWrite
  exact .slotAdvance <| .noteDefer <| .releaseFrame <| .releaseSlot <| .setSlot hs

protected theorem clrLost {s0 : State} (hs0 : Canon cmds s0) : Canon cmds (clrLost s0) := by
  unfold clrLost
  exact .foldl (fun h => .ite (.moveDch h) h) (.ladleCatch hs0)

protected theorem clrEntriesNow (hs : Canon cmds s) : Canon cmds (clrEntriesNow s) :=
  .ite (.frame hs) (.clearEntries hs)

protected theorem resendAll {s0 : State} (hs0 : Canon cmds s0) : Canon cmds (resendAll s0) := by
  unfold resendAll
  exact .ite (.ladleCatch hs0) (.foldl .exportDch (.ladleCatch hs0))

protected theorem tableParity {channel : Bool} {idx : Nat} {s0 : State} (hs0 : Canon cmds s0) :
    Canon cmds (tableParity channel idx s0) := by
  unfold tableParity
  exact .ite
      (.raiseFault <| .evalNext <| .setDch <| .ladleCatch hs0)
      (.raiseFault <| .evalNext <| .wr <| .setSlot <| .ladleCatch hs0)

protected theorem lossAtLadle {port : Nat} {s0 : State} (hs0 : Canon cmds s0) : Canon cmds (lossAtLadle port s0) := by
  unfold lossAtLadle
  exact .ite
      (.ladleCatch hs0)
      (.ite
         (.ladleCatch hs0)
         (.raiseEvt <| .bump <| .foldl (fun h => .setBcast <| .setDch h) (.frame <| .ladleCatch hs0)))

protected theorem takeCopy {port src seq : Nat} {st : DState} {at_ : BitVec 48} {t : State} {c : Nat}
    (ht : Canon cmds t) :
    Canon cmds (takeCopy port src seq st at_ t c) := by
  unfold takeCopy
  exact .ite (.bump ht) (.ladleCatch <| .addJob <| .ite (.raiseEvt <| .bump <| .setDch ht) (.setDch ht))

protected theorem flitRoom {s0 : State} (hs0 : Canon cmds s0) : Canon cmds (flitRoom s0) := by
  unfold flitRoom
  extract_lets
  split
  exacts [.ladleCatch hs0, .ite (.ladleCatch <| .passTo <| .ladleCatch hs0) (.ladleCatch hs0)]

protected theorem takeDecision {port node rch seq : Nat} {st : DState} {stamp : BitVec 16} {s0 : State}
    (hs0 : Canon cmds s0) :
    Canon cmds (takeDecision port node rch seq st stamp s0) := by
  unfold takeDecision
  exact .ite
      (.flitRoom hs0)
      (.ite (.foldl .tagDue (.ladleLate <| .foldl .takeCopy (.flitRoom hs0))) (.foldl .takeCopy (.flitRoom hs0)))

protected theorem ladleOpen {g : Nat} {s0 : State} (hs0 : Canon cmds s0) : Canon cmds (ladleOpen g s0) := by
  unfold ladleOpen
  exact .ite
      (.ladleCatchEval hs0)
      (.evalNext <|
         .foldl (fun h => .ite (.wr h) h) (.foldl (fun h => .ite (.reflip <| .setSlot h) h) (.ladleCatchEval hs0)))

protected theorem ladleEnabled (hs : Canon cmds s) : Canon cmds (ladleEnabled s) := by
  unfold ladleEnabled
  exact .evalNext <| .foldl (fun h => .ite (.moveDch h) h) (.ladleCatch hs)

/-! ## Converters -/

protected theorem outBump {out off hi lo k : Nat} (hs : Canon cmds s) : Canon cmds (outBump s out off hi lo k) :=
  .bump hs

protected theorem outEvt {out bit : Nat} (hs : Canon cmds s) : Canon cmds (outEvt out bit s) :=
  .raiseEvt hs

protected theorem outFault {out bit : Nat} (hs : Canon cmds s) : Canon cmds (outFault out bit s) :=
  .raiseFault hs

protected theorem noteGate {before : State} {t : BitVec 48} {out : Nat} (hs : Canon cmds s) :
    Canon cmds (noteGate before t out s) := by
  unfold noteGate
  exact .ite hs (.setOut hs)

protected theorem gated {t : BitVec 48} {f : State → State} (hf : ∀ {t}, Canon cmds t → Canon cmds (f t))
    (hs : Canon cmds s) :
    Canon cmds (gated t f s) :=
  .foldl .noteGate (hf hs)

protected theorem raiseFirst {pt : PT} {n bit : Nat} (hs : Canon cmds s) : Canon cmds (raiseFirst pt n bit s) := by
  unfold raiseFirst
  exact .ite hs (.raiseEvt <| .frame hs)

protected theorem outCatch {out : Nat} (hs : Canon cmds s) : Canon cmds (outCatch out s) :=
  .ite hs (.ite (.setOut hs) (.raiseFirst <| .outBump <| .setOut hs))

protected theorem placeOp {out tone : Nat} {o : Phase} {s0 : State} (hs0 : Canon cmds s0) :
    Canon cmds (placeOp out tone o s0) := by
  unfold placeOp
  split
  exacts [hs0, .setTone <| .outCatch hs0]

protected theorem cutStreams {out tone : Nat} (hs : Canon cmds s) : Canon cmds (cutStreams out tone s) :=
  .foldl (fun h => by split; exacts [.ite (.setStream h) h, h]) hs

protected theorem placePulse {out tone : Nat} {late : Bool} {u0 : Pulse} {s0 : State} (hs0 : Canon cmds s0) :
    Canon cmds (placePulse out tone late u0 s0) := by
  unfold placePulse
  exact .ite
      (.outEvt <| .outBump <| .cutStreams <| .setTone <| .ite (.outCatch hs0) (.setOut hs0))
      (.cutStreams <| .setTone <| .ite (.outCatch hs0) (.setOut hs0))

protected theorem claimFor {out tone : Nat} {u : Pulse} (hs : Canon cmds s) : Canon cmds (claimFor out tone u s) := by
  unfold claimFor
  split
  exacts [.setStream hs, hs]

protected theorem freeStream {out tone : Nat} {u : Pulse} (hs : Canon cmds s) :
    Canon cmds (freeStream out tone u s) := by
  unfold freeStream
  split
  exacts [.ite (.setStream hs) hs, hs]

protected theorem acceptPort {i : Item} (hs : Canon cmds s) : Canon cmds (acceptPort i s) := by
  unfold acceptPort
  split
  exacts [.ite hs (.claimFor hs), hs]

protected theorem portAct {late : Bool} {i : Item} (hs : Canon cmds s) : Canon cmds (portAct late i s) := by
  unfold portAct
  split
  · extract_lets _ _ s1 _ _ _ s2 s3
    have hs1 : Canon cmds s1 := .placeOp hs
    have hs2 : Canon cmds s2 := .ite (.freeStream hs1) (.ite hs1 (.claimFor hs1))
    have hs3 : Canon cmds s3 := .ite (.tagItem <| .outEvt <| .outBump hs2) hs2
    exact .ite hs1 (.ite hs3 (.placePulse hs3))
  · exact hs

protected theorem portActionDue {out tone : Nat} (hs : Canon cmds s) : Canon cmds (portActionDue out tone s) := by
  unfold portActionDue
  exact .deliver (fun h => .portAct <| .framesFirst h) (fun h => .tagItem <| .outEvt h) .portAct hs

protected theorem muteWrite {out : Nat} {on : Bool} (hs : Canon cmds s) : Canon cmds (muteWrite out on s) := by
  unfold muteWrite
  exact .ite (.tagSeq <| .gated .wr hs) (.gated .wr hs)

protected theorem toneVerify {out tone : Nat} {mismatch : Bool} (hs : Canon cmds s) :
    Canon cmds (toneVerify out tone mismatch s) :=
  .ite (.addWear <| .outFault <| .wr <| .outBump hs) hs

protected theorem toneOpen {t : BitVec 48} {out tone : Nat} (hs : Canon cmds s) :
    Canon cmds (toneOpen t out s tone) := by
  unfold toneOpen
  exact .ite (.placeOp <| .ite (.placeOp hs) hs) (.ite (.placeOp hs) hs)

protected theorem freqChanged {out tone : Nat} (hs : Canon cmds s) : Canon cmds (freqChanged out tone s) := by
  unfold freqChanged
  exact .placeOp hs

protected theorem strmResolve {out dep : Nat} {ok : Bool} {n : Nat} (hs : Canon cmds s) :
    Canon cmds (strmResolve out dep ok s n) := by
  unfold strmResolve
  exact .ite hs (.ite (.setStream hs) (.setStream hs))

protected theorem outResolve {out dep : Nat} {ok : Bool} (hs : Canon cmds s) : Canon cmds (outResolve out dep ok s) :=
  .foldl .strmResolve (.foldl (fun h => .cutStreams <| .setTone h) (.outCatch hs))

protected theorem flxEvt {o bit : Nat} (hs : Canon cmds s) : Canon cmds (flxEvt o bit s) :=
  .raiseEvt hs

protected theorem fluxPost {o : Nat} {f : Flux} (hs : Canon cmds s) : Canon cmds (fluxPost o f s) := by
  unfold fluxPost
  exact .raiseEvtIf <|
      .ite
        (.raiseEvtIf <| .ite (.setFlux hs) (.raiseFirst <| .bump <| .setFlux hs))
        (.flxEvt <| .bump <| .raiseEvtIf <| .ite (.setFlux hs) (.raiseFirst <| .bump <| .setFlux hs))

protected theorem fluxCatch {o : Nat} (hs : Canon cmds s) : Canon cmds (fluxCatch o s) := by
  unfold fluxCatch
  exact .ite hs (.ite (.setFlux hs) (.fluxPost hs))

protected theorem fluxGroupCatch {g : Nat} (hs : Canon cmds s) : Canon cmds (fluxGroupCatch g s) :=
  .foldl .fluxCatch hs

protected theorem fluxTakeOver {o : Nat} (hs : Canon cmds s) : Canon cmds (fluxTakeOver o s) := by
  unfold fluxTakeOver
  exact .ite (.setFlux hs) hs

protected theorem putFlux {o p w : Nat} {act : FAct} {deps : List Nat} (hs : Canon cmds s) :
    Canon cmds (putFlux o p w act deps s) := by
  unfold putFlux
  exact .setFlux hs

protected theorem fluxRampAt {t : BitVec 48} {toPark : Bool} {o : Nat} (hs : Canon cmds s) :
    Canon cmds (fluxRampAt t toPark o s) := by
  unfold fluxRampAt
  exact .ite (.fluxCatch hs) (.ite (.setFlux <| .fluxCatch hs) (.putFlux <| .setFlux <| .fluxCatch hs))

protected theorem fluxRamp {toPark : Bool} {o : Nat} (hs : Canon cmds s) : Canon cmds (fluxRamp toPark o s) :=
  .fluxRampAt hs

protected theorem fluxGroupPark {g : Nat} (hs : Canon cmds s) : Canon cmds (fluxGroupPark g s) :=
  .foldl .fluxRamp hs

protected theorem fluxAct {i : Item} {s0 : State} (hs0 : Canon cmds s0) : Canon cmds (fluxAct i s0) := by
  unfold fluxAct
  split
  · extract_lets s _ _ _ _ _ _ _ _ _ s1
    have hs : Canon cmds s := .fluxCatch <| .fluxTakeOver hs0
    have hs1 : Canon cmds s1 := .ite (.tagItem <| .flxEvt <| .bump hs) hs
    refine .ite hs0 ?_
    split
    · exact .ite hs1 (.ite hs1 (.putFlux hs1))
    · exact .ite hs1 (.ite hs1 (.putFlux hs1))
    · exact .ite hs (.putFlux hs)
    · exact .ite hs (.putFlux hs)
    · exact hs
  · exact hs0

protected theorem fluxHoldNow {o : Nat} (hs : Canon cmds s) : Canon cmds (fluxHoldNow o s) := by
  unfold fluxHoldNow
  exact .ite (.fluxCatch hs) (.putFlux <| .fluxCatch hs)

protected theorem fluxLate {i : Item} (hs : Canon cmds s) : Canon cmds (fluxLate i s) := by
  unfold fluxLate
  split
  exacts [.fluxHoldNow hs, hs]

protected theorem fluxActionDue {o : Nat} (hs : Canon cmds s) : Canon cmds (fluxActionDue o s) := by
  unfold fluxActionDue
  exact .deliver .fluxAct (fun h => .tagItem <| .flxEvt h) .fluxLate hs

protected theorem parkNowWrite {o : Nat} {on : Bool} (hs : Canon cmds s) : Canon cmds (parkNowWrite o on s) := by
  unfold parkNowWrite
  exact .ite (.tagSeq <| .fluxRamp <| .wr <| .fluxCatch hs) (.wr <| .fluxCatch hs)

protected theorem rampDone {o : Nat} (hs : Canon cmds s) : Canon cmds (rampDone o s) := by
  unfold rampDone
  exact .fluxCatch <| .passTicks <| .fluxCatch <| .passTicks <| .fluxCatch hs

protected theorem runNear {o : Nat} : ∀ {n : Nat} {s : State}, Canon cmds s → Canon cmds (runNear o n s)
  | 0, _, hs => hs
  | _ + 1, _, hs => .ite hs (Canon.runNear <| .fluxCatch <| .passTicks hs)

protected theorem holderTakes {o : Nat} (hs : Canon cmds s) : Canon cmds (holderTakes o s) :=
  .setFlux hs

protected theorem parkHandover {o : Nat} (hs : Canon cmds s) : Canon cmds (parkHandover o s) :=
  .ite hs (.holderTakes <| .runNear <| .rampDone hs)

protected theorem pdClrWrite {o : Nat} (hs : Canon cmds s) : Canon cmds (pdClrWrite o s) :=
  .setFlux hs

protected theorem pdClrApply {o : Nat} (hs : Canon cmds s) : Canon cmds (pdClrApply o s) :=
  .ite (.setFlux <| .fluxCatch hs) hs

protected theorem fluxEndPark {e : BitVec 48} {o : Nat} (hs : Canon cmds s) : Canon cmds (fluxEndPark e o s) :=
  .ite (.putFlux <| .fluxCatch hs) hs

protected theorem fluxResolve {o dep : Nat} {ok : Bool} (hs : Canon cmds s) : Canon cmds (fluxResolve o dep ok s) := by
  unfold fluxResolve
  exact .setFlux hs

protected theorem dacFaultAt {out : Nat} (hs : Canon cmds s) : Canon cmds (dacFaultAt out s) :=
  .ite (.outFault <| .tagSeq <| .gated .setOut hs) (.raiseFault <| .tagSeq <| .setFlux <| .fluxRamp hs)

protected theorem silenceSeq {q : Nat} {t : BitVec 48} (hs : Canon cmds s) : Canon cmds (silenceSeq q t s) :=
  .ite (.gated .setOut hs) (.ite (.foldl (fun h => .setFlux <| .fluxRampAt h) hs) hs)

protected theorem soundSeq {q : Nat} {t : BitVec 48} (hs : Canon cmds s) : Canon cmds (soundSeq q t s) :=
  .ite (.gated .setOut hs) (.ite (.foldl (fun h => .ite (.setFlux h) h) hs) hs)

/-! ## Crc -/

protected theorem ctxCfgWrite {slot : Nat} {v : Word} (hs : Canon cmds s) : Canon cmds (ctxCfgWrite slot v s) := by
  unfold ctxCfgWrite
  exact .ite (.wrAll <| .wrAll hs) (.wrAll hs)

protected theorem ctxData {slot : Nat} {v : Word} (hs : Canon cmds s) : Canon cmds (ctxData slot v s) := by
  unfold ctxData
  exact .ite (.raiseEvt hs) (.wr <| .wrAll hs)

protected theorem feedNoted {p slot : Nat} {v : Word} (hs : Canon cmds s) : Canon cmds (feedNoted p slot v s) := by
  unfold feedNoted
  exact .ite (.frame <| .ctxData hs) (.ctxData hs)

protected theorem feedOrdered {p slot : Nat} {v : Word} (hs : Canon cmds s) : Canon cmds (feedOrdered p slot v s) := by
  unfold feedOrdered
  extract_lets
  split
  exacts [.feedNoted hs, .foldl .feedNoted (.feedNoted <| .setReg <| .setReg <| .frame hs)]

protected theorem feedsDone {slot : Nat} (hs : Canon cmds s) : Canon cmds (feedsDone slot s) :=
  .frame hs

protected theorem crcWindowWrite {eng : Nat} {v : Word} (hs : Canon cmds s) : Canon cmds (crcWindowWrite eng v s) :=
  .ctxData hs

protected theorem ctxValWrite {slot : Nat} {v : Word} (hs : Canon cmds s) : Canon cmds (ctxValWrite slot v s) := by
  unfold ctxValWrite
  exact .wrAll hs

/-! ## Readout -/

protected theorem setDemod {d : Nat} {x : Demod} (hs : Canon cmds s) : Canon cmds (setDemod s d x) :=
  .frame hs

protected theorem setRdi {n : Nat} {x : Rdi} (hs : Canon cmds s) : Canon cmds (setRdi s n x) :=
  .frame hs

protected theorem dmPlace {t : BitVec 48} {d : Nat} {op : PhOp} (hs : Canon cmds s) : Canon cmds (dmPlace t d op s) := by
  unfold dmPlace
  exact .setDemod hs

protected theorem dmOpen {t : BitVec 48} {d : Nat} (hs : Canon cmds s) : Canon cmds (dmOpen t s d) :=
  .ite (.dmPlace hs) hs

protected theorem dfChanged {d : Nat} (hs : Canon cmds s) : Canon cmds (dfChanged d s) :=
  .dmPlace hs

protected theorem noteWord {r : Res} (hs : Canon cmds s) : Canon cmds (noteWord r s) :=
  .frame hs

protected theorem sendResult {r : Res} {due : BitVec 48} {group : Option Nat} {deps : List Nat} (hs : Canon cmds s) :
    Canon cmds (sendResult r due group deps s) := by
  unfold sendResult
  extract_lets _ _ _ s2 t
  have hs2 : Canon cmds s2 := .raiseBit <| .wrAll <| .wrAll <| .wrAll hs
  have ht : Canon cmds t := .bump hs2
  exact .sendItem <| .noteWord <| .ite (by split; exacts [.tagShot ht, ht]) hs2

protected theorem refuse {d : Nat} {r : Refused} (hs : Canon cmds s) : Canon cmds (refuse d r s) := by
  unfold refuse
  exact .setDemod hs

protected theorem refuseArm {d cause : Nat} {due a : BitVec 48} {i : Item} (hs : Canon cmds s) :
    Canon cmds (refuseArm d cause due a i s) :=
  .refuse hs

protected theorem formRefused {d : Nat} {r : Refused} (hs : Canon cmds s) : Canon cmds (formRefused d s r) :=
  .atTick .sendResult hs

protected theorem readCatch {d : Nat} (hs : Canon cmds s) : Canon cmds (readCatch d s) := by
  unfold readCatch
  exact .ite (.foldl .formRefused (.setDemod hs)) hs

protected theorem inputCatch {n : Nat} (hs : Canon cmds s) : Canon cmds (inputCatch n s) :=
  .foldl (fun h => .ite h (.readCatch h)) hs

protected theorem readUntil {d : Nat} (hs : Canon cmds s) : Canon cmds (readUntil d s) := by
  unfold readUntil
  split
  exacts [.readCatch <| .passTo hs, hs]

protected theorem armAct {i : Item} (hs : Canon cmds s) : Canon cmds (armAct i s) := by
  unfold armAct
  split
  · exact .ite
        (.refuseArm hs)
        (.ite (.refuseArm <| .raiseEvt <| .bump hs) (.ite (.refuseArm <| .raiseEvt <| .bump hs) (.setDemod hs)))
  · exact hs

protected theorem armLate {i : Item} (hs : Canon cmds s) : Canon cmds (armLate i s) := by
  unfold armLate
  split
  exacts [.refuseArm hs, hs]

protected theorem windowArmDue {d : Nat} (hs : Canon cmds s) : Canon cmds (windowArmDue d s) := by
  unfold windowArmDue
  exact .deliver .armAct (fun h => .tagItem <| .raiseEvt h) .armLate hs

protected theorem setSliceAt {n p v : Nat} (hs : Canon cmds s) : Canon cmds (setSliceAt n p v s) :=
  .wr hs

protected theorem inputOverrange {n : Nat} (hs : Canon cmds s) : Canon cmds (inputOverrange n s) := by
  unfold inputOverrange
  exact .raiseFirst <| .bump <| .setRdi hs

protected theorem windowClose {d : Nat} {lead raw : List (BitVec 12)} (hs : Canon cmds s) :
    Canon cmds (windowClose d lead raw s) := by
  unfold windowClose
  extract_lets
  split
  · exact hs
  · extract_lets _ _ _ s2 s3
    have hs2 : Canon cmds s2 := .setDemod <| .passTo hs
    have hs3 : Canon cmds s3 := .ite (.raiseFirst hs2) hs2
    exact .ite hs (.sendResult <| .ite (.raiseFirst <| .bump hs3) hs3)

protected theorem dmResolve {dep : Nat} {ok : Bool} {d : Nat} (hs : Canon cmds s) :
    Canon cmds (dmResolve dep ok s d) := by
  unfold dmResolve
  exact .ite (.readCatch <| .setDemod hs) (.setDemod hs)

protected theorem dmReset {d : Nat} (hs : Canon cmds s) : Canon cmds (dmReset s d) := by
  unfold dmReset
  exact .foldl .refuse (.setDemod hs)

protected theorem resultArrives {d : Nat} (hs : Canon cmds s) : Canon cmds (resultArrives d s) := by
  unfold resultArrives
  exact .resultDue <| .ite (.readCatch hs) (.readUntil hs)

protected theorem noteFit {n k : Nat} (hs : Canon cmds s) : Canon cmds (noteFit n k s) := by
  unfold noteFit
  exact .setRdi hs

protected theorem trackSlice {n : Nat} {s0 : State} {p : Nat} (hs0 : Canon cmds s0) :
    Canon cmds (trackSlice n s0 p) := by
  unfold trackSlice
  exact .frame <| .ite (.wr <| .wr <| .noteFit hs0) (.wr <| .wr <| .wr <| .noteFit hs0)

protected theorem sliceFails {n unit : Nat} (hs : Canon cmds s) : Canon cmds (sliceFails n unit s) := by
  unfold sliceFails
  exact .ite
      (.setSpareState <| .raiseFault hs)
      (.ite (.pendSub <| .candidate_ <| .raiseFault hs) (.candidate_ <| .raiseFault hs))

protected theorem activeCheck {n pos resid : Nat} (hs : Canon cmds s) : Canon cmds (activeCheck n pos resid s) := by
  unfold activeCheck
  exact .ite (.sliceFails <| .addWear hs) hs

protected theorem shadowStep {n resid ofs gain skew pos act : Nat} (hs : Canon cmds s) :
    Canon cmds (shadowStep n resid ofs gain skew pos act s) := by
  unfold shadowStep
  extract_lets _ s1 _ _ s3 _ s4
  have hs1 : Canon cmds s1 := .activeCheck <| .foldl .trackSlice hs
  have hs3 : Canon cmds s3 := .hmSample <| .wr <| .wr <| .wr <| .wr <| .wr <| .noteFit hs1
  have hs4 : Canon cmds s4 := .setRdi <| .addWear hs3
  exact .ite hs (.ite hs1 (.ite (.ite hs4 (.sliceFails hs4)) (.setRdi hs3)))

protected theorem handoverAt {n : Nat} (hs : Canon cmds s) : Canon cmds (handoverAt n s) := by
  unfold handoverAt
  exact .ite (.raiseEvt <| .bump <| .setRdi <| .setSliceAt hs) hs

protected theorem inputQuiet {n below : Nat} (hs : Canon cmds s) : Canon cmds (inputQuiet n below s) := by
  unfold inputQuiet
  exact .raiseEvtIf <| .setRdi hs

protected theorem adcFaultAt {n : Nat} (hs : Canon cmds s) : Canon cmds (adcFaultAt n s) :=
  .raiseFault hs

/-! ## Requests -/

protected theorem askTbus {line : Nat} {a : BitVec 48} (hs : Canon cmds s) : Canon cmds (askTbus line a s) :=
  .ite hs (.frame hs)

protected theorem askStart {m : Nat} {a opening : BitVec 48} (hs : Canon cmds s) :
    Canon cmds (askStart m a opening s) :=
  .ite hs (.frame hs)

protected theorem sendTrigger {ports : List Nat} {id : Nat} {due : BitVec 48} (hs : Canon cmds s) :
    Canon cmds (sendTrigger ports id due s) :=
  .ite hs (.foldl .queueRt (.frame hs))

protected theorem waitFor {t : BitVec 48} {q : Nat} {p : Prov} (hs : Canon cmds s) : Canon cmds (waitFor t q p s) :=
  .frame hs

protected theorem sendTaskTrigger {q r id n : Nat} {due : BitVec 48} (hs : Canon cmds s) :
    Canon cmds (sendTaskTrigger q r id n due s) := by
  unfold sendTaskTrigger
  exact .ite (.waitFor hs) (.queueRt hs)

protected theorem doKept {q : Nat} {p : Prov} (hs : Canon cmds s) : Canon cmds (doKept q p s) := by
  unfold doKept
  split
  · exact .fireLine hs
  · exact .sendItem hs
  · exact .setGroup hs
  · exact .askStart hs
  · exact .ite (.waitFor hs) (.sendTrigger hs)
  · exact .sendTaskTrigger hs
  · exact .raiseEvt hs
  · exact .raiseEvt hs
  · exact .ite (.raiseEvt hs) (.raiseEvt hs)

protected theorem doAt {t : BitVec 48} {q : Nat} {p : Prov} (hs : Canon cmds s) : Canon cmds (doAt t q p s) :=
  .ite (.waitFor hs) (.doKept hs)

protected theorem laterCatch (hs : Canon cmds s) : Canon cmds (laterCatch s) := by
  unfold laterCatch
  exact .foldl .doKept (.frame hs)

/-! ## Sequencer -/

protected theorem passWord {x : Seq} {t : BitVec 48} (hs : Canon cmds s) : Canon cmds (passWord x t s) :=
  .ite (.passTo hs) (.withinLead hs)

protected theorem passNext {x : Seq} {t : BitVec 48} (hs : Canon cmds s) : Canon cmds (passNext x t s) :=
  .ite (.passTo hs) (.withinLead hs)

protected theorem doOrKeep {q : Nat} {p : Prov} (hs : Canon cmds s) : Canon cmds (doOrKeep q p s) := by
  unfold doOrKeep
  extract_lets
  split
  exacts [.doAt hs, .setSeq hs]

protected theorem stackFaultNow {q : Nat} (hs : Canon cmds s) : Canon cmds (stackFaultNow q s) := by
  unfold stackFaultNow
  exact .silenceSeq <| .tagSeq <| .raiseFault <| .setSeq hs

protected theorem stackFault {q : Nat} (hs : Canon cmds s) : Canon cmds (stackFault q s) := by
  unfold stackFault
  exact .ite (.stackFaultNow hs) (.setSeq hs)

protected theorem endPart {q : Nat} {e : BitVec 48} (hs : Canon cmds s) : Canon cmds (endPart q e s) := by
  unfold endPart
  exact .ite (.foldl .fluxEndPark (.raiseEvtIf <| .setSeq hs)) (.raiseEvtIf <| .setSeq hs)

protected theorem takeLatch {q : Nat} (hs : Canon cmds s) : Canon cmds (takeLatch q s) := by
  unfold takeLatch
  exact .ite (.wr <| .setSeq hs) hs

protected theorem machineCheck {q w k : Nat} (hs : Canon cmds s) : Canon cmds (machineCheck q w k s) := by
  unfold machineCheck
  exact .addWear <| .addWear <| .logEvent <| .silenceSeq <| .tagSeq <| .raiseFault <| .wrAll <| .setSeq hs

protected theorem startEntry {q e : Nat} {t : BitVec 48} (hs : Canon cmds s) : Canon cmds (startEntry q e t s) := by
  unfold startEntry
  split
  exacts [.machineCheck hs, .ite (.endPart <| .raiseEvt <| .setSeq hs) (.setSeq hs)]

protected theorem fixSuccessor {q : Nat} (hs : Canon cmds s) : Canon cmds (fixSuccessor q s) := by
  unfold fixSuccessor
  extract_lets
  split
  exacts [.setSeq hs, .setSeq hs, .ite (.setSeq hs) (.ite (.setSeq hs) (.setSeq hs))]

protected theorem settleSuccessor {q : Nat} (hs : Canon cmds s) : Canon cmds (settleSuccessor q s) :=
  .ite (.fixSuccessor hs) hs

protected theorem startSuccessor {q : Nat} (hs : Canon cmds s) : Canon cmds (startSuccessor q s) := by
  unfold startSuccessor
  extract_lets
  split
  · refine .ite ?_ hs
    split
    exacts [.setSeq hs, .atTick .startEntry (.setSeq hs), .atTick (fun h => .startEntry <| .bump h) (.setSeq hs)]
  · exact hs

protected theorem endFixed {q : Nat} (hs : Canon cmds s) : Canon cmds (endFixed q s) := by
  unfold endFixed
  split
  exacts [.ite (.atTick .endPart hs) hs, hs]

protected theorem seqTick {q : Nat} (hs : Canon cmds s) : Canon cmds (seqTick q s) := by
  unfold seqTick
  exact .ite
      (.atTick .stackFaultNow (.laterCatch hs))
      (.takeLatch <| .endFixed <| .startSuccessor <| .settleSuccessor <| .laterCatch hs)

protected theorem part {q code : Nat} {cond : Uword → Bool} {f : Seq → Uword → State → State} {s0 : State}
    (hf : ∀ {x1 x2 t}, Canon cmds t → Canon cmds (f x1 x2 t)) (hs0 : Canon cmds s0) :
    Canon cmds (part q code cond f s0) := by
  unfold part
  exact .ite (hf <| .setSeq <| .passWord <| .seqTick hs0) (.seqTick hs0)

protected theorem fetchWord {q w : Nat} {t : BitVec 48} (hs : Canon cmds s) : Canon cmds (fetchWord q w t s) := by
  unfold fetchWord
  split
  exacts [.machineCheck hs, .takeLatch <| .setSeq hs]

protected theorem moveOn {q : Nat} {s0 : State} (hs0 : Canon cmds s0) : Canon cmds (moveOn q s0) := by
  unfold moveOn
  extract_lets s
  have hs : Canon cmds s := .seqTick hs0
  split
  · extract_lets
    split
    · exact .fetchWord <| .ite (.doOrKeep <| .passNext hs) (.passNext hs)
    · exact .ite (.endPart <| .ite (.doOrKeep <| .passNext hs) (.passNext hs)) hs
  · exact hs

protected theorem loopPush {q : Nat} (hs : Canon cmds s) : Canon cmds (loopPush q s) :=
  .part (fun h => .ite (.stackFault h) (.ite (.doOrKeep <| .setSeq h) (.setSeq h))) hs

protected theorem loopBreak {q : Nat} (hs : Canon cmds s) : Canon cmds (loopBreak q s) :=
  .part (fun h => by split; exacts [.stackFault h, .setSeq h]) hs

protected theorem nextWord {q code : Nat} {f : Seq → Uword → State → State}
    (hf : ∀ {x1 x2 t}, Canon cmds t → Canon cmds (f x1 x2 t)) (hs : Canon cmds s) :
    Canon cmds (nextWord q code f s) :=
  .part (fun h => .ite (hf h) h) (.ite (.loopBreak <| .loopPush hs) hs)

protected theorem setSucc {q : Nat} {sc : Succ} (hs : Canon cmds s) : Canon cmds (setSucc q sc s) :=
  .setSeq hs

protected theorem wordSeq {q : Nat} (hs : Canon cmds s) : Canon cmds (wordSeq q s) :=
  .nextWord .setSucc hs

protected theorem wordJump {q : Nat} (hs : Canon cmds s) : Canon cmds (wordJump q s) :=
  .nextWord .setSucc hs

protected theorem wordCall {q : Nat} (hs : Canon cmds s) : Canon cmds (wordCall q s) :=
  .nextWord (fun h => .ite (.stackFault h) (.setSucc <| .setSeq h)) hs

protected theorem wordRet {q : Nat} (hs : Canon cmds s) : Canon cmds (wordRet q s) :=
  .nextWord (fun h => by split; exacts [.stackFault h, .setSucc <| .setSeq h]) hs

protected theorem wordLoop {q : Nat} (hs : Canon cmds s) : Canon cmds (wordLoop q s) :=
  .nextWord (fun h => by split; exacts [.stackFault h, .ite (.setSucc <| .setSeq h) (.setSucc <| .setSeq h)]) hs

protected theorem wordEnd {q : Nat} (hs : Canon cmds s) : Canon cmds (wordEnd q s) :=
  .nextWord .setSucc hs

protected theorem putSweep {q : Nat} {e : Nat × Int × Nat} (hs : Canon cmds s) : Canon cmds (putSweep q s e) :=
  .ite (.setTone hs) (.setFlux hs)

protected theorem sweepReload {q : Nat} (hs : Canon cmds s) : Canon cmds (sweepReload q s) :=
  .part (fun h => .foldl .putSweep h) hs

protected theorem sweepStep {q : Nat} (hs : Canon cmds s) : Canon cmds (sweepStep q s) :=
  .part (fun h => .foldl (fun h => .ite (.putSweep h) (.doOrKeep <| .putSweep h)) (.setSeq h)) (.sweepReload hs)

protected theorem takeBranch {q pc : Nat} {toTarget : Bool} {u : Uword} (hs : Canon cmds s) :
    Canon cmds (takeBranch q pc toTarget u s) := by
  unfold takeBranch
  exact .setSeq hs

protected theorem wordBr {q : Nat} {s0 : State} (hs0 : Canon cmds s0) : Canon cmds (wordBr q s0) := by
  unfold wordBr
  extract_lets s _ _ s1
  have hs : Canon cmds s := .seqTick hs0
  have hs1 : Canon cmds s1 := .sweepStep <| .loopBreak <| .loopPush <| .passWord hs
  exact .ite (.ite hs1 (by split; exacts [.ite (.setSeq <| .takeBranch hs1) (.setSeq hs1), .setSeq hs1])) hs

protected theorem decideBr {q : Nat} {u : Uword} {d : BitVec 48} {s0 : State} (hs0 : Canon cmds s0) :
    Canon cmds (decideBr q u d s0).2 := by
  unfold decideBr
  extract_lets
  split
  · exact .bcastCatch hs0
  · exact .bump <| .bcastCatch hs0
  · exact .tagSeq <| .raiseEvt <| .bump <| .bcastCatch hs0
  · exact .tagSeq <| .raiseEvt <| .bump <| .bcastCatch hs0

protected theorem applyKept {q : Nat} {ps : List (BitVec 48 × Prov)} (hs : Canon cmds s) :
    Canon cmds (applyKept q ps s) :=
  .foldl .doAt hs

protected theorem sendResolution {q : Nat} {a : Ahead} {ok : Bool} (hs : Canon cmds s) :
    Canon cmds (sendResolution q a ok s) := by
  unfold sendResolution
  exact .ite (.addJob <| .ite (.setSeq hs) hs) (.ite (.setSeq hs) hs)

protected theorem cancelPath {q : Nat} {a : Ahead} {toT : Bool} {u : Uword} (hs : Canon cmds s) :
    Canon cmds (cancelPath q a toT u s) := by
  unfold cancelPath
  exact .takeBranch <| .bump <| .foldl .putSweep (.setSeq hs)

protected theorem branchResolve {q : Nat} {s0 : State} (hs0 : Canon cmds s0) : Canon cmds (branchResolve q s0) := by
  unfold branchResolve
  extract_lets s
  have hs : Canon cmds s := .seqTick hs0
  split
  · exact hs
  · split
    · extract_lets
      split
      · extract_lets _ s2 _ _ s4
        have hs2 : Canon cmds s2 := .sendResolution <| .of_pair ‹_› <| .decideBr <| .passTo hs
        have hs4 : Canon cmds s4 := .seqTick <| .applyKept <| .setSeq hs2
        exact .ite (.ite (.wordBr <| .setSeq hs4) hs4) (.cancelPath <| .foldl .sendResolution hs2)
    · exact .ite (by split; exacts [by split; exact .takeBranch <| .of_pair ‹_› <| .decideBr <| .passTo hs, hs]) hs

protected theorem voidSent {i : Item} (hs : Canon cmds s) : Canon cmds (voidSent i s) := by
  unfold voidSent
  split
  exacts [by extract_lets; split; exacts [.tagShot <| .wr <| .wr <| .bump hs, .wr <| .wr <| .bump hs], hs]

protected theorem commitGate {q : Nat} {s0 : State} (hs0 : Canon cmds s0) : Canon cmds (commitGate q s0) := by
  unfold commitGate
  extract_lets
  split
  · exact hs0
  · extract_lets _ _ s1 _ _ s3 s4
    have hs1 : Canon cmds s1 := .setSeq <| .passTo hs0
    have hs3 : Canon cmds s3 := .frame <| .ite hs1 (.foldl .voidSent hs1)
    have hs4 : Canon cmds s4 :=
      .ite (.outResolve hs3) (.ite (.foldl .dmResolve (.outResolve hs3)) (.ite (.foldl .fluxResolve hs3) hs3))
    exact .ite (.ladleResolve <| .ladleCatch hs4) hs4

protected theorem waitExpiry {q : Nat} (hs : Canon cmds s) : Canon cmds (waitExpiry q s) := by
  unfold waitExpiry
  split
  exacts [hs, .moveOn hs]

protected theorem resolveBefore {q : Nat} (hs : Canon cmds s) : Canon cmds (resolveBefore q s) := by
  unfold resolveBefore
  exact .ite (.ite hs (.branchResolve hs)) (.branchResolve <| .ite hs (.branchResolve hs))

protected theorem waitMet {q : Nat} {d : BitVec 48} (hs : Canon cmds s) : Canon cmds (waitMet q d s) := by
  unfold waitMet
  exact .moveOn <| .ite (.wordBr <| .setSeq <| .setSeq hs) (.setSeq hs)

protected theorem timedOut {q : Nat} {t : BitVec 48} (hs : Canon cmds s) : Canon cmds (timedOut q t s) :=
  .waitMet <| .tagSeq <| .raiseEvt <| .passTo hs

protected theorem metWait {q : Nat} {d : BitVec 48} (hs : Canon cmds s) : Canon cmds (metWait q d s) := by
  unfold metWait
  split
  exacts [.ite (.timedOut hs) (.waitMet hs), .waitMet hs]

protected theorem atWait {q : Nat} {ok : Seq → Uword → Bool} {first : Seq → BitVec 48}
    {f : Seq → Uword → State → State} {s0 : State} (hf : ∀ {x1 x2 t}, Canon cmds t → Canon cmds (f x1 x2 t))
    (hs0 : Canon cmds s0) :
    Canon cmds (atWait q ok first f s0) := by
  unfold atWait
  extract_lets s _ s1
  have hs : Canon cmds s := .seqTick hs0
  have hs1 : Canon cmds s1 := .seqTick <| .resolveBefore <| .passTo hs
  split
  exacts [hs, .ite (.ite (hf <| .ite (.bcastCatch hs1) hs1) hs1) hs]

protected theorem endWait {q : Nat} {x : Seq} {u : Uword} (hs : Canon cmds s) : Canon cmds (endWait q x u s) := by
  unfold endWait
  split
  exacts [.metWait hs, hs]

protected theorem decisionWaitEnd {q : Nat} (hs : Canon cmds s) : Canon cmds (decisionWaitEnd q s) :=
  .atWait .endWait hs

protected theorem eventWaitEnd {q : Nat} (hs : Canon cmds s) : Canon cmds (eventWaitEnd q s) :=
  .atWait .endWait hs

protected theorem markWaitEnd {q : Nat} (hs : Canon cmds s) : Canon cmds (markWaitEnd q s) :=
  .atWait .endWait hs

protected theorem waitTimeout {q : Nat} (hs : Canon cmds s) : Canon cmds (waitTimeout q s) :=
  .atWait (fun h => by split; exacts [.metWait h, .timedOut h]) hs

protected theorem sendWord {q : Nat} {x : Seq} {n : Nat} {load : Payload} (hs : Canon cmds s) :
    Canon cmds (sendWord q x n load s) := by
  unfold sendWord
  exact .acceptPort <| .sendItem hs

protected theorem drivePulse {q p : Nat} (hs : Canon cmds s) : Canon cmds (drivePulse q p s) :=
  .part .sendWord (.sweepReload hs)

protected theorem phaseOp {q p code : Nat} (hs : Canon cmds s) : Canon cmds (phaseOp q p code s) :=
  .ite (.part .sendWord (.sweepReload hs)) (.part .sendWord (.sweepReload hs))

protected theorem fluxOp {g p code : Nat} (hs : Canon cmds s) : Canon cmds (fluxOp g p code s) := by
  unfold fluxOp
  exact .part .sendWord (.sweepReload hs)

protected theorem evtFire {q : Nat} (hs : Canon cmds s) : Canon cmds (evtFire q s) :=
  .part (fun h => .foldl .doOrKeep h) hs

protected theorem markEn {m : Nat} (hs : Canon cmds s) : Canon cmds (markEn m s) := by
  unfold markEn
  exact .part .doOrKeep hs

protected theorem calwin {m : Nat} (hs : Canon cmds s) : Canon cmds (calwin m s) :=
  .part .doOrKeep hs

protected theorem tbusStart {m : Nat} (hs : Canon cmds s) : Canon cmds (tbusStart m s) :=
  .part .doOrKeep hs

protected theorem ringTrig {m : Nat} (hs : Canon cmds s) : Canon cmds (ringTrig m s) :=
  .part .doOrKeep hs

protected theorem probePulse {n : Nat} (hs : Canon cmds s) : Canon cmds (probePulse n s) := by
  unfold probePulse
  exact .part (fun h => .foldl .sendWord h) (.sweepReload hs)

protected theorem windowArm {n : Nat} (hs : Canon cmds s) : Canon cmds (windowArm n s) := by
  unfold windowArm
  exact .part (fun h => .foldl (fun h => .sendWord <| .sendWord h) h) hs

protected theorem markDue {g : Nat} (hs : Canon cmds s) : Canon cmds (markDue g s) := by
  unfold markDue
  exact .deliver
      (fun h => by split; exacts [.foldl (fun h => .ite (.setSeq h) h) h, h])
      (fun h => .tagItem <| .raiseEvt h)
      (fun h => by split; exacts [.foldl (fun h => .ite (.setSeq h) h) h, h])
      hs

protected theorem issuePlay {q : Nat} (hs : Canon cmds s) : Canon cmds (issuePlay q s) := by
  unfold issuePlay
  exact .foldl .fireLine (.foldl (fun h => .ite h (.ite (.sendWord h) (.sendWord h))) (.setSeq <| .passTo hs))

protected theorem toNextPlay {q : Nat} {s0 : State} (hs0 : Canon cmds s0) : Canon cmds (toNextPlay q s0) := by
  unfold toNextPlay
  extract_lets s s1
  have hs : Canon cmds s := .seqTick hs0
  have hs1 : Canon cmds s1 := .ite (.seqTick <| .passTo hs) hs
  split
  exacts [.ite (.seqTick <| .passTo hs1) hs1, hs1]

protected theorem segmentPlay {q : Nat} {s0 : State} (hs0 : Canon cmds s0) : Canon cmds (segmentPlay q s0) := by
  unfold segmentPlay
  exact .ite (.ite (.toNextPlay hs0) (.seqTick hs0)) (.issuePlay <| .ite (.toNextPlay hs0) (.seqTick hs0))

protected theorem segmentDecide {q : Nat} {s0 : State} (hs0 : Canon cmds s0) : Canon cmds (segmentDecide q s0) := by
  unfold segmentDecide
  exact .ite (.toNextPlay hs0) (.seqTick <| .setSeq <| .passTo <| .toNextPlay hs0)

protected theorem decidePast {q : Nat} : ∀ {n : Nat} {s : State}, Canon cmds s → Canon cmds (decidePast n q s)
  | 0, _, hs => hs
  | _ + 1, _, hs =>
    .ite (Canon.decidePast <| .fixSuccessor <| .ite (.seqTick hs) (.issuePlay <| .seqTick hs)) (.seqTick hs)

protected theorem overdue {q : Nat} (hs : Canon cmds s) : Canon cmds (overdue q s) :=
  .decidePast hs

protected theorem segRequest {q : Nat} {r : SegReq} {s0 : State} (hs0 : Canon cmds s0) :
    Canon cmds (segRequest q r s0) :=
  .ite hs0 (.ite (.raiseEvt <| .bump <| .setSeq <| .overdue hs0) (.setSeq <| .overdue hs0))

protected theorem softRequest {q : Nat} {r : SegReq} (hs : Canon cmds s) : Canon cmds (softRequest q r s) :=
  .ite hs (.setSeq <| .segRequest hs)

protected theorem upToDate {q : Nat} {s0 : State} (hs0 : Canon cmds s0) : Canon cmds (upToDate q s0) := by
  unfold upToDate
  exact .ite
      (.ite (.waitTimeout <| .seqTick <| .resolveBefore <| .seqTick hs0) (.seqTick <| .resolveBefore <| .seqTick hs0))
      (.seqTick hs0)

protected theorem goActivate {q : Nat} {s0 : State} (hs0 : Canon cmds s0) : Canon cmds (goActivate q s0) :=
  .ite hs0
    (.ite
       (.raiseEvt <| .bump hs0)
       (.ite
          (.segRequest hs0)
          (.ite (.setSeq <| .upToDate hs0) (.ite (.bump <| .upToDate hs0) (.wr <| .setSeq <| .upToDate hs0)))))

protected theorem clearLatches {q : Nat} (hs : Canon cmds s) : Canon cmds (clearLatches s q) :=
  .wr <| .setSeq hs

protected theorem openSeq {t : BitVec 48} {q : Nat} (hs : Canon cmds s) : Canon cmds (openSeq t s q) := by
  unfold openSeq
  exact .ite (.startEntry <| .soundSeq <| .setSeq hs) (.fetchWord <| .soundSeq <| .setSeq hs)

/-! ## Copies -/

protected theorem setLoadStat {b st : Nat} (hs : Canon cmds s) : Canon cmds (setLoadStat b st s) := by
  unfold setLoadStat
  exact .wr hs

protected theorem noteUnit {b : Nat} (hs : Canon cmds s) : Canon cmds (noteUnit b s) := by
  unfold noteUnit
  exact .ite hs (.wr hs)

protected theorem loadFail {b : Nat} (hs : Canon cmds s) : Canon cmds (loadFail b s) := by
  unfold loadFail
  exact .ite (.raiseFault hs) (.raiseEvt hs)

protected theorem loadDone {b : Nat} (hs : Canon cmds s) : Canon cmds (loadDone b s) :=
  .raiseEvt hs

protected theorem setStaging {p : Nat} {x : Staging} (hx : bytesOk x.data) (hs : Canon cmds s) :
    Canon cmds (setStaging p x s) :=
  { hs with
    staging := fun _ he => (mem_of_mem_mapSet he).elim (hs.staging _) (fun h => h ▸ hx) }

protected theorem unbind {p : Nat} (hs : Canon cmds s) : Canon cmds (unbind p s) :=
  .setStaging rfl hs

protected theorem storeGood {q : Nat} (hs : Canon cmds s) : Canon cmds (storeGood q s) := by
  unfold storeGood
  exact .ite (.setSeq <| .frame hs) (.frame hs)

protected theorem catchStore {b : Nat} (hs : Canon cmds s) : Canon cmds (catchStore b s) := by
  unfold catchStore
  split
  exacts [.outCatch hs, .outCatch hs, .fluxCatch hs, hs]

/-- An accepted image is copied into its store: the image is a canonical table itself. -/
protected theorem copyImage {e : Accepted} (he : bytesOk e.data) (hs : Canon cmds s) : Canon cmds (copyImage s e) := by
  unfold copyImage
  extract_lets b _ s0 s1 s2
  have hs0 : Canon cmds s0 := .catchStore hs
  have hs1 : Canon cmds s1 :=
    { hs0 with
      stores := bytesOk_mapSplice _ _ he hs0.stores
      accepted := fun x hx => hs0.accepted x (List.mem_of_mem_filter hx) }
  have hs2 : Canon cmds s2 := .wrAll <| .setLoadStat hs1
  exact .loadDone <| .ite (.unbind hs2) hs2

/-- Some of the accepted images are copied. -/
theorem copyImages {p : Accepted → Bool} (hs : Canon cmds s) : Canon cmds ((s.accepted.filter p).foldl copyImage s) :=
  .foldl_mem (fun e he => .copyImage (hs.accepted e (List.mem_of_mem_filter he))) hs

/-! ## Pantry -/

protected theorem setPort {p : Nat} {x : Port} (hs : Canon cmds s) : Canon cmds (setPort s p x) :=
  .frame hs

protected theorem pantryPut {a : Nat} {v : Byte} (hs : Canon cmds s) : Canon cmds (pantryPut s a v) :=
  { hs with pantry := mapOk_mapSet _ _ (Nat.zero_le _) hs.pantry }

protected theorem pantryLost (hs : Canon cmds s) : Canon cmds (pantryLost s) :=
  { hs with pantry := rfl }

protected theorem pantryPutBytes {a : Nat} {bs : List Byte} (hs : Canon cmds s) :
    Canon cmds (pantryPutBytes s a bs) :=
  .foldl .pantryPut hs

protected theorem admitPort (hs : Canon cmds s) : Canon cmds (admitPort s) := by
  unfold admitPort
  exact .ite hs (.ite (.setPort hs) (.raiseEvt <| .setPort hs))

protected theorem releasePort (hs : Canon cmds s) : Canon cmds (releasePort s) := by
  unfold releasePort
  exact .ite hs (.ite (.setPort hs) (.setPort <| .frame hs))

protected theorem refillSample {out n i : Nat} (hs : Canon cmds s) : Canon cmds (refillSample out n s i) := by
  unfold refillSample
  split
  · exact hs
  · exact { hs with stores := bytesOk_putBytes _ _ hs.stores }

protected theorem countStarved {out n : Nat} (hs : Canon cmds s) : Canon cmds (countStarved out n s) := by
  unfold countStarved
  refine .ite (.setStream hs) ?_
  extract_lets
  split
  · exact .foldl .tagDue (.outEvt <| .outBump <| .setStream hs)
  · exact .outEvt <| .outBump <| .setStream hs

protected theorem refillUnderrun {out n : Nat} (hs : Canon cmds s) : Canon cmds (refillUnderrun out n s) :=
  .ite (.countStarved hs) hs

protected theorem refillData {out n k : Nat} {s0 : State} (hs0 : Canon cmds s0) :
    Canon cmds (refillData out n k s0) :=
  .ite hs0 (.setStream <| .frame <| .foldl .refillSample (.countStarved hs0))

protected theorem mapMaskWrite {k : Nat} {v : Word} (hs : Canon cmds s) : Canon cmds (mapMaskWrite k v s) :=
  .ite hs (.ite (.raiseEvt hs) (.wr hs))

protected theorem acceptRequest {port a n : Nat} {write : Option (List Byte)} {w : PWait} (hs : Canon cmds s) :
    Canon cmds (acceptRequest port a n write w s) := by
  unfold acceptRequest
  exact .ite (.pantryPutBytes <| .frame hs) (.frame hs)

protected theorem changePut {a : Nat} {bs : List Byte} (hs : Canon cmds s) : Canon cmds (changePut a bs s) := by
  unfold changePut
  dsimp only
  split
  exacts [.pantryPutBytes <| .frame hs, .pantryPutBytes <| .frame hs]

protected theorem putBefore {bs : List (Nat × Byte)} (hs : Canon cmds s) : Canon cmds (putBefore bs s) := by
  unfold putBefore
  exact .ite (.foldl .pantryPut hs) (.foldl .pantryPutBytes (.frame <| .foldl .pantryPut hs))

protected theorem pantryRequest {port a : Nat} {write : Option (List Byte)} (hs : Canon cmds s) :
    Canon cmds (pantryRequest port a write s) := by
  unfold pantryRequest
  exact .ite (.acceptRequest hs) hs

protected theorem updReq {id : Nat} {f : PReq → PReq} (hs : Canon cmds s) : Canon cmds (updReq id f s) :=
  .frame hs

protected theorem escalation {id : Nat} (hs : Canon cmds s) : Canon cmds (escalation id s) := by
  unfold escalation
  split
  exacts [hs, .ite hs (.ite (.bump <| .updReq <| .passTo hs) (.bump <| .updReq <| .passTo hs))]

protected theorem breachLast {q : PReq} (hs : Canon cmds s) : Canon cmds (breachLast q s) := by
  unfold breachLast
  exact .wrAll hs

protected theorem breach {q : PReq} (hs : Canon cmds s) : Canon cmds (breach q s) := by
  unfold breach
  exact .raiseFault <| .updReq <| .breachLast <| .setPort hs

protected theorem deadlineMiss {id : Nat} (hs : Canon cmds s) : Canon cmds (deadlineMiss id s) := by
  unfold deadlineMiss
  split
  exacts [hs, .ite hs (.breach <| .passTo hs)]

protected theorem markRow {ch a : Nat} (hs : Canon cmds s) : Canon cmds (markRow ch a s) := by
  unfold markRow
  exact .ite hs (.addWear <| .bump <| .frame hs)

protected theorem countCorrected {ch a corr : Nat} (hs : Canon cmds s) : Canon cmds (countCorrected ch a corr s) :=
  .ite hs (.ite (.markRow <| .bump <| .frame hs) (.bump <| .frame hs))

protected theorem countRetries {ch retries : Nat} (hs : Canon cmds s) : Canon cmds (countRetries ch retries s) := by
  unfold countRetries
  exact .ite (.bump <| .ite hs (.raiseEvt <| .bump hs)) (.ite hs (.raiseEvt <| .bump hs))

protected theorem arrive {q : PReq} {good : Bool} (hs : Canon cmds s) : Canon cmds (arrive q good s) :=
  .ite (.frame hs) hs

protected theorem pantryRequestDone {id corr retries : Nat} {uncorr_ : Bool} (hs : Canon cmds s) :
    Canon cmds (pantryRequestDone id corr retries uncorr_ s) := by
  unfold pantryRequestDone
  extract_lets
  split
  · exact hs
  · extract_lets _ _ _ s1 s2
    have hs1 : Canon cmds s1 :=
      .arrive <| .countRetries <| .countCorrected <| .frame <| .ite (.breach hs) (.ite (.breachLast hs) hs)
    have hs2 : Canon cmds s2 := .markRow <| .raiseFault <| .bump hs1
    refine .ite hs (.ite ?_ ?_)
    · split
      exacts [.frame hs1, hs1]
    · split
      exacts [.frame hs2, .frame hs2, .ite (.frame hs2) hs2]

protected theorem pwinPrefetch (hs : Canon cmds s) : Canon cmds (pwinPrefetch s) := by
  unfold pwinPrefetch
  exact .ite (.acceptRequest <| .frame hs) hs

protected theorem pwinAdvance (hs : Canon cmds s) : Canon cmds (pwinAdvance s) :=
  .ite (.ite (.pwinPrefetch <| .wr <| .wr hs) (.wr <| .wr hs)) hs

protected theorem pwinRefuse (hs : Canon cmds s) : Canon cmds (pwinRefuse s) :=
  .pwinAdvance <| .raiseBit hs

protected theorem pwinWrite {v : Word} (hs : Canon cmds s) : Canon cmds (pwinWrite v s) :=
  .ite (.pwinRefuse hs) (.pwinAdvance <| .acceptRequest hs)

protected theorem pwinReadDone (hs : Canon cmds s) : Canon cmds (pwinReadDone s) :=
  .ite (.pwinRefuse hs) (.pwinAdvance hs)

protected theorem pwinRead (hs : Canon cmds s) : Canon cmds (pwinRead s) :=
  .pwinReadDone <| .frame hs

protected theorem bankRefresh {ch : Nat} {postponed : Bool} (hs : Canon cmds s) :
    Canon cmds (bankRefresh ch postponed s) :=
  .ite hs (.ite (.bump hs) (.ite (.bump <| .wr hs) (.ite hs (.wr hs))))

protected theorem repairRow {ch row : Nat} (hs : Canon cmds s) : Canon cmds (repairRow ch s row) := by
  unfold repairRow
  exact .ite hs
      (.ite
         (.ite hs (.addWear <| .raiseFault hs))
         (.ite
            (.frame <| .finishSub <| .raiseEvt <| .wr <| .bump <| .wr <| .frame hs)
            (.finishSub <| .raiseEvt <| .wr <| .bump <| .wr <| .frame hs)))

protected theorem toSlot {ch : Nat} (hs : Canon cmds s) : Canon cmds (toSlot ch s).2 := by
  unfold toSlot
  exact .ite_snd (by split; exact .passTo <| .of_pair ‹_› <| .freeDraw <| .passTo hs) (.passTo hs)

protected theorem retrainSlot {ch margin temp : Nat} {full : Bool} (hs : Canon cmds s) :
    Canon cmds (retrainSlot ch margin temp full s) := by
  unfold retrainSlot
  extract_lets
  split
  · exact hs
  · split
    · extract_lets _ _ _ _ _ s3 _ _ s4 s4'
      have hs3 : Canon cmds s3 :=
        .foldl .repairRow (.hmSample <| .hmSample <| .frame <| .wr <| .wr <| .of_pair ‹_› <| .toSlot hs)
      have hs4 : Canon cmds s4 := .frame <| .ite hs3 (.wr hs3)
      have hs4' : Canon cmds s4' := .frame <| .raiseEvt <| .bump hs3
      exact .ite (.ite (.addWear <| .raiseFault hs4) hs4) (.ite (.frame hs3) (.ite (.ite hs4' (.wr hs4')) (.frame hs3)))

/-! ## Starts -/

protected theorem startOverrun {m : Nat} (hs : Canon cmds s) : Canon cmds (startOverrun m s) :=
  .raiseEvt hs

protected theorem fixOpening {m src : Nat} {named : BitVec 48} (hs : Canon cmds s) :
    Canon cmds (fixOpening m src named s) := by
  unfold fixOpening
  exact .ite (.ite (.raiseEvt <| .setGroup hs) (.setGroup hs)) (.setGroup hs)

protected theorem startAt {m src : Nat} {named : BitVec 48} (hs : Canon cmds s) :
    Canon cmds (startAt m src named s) := by
  unfold startAt
  exact .ite hs (.ite (.startOverrun hs) (.ite (.raiseEvt hs) (.ite (.setGroup hs) (.fixOpening hs))))

protected theorem endBoundary {g : Nat} (hs : Canon cmds s) : Canon cmds (endBoundary g s) := by
  unfold endBoundary
  extract_lets
  split
  exacts [.setGroup hs, .ite (.startOverrun <| .setGroup hs) (.fixOpening <| .setGroup hs)]

protected theorem shotGo {m : Nat} (hs : Canon cmds s) : Canon cmds (shotGo m s) :=
  .startAt hs

protected theorem selfStart {m : Nat} (hs : Canon cmds s) : Canon cmds (selfStart m s) := by
  unfold selfStart
  exact .ite hs (.ite (.startOverrun <| .setGroup hs) (.setGroup hs))

protected theorem triggerStart {id : Nat} {due : BitVec 48} (hs : Canon cmds s) :
    Canon cmds (triggerStart id due s) :=
  .foldl .startAt hs

/-! ## Calibration -/

protected theorem setCal {k : Nat} {x : CalReq} (hs : Canon cmds s) : Canon cmds (setCal k x s) :=
  .frame hs

protected theorem setStatus {k v : Nat} (hs : Canon cmds s) : Canon cmds (setStatus k v s) :=
  .wr hs

protected theorem setMode {m k : Nat} (hs : Canon cmds s) : Canon cmds (setMode m k s) :=
  .wr <| .wr hs

protected theorem endRequest {k st : Nat} (hs : Canon cmds s) : Canon cmds (endRequest k st s) :=
  .raiseEvt <| .setStatus hs

protected theorem concludeDone {k : Nat} {r0 r1 : Word} {qual : Nat} (hs : Canon cmds s) :
    Canon cmds (concludeDone k r0 r1 qual s) := by
  unfold concludeDone
  extract_lets _ s2 _ s3 _ s4
  have hs2 : Canon cmds s2 := .wr <| .wrAll <| .wrAll hs
  have hs3 : Canon cmds s3 := .endRequest <| .setCal hs2
  have hs4 : Canon cmds s4 := .ite (.setCal <| .wr hs3) hs3
  exact .ite (.endRequest hs2) (.ite (.frame hs4) hs4)

protected theorem convTestFailed {k : Nat} (hs : Canon cmds s) : Canon cmds (convTestFailed k s) :=
  .ite hs (by extract_lets; split; exacts [.dacFaultAt hs, .dacFaultAt hs, .dacFaultAt hs, .adcFaultAt hs])

protected theorem attemptFailed {k st : Nat} (hs : Canon cmds s) : Canon cmds (attemptFailed k st s) := by
  unfold attemptFailed
  exact .ite (.endRequest <| .wr <| .setCal hs) (.ite (.endRequest <| .wr <| .setCal hs) (.wr <| .setCal hs))

protected theorem attemptDone {k : Nat} {r0 r1 : Word} {qual : Nat} (hs : Canon cmds s) :
    Canon cmds (attemptDone k r0 r1 qual s) := by
  unfold attemptDone
  extract_lets s0 _ s2 _ _ s1' _ s2'
  have hs0 : Canon cmds s0 := .hmSample <| .bump hs
  have hs2 : Canon cmds s2 := .attemptFailed <| .ite (.wr <| .wrAll <| .wrAll hs0) hs0
  have hs1' : Canon cmds s1' := .frame hs0
  have hs2' : Canon cmds s2' := .wr <| .setCal hs1'
  exact .ite
      (.ite (.convTestFailed hs2) hs2)
      (.ite
         (.concludeDone <| .setCal hs0)
         (.ite (.attemptFailed hs1') (.ite (.concludeDone hs2') (.ite (.endRequest hs2') hs2'))))

protected theorem adcCalSlice {n k : Nat} (hs : Canon cmds s) : Canon cmds (adcCalSlice n s k) := by
  unfold adcCalSlice
  exact .frame <| .wr <| .wr <| .wr hs

protected theorem applyResult {k : Nat} (hs : Canon cmds s) : Canon cmds (applyResult s k) :=
  .ite hs
    (by
       extract_lets
       split
       · exact .wrAll <| .setCal hs
       · exact .wr <| .setCal hs
       · exact .frame <| .setCal hs
       · exact .foldl .adcCalSlice (.setCal hs)
       · exact .setCal hs)

protected theorem applyResults (hs : Canon cmds s) : Canon cmds (applyResults s) :=
  .foldl .applyResult hs

protected theorem startSegment {mode k : Nat} (hs : Canon cmds s) : Canon cmds (startSegment mode k s) := by
  unfold startSegment
  exact .setStatus <| .setMode <| .frame hs

protected theorem stopSegments (hs : Canon cmds s) : Canon cmds (stopSegments s) := by
  unfold stopSegments
  exact .setMode <| .frame hs

protected theorem copyReady (hs : Canon cmds s) : Canon cmds (copyReady s) :=
  hs.copyImages

protected theorem segmentEnds (hs : Canon cmds s) : Canon cmds (segmentEnds s) :=
  .copyReady <| .stopSegments hs

protected theorem startPass {k : Nat} (hs : Canon cmds s) : Canon cmds (startPass k s) := by
  unfold startPass
  exact .setStatus <| .setCal hs

protected theorem notePass {ch : Nat} (hs : Canon cmds s) : Canon cmds (notePass ch s) :=
  .foldl (fun h => .ite (.setCal h) h) hs

protected theorem trainSlot {ch margin temp : Nat} {full : Bool} (hs : Canon cmds s) :
    Canon cmds (trainSlot ch margin temp full s) :=
  .notePass <| .retrainSlot hs

protected theorem calKick (hs : Canon cmds s) : Canon cmds (calKick s) := by
  unfold calKick
  extract_lets _ s1
  have hs1 : Canon cmds s1 := .foldl (fun h => .ite (.ite (.startPass h) (.ite (.setStatus h) h)) h) hs
  exact .ite hs (.ite hs1 (by split; exacts [.startSegment hs1, hs1]))

protected theorem windowNext (hs : Canon cmds s) : Canon cmds (windowNext s) := by
  unfold windowNext
  split
  · exact hs
  · dsimp only
    have hend : Canon cmds { segmentEnds s with calWin := none } := .frame <| .segmentEnds hs
    split
    · exact .ite (.startSegment hs) (.endBoundary <| .applyResults hend)
    · exact .endBoundary <| .applyResults hend

protected theorem openWindow {g : Nat} (hs : Canon cmds s) : Canon cmds (openWindow g s) :=
  .windowNext <| .bump <| .frame hs

protected theorem afterSegment {mode k : Nat} (hs : Canon cmds s) : Canon cmds (afterSegment mode k s) := by
  unfold afterSegment
  extract_lets s1 s2
  have hs1 : Canon cmds s1 := .ite (.setStatus hs) hs
  have hs2 : Canon cmds s2 := .calKick <| .segmentEnds hs1
  exact .ite (.windowNext <| .segmentEnds hs1) (.ite hs2 (.applyResults hs2))

protected theorem calSegmentDone {m0 m1 : Word} {mq : Nat} (hs : Canon cmds s) :
    Canon cmds (calSegmentDone m0 m1 mq s) := by
  unfold calSegmentDone
  refine .ite hs ?_
  extract_lets _ _ _ s1 s2
  split
  extract_lets s3 s4
  have hs1 : Canon cmds s1 := .bump <| .setCal hs
  have hs2 : Canon cmds s2 := by unfold s2; split; exacts [.frame hs1, hs1]
  have hs3 : Canon cmds s3 := .ite (.attemptDone hs2) hs2
  exact .afterSegment <| .setCal <| .ite (.ite (.wr hs3) (.ite (.endRequest hs3) hs3)) hs3

protected theorem backgroundPassDone {k : Nat} {m0 m1 : Word} {mq : Nat} (hs : Canon cmds s) :
    Canon cmds (backgroundPassDone k m0 m1 mq s) :=
  .ite hs (by extract_lets; split; exact .calKick <| .setCal <| .ite (.wr <| .attemptDone hs) (.attemptDone hs))

protected theorem attemptTimeout {k : Nat} (hs : Canon cmds s) : Canon cmds (attemptTimeout k s) := by
  unfold attemptTimeout
  extract_lets _ _ s0 _ _ s1
  have hs0 : Canon cmds s0 := .attemptFailed <| .bump hs
  have hs1 : Canon cmds s1 := .setCal <| .ite (.endRequest hs0) hs0
  exact .ite hs (.ite (.calKick hs1) (.ite (.afterSegment hs1) hs1))

protected theorem place_ {k : Nat} {again : Bool} (hs : Canon cmds s) : Canon cmds (place_ k again s) := by
  unfold place_
  exact .ite (.calKick <| .setStatus hs) (.bump <| .raiseEvt <| .endRequest <| .calKick <| .setStatus hs)

protected theorem freshRequest {k : Nat} (hs : Canon cmds s) : Canon cmds (freshRequest k s) := by
  unfold freshRequest
  exact .wrAll <| .setCal <| .frame hs

protected theorem submit {k : Nat} (hs : Canon cmds s) : Canon cmds (submit k s) :=
  .ite hs
    (.ite
       (.setStatus <| .freshRequest hs)
       (.ite (.setStatus <| .freshRequest hs) (.ite (.setStatus <| .freshRequest hs) (.place_ <| .freshRequest hs))))

protected theorem leaveSlot {k : Nat} {before : State} (hs : Canon cmds s) : Canon cmds (leaveSlot k before s) :=
  .ite (.afterSegment hs) (.calKick hs)

protected theorem clearSlot {k : Nat} (hs : Canon cmds s) : Canon cmds (clearSlot k s) :=
  .leaveSlot <| .wrAll <| .setCal hs

protected theorem cancelSlot {k : Nat} (hs : Canon cmds s) : Canon cmds (cancelSlot k s) :=
  .ite (.calKick <| .endRequest hs) (.ite (.setCal hs) hs)

protected theorem dropRequest {st k : Nat} (hs : Canon cmds s) : Canon cmds (dropRequest st k s) :=
  .ite (.leaveSlot <| .endRequest hs) hs

protected theorem calShed (hs : Canon cmds s) : Canon cmds (calShed s) :=
  .foldl .dropRequest hs

protected theorem calResetSeq {q : Nat} (hs : Canon cmds s) : Canon cmds (calResetSeq q s) :=
  .foldl (fun h => .ite (.dropRequest h) h) hs

protected theorem calResetUnit {ty n : Nat} (hs : Canon cmds s) : Canon cmds (calResetUnit ty n s) :=
  .foldl (fun h => .ite (.dropRequest h) h) hs

protected theorem driftCheck {k : Nat} (hs : Canon cmds s) : Canon cmds (driftCheck s k) := by
  unfold driftCheck
  exact .ite (.place_ <| .raiseEvt <| .freshRequest hs) hs

protected theorem driftChecks (hs : Canon cmds s) : Canon cmds (driftChecks s) :=
  .ite (.foldl .driftCheck hs) hs

protected theorem referenceCheck {resid : Nat} (hs : Canon cmds s) : Canon cmds (referenceCheck resid s) :=
  .ite hs (.raiseFaultIf hs)

protected theorem traceRead (hs : Canon cmds s) : Canon cmds (traceRead s) :=
  .wr <| .frame hs

/-! ## Monitor -/

protected theorem setMon {x : Mon} (hs : Canon cmds s) : Canon cmds (setMon x s) :=
  .frame hs

protected theorem monCompare {tag lim code : Nat} (hs : Canon cmds s) : Canon cmds (monCompare tag lim code s).2 :=
  .ite_snd hs
    (.ite_snd (.fireLine <| .ite (.raiseEvt <| .setMon hs) (.wrAll <| .raiseEvt <| .setMon hs)) (.setMon hs))

protected theorem monStepList (hs : Canon cmds s) : Canon cmds (monStepList s) := by
  unfold monStepList
  exact .setMon hs

protected theorem refCheck {ch code : Nat} (hs : Canon cmds s) : Canon cmds (refCheck ch code s) :=
  .ite hs (.raiseFaultIf <| .setMon hs)

protected theorem conversion {raw : BitVec 18} (hs : Canon cmds s) : Canon cmds (conversion raw s) := by
  unfold conversion
  extract_lets
  split
  · exact hs
  · split
    · exact .monStepList <| .ite hs (.raiseEvt <| .setMon hs)
    · split
      · exact .hmSample <|
            .refCheck <|
              .monStepList <| .wrAll <| .ite (.wr <| .of_pair ‹_› <| .monCompare hs) (.of_pair ‹_› <| .monCompare hs)

protected theorem fluxReadback {o code : Nat} {s0 : State} (hs0 : Canon cmds s0) :
    Canon cmds (fluxReadback o code s0) := by
  unfold fluxReadback
  exact .ite (.setMon <| .fluxCatch hs0) (.ite (.dacFaultAt <| .setMon <| .fluxCatch hs0) (.setMon <| .fluxCatch hs0))

protected theorem housekeeping {raw : BitVec 18} (hs : Canon cmds s) : Canon cmds (housekeeping raw s) := by
  unfold housekeeping
  extract_lets _ _ _ _ _ _ s2 _ _ _ _ s2'
  have hs2 : Canon cmds s2 := .setMon <| .wrAll hs
  have hs2' : Canon cmds s2' := .setMon <| .wrAll hs
  split
  · exact hs
  · split
    · exact .ite (.setMon <| .hmSample <| .refCheck hs2) (.wr <| .setMon <| .hmSample <| .refCheck hs2)
    · exact .ite (.setMon <| .hmSample <| .fluxReadback hs2') (.wr <| .setMon <| .hmSample <| .fluxReadback hs2')

protected theorem urgActivate {k : Nat} {due : BitVec 48} (hs : Canon cmds s) : Canon cmds (urgActivate k due s) :=
  .ite (.raiseEvt <| .bump hs) (.ite (.raiseEvt hs) (.setMon hs))

protected theorem urgentConversion {k : Nat} {raw : BitVec 18} (hs : Canon cmds s) :
    Canon cmds (urgentConversion k raw s) := by
  unfold urgentConversion
  split
  · exact hs
  · refine .ite hs (.ite (.raiseEvt <| .setMon <| .passTo hs) ?_)
    extract_lets
    split
    · exact .hmSample <| .refCheck <| .wrAll <| .wrAll <| .of_pair ‹_› <| .monCompare <| .passTo <| .setMon <| .passTo hs

protected theorem setScal {v : Nat} (hs : Canon cmds s) : Canon cmds (setScal v s) :=
  .wr hs

protected theorem scalFail {v : Nat} (hs : Canon cmds s) : Canon cmds (scalFail v s) :=
  .raiseEvt <| .setScal hs

protected theorem scalZero (hs : Canon cmds s) : Canon cmds (scalZero s) :=
  .ite (.scalFail hs) (.setScal <| .setMon hs)

protected theorem scalFull (hs : Canon cmds s) : Canon cmds (scalFull s) :=
  .ite (.scalFail hs) (.ite (.scalFail hs) (.setScal <| .setMon hs))

protected theorem scalDone {mean : BitVec 18} (hs : Canon cmds s) : Canon cmds (scalDone mean s) := by
  unfold scalDone
  split
  · exact hs
  · exact .setScal <| .wr <| .setMon hs
  · exact .ite (.scalFail <| .setMon hs) (.raiseEvt <| .setScal <| .wrAll <| .wrAll <| .setMon hs)

/-! ## Lanes -/

protected theorem setRole {n r : Nat} (hs : Canon cmds s) : Canon cmds (setRole n r s) :=
  .wr hs

protected theorem setLaneBit {n i : Nat} {v : Bool} (hs : Canon cmds s) : Canon cmds (setLaneBit n i v s) :=
  .wr hs

protected theorem whenReceiving {f : State → State} (hf : ∀ {t}, Canon cmds t → Canon cmds (f t)) (hs : Canon cmds s) :
    Canon cmds (whenReceiving f s) :=
  .ite (hf hs) hs

protected theorem whenPowered {n : Nat} {f : State → State} (hf : ∀ {t}, Canon cmds t → Canon cmds (f t))
    (hs : Canon cmds s) :
    Canon cmds (whenPowered n f s) :=
  .ite (hf hs) hs

protected theorem bypassUpdate (hs : Canon cmds s) : Canon cmds (bypassUpdate s) := by
  unfold bypassUpdate
  exact .ite (.foldl .setRPort (.wr hs)) (.ite (.foldl .setRPort (.wr hs)) hs)

protected theorem ringRefresh {r : Nat} (hs : Canon cmds s) : Canon cmds (ringRefresh r s) := by
  unfold ringRefresh
  extract_lets _ _ _ s0 _ _ t
  have hs0 : Canon cmds s0 := .wr hs
  have ht : Canon cmds t := .wr <| .setRPort hs0
  exact .bypassUpdate <|
      .ite
        (.wr <| .setRPort hs0)
        (.ite
           (.ite (.raiseEvt ht) ht)
           (.ite (.raiseFault <| .wr <| .setRPort hs0) (.ite (.wr <| .setRPort hs0) (.wr <| .setRPort hs0))))

protected theorem graceExpiry {r : Nat} (hs : Canon cmds s) : Canon cmds (graceExpiry r s) := by
  unfold graceExpiry
  exact .ite hs (.bypassUpdate <| .raiseFaultIf <| .raiseFault <| .wr <| .setRPort hs)

protected theorem setFecFrom {h : Nat} {t : Option (BitVec 48)} (hs : Canon cmds s) : Canon cmds (setFecFrom h t s) :=
  .frame hs

protected theorem fecBegin {h : Nat} (hs : Canon cmds s) : Canon cmds (fecBegin h s) :=
  .ite (.setFecFrom hs) hs

protected theorem fecWrite {h : Nat} {v : Word} (hs : Canon cmds s) : Canon cmds (fecWrite h v s) :=
  .setFecFrom <| .wrAll <| .wrPair hs

protected theorem hostRefresh {h : Nat} (hs : Canon cmds s) : Canon cmds (hostRefresh h s) := by
  unfold hostRefresh
  exact .ite (.raiseEvt <| .fecBegin <| .wr <| .wr hs) (.ite (.raiseEvt <| .wr <| .wr hs) (.wr <| .wr hs))

protected theorem portRefresh {p : Nat} (hs : Canon cmds s) : Canon cmds (portRefresh p s) :=
  .ite (.ringRefresh hs) (.ite (.hostRefresh hs) hs)

protected theorem los {n : Nat} (hs : Canon cmds s) : Canon cmds (los n s) :=
  .whenPowered (fun h => .portRefresh <| .raiseEvt <| .foldl .setLaneBit h) hs

protected theorem signalReturn {n : Nat} (hs : Canon cmds s) : Canon cmds (signalReturn n s) :=
  .whenPowered .setLaneBit hs

protected theorem rxReady {n snr : Nat} (hs : Canon cmds s) : Canon cmds (rxReady n snr s) :=
  .ite hs (.setLaneBit <| .setLaneBit <| .wr hs)

protected theorem readyRefresh {n : Nat} (hs : Canon cmds s) : Canon cmds (readyRefresh n s) :=
  .setLaneBit hs

protected theorem restart {n : Nat} (hs : Canon cmds s) : Canon cmds (restart n s) :=
  .portRefresh <| .foldl .setLaneBit hs

protected theorem slipOne {n : Nat} (hs : Canon cmds s) : Canon cmds (slipOne n s) :=
  .portRefresh <| .setLaneBit <| .wr hs

protected theorem slip {n : Nat} (hs : Canon cmds s) : Canon cmds (slip n s) :=
  .ite (.raiseEvt hs) (.slipOne hs)

protected theorem autoAlignSlip {n : Nat} (hs : Canon cmds s) : Canon cmds (autoAlignSlip n s) :=
  .ite (.slipOne hs) hs

protected theorem lockAcquire {n : Nat} (hs : Canon cmds s) : Canon cmds (lockAcquire n s) :=
  .ite hs (.portRefresh <| .setLaneBit hs)

protected theorem lockLoss {n : Nat} (hs : Canon cmds s) : Canon cmds (lockLoss n s) :=
  .portRefresh <| .setLaneBit hs

protected theorem countSecond {n : Nat} {low : Bool} (hs : Canon cmds s) : Canon cmds (countSecond n low s) := by
  unfold countSecond
  exact .ite (.addWear <| .frame hs) (.frame hs)

protected theorem laneSnrUpdate {n snr : Nat} {eye : Word} (hs : Canon cmds s) :
    Canon cmds (laneSnrUpdate n snr eye s) :=
  .ite hs (.hmSample <| .countSecond <| .raiseEvtIf <| .setLaneBit <| .setReg <| .wr hs)

protected theorem prbsNow {n : Nat} (hs : Canon cmds s) : Canon cmds (prbsNow n s) :=
  .frame hs

protected theorem prbsClr {n : Nat} (hs : Canon cmds s) : Canon cmds (prbsClr n s) :=
  .prbsNow <| .foldl .wrAll (.wr hs)

protected theorem prbsLock {n : Nat} (hs : Canon cmds s) : Canon cmds (prbsLock n s) :=
  .ite (.prbsNow <| .setLaneBit hs) hs

protected theorem addBits {n bits : Nat} (hs : Canon cmds s) : Canon cmds (addBits n bits s) := by
  unfold addBits
  exact .ite (.wrPair hs) (.wrPair <| .frame hs)

protected theorem prbsErrWrite {n : Nat} {v : Word} (hs : Canon cmds s) : Canon cmds (prbsErrWrite n v s) :=
  .prbsNow <| .wrAll <| .addBits hs

protected theorem prbsSettle {n bits errs : Nat} (hs : Canon cmds s) : Canon cmds (prbsSettle n bits errs s) := by
  unfold prbsSettle
  exact .prbsNow <| .bump <| .addBits hs

protected theorem prbsStop {n : Nat} (hs : Canon cmds s) : Canon cmds (prbsStop n s) :=
  .ite (.setLaneBit <| .prbsSettle hs) hs

protected theorem prbsFollow {n : Nat} (hs : Canon cmds s) : Canon cmds (prbsFollow s n) :=
  .ite hs (.prbsStop hs)

protected theorem portPrbs {p : Nat} (hs : Canon cmds s) : Canon cmds (portPrbs p s) :=
  .foldl .prbsFollow hs

protected theorem laneChange {n : Nat} {f : State → State} (hf : ∀ {t}, Canon cmds t → Canon cmds (f t))
    (hs : Canon cmds s) :
    Canon cmds (laneChange n f s) := by
  unfold laneChange
  exact .ite (.prbsFollow <| hf <| .ite (.prbsSettle hs) hs) (.prbsStop <| hf <| .ite (.prbsSettle hs) hs)

protected theorem prbsUnlock {n bits errs : Nat} (hs : Canon cmds s) : Canon cmds (prbsUnlock n bits errs s) :=
  .ite hs (.raiseEvt <| .bump <| .setLaneBit <| .prbsSettle hs)

protected theorem setSwap {p : Nat} {x : Swap} (hs : Canon cmds s) : Canon cmds (setSwap p x s) :=
  .frame hs

protected theorem endSwap {p : Nat} (hs : Canon cmds s) : Canon cmds (endSwap p s) :=
  .frame hs

protected theorem sendLmsg {p code lane cause : Nat} (hs : Canon cmds s) :
    Canon cmds (sendLmsg p code lane cause s) := by
  unfold sendLmsg
  exact .ite (.frame hs) (.daxkaSend <| .frame hs)

protected theorem bridge {p k : Nat} {mine : Bool} (hs : Canon cmds s) : Canon cmds (bridge p k mine s) := by
  unfold bridge
  split
  exacts [hs, .portPrbs <| .setRole <| .setSwap hs]

protected theorem unbridge {p : Nat} (hs : Canon cmds s) : Canon cmds (unbridge p s) := by
  unfold unbridge
  exact .endSwap (by split; exacts [.portPrbs <| .setRole hs, hs])

protected theorem abortSwap {p k : Nat} (hs : Canon cmds s) : Canon cmds (abortSwap p k s) := by
  unfold abortSwap
  extract_lets
  split
  · exact .unbridge hs
  · exact .raiseEvt <| .bump <| .ite (.setSpareState <| .frame <| .unbridge hs) (.frame <| .unbridge hs)

protected theorem selfAlign {m : Nat} (hs : Canon cmds s) : Canon cmds (selfAlign m s) := by
  unfold selfAlign
  split
  exact .setLaneBit <| .wr <| .of_pair ‹_› <| .freeDraw hs

protected theorem takeOver {p k n m nRole : Nat} (hs : Canon cmds s) : Canon cmds (takeOver p k n m nRole s) := by
  unfold takeOver
  exact .portPrbs <|
      .portRefresh <|
        .ite
          (.wr <| .wr <| .setSpareState <| .bump <| .setRole <| .setRole <| .endSwap hs)
          (.finishSub <| .wr <| .wr <| .bump <| .setRole <| .setRole <| .endSwap hs)

protected theorem finishSwap {p : Nat} (hs : Canon cmds s) : Canon cmds (finishSwap p s) := by
  unfold finishSwap
  split
  exacts [hs, .ite hs (by split; exacts [.raiseEvt <| .takeOver hs, .endSwap hs])]

protected theorem swapStart {n : Nat} (hs : Canon cmds s) : Canon cmds (swapStart n s) := by
  unfold swapStart
  exact .ite hs
      (.ite
         (.ite (.abortSwap hs) (.ite (.sendLmsg <| .bridge hs) (.raiseFault <| .setSpareState hs)))
         (.ite (.ite (.sendLmsg <| .bridge hs) (.abortSwap hs)) hs))

protected theorem swapReq {p k : Nat} (hs : Canon cmds s) : Canon cmds (swapReq p k s) := by
  unfold swapReq
  split
  exacts [.ite hs (.ite (.sendLmsg hs) (.bridge <| .abortSwap hs)), .ite (.bridge hs) (.sendLmsg hs)]

protected theorem swapReady {p : Nat} (hs : Canon cmds s) : Canon cmds (swapReady p s) := by
  unfold swapReady
  split
  exacts [hs, .finishSwap <| .setSwap hs]

protected theorem swapSwitch {p : Nat} (hs : Canon cmds s) : Canon cmds (swapSwitch p s) := by
  unfold swapSwitch
  split
  exacts [hs, by split; exacts [hs, .ite hs (.finishSwap <| .sendLmsg <| .setSwap <| .selfAlign hs)]]

protected theorem swapAbort {p : Nat} (hs : Canon cmds s) : Canon cmds (swapAbort p s) := by
  unfold swapAbort
  split
  exacts [hs, .ite (.abortSwap hs) (.unbridge hs)]

protected theorem swapTimeout {p : Nat} {skew : Bool} (hs : Canon cmds s) : Canon cmds (swapTimeout p skew s) := by
  unfold swapTimeout
  split
  exacts [hs, .ite hs (.ite (.sendLmsg <| .abortSwap hs) (.unbridge hs))]

protected theorem abrupt {p k : Nat} {mine : Bool} (hs : Canon cmds s) : Canon cmds (abrupt p k mine s) := by
  unfold abrupt
  split
  exacts [.portPrbs <| .setRole <| .setRole <| .setSwap hs, hs]

protected theorem laneFail {n : Nat} (hs : Canon cmds s) : Canon cmds (laneFail n s) := by
  unfold laneFail
  extract_lets _ _ s1 s1' s2
  have hs1 : Canon cmds s1 := .raiseFault hs
  have hs1' : Canon cmds s1' := by unfold s1'; split; exacts [.ite hs1 (.unbridge hs1), hs1]
  have hs2 : Canon cmds s2 := .ite (.noteWear hs1') hs1'
  exact .ite hs (.ite (.setSpareState hs2) (.ite hs2 (.sendLmsg <| .abrupt hs2)))

protected theorem swapReqAbrupt {p k : Nat} (hs : Canon cmds s) : Canon cmds (swapReqAbrupt p k s) := by
  unfold swapReqAbrupt
  split
  exacts [.ite hs (.abrupt <| .unbridge hs), .abrupt hs]

protected theorem abruptSwitch {p : Nat} (hs : Canon cmds s) : Canon cmds (abruptSwitch p s) := by
  unfold abruptSwitch
  split
  exacts [.ite (.takeOver <| .selfAlign hs) hs, hs]

protected theorem hostEnterMode {h mode : Nat} (hs : Canon cmds s) : Canon cmds (hostEnterMode h mode s) := by
  unfold hostEnterMode
  exact .hostRefresh <|
      .foldl (fun h => .ite h (.prbsStop <| .setLaneBit h)) (.foldl (fun h => .foldl .setLaneBit h) (.wr hs))

protected theorem hostModeWrite {h mode : Nat} (hs : Canon cmds s) : Canon cmds (hostModeWrite h mode s) := by
  unfold hostModeWrite
  exact .hostEnterMode <| .wr hs

protected theorem linkFail {h : Nat} (hs : Canon cmds s) : Canon cmds (linkFail h s) :=
  .ite (.raiseFault hs) hs

protected theorem releaseWrite {on : Bool} (hs : Canon cmds s) : Canon cmds (releaseWrite on s) :=
  .bypassUpdate <| .wr hs

protected theorem standAsideWrite {on : Bool} (hs : Canon cmds s) : Canon cmds (standAsideWrite on s) :=
  .bypassUpdate <| .wr hs

/-! ## Mortar -/

protected theorem setMort {x : Mort} (hs : Canon cmds s) : Canon cmds (setMort x s) :=
  .frame hs

protected theorem setMortState {v : Nat} (hs : Canon cmds s) : Canon cmds (setMortState v s) :=
  .wr hs

protected theorem clearObs {o : Nat} (hs : Canon cmds s) : Canon cmds (clearObs s o) :=
  .wr hs

protected theorem mortarOpen {g : Nat} (hs : Canon cmds s) : Canon cmds (mortarOpen g s) := by
  unfold mortarOpen
  extract_lets _ _ s3
  have hs3 : Canon cmds s3 := .ladleCatch <| .wr <| .wr <| .setMortState <| .setMort hs
  exact .ite hs
      (.ite
         (.tagShot <| .raiseEvt <| .setMortState hs)
         (.ite hs3 (.evalNext <| .foldl .setObsPend (.foldl .clearObs hs3))))

protected theorem closeStream {g : Nat} (hs : Canon cmds s) : Canon cmds (closeStream g s) :=
  .ite hs
    (.ite
       (.setMort hs)
       (.fireLine <|
          .tagShot <|
            .raiseEvt <|
              .evalNext <|
                .foldl .setObsPend
                  (.ladleCatch <| .ite (.setMortState <| .frame <| .setMort hs) (.frame <| .setMort hs))))

protected theorem stray (hs : Canon cmds s) : Canon cmds (stray s) :=
  .raiseEvt <| .bump hs

protected theorem detectionInputDue {slot : Nat} (hs : Canon cmds s) : Canon cmds (detectionInputDue slot s) := by
  unfold detectionInputDue
  exact .deliver
      (fun h => .ite h (by extract_lets; split; exacts [.ite (.setMort h) (.stray h), .stray h]))
      (fun h => .tagItem <| .raiseEvt h)
      id
      hs

protected theorem missBlocks {s0 : State} {e : Nat × Nat} (hs0 : Canon cmds s0) : Canon cmds (missBlocks s0 e) := by
  unfold missBlocks
  split
  exact .ite hs0 (.foldl (fun h => .ite h (.tagShot <| .raiseEvt <| .bump <| .setMort h)) hs0)

protected theorem seamCatchTo {past : Nat} :
    ∀ {n : Nat} {s : State}, Canon cmds s → Canon cmds (seamCatchTo past n s)
  | 0, _, hs => hs
  | _ + 1, _, hs => .ite hs (Canon.seamCatchTo <| .foldl .missBlocks (.setMort hs))

protected theorem seamCatch (hs : Canon cmds s) : Canon cmds (seamCatch s) :=
  .seamCatchTo hs

protected theorem mortarClose {g : Nat} (hs : Canon cmds s) : Canon cmds (mortarClose g s) :=
  .closeStream <| .seamCatch hs

protected theorem formEvent {r : Nat} {e : Nat × Nat} (hs : Canon cmds s) : Canon cmds (formEvent r s e) := by
  unfold formEvent
  split
  extract_lets got _ s1
  have hs1 : Canon cmds s1 := .ite hs (.raiseEvt <| .bump hs)
  clear_value s1 got
  split
  · exact .tagShot <| .raiseEvt <| .bump hs1
  · exact .ite (.tagShot <| .raiseEvt <| .bump <| .bump hs1) (.setMort hs1)

protected theorem forwardRound {r l : Nat} (hs : Canon cmds s) : Canon cmds (forwardRound r s l) :=
  .ite hs (.foldl .queueRt hs)

protected theorem roundClose (hs : Canon cmds s) : Canon cmds (roundClose s) := by
  unfold roundClose
  exact .ite hs (.wr <| .setMort <| .foldl .forwardRound (.foldl .formEvent (.seamCatch <| .passTo hs)))

protected theorem decodeWindowComplete (hs : Canon cmds s) : Canon cmds (decodeWindowComplete s) := by
  unfold decodeWindowComplete
  exact .ite hs (.setMort <| .seamCatchTo <| .passTo hs)

protected theorem sendCorrections {x : BitVec 48} {es : List Nat} {l : Nat} (hs : Canon cmds s) :
    Canon cmds (sendCorrections x es s l) :=
  .ite hs (.foldl .queueRt hs)

protected theorem windowOutputIssue {_counted slack : Nat} {late : List (Nat × Nat)} (hs : Canon cmds s) :
    Canon cmds (windowOutputIssue _counted slack late s) := by
  unfold windowOutputIssue
  extract_lets
  split
  · exact hs
  · split
    · split
      · extract_lets _ _ s1 _ _ _ _ _ _ _ _ s6 _ s8
        have hs1 : Canon cmds s1 := .setMort <| .passTo hs
        have hs6 : Canon cmds s6 :=
          .foldl .bump (.bump <| .wr <| .wr <| .foldl .sendCorrections (.ite hs1 (.sendItem hs1)))
        have hs8 : Canon cmds s8 :=
          .hmSample <| .fireLine <| .ite (.fireLine <| .tagShot <| .raiseEvt <| .bump hs6) hs6
        exact .ite (.setMortState hs8) hs8

protected theorem seamEvents {l src round block : Nat} {stamp : BitVec 16} {bits : List Nat} {s0 : State}
    (hs0 : Canon cmds s0) :
    Canon cmds (seamEvents l src round block stamp bits s0) := by
  unfold seamEvents
  extract_lets s
  have hs : Canon cmds s := .seamCatch hs0
  exact .ite
      (.ite (.tagDue <| .raiseEvt hs) hs)
      (.ite (.stray hs) (.ite (.tagDue <| .raiseEvt hs) (.ite hs (.setMort hs))))

protected theorem seamCorrections {stamp : BitVec 16} {es : List (Nat × Bool × Bool)} (hs : Canon cmds s) :
    Canon cmds (seamCorrections stamp es s) := by
  unfold seamCorrections
  exact .sendItem hs

protected theorem lossAtMortar {l : Nat} (hs : Canon cmds s) : Canon cmds (lossAtMortar l s) :=
  .ite (.tagShot <| .raiseEvt hs) hs

protected theorem tileFault {t : Nat} (hs : Canon cmds s) : Canon cmds (tileFault t s) := by
  unfold tileFault
  exact .ite (.candidate_ <| .addWear <| .bump <| .raiseFault hs) (.addWear <| .bump <| .raiseFault hs)

protected theorem testDecode {t : Nat} {ok : Bool} (hs : Canon cmds s) : Canon cmds (testDecode t ok s) :=
  .ite hs (.tileFault hs)

protected theorem tileParity {t : Nat} (hs : Canon cmds s) : Canon cmds (tileParity t s) := by
  unfold tileParity
  exact .ite (.setMort <| .tileFault hs) (.tileFault hs)

protected theorem graphParity (hs : Canon cmds s) : Canon cmds (graphParity s) := by
  unfold graphParity
  exact .ite
      (.setMortState <| .raiseFault <| .frame hs)
      (.tagShot <| .sendItem <| .setMort <| .setMortState <| .raiseFault <| .frame hs)

/-! ## Time -/

protected theorem freeRound {x : Rat} (hs : Canon cmds s) : Canon cmds (freeRound x s).2 :=
  .ite_snd hs (by split; exact .of_pair ‹_› <| .freeDraw hs)

protected theorem freeField {x : Rat} (hs : Canon cmds s) : Canon cmds (freeField x s).2 := by
  unfold freeField
  split
  · refine .ite_snd (.of_pair ‹_› <| .freeRound hs) ?_
    split
    exact .of_pair ‹_› <| .freeDraw <| .of_pair ‹_› <| .freeRound hs

protected theorem setSlave {k : Nat} {x : Slave} (hs : Canon cmds s) : Canon cmds (setSlave k x s) :=
  .frame hs

protected theorem stepMt {d : Int} {s0 : State} (hs0 : Canon cmds s0) : Canon cmds (stepMt d s0) := by
  unfold stepMt
  exact .raiseEvt <| .foldl .setSlave (.frame <| .noteRate hs0)

protected theorem servoUpdate {th : Rat} (hs : Canon cmds s) : Canon cmds (servoUpdate th s) := by
  unfold servoUpdate
  split
  · extract_lets s1
    have hs1 : Canon cmds s1 := .wrAll <| .of_pair ‹_› <| .freeField <| .noteRate hs
    split
    · split
      exact .stepMt <| .of_pair ‹_› <| .freeRound hs1
    · split
      · extract_lets
        split
        · exact .raiseEvtIf <| .wrAll <| .frame <| .of_pair ‹_› <| .freeRound <| .of_pair ‹_› <| .freeRound hs1

protected theorem servoOfs {v : Word} (hs : Canon cmds s) : Canon cmds (servoOfs v s) :=
  .ite (.servoUpdate hs) hs

protected theorem servoRst (hs : Canon cmds s) : Canon cmds (servoRst s) := by
  unfold servoRst
  exact .wrAll <| .frame <| .noteRate hs

protected theorem mtStep (hs : Canon cmds s) : Canon cmds (mtStep s) :=
  .stepMt hs

protected theorem formTheta {k : Nat} (hs : Canon cmds s) : Canon cmds (formTheta k s) := by
  unfold formTheta
  extract_lets _ _ s1 s2
  have hs1 : Canon cmds s1 := .setSlave hs
  have hs2 : Canon cmds s2 := .ite (.bump <| .bump hs1) hs1
  split
  exacts [.ite hs2 (by split; exact .servoUpdate <| .wrAll <| .of_pair ‹_› <| .freeField hs2), hs]

protected theorem nextSeq {k : Nat} (hs : Canon cmds s) : Canon cmds (nextSeq k s).2 := by
  unfold nextSeq
  exact .frame hs

protected theorem rxqPush {h : Nat} {bytes : List Byte} (hs : Canon cmds s) : Canon cmds (rxqPush h bytes s) := by
  unfold rxqPush
  exact .ite (.raiseFault <| .raiseBit hs) (.raiseEvt <| .frame hs)

protected theorem ptpBytes {kind : Nat} {m : PtpMsg} {flags : Nat} (hs : Canon cmds s) :
    Canon cmds (ptpBytes kind m flags s).2 := by
  unfold ptpBytes
  split
  exact .of_pair ‹_› <| .freeDraw hs

protected theorem listenQueue {h kind flags : Nat} {m : PtpMsg} (hs : Canon cmds s) :
    Canon cmds (listenQueue h kind flags m s) :=
  .ite hs (by split; exact .rxqPush <| .of_pair ‹_› <| .ptpBytes hs)

protected theorem ptpSync {h : Nat} {m : PtpMsg} {twoStep : Bool} (hs : Canon cmds s) :
    Canon cmds (ptpSync h m twoStep s) :=
  .ite (.formTheta <| .setSlave hs) (.listenQueue hs)

protected theorem followUp {h : Nat} {m : PtpMsg} (hs : Canon cmds s) : Canon cmds (followUp h m s) := by
  unfold followUp
  exact .ite (.ite (.formTheta <| .setSlave hs) hs) (.listenQueue hs)

protected theorem sendPtp {h kind seq : Nat} {time : Option Int} {corr : Int} {peer : Option (BitVec 64 × BitVec 16)}
    {bytes : List Byte} (hs : Canon cmds s) :
    Canon cmds (sendPtp h kind seq time corr peer bytes s) :=
  .emit hs

protected theorem delayReq {h : Nat} {m : PtpMsg} (hs : Canon cmds s) : Canon cmds (delayReq h m s) :=
  .ite (.sendPtp hs) (.listenQueue hs)

protected theorem delayResp {h : Nat} {m : PtpMsg} (hs : Canon cmds s) : Canon cmds (delayResp h m s) := by
  unfold delayResp
  exact .ite (by split; exacts [.ite (.formTheta <| .setSlave hs) hs, hs]) (.listenQueue hs)

protected theorem pdelayReq {h : Nat} {m : PtpMsg} (hs : Canon cmds s) : Canon cmds (pdelayReq h m s) := by
  unfold pdelayReq
  exact .ite (.ite (.sendPtp <| .sendPtp hs) (.sendPtp hs)) (.listenQueue hs)

protected theorem pdelayResp {h : Nat} {m : PtpMsg} (hs : Canon cmds s) : Canon cmds (pdelayResp h m s) :=
  .listenQueue hs

protected theorem pdelayRespFollowUp {h : Nat} {m : PtpMsg} (hs : Canon cmds s) :
    Canon cmds (pdelayRespFollowUp h m s) :=
  .listenQueue hs

protected theorem ptpQueue {h : Nat} {bytes : List Byte} (hs : Canon cmds s) : Canon cmds (ptpQueue h bytes s) :=
  .ite hs (.rxqPush hs)

protected theorem rxqPop {h : Nat} (hs : Canon cmds s) : Canon cmds (rxqPop h s) :=
  .frame hs

protected theorem syncInterval {h : Nat} (hs : Canon cmds s) : Canon cmds (syncInterval h s) :=
  .ite hs
    (by
       split
       · exact .ite (.sendPtp <| .sendPtp <| .of_pair ‹_› <| .nextSeq hs) (.sendPtp <| .of_pair ‹_› <| .nextSeq hs))

protected theorem delayReqInterval {h : Nat} {tx : Int} (hs : Canon cmds s) : Canon cmds (delayReqInterval h tx s) :=
  .ite hs (by split; exact .sendPtp <| .setSlave <| .of_pair ‹_› <| .nextSeq hs)

protected theorem announceInterval {h : Nat} (hs : Canon cmds s) : Canon cmds (announceInterval h s) :=
  .ite hs (by split; exact .sendPtp <| .of_pair ‹_› <| .nextSeq hs)

protected theorem syncTimeout {k : Nat} (hs : Canon cmds s) : Canon cmds (syncTimeout k s) :=
  .ite (.raiseEvt hs) hs

protected theorem queueTime {r : Nat} {t : TimeTx} (hs : Canon cmds s) : Canon cmds (queueTime r t s) :=
  .ite hs (.setRPort hs)

protected theorem ringSyncInterval (hs : Canon cmds s) : Canon cmds (ringSyncInterval s) :=
  .ite hs
    (by split; exact by split; exact .foldl .queueTime (.of_pair ‹_› <| .freeDraw <| .of_pair ‹_› <| .nextSeq hs))

protected theorem ringPdelayInterval (hs : Canon cmds s) : Canon cmds (ringPdelayInterval s) :=
  .ite hs (.foldl (fun h => by split; exact .queueTime <| .setSlave <| .of_pair ‹_› <| .nextSeq h) hs)

protected theorem takeTime {r f : Nat} {rx : Int} (hs : Canon cmds s) : Canon cmds (takeTime r f rx s) := by
  unfold takeTime
  extract_lets msg
  clear_value msg
  refine .ite hs ?_
  split
  · refine .ite ?_ hs
    split
    split
    exact .queueTime <| .setSlave <| .of_pair ‹_› <| .freeDraw <| .of_pair ‹_› <| .nextSeq <| .formTheta <|
      .setSlave hs
  · refine .ite ?_ hs
    split
    exact .queueTime <| .of_pair ‹_› <| .freeDraw hs
  · split
    exacts [.ite (.formTheta <| .setSlave hs) hs, hs]
  · exact .ite (.queueTime hs) hs
  · split
    · refine .ite ?_ hs
      split
      exact .wrAll <| .of_pair ‹_› <| .freeField hs
    · exact hs
  · exact hs

protected theorem refLoss (hs : Canon cmds s) : Canon cmds (refLoss s) := by
  unfold refLoss
  exact .ite (.wr <| .frame hs) (.ite (.frame hs) (.raiseFault <| .wr <| .wr <| .frame hs))

protected theorem refReturn (hs : Canon cmds s) : Canon cmds (refReturn s) := by
  unfold refReturn
  exact .ite (.wr <| .frame hs) (.ite (.frame hs) (.wr <| .wr <| .frame hs))

protected theorem alignArm (hs : Canon cmds s) : Canon cmds (alignArm s) :=
  .frame hs

protected theorem loadTc {v : BitVec 48} {k : Nat} (hs : Canon cmds s) : Canon cmds (loadTc v k s) := by
  unfold loadTc
  exact .frame <| .foldl .fluxCatch (.rtCatch <| .ladleCatch hs)

protected theorem phaseField {offset : Int} (hs : Canon cmds s) : Canon cmds (phaseField offset s).2 :=
  .ite_snd hs (by split; exact .of_pair ‹_› <| .freeDraw hs)

protected theorem syncEdge {offset : Int} (hs : Canon cmds s) : Canon cmds (syncEdge offset s) := by
  unfold syncEdge
  extract_lets
  split
  · exact .raiseEvt <| .frame hs
  · split
    · split
      exact .raiseEvt <| .wr <| .wr <| .loadTc <| .passTicks <| .frame <| .of_pair ‹_› <| .freeDraw hs
    · refine .ite ?_ hs
      split
      · exact .ite
            (.raiseFault <| .bump <| .wr <| .wr <| .of_pair ‹_› <| .phaseField hs)
            (.wr <| .of_pair ‹_› <| .phaseField hs)

protected theorem syncAbsent (hs : Canon cmds s) : Canon cmds (syncAbsent s) :=
  .ite (.raiseEvt <| .bump hs) hs

protected theorem setRlatch {p : Path} {a : Nat} {v : Word} (hs : Canon cmds s) : Canon cmds (setRlatch p a v s) :=
  .frame hs

protected theorem mtRead {p : Path} (hs : Canon cmds s) : Canon cmds (mtRead p s) := by
  unfold mtRead
  exact .frame <| .setRlatch <| .setRlatch <| .setRlatch <| .setRlatch hs

protected theorem tsuRead {p : Path} {k : Nat} (hs : Canon cmds s) : Canon cmds (tsuRead p k s) := by
  unfold tsuRead
  exact .frame <| .wr <| .foldl .setRlatch hs

protected theorem tsuStamp {k : Nat} (hs : Canon cmds s) : Canon cmds (tsuStamp k s) :=
  .ite hs (.ite (.raiseEvt <| .wr <| .wr <| .wr <| .wrAll <| .wrPair hs) (.wr <| .wr <| .wrAll <| .wrPair hs))

protected theorem cmpFire {k : Nat} (hs : Canon cmds s) : Canon cmds (cmpFire k s) := by
  unfold cmpFire
  exact .ite hs (.raiseEvt <| .wr <| .wrAll hs)

/-! ## Ring -/

theorem timeOut {r : Nat} {t : TimeTx} (hs : Canon cmds s) : Canon cmds (timeOut r t s).2.2 := by
  unfold Machine.timeOut
  extract_lets
  split
  · exact hs
  · exact .setSlave hs
  · exact .setSlave hs
  · split <;> exact hs

protected theorem sendReplay {r n : Nat} {t : TimeTx} (hs : Canon cmds s) : Canon cmds (sendReplay r n t s).2 :=
  .emit <| .timeOut hs

protected theorem replaySend {r : Nat} (hs : Canon cmds s) : Canon cmds (replaySend r s) := by
  unfold replaySend
  extract_lets _ idle _ push
  have hidle : Canon cmds idle := .emit hs
  have hpush : ∀ {t y}, Canon cmds (push t y) := .setRPort <| .sendReplay <| .setRPort hs
  split
  · split
    exacts [.setRPort <| .sendReplay hs, .setRPort hidle]
  · refine .ite hidle ?_
    split
    exacts [hpush, hpush, hidle]

protected theorem useSlots {r k : Nat} (hs : Canon cmds s) : Canon cmds (useSlots r k s) := by
  unfold useSlots
  exact .setRPort hs

protected theorem rtSent {r n : Nat} {t : BitVec 48} {m : TxMsg} (hs : Canon cmds s) :
    Canon cmds (rtSent r n t m s) := by
  unfold rtSent
  extract_lets _ s1 s2
  have hs1 : Canon cmds s1 := .useSlots <| .setRPort hs
  have hs2 : Canon cmds s2 := .ite (.bump hs1) hs1
  split
  exacts [.useSlots hs, by split; exacts [.noteRelay hs2, hs2]]

protected theorem flitSend {r : Nat} {s0 : State} (hs0 : Canon cmds s0) : Canon cmds (flitSend r s0) := by
  unfold flitSend
  extract_lets _ s
  have hs : Canon cmds s := .foldl .emit (.rtCatch <| .ladleCatch hs0)
  refine .ite (.ite hs (.useSlots <| .emit hs)) ?_
  split
  exacts [.rtSent <| .foldl .emit (.frame hs), .useSlots <| .replaySend hs]

protected theorem resendFrom {r : Nat} (hs : Canon cmds s) : Canon cmds (resendFrom r s) := by
  unfold resendFrom
  exact .ite hs (.ite (.raiseFault <| .bump <| .setRPort hs) (.bump <| .setRPort hs))

protected theorem replayTimeout {r : Nat} (hs : Canon cmds s) : Canon cmds (replayTimeout r s) :=
  .resendFrom hs

protected theorem lossReport {r : Nat} (hs : Canon cmds s) : Canon cmds (lossReport r s) :=
  .lossAtMortar <| .whenUp .lossAtLadle (.raiseEvt <| .bump hs)

protected theorem ownLoss {r : Nat} (hs : Canon cmds s) : Canon cmds (ownLoss r s) := by
  unfold ownLoss
  exact .ite (.readyRt <| .lossReport hs) (.lossReport hs)

protected theorem seeNumber {r n : Nat} {taken : Bool} (hs : Canon cmds s) : Canon cmds (seeNumber r n taken s) := by
  unfold seeNumber
  extract_lets
  split
  exacts [.setRPort hs, .ite hs (.foldl .ownLoss (.setRPort hs))]

/-- A copy that joins a flit which waits or is queued changes those only. -/
theorem joinCopy {o n : Nat} {c : BitVec 256 × Bool} {t : State} (h : joinCopy o n c s = some t) (hs : Canon cmds s) :
    Canon cmds t := by
  unfold Machine.joinCopy at h
  dsimp only at h
  split at h
  · cases h
    exact .frame hs
  · obtain ⟨_, -, rfl⟩ := Option.map_eq_some_iff.1 h
    exact .frame hs

protected theorem forward {r f : Nat} {stomp first : Bool} {s0 : State} (hs0 : Canon cmds s0) :
    Canon cmds (forward r f stomp first s0) := by
  unfold forward
  extract_lets _ _ _ s _ _ s1
  have hs : Canon cmds s := .rtCatch <| .ite (.bump hs0) hs0
  have hs1 : Canon cmds s1 := .setRPort hs
  refine .ite hs0 ?_
  split
  · exact .joinCopy ‹_› hs
  · split
    · split
      exacts [.frame hs1, hs1]
    · exact .ite (.readyRt hs) hs

theorem takeTrigger_take {r f src n id : Nat} (hs : Canon cmds s) : Canon cmds (takeTrigger.take r f src n id s) :=
  .foldl .fireLine (.triggerStart <| .frame hs)

protected theorem takeTrigger {r f : Nat} (hs : Canon cmds s) : Canon cmds (takeTrigger r f s) := by
  unfold takeTrigger
  extract_lets
  split
  exacts [.ite hs (.takeTrigger_take hs), .takeTrigger_take hs]



protected theorem deliverRt {r f : Nat} (hs : Canon cmds s) : Canon cmds (deliverRt r f s) := by
  unfold deliverRt
  extract_lets
  split
  · exact .whenUp .takeDecision hs
  · exact .ite hs (.ite (.whenUp .seamCorrections hs) (.whenUp .seamEvents hs))
  · exact .takeTrigger hs
  · exact .lossReport hs
  · exact hs

protected theorem takeFrag {f : Nat} (hs : Canon cmds s) : Canon cmds (takeFrag f s) := by
  unfold takeFrag
  exact .ite (.frame hs) (.ite (.frame hs) (.frame hs))

protected theorem sendNak {r : Nat} (hs : Canon cmds s) : Canon cmds (sendNak r s) :=
  .bump <| .setRPort hs

protected theorem takeReplay {r f : Nat} {rx : Int} (hs : Canon cmds s) : Canon cmds (takeReplay r f rx s) := by
  unfold takeReplay
  extract_lets _ _ s1 _ _ s2
  have hs1 : Canon cmds s1 := .setRPort hs
  have hs2 : Canon cmds s2 := .ite (.takeTime hs1) (.ite (.takeFrag hs1) hs1)
  exact .ite (.sendNak hs) (.ite (.bump hs1) (.ite hs2 (.setRPort hs2)))

protected theorem badCopy {r f : Nat} (hs : Canon cmds s) : Canon cmds (badCopy r f s) := by
  unfold badCopy
  exact .ite (.forward <| .raiseEvt <| .bump hs) (.ite (.sendNak <| .raiseEvt <| .bump hs) (.raiseEvt <| .bump hs))

protected theorem takeRt {r f : Nat} (hs : Canon cmds s) : Canon cmds (takeRt r f s) := by
  unfold takeRt
  exact .ite
      (.forward hs)
      (.ite (.bump <| .seeNumber <| .setRPort hs) (.forward <| .deliverRt <| .seeNumber <| .setRPort hs))

protected theorem rxFlit {r : Nat} {types : List Nat} {bits : BitVec 256} {rx : Int} (hs : Canon cmds s) :
    Canon cmds (rxFlit r types bits rx s) := by
  unfold rxFlit
  refine .ite hs (.ite (.badCopy hs) (.ite hs ?_))
  split
  exacts [.seeNumber hs, .takeReplay hs, .takeReplay hs, .takeRt hs]

protected theorem takeAck {r ack : Nat} {nak : Bool} (hs : Canon cmds s) : Canon cmds (takeAck r ack nak s) := by
  unfold takeAck
  exact .ite (.resendFrom <| .setRPort hs) (.setRPort hs)

protected theorem takeLmsg {p v : Nat} (hs : Canon cmds s) : Canon cmds (takeLmsg p v s) := by
  unfold takeLmsg
  extract_lets
  split
  exacts [.swapReq hs, .swapReqAbrupt hs, .swapReady hs, .swapAbort hs, hs]

protected theorem laneFrame {r : Nat} {bits : BitVec 128} (hs : Canon cmds s) : Canon cmds (laneFrame r bits s) := by
  unfold laneFrame
  extract_lets _ _ _ _ _ _ _ _ s3 s4 s5
  have hs3 : Canon cmds s3 := .raiseFaultIf <| .raiseFaultIf <| .setRPort <| .wr <| .wr <| .wr hs
  have hs4 : Canon cmds s4 := .ite hs3 (.ringRefresh hs3)
  have hs5 : Canon cmds s5 := .seeNumber <| .takeAck hs4
  exact .ite hs (.ite hs4 (.ite hs5 (.takeLmsg <| .setRPort hs5)))

protected theorem ringAddrWrite {v : Word} (hs : Canon cmds s) : Canon cmds (ringAddrWrite v s) :=
  .ite hs (.wr hs)

protected theorem ringEnabled {r : Nat} (hs : Canon cmds s) : Canon cmds (ringEnabled r s) := by
  unfold ringEnabled
  exact .portPrbs <| .ringRefresh <| .ite hs (.setRPort hs)

/-! ## Apply -/

protected theorem parkWritten {o a : Nat} {v : Word} (hs : Canon cmds s) : Canon cmds (parkWritten o a v s) :=
  .ite (.fluxRamp <| .setFlux <| .setReg <| .fluxCatch <| .fluxTakeOver hs) (.setReg <| .fluxCatch hs)

protected theorem sourceApplied {m : Nat} {self : Bool} (hs : Canon cmds s) : Canon cmds (sourceApplied m self s) := by
  unfold sourceApplied
  exact .ite (.setGroup hs) (.ite hs (.setGroup hs))

protected theorem applyBits {a : Nat} {mask v : Word} (hs : Canon cmds s) : Canon cmds (applyBits a mask v s) := by
  unfold applyBits
  extract_lets _ _ s1
  have hs1 : Canon cmds s1 := .setReg hs
  split
  · exact hs
  · exact .ite (.freqChanged <| .setReg <| .outCatch hs) (.setReg <| .outCatch hs)
  · exact .ite (.freqChanged <| .setReg <| .outCatch hs) (.setReg <| .outCatch hs)
  · exact .ite (.dfChanged hs1) hs1
  · exact .ite (.setReg hs) (.ite (.parkWritten hs) (.setReg <| .fluxGroupCatch hs))
  · exact .ite (.sourceApplied <| .setReg hs) (.setReg hs)
  · exact .setReg hs

protected theorem dropHeld {a : Nat} {mask : Word} (hs : Canon cmds s) : Canon cmds (dropHeld a mask s) := by
  unfold dropHeld
  exact .frame hs

protected theorem shadowWrite {a : Nat} {mask v : Word} (hs : Canon cmds s) : Canon cmds (shadowWrite a mask v s) := by
  unfold shadowWrite
  exact .ite (.frame <| .dropHeld hs) (.applyBits <| .dropHeld hs)

protected theorem releaseHeld (hs : Canon cmds s) : Canon cmds (releaseHeld s) := by
  unfold releaseHeld
  exact .foldl .applyBits (.frame hs)

protected theorem enableChanged {pt : PT} {n : Nat} (hs : Canon cmds s) : Canon cmds (enableChanged pt n s) := by
  unfold enableChanged
  split
  exacts [.ladleEnabled hs, .ringEnabled hs, .portPrbs <| .hostRefresh hs, .calKick hs, .routerEnabled hs, hs]

protected theorem enableNow {pg : Nat} (hs : Canon cmds s) : Canon cmds (enableNow s pg) := by
  unfold enableNow
  split
  exacts [hs, .enableChanged <| .gated (fun h => .wr <| .frame h) (.ite (.lineCatch hs) hs)]

protected theorem enableBlock {pg : Nat} (hs : Canon cmds s) : Canon cmds (enableBlock pg s) := by
  unfold enableBlock
  split
  exacts [hs, .ite hs (.ite (.ite hs (.frame hs)) (.enableNow hs))]

protected theorem stopBlock {pt : PT} {n : Nat} (hs : Canon cmds s) : Canon cmds (stopBlock pt n s) := by
  unfold stopBlock
  extract_lets
  split
  · exact .silenceSeq <| .foldl .tagShot hs
  · exact .fluxGroupPark <| .foldl .tagShot hs
  · exact .foldl .tagShot hs

protected theorem disableBlock {pg : Nat} (hs : Canon cmds s) : Canon cmds (disableBlock pg s) := by
  unfold disableBlock
  split
  · exact hs
  · exact .ite hs
        (.ite
           (.frame <| .ite (.lineCatch hs) hs)
           (.enableChanged <|
              .gated .wr (.ite (.stopBlock <| .frame <| .ite (.lineCatch hs) hs) (.frame <| .ite (.lineCatch hs) hs))))

protected theorem enableWaiting (hs : Canon cmds s) : Canon cmds (enableWaiting s) := by
  unfold enableWaiting
  exact .foldl .enableNow hs

protected theorem freed (hs : Canon cmds s) : Canon cmds (freed s) :=
  .ladleRelease <| .enableWaiting <| .releaseHeld hs

/-! ## Capture -/

protected theorem setCap {u : Nat} {x : Cap} (hs : Canon cmds s) : Canon cmds (setCap u x s) :=
  .frame hs

protected theorem setCapStatus {u v : Nat} (hs : Canon cmds s) : Canon cmds (setCapStatus u v s) :=
  .wr hs

protected theorem setCapState {u v : Nat} (hs : Canon cmds s) : Canon cmds (setCapState u v s) :=
  .wr hs

protected theorem evictOne {u : Nat} (hs : Canon cmds s) : Canon cmds (evictOne u s) := by
  unfold evictOne
  extract_lets
  split
  exacts [hs, .raiseEvt <| .bump <| .setCap hs]

protected theorem makeRoom {u : Nat} : ∀ {n : Nat} {s : State}, Canon cmds s → Canon cmds (makeRoom u n s)
  | 0, _, hs => hs
  | _ + 1, _, hs => .ite hs (Canon.makeRoom <| .evictOne hs)

protected theorem capRoom {u : Nat} (hs : Canon cmds s) : Canon cmds (capRoom u s) :=
  .makeRoom hs

protected theorem ringPut {base ring place : Nat} {bs : List Byte} (hs : Canon cmds s) :
    Canon cmds (ringPut base ring place bs s) :=
  .putBefore hs

protected theorem cutRecord {u extra : Nat} (hs : Canon cmds s) : Canon cmds (cutRecord u extra s) := by
  unfold cutRecord
  extract_lets
  split
  exacts [.capRoom <| .setCap <| .ringPut hs, hs]

protected theorem addItem {u : Nat} {it : CapItem} (hs : Canon cmds s) : Canon cmds (addItem u s it) := by
  unfold addItem
  exact .capRoom <| .setCap <| .ite (.cutRecord hs) hs

protected theorem takeItem_ {u : Nat} {it : CapItem} (hs : Canon cmds s) : Canon cmds (takeItem_ u s it) := by
  unfold takeItem_
  exact .ite hs (.addItem <| .ite (.setCap hs) hs)

protected theorem beginRecords {u : Nat} (hs : Canon cmds s) : Canon cmds (beginRecords u s) := by
  unfold beginRecords
  extract_lets
  split
  exacts [hs, .ite hs (by split; exact .foldl .takeItem_ (.setCap hs))]

protected theorem endUnit {u status : Nat} (hs : Canon cmds s) : Canon cmds (endUnit u status s) := by
  unfold endUnit
  exact .setCapStatus <| .setCap hs

protected theorem completeCapture {u extra : Nat} {s0 : State} (hs0 : Canon cmds s0) :
    Canon cmds (completeCapture u extra s0) := by
  unfold completeCapture
  exact .ite
      (.setCapState <| .setCapStatus <| .setCap <| .cutRecord <| .beginRecords hs0)
      (.raiseEvt <| .endUnit <| .setCap <| .cutRecord <| .beginRecords hs0)

protected theorem captureComplete {u : Nat} (hs : Canon cmds s) : Canon cmds (captureComplete u s) :=
  .ite (.ite (.completeCapture <| .beginRecords hs) hs) hs

protected theorem stopUnit {u extra : Nat} (hs : Canon cmds s) : Canon cmds (stopUnit u extra s) :=
  .endUnit <| .ite (.cutRecord <| .beginRecords hs) hs

protected theorem abortUnit {u : Nat} (hs : Canon cmds s) : Canon cmds (abortUnit u s) := by
  unfold abortUnit
  extract_lets _ _ _ _ s2
  have hs2 : Canon cmds s2 := .completeCapture <| .beginRecords hs
  split
  · exact .ite (.wr hs) hs
  · split
    · exact .ite (.wr <| .raiseEvt <| .endUnit hs) (.endUnit hs)
    · split
      · exact .endUnit hs
      · exact .ite
            (.endUnit <| .wr <| .wrAll <| .wrAll <| .wrAll <| .frame hs)
            (.ite (.wr <| .ite hs2 (.raiseEvt <| .endUnit hs2)) (.stopUnit hs))

protected theorem shedUnit {u : Nat} (hs : Canon cmds s) : Canon cmds (shedUnit u s) :=
  .ite (.stopUnit hs) hs

protected theorem withdrawUnit {u : Nat} (hs : Canon cmds s) : Canon cmds (withdrawUnit u s) := by
  unfold withdrawUnit
  exact .raiseFault <| .setCap <| .endUnit hs

protected theorem clrCapCounts {u : Nat} (hs : Canon cmds s) : Canon cmds (clrCapCounts u s) :=
  .foldl .wrAll hs

protected theorem armUnit {u : Nat} (hs : Canon cmds s) : Canon cmds (armUnit u s) :=
  .ite hs
    (by
       split
       · exact .raiseEvt <| .setCapStatus hs
       · exact .wr <| .setCapState <| .setCapStatus <| .foldl .wrAll (.setCap hs))

protected theorem wordTaken {u : Nat} (hs : Canon cmds s) : Canon cmds (wordTaken u s) :=
  .ite hs (by split; exacts [.setCap hs, hs])

protected theorem takeSource {u : Nat} {src : BitVec 48} {bytes : List Byte} (hs : Canon cmds s) :
    Canon cmds (takeSource u src bytes s) := by
  unfold takeSource
  exact .ite hs
      (.ite
         (.raiseEvt <| .bump <| .setCap hs)
         (.ite (.capRoom <| .setCap hs) (.takeItem_ <| .beginRecords <| .setCap hs)))

protected theorem sourceItem {u : Nat} {t : BitVec 48} {bytes : List Byte} {s0 : State} (hs0 : Canon cmds s0) :
    Canon cmds (sourceItem u t bytes s0) := by
  unfold sourceItem
  extract_lets
  split
  exacts [.passTo hs0, .wordTaken <| .takeSource <| .passTo hs0]

protected theorem hitDue {u : Nat} {src : BitVec 48} {h : Hit} {s0 : State} (hs0 : Canon cmds s0) :
    Canon cmds (hitDue u src h s0) := by
  unfold hitDue
  exact .ite (.passTo hs0) (by split; exacts [.passTo hs0, .raiseEvtIf <| .setCap <| .passTo hs0])

protected theorem takeTrig {u st c : Nat} {also : List Nat} {pos : BitVec 48 × Nat × Bool} {x : BitVec 48}
    (hs : Canon cmds s) :
    Canon cmds (takeTrig u st c also pos x s) :=
  .ite (.raiseEvt <| .bump hs) (.fireLine <| .raiseEvt <| .wrPair <| .wrAll <| .setCapStatus <| .setCap hs)

protected theorem takeStop {u : Nat} (hs : Canon cmds s) : Canon cmds (takeStop u s) :=
  .ite (.completeCapture hs) (.endUnit hs)

protected theorem advanceCounts {u st : Nat} {next : Option Nat} {ps : List Bool} (hs : Canon cmds s) :
    Canon cmds (advanceCounts u st next ps s) :=
  .foldl .wrPair hs

protected theorem triggerSample {u : Nat} (hs : Canon cmds s) : Canon cmds (triggerSample u s) := by
  unfold triggerSample
  extract_lets _ _ _ _ _ _ _ s1
  have hs1 : Canon cmds s1 := .setCap hs
  split
  · exact hs
  · split
    · extract_lets s2
      have hs2 : Canon cmds s2 := .ite hs1 (.raiseEvt <| .bump hs1)
      split
      · exact .advanceCounts hs2
      · extract_lets _ _ s3 s4 s5
        have hs3 : Canon cmds s3 := .advanceCounts <| .setCapState hs2
        have hs4 : Canon cmds s4 := .ite (.takeTrig hs3) hs3
        have hs5 : Canon cmds s5 := .ite (.askTbus hs4) hs4
        exact .ite (.takeStop hs5) hs5

protected theorem preFilled {u : Nat} {s0 : State} (hs0 : Canon cmds s0) : Canon cmds (preFilled u s0) :=
  .ite hs0 (.ite (.setCapStatus <| .ite (.passTo hs0) hs0) (.ite (.passTo hs0) hs0))

protected theorem recordRelease {u : Nat} (hs : Canon cmds s) : Canon cmds (recordRelease u s) := by
  unfold recordRelease
  extract_lets
  split
  exacts [hs, .ringPut <| .setCap hs]

protected theorem egrSpend {u n : Nat} (hs : Canon cmds s) : Canon cmds (egrSpend u n s) := by
  unfold egrSpend
  exact .setCap hs

protected theorem egrWait {u : Nat} (hs : Canon cmds s) : Canon cmds (egrWait u s) := by
  unfold egrWait
  split
  exacts [hs, .passTo hs]

protected theorem sendRecord {u dest plen : Nat} {spoilt : Bool} {body : List Byte} (hs : Canon cmds s) :
    Canon cmds (sendRecord u dest plen spoilt body s) := by
  unfold sendRecord
  exact .egrSpend <| .wrPair <| .wrAll <| .daxkaSend hs

protected theorem takeOvw {u : Nat} (hs : Canon cmds s) : Canon cmds (takeOvw u s).2 := by
  unfold takeOvw
  exact .setCap hs

protected theorem sendHeader {u dest : Nat} (hs : Canon cmds s) : Canon cmds (sendHeader u dest s) := by
  unfold sendHeader
  split
  exact .setCap <| .frame <| .sendRecord <| .of_pair ‹_› <| .takeOvw hs

protected theorem recordSend {u : Nat} (hs : Canon cmds s) : Canon cmds (recordSend u s) := by
  unfold recordSend
  extract_lets s0
  have hs0 : Canon cmds s0 := .egrWait hs
  refine .ite hs ?_
  split
  · exact hs
  · refine .ite hs ?_
    split
    · exact .evictOne hs
    · refine .ite hs ?_
      extract_lets
      split
      · exact .setCap <| .sendRecord <| .of_pair ‹_› <| .takeOvw <| .egrWait <| .ite (.sendHeader hs0) hs0

protected theorem egrOpen {u : Nat} (hs : Canon cmds s) : Canon cmds (egrOpen u s) := by
  unfold egrOpen
  extract_lets
  split
  exacts [.sendHeader <| .setCap <| .wrAll hs, .setCap <| .wrAll hs]

protected theorem egrEnable {u : Nat} (hs : Canon cmds s) : Canon cmds (egrEnable u s) :=
  .ite hs (.egrOpen <| .wr hs)

/-! ## Power -/

protected theorem setTherm {x : Therm} (hs : Canon cmds s) : Canon cmds (setTherm x s) :=
  .frame hs

protected theorem setShed {x : Shed} (hs : Canon cmds s) : Canon cmds (setShed x s) :=
  .frame hs

protected theorem fluxOff {o : Nat} (hs : Canon cmds s) : Canon cmds (fluxOff o s) := by
  unfold fluxOff
  exact .ite hs (.ite (.setFlux hs) (.setFlux <| .fluxRamp <| .fluxTakeOver hs))

protected theorem fluxOn {o : Nat} (hs : Canon cmds s) : Canon cmds (fluxOn o s) := by
  unfold fluxOn
  exact .setFlux hs

protected theorem setDoms {ds : List Nat} {on : Bool} (hs : Canon cmds s) : Canon cmds (setDoms ds on s) :=
  .foldl .wr hs

protected theorem muteAll (hs : Canon cmds s) : Canon cmds (muteAll s) :=
  .gated (fun h => .foldl .setOut h) hs

protected theorem fluxesDown (hs : Canon cmds s) : Canon cmds (fluxesDown s) := by
  unfold fluxesDown
  exact .ite hs (.passTicks <| .foldl .rampDone hs)

protected theorem goDark (hs : Canon cmds s) : Canon cmds (goDark s) := by
  unfold goDark
  exact .bypassUpdate <| .setDoms <| .frame <| .fluxesDown <| .foldl .setGroup (.foldl .fluxOff (.muteAll <| .tagAll hs))

protected theorem throttleTakes (hs : Canon cmds s) : Canon cmds (throttleTakes s) := by
  unfold throttleTakes
  exact .calKick <| .foldl (fun h => .ite h (.setGroup h)) hs

protected theorem throttleRise (hs : Canon cmds s) : Canon cmds (throttleRise s) :=
  .ite (.raiseFault hs) (.throttleTakes <| .raiseEvt <| .wr hs)

protected theorem throttleUp (hs : Canon cmds s) : Canon cmds (throttleUp s) :=
  .ite (.throttleRise hs) hs

protected theorem throttleDown (hs : Canon cmds s) : Canon cmds (throttleDown s) := by
  unfold throttleDown
  split
  exact .ite (.throttleTakes <| .raiseEvt <| .wr hs) hs

protected theorem refreshShed (hs : Canon cmds s) : Canon cmds (refreshShed s) := by
  unfold refreshShed
  exact .ite
      (.wr <| .wr <| .wr <| .wr hs)
      (.ite
         (.raiseEvt <| .setShed <| .bump <| .wr <| .wr <| .wr <| .wr hs)
         (.raiseEvt <| .setShed <| .wr <| .wr <| .wr <| .wr hs))

protected theorem hostShed {on : Bool} {h : Nat} (hs : Canon cmds s) : Canon cmds (hostShed on h s) := by
  unfold hostShed
  exact .raiseEvt <| .hostEnterMode <| .wr hs

protected theorem stageActs {g n : Nat} {first : Bool} (hs : Canon cmds s) : Canon cmds (stageActs g n first s) := by
  unfold stageActs
  extract_lets
  split
  · exact .foldl .shedUnit hs
  · exact .ite (.calKick hs) hs
  · exact .ite (.hostShed <| .hostShed hs) hs
  · exact .foldl .fluxGroupPark (.ite (.startOverrun <| .setGroup hs) hs)
  · exact .ite (.calShed <| .setDoms <| .pantryLost <| .foldl .fluxOff hs) hs
  · exact hs

protected theorem enterStages {g n : Nat} (hs : Canon cmds s) : Canon cmds (enterStages g n s) := by
  unfold enterStages
  exact .refreshShed <| .foldl (fun h => .ite h (.stageActs <| .gated .setGroup h)) hs

protected theorem stageSix (hs : Canon cmds s) : Canon cmds (stageSix s) :=
  .ite hs (by split; exact .goDark <| .logEvent <| .of_pair ‹_› <| .freeDraw hs)

protected theorem enterNow {n : Nat} (hs : Canon cmds s) : Canon cmds (enterNow n s) := by
  unfold enterNow
  exact .ite (.stageSix <| .foldl .enterStages (.tagAll hs)) (.foldl .enterStages (.tagAll hs))

protected theorem applyDemand (hs : Canon cmds s) : Canon cmds (applyDemand s) := by
  unfold applyDemand
  exact .ite (.refreshShed hs) (.ite (.enterNow hs) (.refreshShed <| .foldl (fun h => .ite h (.enterStages h)) hs))

protected theorem leaveStage {n : Nat} (hs : Canon cmds s) : Canon cmds (leaveStage n s) := by
  unfold leaveStage
  split
  exacts [.foldl .fluxOn (.setDoms hs), .hostShed <| .hostShed hs, .calKick hs, hs]

protected theorem stepDown (hs : Canon cmds s) : Canon cmds (stepDown s) := by
  unfold stepDown
  exact .refreshShed <| .leaveStage <| .setShed <| .gated (fun h => .foldl .setGroup h) hs

protected theorem takeStepDown (hs : Canon cmds s) : Canon cmds (takeStepDown s) :=
  .ite (.stepDown hs) (.setShed hs)

protected theorem vinThreshold {mv : Nat} (hs : Canon cmds s) : Canon cmds (vinThreshold mv s) := by
  unfold vinThreshold
  exact .applyDemand <| .setShed <| .wr hs

protected theorem shedDwell (hs : Canon cmds s) : Canon cmds (shedDwell s) := by
  unfold shedDwell
  exact .applyDemand <| .setShed hs

protected theorem shedHold (hs : Canon cmds s) : Canon cmds (shedHold s) := by
  unfold shedHold
  exact .ite
      (.ite (.refreshShed <| .setShed <| .setShed hs) (.takeStepDown <| .setShed <| .setShed hs))
      (.refreshShed <| .setShed hs)

protected theorem shedWait {g : Nat} (hs : Canon cmds s) : Canon cmds (shedWait g s) := by
  unfold shedWait
  exact .ite (.enterStages <| .tagShot <| .bump hs) hs

protected theorem shedAtBoundary {g : Nat} (hs : Canon cmds s) : Canon cmds (shedAtBoundary g s) :=
  .takeStepDown <| .enterStages hs

protected theorem shedPin {level : Bool} (hs : Canon cmds s) : Canon cmds (shedPin level s) :=
  .applyDemand <| .frame hs

protected theorem domainTrip {d : Nat} (hs : Canon cmds s) : Canon cmds (domainTrip d s) := by
  unfold domainTrip
  exact .enterNow <| .logEvent <| .raiseFault <| .wr hs

protected theorem overVoltage (hs : Canon cmds s) : Canon cmds (overVoltage s) :=
  .enterNow hs

protected theorem phaseFail {d : Nat} (hs : Canon cmds s) : Canon cmds (phaseFail d s) := by
  unfold phaseFail
  exact .ite (.raiseEvt <| .finishSub <| .serveUnit <| .addWear hs) (.raiseFault <| .wr <| .addWear hs)

protected theorem thermalShutdown (hs : Canon cmds s) : Canon cmds (thermalShutdown s) :=
  .ite hs (.goDark <| .frame <| .setTherm <| .logEvent hs)

protected theorem setSite {k i : Nat} {v : Bool} (hs : Canon cmds s) : Canon cmds (setSite k i v s) :=
  .wr hs

protected theorem freezeFor {k : Nat} (hs : Canon cmds s) : Canon cmds (freezeFor k s) :=
  .ite (.raiseEvt <| .wr <| .setTherm hs) hs

protected theorem spareIn {k : Nat} (hs : Canon cmds s) : Canon cmds (spareIn k s) := by
  unfold spareIn
  exact .raiseEvt <| .finishSub <| .setTherm <| .setSite <| .serveUnit hs

protected theorem primaryFails {k : Nat} (hs : Canon cmds s) : Canon cmds (primaryFails k s) := by
  unfold primaryFails
  extract_lets s1
  have hs1 : Canon cmds s1 := .freezeFor <| .addWear <| .setSite hs
  exact .ite hs (.ite hs1 (.ite (.raiseFault <| .setSite hs1) (.ite (.setSite hs1) (.spareIn hs1))))

protected theorem spareFails {k : Nat} (hs : Canon cmds s) : Canon cmds (spareFails k s) := by
  unfold spareFails
  exact .ite
      (.raiseFault <| .setSite <| .freezeFor <| .setSite hs)
      (.ite (.raiseFault <| .setSite <| .setSite hs) (.setSite hs))

protected theorem judgeSite {k : Nat} {r t : Int} (hs : Canon cmds s) : Canon cmds (judgeSite k r t s) :=
  .ite hs
    (.ite
       (.ite (.spareFails <| .setTherm hs) (.primaryFails <| .setTherm hs))
       (.ite (.ite (.setSite <| .setTherm <| .setTherm hs) (.setTherm <| .setTherm hs)) (.setTherm hs)))

protected theorem diodeCrosscheck {k : Nat} {prim spare : Int} (hs : Canon cmds s) :
    Canon cmds (diodeCrosscheck k prim spare s) :=
  .ite hs
    (.ite
       (.primaryFails hs)
       (.ite
          (.spareFails hs)
          (by
             split
             · exact .ite (.primaryFails <| .of_pair ‹_› <| .freeDraw hs) (.spareFails <| .of_pair ‹_› <| .freeDraw hs))))

protected theorem freezeTimeout (hs : Canon cmds s) : Canon cmds (freezeTimeout s) :=
  .ite (.raiseFault <| .throttleRise hs) hs

protected theorem thermSel {v : Nat} (hs : Canon cmds s) : Canon cmds (thermSel v s) := by
  unfold thermSel
  exact .ite hs (.ite (.spareIn hs) (.ite (.setSite <| .setSite hs) hs))

protected theorem measurePower {d : Nat} (hs : Canon cmds s) : Canon cmds (measurePower s d) := by
  unfold measurePower
  split
  exact .hmSample <| .wr <| .of_pair ‹_› <| .freeField hs

protected theorem integrateNodes : ∀ {n : Nat} {s : State}, Canon cmds s → Canon cmds (integrateNodes n s).2
  | 0, _, hs => hs
  | n + 1, s, hs => by
    unfold integrateNodes
    split
    split
    exact .of_pair ‹_› <| Canon.integrateNodes (n := n) <| .of_pair ‹_› <| .freeDraw hs

protected theorem showSite {readings raw cor : List Int} {k : Nat} (hs : Canon cmds s) :
    Canon cmds (showSite readings raw cor s k) := by
  unfold showSite
  extract_lets
  split
  exact .wr <| .wr <| .of_pair ‹_› <| .freeRound hs

protected theorem thawSite {k : Nat} (hs : Canon cmds s) : Canon cmds (thawSite s k) := by
  unfold thawSite
  split
  exact .ite (.wr <| .setTherm <| .of_pair ‹_› <| .freeDraw hs) (.of_pair ‹_› <| .freeDraw hs)

protected theorem evalThresholds {hot cold : Int} (hs : Canon cmds s) : Canon cmds (evalThresholds hot cold s) := by
  unfold evalThresholds
  extract_lets _ _ _ _ _ s3 s4 s5
  have hs3 : Canon cmds s3 := .raiseFaultIf <| .raiseEvtIf <| .raiseEvtIf <| .setTherm hs
  have hs4 : Canon cmds s4 := .ite (.throttleRise hs3) hs3
  have hs5 : Canon cmds s5 := .ite (.applyDemand hs4) hs4
  exact .ite (.thermalShutdown hs5) hs5

/-- A fold that carries a value beside the state. -/
theorem foldl_snd {β γ : Type} {f : γ × State → β → γ × State} (hf : ∀ {b x}, Canon cmds x.2 → Canon cmds (f x b).2) :
    ∀ {l : List β} {x : γ × State}, Canon cmds x.2 → Canon cmds (l.foldl f x).2
  | [], _, hx => hx
  | b :: l, x, hx => Canon.foldl_snd (l := l) (x := f x b) hf (hf hx)

theorem correctNode {readings : List Int} {e : List Int × State} {k : Nat} (he : Canon cmds e.2) :
    Canon cmds (correctNode readings e k).2 :=
  .ite_snd he (.freeRound he)

protected theorem trivetUpdate {readings : List Int} (hs : Canon cmds s) : Canon cmds (trivetUpdate readings s) := by
  -- unfolded as a function: the kernel would else run `integrateNodes` on its 64 nodes to compare the two sides
  conv => arg 2; fun; fun; delta Machine.trivetUpdate
  extract_lets s1
  have hs1 : Canon cmds s1 := .foldl .measurePower hs
  split
  rename_i raw s2 e2
  have hs2 : Canon cmds s2 := .of_pair e2 (.integrateNodes hs1)
  extract_lets s3
  have hs3 : Canon cmds s3 := .foldl .judgeSite hs2
  split
  rename_i cor s4 e4
  have hs4 : Canon cmds s4 := .of_pair e4 (.foldl_snd .correctNode hs3)
  extract_lets s5 s6
  have hs6 : Canon cmds s6 := .foldl .showSite (.foldl (fun h => .hmSample <| .wr h) hs4)
  split
  have hs7 := Canon.of_pair ‹_› <| .freeRound hs6
  exact .driftChecks <| .evalThresholds <| .foldl .thawSite <| .wr <| .wr <| .wr <| .wr hs7

/-! ## Stores -/

protected theorem stageBytes {p a : Nat} {bs : List Byte} (hs : Canon cmds s) : Canon cmds (stageBytes p a bs s).2 := by
  unfold stageBytes
  extract_lets x
  split
  · exact hs
  · refine .ite_snd (.setLoadStat hs) ?_
    split
    · exact .ite_snd (.setStaging (bytesOk_putBytes _ _ (hs.getStaging_data _)) hs) (.setLoadStat hs)
    · exact .setStaging (bytesOk_putBytes _ _ (bytesOk_mapTake _ _ hs.stores)) hs

protected theorem setGraphStat {st : Nat} (hs : Canon cmds s) : Canon cmds (setGraphStat st s) :=
  .wr hs

protected theorem stageGraph {p a : Nat} {bs : List Byte} (hs : Canon cmds s) : Canon cmds (stageGraph p a bs s).2 := by
  unfold stageGraph
  refine .ite_snd (.setGraphStat hs) ?_
  split
  · exact .ite_snd { hs with gStage := bytesOk_putBytes _ _ hs.gStage } (.setGraphStat hs)
  · exact { hs with gStage := bytesOk_putBytes _ _ (bytesOk_mapTake _ _ hs.stores) }

protected theorem apertureBytes {p a : Nat} {bs : List Byte} (hs : Canon cmds s) :
    Canon cmds (apertureBytes p a bs s).2 :=
  .ite_snd (.stageGraph hs) (.stageBytes hs)

protected theorem apertureWrite {p a : Nat} {v : Word} (hs : Canon cmds s) : Canon cmds (apertureWrite p a v s) :=
  .ite (.apertureBytes hs) hs

protected theorem commitStore {p b : Nat} {crc : Word} (hs : Canon cmds s) : Canon cmds (commitStore p b crc s).2 := by
  unfold commitStore
  extract_lets x s0 r e s1 s2 s1' s2'
  have hx : bytesOk x.data := hs.getStaging_data p
  have hs0 : Canon cmds s0 := .noteUnit hs
  have hs1 : Canon cmds s1 := by
    refine .setLoadStat { hs0 with accepted := fun y hy => ?_ }
    rcases List.mem_append.1 hy with hy | hy
    · exact hs0.accepted y (List.mem_of_mem_filter hy)
    · rw [List.mem_singleton.1 hy]
      exact hx
  have hs2 : Canon cmds s2 := .ite (.storeGood hs1) hs1
  have hs2' : Canon cmds s2' := by unfold s2'; split; exacts [.wr <| .setLoadStat hs0, .setLoadStat hs0]
  split
  · exact .loadFail <| .setLoadStat hs
  · exact .ite_snd (.loadFail <| .setLoadStat hs) (.ite_snd (.ite hs2 (.copyImage hx hs2)) (.loadFail hs2'))

protected theorem discardStore {p b : Nat} (hs : Canon cmds s) : Canon cmds (discardStore p b s).2 := by
  unfold discardStore
  split
  exacts [hs, .ite_snd (.unbind hs) (.setLoadStat hs)]

protected theorem commitReg {p b : Nat} (hs : Canon cmds s) : Canon cmds (commitReg p b s) := by
  unfold commitReg
  exact .commitStore hs

protected theorem exchangeBanks {crc : Word} {data : Bytes} (hd : bytesOk data) (hs : Canon cmds s) :
    Canon cmds (exchangeBanks crc data s) := by
  unfold exchangeBanks
  extract_lets s1 _ _ s4
  have hs1 : Canon cmds s1 := { hs with stores := bytesOk_mapSplice _ _ hd hs.stores, gWait := by simp [s1] }
  have hs4 : Canon cmds s4 := .wrAll <| .wrAll <| .wr <| .setGraphStat hs1
  exact .raiseEvt <| .ite (.setMortState hs4) hs4

protected theorem commitGraph {p : Nat} {crc : Word} (hs : Canon cmds s) : Canon cmds (commitGraph p crc s).2 := by
  unfold commitGraph
  extract_lets r s1
  have hs1 : Canon cmds s1 := { hs with gStage := bytesOk_nil }
  split
  · exact .raiseEvt <| .setGraphStat hs
  · refine .ite_snd (.raiseEvt <| .setGraphStat hs) (.ite_snd (.ite (.setGraphStat ?_) (.exchangeBanks hs.gStage hs1))
      (.raiseEvt <| .wr <| .wr <| .setGraphStat hs))
    exact { hs1 with gWait := by simpa using hs.gStage }

protected theorem discardGraph {p : Nat} (hs : Canon cmds s) : Canon cmds (discardGraph p s).2 := by
  unfold discardGraph
  split
  · exact hs
  · exact .ite_snd { hs with gStage := bytesOk_nil } (.setGraphStat hs)

protected theorem exchangeWaiting (hs : Canon cmds s) : Canon cmds (exchangeWaiting s) := by
  unfold exchangeWaiting
  split
  · exact .exchangeBanks (hs.gWait _ ‹_›) hs
  · exact hs

protected theorem setVimgStat {v : Nat} (hs : Canon cmds s) : Canon cmds (setVimgStat v s) :=
  .wr hs

protected theorem vimgPut {o : Nat} {bs : List Byte} (hs : Canon cmds s) : Canon cmds (vimgPut o bs s) :=
  .setVimgStat { hs with buf := bytesOk_putBytes _ _ hs.buf }

/-- The vendor engine takes a command or ends one. -/
theorem vimgCmd {c : Option VimgCmd} (hs : Canon cmds s) : Canon cmds { s with vimg := { s.vimg with cmd := c } } :=
  { hs with }

protected theorem vimgDataAccess {v : Option Word} (hs : Canon cmds s) : Canon cmds (vimgDataAccess v s) := by
  unfold vimgDataAccess
  exact .wr (by split; exacts [.ite (.vimgPut hs) hs, .frame hs])

protected theorem vimgVerify (hs : Canon cmds s) : Canon cmds (vimgVerify s) :=
  .ite hs (.setVimgStat hs.vimgCmd)

protected theorem vimgVerified (hs : Canon cmds s) : Canon cmds (vimgVerified s) :=
  .ite hs (.ite (.wr <| .setVimgStat hs.vimgCmd) (.setVimgStat hs.vimgCmd))

protected theorem vendorSet (hs : Canon cmds s) : Canon cmds (vendorSet s) := by
  unfold vendorSet
  exact .wrAll hs

/-- A section of an image is moved into a sequencer's vendor region. -/
protected theorem vendorCopy {v : VImage} {q : Nat} (hv : imageOk v) (hs : Canon cmds s) :
    Canon cmds (vendorCopy v s q) :=
  .raiseEvt <| .wrAll
    { hs with stores := bytesOk_mapSplice _ _ (bytesOk_mapShift_mapTake _ _ _ (bytesOk_imageBytes hv)) hs.stores }

protected theorem vendorLoad {v : VImage} (hv : imageOk v) (hs : Canon cmds s) : Canon cmds (vendorLoad v s) :=
  .vendorSet <| .wr <| .foldl (.vendorCopy hv) { hs with image := hv }

protected theorem vimgLoad (hs : Canon cmds s) : Canon cmds (vimgLoad s) :=
  .ite (.vendorLoad hs.buf hs) hs

protected theorem vimgInstall (hs : Canon cmds s) : Canon cmds (vimgInstall s) :=
  .ite hs (.ite (.setVimgStat hs) (.setVimgStat hs.vimgCmd))

protected theorem vimgInstalled {ok : Bool} (hs : Canon cmds s) : Canon cmds (vimgInstalled ok s) := by
  unfold vimgInstalled
  extract_lets v img v0 v1 s1 s2
  have hv0 : Canon cmds { s with vimg := { v0 with cmd := none } } := by
    unfold v0
    split
    exacts [{ hs with slotA := trivial }, { hs with slotB := trivial }]
  have hs1 : Canon cmds s1 := by
    unfold s1 v1
    split
    exacts [{ hs with slotA := hs.buf }, { hs with slotB := hs.buf }]
  have hs2 : Canon cmds s2 := .wr <| .setVimgStat hs1
  exact .ite hs (.ite (.setVimgStat hv0) (.ite (.vendorLoad (v := img) hs.buf hs2) hs2))

protected theorem vimgDiscard (hs : Canon cmds s) : Canon cmds (vimgDiscard s) :=
  .setVimgStat { hs with buf := bytesOk_nil }

protected theorem seqModeWrite {q : Nat} {mode : Bool} (hs : Canon cmds s) : Canon cmds (seqModeWrite q mode s) := by
  unfold seqModeWrite
  exact .ite hs (.ite (.raiseEvt hs) (.ite hs (.setSeq <| .frame <| .wr hs)))

/-! ## Resets -/

protected theorem resetRegs {pg : Nat} (hs : Canon cmds s) : Canon cmds (resetRegs pg s) := by
  unfold resetRegs
  split
  · exact hs
  · exact .foldl (fun h => .ite h (.setReg h)) { hs with regs := mapOk_mapDrop _ _ hs.regs }

protected theorem dropPageWork {pg : Nat} (hs : Canon cmds s) : Canon cmds (dropPageWork pg s) :=
  { hs with staging := fun e he => hs.staging e (List.mem_of_mem_filter he) }

protected theorem cancelBranches {q : Nat} (hs : Canon cmds s) : Canon cmds (cancelBranches q s) := by
  unfold cancelBranches
  exact .foldl (fun h => .commitGate <| .setSeq h) hs

protected theorem calResetPage {pt : PT} {n : Nat} (hs : Canon cmds s) : Canon cmds (calResetPage pt n s) := by
  unfold calResetPage
  split
  · exact .calResetSeq hs
  · exact .calResetUnit hs
  · exact .calResetUnit hs
  · exact .calResetUnit hs
  · exact .calResetUnit hs
  · exact .calResetUnit hs
  · exact .calResetUnit hs
  · exact .calResetUnit hs
  · exact hs

protected theorem calEmpty (hs : Canon cmds s) : Canon cmds (calEmpty s) := by
  unfold calEmpty
  extract_lets
  split
  · exact .endBoundary <| .copyReady <| .stopSegments <| .frame hs
  · exact .copyReady <| .stopSegments <| .frame hs

protected theorem outReset {out : Nat} (hs : Canon cmds s) : Canon cmds (outReset out s) :=
  .frame hs

protected theorem resetWork {pt : PT} {n : Nat} (hs : Canon cmds s) : Canon cmds (resetWork pt n s) := by
  unfold resetWork
  extract_lets _ _ _ _ _ s1 _ _ _ _ _ _ _ s1'
  have hs1 : Canon cmds s1 := .setSeq hs
  have hs1' : Canon cmds s1' := .frame hs
  split
  · exact .bypassUpdate hs
  · exact .frame hs
  · exact .applyDemand <| .frame hs
  · exact .frame hs
  · exact { hs with buf := bytesOk_nil }
  · exact .frame hs
  · exact .frame hs
  · exact .frame hs
  · exact .frame <| .routerEnabled hs
  · exact .calEmpty hs
  · exact .ite (.sourceApplied hs1) hs1
  · exact .outReset hs
  · exact .outReset hs
  · exact .setRdi <| .foldl .setDemod (.foldl .dmReset hs)
  · exact .ladleEnabled <| .frame hs
  · exact .wrAll { hs with gStage := bytesOk_nil }
  · exact .setCap <| .frame hs
  · exact .frame hs
  · exact .restart <| .frame hs
  · exact .portPrbs <| .bypassUpdate <| .ringRefresh <| .frame <| .setRPort hs
  · exact .portPrbs <| .ite (.hostRefresh hs1') (.hostEnterMode hs1')
  · exact hs

protected theorem softReset {pg : Nat} (hs : Canon cmds s) : Canon cmds (softReset pg s) := by
  unfold softReset
  split
  · exact hs
  · extract_lets s0 s1 _ _ s4 s5
    have hs0 : Canon cmds s0 := .ite (.lineCatch hs) (.ite (.setOut hs) (.ite (.setOut hs) (.ite (.noteRate hs) hs)))
    have hs1 : Canon cmds s1 := .ite (.stopBlock hs0) hs0
    have hs4 : Canon cmds s4 := .frame <| .dropPageWork <| .calResetPage <| .ite (.cancelBranches hs1) hs1
    have hs5 : Canon cmds s5 := .ite (.standAsideWrite <| .releaseWrite hs4) hs4
    exact .ite (.setReg hs4) (.ite (.freed <| .resetWork <| .resetRegs hs5) (.resetWork <| .resetRegs hs5))

protected theorem fluxHandover {g : Nat} (hs : Canon cmds s) : Canon cmds (fluxHandover g s) := by
  unfold fluxHandover
  exact .foldl .setFlux (.resetRegs <| .foldl .parkHandover hs)

protected theorem seqRecheck {q : Nat} (hs : Canon cmds s) : Canon cmds (seqRecheck q s) := by
  unfold seqRecheck
  extract_lets img s1 s2
  have hs1 : Canon cmds s1 := .ite (.vendorSet <| .vendorCopy hs.vimgNewest hs) hs
  exact .ite (.storeGood hs1) (.candidate_ <| .raiseFault <| .setSeq <| .frame hs1)

protected theorem softResetDone {pg : Nat} (hs : Canon cmds s) : Canon cmds (softResetDone pg s) := by
  unfold softResetDone
  split
  · exact hs
  · split
    · exact hs
    · extract_lets s1 _ s2 s3
      have hs1 : Canon cmds s1 := .ite (.fluxHandover hs) hs
      have hs2 : Canon cmds s2 := hs1.copyImages
      have hs3 : Canon cmds s3 := .ite (.exchangeWaiting hs2) hs2
      exact .frame <| .ite (.seqRecheck hs3) hs3

protected theorem pageLock {pg : Nat} (hs : Canon cmds s) : Canon cmds (pageLock pg s) := by
  unfold pageLock
  split
  exacts [hs, .wr hs]

protected theorem autoSel {pg : Nat} (hs : Canon cmds s) : Canon cmds (autoSel pg s) := by
  unfold autoSel
  exact .foldl (fun h => .ite (.pendSub h) h) hs

protected theorem forceSpareSel {pg : Nat} (hs : Canon cmds s) : Canon cmds (forceSpareSel pg s) := by
  unfold forceSpareSel
  split
  · exact .ite (.pendSub hs) hs
  · exact .pendSub hs
  · exact .pendSub hs
  · exact .pendSub hs
  · exact .pendSub hs
  · exact .ite (.pendSub hs) hs
  · exact .ite hs (.pendSub hs)
  · exact .thermSel hs
  · exact hs

protected theorem forcePrimarySel {pg : Nat} (hs : Canon cmds s) : Canon cmds (forcePrimarySel pg s) := by
  unfold forcePrimarySel
  split
  exacts [.thermSel hs, .ite (.frame hs) hs, hs]

protected theorem spareSelWrite {pg v : Nat} (hs : Canon cmds s) : Canon cmds (spareSelWrite pg v s) := by
  unfold spareSelWrite
  split
  · exact hs
  · extract_lets
    split
    · exact .ite (.wr hs) (.forceSpareSel <| .wr hs)
    · exact .forcePrimarySel <| .wr hs
    · exact .wr hs
    · exact .autoSel <| .wr hs

protected theorem pgFields {pg : Nat} {v : Word} (hs : Canon cmds s) : Canon cmds (pgFields pg v s) := by
  unfold pgFields
  exact .ite
      (.enableBlock <| .spareSelWrite <| .ite (.pageLock hs) hs)
      (.disableBlock <| .spareSelWrite <| .ite (.pageLock hs) hs)

protected theorem pgCtrlWrite {pg : Nat} {v : Word} (hs : Canon cmds s) : Canon cmds (pgCtrlWrite pg v s) :=
  .pgFields <| .ite (.softReset hs) hs

/-! ## Retire -/

protected theorem leaveLedger {p : Nat} (hs : Canon cmds s) : Canon cmds (leaveLedger p s) :=
  .raiseFault <| .raiseBit <| .setPort hs

protected theorem withdrawEffect {p : Nat} (hs : Canon cmds s) : Canon cmds (withdrawEffect p s) :=
  .ite (.withdrawUnit hs) hs

protected theorem settleOne {p : Nat} (hs : Canon cmds s) : Canon cmds (settleOne p s) := by
  unfold settleOne
  exact .withdrawEffect <| .ite (.leaveLedger <| .frame hs) (.frame hs)

protected theorem settleFreed {p : Nat} (hs : Canon cmds s) : Canon cmds (settleFreed p s) :=
  .withdrawEffect <| .frame hs

protected theorem setChState {ch v : Nat} (hs : Canon cmds s) : Canon cmds (setChState ch v s) :=
  .wr hs

protected theorem setRetStat {st ch mb : Nat} (hs : Canon cmds s) : Canon cmds (setRetStat st ch mb s) :=
  .wrAll hs

protected theorem evacBegin (hs : Canon cmds s) : Canon cmds (evacBegin s) := by
  unfold evacBegin
  split
  exacts [hs, .ite (.setRetStat <| .setChState hs) hs]

protected theorem settleWithdrawn (hs : Canon cmds s) : Canon cmds (settleWithdrawn s) := by
  unfold settleWithdrawn
  exact .evacBegin <| .foldl .settleFreed (.foldl .settleOne hs)

protected theorem releaseNow (hs : Canon cmds s) : Canon cmds (releaseNow s) :=
  .evacBegin <| .releasePort hs

protected theorem withdrawPort {p : Nat} (hs : Canon cmds s) : Canon cmds (withdrawPort s p) := by
  unfold withdrawPort
  exact .ite (.ite hs (.frame hs)) (.settleOne <| .ite hs (.frame hs))

protected theorem freePort {p : Nat} (hs : Canon cmds s) : Canon cmds (freePort p s) := by
  unfold freePort
  exact .ite (.leaveLedger <| .frame hs) (.settleFreed <| .leaveLedger <| .frame hs)

protected theorem shedLedger {cap : Nat} :
    ∀ {l : List Nat} {s : State}, Canon cmds s → Canon cmds (shedLedger cap l s)
  | [], _, hs => hs
  | _ :: _, _, hs => .ite hs (.ite (Canon.shedLedger <| .freePort hs) (Canon.shedLedger hs))

protected theorem withdrawAbove {limit : Nat} (hs : Canon cmds s) : Canon cmds (withdrawAbove limit s) :=
  .foldl .withdrawPort hs

protected theorem withdrawFor (hs : Canon cmds s) : Canon cmds (withdrawFor s) := by
  unfold withdrawFor
  exact .withdrawAbove <| .shedLedger hs

protected theorem retireChannel {ch mb : Nat} {s0 : State} (hs0 : Canon cmds s0) :
    Canon cmds (retireChannel ch mb s0) := by
  unfold retireChannel
  extract_lets s _ s1
  have hs : Canon cmds s := .ite hs0 (.withdrawFor hs0)
  have hs1 : Canon cmds s1 := { hs with pantry := mapOk_filter _ hs.pantry }
  exact .raiseEvt <| .wr <| .setRetStat <| .setChState <| .finishSub hs1

protected theorem startRetire {ch : Nat} (hs : Canon cmds s) : Canon cmds (startRetire ch s) :=
  .evacBegin <| .withdrawFor <| .frame <| .setRetStat hs

protected theorem keepLast {ch : Nat} (hs : Canon cmds s) : Canon cmds (keepLast ch s) :=
  .wr <| .frame hs

protected theorem retirementStart {ch : Nat} (hs : Canon cmds s) : Canon cmds (retirementStart ch s) :=
  .ite hs (.ite (.keepLast hs) (.ite (.frame hs) (.startRetire hs)))

protected theorem retireNext (hs : Canon cmds s) : Canon cmds (retireNext s) := by
  unfold retireNext
  split
  exacts [hs, .ite hs (.ite (.frame hs) (.ite (.keepLast <| .frame hs) (.startRetire <| .frame hs)))]

protected theorem evacuationDone (hs : Canon cmds s) : Canon cmds (evacuationDone s) := by
  unfold evacuationDone
  split
  exacts [hs, .ite (.retireNext <| .retireChannel hs) hs]

protected theorem abruptRetire {ch : Nat} (hs : Canon cmds s) : Canon cmds (abruptRetire s ch) := by
  unfold abruptRetire
  extract_lets s1 s2
  have hs1 : Canon cmds s1 := .ite (.withdrawAbove <| .shedLedger hs) (.withdrawFor hs)
  have hs2 : Canon cmds s2 := { hs1 with pantry := mapOk_filter _ hs1.pantry }
  exact .raiseFault <| .retireChannel <| .logEvent hs2

protected theorem channelLoss {ch : Nat} (hs : Canon cmds s) : Canon cmds (channelLoss ch s) :=
  .ite hs (.retireNext <| .frame (by split; exacts [.abruptRetire hs, .foldl .abruptRetire (.frame hs)]))

/-! ## Reads -/

protected theorem readEffect {p : Path} {pt : PT} {n off : Nat} {v : Word} (hs : Canon cmds s) :
    Canon cmds (readEffect p pt n off v s) := by
  unfold readEffect
  extract_lets
  split
  · exact .setRlatch <| .frame hs
  · split
    · exact .ite (.setRlatch <| .setRlatch <| .frame hs) (.frame hs)
    · exact .ite
          (.mtRead hs)
          (.ite
             (.ite (.frame hs) (.setRlatch <| .frame hs))
             (.ite (.tsuRead hs) (.ite (.frame <| .frame hs) (.frame hs))))
    · exact .ite (.frame <| .pwinReadDone <| .portDone hs) (.frame hs)
    · exact .ite (.frame <| .mapRead hs) (.frame hs)
    · exact .ite (.logRead hs) (.ite (.vimgDataAccess <| .portDone hs) (.frame hs))
    · exact .ite (.traceRead hs) (.frame hs)
    · exact .ite (.frame <| .slotAdvance hs) (.frame hs)
    · exact .ite (.frame <| .wr hs) (.frame hs)
    · refine .ite ?_ (.ite ?_ (.frame hs))
      · split
        exact .frame <| .of_pair ‹_› <| .freeDraw hs
      · split
        exact .frame <| .of_pair ‹_› <| .freeDraw hs
    · exact .frame hs

protected theorem blockWork {pt : PT} {n : Nat} (hs : Canon cmds s) : Canon cmds (blockWork pt n s) := by
  unfold blockWork
  split
  · exact .seqTick hs
  · exact .outCatch hs
  · exact .outCatch hs
  · exact .fluxGroupCatch hs
  · exact .inputCatch hs
  · exact .ladleCatch hs
  · exact .seamCatch hs
  · exact .lineCatch hs
  · exact .rtCatch <| .ladleCatch hs
  · exact hs

protected theorem blockDone {b : PT × Nat} (hs : Canon cmds s) : Canon cmds (blockDone s b) :=
  .blockWork <| .ite hs (.atTick .blockWork hs)

protected theorem allWork (hs : Canon cmds s) : Canon cmds (allWork s) :=
  .foldl .blockDone (.laterCatch hs)

protected theorem blockCatch {pt : PT} {n : Nat} (hs : Canon cmds s) : Canon cmds (blockCatch pt n s) := by
  unfold blockCatch
  split
  exacts [.allWork hs, .allWork hs, .blockDone hs]

protected theorem busRead {p : Path} {a : Nat} {s0 : State} (hs0 : Canon cmds s0) : Canon cmds (busRead p a s0) := by
  unfold busRead
  extract_lets s
  have hs : Canon cmds s := by unfold s; split; exacts [.ite (.blockCatch hs0) hs0, hs0]
  refine .ite (.ite (.frame hs) (.earlyAcc <| .frame hs)) ?_
  split
  exacts [.frame hs, .ite (.earlyAcc <| .frame hs) (.readEffect hs)]

/-! ## Startup -/

/-- A module reset keeps some registers and images as they stand and the queue; all else is as at power-on. -/
protected theorem moduleReset {fresh mgmt : Bool} {cause ph : Nat} (hs : Canon cmds s) :
    Canon cmds (moduleReset fresh mgmt cause ph s) := by
  unfold moduleReset
  extract_lets lost _ _ _ s1
  have hs1 : Canon cmds s1 :=
    { queue := hs.queue
      regs := mapOk_filter _ hs.regs
      stores := by unfold s1; split; exacts [bytesOk_nil, hs.stores]
      staging := by simp [s1]
      gStage := bytesOk_nil
      accepted := by unfold s1; split; exacts [by simp, hs.accepted]
      gWait := by unfold s1; split; exacts [by simp, hs.gWait]
      buf := bytesOk_nil
      slotA := hs.slotA
      slotB := hs.slotB
      held := trivial
      image := trivial
      pantry := rfl }
  exact .wr <| .wr <| .wr <| .wr <| .foldl .setSeq hs1

protected theorem swrst {v : Word} (hs : Canon cmds s) : Canon cmds (swrst v s) :=
  .ite (.moduleReset hs) hs

protected theorem rstNAssert (hs : Canon cmds s) : Canon cmds (rstNAssert s) := by
  unfold rstNAssert
  exact .ite (.frame hs) (.frame <| .moduleReset <| .frame hs)

protected theorem rstNRelease {straps : BitVec 4} (hs : Canon cmds s) : Canon cmds (rstNRelease straps s) := by
  unfold rstNRelease
  exact .ite (.frame hs) (.frame <| .frame hs)

protected theorem powerOn {straps : BitVec 4} (hs : Canon cmds s) : Canon cmds (powerOn straps s) :=
  .ite hs (.frame <| .setReg <| .moduleReset hs)

protected theorem powerLoss (hs : Canon cmds s) : Canon cmds (powerLoss s) := by
  unfold powerLoss
  exact .frame <| .moduleReset hs

protected theorem shutdownExit (hs : Canon cmds s) : Canon cmds (shutdownExit s) :=
  .ite (.applyDemand <| .moduleReset hs) hs

protected theorem brownoutRestart (hs : Canon cmds s) : Canon cmds (brownoutRestart s) :=
  .ite (.applyDemand <| .moduleReset hs) hs

protected theorem peripheralReset (hs : Canon cmds s) : Canon cmds (peripheralReset s) :=
  .wr <| .frame hs

protected theorem targetReset (hs : Canon cmds s) : Canon cmds (targetReset s) :=
  .ite (.peripheralReset hs) (.ite (.frame <| .moduleReset hs) hs)

protected theorem targetDone (hs : Canon cmds s) : Canon cmds (targetDone s) := by
  unfold targetDone
  exact .ite (.frame hs) (.ite (.frame <| .frame hs) (.requestIbi <| .frame <| .frame hs))

protected theorem applyEntry {e : Nat} (hs : Canon cmds s) : Canon cmds (applyEntry s e) := by
  unfold applyEntry
  extract_lets kind _ _ _ _ _ s1
  have hs1 : Canon cmds s1 := .wr <| .setWear hs
  clear_value s1 kind
  refine .ite hs ?_
  split
  · exact .wr <| .wr <| .setRole <| .setRole hs1
  · exact .wr <| .bump hs1
  · exact .ite hs1 (.wr <| .setChState <| .frame hs1)
  · exact hs1
  · exact .serveUnit hs1

protected theorem phaseNvm (hs : Canon cmds s) : Canon cmds (phaseNvm s) :=
  .wr <| .foldl .applyEntry { hs with held := hs.vimgNewest }

protected theorem selfTest {rows : List Nat} (hs : Canon cmds s) : Canon cmds (selfTest rows s) :=
  .foldl .candidate_ hs

protected theorem phaseConverters {rows : List Nat} (hs : Canon cmds s) : Canon cmds (phaseConverters rows s) := by
  unfold phaseConverters
  extract_lets _ s1 u b t s2 s3
  have hs1 : Canon cmds s1 := .foldl .fluxHandover (.foldl .fluxOn hs)
  have hu : Canon cmds u := .selfTest hs1
  have ht : Canon cmds t := .exchangeWaiting (.foldl_mem (fun e he => .copyImage (hs1.accepted e he)) hs1)
  have hclear (b' : Boot) : Canon cmds { u with
      stores := [], accepted := [], gWait := none, committed := [], unchecked := [], boot := b' } := by
    clear_value u
    exact { hu with stores := bytesOk_nil, accepted := nofun, gWait := nofun }
  have hs2 : Canon cmds s2 := .ite (hclear _) (.wrAll ht)
  clear_value s2
  have hs3 : Canon cmds s3 := .setDoms hs2
  exact .ite hs3 (.vendorLoad hs3.held hs3)

protected theorem phaseTraining {bad : BitVec 32} (hs : Canon cmds s) : Canon cmds (phaseTraining bad s) := by
  unfold phaseTraining
  exact .foldl (fun h => .abruptRetire <| .raiseFault h) (.foldl (fun h => .ite h (.setChState h)) hs)

protected theorem phaseEnds {ph : Nat} {bad : BitVec 32} {rows : List Nat} (hs : Canon cmds s) :
    Canon cmds (phaseEnds ph bad rows s) := by
  unfold phaseEnds
  split
  exacts [.applyDemand hs, .phaseNvm hs, .wr hs, .phaseConverters hs, .phaseTraining hs, hs]

protected theorem phaseBegins {ph : Nat} (hs : Canon cmds s) : Canon cmds (phaseBegins ph s) := by
  unfold phaseBegins
  exact .ite (.wr <| .wr hs) (.wr hs)

protected theorem startupPhaseDone {ok : Bool} {bad : BitVec 32} {rows : List Nat} (hs : Canon cmds s) :
    Canon cmds (startupPhaseDone ok bad rows s) := by
  unfold startupPhaseDone
  exact .ite hs
      (.ite hs
         (.ite (.logEvent <| .wr hs) (.ite (.bypassUpdate <| .wr <| .phaseEnds hs) (.phaseBegins <| .phaseEnds hs))))

protected theorem refInValid (hs : Canon cmds s) : Canon cmds (refInValid s) :=
  .wr <| .refReturn hs

/-! ## Writes -/

protected theorem portWrite {p a place : Nat} {put : Nat → Word → State → State} {next : Word → State → State}
    {v : Word} (hput : ∀ {x1 x2 t}, Canon cmds t → Canon cmds (put x1 x2 t))
    (hnext : ∀ {x1 t}, Canon cmds t → Canon cmds (next x1 t)) (hs : Canon cmds s) :
    Canon cmds (portWrite p a place put next v s) := by
  unfold portWrite
  exact .ite (.frame <| .foldl hput (hnext hs)) (.foldl hput (hnext hs))

protected theorem pwinWriteBy {p : Nat} {v : Word} (hs : Canon cmds s) : Canon cmds (pwinWriteBy p v s) := by
  unfold pwinWriteBy
  exact .portWrite (fun h => .ite (.changePut h) h) .pwinWrite hs

protected theorem vimgWriteBy {p : Nat} {v : Word} (hs : Canon cmds s) : Canon cmds (vimgWriteBy p v s) :=
  .portWrite (fun h => .ite (.vimgPut h) h) .vimgDataAccess hs

protected theorem vimgAccess {v : Option Word} (hs : Canon cmds s) : Canon cmds (vimgAccess v s) := by
  unfold vimgAccess
  split
  exacts [.vimgWriteBy hs, .vimgDataAccess <| .portDone hs]

protected theorem clearW1c {a : Nat} {mask v : Word} (hs : Canon cmds s) : Canon cmds (clearW1c a mask v s) :=
  .ite hs (.setReg hs)

protected theorem plainWrite {pt : PT} {n off : Nat} {v : Word} (hs : Canon cmds s) :
    Canon cmds (plainWrite pt n off v s) := by
  unfold plainWrite
  split
  · exact hs
  · exact .ite
        (.ite (.clearW1c hs) (.applyBits <| .clearW1c hs))
        (.shadowWrite <| .ite (.clearW1c hs) (.applyBits <| .clearW1c hs))

/-- The actions of a register's bits. -/
protected theorem bitActs {v : Word} {acts : List (Nat × (State → State))}
    (hacts : acts.Forall (fun | (_, f) => ∀ {t}, Canon cmds t → Canon cmds (f t))) (hs : Canon cmds s) :
    Canon cmds (bitActs v acts s) :=
  .foldl_mem (fun a ha _ ht => .ite (List.forall_iff_forall_mem.1 hacts a ha ht) ht) hs

protected theorem sysWrite {off : Nat} {v : Word} (hs : Canon cmds s) : Canon cmds (sysWrite off v s) := by
  unfold sysWrite
  split
  exacts [.swrst hs, .standAsideWrite <| .releaseWrite hs, .plainWrite hs]

protected theorem mgmtWrite {off : Nat} {v : Word} (hs : Canon cmds s) : Canon cmds (mgmtWrite off v s) := by
  unfold mgmtWrite
  exact .ite (.pwinPrefetch <| .plainWrite <| .ite (.portDone hs) hs) (.plainWrite <| .ite (.portDone hs) hs)

protected theorem pwrWrite {off : Nat} {v : Word} (hs : Canon cmds s) : Canon cmds (pwrWrite off v s) := by
  unfold pwrWrite
  exact .ite (.applyDemand <| .plainWrite hs) (.plainWrite hs)

protected theorem nvmWrite {off : Nat} {v : Word} (hs : Canon cmds s) : Canon cmds (nvmWrite off v s) := by
  unfold nvmWrite
  split
  · exact .logClear hs
  · exact .bitActs ⟨.vimgDiscard, .vimgVerify, .vimgInstall, .vimgLoad⟩ hs
  · exact .plainWrite <| .ite (.portDone hs) hs

protected theorem healthWrite {off : Nat} {v : Word} (hs : Canon cmds s) : Canon cmds (healthWrite off v s) :=
  .ite (.hmClear hs) (.ite (.hmCfgWrite hs) (.plainWrite hs))

protected theorem policyOn {k : Nat} (hs : Canon cmds s) : Canon cmds (policyOn k s) := by
  unfold policyOn
  exact .foldl (fun h => .ite (.pendSub h) h) hs

protected theorem spareWrite {off : Nat} {v : Word} (hs : Canon cmds s) : Canon cmds (spareWrite off v s) :=
  .ite (.bitActs .mapClear hs) (.ite (.ite (.policyOn <| .plainWrite hs) (.plainWrite hs)) (.plainWrite hs))

protected theorem monWrite {off : Nat} {v : Word} (hs : Canon cmds s) : Canon cmds (monWrite off v s) := by
  unfold monWrite
  split
  · exact .ite (.plainWrite hs) (.setMon <| .plainWrite hs)
  · exact .bitActs ⟨.scalZero, .scalFull⟩ hs
  · exact .ite (.setMon <| .plainWrite hs) (.plainWrite hs)

protected theorem timeWrite {off : Nat} {v : Word} (hs : Canon cmds s) : Canon cmds (timeWrite off v s) := by
  unfold timeWrite
  extract_lets s1
  have hs1 : Canon cmds s1 := .plainWrite <| .ite (.noteRate hs) hs
  split
  · exact .bitActs ⟨.alignArm, .mtStep, .servoRst⟩ hs
  · exact .servoOfs hs
  · exact .bitActs .rxqPop (.plainWrite hs)
  · exact .bitActs .rxqPop (.plainWrite hs)
  · exact .ite (.frame hs1) hs1

protected theorem tbusWrite {off : Nat} {v : Word} (hs : Canon cmds s) : Canon cmds (tbusWrite off v s) := by
  unfold tbusWrite
  exact .ite (.frame <| .plainWrite hs) (.plainWrite hs)

protected theorem evtWrite {off : Nat} {v : Word} (hs : Canon cmds s) : Canon cmds (evtWrite off v s) :=
  .ite (.fireWrite hs) (.ite (.lineDisWrite hs) (.plainWrite hs))

protected theorem crcWrite {p : Path} {off : Nat} {v : Word} (hs : Canon cmds s) : Canon cmds (crcWrite p off v s) :=
  .ite
    (by
       extract_lets
       split
       exacts [.ctxCfgWrite <| .feedsDone hs, .ctxValWrite <| .feedsDone hs, .feedOrdered hs, hs])
    (.ite (.feedOrdered hs) (.plainWrite hs))

protected theorem calWrite {off : Nat} {v : Word} (hs : Canon cmds s) : Canon cmds (calWrite off v s) := by
  unfold calWrite
  extract_lets s1
  have hs1 : Canon cmds s1 := .plainWrite hs
  refine .ite (.ite (.calKick hs1) hs1) ?_
  split
  exacts [.ite (.bitActs ⟨.submit, .clearSlot, .cancelSlot⟩ hs) hs, .ite hs (.plainWrite hs)]

protected theorem seqCfgWrite {q : Nat} {v : Word} (hs : Canon cmds s) : Canon cmds (seqCfgWrite q v s) := by
  unfold seqCfgWrite
  exact .ite
      (.shadowWrite hs)
      (.ite
         (.raiseEvt <| .shadowWrite hs)
         (.seqModeWrite <|
            .calKick <| .freed <| .gated .wr (.ite (.fluxGroupPark <| .shadowWrite hs) (.shadowWrite hs))))

protected theorem seqWrite {p : Path} {q off : Nat} {v : Word} (hs : Canon cmds s) :
    Canon cmds (seqWrite p q off v s) := by
  unfold seqWrite
  split
  · exact hs
  · split
    · exact .seqCfgWrite hs
    · exact .ite hs (.plainWrite hs)
    · exact .bitActs ⟨.commitReg, .discardStore⟩ hs
    · exact .softRequest hs
    · exact .bitActs .shotGo hs
    · exact .plainWrite hs

protected theorem loadCtrl {p : Path} {b : Nat} {v : Word} (hs : Canon cmds s) : Canon cmds (loadCtrl p b v s) :=
  .bitActs ⟨.commitReg, .discardStore⟩ hs

protected theorem outWrite {p : Path} {out off : Nat} {v : Word} (hs : Canon cmds s) :
    Canon cmds (outWrite p out off v s) := by
  unfold outWrite
  split
  exact .ite (.shadowWrite <| .muteWrite hs) (.ite (.loadCtrl hs) (.ite hs (.plainWrite hs)))

protected theorem rdiWrite {p : Path} {n off : Nat} {v : Word} (hs : Canon cmds s) :
    Canon cmds (rdiWrite p n off v s) :=
  .ite (.loadCtrl hs) (.plainWrite hs)

protected theorem flxWrite {p : Path} {g off : Nat} {v : Word} (hs : Canon cmds s) :
    Canon cmds (flxWrite p g off v s) :=
  .ite
    (.loadCtrl hs)
    (.ite (.shadowWrite <| .parkNowWrite hs) (.ite (.shadowWrite <| .bitActs .pdClrWrite hs) (.plainWrite hs)))

protected theorem ladleWrite {off : Nat} {v : Word} (hs : Canon cmds s) : Canon cmds (ladleWrite off v s) := by
  unfold ladleWrite
  refine .ite (.dchWrite hs) ?_
  split
  · exact .bitActs ⟨.clrEntriesNow, .clrLost⟩ hs
  · exact .slotBindWrite hs
  · exact .slotCfgWrite hs
  · exact .plainWrite hs

protected theorem mortarWrite {p : Path} {off : Nat} {v : Word} (hs : Canon cmds s) :
    Canon cmds (mortarWrite p off v s) := by
  unfold mortarWrite
  split
  exacts [.bitActs ⟨.commitGraph, .discardGraph⟩ hs, .plainWrite hs]

protected theorem capWrite {u off : Nat} {v : Word} (hs : Canon cmds s) : Canon cmds (capWrite u off v s) := by
  unfold capWrite
  extract_lets s1
  have hs1 : Canon cmds s1 := .plainWrite hs
  exact .ite
      (.bitActs ⟨.armUnit, .abortUnit, .clrCapCounts⟩ hs)
      (.ite hs (.ite (.ite (.egrOpen hs1) hs1) (.ite hs (.plainWrite hs))))

protected theorem portSet {f : Port → Port} (hs : Canon cmds s) : Canon cmds (portSet s f) := by
  unfold portSet
  exact .ite hs (.setPort hs)

protected theorem pantryWrite {off : Nat} {v : Word} (hs : Canon cmds s) : Canon cmds (pantryWrite off v s) := by
  unfold pantryWrite
  extract_lets
  split
  · exact .portSet hs
  · exact .portSet hs
  · exact .portSet hs
  · exact .portSet hs
  · exact .bitActs ⟨.admitPort, .releaseNow⟩ hs
  · exact .ite (.setPort hs) hs
  · exact .ite (.mapMaskWrite hs) (.plainWrite hs)

protected theorem laneCfgWrite {n : Nat} {v : Word} (hs : Canon cmds s) : Canon cmds (laneCfgWrite n v s) := by
  unfold laneCfgWrite
  exact .ite (.raiseEvt hs) (.readyRefresh <| .laneChange .plainWrite hs)

protected theorem laneWrite {n off : Nat} {v : Word} (hs : Canon cmds s) : Canon cmds (laneWrite n off v s) := by
  unfold laneWrite
  split
  · exact .laneCfgWrite hs
  · exact .laneChange .plainWrite hs
  · exact .prbsErrWrite hs
  · exact .bitActs ⟨.slip, .restart, .prbsClr⟩ hs
  · exact .plainWrite hs

protected theorem ringWrite {r off : Nat} {v : Word} (hs : Canon cmds s) : Canon cmds (ringWrite r off v s) := by
  unfold ringWrite
  split
  exacts [.ite (.ringAddrWrite hs) hs, .plainWrite hs]

protected theorem hostWrite {h off : Nat} {v : Word} (hs : Canon cmds s) : Canon cmds (hostWrite h off v s) := by
  unfold hostWrite
  split
  exacts [.hostModeWrite <| .plainWrite hs, .fecWrite hs, .plainWrite hs]

protected theorem commonWrite {pg : Nat} {pt : PT} {n off : Nat} {v : Word} (hs : Canon cmds s) :
    Canon cmds (commonWrite pg pt n off v s) :=
  .ite (.pgCtrlWrite hs) (.ite (.notePending <| .plainWrite hs) (.plainWrite hs))

protected theorem pageWrite {p : Path} {pg : Nat} {pt : PT} {n off : Nat} {v : Word} (hs : Canon cmds s) :
    Canon cmds (pageWrite p pg pt n off v s) := by
  unfold pageWrite
  split
  · exact .commonWrite hs
  · split
    · exact hs
    · split
      · exact .sysWrite hs
      · exact .ite (.pwinWriteBy hs) (.mgmtWrite hs)
      · exact .pwrWrite hs
      · exact .ite (.vimgWriteBy hs) (.nvmWrite hs)
      · exact .healthWrite hs
      · exact .spareWrite hs
      · exact .monWrite hs
      · exact .timeWrite hs
      · exact .tbusWrite hs
      · exact .evtWrite hs
      · exact .crcWrite hs
      · exact .calWrite hs
      · exact .seqWrite hs
      · exact .outWrite hs
      · exact .outWrite hs
      · exact .rdiWrite hs
      · exact .flxWrite hs
      · exact .ladleWrite hs
      · exact .mortarWrite hs
      · exact .capWrite hs
      · exact .pantryWrite hs
      · exact .laneWrite hs
      · exact .ringWrite hs
      · exact .hostWrite hs
      · exact .plainWrite hs
      · exact .plainWrite hs
      · exact .plainWrite hs

protected theorem setWlatch {p : Path} {a : Nat} {v : Word} (hs : Canon cmds s) : Canon cmds (setWlatch p a v s) :=
  .frame hs

protected theorem pathWrite {p : Path} {pg : Nat} {pt : PT} {n off : Nat} {v : Word} (hs : Canon cmds s) :
    Canon cmds (pathWrite p pg pt n off v s) :=
  .ite (.setWlatch hs) (.ite (.pageWrite <| .pageWrite hs) (.pageWrite hs))

protected theorem noteWrite {p : Path} {a : Nat} (hs : Canon cmds s) : Canon cmds (noteWrite p a s) :=
  .ite (.frame hs) hs

protected theorem orderedWrite {p : Path} {pg : Nat} {pt : PT} {n off : Nat} {v : Word} (hs : Canon cmds s) :
    Canon cmds (orderedWrite p pg pt n off v s) := by
  unfold orderedWrite
  exact .ite (.pathWrite hs) (.ite (.ite hs (.pathWrite hs)) (.noteWrite <| .pathWrite hs))

protected theorem pgPart {p : Path} {pg : Nat} {f : State → State} (hf : ∀ {t}, Canon cmds t → Canon cmds (f t))
    (hs : Canon cmds s) :
    Canon cmds (pgPart p pg f s) := by
  unfold pgPart
  exact .ite hs (.noteWrite <| hf (by split; exacts [.blockCatch hs, hs]))

protected theorem lockPart {p : Path} {pg : Nat} (hs : Canon cmds s) : Canon cmds (lockPart p pg s) :=
  .noteWrite <| .pageLock hs

protected theorem busWrite {p : Path} {a : Nat} {v : Word} (hs : Canon cmds s) : Canon cmds (busWrite p a v s) :=
  .ite
    (.ite (.apertureWrite hs) (.earlyAcc hs))
    (by split; exacts [hs, .ite (.orderedWrite <| .blockCatch hs) (.earlyAcc hs)])

/-! ## Outcome -/

protected theorem whenPath {p : Path} {f : State → State} (hf : ∀ {t}, Canon cmds t → Canon cmds (f t))
    (hs : Canon cmds s) :
    Canon cmds (whenPath p f s) :=
  .ite (hf hs) hs

protected theorem onPage {pg : Nat} {f : State → State} (hf : ∀ {t}, Canon cmds t → Canon cmds (f t))
    (hs : Canon cmds s) :
    Canon cmds (onPage pg f s) := by
  unfold onPage
  split
  exacts [hs, .ite (hf hs) (.earlyAcc hs)]

protected theorem wordWrite {p : Path} {a : Nat} {v : Word} (hs : Canon cmds s) : Canon cmds (wordWrite p a v s) :=
  .ite (.busWrite hs) hs

protected theorem apertureWord_ {p : Path} {a : Nat} {v : Word} (hs : Canon cmds s) :
    Canon cmds (apertureWord_ p a v s) :=
  .ite (.wordWrite hs) hs

/-! ## Host -/

protected theorem setHPort {h : Nat} {x : HPort} (hs : Canon cmds s) : Canon cmds (setHPort h x s) :=
  .frame hs

protected theorem bulkSend {h node msgid : Nat} {reply : Bool} {bytes : List Byte} (hs : Canon cmds s) :
    Canon cmds (bulkSend h node msgid reply bytes s) := by
  unfold bulkSend
  extract_lets
  split
  exact .ite (.of_pair ‹_› <| .freeDraw hs) (.setRPort <| .of_pair ‹_› <| .freeDraw hs)

protected theorem sendReply {h : Nat} {r : DxReply} (hs : Canon cmds s) : Canon cmds (sendReply h s r) :=
  .ite hs (by extract_lets; split; exacts [.setHPort <| .emit hs, .bulkSend hs])

protected theorem dropReqs {r : DxReply} (hs : Canon cmds s) : Canon cmds (dropReqs s r) := by
  unfold dropReqs
  split
  exacts [.frame hs, hs]

protected theorem flushReplies {h : Nat} (hs : Canon cmds s) : Canon cmds (flushReplies h s) := by
  unfold flushReplies
  exact .foldl (fun h => .dropReqs <| .sendReply h) (.setHPort hs)

protected theorem addReply {h : Nat} {r : DxReply} (hs : Canon cmds s) : Canon cmds (addReply h r s) := by
  unfold addReply
  exact .flushReplies <| .setHPort hs

protected theorem storePut {p space b off : Nat} {bs : List Byte} (hs : Canon cmds s) :
    Canon cmds (storePut p space b off bs s).2 :=
  .ite_snd hs
    (.ite_snd
       (.vimgPut hs)
       (.ite_snd
          (.stageGraph hs)
          (.ite_snd (.ite_snd hs (.stageBytes hs)) (.stageBytes <| .ite_snd hs (.stageBytes hs)))))

protected theorem writeWords {p : Path} :
    ∀ {n a : Nat} {bs : List Byte} {s : State}, Canon cmds s → Canon cmds (writeWords p n a bs s)
  | 0, _, _, _, hs => hs
  | n + 1, _, _, _, hs => Canon.writeWords (n := n) (.busWrite hs)

protected theorem readWords {p : Path} :
    ∀ {n a : Nat} {s : State}, Canon cmds s → Canon cmds (readWords p n a s).2
  | 0, _, _, hs => hs
  | n + 1, _, _, hs => Canon.readWords (n := n) (.busRead hs)

protected theorem pantryRun {h : Nat} {read : Bool} :
    ∀ {n a left : Nat} {bs : List Byte} {s : State}, Canon cmds s → Canon cmds (pantryRun h read n a left bs s)
  | 0, _, _, _, _, hs => hs
  | _ + 1, _, _, _, _, hs => .ite hs (Canon.pantryRun <| .acceptRequest hs)

protected theorem dxExec {h : Nat} {q : DxReq} (hs : Canon cmds s) : Canon cmds (dxExec h q s).2 := by
  unfold dxExec
  extract_lets
  split
  · exact .ite_snd hs (.writeWords hs)
  · exact .ite_snd hs (.readWords hs)
  · split
    exacts [.ite_snd hs (.storePut hs), hs]
  · split
    exacts [.ite_snd (.commitGraph hs) (.commitStore hs), hs]
  · split
    exacts [.ite_snd (.discardGraph hs) (.discardStore hs), hs]
  · split
    exacts [.ite_snd hs hs, hs]
  · exact .ite_snd hs (.pantryRun hs)
  · exact .ite_snd hs (.pantryRun hs)
  · exact hs

protected theorem badOp {h : Nat} {q : DxReq} (hs : Canon cmds s) : Canon cmds (badOp h q s) :=
  .addReply <| .bump hs

protected theorem dxHere {h : Nat} {q : DxReq} (hs : Canon cmds s) : Canon cmds (dxHere h q s) :=
  .ite (.badOp hs) (by extract_lets; split; exacts [.addReply <| .dxExec hs, .dxExec hs])

protected theorem tunnelOut {h m : Nat} {q : DxReq} (hs : Canon cmds s) : Canon cmds (tunnelOut h m q s) := by
  unfold tunnelOut
  exact .ite (.addReply <| .bulkSend <| .setHPort hs) (.bulkSend <| .setHPort hs)

protected theorem takeRequest {h : Nat} {src : BitVec 48} (hs : Canon cmds s) : Canon cmds (takeRequest h src s) := by
  unfold takeRequest
  exact .setHPort <| .wr hs

protected theorem dxRun {h : Nat} {src : BitVec 48} {q : DxReq} (hs : Canon cmds s) : Canon cmds (dxRun h src q s) :=
  .ite (by split; exacts [.tunnelOut <| .takeRequest hs, .setHPort hs]) (.dxHere <| .takeRequest hs)

protected theorem dxArrive {h : Nat} {src : BitVec 48} {q : DxReq} (hs : Canon cmds s) :
    Canon cmds (dxArrive h src q s) :=
  .ite hs (.ite (.raiseEvt <| .bump <| .takeRequest hs) (.ite (.setHPort hs) (.dxRun hs)))

protected theorem runStalled {h : Nat} : ∀ {n : Nat} {s : State}, Canon cmds s → Canon cmds (runStalled h n s)
  | 0, _, hs => hs
  | n + 1, s, hs => by
    unfold runStalled
    extract_lets
    split
    · exact hs
    · exact .ite hs (Canon.runStalled <| .dxRun <| .setHPort hs)

protected theorem filtered {h : Nat} (hs : Canon cmds s) : Canon cmds (filtered h s) :=
  .ite (.bump hs) hs

protected theorem request {h : Nat} {hd : DxHead} {op addr len : Nat} {bytes : List Byte} (hs : Canon cmds s) :
    Canon cmds (request h hd op addr len bytes s) :=
  .ite (.dxArrive hs) (.filtered hs)

protected theorem badOpRequest {h : Nat} {hd : DxHead} {op addr : Nat} (hs : Canon cmds s) :
    Canon cmds (badOpRequest h hd op addr s) :=
  .ite hs (.ite (.filtered hs) (.dxArrive hs))

protected theorem tunnelEnds {h m node status : Nat} {data : List Byte} (hs : Canon cmds s) :
    Canon cmds (tunnelEnds h m node status data s) := by
  unfold tunnelEnds
  exact .runStalled <| .flushReplies <| .setHPort hs

protected theorem tunnelIn {x : Frag} (hs : Canon cmds s) : Canon cmds (tunnelIn s x) := by
  unfold tunnelIn
  exact .ite (.tunnelEnds hs) (.ite hs (.dxHere hs))

protected theorem takeInbox (hs : Canon cmds s) : Canon cmds (takeInbox s) :=
  .foldl .tunnelIn (.frame hs)

protected theorem unreach {h m : Nat} (hs : Canon cmds s) : Canon cmds (unreach h m s) := by
  unfold unreach
  split
  exacts [by split; exacts [.tunnelEnds <| .raiseEvt hs, hs], hs]

protected theorem requestServed {id corr retries : Nat} {uncorr : Bool} (hs : Canon cmds s) :
    Canon cmds (requestServed id corr retries uncorr s) :=
  .flushReplies <| .flushReplies <| .pantryRequestDone hs

protected theorem pantryReadTimeout {h tag : Nat} (hs : Canon cmds s) : Canon cmds (pantryReadTimeout h tag s) := by
  unfold pantryReadTimeout
  extract_lets
  split
  exacts [hs, .flushReplies <| .setHPort <| .frame hs]

protected theorem credit {h : Nat} (hs : Canon cmds s) : Canon cmds (credit h s) := by
  unfold credit
  extract_lets
  split
  exacts [.ite (.setHPort <| .daxkaSend hs) hs, hs]

protected theorem moduleOnlyFrame {h op : Nat} (hs : Canon cmds s) : Canon cmds (moduleOnlyFrame h op s) :=
  .ite (.bump hs) hs

protected theorem hostFrameDiscard {h : Nat} {why : Discard} (hs : Canon cmds s) :
    Canon cmds (hostFrameDiscard h why s) :=
  .ite hs (by split; exacts [.bump hs, .bump hs, .bump hs])

protected theorem arpRequest {h : Nat} {src : BitVec 48} {ip : Word} (hs : Canon cmds s) :
    Canon cmds (arpRequest h src ip s) :=
  .ite (.emit hs) hs

protected theorem neighbourSolicitation {h : Nat} {src : BitVec 48} {ip : BitVec 128} (hs : Canon cmds s) :
    Canon cmds (neighbourSolicitation h src ip s) :=
  .ite (.emit hs) hs

/-! ## Control -/

protected theorem setI3c {x : I3c} (hs : Canon cmds s) : Canon cmds (setI3c x s) :=
  .frame hs

protected theorem i3cFlag {i : Nat} (hs : Canon cmds s) : Canon cmds (i3cFlag i s) :=
  .raiseBit hs

protected theorem i3cReply {bs : List Byte} (hs : Canon cmds s) : Canon cmds (i3cReply bs s) :=
  .setI3c hs

protected theorem i3cNack (hs : Canon cmds s) : Canon cmds (i3cNack s) :=
  .setI3c hs

protected theorem i3cWords :
    ∀ {n a : Nat} {bs : List Byte} {s : State}, Canon cmds s → Canon cmds (i3cWords n a bs s)
  | 0, _, _, _, hs => hs
  | n + 1, _, _, _, hs => Canon.i3cWords (n := n) <| .busWrite hs

protected theorem privateWrite {good : Bool} {bytes : List Byte} (hs : Canon cmds s) :
    Canon cmds (privateWrite good bytes s) := by
  unfold privateWrite
  extract_lets _ _ _ _ _ s1 _ s2 s3
  have hs1 : Canon cmds s1 := .i3cWords hs
  have hs2 : Canon cmds s2 := .ite (.setI3c hs1) hs1
  have hs3 : Canon cmds s3 := .ite (.i3cFlag hs2) hs2
  exact .ite (.i3cFlag hs) (.ite (.i3cFlag hs) (.ite (.i3cFlag hs) (.ite (.i3cFlag hs3) hs3)))

protected theorem wordReady {a : Nat} (hs : Canon cmds s) : Canon cmds (wordReady a s).2 :=
  .ite_snd hs (.ite_snd (by split; exact .of_pair ‹_› <| .freeDraw hs) hs)

/-- A read that goes on word by word. -/
theorem i3cRead : ∀ {n : Nat} {s : State}, Canon cmds s → Canon cmds (i3cRead n s).2.2
  | 0, _, hs => hs
  | n + 1, s, hs => by
    unfold Machine.i3cRead
    split
    have hs0 := Canon.of_pair ‹_› <| .wordReady hs
    split
    exacts [.i3cFlag hs0, Canon.i3cRead <| .setI3c <| .busRead hs0]

protected theorem privateRead {nbytes : Nat} (hs : Canon cmds s) : Canon cmds (privateRead nbytes s) := by
  unfold privateRead
  extract_lets m
  split
  rename_i s1 e
  have hs1 : Canon cmds s1 := by
    have h : Canon cmds (Machine.i3cRead (m / 4) s).2.2 := .i3cRead hs
    rwa [e] at h
  refine .ite (.i3cReply hs1) ?_
  split
  have hs2 := Canon.of_pair ‹_› <| .wordReady hs1
  exact .ite (.i3cReply <| .i3cFlag hs2) (.i3cReply hs2)

protected theorem pwinDataRead (hs : Canon cmds s) : Canon cmds (pwinDataRead s) :=
  .ite (.i3cFlag <| .i3cReply hs) (.i3cReply <| .pwinRead hs)

protected theorem addressed {f : State → State} (hf : ∀ {t}, Canon cmds t → Canon cmds (f t)) (hs : Canon cmds s) :
    Canon cmds (addressed f s) :=
  .ite (hf hs) (.i3cNack hs)

protected theorem broadcast {f : State → State} (hf : ∀ {t}, Canon cmds t → Canon cmds (f t)) (hs : Canon cmds s) :
    Canon cmds (broadcast f s) :=
  .ite hs (hf hs)

protected theorem setAddr {a : Nat} (hs : Canon cmds s) : Canon cmds (setAddr a s) :=
  .wr hs

protected theorem entdaa {a : Nat} (hs : Canon cmds s) : Canon cmds (entdaa a s) :=
  .ite hs (.i3cReply <| .setAddr hs)

protected theorem setdasa {static a : Nat} (hs : Canon cmds s) : Canon cmds (setdasa static a s) :=
  .ite (.i3cNack hs) (.i3cReply <| .setAddr hs)

protected theorem setnewda {a : Nat} (hs : Canon cmds s) : Canon cmds (setnewda a s) :=
  .i3cReply <| .setAddr hs

protected theorem rstdaa (hs : Canon cmds s) : Canon cmds (rstdaa s) :=
  .wr hs

protected theorem enec (hs : Canon cmds s) : Canon cmds (enec s) := by
  unfold enec
  exact .ite (.setI3c hs) (.requestIbi <| .setI3c hs)

protected theorem disec (hs : Canon cmds s) : Canon cmds (disec s) :=
  .setI3c hs

protected theorem setmwl {n : Nat} (hs : Canon cmds s) : Canon cmds (setmwl n s) :=
  .setI3c hs

protected theorem setmrl {n : Nat} (hs : Canon cmds s) : Canon cmds (setmrl n s) :=
  .setI3c hs

protected theorem freeReply {n : Nat} (hs : Canon cmds s) : Canon cmds (freeReply n s) := by
  unfold freeReply
  split
  exact .i3cReply <| .of_pair ‹_› <| .freeDraw hs

protected theorem rstact {b : BitVec 8} (hs : Canon cmds s) : Canon cmds (rstact b s) :=
  .ite (.i3cNack hs) (.ite (.i3cReply <| .setI3c hs) (.ite (.i3cReply hs) (.ite (.i3cReply hs) (.i3cNack hs))))

protected theorem unsupportedCcc {direct : Bool} (hs : Canon cmds s) : Canon cmds (unsupportedCcc direct s) :=
  .ite (.addressed (fun h => .i3cNack <| .i3cFlag h) hs) (.broadcast .i3cFlag hs)

protected theorem ibiDelivered {s0 : State} (hs0 : Canon cmds s0) : Canon cmds (ibiDelivered s0) := by
  unfold ibiDelivered
  exact .ite (.allWork hs0) (.i3cReply <| .setI3c <| .allWork hs0)

protected theorem shedLevel {high : Bool} (hs : Canon cmds s) : Canon cmds (shedLevel high s) :=
  .ite (.shedPin hs) (.frame hs)

/-! ## Shots -/

protected theorem syncLine (hs : Canon cmds s) : Canon cmds (syncLine s) := by
  unfold syncLine
  exact .foldl .startAt (.fireLine <| .passTo hs)

protected theorem openBlocks {t : BitVec 48} {q : Nat} (hs : Canon cmds s) : Canon cmds (openBlocks t s q) :=
  .ite (.ite (.foldl .toneOpen hs) (.foldl .dmOpen (.foldl .toneOpen hs))) (.ite (.foldl .fluxTakeOver hs) hs)

protected theorem lateMember {q : Nat} (hs : Canon cmds s) : Canon cmds (lateMember s q) :=
  .silenceSeq <| .raiseEvt <| .setSeq hs

protected theorem memberCatch {g : Nat} (hs : Canon cmds s) : Canon cmds (memberCatch g s) :=
  .foldl (fun h => .ite (.outCatch h) (.ite (.fluxGroupCatch h) h)) hs

protected theorem shotOpen {g : Nat} (hs : Canon cmds s) : Canon cmds (shotOpen g s) := by
  unfold shotOpen
  extract_lets
  split
  · exact hs
  · extract_lets _ s0
    have hs0 : Canon cmds s0 := .memberCatch <| .passTo hs
    split
    · exact hs
    · split
      · exact .startOverrun <| .setGroup hs0
      · exact .mortarOpen <|
            .ladleOpen <|
              .foldl .openSeq
                (.foldl .openBlocks
                   (.foldl .lateMember (.foldl .setSeq (.foldl .clearLatches (.wrPair <| .frame <| .setGroup hs0)))))

protected theorem lastWritten {g : Nat} (hs : Canon cmds s) : Canon cmds (lastWritten g s) := by
  unfold lastWritten
  split
  exacts [.ladleCatch <| .passTo hs, hs]

protected theorem toEnd {q : Nat} (hs : Canon cmds s) : Canon cmds (toEnd q s) := by
  unfold toEnd
  extract_lets
  split
  exacts [.seqTick <| .passTo <| .toNextPlay hs, .toNextPlay hs]

protected theorem finishParts {g : Nat} (hs : Canon cmds s) : Canon cmds (finishParts g s) :=
  .ite (.foldl .toEnd hs) hs

protected theorem shotClose {g : Nat} {s00 : State} (hs00 : Canon cmds s00) : Canon cmds (shotClose g s00) := by
  unfold shotClose
  exact .ite
      (.finishParts hs00)
      (.noteRaised <| .wr <| .wr <| .foldl .setSeq (.setGroup <| .mortarClose <| .lastWritten <| .finishParts hs00))

protected theorem copyRegion {q sp : Nat} (hs : Canon cmds s) : Canon cmds (copyRegion q sp s) :=
  { hs with stores := bytesOk_mapSplice _ _ (bytesOk_mapShift_mapTake _ _ _ hs.stores) hs.stores }

protected theorem spareSeqIn {q sp : Nat} (hs : Canon cmds s) : Canon cmds (spareSeqIn q sp s) := by
  unfold spareSeqIn
  extract_lets s1 _ s2
  have hs1 : Canon cmds s1 := .copyRegion hs
  have hs2 : Canon cmds s2 := .ite (.setSeq hs1) hs1
  exact .ite hs2 (.vendorSet <| .foldl (.vendorCopy hs2.image) hs2)

protected theorem makeSub {u : Sub} (hs : Canon cmds s) : Canon cmds (makeSub s u) := by
  unfold makeSub
  extract_lets
  split
  · exact .raiseFault <| .setSpareState <| .setWear <| .frame hs
  · split
    · exact .ite (.finishSub <| .spareSeqIn <| .serveUnit hs) hs
    · exact .finishSub <| .serveUnit hs
    · exact .finishSub <| .serveUnit hs

protected theorem healthOk {kind ins : Nat} (hs : Canon cmds s) : Canon cmds (healthOk kind ins s).2 := by
  unfold healthOk
  exact .ite_snd hs (by split; exact .of_pair ‹_› <| .freeDraw hs)

protected theorem spareBack {kind n : Nat} {pt : PT} {i : Nat} (hs : Canon cmds s) :
    Canon cmds (spareBack kind n pt i s) := by
  unfold spareBack
  exact .wr <| .wr <| .wr hs

protected theorem returnPage {pg : Nat} (hs : Canon cmds s) : Canon cmds (returnPage s pg) := by
  unfold returnPage
  extract_lets s0
  have hs0 : Canon cmds s0 := .frame hs
  split
  · split
    · exact hs0
    · split
      · exact .ite (.spareBack <| .unitBack <| .setReg <| .of_pair ‹_› <| .healthOk hs0) (.of_pair ‹_› <| .healthOk hs0)
  · refine .ite hs0 ?_
    split
    · exact .ite (.spareBack <| .unitBack <| .wrAll <| .of_pair ‹_› <| .healthOk hs0) (.of_pair ‹_› <| .healthOk hs0)
  · extract_lets
    split
    · exact hs0
    · split
      · extract_lets
        split
        · exact .spareBack <|
              .ite
                (.unitBack <|
                   .ite
                     (.unitBack <| .wrAll <| .of_pair ‹_› <| .healthOk hs0)
                     (.wrAll <| .of_pair ‹_› <| .healthOk hs0))
                (.ite (.unitBack <| .wrAll <| .of_pair ‹_› <| .healthOk hs0) (.wrAll <| .of_pair ‹_› <| .healthOk hs0))
        · exact .of_pair ‹_› <| .healthOk hs0
  · refine .ite hs0 ?_
    split
    · exact .ite (.spareBack <| .unitBack <| .setRdi <| .of_pair ‹_› <| .healthOk hs0) (.of_pair ‹_› <| .healthOk hs0)
  · refine .ite ?_ hs0
    split
    · exact .ite
          (.spareBack <| .unitBack <| .wr <| .wr <| .wr <| .of_pair ‹_› <| .healthOk hs0)
          (.of_pair ‹_› <| .healthOk hs0)
  · exact hs0

protected theorem boundarySubs {g : Nat} (hs : Canon cmds s) : Canon cmds (boundarySubs g s) := by
  unfold boundarySubs
  exact .foldl .returnPage (.foldl .makeSub hs)

protected theorem boundaryCopies {g : Nat} (hs : Canon cmds s) : Canon cmds (boundaryCopies g s) := by
  unfold boundaryCopies
  extract_lets s1 _ s2
  have hs1 : Canon cmds s1 := .copyReady hs
  have hs2 : Canon cmds s2 := .ite hs1 (.vendorSet <| .foldl (.vendorCopy hs1.image) hs1)
  exact .ite (.exchangeWaiting hs2) hs2

protected theorem boundaryWrites {g : Nat} (hs : Canon cmds s) : Canon cmds (boundaryWrites g s) := by
  unfold boundaryWrites
  exact .foldl .pdClrApply (.freed hs)

protected theorem shotBoundary {g : Nat} (hs : Canon cmds s) : Canon cmds (shotBoundary g s) := by
  unfold shotBoundary
  extract_lets _ _ _ _ _ s4
  have hs4 : Canon cmds s4 :=
    .settleWithdrawn <| .shedAtBoundary <| .setGroup <| .boundaryWrites <| .boundarySubs <| .boundaryCopies hs
  refine .ite hs ?_
  split
  · exact .ite
        (.openWindow <| .setGroup <| .passTo <| .setGroup <| .of_pair ‹_› <| .freeDraw hs4)
        (.endBoundary <| .passTo <| .setGroup <| .of_pair ‹_› <| .freeDraw hs4)

protected theorem ringTask {k : Nat} {a : BitVec 48} (hs : Canon cmds s) : Canon cmds (ringTask k a s) := by
  unfold ringTask
  exact .ite hs (.foldl .doKept (.frame hs))

protected theorem activate {i : Nat} {a : BitVec 48} (hs : Canon cmds s) : Canon cmds (activate i a s) :=
  .ite
    (.ite (.startAt hs) (.goActivate hs))
    (.ite
       (.setCap hs)
       (.ite
          (.tsuStamp hs)
          (.ite (.urgActivate hs) (.ite (.ringTask hs) (.ite (.ite (.askTbus hs) hs) (.ite (.raiseEvt hs) hs))))))

protected theorem activateOnce {i : Nat} (hs : Canon cmds s) : Canon cmds (activateOnce i s) :=
  .ite (.coincide hs) (.activate <| .frame hs)

protected theorem taskActivation {i : Nat} (hs : Canon cmds s) : Canon cmds (taskActivation i s) := by
  unfold taskActivation
  exact .deliver .activateOnce
      (fun h => .tagItem <| .raiseEvt h)
      (fun h => .ite (.coincide h) (.activateOnce h))
      (.nextAct hs)

/-! ## Tbus -/

protected theorem retryStarts {rs : List TbReq} (hs : Canon cmds s) : Canon cmds (retryStarts s rs) := by
  unfold retryStarts
  exact .raiseEvtIf <| .frame hs

protected theorem tbusCycle {lines : BitVec 8} {hold : Bool} {s0 : State} (hs0 : Canon cmds s0) :
    Canon cmds (tbusCycle lines hold s0) := by
  unfold tbusCycle
  extract_lets _ _ _ _ _ _ _ _ _ _ _ _ _ _ _ _ _ _ s5
  have hs5 : Canon cmds s5 :=
    .foldl .fireLine (.raiseEvtIf <| .bump <| .passTo <| .wr <| .wr <| .emit <| .frame <| .passTo <| .frame hs0)
  exact .ite (.frame hs0) (.ite (.raiseEvt <| .bump <| .retryStarts hs5) (.ite (.foldl .startAt (.bump hs5)) hs5))

protected theorem holdStuck (hs : Canon cmds s) : Canon cmds (holdStuck s) :=
  .ite (.raiseFault hs) hs

end Sys2Proof.Machine.Canon

namespace Sys2Proof.Machine

/-! ## A step -/

/-- What a command leaves, from the state that its arm names. -/
theorem Canon.of_next {cmds : List Instr} {u t : State}
    (h : (Host.Outcome.next u : Host.Outcome State Fault Refusal) = .next t) (hu : Canon cmds u) : Canon cmds t := by
  cases h
  exact hu

/-- Every command keeps the canonical forms and the queue. -/
theorem Canon.exec {cmds : List Instr} {s t : State} {i : Instr} (hs : Canon cmds s) (h : exec i s = .next t) :
    Canon cmds t := by
  cases i with
  | privateWrite => exact .of_next h (.whenUp (fun h => .addressed .privateWrite h) hs)
  | privateRead => exact .of_next h (.whenUp (fun h => .addressed .privateRead h) hs)
  | enthdr0 => exact .of_next h (.whenUp (fun h => .broadcast .setI3c h) hs)
  | hdrExit => exact .of_next h (.whenUp (fun h => .broadcast .setI3c h) hs)
  | entdaa => exact .of_next h (.whenUp (fun h => .broadcast .entdaa h) hs)
  | setdasa => exact .of_next h (.whenUp .setdasa hs)
  | setnewda => exact .of_next h (.whenUp (fun h => .addressed .setnewda h) hs)
  | rstdaa => exact .of_next h (.whenUp (fun h => .broadcast .rstdaa h) hs)
  | enec => exact .of_next h (.whenUp (fun h => .broadcast .enec h) hs)
  | disec => exact .of_next h (.whenUp (fun h => .broadcast .disec h) hs)
  | setmwl => exact .of_next h (.whenUp (fun h => .broadcast .setmwl h) hs)
  | getmwl => exact .of_next h (.whenUp (fun h => .addressed .i3cReply h) hs)
  | setmrl => exact .of_next h (.whenUp (fun h => .broadcast .setmrl h) hs)
  | getmrl => exact .of_next h (.whenUp (fun h => .addressed .i3cReply h) hs)
  | getpid => exact .of_next h (.whenUp (fun h => .addressed .i3cReply h) hs)
  | getbcr => exact .of_next h (.whenUp (fun h => .addressed .i3cReply h) hs)
  | getdcr => exact .of_next h (.whenUp (fun h => .addressed .i3cReply h) hs)
  | getstatus => exact .of_next h (.whenUp (fun h => .addressed .freeReply h) hs)
  | getmxds => exact .of_next h (.whenUp (fun h => .addressed .i3cReply h) hs)
  | getcaps => exact .of_next h (.whenUp (fun h => .addressed .freeReply h) hs)
  | rstact => exact .of_next h (.whenUp .rstact hs)
  | unsupportedCcc => exact .of_next h (.whenUp .unsupportedCcc hs)
  | targetResetPattern => exact .of_next h (.whenUp .targetReset hs)
  | pwinDataWrite => exact .of_next h (.whenReg .pwinWriteBy hs)
  | pwinDataRead => exact .of_next h (.whenUp .pwinDataRead hs)
  | powerOn => exact .of_next h (.powerOn hs)
  | powerLoss => exact .of_next h (.powerLoss hs)
  | rstNAssert => exact .of_next h (.rstNAssert hs)
  | rstNRelease => exact .of_next h (.rstNRelease hs)
  | refInValid => exact .of_next h (.refInValid hs)
  | shedNAssert => exact .of_next h (.shedLevel hs)
  | shedNRelease => exact .of_next h (.shedLevel hs)
  | registerWrite => exact .of_next h (.whenPath .wordWrite hs)
  | softReset => exact .of_next h (.whenPath .busWrite hs)
  | pageLock => exact .of_next h (.whenPath (fun h => .onPage .lockPart h) hs)
  | enableSet => exact .of_next h (.whenPath (fun h => .onPage (fun h => .pgPart .enableBlock h) h) hs)
  | enableClear => exact .of_next h (.whenPath (fun h => .onPage (fun h => .pgPart .disableBlock h) h) hs)
  | auto => exact .of_next h (.whenPath (fun h => .onPage (fun h => .pgPart .spareSelWrite h) h) hs)
  | forceSpare => exact .of_next h (.whenPath (fun h => .onPage (fun h => .pgPart .spareSelWrite h) h) hs)
  | forcePrimary => exact .of_next h (.whenPath (fun h => .onPage (fun h => .pgPart .spareSelWrite h) h) hs)
  | inhibit => exact .of_next h (.whenPath (fun h => .onPage (fun h => .pgPart .spareSelWrite h) h) hs)
  | swrst => exact .of_next h (.whenReg .swrst hs)
  | standAside => exact .of_next h (.whenReg .standAsideWrite hs)
  | release => exact .of_next h (.whenReg .releaseWrite hs)
  | apertureWrite => exact .of_next h (.whenPath .apertureWord_ hs)
  | loadCommit => exact .of_next h (.whenPath (fun h => .whenReg .commitReg h) hs)
  | loadDiscard => exact .of_next h (.whenPath (fun h => .whenReg .discardStore h) hs)
  | envCommit => exact .of_next h (.whenPath (fun h => .whenReg .commitReg h) hs)
  | envDiscard => exact .of_next h (.whenPath (fun h => .whenReg .discardStore h) hs)
  | wtCommit => exact .of_next h (.whenPath (fun h => .whenReg .commitReg h) hs)
  | wtDiscard => exact .of_next h (.whenPath (fun h => .whenReg .discardStore h) hs)
  | graphCommit => exact .of_next h (.whenPath (fun h => .whenReg .commitGraph h) hs)
  | graphDiscard => exact .of_next h (.whenPath (fun h => .whenReg .discardGraph h) hs)
  | vimgDataAccess => exact .of_next h (.whenReg .vimgAccess hs)
  | verify => exact .of_next h (.whenReg .vimgVerify hs)
  | verifyComplete => exact .of_next h (.whenUp .vimgVerified hs)
  | install => exact .of_next h (.whenReg .vimgInstall hs)
  | installComplete => exact .of_next h (.whenUp .vimgInstalled hs)
  | load => exact .of_next h (.whenReg .vimgLoad hs)
  | vimgDiscard => exact .of_next h (.whenReg .vimgDiscard hs)
  | seqModeWrite => exact .of_next h (.whenReg .seqModeWrite hs)
  | shotGo => exact .of_next h (.whenReg .shotGo hs)
  | selfStart => exact .of_next h (.whenUp .selfStart hs)
  | syncLine => exact .of_next h (.whenUp .syncLine hs)
  | shotOpen => exact .of_next h (.whenUp .shotOpen hs)
  | shotClose => exact .of_next h (.whenUp .shotClose hs)
  | shotBoundary => exact .of_next h (.whenUp .shotBoundary hs)
  | wordSeq => exact .of_next h (.whenUp .wordSeq hs)
  | wordJump => exact .of_next h (.whenUp .wordJump hs)
  | wordBr => exact .of_next h (.whenUp .wordBr hs)
  | wordCall => exact .of_next h (.whenUp .wordCall hs)
  | wordRet => exact .of_next h (.whenUp .wordRet hs)
  | wordLoop => exact .of_next h (.whenUp .wordLoop hs)
  | wordEnd => exact .of_next h (.whenUp .wordEnd hs)
  | loopPush => exact .of_next h (.whenUp .loopPush hs)
  | loopBreak => exact .of_next h (.whenUp .loopBreak hs)
  | waitExpiry => exact .of_next h (.whenUp .waitExpiry hs)
  | decisionWaitEnd => exact .of_next h (.whenUp .decisionWaitEnd hs)
  | eventWaitEnd => exact .of_next h (.whenUp .eventWaitEnd hs)
  | markWaitEnd => exact .of_next h (.whenUp .markWaitEnd hs)
  | waitTimeout => exact .of_next h (.whenUp .waitTimeout hs)
  | drivePulse => exact .of_next h (.whenUp .drivePulse hs)
  | addA => exact .of_next h (.whenUp .phaseOp hs)
  | addB => exact .of_next h (.whenUp .phaseOp hs)
  | subA => exact .of_next h (.whenUp .phaseOp hs)
  | setA => exact .of_next h (.whenUp .phaseOp hs)
  | zeroAcc => exact .of_next h (.whenUp .phaseOp hs)
  | addSw => exact .of_next h (.whenUp .phaseOp hs)
  | play => exact .of_next h (.whenUp .fluxOp hs)
  | playHold => exact .of_next h (.whenUp .fluxOp hs)
  | step => exact .of_next h (.whenUp .fluxOp hs)
  | park => exact .of_next h (.whenUp .fluxOp hs)
  | swr => exact .of_next h (.whenUp .sweepReload hs)
  | swp => exact .of_next h (.whenUp .sweepStep hs)
  | evtFire => exact .of_next h (.whenUp .evtFire hs)
  | markEn => exact .of_next h (.whenUp .markEn hs)
  | calwin => exact .of_next h (.whenUp .calwin hs)
  | tbusStart => exact .of_next h (.whenUp .tbusStart hs)
  | ringTrig => exact .of_next h (.whenUp .ringTrig hs)
  | windowArm => exact .of_next h (.whenUp .windowArm hs)
  | probePulse => exact .of_next h (.whenUp .probePulse hs)
  | branchResolve => exact .of_next h (.whenUp .branchResolve hs)
  | commitGateResolution => exact .of_next h (.whenUp .commitGate hs)
  | segmentPlay => exact .of_next h (.whenUp .segmentPlay hs)
  | segmentDecide => exact .of_next h (.whenUp .segmentDecide hs)
  | segJump => exact .of_next h (.whenReg .softRequest hs)
  | segStop => exact .of_next h (.whenReg .softRequest hs)
  | portActionDue => exact .of_next h (.whenUp .portActionDue hs)
  | fluxActionDue => exact .of_next h (.whenUp .fluxActionDue hs)
  | windowArmDue => exact .of_next h (.whenUp .windowArmDue hs)
  | windowClose => exact .of_next h (.whenUp .windowClose hs)
  | resultDue => exact .of_next h (.whenUp .resultArrives hs)
  | armCopyDue => exact .of_next h (.whenUp .armCopyDue hs)
  | frameUpdateDue => exact .of_next h (.whenUp .frameUpdateDue hs)
  | broadcastDue => exact .of_next h (.whenUp .broadcastDue hs)
  | markDue => exact .of_next h (.whenUp .markDue hs)
  | taskActivation => exact .of_next h (.whenUp .taskActivation hs)
  | refillData => exact .of_next h (.whenUp .refillData hs)
  | refillUnderrun => exact .of_next h (.whenUp .refillUnderrun hs)
  | mute => exact .of_next h (.whenReg .muteWrite hs)
  | parkNow => exact .of_next h (.whenReg .parkNowWrite hs)
  | toneVerify => exact .of_next h (.whenUp .toneVerify hs)
  | dacFault => exact .of_next h (.whenUp .dacFaultAt hs)
  | adcFault => exact .of_next h (.whenUp .adcFaultAt hs)
  | rampDone => exact .of_next h (.whenUp .rampDone hs)
  | parkHandover => exact .of_next h (.whenAlive .parkHandover hs)
  | pdClr => exact .of_next h (.whenReg .pdClrWrite hs)
  | shadowStep => exact .of_next h (.whenUp .shadowStep hs)
  | handover => exact .of_next h (.whenUp .handoverAt hs)
  | slotBindWrite => exact .of_next h (.whenReg .slotBindWrite hs)
  | slotCfgWrite => exact .of_next h (.whenReg .slotCfgWrite hs)
  | clrEntries => exact .of_next h (.whenReg .clrEntriesNow hs)
  | clrLost => exact .of_next h (.whenReg .clrLost hs)
  | dchWrite => exact .of_next h (.whenReg .dchWrite hs)
  | resend => exact .of_next h (.whenReg .resendAll hs)
  | tableParity => exact .of_next h (.whenUp .tableParity hs)
  | evtFireWrite => exact .of_next h (.whenReg .fireWrite hs)
  | lineDisWrite => exact .of_next h (.whenReg .lineDisWrite hs)
  | detectionInputDue => exact .of_next h (.whenUp .detectionInputDue hs)
  | roundClose => exact .of_next h (.whenUp .roundClose hs)
  | decodeWindowComplete => exact .of_next h (.whenUp .decodeWindowComplete hs)
  | windowOutputIssue => exact .of_next h (.whenUp .windowOutputIssue hs)
  | testDecode => exact .of_next h (.whenUp .testDecode hs)
  | tileParity => exact .of_next h (.whenUp .tileParity hs)
  | graphParity => exact .of_next h (.whenUp .graphParity hs)
  | arm => exact .of_next h (.whenReg .armUnit hs)
  | abort => exact .of_next h (.whenReg .abortUnit hs)
  | clrCnt => exact .of_next h (.whenReg .clrCapCounts hs)
  | triggerSample => exact .of_next h (.whenUp .triggerSample hs)
  | hitDue => exact .of_next h (.whenUp .hitDue hs)
  | sourceItem => exact .of_next h (.whenUp .sourceItem hs)
  | preFilled => exact .of_next h (.whenUp .preFilled hs)
  | captureComplete => exact .of_next h (.whenUp .captureComplete hs)
  | recordRelease => exact .of_next h (.whenUp .recordRelease hs)
  | recordSend => exact .of_next h (.whenUp .recordSend hs)
  | egrEnable => exact .of_next h (.whenReg .egrEnable hs)
  | portAdmit => exact .of_next h (.whenReg .admitPort hs)
  | portRelease => exact .of_next h (.whenReg .releaseNow hs)
  | mapWrite => exact .of_next h (.whenReg .mapMaskWrite hs)
  | pantryRequest => exact .of_next h (.whenUp .pantryRequest hs)
  | escalation => exact .of_next h (.whenUp .escalation hs)
  | deadlineMiss => exact .of_next h (.whenUp .deadlineMiss hs)
  | bankRefresh => exact .of_next h (.whenUp .bankRefresh hs)
  | retrainSlot => exact .of_next h (.whenUp .trainSlot hs)
  | retirementStart => exact .of_next h (.whenReg .retirementStart hs)
  | evacuationDone => exact .of_next h (.whenUp (fun h => .ite (.evacuationDone h) h) hs)
  | channelLoss => exact .of_next h (.whenUp .channelLoss hs)
  | slip => exact .of_next h (.whenReg .slip hs)
  | restart => exact .of_next h (.whenReg .restart hs)
  | prbsClr => exact .of_next h (.whenReg .prbsClr hs)
  | los => exact .of_next h (.whenReceiving .los hs)
  | signalReturn => exact .of_next h (.whenReceiving .signalReturn hs)
  | rxReady => exact .of_next h (.whenReceiving .rxReady hs)
  | prbsLock => exact .of_next h (.whenReceiving .prbsLock hs)
  | prbsUnlock => exact .of_next h (.whenReceiving .prbsUnlock hs)
  | lockAcquire => exact .of_next h (.whenReceiving .lockAcquire hs)
  | lockLoss => exact .of_next h (.whenReceiving .lockLoss hs)
  | autoAlignSlip => exact .of_next h (.whenUp .autoAlignSlip hs)
  | swapStart => exact .of_next h (.whenReg .swapStart hs)
  | swapReq => exact .of_next h (.whenUp .swapReq hs)
  | swapReqAbrupt => exact .of_next h (.whenUp .swapReqAbrupt hs)
  | swapReady => exact .of_next h (.whenUp .swapReady hs)
  | swapAbort => exact .of_next h (.whenUp .swapAbort hs)
  | swapSwitch => exact .of_next h (.whenUp .swapSwitch hs)
  | swapTimeout => exact .of_next h (.whenUp .swapTimeout hs)
  | laneFail => exact .of_next h (.whenUp .laneFail hs)
  | abruptSwitch => exact .of_next h (.whenUp .abruptSwitch hs)
  | laneFrame => exact .of_next h (.whenUp .laneFrame hs)
  | decisionFlit => exact .of_next h (.whenUp .rxFlit hs)
  | syndromeEvents => exact .of_next h (.whenUp .rxFlit hs)
  | syndromeCorrections => exact .of_next h (.whenUp .rxFlit hs)
  | triggerFlit => exact .of_next h (.whenUp .rxFlit hs)
  | lossFlit => exact .of_next h (.whenUp .rxFlit hs)
  | bulkFlit => exact .of_next h (.whenUp (fun h => .takeInbox <| .rxFlit h) hs)
  | idleFlit => exact .of_next h (.whenUp .rxFlit hs)
  | flitSend => exact .of_next h (.whenUp .flitSend hs)
  | replayTimeout => exact .of_next h (.whenUp .replayTimeout hs)
  | graceExpiry => exact .of_next h (.whenUp .graceExpiry hs)
  | regWrite => exact .of_next h (.whenUp .request hs)
  | regRead => exact .of_next h (.whenUp .request hs)
  | storeWrite => exact .of_next h (.whenUp .request hs)
  | storeCommit => exact .of_next h (.whenUp .request hs)
  | storeDiscard => exact .of_next h (.whenUp .request hs)
  | storeRead => exact .of_next h (.whenUp .request hs)
  | pantryWrite => exact .of_next h (.whenUp .request hs)
  | pantryRead => exact .of_next h (.whenUp .request hs)
  | moduleOnlyFrame => exact .of_next h (.whenUp .moduleOnlyFrame hs)
  | credit => exact .of_next h (.whenUp .credit hs)
  | unreach => exact .of_next h (.whenUp .unreach hs)
  | arpRequest => exact .of_next h (.whenUp .arpRequest hs)
  | neighbourSolicitation => exact .of_next h (.whenUp .neighbourSolicitation hs)
  | hostModeWrite => exact .of_next h (.whenReg .hostModeWrite hs)
  | linkFail => exact .of_next h (.whenUp .linkFail hs)
  | ptpSync => exact .of_next h (.whenUp .ptpSync hs)
  | followUp => exact .of_next h (.whenUp .followUp hs)
  | delayReq => exact .of_next h (.whenUp .delayReq hs)
  | delayResp => exact .of_next h (.whenUp .delayResp hs)
  | pdelayReq => exact .of_next h (.whenUp .pdelayReq hs)
  | pdelayResp => exact .of_next h (.whenUp .pdelayResp hs)
  | pdelayRespFollowUp => exact .of_next h (.whenUp .pdelayRespFollowUp hs)
  | announce => exact .of_next h (.whenUp .ptpQueue hs)
  | signaling => exact .of_next h (.whenUp .ptpQueue hs)
  | management => exact .of_next h (.whenUp .ptpQueue hs)
  | syncInterval => exact .of_next h (.whenUp .syncInterval hs)
  | delayReqInterval => exact .of_next h (.whenUp .delayReqInterval hs)
  | announceInterval => exact .of_next h (.whenUp .announceInterval hs)
  | syncTimeout => exact .of_next h (.whenUp .syncTimeout hs)
  | rxqPop => exact .of_next h (.whenReg .rxqPop hs)
  | ringSync => exact .of_next h (.whenUp .rxFlit hs)
  | ringDelayReq => exact .of_next h (.whenUp .rxFlit hs)
  | ringDelayResp => exact .of_next h (.whenUp .rxFlit hs)
  | ringPdelayReq => exact .of_next h (.whenUp .rxFlit hs)
  | ringPdelayResp => exact .of_next h (.whenUp .rxFlit hs)
  | ringSyncInterval => exact .of_next h (.whenUp .ringSyncInterval hs)
  | ringPdelayInterval => exact .of_next h (.whenUp .ringPdelayInterval hs)
  | align => exact .of_next h (.whenReg .alignArm hs)
  | syncEdge => exact .of_next h (.whenUp .syncEdge hs)
  | syncAbsent => exact .of_next h (.whenUp .syncAbsent hs)
  | refLoss => exact .of_next h (.refLoss hs)
  | refReturn => exact .of_next h (.refReturn hs)
  | mtStep => exact .of_next h (.whenReg .mtStep hs)
  | incCommit => exact .of_next h (.whenPath .wordWrite hs)
  | servoRst => exact .of_next h (.whenReg .servoRst hs)
  | servoOfs => exact .of_next h (.whenReg .servoOfs hs)
  | mtRead => exact .of_next h (.whenPath (fun h => .whenRead .mtRead h) hs)
  | tsuRead => exact .of_next h (.whenPath (fun h => .whenRead .tsuRead h) hs)
  | cmpFire => exact .of_next h (.whenUp .cmpFire hs)
  | tbusCycle => exact .of_next h (.whenUp .tbusCycle hs)
  | holdStuck => exact .of_next h (.whenUp .holdStuck hs)
  | ctxCfgWrite => exact .of_next h (.whenReg .ctxCfgWrite hs)
  | ctxData => exact .of_next h (.whenReg .ctxData hs)
  | crcWindowWrite => exact .of_next h (.whenReg .crcWindowWrite hs)
  | ctxValWrite => exact .of_next h (.whenReg .ctxValWrite hs)
  | submit => exact .of_next h (.whenReg .submit hs)
  | clear => exact .of_next h (.whenReg .clearSlot hs)
  | cancel => exact .of_next h (.whenReg .cancelSlot hs)
  | calSegmentDone => exact .of_next h (.whenUp .calSegmentDone hs)
  | attemptTimeout => exact .of_next h (.whenUp .attemptTimeout hs)
  | backgroundPassDone => exact .of_next h (.whenUp .backgroundPassDone hs)
  | referenceCheck => exact .of_next h (.whenUp .referenceCheck hs)
  | conversion => exact .of_next h (.whenUp .conversion hs)
  | housekeepingConversion => exact .of_next h (.whenUp .housekeeping hs)
  | urgentConversion => exact .of_next h (.whenUp .urgentConversion hs)
  | zero => exact .of_next h (.whenReg .scalZero hs)
  | full => exact .of_next h (.whenReg .scalFull hs)
  | scalMeasureDone => exact .of_next h (.whenUp .scalDone hs)
  | trivetUpdate readings =>
    change (if readings.length = 24 then _ else _) = _ at h
    split at h
    · exact .of_next h (.whenUp .trivetUpdate hs)
    · cases h
  | diodeCrosscheck => exact .of_next h (.whenUp .diodeCrosscheck hs)
  | freezeTimeout => exact .of_next h (.whenUp .freezeTimeout hs)
  | throttleUp => exact .of_next h (.whenUp .throttleUp hs)
  | throttleDown => exact .of_next h (.whenUp .throttleDown hs)
  | shutdownExit => exact .of_next h (.whenAlive .shutdownExit hs)
  | phaseFail => exact .of_next h (.whenUp .phaseFail hs)
  | domainTrip => exact .of_next h (.whenUp .domainTrip hs)
  | shedDwell => exact .of_next h (.whenUp .shedDwell hs)
  | shedHold => exact .of_next h (.whenUp .shedHold hs)
  | shedWait => exact .of_next h (.whenUp .shedWait hs)
  | vinThreshold => exact .of_next h (.whenUp .vinThreshold hs)
  | brownoutRestart => exact .of_next h (.whenAlive .brownoutRestart hs)
  | overVoltage => exact .of_next h (.whenUp .overVoltage hs)
  | hmClear => exact .of_next h (.whenReg .hmClear hs)
  | hmCfgWrite => exact .of_next h (.whenReg .hmCfgWrite hs)
  | wearHour => exact .of_next h (.whenUp .wearHour hs)
  | mapClear => exact .of_next h (.whenReg .mapClear hs)
  | mapRead => exact .of_next h (.whenRead .mapRead hs)
  | logRead => exact .of_next h (.whenRead .logRead hs)
  | logClear => exact .of_next h (.whenReg .logClear hs)
  | softResetDone => exact .of_next h (.whenAlive .softResetDone hs)
  | targetResetDone => exact .of_next h (.targetDone hs)
  | startupPhaseDone => exact .of_next h (.whenAlive .startupPhaseDone hs)
  | ibiDelivered => exact .of_next h (.whenUp .ibiDelivered hs)
  | pantryRequestDone => exact .of_next h (.whenUp .requestServed hs)
  | pantryReadTimeout => exact .of_next h (.whenUp .pantryReadTimeout hs)
  | laneSnrUpdate => exact .of_next h (.whenReceiving .laneSnrUpdate hs)
  | inputQuiet => exact .of_next h (.whenUp .inputQuiet hs)
  | inputOverrange => exact .of_next h (.whenUp .inputOverrange hs)
  | badOpRequest => exact .of_next h (.whenUp .badOpRequest hs)
  | hostFrameDiscard => exact .of_next h (.whenUp .hostFrameDiscard hs)
  | hmInterval => exact .of_next h (.whenUp .hmInterval hs)

/-- With no command waiting a tick passes; else the front command leaves the queue and acts. -/
theorem Canon.step {s t : State} (hs : Canon s.pending s) (h : step s = .next t) : Canon s.pending.tail t := by
  unfold Machine.step at h
  split at h
  case h_1 hp =>
    rw [hp] at hs ⊢
    exact .of_next h (.passTicks hs)
  case h_2 c cs hp =>
    have hcs : Canon cs { s with pending := cs } := { hs with queue := rfl }
    rw [hp]
    exact .exec hcs h

end Sys2Proof.Machine

open Sys2Proof Sys2Proof.Machine

/-- Settles O4: the canonical forms and the queue's tail, from what every operation keeps (`Canon`). -/
theorem everyStepKeepsTheCanonicalForms : Obligations.EveryStepKeepsTheCanonicalForms := by
  unfold Obligations.EveryStepKeepsTheCanonicalForms
  intro s t hr hs h
  exact canon_iff.1 (.step (canon_iff.2 ⟨rfl, hr, hs⟩) h)
end

section
/-! Writes to the register space through a path: the common block of a page (O10). -/

namespace Sys2Proof.Machine

/-! ## Pages and addresses -/

/-- A page's number is that of the first page of its type and its index, and lies in the register space. -/
theorem pageOf_eq_some {pg n : Nat} {pt : PT} (h : pageOf pg = some (pt, n)) : pg = ptBase pt + n ∧ pg < 0x2B4 := by
  by_cases hlow : pg < 0x10
  · interval_cases pg <;> cases h <;> decide
  · unfold pageOf at h
    rw [if_neg hlow] at h
    simp only [ite_eq_iff, Option.some.injEq, Prod.mk.injEq] at h
    cases pt <;> simp only [reduceCtorEq, false_and, and_false, true_and, false_or, or_false, ptBase] at h ⊢ <;> omega

theorem addrOf_of_pageOf {pg n : Nat} {pt : PT} (h : pageOf pg = some (pt, n)) (off : Nat) :
    addrOf pt n off = pg * 4096 + off := by
  unfold addrOf
  rw [(pageOf_eq_some h).1]

/-- A write to a page of the register space. -/
theorem busWrite_page {s : State} {p : Path} {pg n off : Nat} {pt : PT} {v : Word}
    (hpg : pageOf pg = some (pt, n)) (ho : off < 4096) : busWrite p (pg * 4096 + off) v s =
      if ptUp s pt then orderedWrite p pg pt n off v (blockCatch pt n s) else earlyAcc s := by
  have hlt := (pageOf_eq_some hpg).2
  have hdiv : (pg * 4096 + off) / 4096 = pg := by omega
  have hmod : (pg * 4096 + off) % 4096 = off := by omega
  unfold busWrite
  rw [if_neg (by omega), hdiv, hmod, hpg]

/-- REGISTER_WRITE of a word of a page. -/
theorem exec_registerWrite_page {s : State} {p : Path} {pg n off : Nat} {pt : PT} {v : Word} (hp : pathUp s p = true)
    (hpg : pageOf pg = some (pt, n)) (ho : off < 4096) (h4 : off % 4 = 0) :
    exec (.registerWrite p (BitVec.ofNat 32 (pg * 4096 + off)) v) s =
      .next (if ptUp s pt then orderedWrite p pg pt n off v (blockCatch pt n s) else earlyAcc s) := by
  have hlt := (pageOf_eq_some hpg).2
  have ha : (BitVec.ofNat 32 (pg * 4096 + off)).toNat = pg * 4096 + off := by
    rw [BitVec.toNat_ofNat]
    omega
  change Host.Outcome.next (whenPath p (wordWrite p _ v) s) = _
  rw [whenPath_of hp, ha]
  unfold wordWrite
  rw [if_pos (by omega), busWrite_page hpg ho]

/-! ## The common block -/

theorem inPairs_of_lt {first stride n off : Nat} (h : off < first) : inPairs first stride n off = false := by
  unfold inPairs
  simp [Nat.not_le.2 h]

/-- The common block holds no pair, nor do the first registers after it. -/
theorem isWritePair_of_lt {off : Nat} (pt : PT) (h : off < 0x44) : isWritePair pt off = false := by
  have hp : ∀ {first} stride k, 0x44 ≤ first → inPairs first stride k off = false :=
    fun _ _ hf => inPairs_of_lt (Nat.lt_of_lt_of_le h hf)
  have he : ∀ {a}, 0x44 ≤ a → (off == a) = false := fun ha => beq_false_of_ne (by omega)
  cases pt <;> simp [isWritePair, hp, he]

theorem isDataPort_of_lt {off : Nat} (pt : PT) (h : off < 0x40) : isDataPort pt off = false := by
  have h1 : off ≠ 0x068 := by omega
  have h2 : off ≠ 0x104 := by omega
  simp [isDataPort, h1, h2]

theorem pathWrite_common {p : Path} {pg n off : Nat} {pt : PT} {v : Word} {s : State} (ho : off < 0x40) :
    pathWrite p pg pt n off v s = commonWrite pg pt n off v s := by
  unfold pathWrite pageWrite
  rw [isWritePair_of_lt pt (by omega), isWritePair_of_lt pt (by omega)]
  simp [ho]

/-- A write to the common block, in its place among the tick's. -/
theorem orderedWrite_common {p : Path} {pg n off : Nat} {pt : PT} {v : Word} {s : State} (ho : off < 0x40) :
    orderedWrite p pg pt n off v s =
      if laterWrote s p (addrOf pt n off) then commonWrite pg pt n off (underLater pt n off v s) s
      else noteWrite p (addrOf pt n off) (commonWrite pg pt n off v s) := by
  unfold orderedWrite
  rw [isWritePair_of_lt pt (by omega), isWritePair_of_lt pt (by omega), isDataPort_of_lt pt ho]
  simp [pathWrite_common ho]

/-! ## What is done once is done (R35) -/

/-- A second write of the same value changes nothing, on any list. -/
theorem mapSet_mapSet_self {α : Type} [DecidableEq α] (d : Nat → α) (k : Nat) (v : α) :
    ∀ m : List (Nat × α), mapSet d (mapSet d m k v) k v = mapSet d m k v
  | [] => by by_cases hv : v = d k <;> simp [mapSet, hv]
  | (k', v') :: m => by
    have hdrop : ∀ m : List (Nat × α), v = d k →
        mapSet d (m.dropWhile (fun e => decide (e.1 ≤ k))) k v = m.dropWhile (fun e => decide (e.1 ≤ k)) := by
      intro m hv
      induction m with
      | nil => simp [mapSet, hv]
      | cons e m ih =>
        rw [List.dropWhile_cons]
        split
        · exact ih
        · rename_i he
          have hlt : k < e.1 := by simpa using he
          simp [mapSet, hlt, hv]
    have ih := mapSet_mapSet_self d k v m
    by_cases h1 : k < k'
    · by_cases hv : v = d k <;> simp [mapSet, h1, hv]
    · by_cases h2 : k = k'
      · subst h2
        by_cases hv : v = d k
        · rw [show mapSet d ((k, v') :: m) k v = m.dropWhile (fun e => decide (e.1 ≤ k)) by simp [mapSet, hv]]
          exact hdrop m hv
        · simp [mapSet, hv]
      · simp [mapSet, h1, h2, ih]

/-- An output whose samples are all formed stays as it is. -/
theorem outCatch_of_done {s : State} {out : Nat} (h : (getOut s out).done = gatedUpTo s)
    (hset : mapSet (fun _ => {}) s.outs out (getOut s out) = s.outs) : outCatch out s = s := by
  have hx : ({ getOut s out with done := gatedUpTo s } : Out) = getOut s out := by rw [← h]
  have hs : setOut s out (getOut s out) = s := by
    unfold setOut
    rw [hset]
  unfold outCatch
  split
  · rfl
  · simp [h, hx, hs, satsFrom]

/-- What forming an output's samples leaves: the clock as it stood, and the output's mark of how far they are formed. -/
theorem outCatch_marks {s : State} {out : Nat} (hp : (pulsedOuts s).contains out = true) :
    (outCatch out s).clk = s.clk ∧
      (outCatch out s).outs = mapSet (fun _ => {}) s.outs out { getOut s out with done := gatedUpTo s } := by
  have hfirst : ∀ (t : State) pt n bit, (raiseFirst pt n bit t).clk = t.clk ∧ (raiseFirst pt n bit t).outs = t.outs := by
    intro t pt n bit
    unfold raiseFirst
    dsimp only
    split
    · exact ⟨rfl, rfl⟩
    · exact ⟨raiseEvt_clk _ _ _ _, raiseEvt_outs _ _ _ _⟩
  unfold outCatch
  simp only [hp, Bool.not_true, Bool.false_eq_true, if_false]
  generalize (if noClip s out then 0 else _) = k
  split
  · exact ⟨rfl, rfl⟩
  · exact hfirst _ _ _ _

/-- To form an output's samples twice in one tick is to form them once. -/
theorem outCatch_outCatch (out : Nat) (s : State) : outCatch out (outCatch out s) = outCatch out s := by
  by_cases hp : (pulsedOuts s).contains out = true
  · obtain ⟨hclk, houts⟩ := outCatch_marks hp
    have hget : getOut (outCatch out s) out = { getOut s out with done := gatedUpTo s } := by
      unfold getOut
      rw [houts, mapGet_mapSet_self]
      rfl
    refine outCatch_of_done ?_ ?_
    · rw [hget]
      unfold gatedUpTo
      rw [hclk]
    · rw [hget, houts, mapSet_mapSet_self]
  · have h : outCatch out s = s := by
      unfold outCatch
      rw [if_pos (by simpa using hp)]
    rw [h, h]

/-- A drive or probe page whose work has been brought to the present tick has no sample to form. -/
theorem outCatch_blockCatch_drv (n : Nat) (s : State) : outCatch n (blockCatch .drv n s) = blockCatch .drv n s :=
  outCatch_outCatch n _

theorem outCatch_blockCatch_prb (n : Nat) (s : State) :
    outCatch (64 + n) (blockCatch .prb n s) = blockCatch .prb n s :=
  outCatch_outCatch (64 + n) _

/-- Bits of a common register of a page set at once: nothing but the register changes. -/
theorem applyBits_common {pg n off : Nat} {pt : PT} (hpg : pageOf pg = some (pt, n)) (ho : off < 0x40) (mask v : Word)
    (s : State) : applyBits (addrOf pt n off) mask v (blockCatch pt n s) =
      setReg (blockCatch pt n s) (addrOf pt n off) (maskedValue (reg (blockCatch pt n s) pt n off) mask v) := by
  have ha := addrOf_of_pageOf hpg off
  have hdiv : addrOf pt n off / 4096 = pg := by omega
  have hmod : addrOf pt n off % 4096 = off := by omega
  unfold applyBits
  rw [hdiv, hmod, hpg]
  cases pt with
  | drv => dsimp only; rw [outCatch_blockCatch_drv, if_neg (by omega)]; rfl
  | prb => dsimp only; rw [outCatch_blockCatch_prb, if_neg (by omega)]; rfl
  | rdi => dsimp only; rw [if_neg (by omega)]; rfl
  | flx => dsimp only; rw [if_pos ho]; rfl
  | seq => dsimp only; rw [if_neg (by omega)]; rfl
  | _ => rfl

/-! ## The record of the tick -/

/-- To note a write changes the record of the tick only. -/
theorem noteWrite_eq (p : Path) (a : Nat) (s : State) : noteWrite p a s = { s with tick := (noteWrite p a s).tick } := by
  unfold noteWrite
  split <;> rfl

theorem onlyRegs_noteWrite (p : Path) (a : Nat) (s : State) : onlyRegs s (noteWrite p a s) := by
  rw [onlyRegs_iff, noteWrite_eq]

@[simp] theorem noteWrite_regs (p : Path) (a : Nat) (s : State) : (noteWrite p a s).regs = s.regs := by rw [noteWrite_eq]

@[simp] theorem getReg_noteWrite (p : Path) (a : Nat) (s : State) (b : Nat) : getReg (noteWrite p a s) b = getReg s b :=
  getReg_congr (noteWrite_regs p a s) b

@[simp] theorem reg_noteWrite (p : Path) (a : Nat) (s : State) (pt : PT) (n off : Nat) :
    reg (noteWrite p a s) pt n off = reg s pt n off := reg_congr (noteWrite_regs p a s) pt n off

@[simp] theorem notePending_regs (pg : Nat) (b t : State) : (notePending pg b t).regs = t.regs := by rw [notePending_eq]

/-! ## Writes to the common block by access (R5, R7) -/

theorem and_ones (v : Word) : v &&& 0xFFFFFFFF#32 = v := BitVec.and_allOnes

theorem maskedValue_ones (old v : Word) : maskedValue old 0xFFFFFFFF#32 v = v := by
  unfold maskedValue
  rw [and_ones, show ~~~0xFFFFFFFF#32 = 0#32 from rfl, BitVec.and_zero, BitVec.zero_or]

theorem maskedValue_zero (old v : Word) : maskedValue old 0#32 v = old := by
  unfold maskedValue
  rw [BitVec.and_zero, show ~~~0#32 = 0xFFFFFFFF#32 from rfl, and_ones, BitVec.or_zero]

theorem enable_offset : ∀ off ∈ [0x014, 0x01C], off < 0x40 ∧ off % 4 = 0 := by decide

theorem flags_offset : ∀ off ∈ [0x010, 0x018], (off < 0x40 ∧ off % 4 = 0) ∧ off ∉ [0x008, 0x014, 0x01C] := by decide

theorem readOnly_offset : ∀ off ∈ [0x000, 0x004, 0x00C, 0x020, 0x024, 0x03C],
    (off < 0x40 ∧ off % 4 = 0) ∧ off ∉ [0x008, 0x014, 0x01C] := by decide

/-- The rows of the enables of events and faults. -/
theorem rowOf_enable {off : Nat} (ho : off ∈ [0x014, 0x01C]) (pt : PT) :
    rowOf pt off = some { off := off, rw := 0xFFFFFFFF } := by
  simp only [List.mem_cons, List.not_mem_nil, or_false] at ho
  rcases ho with rfl | rfl <;> rfl

/-- The rows of PG_EVT and PG_FAULT. -/
theorem rowOf_flags {off : Nat} (ho : off ∈ [0x010, 0x018]) (pt : PT) :
    rowOf pt off = some { off := off, w1c := 0xFFFFFFFF } := by
  simp only [List.mem_cons, List.not_mem_nil, or_false] at ho
  rcases ho with rfl | rfl <;> rfl

/-- A read-only or reserved address has no writable bit. -/
theorem rowOf_readOnly {off : Nat} (ho : off ∈ [0x000, 0x004, 0x00C, 0x020, 0x024, 0x03C]) (pt : PT) :
    rowOf pt off = none ∨ rowOf pt off = some { off := off } := by
  simp only [List.mem_cons, List.not_mem_nil, or_false] at ho
  rcases ho with rfl | rfl | rfl | rfl | rfl | rfl
  exacts [.inr rfl, .inr rfl, .inr rfl, .inr rfl, .inl rfl, .inl rfl]

/-- A write to an enable register of a page whose work stands at the present tick. -/
theorem plainWrite_enable {pg n off : Nat} {pt : PT} (hpg : pageOf pg = some (pt, n)) (ho : off ∈ [0x014, 0x01C])
    (v : Word) (s : State) :
    plainWrite pt n off v (blockCatch pt n s) = setReg (blockCatch pt n s) (addrOf pt n off) v := by
  obtain ⟨hlt, -⟩ := enable_offset off ho
  unfold plainWrite
  rw [rowOf_enable ho]
  simp [clearW1c, applyBits_common hpg hlt, maskedValue_ones]

/-- A write to PG_EVT or PG_FAULT. -/
theorem plainWrite_flags {n off : Nat} {pt : PT} (ho : off ∈ [0x010, 0x018]) (v : Word) (s : State) :
    plainWrite pt n off v s =
      setReg s (addrOf pt n off) (reg s pt n off &&& ~~~(v &&& ~~~raisedNow s (addrOf pt n off))) := by
  unfold plainWrite
  rw [rowOf_flags ho]
  simp [clearW1c, and_ones, reg]

/-- A write to a read-only or a reserved address of the common block. -/
theorem plainWrite_readOnly {n off : Nat} {pt : PT} (ho : off ∈ [0x000, 0x004, 0x00C, 0x020, 0x024, 0x03C]) (v : Word)
    (s : State) : plainWrite pt n off v s = s := by
  unfold plainWrite
  rcases rowOf_readOnly ho pt with h | h <;> rw [h]
  simp [clearW1c]

/-- Under a later write an enable keeps what it holds. -/
theorem underLater_enable {n off : Nat} {pt : PT} (ho : off ∈ [0x014, 0x01C]) (v : Word) (s : State) :
    underLater pt n off v s = reg s pt n off := by
  have hview : viewWord s pt n off = reg s pt n off := by
    simp only [List.mem_cons, List.not_mem_nil, or_false] at ho
    rcases ho with rfl | rfl <;> rfl
  unfold underLater
  rw [rowOf_enable ho, hview]
  simp [maskedValue_ones]

/-- Under a later write the bits of PG_EVT and PG_FAULT are cleared all the same. -/
theorem underLater_flags {n off : Nat} {pt : PT} (ho : off ∈ [0x010, 0x018]) (v : Word) (s : State) :
    underLater pt n off v s = v := by
  unfold underLater
  rw [rowOf_flags ho]
  simp [maskedValue_zero]

/-- An access before its page is up sets EARLY_ACC and nothing else (R63). -/
theorem earlyAcc_sets (s : State) : rdBit (earlyAcc s) .sys 0 0x04C 27 = true ∧
    regsBut [addrOf .sys 0 0x04C] s (earlyAcc s) ∧ onlyRegs s (earlyAcc s) := by
  have hregs : (earlyAcc s).regs = (wr s .sys 0 0x04C 27 27 1).regs := raiseBit_regs _ _ _ _ _
  refine ⟨?_, ?_, onlyRegs_raiseBit _ _ _ _ _⟩
  · rw [rdBit_congr hregs, rdBit_wr_self _ _ _ _ _ _ _ _ (Nat.le_refl _) (by decide)]
    rfl
  · exact regsBut_then (regsBut_wr _ _ _ _ _ _ _ (List.mem_singleton_self _)) (regsBut_of_eq hregs)

/-- A write to the common block but for PG_CTRL and the enables. -/
theorem commonWrite_plain {pg n off : Nat} {pt : PT} (h : off ∉ [0x008, 0x014, 0x01C]) (v : Word) (s : State) :
    commonWrite pg pt n off v s = plainWrite pt n off v s := by
  simp only [List.mem_cons, List.not_mem_nil, or_false, not_or] at h
  unfold commonWrite
  simp [h]

theorem commonWrite_enable {pg n off : Nat} {pt : PT} (hpg : pageOf pg = some (pt, n)) (ho : off ∈ [0x014, 0x01C])
    (v : Word) (s : State) : commonWrite pg pt n off v (blockCatch pt n s) =
      notePending pg (blockCatch pt n s) (setReg (blockCatch pt n s) (addrOf pt n off) v) := by
  have h8 : off ≠ 0x008 := by simp only [List.mem_cons, List.not_mem_nil, or_false] at ho; omega
  have ho' : off = 0x014 ∨ off = 0x01C := by simpa using ho
  unfold commonWrite
  rw [if_neg h8, plainWrite_enable hpg ho, if_pos ho']

/-! ## What a write to the common block leaves -/

section
variable {p : Path} {pg n off : Nat} {pt : PT} {v : Word} {s : State}

theorem orderedWrite_enable (hpg : pageOf pg = some (pt, n)) (ho : off ∈ [0x014, 0x01C])
    (hlater : laterWrote (blockCatch pt n s) p (addrOf pt n off) = false) :
    reg (orderedWrite p pg pt n off v (blockCatch pt n s)) pt n off = v ∧
      regsBut [addrOf pt n off] (blockCatch pt n s) (orderedWrite p pg pt n off v (blockCatch pt n s)) ∧
      onlyRegsIrq (blockCatch pt n s) (orderedWrite p pg pt n off v (blockCatch pt n s)) := by
  obtain ⟨hlt, -⟩ := enable_offset off ho
  rw [orderedWrite_common hlt, if_neg (by simp [hlater]), commonWrite_enable hpg ho]
  refine ⟨?_, ?_, ?_⟩
  · rw [reg_noteWrite, reg_congr (notePending_regs _ _ _)]
    exact getReg_setReg_self _ _ _
  · exact regsBut_then (regsBut_then (regsBut_setReg _ _ _ (List.mem_singleton_self _))
      (regsBut_of_eq (notePending_regs _ _ _))) (regsBut_of_eq (noteWrite_regs _ _ _))
  · exact onlyRegsIrq_trans (onlyRegsIrq_notePending _ (onlyRegs_setReg _ _ _))
      (onlyRegsIrq_of_onlyRegs (onlyRegs_noteWrite _ _ _))

theorem orderedWrite_enable_later (hpg : pageOf pg = some (pt, n)) (ho : off ∈ [0x014, 0x01C])
    (hlater : laterWrote (blockCatch pt n s) p (addrOf pt n off) = true) :
    regsBut [] (blockCatch pt n s) (orderedWrite p pg pt n off v (blockCatch pt n s)) ∧
      onlyRegsIrq (blockCatch pt n s) (orderedWrite p pg pt n off v (blockCatch pt n s)) := by
  obtain ⟨hlt, -⟩ := enable_offset off ho
  rw [orderedWrite_common hlt, if_pos hlater, underLater_enable ho, commonWrite_enable hpg ho]
  refine ⟨fun a _ => ?_, onlyRegsIrq_notePending _ (onlyRegs_setReg _ _ _)⟩
  rw [getReg_congr (notePending_regs _ _ _), getReg_setReg]
  split
  · rename_i h
    rw [h]
    rfl
  · rfl

theorem orderedWrite_flags (ho : off ∈ [0x010, 0x018]) :
    reg (orderedWrite p pg pt n off v s) pt n off =
        reg s pt n off &&& ~~~(v &&& ~~~raisedNow s (addrOf pt n off)) ∧
      regsBut [addrOf pt n off] s (orderedWrite p pg pt n off v s) ∧ onlyRegs s (orderedWrite p pg pt n off v s) := by
  obtain ⟨⟨hlt, -⟩, hne⟩ := flags_offset off ho
  rw [orderedWrite_common hlt, underLater_flags ho, commonWrite_plain hne, plainWrite_flags ho]
  split
  · exact ⟨getReg_setReg_self _ _ _, regsBut_setReg _ _ _ (List.mem_singleton_self _), onlyRegs_setReg _ _ _⟩
  · refine ⟨?_, ?_, onlyRegs_trans (onlyRegs_setReg _ _ _) (onlyRegs_noteWrite _ _ _)⟩
    · rw [reg_noteWrite]
      exact getReg_setReg_self _ _ _
    · exact regsBut_then (regsBut_setReg _ _ _ (List.mem_singleton_self _)) (regsBut_of_eq (noteWrite_regs _ _ _))

theorem orderedWrite_readOnly (ho : off ∈ [0x000, 0x004, 0x00C, 0x020, 0x024, 0x03C]) :
    regsBut [] s (orderedWrite p pg pt n off v s) ∧ onlyRegs s (orderedWrite p pg pt n off v s) := by
  obtain ⟨⟨hlt, -⟩, hne⟩ := readOnly_offset off ho
  rw [orderedWrite_common hlt, commonWrite_plain hne, commonWrite_plain hne, plainWrite_readOnly ho,
    plainWrite_readOnly ho]
  split
  · exact ⟨regsBut_refl _ _, onlyRegs_refl _⟩
  · exact ⟨regsBut_of_eq (noteWrite_regs _ _ _), onlyRegs_noteWrite _ _ _⟩

/-- REGISTER_WRITE at an address that names no register. -/
theorem exec_registerWrite_none {a : Word} (hp : pathUp s p = true)
    (ha : a.toNat % 4 ≠ 0 ∨ (a.toNat < 0x40000000 ∧ pageOf (a.toNat / 4096) = none)) :
    exec (.registerWrite p a v) s = .next s := by
  change Host.Outcome.next (whenPath p (wordWrite p a.toNat v) s) = _
  rw [whenPath_of hp]
  unfold wordWrite busWrite
  rcases ha with ha | ⟨hlow, hnone⟩
  · rw [if_neg ha]
  · rw [if_neg (Nat.not_le.2 hlow), hnone, ite_self]

end

end Sys2Proof.Machine

open Sys2Proof Sys2Proof.Machine

/-- Settles O10: each write is followed to the register's row in the common block. -/
theorem commonRegistersFollowTheirAccess : Obligations.CommonRegistersFollowTheirAccess := by
  unfold Obligations.CommonRegistersFollowTheirAccess
  intro s p pg pt n v hp hpg w s0
  have hw : ∀ {o}, o < 0x40 ∧ o % 4 = 0 → ptUp s pt = true → exec (w o) s = .next (orderedWrite p pg pt n o v s0) := by
    intro o ho hup
    rw [exec_registerWrite_page hp hpg (by omega) ho.2, if_pos hup]
  refine ⟨fun hup => ⟨?enables, ?enablesLater, ?flags, ?readOnly⟩, ?down, fun _ => exec_registerWrite_none hp⟩
  case enables => exact fun o ho hlater => ⟨_, hw (enable_offset o ho) hup, orderedWrite_enable hpg ho hlater⟩
  case enablesLater => exact fun o ho hlater => ⟨_, hw (enable_offset o ho) hup, orderedWrite_enable_later hpg ho hlater⟩
  case flags => exact fun o ho => ⟨_, hw (flags_offset o ho).1 hup, orderedWrite_flags ho⟩
  case readOnly => exact fun o ho => ⟨_, hw (readOnly_offset o ho).1 hup, orderedWrite_readOnly ho⟩
  case down =>
    intro hdown o ho h4
    refine ⟨_, exec_registerWrite_page hp hpg ho h4, ?_⟩
    rw [if_neg (by simp [hdown])]
    exact earlyAcc_sets s
end

section
/-! Pairs of registers and shadowed fields (O11). -/

namespace Sys2Proof.Machine

/-! ## Pairs (R8) -/

section
variable {p q : Path} {k c n off : Nat} {v : Word} {s : State}

theorem isWritePair_cmpLo (hk : k < 4) : isWritePair .time (0x180 + 16 * k) = true := by
  interval_cases k <;> rfl

theorem isWritePair_cmpHi (hk : k < 4) : isWritePair .time (0x184 + 16 * k) = false := by
  interval_cases k <;> rfl

/-- The TIME page has no work of its own that waits. -/
theorem blockCatch_time (n : Nat) (s : State) : blockCatch .time n s = s := by
  change (if s.clk.tc = 0 then s else atTick (s.clk.tc - 1) id s) = s
  unfold atTick
  split
  · rfl
  · split <;> rfl

/-- A register of the TIME page that is writable as a whole. -/
theorem plainWrite_time_whole {r : RegRow} (hr : rowOf .time off = some r) (hrw : r.rw = 0xFFFFFFFF#32)
    (hrwl : r.rwl = 0#32) (hsh : r.sh = 0#32) (hw1c : r.w1c = 0#32) (ho : off < 4096) :
    plainWrite .time 0 off v s = setReg s (addrOf .time 0 off) v := by
  have hdiv : addrOf .time 0 off / 4096 = 8 := by
    have := addrOf_of_pageOf (show pageOf 8 = some (.time, 0) from rfl) off
    omega
  have happly : applyBits (addrOf .time 0 off) 0xFFFFFFFF#32 v s = setReg s (addrOf .time 0 off) v := by
    unfold applyBits
    rw [hdiv, maskedValue_ones]
    rfl
  unfold plainWrite
  rw [hr]
  simp [clearW1c, hrw, hrwl, hsh, hw1c, happly]

/-- A half of the pair CMP k is written: it takes the word, and the compare counts from this tick (R363). -/
theorem pageWrite_cmp (hk : k < 4) (hc : c ∈ [0x180, 0x184]) (pg : Nat) :
    pageWrite p pg .time n (c + 16 * k) v s = { setReg s (addrOf .time 0 (c + 16 * k)) v with
      cmpFrom := mapSet (fun _ => 0) s.cmpFrom k s.clk.tc } := by
  simp only [List.mem_cons, List.not_mem_nil, or_false] at hc
  obtain ⟨r, hr, hrw, hrwl, hsh, hw1c⟩ : ∃ r, rowOf .time (c + 16 * k) = some r ∧ r.rw = 0xFFFFFFFF#32 ∧ r.rwl = 0#32 ∧
      r.sh = 0#32 ∧ r.w1c = 0#32 := by
    rcases hc with rfl | rfl <;> interval_cases k <;> exact ⟨_, rfl, rfl, rfl, rfl, rfl⟩
  have htime : timeWrite (c + 16 * k) v s = { plainWrite .time 0 (c + 16 * k) v s with
      cmpFrom := mapSet (fun _ => 0) (plainWrite .time 0 (c + 16 * k) v s).cmpFrom k
        (plainWrite .time 0 (c + 16 * k) v s).clk.tc } := by
    rcases hc with rfl | rfl <;> interval_cases k <;> rfl
  unfold pageWrite
  rw [if_neg (by omega), hr]
  change timeWrite _ _ _ = _
  rw [htime, plainWrite_time_whole hr hrw hrwl hsh hw1c (by omega)]
  rfl

/-- A low half is staged for its path. -/
theorem orderedWrite_cmpLo (hk : k < 4) (pg : Nat) :
    orderedWrite p pg .time n (0x180 + 16 * k) v s = setWlatch p (addrOf .time n (0x180 + 16 * k)) v s := by
  unfold orderedWrite pathWrite
  rw [isWritePair_cmpLo hk]
  rfl

/-- A high half commits the pair, unless a later path has. -/
theorem orderedWrite_cmpHi (hk : k < 4) (pg : Nat) :
    orderedWrite p pg .time 0 (0x184 + 16 * k) v s =
      if laterWrote s p (addrOf .time 0 (0x184 + 16 * k)) then s
      else noteWrite p (addrOf .time 0 (0x184 + 16 * k))
        { setReg (setReg s (addrOf .time 0 (0x180 + 16 * k)) (getWlatch s p (addrOf .time 0 (0x180 + 16 * k))))
            (addrOf .time 0 (0x184 + 16 * k)) v with
          cmpFrom := mapSet (fun _ => 0) (mapSet (fun _ => 0) s.cmpFrom k s.clk.tc) k s.clk.tc } := by
  have hlo : 0x184 + 16 * k - 4 = 0x180 + 16 * k := by omega
  have h4 : decide (4 ≤ 0x184 + 16 * k) = true := decide_eq_true (by omega)
  unfold orderedWrite pathWrite
  rw [isWritePair_cmpHi hk, hlo, isWritePair_cmpLo hk, h4, show isDataPort .time (0x184 + 16 * k) = false from rfl,
    pageWrite_cmp hk (c := 0x180) (by simp), pageWrite_cmp hk (c := 0x184) (by simp)]
  rfl

/-- The commit of a pair: both halves stand in it, the staged one as it was staged, and the compare counts from now. -/
theorem orderedWrite_cmpHi_commits {pg : Nat} (hk : k < 4)
    (hlater : laterWrote s p (addrOf .time 0 (0x184 + 16 * k)) = false) :
    let lo := addrOf .time 0 (0x180 + 16 * k)
    let hi := addrOf .time 0 (0x184 + 16 * k)
    let t := orderedWrite p pg .time 0 (0x184 + 16 * k) v s
    getReg t lo = getWlatch s p lo ∧ getReg t hi = v ∧ regsBut [lo, hi] s t ∧
      mapGet (fun _ => 0) t.cmpFrom k = s.clk.tc ∧ onlyRegs { s with cmpFrom := t.cmpFrom } t := by
  intro lo hi t
  have hlohi : lo ≠ hi := addrOf_ne_off (by omega)
  have ht : t = noteWrite p hi { setReg (setReg s lo (getWlatch s p lo)) hi v with
      cmpFrom := mapSet (fun _ => 0) (mapSet (fun _ => 0) s.cmpFrom k s.clk.tc) k s.clk.tc } := by
    unfold t
    rw [orderedWrite_cmpHi hk, if_neg (by simp [hlater])]
  rw [ht]
  refine ⟨?_, ?_, ?_, ?_, ?_⟩
  · rw [getReg_noteWrite]
    exact (getReg_setReg_ne _ _ hlohi).trans (getReg_setReg_self _ _ _)
  · rw [getReg_noteWrite]
    exact getReg_setReg_self _ _ _
  · exact regsBut_then (regsBut_then (regsBut_setReg _ lo _ (by simp)) (regsBut_setReg _ hi _ (by simp)))
      (regsBut_of_eq (noteWrite_regs _ _ _))
  · rw [noteWrite_eq]
    exact mapGet_mapSet_self _ _ _ _
  · rw [noteWrite_eq]
    rfl

theorem pathNo_inj {p q : Path} (h : pathNo p = pathNo q) : p = q := by
  revert h
  cases p <;> cases q <;> decide

theorem latchKey_inj {p q : Path} {a b : Nat} (ha : a < 2 ^ 32) (hb : b < 2 ^ 32) (h : latchKey p a = latchKey q b) :
    p = q ∧ a = b := by
  unfold latchKey at h
  have hp : pathNo p = pathNo q := by omega
  exact ⟨pathNo_inj hp, by omega⟩

theorem getWlatch_setWlatch_self (p : Path) (a : Nat) (v : Word) (s : State) : getWlatch (setWlatch p a v s) p a = v :=
  mapGet_mapSet_self _ _ _ _

theorem getWlatch_setWlatch_ne {a b : Nat} (ha : a < 2 ^ 32) (hb : b < 2 ^ 32) (h : q ≠ p ∨ b ≠ a) :
    getWlatch (setWlatch p a v s) q b = getWlatch s q b := by
  refine mapGet_mapSet_of_ne _ _ _ fun e => ?_
  obtain ⟨hq, hba⟩ := latchKey_inj hb ha e
  exact h.elim (fun h => h hq) (fun h => h hba)

/-! ## Shadowed fields (R22) -/

theorem pageOf_seq {q : Nat} (hq : q < 124) : pageOf (0x10 + q) = some (.seq, q) := by
  unfold pageOf
  rw [if_neg (by omega), if_pos (by omega), Nat.add_sub_cancel_left]

theorem addrOf_seq_div (q : Nat) {off : Nat} (ho : off < 4096) : addrOf .seq q off / 4096 = 0x10 + q := by
  change ((0x10 + q) * 4096 + off) / 4096 = _
  omega

/-- A held write to a sequencer waits while a shot of its group runs. -/
theorem heldBusy_seq {q off : Nat} (hq : q < 124) (ho : off < 4096) (s : State) :
    heldBusy s (addrOf .seq q off) = seqShotRuns s q := by
  unfold heldBusy seqShotRuns
  rw [addrOf_seq_div q ho, pageOf_seq hq]
  simp only [blockBusy, usesGroups]
  split <;> simp

theorem applyBits_entry {q : Nat} (hq : q < 124) (mask v : Word) (s : State) :
    applyBits (addrOf .seq q 0x044) mask v s =
      setReg s (addrOf .seq q 0x044) (maskedValue (reg s .seq q 0x044) mask v) := by
  have hmod : addrOf .seq q 0x044 % 4096 = 0x044 := by
    change ((0x10 + q) * 4096 + 0x044) % 4096 = _
    omega
  unfold applyBits
  rw [addrOf_seq_div q (by decide), hmod, pageOf_seq hq]
  dsimp only
  rw [if_neg (by omega)]
  rfl

/-- ENTRY is written through its shadow. -/
theorem orderedWrite_entry {q : Nat} (pg : Nat) (hv : fget v 12 0 < 0x1E10)
    (hlater : laterWrote s p (addrOf .seq q 0x044) = false) :
    orderedWrite p pg .seq q 0x044 v s =
      noteWrite p (addrOf .seq q 0x044) (shadowWrite (addrOf .seq q 0x044) 0x1FFF#32 v s) := by
  have hwrite : pathWrite p pg .seq q 0x044 v s = shadowWrite (addrOf .seq q 0x044) 0x1FFF#32 v s := by
    change (if 0x1E10 ≤ fget v 12 0 then s else plainWrite .seq q 0x044 v s) = _
    rw [if_neg (by omega)]
    unfold plainWrite
    rw [show rowOf .seq 0x044 = some { off := 0x044, rw := 0x1FFF#32, sh := 0x1FFF#32 } from rfl]
    simp [clearW1c]
  change (if laterWrote s p _ then _ else noteWrite p _ (pathWrite p pg .seq q 0x044 v s)) = _
  rw [if_neg (by simp [hlater]), hwrite]

/-- With nothing held a write to a shadowed field between shots takes effect at once. -/
theorem shadowWrite_of_idle {a : Nat} {mask : Word} (hb : heldBusy s a = false) (hh : s.held = []) :
    shadowWrite a mask v s = applyBits a mask v s := by
  have hs : dropHeld a mask s = s := by
    unfold dropHeld
    rw [hh]
    change { s with held := [] } = s
    rw [← hh]
  unfold shadowWrite
  rw [if_neg (by simp [hb]), hs]

/-- A write to a shadowed field during a shot is held, and of the writes held before none keeps a bit of the field. -/
theorem shadowWrite_of_busy {a : Nat} {mask : Word} (hb : heldBusy s a = true) :
    shadowWrite a mask v s = { s with held := (dropHeld a mask s).held ++ [{ addr := a, mask := mask, val := v }] } := by
  unfold shadowWrite
  rw [if_pos hb]
  rfl

theorem mask_of_mem_dropHeld {a : Nat} {mask : Word} {h : Held} (hm : h ∈ (dropHeld a mask s).held) (ha : h.addr = a) :
    h.mask &&& mask = 0 := by
  unfold dropHeld at hm
  obtain ⟨g, -, rfl⟩ := List.mem_map.1 (List.mem_of_mem_filter hm)
  have hg : g.addr = a := by
    by_contra hne
    rw [if_neg hne] at ha
    exact hne ha
  rw [if_pos hg, BitVec.and_assoc]
  simp

/-- A field written through its own mask reads as the word written. -/
theorem fget_maskedValue (old v : Word) {hi lo : Nat} (hl : lo ≤ hi) (h : hi < 32) :
    fget (maskedValue old (fmask hi lo) v) hi lo = fget v hi lo := by
  apply Nat.eq_of_testBit_eq
  intro i
  unfold fget maskedValue
  rw [testBit_nbits, testBit_nbits, ← BitVec.getLsbD, ← BitVec.getLsbD, BitVec.getLsbD_or, BitVec.getLsbD_and,
    BitVec.getLsbD_and, BitVec.getLsbD_not, getLsbD_fmask _ _ _ hl h]
  by_cases hi' : i < hi + 1 - lo
  · have hin : lo ≤ lo + i ∧ lo + i ≤ hi := by omega
    simp [hin]
  · simp [hi']

/-- Between shots, with nothing held, ENTRY takes the word at once. -/
theorem orderedWrite_entry_idle {q : Nat} (hq : q < 124) (pg : Nat) (hv : fget v 12 0 < 0x1E10)
    (hlater : laterWrote s p (addrOf .seq q 0x044) = false) (hidle : seqShotRuns s q = false) (hh : s.held = []) :
    fget (getReg (orderedWrite p pg .seq q 0x044 v s) (addrOf .seq q 0x044)) 12 0 = fget v 12 0 ∧
      regsBut [addrOf .seq q 0x044] s (orderedWrite p pg .seq q 0x044 v s) ∧
      onlyRegs s (orderedWrite p pg .seq q 0x044 v s) := by
  rw [orderedWrite_entry pg hv hlater, shadowWrite_of_idle ((heldBusy_seq hq (by decide) s).trans hidle) hh,
    applyBits_entry hq]
  refine ⟨?_, ?_, onlyRegs_trans (onlyRegs_setReg _ _ _) (onlyRegs_noteWrite _ _ _)⟩
  · rw [getReg_noteWrite, getReg_setReg_self, show (0x1FFF#32 : Word) = fmask 12 0 from rfl,
      fget_maskedValue _ _ (by decide) (by decide)]
  · exact regsBut_then (regsBut_setReg _ _ _ (List.mem_singleton_self _)) (regsBut_of_eq (noteWrite_regs _ _ _))

theorem getLast?_filter_concat {α : Type} {P : α → Bool} {l : List α} {x : α} (h : P x = true) :
    ((l ++ [x]).filter P).getLast? = some x := by
  rw [List.filter_append, List.filter_cons_of_pos h, List.filter_nil, List.getLast?_concat]

/-- During a shot the word is held, in place of what was held for ENTRY before. -/
theorem orderedWrite_entry_busy {q a : Nat} (hq : q < 124) (pg : Nat) (ha : a = addrOf .seq q 0x044)
    (hv : fget v 12 0 < 0x1E10) (hlater : laterWrote s p a = false) (hruns : seqShotRuns s q = true) :
    (orderedWrite p pg .seq q 0x044 v s).regs = s.regs ∧
      ((orderedWrite p pg .seq q 0x044 v s).held.filter (fun h => h.addr = a)).getLast? =
        some { addr := a, mask := 0x1FFF, val := v } ∧
      (∀ h ∈ (orderedWrite p pg .seq q 0x044 v s).held, h.addr = a → h.val = v ∨ h.mask &&& 0x1FFF = 0) ∧
      { orderedWrite p pg .seq q 0x044 v s with held := s.held, tick := s.tick } = s := by
  subst ha
  rw [orderedWrite_entry pg hv hlater, shadowWrite_of_busy ((heldBusy_seq hq (by decide) s).trans hruns),
    noteWrite_eq]
  refine ⟨rfl, ?_, ?_, rfl⟩
  · exact getLast?_filter_concat (decide_eq_true rfl)
  · intro h hm ha
    rcases List.mem_append.1 hm with hm | hm
    · exact .inr (mask_of_mem_dropHeld hm ha)
    · exact .inl (by rw [List.mem_singleton.1 hm])

end

end Sys2Proof.Machine

open Sys2Proof Sys2Proof.Machine

/-- Settles O11: the pair CMP of the TIME page and the shadowed field SEQ.ENTRY. -/
theorem pairsAndShadowedFieldsCommit : Obligations.PairsAndShadowedFieldsCommit := by
  unfold Obligations.PairsAndShadowedFieldsCommit
  refine ⟨?pairs, ?shadowed⟩
  case pairs =>
    intro s p q k v hp hup lo hi
    have hk : k.val < 4 := k.isLt
    have hpg : pageOf 8 = some (.time, 0) := rfl
    have hwrite : ∀ {o}, o < 4096 → o % 4 = 0 → exec (.registerWrite p (BitVec.ofNat 32 (addrOf .time 0 o)) v) s =
        .next (orderedWrite p 8 .time 0 o v s) := by
      intro o ho h4
      rw [addrOf_of_pageOf hpg, exec_registerWrite_page hp hpg ho h4, if_pos hup, blockCatch_time]
    refine ⟨⟨_, hwrite (by omega) (by omega), ?low⟩, fun hlater => ⟨_, hwrite (by omega) (by omega), ?high⟩, ?later⟩
    case low =>
      have hlo : lo < 2 ^ 32 := by
        change (8 + 0) * 4096 + (0x180 + 16 * k.val) < _
        omega
      rw [orderedWrite_cmpLo hk]
      exact ⟨getWlatch_setWlatch_self _ _ _ _, fun b hne hb => getWlatch_setWlatch_ne hlo hb hne, rfl⟩
    case high => exact orderedWrite_cmpHi_commits hk hlater
    case later =>
      intro hlater
      rw [hwrite (by omega) (by omega), orderedWrite_cmpHi hk, if_pos hlater]
  case shadowed =>
    intro s p q v hp hup hv a s0 hlater
    have hpg := pageOf_seq q.isLt
    have hwrite : exec (.registerWrite p (BitVec.ofNat 32 a) v) s =
        .next (orderedWrite p (0x10 + q.val) .seq q.val 0x044 v s0) := by
      unfold a
      rw [addrOf_of_pageOf hpg, exec_registerWrite_page hp hpg (by decide) (by decide), if_pos hup]
    exact ⟨fun hidle hheld => ⟨_, hwrite, orderedWrite_entry_idle q.isLt _ hv hlater hidle hheld⟩,
      fun hruns => ⟨_, hwrite, orderedWrite_entry_busy q.isLt _ rfl hv hlater hruns⟩⟩
end

section
/-! The fields of PG_CTRL (O12). -/

namespace Sys2Proof.Machine

/-! ## Gates of outputs -/

/-- To note a mute or its end changes the outputs' record only. -/
theorem noteGate_eq (before : State) (x : BitVec 48) (out : Nat) (s : State) :
    noteGate before x out s = { s with outs := (noteGate before x out s).outs } := by
  unfold noteGate
  dsimp only
  split <;> rfl

theorem gated_eq (x : BitVec 48) (f : State → State) (s : State) :
    gated x f s = { f s with outs := (gated x f s).outs } := by
  have h : ∀ (l : List Nat) (u : State), l.foldl (fun u out => noteGate s x out u) u =
      { u with outs := (l.foldl (fun u out => noteGate s x out u) u).outs } := by
    intro l
    induction l with
    | nil => exact fun _ => rfl
    | cons o l ih =>
      intro u
      rw [List.foldl_cons, ih, noteGate_eq]
  exact h _ _

/-! ## Parts of PG_CTRL (R35, R451, R481) -/

section
variable {p : Path} {pg n : Nat} {pt : PT} {s : State}

/-- A part of a PG_CTRL write to a page that is up, through a path that answers. -/
theorem whenPath_pgPart (hp : pathUp s p = true) (hpg : pageOf pg = some (pt, n)) (hup : ptUp s pt = true)
    (f : State → State) : whenPath p (onPage pg (pgPart p pg f)) s =
      if laterWrote s p (pg * 4096 + 8) then s else noteWrite p (pg * 4096 + 8) (f (blockCatch pt n s)) := by
  rw [whenPath_of hp]
  unfold onPage
  rw [hpg]
  dsimp only
  rw [if_pos hup]
  unfold pgPart
  rw [hpg]

/-- The field written of PG_CTRL, the others and all else as they were. -/
theorem spareSel_written (s : State) (pt : PT) (n : Nat) {k : Nat} (hk : k < 16) :
    fget (reg (wr s pt n 0x008 11 8 k) pt n 0x008) 11 8 = k ∧
      fget (reg (wr s pt n 0x008 11 8 k) pt n 0x008) 7 0 = fget (reg s pt n 0x008) 7 0 ∧
      regsBut [addrOf pt n 0x008] s (wr s pt n 0x008 11 8 k) ∧ onlyRegs s (wr s pt n 0x008 11 8 k) := by
  refine ⟨?_, ?_, regsBut_wr _ _ _ _ _ _ _ (List.mem_singleton_self _), onlyRegs_wr _ _ _ _ _ _ _⟩
  · rw [reg_wr_self, fget_fput_self _ _ _ _ (by decide) (by decide)]
    exact Nat.mod_eq_of_lt hk
  · rw [reg_wr_self, fget_fput_ne _ _ _ _ _ _ (by decide) (by decide) (by decide)]

theorem spareSelWrite_auto (hpg : pageOf pg = some (pt, n)) :
    spareSelWrite pg 0 s = autoSel pg (wr s pt n 0x008 11 8 0) := by
  unfold spareSelWrite
  rw [hpg]
  rfl

theorem spareSelWrite_forceSpare (hpg : pageOf pg = some (pt, n)) : spareSelWrite pg 1 s =
    if fget (reg s pt n 0x008) 11 8 = 1 ∧ rd s pt n 0x020 3 0 = 2 then wr s pt n 0x008 11 8 1
    else forceSpareSel pg (wr s pt n 0x008 11 8 1) := by
  unfold spareSelWrite
  rw [hpg]
  exact if_congr (by rw [Bool.and_eq_true, decide_eq_true_eq, decide_eq_true_eq]; rfl) rfl rfl

theorem spareSelWrite_forcePrimary (hpg : pageOf pg = some (pt, n)) :
    spareSelWrite pg 2 s = forcePrimarySel pg (wr s pt n 0x008 11 8 2) := by
  unfold spareSelWrite
  rw [hpg]
  rfl

theorem spareSelWrite_inhibit (hpg : pageOf pg = some (pt, n)) :
    spareSelWrite pg 3 s = wr s pt n 0x008 11 8 3 := by
  unfold spareSelWrite
  rw [hpg]
  rfl

/-- The state from which ENABLE acts: a block of the router settles its lines first. -/
def enableFrom (pt : PT) (s : State) : State := if pt = .evt then lineCatch s else s

/-- No ENABLE waits for the page. -/
def enableUnasked (pg : Nat) (s : State) : State := { s with enWait := s.enWait.filter (· ≠ pg) }

theorem enableBlock_of_enabled (hpg : pageOf pg = some (pt, n))
    (h : alwaysEnabled pt = true ∨ wbit (reg s pt n 0x008) 0 = true) : enableBlock pg s = s := by
  unfold enableBlock
  rw [hpg]
  dsimp only
  rw [if_pos (by simpa [rdBit] using h)]

theorem enableBlock_of_busy (hpg : pageOf pg = some (pt, n)) (ha : alwaysEnabled pt = false)
    (he : wbit (reg s pt n 0x008) 0 = false) (hb : blockBusy s pt n = true) :
    pg ∈ (enableBlock pg s).enWait ∧ { enableBlock pg s with enWait := s.enWait } = s := by
  unfold enableBlock
  rw [hpg]
  dsimp only
  rw [if_neg (by simp [ha, rdBit, he]), if_pos hb]
  split
  · rename_i h
    exact ⟨by simpa using h, rfl⟩
  · exact ⟨by simp, rfl⟩

theorem enableFrom_eq (pt : PT) (s : State) : (if pt == .evt then lineCatch s else s) = enableFrom pt s := by
  unfold enableFrom
  simp only [beq_iff_eq]

/-- ENABLE is written on a state and the mutes it makes or ends are noted: the bit, and nothing else. -/
theorem enable_written (pt : PT) (n v : Nat) {u x : State} (hu : ∃ o, u = { wr x pt n 0x008 0 0 v with outs := o }) :
    wbit (reg u pt n 0x008) 0 = v.testBit 0 ∧ regsBut [addrOf pt n 0x008] x u ∧ onlyRegs { x with outs := u.outs } u := by
  obtain ⟨o, rfl⟩ := hu
  refine ⟨?_, ?_, rfl⟩
  · rw [reg_congr (t := { wr x pt n 0x008 0 0 v with outs := o }) (s := wr x pt n 0x008 0 0 v) rfl, reg_wr_self,
      wbit_fput _ _ _ _ _ (by decide) (by decide)]
    rfl
  · exact regsBut_then (regsBut_wr x pt n 0x008 0 0 v (List.mem_singleton_self _)) (regsBut_of_eq rfl)

theorem disable_written (pt : PT) (n : Nat) (x : BitVec 48) (s : State) :
    let u := gated x (fun t => wr t pt n 0x008 0 0 0) s
    wbit (reg u pt n 0x008) 0 = false ∧ regsBut [addrOf pt n 0x008] s u ∧ onlyRegs { s with outs := u.outs } u :=
  enable_written pt n 0 ⟨_, gated_eq x (fun t => wr t pt n 0x008 0 0 0) s⟩

theorem enableBlock_of_free (hpg : pageOf pg = some (pt, n)) (ha : alwaysEnabled pt = false)
    (he : wbit (reg s pt n 0x008) 0 = false) (hb : blockBusy s pt n = false) : ∃ u,
      wbit (reg u pt n 0x008) 0 = true ∧ regsBut [addrOf pt n 0x008] (enableFrom pt s) u ∧
      onlyRegs { enableUnasked pg (enableFrom pt s) with outs := u.outs } u ∧
      enableBlock pg s = enableChanged pt n u := by
  let f (t : State) : State := wr (enableUnasked pg t) pt n 0x008 0 0 1
  obtain ⟨hbit, hregs, hrest⟩ := enable_written pt n 1 (x := enableUnasked pg (enableFrom pt s))
    ⟨_, gated_eq s.clk.tc f (enableFrom pt s)⟩
  refine ⟨gated s.clk.tc f (enableFrom pt s), hbit, hregs, hrest, ?_⟩
  unfold enableBlock
  rw [hpg]
  dsimp only
  rw [if_neg (by simp [ha, rdBit, he]), if_neg (by simp [hb])]
  unfold enableNow
  rw [hpg]
  dsimp only
  rw [enableFrom_eq]
  rfl

theorem disableBlock_of_always (hpg : pageOf pg = some (pt, n)) (ha : alwaysEnabled pt = true) :
    disableBlock pg s = s := by
  unfold disableBlock
  rw [hpg]
  dsimp only
  rw [if_pos ha]

/-- DISABLE of a block that has an ENABLE: it waits no more, and an enabled one stops first where it has a stop. -/
theorem disableBlock_eq (hpg : pageOf pg = some (pt, n)) (ha : alwaysEnabled pt = false) : disableBlock pg s =
    if wbit (reg (enableFrom pt s) pt n 0x008) 0 then
      let x := if hasStop (enableFrom pt s) pt n then stopBlock pt n (enableUnasked pg (enableFrom pt s))
        else enableUnasked pg (enableFrom pt s)
      enableChanged pt n (gated x.clk.tc (fun t => wr t pt n 0x008 0 0 0) x)
    else enableUnasked pg (enableFrom pt s) := by
  unfold disableBlock
  rw [hpg]
  dsimp only
  rw [if_neg (by simp [ha]), enableFrom_eq]
  change (if (!wbit (reg (enableFrom pt s) pt n 0x008) 0) = true then _ else _) = _
  by_cases he : wbit (reg (enableFrom pt s) pt n 0x008) 0 = true
  · rw [if_neg (by simp [he]), if_pos he]
    rfl
  · rw [if_pos (by simp [he]), if_neg he]
    rfl

/-- PAGE_LOCK sets LOCK and nothing else. -/
theorem pageLock_sets (p : Path) (a : Nat) (hpg : pageOf pg = some (pt, n)) :
    let t := noteWrite p a (pageLock pg s)
    wbit (reg t pt n 0x008) 2 = true ∧ (∀ i, i ≠ 2 → wbit (reg t pt n 0x008) i = wbit (reg s pt n 0x008) i) ∧
      regsBut [addrOf pt n 0x008] s t ∧ onlyRegs s t := by
  have hlock : pageLock pg s = wr s pt n 0x008 2 2 1 := by
    unfold pageLock
    rw [hpg]
  intro t
  have hbit : ∀ i, wbit (reg t pt n 0x008) i = if 2 ≤ i ∧ i ≤ 2 then (1).testBit (i - 2) else wbit (reg s pt n 0x008) i := by
    intro i
    unfold t
    rw [reg_noteWrite, hlock, reg_wr_self, wbit_fput _ _ _ _ _ (by decide) (by decide)]
  refine ⟨hbit 2, fun i hi => ?_, ?_, ?_⟩
  · rw [hbit, if_neg (by omega)]
  · unfold t
    rw [hlock]
    exact regsBut_then (regsBut_wr _ _ _ _ _ _ _ (List.mem_singleton_self _)) (regsBut_of_eq (noteWrite_regs _ _ _))
  · unfold t
    rw [hlock]
    exact onlyRegs_trans (onlyRegs_wr _ _ _ _ _ _ _) (onlyRegs_noteWrite _ _ _)

/-- SOFT_RESET: the page is reset, then the write's other fields apply. -/
theorem orderedWrite_softReset (v : Word) (hlater : laterWrote s p (addrOf pt n 0x008) = false) :
    orderedWrite p pg pt n 0x008 (v ||| 2) s =
      noteWrite p (addrOf pt n 0x008) (pgFields pg (v ||| 2) (softReset pg s)) := by
  have hbit : wbit (v ||| 2) 1 = true := by
    rw [wbit_eq, BitVec.getLsbD_or]
    simp
  rw [orderedWrite_common (by decide), if_neg (by simp [hlater])]
  unfold commonWrite pgCtrlWrite
  rw [if_pos rfl, if_pos hbit]

end

end Sys2Proof.Machine

open Sys2Proof Sys2Proof.Machine

/-- Settles O12: each part of a PG_CTRL write is followed to what it does to the page. -/
theorem pageControlActsByItsFields : Obligations.PageControlActsByItsFields := by
  unfold Obligations.PageControlActsByItsFields
  intro s p pg pt n hp hpg hup ctrl s0 b alone noted selected waits
  have hpart : ∀ f, whenPath p (onPage pg.val (pgPart p pg.val f)) s =
      if laterWrote s p (pg.val * 4096 + 8) then s else noted (f s0) := whenPath_pgPart hp hpg hup
  refine ⟨?lock, ?later, ?now, ?reset⟩
  case lock =>
    refine ⟨_, ?_, pageLock_sets p (pg.val * 4096 + 8) hpg⟩
    change Host.Outcome.next (whenPath p (onPage pg.val (lockPart p pg.val)) s) = _
    rw [whenPath_of hp]
    unfold onPage
    rw [hpg]
    dsimp only
    rw [if_pos hup]
    rfl
  case later =>
    intro hlater c hc
    have hnext : ∀ f, Host.Outcome.next (whenPath p (onPage pg.val (pgPart p pg.val f)) s) =
        (Host.Outcome.next s : Host.Outcome State Fault Refusal) := fun f => by rw [hpart, if_pos hlater]
    simp only [List.mem_cons, List.not_mem_nil, or_false] at hc
    rcases hc with rfl | rfl | rfl | rfl | rfl | rfl <;> exact hnext _
  case now =>
    intro hlater
    have hnow : ∀ f, (Host.Outcome.next (whenPath p (onPage pg.val (pgPart p pg.val f)) s) :
        Host.Outcome State Fault Refusal) = .next (noted (f s0)) := fun f => by rw [hpart, if_neg (by simp [hlater])]
    have hsel : ∀ {k}, k < 16 → selected k (wr s0 pt n 0x008 11 8 k) := fun hk => spareSel_written s0 pt n hk
    have hsel' : ∀ {k t}, selected k t → selected k (noted t) := by
      rintro k t ⟨hk, hlow, hregs, honly⟩
      have hctrl : ctrl (noted t) = ctrl t := reg_noteWrite _ _ _ _ _ _
      exact ⟨hctrl ▸ hk, hctrl ▸ hlow, regsBut_then hregs (regsBut_of_eq (noteWrite_regs _ _ _)),
        onlyRegs_trans honly (onlyRegs_noteWrite _ _ _)⟩
    have hb : enableFrom pt s0 = b := rfl
    refine ⟨?inhibit, ?auto, ?force, ?again, ?primary, ?set, ?setFree, ?setBusy, ?clearAlways, ?clear, ?clearOff,
      ?clearStop⟩
    case inhibit =>
      refine ⟨_, hnow _, hsel' ?_⟩
      rw [spareSelWrite_inhibit hpg]
      exact hsel (by decide)
    case auto =>
      refine ⟨_, hnow _, _, hsel (by decide), ?_⟩
      rw [spareSelWrite_auto hpg]
    case force =>
      intro hne
      refine ⟨_, hnow _, _, hsel (by decide), ?_⟩
      rw [spareSelWrite_forceSpare hpg, if_neg (not_and_or.2 hne)]
    case again =>
      intro h1 h2
      refine ⟨_, hnow _, hsel' ?_⟩
      rw [spareSelWrite_forceSpare hpg, if_pos ⟨h1, h2⟩]
      exact hsel (by decide)
    case primary =>
      refine ⟨_, hnow _, _, hsel (by decide), ?_⟩
      rw [spareSelWrite_forcePrimary hpg]
    case set =>
      intro h
      refine (hnow _).trans ?_
      rw [enableBlock_of_enabled hpg h]
    case setFree =>
      intro ha he hfree
      obtain ⟨u, hbit, hregs, honly, hu⟩ := enableBlock_of_free hpg ha he hfree
      exact ⟨_, hnow _, u, hbit, hregs, honly, by rw [hu]⟩
    case setBusy =>
      intro ha he hbusy
      obtain ⟨hmem, hrest⟩ := enableBlock_of_busy hpg ha he hbusy
      refine ⟨_, hnow _, ?_⟩
      unfold noted
      rw [noteWrite_eq]
      exact ⟨hmem, congrArg (fun t : State => { t with tick := s0.tick }) hrest⟩
    case clearAlways =>
      intro ha
      refine (hnow _).trans ?_
      rw [disableBlock_of_always hpg ha]
    case clear =>
      intro ha he hstop
      obtain ⟨hbit, hregs, honly⟩ := disable_written pt n (waits b).clk.tc (waits b)
      refine ⟨_, hnow _, _, hbit, hregs, honly, ?_⟩
      rw [disableBlock_eq hpg ha, hb, if_pos he, if_neg (by simp [hstop])]
      rfl
    case clearOff =>
      intro ha he
      refine (hnow _).trans ?_
      rw [disableBlock_eq hpg ha, hb, if_neg (ne_true_of_eq_false he)]
      rfl
    case clearStop =>
      intro ha he hstop
      obtain ⟨hbit, hregs, honly⟩ := disable_written pt n (stopBlock pt n (waits b)).clk.tc (stopBlock pt n (waits b))
      refine ⟨_, hnow _, _, _, rfl, hbit, ⟨hregs, honly⟩, ?_⟩
      rw [disableBlock_eq hpg ha, hb, if_pos he, if_pos hstop]
      rfl
  case reset =>
    intro v hlater
    change Host.Outcome.next (whenPath p (busWrite p (pg.val * 4096 + 8) (v ||| 2)) s) = _
    rw [whenPath_of hp, busWrite_page hpg (by decide), if_pos hup, orderedWrite_softReset v hlater]
end

section
/-! Time that passes, the states of groups and sequencers after a write, and what a page's being up depends on. -/

namespace Sys2Proof.Machine

/-! ## Time -/

theorem passTicks_eq (n : Nat) (s : State) :
    passTicks n s = { s with clk := (passTicks n s).clk, tick := (passTicks n s).tick } := by
  unfold passTicks
  split <;> rfl

theorem passTo_eq (t : BitVec 48) (s : State) :
    passTo t s = { s with clk := (passTo t s).clk, tick := (passTo t s).tick } := by
  unfold passTo
  dsimp only
  split
  · exact passTicks_eq _ s
  · rfl

/-- A clock that stands still lets no time pass. -/
theorem passTicks_of_still {s : State} (n : Nat) (h : clockRuns s = false) : passTicks n s = s := by
  unfold passTicks
  rw [if_pos (by simp [h])]

theorem passTicks_tc {s : State} {n : Nat} (hn : n ≠ 0) (h : clockRuns s = true) :
    (passTicks n s).clk.tc = s.clk.tc + BitVec.ofNat 48 n := by
  unfold passTicks
  rw [if_neg (by simp [hn, h])]

/-- A tick that lies ahead is reached while the clock runs. -/
theorem passTo_tc {s : State} {t : BitVec 48} (hc : clockRuns s = true) (ht : 0 < ticksTo s.clk.tc t) :
    (passTo t s).clk.tc = t := by
  have hn : BitVec.ofNat 48 (t - s.clk.tc).toInt.toNat = t - s.clk.tc := by
    unfold ticksTo at ht
    have hi := BitVec.toInt_eq_toNat_cond (t - s.clk.tc)
    have hlt := (t - s.clk.tc).isLt
    apply BitVec.eq_of_toNat_eq
    rw [BitVec.toNat_ofNat]
    split at hi <;> omega
  unfold passTo
  simp only [if_pos ht]
  rw [passTicks_tc (by omega) hc]
  unfold ticksTo
  rw [hn]
  exact add_sub_cancel _ _

/-- No time passes to a tick that is past. -/
theorem passTo_of_past {s : State} {t : BitVec 48} (h : ticksTo s.clk.tc t ≤ 0) : passTo t s = s := by
  unfold passTo
  exact if_neg (by omega)

section
variable (t : BitVec 48) (s : State)

@[simp] theorem passTo_regs : (passTo t s).regs = s.regs := by rw [passTo_eq]
@[simp] theorem passTo_i3c : (passTo t s).i3c = s.i3c := by rw [passTo_eq]
@[simp] theorem passTo_groups : (passTo t s).groups = s.groups := by rw [passTo_eq]
@[simp] theorem passTo_seqs : (passTo t s).seqs = s.seqs := by rw [passTo_eq]
@[simp] theorem passTo_boot : (passTo t s).boot = s.boot := by rw [passTo_eq]
@[simp] theorem passTo_unchecked : (passTo t s).unchecked = s.unchecked := by rw [passTo_eq]
@[simp] theorem passTo_resetting : (passTo t s).resetting = s.resetting := by rw [passTo_eq]
@[simp] theorem passTo_stores : (passTo t s).stores = s.stores := by rw [passTo_eq]
@[simp] theorem passTo_pantry : (passTo t s).pantry = s.pantry := by rw [passTo_eq]
@[simp] theorem passTo_lines : (passTo t s).lines = s.lines := by rw [passTo_eq]

end

/-! ## Groups and sequencers -/

@[simp] theorem getGroup_setGroup_self (s : State) (g : Nat) (x : Group) : getGroup (setGroup s g x) g = x :=
  mapGet_mapSet_self _ _ _ _

theorem getGroup_setGroup_ne (s : State) {g h : Nat} (x : Group) (hg : h ≠ g) :
    getGroup (setGroup s g x) h = getGroup s h := mapGet_mapSet_of_ne _ _ _ hg

theorem getGroup_congr {s t : State} (h : t.groups = s.groups) (g : Nat) : getGroup t g = getGroup s g := by
  unfold getGroup
  rw [h]

@[simp] theorem getSeq_setSeq_self (s : State) (q : Nat) (x : Seq) : getSeq (setSeq s q x) q = x :=
  mapGet_mapSet_self _ _ _ _

theorem getSeq_setSeq_ne (s : State) {q r : Nat} (x : Seq) (hr : r ≠ q) : getSeq (setSeq s q x) r = getSeq s r :=
  mapGet_mapSet_of_ne _ _ _ hr

theorem getSeq_congr {s t : State} (h : t.seqs = s.seqs) (q : Nat) : getSeq t q = getSeq s q := by
  unfold getSeq
  rw [h]

/-! ## What a page's being up depends on -/

theorem ptUp_congr {s t : State} (hb : t.boot = s.boot) (hp : phase t = phase s) (pt : PT) : ptUp t pt = ptUp s pt := by
  unfold ptUp phaseEnded alive
  rw [hb, hp]

theorem phase_congr {s t : State} (h : reg t .sys 0 0x04C = reg s .sys 0 0x04C) : phase t = phase s := by
  unfold phase rd
  rw [h]

/-- A page is in service as its ENABLE stands, while its block is up. -/
theorem enabled_congr {s t : State} {pt : PT} {n : Nat} (hb : t.boot = s.boot) (hp : phase t = phase s)
    (hc : reg t pt n 0x008 = reg s pt n 0x008) : enabled t pt n = enabled s pt n := by
  unfold enabled rdBit
  rw [ptUp_congr hb hp, hc]

theorem seqGroup_congr {s t : State} {q : Nat} (h : reg t .seq q 0x040 = reg s .seq q 0x040) :
    seqGroup t q = seqGroup s q := by
  unfold seqGroup rd
  rw [h]

/-- What a master refuses its starts for. -/
theorem refusesStart_congr {s t : State} {m : Nat} (hb : t.boot = s.boot)
    (hsys : reg t .sys 0 0x04C = reg s .sys 0 0x04C)
    (hctrl : reg t .seq (112 + m) 0x008 = reg s .seq (112 + m) 0x008)
    (himg : reg t .seq (112 + m) 0x05C = reg s .seq (112 + m) 0x05C)
    (hseq : getSeq t (112 + m) = getSeq s (112 + m)) (hun : t.unchecked = s.unchecked)
    (hstage : (getGroup t m).stage = (getGroup s m).stage) : refusesStart t m = refusesStart s m := by
  unfold refusesStart
  rw [enabled_congr hb (phase_congr hsys) hctrl, hseq, hun, hstage]
  unfold rdBit
  rw [hsys, himg]

end Sys2Proof.Machine
end

section
/-! O2: the step on an empty queue. -/

open Sys2Proof Sys2Proof.Machine

/-- Settles O2: `passTicks` changes the clock and the record of the tick alone. -/
theorem idleStepLetsOneTickPass : Obligations.IdleStepLetsOneTickPass := by
  unfold Obligations.IdleStepLetsOneTickPass
  intro s hs
  refine ⟨?step, ?frame, passTicks_tc Nat.one_ne_zero, passTicks_of_still 1⟩
  case step =>
    unfold step
    rw [hs]
  case frame =>
    rw [passTicks_eq]

end

section
/-! What a start does at its master, by case (R24, R25, R104, R105), and that it leaves the other masters alone. -/

namespace Sys2Proof.Machine

/-! ## A start by case -/

theorem whenReg_of {pt : PT} {f : State → State} {s : State} (h : ptUp s pt = true) : whenReg pt f s = f s := by
  unfold whenReg
  rw [if_pos h]

section
variable {s : State} {m src : Nat} {named : BitVec 48}

theorem startAt_of_other (h : startSrc s m ≠ src) : startAt m src named s = s := by
  unfold startAt
  rw [if_pos h]

theorem startAt_of_refused (hs : startSrc s m = src)
    (h : refusesStart s m = true ∨ (getGroup s m).pend ≠ none ∨ (getGroup s m).opening ≠ none) :
    startAt m src named s = startOverrun m s := by
  unfold startAt
  rw [if_neg (not_not.2 hs), if_pos]
  simpa only [Bool.or_eq_true, Option.isSome_iff_ne_none, or_assoc] using h

variable (hr : refusesStart s m = false) (hp : (getGroup s m).pend = none) (ho : (getGroup s m).opening = none)
include hr hp ho

/-- While a shot or a boundary lasts, a start that names no tick is pending. -/
theorem startAt_of_busy (hs : startSrc s m = src) (hsrc : ¬ (src = 1 ∨ src = 3))
    (hb : (getGroup s m).running = true ∨ (getGroup s m).boundary = true) :
    startAt m src named s = setGroup s m { getGroup s m with pend := some (src, named) } := by
  unfold startAt
  rw [if_neg (not_not.2 hs), if_neg (by simp [hr, hp, ho]), if_neg (fun h => hsrc h.1), if_pos (by simpa using hb)]

/-- In an idle group a start that names no tick fixes its opening. -/
theorem startAt_of_idle (hs : startSrc s m = src) (hsrc : ¬ (src = 1 ∨ src = 3))
    (hrun : (getGroup s m).running = false) (hb : (getGroup s m).boundary = false) :
    startAt m src named s =
      setGroup s m { getGroup s m with
        opening := some (if src = 2 then syncFrom (s.clk.tc + 24) else s.clk.tc + 24) } := by
  unfold startAt fixOpening
  rw [if_neg (not_not.2 hs), if_neg (by simp [hr, hp, ho]), if_neg (fun h => hsrc h.1), if_neg (by simp [hrun, hb]),
    if_neg hsrc, ← hp]

end

theorem selfStart_of_not {s : State} {m : Nat}
    (h : startSrc s m ≠ 5 ∨ (getGroup s m).running = true ∨ (getGroup s m).boundary = true ∨
      (getGroup s m).opening ≠ none) : selfStart m s = s := by
  unfold selfStart
  rw [if_pos]
  simpa only [Bool.or_eq_true, decide_eq_true_eq, Option.isSome_iff_ne_none, or_assoc] using h

section
variable {s : State} {m : Nat} (hs : startSrc s m = 5) (hrun : (getGroup s m).running = false)
  (hb : (getGroup s m).boundary = false) (ho : (getGroup s m).opening = none)
include hs hrun hb ho

theorem selfStart_of_refused (hr : refusesStart s m = true) :
    selfStart m s = startOverrun m (setGroup s m { getGroup s m with selfAt := some s.clk.tc }) := by
  unfold selfStart
  rw [if_neg (by simp [hs, hrun, hb, ho]), if_pos hr]

theorem selfStart_of_free (hr : refusesStart s m = false) :
    selfStart m s =
      let x : Group := getGroup s m
      let due : BitVec 48 := match x.selfAt with
        | some t => t + 24
        | none => if x.opened then x.t0 + BitVec.ofNat 48 (reg s .seq (112 + m) 0x0A4).toNat else s.clk.tc + 24
      setGroup s m { x with opening := some (if x.opened then laterTick due (x.bEnd + 24) else due) } := by
  unfold selfStart
  exact (if_neg (by simp [hs, hrun, hb, ho])).trans (if_neg (by simp [hr]))

end

theorem regsBut_startOverrun (m : Nat) (s : State) :
    regsBut [addrOf .seq (112 + m) 0x010] s (startOverrun m s) :=
  regsBut_raiseEvt _ _ _ _ (List.mem_singleton_self _)

/-! ## The states of the groups after a raised event -/

@[simp] theorem getGroup_raiseEvt (s : State) (pt : PT) (n bit g : Nat) :
    getGroup (raiseEvt pt n bit s) g = getGroup s g := getGroup_congr (by simp) g

@[simp] theorem getGroup_passTo (t : BitVec 48) (s : State) (g : Nat) : getGroup (passTo t s) g = getGroup s g :=
  getGroup_congr (passTo_groups t s) g

/-! ## Starts at other masters -/

/-- Between `s` and `t` masters other than `m` took starts: only their groups and their start events changed. -/
structure StartsElsewhere (m : Nat) (s t : State) : Prop where
  group : getGroup t m = getGroup s m
  rest : { t with regs := s.regs, tick := s.tick, i3c := s.i3c, groups := s.groups } = s
  regs : ∀ a, (∀ k, k ≠ m → a ≠ addrOf .seq (112 + k) 0x010) → getReg t a = getReg s a

theorem refusesStart_of_eq {s t : State} {m : Nat} (hr : t.regs = s.regs) (hb : t.boot = s.boot) (hq : t.seqs = s.seqs)
    (hu : t.unchecked = s.unchecked) (hg : t.groups = s.groups) : refusesStart t m = refusesStart s m :=
  refusesStart_congr hb (reg_congr hr ..) (reg_congr hr ..) (reg_congr hr ..) (getSeq_congr hq _) hu
    (by rw [getGroup_congr hg])

namespace StartsElsewhere

variable {m k : Nat} {s t u : State}

theorem refl (m : Nat) (s : State) : StartsElsewhere m s s := ⟨rfl, rfl, fun _ _ => rfl⟩

theorem trans (h1 : StartsElsewhere m s t) (h2 : StartsElsewhere m t u) : StartsElsewhere m s u where
  group := h2.group.trans h1.group
  rest := (congrArg (fun x => { x with regs := s.regs, tick := s.tick, i3c := s.i3c, groups := s.groups }) h2.rest).trans h1.rest
  regs a ha := (h2.regs a ha).trans (h1.regs a ha)

theorem ite {c : Prop} [Decidable c] {t' : State} (h : StartsElsewhere m s t) (h' : StartsElsewhere m s t') :
    StartsElsewhere m s (if c then t else t') := by
  split
  · exact h
  · exact h'

theorem setGroup (hk : k ≠ m) (x : Group) : StartsElsewhere m s (setGroup s k x) :=
  ⟨getGroup_setGroup_ne _ _ hk.symm, rfl, fun _ _ => rfl⟩

theorem raiseEvt (hk : k ≠ m) (bit : Nat) : StartsElsewhere m s (raiseEvt .seq (112 + k) bit s) where
  group := getGroup_raiseEvt ..
  rest := by
    rw [raiseEvt_eq]
    rfl
  regs a ha := by rw [getReg_raiseEvt, if_neg (ha k hk)]

theorem startAt (hk : k ≠ m) (src : Nat) (named : BitVec 48) : StartsElsewhere m s (startAt k src named s) := by
  have hfix : StartsElsewhere m s (fixOpening k src named s) :=
    .ite (.ite (.trans (.setGroup hk _) (.raiseEvt hk 0)) (.setGroup hk _)) (.setGroup hk _)
  exact .ite (.refl m s) (.ite (.raiseEvt hk 1) (.ite (.raiseEvt hk 0) (.ite (.setGroup hk _) hfix)))

theorem clk (h : StartsElsewhere m s t) : t.clk = s.clk := (congrArg State.clk h.rest :)

theorem reg_eq (h : StartsElsewhere m s t) {pt : PT} {n off : Nat}
    (ha : ∀ k, k ≠ m → addrOf pt n off ≠ addrOf .seq (112 + k) 0x010) : reg t pt n off = reg s pt n off :=
  h.regs _ ha

/-- Only the events of the other masters' pages changed. -/
theorem reg_off_eq (h : StartsElsewhere m s t) {pt : PT} {n off : Nat} (ho : off < 4096) (ho' : off ≠ 0x010) :
    reg t pt n off = reg s pt n off :=
  h.reg_eq fun _ _ e => ho' (addrOf_inj ho (by decide) e).2

/-- Master m still takes the starts it took. -/
theorem refusesStart (h : StartsElsewhere m s t) : refusesStart t m = refusesStart s m :=
  refusesStart_congr (congrArg State.boot h.rest :) (h.reg_off_eq (by decide) (by decide))
    (h.reg_off_eq (by decide) (by decide)) (h.reg_off_eq (by decide) (by decide))
    (getSeq_congr (congrArg State.seqs h.rest :) _) (congrArg State.unchecked h.rest :) (by rw [h.group])

theorem startSrc (h : StartsElsewhere m s t) : startSrc t m = startSrc s m := by
  unfold Machine.startSrc rd
  rw [h.reg_off_eq (by decide) (by decide)]

theorem lines (h : StartsElsewhere m s t) : t.lines = s.lines := (congrArg State.lines h.rest :)

end StartsElsewhere

/-- Starts that are taken at other masters only. -/
theorem startsElsewhere_foldl {m src : Nat} {named : State → BitVec 48} :
    ∀ (l : List Nat) (s : State), m ∉ l →
      StartsElsewhere m s (l.foldl (fun t k => startAt k src (named t) t) s)
  | [], s, _ => .refl m s
  | k :: l, s, h => by
      obtain ⟨hk, hl⟩ := List.ne_and_not_mem_of_not_mem_cons h
      exact .trans (.startAt hk.symm src (named s)) (startsElsewhere_foldl l _ hl)

/-! ## SYNC -/

theorem fireLine_eq (line : Nat) (x : BitVec 48) (soft : Bool) (s : State) :
    fireLine line x soft s = { s with lines := (fireLine line x soft s).lines } := by
  unfold fireLine
  split <;> rfl

/-- Master m listens for starts of source `src`, takes them, and its group is idle with none accepted. -/
structure ReadyFor (s : State) (m src : Nat) : Prop where
  takes : refusesStart s m = false
  pend : (getGroup s m).pend = none
  opening : (getGroup s m).opening = none
  src : startSrc s m = src
  running : (getGroup s m).running = false
  boundary : (getGroup s m).boundary = false

theorem ReadyFor.congr {s t : State} {m src : Nat} (h : ReadyFor s m src) (hg : getGroup t m = getGroup s m)
    (hr : refusesStart t m = refusesStart s m) (hs : startSrc t m = startSrc s m) : ReadyFor t m src :=
  ⟨hr.trans h.takes, hg ▸ h.pend, hg ▸ h.opening, hs.trans h.src, hg ▸ h.running, hg ▸ h.boundary⟩

theorem ReadyFor.elsewhere {s t : State} {m src : Nat} (h : ReadyFor s m src) (he : StartsElsewhere m s t) :
    ReadyFor t m src := h.congr he.group he.refusesStart he.startSrc

theorem ReadyFor.passTo {s : State} {m src : Nat} {x : BitVec 48} (h : ReadyFor s m src) :
    ReadyFor (passTo x s) m src :=
  h.congr (getGroup_passTo ..) (refusesStart_of_eq (by simp) (by simp) (by simp) (by simp) (by simp))
    (rd_congr (passTo_regs ..) ..)

theorem ReadyFor.fireLine {s : State} {m src : Nat} (h : ReadyFor s m src) (line : Nat) (x : BitVec 48) (soft : Bool) :
    ReadyFor (fireLine line x soft s) m src := by
  rw [fireLine_eq]
  exact h.congr rfl rfl rfl

theorem startAt_lines (m src : Nat) (named : BitVec 48) (s : State) : (startAt m src named s).lines = s.lines := by
  unfold startAt fixOpening startOverrun
  dsimp only
  split_ifs <;> simp

theorem startAt_clk (m src : Nat) (named : BitVec 48) (s : State) : (startAt m src named s).clk = s.clk := by
  unfold startAt fixOpening startOverrun
  dsimp only
  split_ifs <;> simp

/-- A line whose block is up is waiting once it fired. -/
theorem mem_lines_fireLine {s : State} (h : ptUp s .evt = true) (line : Nat) (x : BitVec 48) (soft : Bool) :
    (x, line, soft) ∈ (fireLine line x soft s).lines := by
  unfold fireLine
  split
  case isTrue hf => simpa [h] using hf
  case isFalse => simp

/-- The starts SYNC takes change neither the clock nor the waiting lines. -/
theorem foldl_startAt_clk_lines {src : Nat} {named : State → BitVec 48} (l : List Nat) (s : State) :
    (l.foldl (fun t k => startAt k src (named t) t) s).clk = s.clk ∧
      (l.foldl (fun t k => startAt k src (named t) t) s).lines = s.lines :=
  foldl_rel (fun s t => t.clk = s.clk ∧ t.lines = s.lines) (fun _ => ⟨rfl, rfl⟩)
    (fun _ _ _ h1 h2 => ⟨h2.1.trans h1.1, h2.2.trans h1.2⟩) _ (fun _ _ => ⟨startAt_clk .., startAt_lines ..⟩) l s

theorem syncLine_clk (s : State) : (syncLine s).clk = (passTo (syncFrom s.clk.tc) s).clk := by
  unfold syncLine
  dsimp only
  rw [(foldl_startAt_clk_lines (named := fun t => t.clk.tc) _ _).1, fireLine_eq]

theorem syncLine_lines {s : State} (h : ptUp s .evt = true) :
    ((passTo (syncFrom s.clk.tc) s).clk.tc, 126, false) ∈ (syncLine s).lines := by
  unfold syncLine
  dsimp only
  rw [(foldl_startAt_clk_lines (named := fun t => t.clk.tc) _ _).2]
  exact mem_lines_fireLine (by rwa [ptUp_congr (passTo_boot ..) (phase_congr (reg_congr (passTo_regs ..) ..))]) _ _ _

/-- The fold of the starts SYNC takes meets master m once: there it fixes the opening of an idle group. -/
theorem foldl_startAt_opening {l : List Nat} {m : Nat} {s : State} (hm : m ∈ l) (hnd : l.Nodup)
    (h : ReadyFor s m 2) :
    (getGroup (l.foldl (fun t k => startAt k 2 t.clk.tc t) s) m).opening = some (syncFrom (s.clk.tc + 24)) := by
  obtain ⟨a, b, rfl⟩ := List.append_of_mem hm
  obtain ⟨-, hb, hab⟩ := List.nodup_append.1 hnd
  have ha : m ∉ a := fun h => hab m h m List.mem_cons_self rfl
  rw [List.foldl_append, List.foldl_cons]
  have hA : StartsElsewhere m s _ := startsElsewhere_foldl (src := 2) (named := fun t => t.clk.tc) a s ha
  generalize a.foldl (fun t k => startAt k 2 t.clk.tc t) s = t at hA ⊢
  have ht := h.elsewhere hA
  rw [(startsElsewhere_foldl (src := 2) (named := fun t => t.clk.tc) b _ (List.nodup_cons.1 hb).1).group,
    startAt_of_idle ht.takes ht.pend ht.opening ht.src (by decide) ht.running ht.boundary, getGroup_setGroup_self, hA.clk]
  rfl

/-- SYNC fixes the opening of an idle group whose master listens for it. -/
theorem syncLine_opening {s : State} {m : Nat} (hm : m < 8) (h : ReadyFor s m 2) :
    (getGroup (syncLine s) m).opening = some (syncFrom ((syncLine s).clk.tc + 24)) := by
  rw [syncLine_clk]
  unfold syncLine
  rw [foldl_startAt_opening (List.mem_range.2 hm) List.nodup_range (h.passTo.fireLine ..), fireLine_eq]

end Sys2Proof.Machine
end

section
/-! O22: starts are accepted or counted. -/

open Sys2Proof Sys2Proof.Machine

/-- Settles O22, by the cases of `startAt` and `selfStart`; the fold over the masters that SYNC makes meets master m once. -/
theorem startsAreAcceptedOrCounted : Obligations.StartsAreAcceptedOrCounted := by
  unfold Obligations.StartsAreAcceptedOrCounted
  intro s m hup x mine overrun src free
  have hgo : exec (.shotGo m) s = .next (startAt m.val 6 s.clk.tc s) := congrArg Host.Outcome.next (whenReg_of hup)
  have hself : exec (.selfStart m) s = .next (selfStart m.val s) := congrArg Host.Outcome.next (whenUp_of hup)
  have hsync : exec .syncLine s = .next (syncLine s) := congrArg Host.Outcome.next (whenUp_of hup)
  have hover (t : State) : rdBit (startOverrun m.val t) .seq (112 + m.val) 0x010 1 = true :=
    rdBit_raiseEvt_self t _ _ _ (by decide)
  have hmine (f : Group → Group) : mine f (setGroup s m.val (f x)) :=
    ⟨getGroup_setGroup_self .., fun g hg => getGroup_setGroup_ne _ _ hg, rfl⟩
  refine ⟨?other, ?refused, ?busy, ?idle, ?selfNot, ?selfRefused, ?selfFree, ?sync, ?line⟩
  case other =>
    intro hs
    rw [hgo, startAt_of_other hs]
  case refused =>
    intro hs hr
    refine ⟨_, hgo, ?_⟩
    rw [startAt_of_refused hs hr]
    exact ⟨hover s, regsBut_startOverrun _ _, onlyRegsIrq_raiseEvt ..⟩
  case busy =>
    rintro hs ⟨hr, hp, ho⟩ hb
    refine ⟨_, hgo, ?_⟩
    rw [startAt_of_busy hr hp ho hs (by decide) hb]
    exact hmine fun x => { x with pend := some (6, s.clk.tc) }
  case idle =>
    rintro hs ⟨hr, hp, ho⟩ hrun hb
    refine ⟨_, hgo, ?_⟩
    rw [startAt_of_idle hr hp ho hs (by decide) hrun hb]
    exact hmine fun x => { x with opening := some (s.clk.tc + 24) }
  case selfNot =>
    intro h
    rw [hself, selfStart_of_not h]
  case selfRefused =>
    intro hs hrun hb ho hr
    refine ⟨_, hself, ?_⟩
    rw [selfStart_of_refused hs hrun hb ho hr]
    refine ⟨hover _, ?_, ?_, fun g hg => ?_⟩
    · exact regsBut_then (t := setGroup s m.val _) (regsBut_of_eq rfl) (regsBut_startOverrun _ _)
    · exact (getGroup_raiseEvt ..).trans (getGroup_setGroup_self ..)
    · exact (getGroup_raiseEvt ..).trans (getGroup_setGroup_ne _ _ hg)
  case selfFree =>
    intro hs hrun hb ho hr due
    refine ⟨_, hself, ?_⟩
    rw [selfStart_of_free hs hrun hb ho hr]
    exact hmine fun x => { x with opening := some (if x.opened then laterTick due (x.bEnd + 24) else due) }
  case sync =>
    rintro hs ⟨hr, hp, ho⟩ hrun hb
    exact ⟨_, hsync, syncLine_opening m.isLt ⟨hr, hp, ho, hs, hrun, hb⟩, syncLine_clk s⟩
  case line =>
    intro hevt
    exact ⟨_, hsync, syncLine_lines hevt⟩

end

section
/-! What the withdrawals of a retirement change, that they make the ledger fit, and the bytes that a retirement keeps
(R33, R291 to R295). -/

namespace Sys2Proof.Machine

/-! ## Tables from which keys are left out -/

/-- Leaving entries out by their keys leaves the other keys' values. -/
theorem mapGet_filter_key {α : Type} [DecidableEq α] {d : Nat → α} (p : Nat → Bool) (k : Nat) :
    ∀ {m : List (Nat × α)} {lb : Nat}, mapOk d lb m = true →
      mapGet d (m.filter (fun e => p e.1)) k = if p k then mapGet d m k else d k
  | [], _, _ => by simp
  | (k', v) :: m, lb, hm => by
    obtain ⟨hlb, hv, hm⟩ := (mapOk_cons _ _ _ _ _).1 hm
    have ih := mapGet_filter_key p k hm
    rw [List.filter_cons, mapGet_cons]
    dsimp only
    rcases Nat.lt_trichotomy k k' with hlt | rfl | hgt
    · rw [if_neg (Nat.ne_of_lt hlt), if_pos hlt, ite_self]
      split
      · rw [mapGet_cons, if_neg (Nat.ne_of_lt hlt), if_pos hlt]
      · exact mapGet_of_lt (Nat.lt_succ_of_lt hlt) (mapOk_filter _ hm)
    · rw [if_pos rfl]
      split
      · rw [mapGet_cons, if_pos rfl]
      · exact mapGet_of_lt (Nat.lt_succ_self k) (mapOk_filter _ hm)
    · rw [if_neg (Nat.ne_of_gt hgt), if_neg (Nat.lt_asymm hgt)]
      split
      · rw [mapGet_cons, if_neg (Nat.ne_of_gt hgt), if_neg (Nat.lt_asymm hgt), ih]
      · exact ih

/-! ## Ports and capture units -/

@[simp] theorem getPort_setPort_self (s : State) (p : Nat) (x : Port) : getPort (setPort s p x) p = x :=
  mapGet_mapSet_self _ _ _ _

theorem getPort_setPort_ne (s : State) {p q : Nat} (x : Port) (h : q ≠ p) : getPort (setPort s p x) q = getPort s q :=
  mapGet_mapSet_of_ne _ _ _ h

theorem getPort_congr {s t : State} (h : t.ports = s.ports) (p : Nat) : getPort t p = getPort s p := by
  unfold getPort
  rw [h]

/-! ## Withdrawals -/

/-- The registers a withdrawal may change: those of the capture units, WDRAWN and PG_FAULT of the Pantry. -/
def WithdrawReg (a : Nat) : Prop :=
  (∃ u off, u < 8 ∧ off < 4096 ∧ a = addrOf .cap u off) ∨
    a ∈ [addrOf .pantry 0 0x018, addrOf .pantry 0 0x070, addrOf .pantry 0 0x074, addrOf .pantry 0 0x078]

/-- Between `s` and `t` ports were withdrawn: some left the ledger, and the capture units behind them stopped. -/
structure Withdraws (s t : State) : Prop where
  rest : { t with regs := s.regs, tick := s.tick, i3c := s.i3c, ports := s.ports, caps := s.caps,
                  wdrawn := s.wdrawn, wfreed := s.wfreed } = s
  regs : ∀ a, ¬ WithdrawReg a → getReg t a = getReg s a
  lost : rdBit t .pantry 0 0x018 2 = rdBit s .pantry 0 0x018 2
  ports : ∀ p, getPort t p = getPort s p ∨ getPort t p = { getPort s p with admitted := false }

namespace Withdraws

variable {s t u : State}

theorem refl (s : State) : Withdraws s s := ⟨rfl, fun _ _ => rfl, rfl, fun _ => .inl rfl⟩

theorem trans (h : Withdraws s t) (h' : Withdraws t u) : Withdraws s u where
  rest := (congrArg (fun x : State => { x with
    regs := s.regs, tick := s.tick, i3c := s.i3c, ports := s.ports, caps := s.caps,
    wdrawn := s.wdrawn, wfreed := s.wfreed }) h'.rest).trans h.rest
  regs a ha := (h'.regs a ha).trans (h.regs a ha)
  lost := h'.lost.trans h.lost
  ports p := by
    rcases h.ports p with e | e <;> rcases h'.ports p with e' | e' <;> simp [e, e']

theorem ite {c : Prop} [Decidable c] {t' : State} (h : Withdraws s t) (h' : Withdraws s t') :
    Withdraws s (if c then t else t') := by
  split
  · exact h
  · exact h'

/-- The lists of withdrawals that wait, and the capture units' own state. -/
theorem lists (h : Withdraws s t) (w f : List Nat) (c : List (Nat × Cap)) :
    Withdraws s { t with wdrawn := w, wfreed := f, caps := c } :=
  h.trans ⟨rfl, fun _ _ => rfl, rfl, fun _ => .inl rfl⟩

theorem setPort (h : Withdraws s t) (p : Nat) : Withdraws s (setPort t p { getPort t p with admitted := false }) := by
  refine h.trans ⟨rfl, fun _ _ => rfl, rfl, fun q => ?_⟩
  by_cases hq : q = p
  · subst hq
    exact .inr (getPort_setPort_self ..)
  · exact .inl (getPort_setPort_ne _ _ hq)

/-- A write to a register of a withdrawal other than PG_FAULT. -/
theorem wr (h : Withdraws s t) {pt : PT} {n off : Nat} (ha : WithdrawReg (addrOf pt n off))
    (hf : addrOf .pantry 0 0x018 ≠ addrOf pt n off) (hi lo v : Nat) : Withdraws s (wr t pt n off hi lo v) :=
  h.trans ⟨rfl, fun _ hb => getReg_wr_ne _ _ _ _ _ _ _ (fun e : _ = addrOf pt n off => hb (e ▸ ha)), rdBit_wr_ne _ _ _ _ _ _ _ _ hf,
    fun _ => .inl rfl⟩

theorem raiseBit (h : Withdraws s t) {pt : PT} {n off : Nat} (ha : WithdrawReg (addrOf pt n off))
    (hf : addrOf .pantry 0 0x018 ≠ addrOf pt n off) (i : Nat) : Withdraws s (raiseBit pt n off i t) := by
  refine (h.wr ha hf i i 1).trans ?_
  rw [raiseBit_eq]
  exact ⟨rfl, fun _ _ => rfl, rfl, fun _ => .inl rfl⟩

/-- A fault of a capture unit, or PORT_WITHDRAWN. -/
theorem raiseFault (h : Withdraws s t) {pt : PT} {n bit : Nat} (ha : WithdrawReg (addrOf pt n 0x018))
    (hb : addrOf .pantry 0 0x018 ≠ addrOf pt n 0x018 ∨ bit = 1) : Withdraws s (raiseFault pt n bit t) := by
  refine h.trans ⟨?_, fun b hb => ?_, ?_, fun _ => .inl (getPort_congr (by simp) _)⟩
  · rw [raiseFault_eq]
    rfl
  · rw [getReg_raiseFault, if_neg (fun e : b = addrOf pt n 0x018 => hb (e ▸ ha))]
  · rw [rdBit_congr (raiseFault_regs ..)]
    rcases hb with hne | rfl
    · exact rdBit_wr_ne _ _ _ _ _ _ _ _ hne
    · by_cases he : addrOf .pantry 0 0x018 = addrOf pt n 0x018
      · unfold rdBit reg
        rw [he]
        exact (rdBit_wr_self t pt n 0x018 1 1 1 2 (Nat.le_refl _) (by decide)).trans (if_neg (by decide))
      · exact rdBit_wr_ne _ _ _ _ _ _ _ _ he

theorem leaveLedger (h : Withdraws s t) {p : Nat} (hp : p < 96) : Withdraws s (leaveLedger p t) := by
  have hw : WithdrawReg (addrOf .pantry 0 (0x070 + 4 * (p / 32))) := .inr (by
    have : p / 32 = 0 ∨ p / 32 = 1 ∨ p / 32 = 2 := by omega
    rcases this with e | e | e <;> simp [e])
  exact ((h.setPort p).raiseBit hw (addrOf_ne_off (by omega)) _).raiseFault (.inr (by simp)) (.inr rfl)

theorem withdrawUnit (h : Withdraws s t) {u : Nat} (hu : u < 8) : Withdraws s (withdrawUnit u t) := by
  have hne {off : Nat} (ho : off < 4096) : addrOf .pantry 0 0x018 ≠ addrOf .cap u off :=
    addrOf_ne_page (by decide) ho (by simp only [ptBase]; omega)
  have hend : Withdraws s (endUnit u 0xC t) :=
    (h.lists t.wdrawn t.wfreed _).wr (.inl ⟨u, _, hu, by decide, rfl⟩) (hne (by decide)) _ _ _
  exact (hend.lists _ _ _).raiseFault (.inl ⟨u, _, hu, by decide, rfl⟩) (.inl (hne (by decide)))

theorem withdrawEffect (h : Withdraws s t) {p : Nat} : Withdraws s (withdrawEffect p t) :=
  .ite (h.withdrawUnit (Nat.mod_lt _ (by decide))) h

theorem settleOne (h : Withdraws s t) {p : Nat} (hp : p < 96) : Withdraws s (settleOne p t) :=
  have h1 := h.lists (t.wdrawn.filter (fun q => decide (q ≠ p))) t.wfreed t.caps
  (ite (h1.leaveLedger hp) h1).withdrawEffect

theorem settleFreed (h : Withdraws s t) {p : Nat} : Withdraws s (settleFreed p t) :=
  (h.lists t.wdrawn (t.wfreed.filter (fun q => decide (q ≠ p))) t.caps).withdrawEffect

theorem withdrawPort (h : Withdraws s t) {p : Nat} (hp : p < 96) : Withdraws s (withdrawPort t p) :=
  have h1 : Withdraws s (if t.wdrawn.contains p then t else { t with wdrawn := t.wdrawn ++ [p] }) :=
    .ite h (h.lists _ t.wfreed t.caps)
  .ite h1 (h1.settleOne hp)

theorem freePort (h : Withdraws s t) {p : Nat} (hp : p < 96) : Withdraws s (freePort p t) :=
  have h1 := (h.lists (t.wdrawn.filter (fun q => decide (q ≠ p)))
    (t.wfreed.filter (fun q => decide (q ≠ p)) ++ [p]) t.caps).leaveLedger hp
  .ite h1 h1.settleFreed

theorem shedLedger {cap : Nat} : ∀ {l : List Nat} {t : State}, Withdraws s t → (∀ p ∈ l, p < 96) →
    Withdraws s (shedLedger cap l t)
  | [], _, h, _ => h
  | p :: l, t, h, hl => by
    obtain ⟨hp, hl⟩ := List.forall_mem_cons.1 hl
    exact .ite h (.ite (shedLedger (h.freePort hp) hl) (shedLedger h hl))

theorem foldl_withdrawPort : ∀ {l : List Nat} {t : State}, Withdraws s t → (∀ p ∈ l, p < 96) →
    Withdraws s (l.foldl Machine.withdrawPort t)
  | [], _, h, _ => h
  | p :: l, t, h, hl => by
    obtain ⟨hp, hl⟩ := List.forall_mem_cons.1 hl
    exact foldl_withdrawPort (t := Machine.withdrawPort t p) (h.withdrawPort hp) hl

theorem withdrawAbove (h : Withdraws s t) (limit : Nat) : Withdraws s (withdrawAbove limit t) :=
  foldl_withdrawPort h fun _ hp => List.mem_range.1 (List.mem_filter.1 hp).1

theorem shedAll (h : Withdraws s t) (cap : Nat) : Withdraws s (Machine.shedLedger cap (List.range 96).reverse t) :=
  shedLedger h fun _ hp => List.mem_range.1 (List.mem_reverse.1 hp)

theorem withdrawFor (h : Withdraws s t) : Withdraws s (withdrawFor t) := (h.shedAll _).withdrawAbove _

/-! ### What a withdrawal keeps -/

theorem retired (h : Withdraws s t) : t.retired = s.retired := (congrArg State.retired h.rest :)
theorem evac (h : Withdraws s t) : t.evac = s.evac := (congrArg State.evac h.rest :)
theorem retWait (h : Withdraws s t) : t.retWait = s.retWait := (congrArg State.retWait h.rest :)
theorem pantry (h : Withdraws s t) : t.pantry = s.pantry := (congrArg State.pantry h.rest :)
theorem pzero (h : Withdraws s t) : t.pzero = s.pzero := (congrArg State.pzero h.rest :)
theorem fills (h : Withdraws s t) : t.fills = s.fills := (congrArg State.fills h.rest :)

theorem liveChannels (h : Withdraws s t) : liveChannels t = liveChannels s := by
  unfold Machine.liveChannels
  rw [h.retired]

/-- A port that is out of the ledger stays out. -/
theorem not_admitted (h : Withdraws s t) {p : Nat} (hp : (getPort s p).admitted = false) :
    (getPort t p).admitted = false := by
  rcases h.ports p with e | e <;> simp [e, hp]

theorem ledgerUsed_le (h : Withdraws s t) : ledgerUsed t ≤ ledgerUsed s := by
  refine List.sum_le_sum fun p _ => ?_
  rcases h.ports p with e | e <;> simp [e]

theorem reg_pch (h : Withdraws s t) {c off : Nat} (hc : c < 32) (ho : off < 4096) : reg t .pch c off = reg s .pch c off := by
  refine h.regs _ ?_
  rintro (⟨u, off', hu, ho', e⟩ | e)
  · have := (addrOf_inj ho ho' e).1
    simp only [ptBase] at this
    omega
  · simp only [List.mem_cons, List.not_mem_nil, or_false] at e
    rcases e with e | e | e | e <;>
    · have := (addrOf_inj ho (by decide) e).1
      simp only [ptBase] at this
      omega

/-- RET_STAT. -/
theorem reg_retStat (h : Withdraws s t) : reg t .pantry 0 0x0A4 = reg s .pantry 0 0x0A4 := by
  refine h.regs _ ?_
  rintro (⟨u, off', hu, ho', e⟩ | e)
  · have := (addrOf_inj (by decide) ho' e).1
    simp only [ptBase] at this
    omega
  · simp [addrOf] at e

end Withdraws

/-! ## Step 1 makes the ledger fit -/

/-- A port released by step 1 is out of the ledger. -/
theorem not_admitted_freePort (s : State) (p : Nat) : (getPort (freePort p s) p).admitted = false := by
  have hleave (t : State) : (getPort (leaveLedger p t) p).admitted = false := by
    unfold leaveLedger
    rw [getPort_congr (s := setPort t p _) (by rw [raiseFault_eq, raiseBit_eq]; rfl), getPort_setPort_self]
  unfold freePort
  dsimp only
  split
  · exact hleave _
  · exact (Withdraws.settleFreed (.refl _)).not_admitted (hleave _)

/-- Step 1 ends with a ledger that fits, or with every port of its list out of the ledger. -/
theorem shedLedger_fits {cap : Nat} : ∀ {l : List Nat} {s : State}, (∀ p ∈ l, p < 96) →
    ledgerUsed (shedLedger cap l s) ≤ cap ∨ ∀ p ∈ l, (getPort (shedLedger cap l s) p).admitted = false
  | [], _, _ => .inr (by simp)
  | _ :: _, _, hl => by
    obtain ⟨hp, hl⟩ := List.forall_mem_cons.1 hl
    unfold shedLedger
    split
    case isTrue h => exact .inl h
    case isFalse =>
      split
      case isTrue =>
        refine (shedLedger_fits hl).imp_right fun h => List.forall_mem_cons.2 ⟨?_, h⟩
        exact (Withdraws.shedLedger (.refl _) hl).not_admitted (not_admitted_freePort _ _)
      case isFalse ha =>
        refine (shedLedger_fits hl).imp_right fun h => List.forall_mem_cons.2 ⟨?_, h⟩
        exact (Withdraws.shedLedger (.refl _) hl).not_admitted (by simpa using ha)

theorem ledgerUsed_of_none {s : State} (h : ∀ p < 96, (getPort s p).admitted = false) : ledgerUsed s = 0 := by
  unfold ledgerUsed
  rw [List.sum_eq_zero]
  intro b hb
  obtain ⟨p, hp, rfl⟩ := List.mem_map.1 hb
  rw [h p (List.mem_range.1 hp), if_neg (by decide)]

theorem ledgerUsed_shedLedger (cap : Nat) (s : State) :
    ledgerUsed (shedLedger cap (List.range 96).reverse s) ≤ cap := by
  rcases shedLedger_fits (cap := cap) (l := (List.range 96).reverse) (s := s)
    (fun p hp => List.mem_range.1 (List.mem_reverse.1 hp)) with h | h
  · exact h
  · rw [ledgerUsed_of_none fun p hp => h p (List.mem_reverse.2 (List.mem_range.2 hp))]
    exact Nat.zero_le _

/-- After the withdrawals the ledger fits the channels that stay (R292). -/
theorem ledgerUsed_withdrawFor (s : State) : ledgerUsed (withdrawFor s) ≤ 240 * (liveChannels s - 1) :=
  (Withdraws.withdrawAbove (.refl _) _).ledgerUsed_le.trans (ledgerUsed_shedLedger _ _)

/-! ## A planned retirement begins -/

section
variable (s : State) (ch : Nat)

/-- A channel whose planned retirement is pending, and neither begun nor waiting. -/
def RetirementDue : Prop :=
  ch ∉ s.retired ∧ s.evac ≠ some ch ∧ ch ∉ s.retWait ∧ { kind := 7, inst := ch, unit := 0 } ∈ s.subs

variable {s ch}

theorem retirementStart_of_not (h : ¬ RetirementDue s ch) : retirementStart ch s = s := by
  unfold retirementStart
  rw [if_pos]
  unfold RetirementDue at h
  simp only [Bool.or_eq_true, Bool.not_eq_true', List.contains_eq_mem, decide_eq_true_eq, decide_eq_false_iff_not]
  tauto

theorem retirementStart_of_due (h : RetirementDue s ch) :
    retirementStart ch s =
      if liveChannels s ≤ 1 then keepLast ch s
      else if s.evac.isSome then { s with retWait := s.retWait ++ [ch] } else startRetire ch s := by
  obtain ⟨hret, hev, hwait, hsub⟩ := h
  unfold retirementStart
  rw [if_neg (by simp [hret, hev, hwait, hsub])]

end

/-- RET_STAT shows the step and the channel. -/
theorem rd_setRetStat (s : State) {st ch mb : Nat} (hst : st < 16) (hch : ch < 32) (hmb : mb < 2 ^ 16) :
    rd (setRetStat st ch mb s) .pantry 0 0x0A4 31 28 = st ∧
      rd (setRetStat st ch mb s) .pantry 0 0x0A4 20 16 = ch := by
  unfold setRetStat rd
  rw [reg_wrAll_self, fget_ofNat _ _ _ (by omega), fget_ofNat _ _ _ (by omega)]
  unfold nbits
  constructor <;> omega

theorem reg_pch_setRetStat (st ch mb : Nat) (s : State) {c off : Nat} (ho : off < 4096) :
    reg (setRetStat st ch mb s) .pch c off = reg s .pch c off :=
  reg_wrAll_ne _ _ _ _ _ (addrOf_ne_page ho (by decide) (by simp only [ptBase]; omega))

theorem reg_pantry_setChState (ch v : Nat) (s : State) {off : Nat} (ho : off < 4096) :
    reg (setChState ch v s) .pantry 0 off = reg s .pantry 0 off :=
  reg_wr_ne _ _ _ _ _ _ _ (addrOf_ne_page ho (by decide) (by simp only [ptBase]; omega))

/-- Only the registers of the step can change when the evacuation begins. -/
theorem onlyRegs_evacBegin (s : State) : onlyRegs s (evacBegin s) := by
  unfold evacBegin
  cases s.evac with
  | none => exact onlyRegs_refl s
  | some ch =>
    dsimp only
    split
    · exact onlyRegs_trans (onlyRegs_wr ..) (onlyRegs_wrAll ..)
    · exact onlyRegs_refl s

section
variable {s : State} {c : Nat}

theorem evacBegin_of_waiting (h : s.wdrawn ≠ [] ∨ s.wfreed ≠ []) : evacBegin s = s := by
  unfold evacBegin
  cases s.evac with
  | none => rfl
  | some ch =>
    refine if_neg ?_
    simp only [Bool.and_eq_true, List.isEmpty_iff]
    tauto

theorem evacBegin_of_settled (he : s.evac = some c) (hst : retState s = 1) (hw : s.wdrawn = []) (hf : s.wfreed = []) :
    evacBegin s = setRetStat 2 c 0 (setChState c 3 s) := by
  unfold evacBegin
  rw [he]
  exact if_pos (by simp [hst, hw, hf])

/-- The withdrawals of the retirement that begins. -/
theorem withdraws_startRetire (s : State) (c : Nat) :
    Withdraws { setRetStat 1 c 0 s with evac := some c } (withdrawFor { setRetStat 1 c 0 s with evac := some c }) :=
  .withdrawFor (.refl _)

/-- What the beginning of the evacuation does not change. -/
theorem evacBegin_field {α : Type} (f : State → α) (hf : ∀ s r k, f { s with regs := r, tick := k } = f s) (s : State) :
    f (evacBegin s) = f s := by
  rw [onlyRegs_iff.1 (onlyRegs_evacBegin s), hf]

/-- A planned retirement keeps the contents and the channels until its end. -/
theorem startRetire_keeps (s : State) (c : Nat) :
    (startRetire c s).evac = some c ∧ (startRetire c s).retired = s.retired ∧ (startRetire c s).pantry = s.pantry ∧
      (startRetire c s).retWait = s.retWait := by
  have hw := withdraws_startRetire s c
  unfold startRetire
  exact ⟨(evacBegin_field State.evac (fun _ _ _ => rfl) _).trans hw.evac,
    (evacBegin_field State.retired (fun _ _ _ => rfl) _).trans hw.retired,
    (evacBegin_field State.pantry (fun _ _ _ => rfl) _).trans hw.pantry,
    (evacBegin_field State.retWait (fun _ _ _ => rfl) _).trans hw.retWait⟩

theorem ledgerUsed_startRetire (s : State) (c : Nat) : ledgerUsed (startRetire c s) ≤ 240 * (liveChannels s - 1) := by
  unfold startRetire
  rw [evacBegin_field ledgerUsed (fun _ _ _ => rfl)]
  exact ledgerUsed_withdrawFor _

/-- A planned retirement that begins loses no data. -/
theorem startRetire_lost (c : Nat) (s : State) :
    rdBit (startRetire c s) .pantry 0 0x018 2 = rdBit s .pantry 0 0x018 2 := by
  have hset (st c mb : Nat) (t : State) : rdBit (setRetStat st c mb t) .pantry 0 0x018 2 = rdBit t .pantry 0 0x018 2 := by
    unfold rdBit setRetStat
    rw [reg_wrAll_ne _ _ _ _ _ (addrOf_ne_off (by decide))]
  have hbegin (t : State) : rdBit (evacBegin t) .pantry 0 0x018 2 = rdBit t .pantry 0 0x018 2 := by
    unfold evacBegin
    split
    · rfl
    · split
      · rw [hset]
        unfold rdBit
        rw [reg_pantry_setChState _ _ _ (by decide)]
      · rfl
  unfold startRetire
  rw [hbegin, (withdraws_startRetire s c).lost]
  exact hset 1 c 0 s

/-- What the registers show after a planned retirement began. -/
theorem startRetire_shows (s : State) (hc : c < 32) :
    ((startRetire c s).wdrawn = [] → (startRetire c s).wfreed = [] →
      rd (startRetire c s) .pantry 0 0x0A4 31 28 = 2 ∧ rd (startRetire c s) .pch c 0x040 31 28 = 3) ∧
    ((startRetire c s).wdrawn ≠ [] ∨ (startRetire c s).wfreed ≠ [] →
      rd (startRetire c s) .pantry 0 0x0A4 31 28 = 1 ∧
        rd (startRetire c s) .pch c 0x040 31 28 = rd s .pch c 0x040 31 28) := by
  have hw := withdraws_startRetire s c
  unfold startRetire
  rw [evacBegin_field State.wdrawn (fun _ _ _ => rfl), evacBegin_field State.wfreed (fun _ _ _ => rfl)]
  generalize withdrawFor { setRetStat 1 c 0 s with evac := some c } = u at hw
  have hst : retState u = 1 := by
    unfold retState rd
    rw [hw.reg_retStat]
    exact (rd_setRetStat s (by decide) hc (by decide)).1
  constructor
  · intro h1 h2
    rw [evacBegin_of_settled hw.evac hst h1 h2]
    refine ⟨(rd_setRetStat _ (by decide) hc (by decide)).1, ?_⟩
    unfold rd
    rw [reg_pch_setRetStat _ _ _ _ (by decide)]
    exact rd_wr_self _ _ _ _ _ _ _ (by decide) (by decide)
  · intro h
    rw [evacBegin_of_waiting h]
    refine ⟨hst, ?_⟩
    unfold rd
    rw [hw.reg_pch hc (by decide)]
    exact congrArg (fget · 31 28) (reg_pch_setRetStat 1 c 0 s (by decide))

end

/-! ## A channel retires -/

/-- The contents, and how far retirement has come. -/
structure SameContents (s t : State) : Prop where
  retired : t.retired = s.retired
  evac : t.evac = s.evac
  retWait : t.retWait = s.retWait
  pantry : t.pantry = s.pantry
  pzero : t.pzero = s.pzero
  fills : t.fills = s.fills

namespace SameContents

variable {s t u : State}

theorem refl (s : State) : SameContents s s := ⟨rfl, rfl, rfl, rfl, rfl, rfl⟩

theorem trans (h : SameContents s t) (h' : SameContents t u) : SameContents s u :=
  ⟨h'.retired.trans h.retired, h'.evac.trans h.evac, h'.retWait.trans h.retWait, h'.pantry.trans h.pantry,
    h'.pzero.trans h.pzero, h'.fills.trans h.fills⟩

theorem of_withdraws (h : Withdraws s t) : SameContents s t :=
  ⟨h.retired, h.evac, h.retWait, h.pantry, h.pzero, h.fills⟩

theorem wr (pt : PT) (n off hi lo v : Nat) (s : State) : SameContents s (wr s pt n off hi lo v) :=
  ⟨rfl, rfl, rfl, rfl, rfl, rfl⟩

theorem wrAll (pt : PT) (n off v : Nat) (s : State) : SameContents s (wrAll s pt n off v) :=
  ⟨rfl, rfl, rfl, rfl, rfl, rfl⟩

theorem raiseEvt (pt : PT) (n bit : Nat) (s : State) : SameContents s (raiseEvt pt n bit s) := by
  constructor <;> simp

theorem raiseFault (pt : PT) (n bit : Nat) (s : State) : SameContents s (raiseFault pt n bit s) := by
  constructor <;> simp

theorem logEvent (cause page detail : Nat) (s : State) : SameContents s (logEvent cause page detail s) := by
  unfold Machine.logEvent raiseEvtIf
  extract_lets e full s1
  have h1 : SameContents s s1 := ⟨rfl, rfl, rfl, rfl, rfl, rfl⟩
  split
  · exact h1.trans (.raiseEvt ..)
  · exact h1

theorem writeMap (kind act ins unit spare : Nat) (s : State) :
    SameContents s (writeMap kind act ins unit spare s) := by
  unfold Machine.writeMap
  extract_lets lo e page s1
  have h1 : SameContents s s1 := .logEvent ..
  split
  · exact h1.trans ⟨rfl, rfl, rfl, rfl, rfl, rfl⟩
  · exact h1.trans (.raiseFault ..)

theorem finishSub (kind act ins unit spare : Nat) (s : State) :
    SameContents s (finishSub kind act ins unit spare s) := by
  unfold Machine.finishSub
  extract_lets k s0 s1 s2 s3
  have h3 : SameContents s s3 := by
    unfold s3
    split
    · split <;> exact ⟨rfl, rfl, rfl, rfl, rfl, rfl⟩
    · exact ⟨rfl, rfl, rfl, rfl, rfl, rfl⟩
  exact (h3.trans (.writeMap ..)).trans (.raiseEvt ..)

theorem placeByte (h : SameContents s t) (p : Nat) : placeByte t p = placeByte s p := by
  unfold Machine.placeByte unwritten
  rw [h.pantry, h.pzero, h.fills]

end SameContents

/-- The contents after a channel retired: the top gigabyte is gone. -/
theorem retireChannel_contents (ch mb : Nat) (s : State) :
    SameContents { s with
      pantry := s.pantry.filter (fun e => decide (e.1 < (liveChannels s - 1) * 2 ^ 30))
      evac := if s.evac = some ch then none else s.evac
      retired := s.retired ++ [ch] } (retireChannel ch mb s) := by
  unfold retireChannel
  extract_lets s0 top s1 s2
  have hw : Withdraws s s0 := .ite (.refl s) (.withdrawFor (.refl s))
  have hs1 : SameContents { s with
      pantry := s.pantry.filter (fun e => decide (e.1 < (liveChannels s - 1) * 2 ^ 30))
      evac := if s.evac = some ch then none else s.evac
      retired := s.retired ++ [ch] } s1 := by
    refine ⟨?_, ?_, hw.retWait, ?_, hw.pzero, hw.fills⟩
    · exact congrArg (· ++ [ch]) hw.retired
    · exact hw.evac ▸ rfl
    · show s0.pantry.filter _ = _
      rw [hw.pantry, ← hw.liveChannels]
  have hs2 : SameContents (finishSub 7 2 ch 0 0 s1) s2 := .trans (.wr ..) (.wrAll ..)
  exact ((hs1.trans (.finishSub ..)).trans (hs2.trans (.wr ..))).trans (.raiseEvt ..)

/-- The registers of a channel that has left service. -/
def ShowsGone (c : Nat) (t : State) : Prop :=
  rd t .pch c 0x040 31 28 = 4 ∧ rd t .pch c 0x020 3 0 = 4 ∧ rd t .pantry 0 0x0A4 31 28 = 3 ∧
    rd t .pantry 0 0x0A4 20 16 = c ∧ rdBit t .pantry 0 0x010 2 = true

theorem retireChannel_gone {ch mb : Nat} (hch : ch < 32) (hmb : mb < 2 ^ 16) (s : State) :
    ShowsGone ch (retireChannel ch mb s) := by
  unfold retireChannel
  extract_lets s0 top s1 s2
  have h (off : Nat) (ho : off < 4096) : addrOf .pch ch off ≠ addrOf .pantry 0 0x010 :=
    addrOf_ne_page ho (by decide) (by simp only [ptBase]; omega)
  have h' (off : Nat) (ho : off < 4096) : addrOf .pantry 0 off ≠ addrOf .pch ch 0x020 :=
    addrOf_ne_page ho (by decide) (by simp only [ptBase]; omega)
  have hret := rd_setRetStat (st := 3) (setChState ch 4 (finishSub 7 2 ch 0 0 s1)) (by decide) hch hmb
  have hshow {hi lo : Nat} : rd (raiseEvt .pantry 0 2 (wr s2 .pch ch 0x020 3 0 4)) .pantry 0 0x0A4 hi lo =
      rd s2 .pantry 0 0x0A4 hi lo := by
    unfold rd
    rw [reg_raiseEvt_ne _ _ _ _ (addrOf_ne_off (by decide)), reg_wr_ne _ _ _ _ _ _ _ (h' _ (by decide))]
  refine ⟨?_, ?_, hshow.trans hret.1, hshow.trans hret.2, rdBit_raiseEvt_self _ _ _ _ (by decide)⟩
  · unfold rd
    rw [reg_raiseEvt_ne _ _ _ _ (h _ (by decide)), reg_wr_ne _ _ _ _ _ _ _ (addrOf_ne_off (by decide)),
      reg_pch_setRetStat _ _ _ _ (by decide)]
    exact rd_wr_self _ _ _ _ _ _ _ (by decide) (by decide)
  · unfold rd
    rw [reg_raiseEvt_ne _ _ _ _ (h _ (by decide))]
    exact rd_wr_self _ _ _ _ _ _ _ (by decide) (by decide)

/-- A planned retirement loses nothing below the top gigabyte. -/
theorem placeByte_retireChannel {s : State} (hok : mapOk (fun _ => (none : Option Byte)) 0 s.pantry = true) (ch mb : Nat)
    {p : Nat} (hp : p < (liveChannels s - 1) * 2 ^ 30) : placeByte (retireChannel ch mb s) p = placeByte s p := by
  have hp' : mapGet (fun _ => none) (s.pantry.filter (fun e => decide (e.1 < (liveChannels s - 1) * 2 ^ 30))) p =
      mapGet (fun _ => none) s.pantry p := by
    rw [mapGet_filter_key (fun k => decide (k < (liveChannels s - 1) * 2 ^ 30)) p hok, if_pos (decide_eq_true hp)]
  rw [(retireChannel_contents ch mb s).placeByte]
  unfold placeByte unwritten
  dsimp only
  rw [hp']

theorem retireChannel_retired (ch mb : Nat) (s : State) : (retireChannel ch mb s).retired = s.retired ++ [ch] :=
  (retireChannel_contents ch mb s).retired

theorem retireNext_of_none {s : State} (h : s.retWait = []) : retireNext s = s := by
  unfold retireNext
  rw [h]

theorem evacuationDone_of {s : State} {c : Nat} (he : s.evac = some c) (hst : retState s = 2) :
    evacuationDone s = retireNext (retireChannel c (belowMb s) s) := by
  unfold evacuationDone
  rw [he]
  exact if_pos hst

/-- The retirement that has waited longest takes no channel out of service when it begins, and clears no fault. -/
theorem retireNext_keeps (s : State) : (retireNext s).retired = s.retired ∧
    rdBit (retireNext s) .pantry 0 0x018 2 = rdBit s .pantry 0 0x018 2 := by
  have hkeep (ch : Nat) (t : State) : (keepLast ch t).retired = t.retired ∧
      rdBit (keepLast ch t) .pantry 0 0x018 2 = rdBit t .pantry 0 0x018 2 :=
    ⟨rfl, rdBit_wr_ne _ _ _ _ _ _ _ _ (addrOf_ne_page (by decide) (by decide) (by simp only [ptBase]; omega))⟩
  have hstart (ch : Nat) (t : State) : (startRetire ch t).retired = t.retired ∧
      rdBit (startRetire ch t) .pantry 0 0x018 2 = rdBit t .pantry 0 0x018 2 :=
    ⟨(startRetire_keeps t ch).2.1, startRetire_lost ch t⟩
  unfold retireNext
  split
  · exact ⟨rfl, rfl⟩
  · extract_lets s1
    split
    · exact ⟨rfl, rfl⟩
    · split
      · exact ⟨rfl, rfl⟩
      · split
        · exact hkeep _ s1
        · exact hstart _ s1

/-! ## A channel is lost -/

section
variable (s : State) (ch : Nat)

theorem withdraws_of_loss : Withdraws s
    (if liveChannels s ≤ 1 then withdrawAbove 0 (shedLedger 0 (List.range 96).reverse s) else withdrawFor s) :=
  .ite (.withdrawAbove (.shedAll (.refl s) 0) 0) (.withdrawFor (.refl s))

/-- The contents when a channel is lost, before it leaves service: its blocks read zero (R293). -/
def zeroedChannel : State :=
  { s with pantry := s.pantry.filter (fun e => decide (placeChannel s e.1 ≠ ch)), pzero := s.pzero ++ [(s.retired, ch)] }

/-- An abrupt retirement: the blocks zeroed, then the channel retired as at the end of an evacuation. -/
theorem abruptRetire_eq : ∃ u, SameContents (zeroedChannel s ch) u ∧
    abruptRetire s ch = raiseFault .pantry 0 2 (retireChannel ch 0 u) := by
  unfold abruptRetire
  extract_lets s1 s2 s3
  have hw : Withdraws s s1 := withdraws_of_loss s
  have h2 : SameContents (zeroedChannel s ch) s2 := by
    have hplace : placeChannel s1 = placeChannel s := by
      unfold placeChannel
      rw [hw.retired]
    refine ⟨hw.retired, hw.evac, hw.retWait, ?_, ?_, hw.fills⟩ <;> simp only [s2, zeroedChannel]
    · rw [hw.pantry, hplace]
    · rw [hw.pzero, hw.retired]
  exact ⟨s3, h2.trans (.logEvent ..), rfl⟩

theorem abruptRetire_keeps : (abruptRetire s ch).retired = s.retired ++ [ch] ∧ (abruptRetire s ch).retWait = s.retWait ∧
    rdBit (abruptRetire s ch) .pantry 0 0x018 2 = true := by
  obtain ⟨u, hu, he⟩ := abruptRetire_eq s ch
  have hr := retireChannel_contents ch 0 u
  rw [he]
  refine ⟨?_, ?_, rdBit_raiseFault_self _ _ _ _ (by decide)⟩
  · rw [raiseFault_retired, hr.retired]
    exact congrArg (· ++ [ch]) hu.retired
  · rw [raiseFault_retWait, hr.retWait]
    exact hu.retWait

variable {s ch}

theorem abruptRetire_gone (hch : ch < 32) : ShowsGone ch (abruptRetire s ch) := by
  obtain ⟨u, -, he⟩ := abruptRetire_eq s ch
  obtain ⟨h1, h2, h3, h4, h5⟩ := retireChannel_gone (mb := 0) hch (by decide) u
  have hpch {off : Nat} (ho : off < 4096) : addrOf .pch ch off ≠ addrOf .pantry 0 0x018 :=
    addrOf_ne_page ho (by decide) (by simp only [ptBase]; omega)
  unfold ShowsGone rd rdBit at *
  rw [he, reg_raiseFault_ne _ _ _ _ (hpch (by decide)), reg_raiseFault_ne _ _ _ _ (hpch (by decide)),
    reg_raiseFault_ne _ _ _ _ (addrOf_ne_off (by decide)), reg_raiseFault_ne _ _ _ _ (addrOf_ne_off (by decide))]
  exact ⟨h1, h2, h3, h4, h5⟩

/-- The bytes of the lost channel read zero, the others stay. -/
theorem placeByte_zeroedChannel (hok : mapOk (fun _ => (none : Option Byte)) 0 s.pantry = true) (p : Nat) :
    placeByte (zeroedChannel s ch) p = if placeChannel s p = ch then 0 else placeByte s p := by
  unfold placeByte unwritten zeroedChannel
  dsimp only
  rw [mapGet_filter_key (fun k => decide (placeChannel s k ≠ ch)) p hok, List.any_append, List.any_cons, List.any_nil,
    Bool.or_false]
  by_cases h : placeChannel s p = ch
  · have hd : decide (chanOfPlace s.retired p = ch) = true := decide_eq_true h
    rw [hd, if_pos h, if_neg (by simpa using h), Bool.or_true, if_pos rfl]
    rfl
  · have hd : decide (chanOfPlace s.retired p = ch) = false := decide_eq_false h
    rw [hd, if_neg h, if_pos (decide_eq_true h), Bool.or_false]

theorem placeByte_abruptRetire (hok : mapOk (fun _ => (none : Option Byte)) 0 s.pantry = true) {p : Nat}
    (hp : p < (liveChannels s - 1) * 2 ^ 30) :
    placeByte (abruptRetire s ch) p = if placeChannel s p = ch then 0 else placeByte s p := by
  obtain ⟨u, hu, he⟩ := abruptRetire_eq s ch
  have hlive : liveChannels u = liveChannels s := by
    unfold liveChannels
    rw [hu.retired]
    rfl
  have huok : mapOk (fun _ => (none : Option Byte)) 0 u.pantry = true := by
    rw [hu.pantry]
    exact mapOk_filter _ hok
  rw [he, (SameContents.raiseFault ..).placeByte, placeByte_retireChannel huok ch 0 (hlive ▸ hp), hu.placeByte,
    placeByte_zeroedChannel hok]

/-- Channels lost one after the other. -/
theorem foldl_abruptRetire : ∀ (l : List Nat) (s : State), (l.foldl abruptRetire s).retired = s.retired ++ l ∧
    (l ≠ [] → rdBit (l.foldl abruptRetire s) .pantry 0 0x018 2 = true)
  | [], s => by simp
  | c :: l, s => by
    obtain ⟨hret, -, hlost⟩ := abruptRetire_keeps s c
    obtain ⟨hret', hlost'⟩ := foldl_abruptRetire l (abruptRetire s c)
    rw [List.foldl_cons]
    refine ⟨by rw [hret', hret, List.append_assoc]; rfl, fun _ => ?_⟩
    by_cases hl : l = []
    · rw [hl, List.foldl_nil]
      exact hlost
    · exact hlost' hl

theorem channelLoss_of_retired (h : ch ∈ s.retired) : channelLoss ch s = s := by
  unfold channelLoss
  exact if_pos (List.contains_iff_mem.2 h)

/-- A channel lost while no retirement is in progress and none waits. -/
theorem channelLoss_alone (h : ch ∉ s.retired) (he : s.evac = none) (hw : s.retWait = []) :
    channelLoss ch s = abruptRetire s ch := by
  have hk := (abruptRetire_keeps s ch).2.1.trans hw
  have heta : { abruptRetire s ch with retWait := [] } = abruptRetire s ch := by rw [← hk]
  unfold channelLoss
  rw [if_neg (by simpa using h), he]
  dsimp only
  rw [hk, List.filter_nil, heta]
  exact retireNext_of_none hk

/-- A channel lost during an evacuation: both are given up. -/
theorem channelLoss_evacuating {e : Nat} (h : ch ∉ s.retired) (he : s.evac = some e) :
    ch ∈ (channelLoss ch s).retired ∧ e ∈ (channelLoss ch s).retired ∧
      rdBit (channelLoss ch s) .pantry 0 0x018 2 = true := by
  obtain ⟨hret, hlost⟩ := foldl_abruptRetire ([e, ch].dedup.mergeSort) { s with evac := none }
  have hmem {c : Nat} (hc : c ∈ [e, ch]) : c ∈ [e, ch].dedup.mergeSort := List.mem_mergeSort.2 (List.mem_dedup.2 hc)
  unfold channelLoss
  rw [if_neg (by simpa using h), he]
  dsimp only
  generalize [e, ch].dedup.mergeSort.foldl abruptRetire { s with evac := none } = u at hret hlost
  obtain ⟨hkr, hkl⟩ := retireNext_keeps { u with retWait := u.retWait.filter (fun c => !u.retired.contains c) }
  rw [hkr, hkl]
  refine ⟨?_, ?_, hlost (List.ne_nil_of_mem (hmem (List.mem_cons_self)))⟩
  · exact hret ▸ List.mem_append_right _ (hmem (by simp))
  · exact hret ▸ List.mem_append_right _ (hmem (by simp))

end

end Sys2Proof.Machine
end

section
/-! O43: retirement keeps the data or gives it up. -/

open Sys2Proof Sys2Proof.Machine

/-- Settles O43: the withdrawals touch neither contents nor channels (`Withdraws`), the retirement's own step drops the
top gigabyte, and a loss zeroes the lost channel's blocks first. -/
theorem retirementKeepsOrLosesData : Obligations.RetirementKeepsOrLosesData := by
  unfold Obligations.RetirementKeepsOrLosesData
  intro s ch hok hup c due top shown gone
  have hmap : mapOk (fun _ => (none : Option Byte)) 0 s.pantry = true := hok.2.2.2.2.2.2.2.2.2.2
  have hstart : exec (.retirementStart ch) s = .next (retirementStart c s) := congrArg Host.Outcome.next (whenReg_of hup)
  have hdone : exec (.evacuationDone ch) s = .next (if s.evac = some c then evacuationDone s else s) :=
    congrArg Host.Outcome.next (whenUp_of hup)
  have hloss : exec (.channelLoss ch) s = .next (channelLoss c s) := congrArg Host.Outcome.next (whenUp_of hup)
  have hlast : belowMb s < 2 ^ 16 :=
    (Nat.sub_le _ _).trans_lt (by decide)
  refine ⟨?notDue, ?last, ?waits, ?starts, ?notDone, ?done, ?lostBefore, ?lost, ?lostBoth⟩
  case notDue =>
    intro h
    rw [hstart, retirementStart_of_not h]
  case last =>
    intro h hl
    refine ⟨_, hstart, ?_⟩
    rw [retirementStart_of_due h, if_pos hl]
    exact ⟨rd_wr_self _ _ _ _ _ _ _ (by decide) (by decide), rfl, rfl, rfl⟩
  case waits =>
    intro h hl he
    refine ⟨_, hstart, ?_⟩
    rw [retirementStart_of_due h, if_neg (by omega), if_pos (Option.isSome_iff_ne_none.2 he)]
  case starts =>
    intro h hl he
    refine ⟨_, hstart, ?_⟩
    rw [retirementStart_of_due h, if_neg (by omega), if_neg (by simp [he])]
    obtain ⟨hev, hret, hpan, -⟩ := startRetire_keeps s c
    obtain ⟨hsettled, hwaiting⟩ := startRetire_shows s ch.isLt
    exact ⟨hev, hret, hpan, hsettled, hwaiting, ledgerUsed_startRetire s c⟩
  case notDone =>
    intro h
    rw [hdone]
    split
    case isTrue he =>
      unfold evacuationDone
      rw [he]
      exact congrArg Host.Outcome.next (if_neg (h.resolve_left (not_not.2 he)))
    case isFalse => rfl
  case done =>
    intro he hst hw
    have hr := retireChannel_contents c (belowMb s) s
    refine ⟨_, hdone, ?_⟩
    rw [if_pos he, evacuationDone_of he hst, retireNext_of_none (hr.retWait.trans hw)]
    exact ⟨hr.retired, hr.evac.trans (if_pos he), retireChannel_gone ch.isLt hlast s,
      fun p hp => placeByte_retireChannel hmap c _ hp⟩
  case lostBefore =>
    intro h
    rw [hloss, channelLoss_of_retired h]
  case lost =>
    intro h he hw
    refine ⟨_, hloss, ?_⟩
    rw [channelLoss_alone h he hw]
    obtain ⟨hret, -, hbit⟩ := abruptRetire_keeps s c
    exact ⟨hret, abruptRetire_gone ch.isLt, hbit, fun p hp => placeByte_abruptRetire hmap hp⟩
  case lostBoth =>
    intro e h he
    exact ⟨_, hloss, channelLoss_evacuating h he⟩

end

section
/-! What tagging a shot changes, and what counting wear changes (R11, R20, R450 to R453). -/

namespace Sys2Proof.Machine

/-! ## Tags -/

/-- Between `s` and `t` shots were tagged: only the groups and the registers that show a tag changed. -/
structure Tagged (s t : State) : Prop where
  rest : { t with regs := s.regs, tick := s.tick, groups := s.groups } = s
  regs : ∀ a, (∀ g, a ≠ addrOf .seq (112 + g) 0x0B8) → getReg t a = getReg s a

namespace Tagged

variable {s t u : State}

theorem refl (s : State) : Tagged s s := ⟨rfl, fun _ _ => rfl⟩

theorem trans (h : Tagged s t) (h' : Tagged t u) : Tagged s u where
  rest := (congrArg (fun x : State => { x with regs := s.regs, tick := s.tick, groups := s.groups }) h'.rest).trans h.rest
  regs a ha := (h'.regs a ha).trans (h.regs a ha)

theorem ite {c : Prop} [Decidable c] {t' : State} (h : Tagged s t) (h' : Tagged s t') :
    Tagged s (if c then t else t') := by
  split
  · exact h
  · exact h'

theorem setGroup (g : Nat) (x : Group) (s : State) : Tagged s (setGroup s g x) := ⟨rfl, fun _ _ => rfl⟩

theorem retag (g : Nat) (last : Bool) (bits : BitVec 8) (s : State) : Tagged s (retag g last bits s) := by
  unfold Machine.retag
  extract_lets v w
  refine ⟨?_, fun a ha => ?_⟩
  · rw [noteRaised_eq]
    rfl
  · rw [getReg_congr (noteRaised_regs ..), getReg_wr_ne _ _ _ _ _ _ _ (ha g)]

theorem tagDue (g : Nat) (d : BitVec 48) (bits : BitVec 8) (s : State) : Tagged s (tagDue g d bits s) :=
  .ite (.setGroup ..) (.ite (.trans (.setGroup ..) (.retag ..)) (.refl s))

theorem tagShot (g : Nat) (bits : BitVec 8) (s : State) : Tagged s (tagShot g bits s) :=
  .ite (.setGroup ..) (.refl s)

theorem tagSeq (q : Nat) (bits : BitVec 8) (s : State) : Tagged s (tagSeq q bits s) := by
  unfold Machine.tagSeq
  cases seqGroup s q with
  | none => exact .refl s
  | some g => exact .tagShot g bits s

theorem foldl {β : Type} {f : State → β → State} (hf : ∀ s b, Tagged s (f s b)) (l : List β) (s : State) :
    Tagged s (l.foldl f s) := foldl_rel Tagged .refl (fun _ _ _ => .trans) f hf l s

theorem tagItem (i : Item) (bits : BitVec 8) (s : State) : Tagged s (tagItem i bits s) := by
  unfold Machine.tagItem tagItemAt
  cases i.group with
  | none => exact .foldl (fun _ _ => .tagDue ..) _ s
  | some g => exact .tagDue g _ bits s

/-- A register at an offset other than that of the tag. -/
theorem reg_off (h : Tagged s t) {pt : PT} {n off : Nat} (ho : off < 4096) (ho' : off ≠ 0x0B8) :
    reg t pt n off = reg s pt n off :=
  h.regs _ fun _ e => ho' (addrOf_inj ho (by decide) e).2

end Tagged

/-- A running shot is tagged at once. -/
theorem getGroup_tagShot {s : State} {g : Nat} (h : (getGroup s g).running = true) (bits : BitVec 8) :
    getGroup (tagShot g bits s) g = { getGroup s g with tag := (getGroup s g).tag ||| bits } := by
  unfold tagShot
  dsimp only
  rw [if_pos h, getGroup_setGroup_self]

/-- The tag of a running shot after a tick was tagged: the bits are added if the tick falls in it. -/
theorem getGroup_tagDue {s : State} {g : Nat} (h : (getGroup s g).running = true) (d : BitVec 48) (bits : BitVec 8) :
    (getGroup (tagDue g d bits s) g).running = true ∧ (getGroup (tagDue g d bits s) g).t0 = (getGroup s g).t0 ∧
      (getGroup (tagDue g d bits s) g).tag =
        if 0 ≤ ticksTo (getGroup s g).t0 d then (getGroup s g).tag ||| bits else (getGroup s g).tag := by
  have hretag (last : Bool) (t : State) : getGroup (retag g last bits t) g = getGroup t g :=
    getGroup_congr (by unfold retag; rw [noteRaised_eq]; rfl) g
  unfold tagDue
  extract_lets x hit
  by_cases hd : 0 ≤ ticksTo x.t0 d
  · rw [if_pos (by simpa [h, x] using hd), getGroup_setGroup_self]
    exact ⟨h, rfl, (if_pos hd).symm⟩
  · rw [if_neg (by simpa [h, x] using hd), if_neg hd]
    split
    · rw [hretag, getGroup_setGroup_self]
      exact ⟨h, rfl, rfl⟩
    · exact ⟨h, rfl, rfl⟩

/-- Ticks of which one falls in the running shot: the bits are added once. -/
theorem getGroup_foldl_tagDue {g : Nat} {bits : BitVec 8} : ∀ {l : List (BitVec 48)} {s : State},
    (getGroup s g).running = true → (∃ d ∈ l, 0 ≤ ticksTo (getGroup s g).t0 d) →
    (getGroup (l.foldl (fun t d => tagDue g d bits t) s) g).tag = (getGroup s g).tag ||| bits := by
  have hkeep : ∀ (l : List (BitVec 48)) (s : State), (getGroup s g).running = true →
      (getGroup s g).tag ||| bits = (getGroup s g).tag →
      (getGroup (l.foldl (fun t d => tagDue g d bits t) s) g).tag = (getGroup s g).tag := by
    intro l
    induction l with
    | nil => exact fun _ _ _ => rfl
    | cons d l ih =>
      intro s hrun htag
      obtain ⟨hrun', -, htag'⟩ := getGroup_tagDue hrun d bits
      rw [htag, ite_self] at htag'
      rw [List.foldl_cons, ih _ hrun' (by rw [htag', htag]), htag']
  intro l
  induction l with
  | nil => simp
  | cons d l ih =>
    rintro s hrun ⟨e, he, hin⟩
    obtain ⟨hrun', ht0, htag⟩ := getGroup_tagDue hrun d bits
    rw [List.foldl_cons]
    by_cases hd : 0 ≤ ticksTo (getGroup s g).t0 d
    · rw [if_pos hd] at htag
      rw [hkeep l _ hrun' (by rw [htag, BitVec.or_assoc, BitVec.or_self]), htag]
    · rw [if_neg hd] at htag
      have hel : e ∈ l := (List.mem_cons.1 he).resolve_left fun h => hd (h ▸ hin)
      rw [ih hrun' ⟨e, hel, ht0 ▸ hin⟩, htag]

/-! ## Wear -/

/-- The registers that counting a unit's wear may change: the NVM and SPARE pages, and PG_SPARE of the unit's page. -/
def WearReg (kind ins a : Nat) : Prop :=
  a / 4096 = 4 ∨ a / 4096 = 6 ∨ ∃ pt n, unitPage kind ins = some (pt, n) ∧ a = addrOf pt n 0x020

theorem addrOf_page {pt : PT} {n off : Nat} (ho : off < 4096) : addrOf pt n off / 4096 = ptBase pt + n := by
  unfold addrOf
  omega

theorem wearReg_spare {kind ins off : Nat} (ho : off < 4096) : WearReg kind ins (addrOf .spare 0 off) :=
  .inr (.inl (addrOf_page ho))

/-- Between `s` and `t` a unit's wear was counted. -/
structure Wears (kind ins : Nat) (s t : State) : Prop where
  rest : { t with regs := s.regs, tick := s.tick, i3c := s.i3c, wears := s.wears, subs := s.subs, evLog := s.evLog,
                  logSeq := s.logSeq, spareMap := s.spareMap } = s
  regs : ∀ a, ¬ WearReg kind ins a → getReg t a = getReg s a

namespace Wears

variable {kind ins : Nat} {s t u : State}

theorem refl (kind ins : Nat) (s : State) : Wears kind ins s s := ⟨rfl, fun _ _ => rfl⟩

theorem trans (h : Wears kind ins s t) (h' : Wears kind ins t u) : Wears kind ins s u where
  rest := (congrArg (fun x : State => { x with
    regs := s.regs, tick := s.tick, i3c := s.i3c, wears := s.wears, subs := s.subs, evLog := s.evLog,
    logSeq := s.logSeq, spareMap := s.spareMap }) h'.rest).trans h.rest
  regs a ha := (h'.regs a ha).trans (h.regs a ha)

theorem ite {c : Prop} [Decidable c] {t' : State} (h : Wears kind ins s t) (h' : Wears kind ins s t') :
    Wears kind ins s (if c then t else t') := by
  split
  · exact h
  · exact h'

theorem wr (h : Wears kind ins s t) {pt : PT} {n off : Nat} (ha : WearReg kind ins (addrOf pt n off)) (hi lo v : Nat) :
    Wears kind ins s (wr t pt n off hi lo v) :=
  h.trans ⟨rfl, fun _ hb => getReg_wr_ne _ _ _ _ _ _ _ fun e : _ = addrOf pt n off => hb (e ▸ ha)⟩

theorem wrAll (h : Wears kind ins s t) {pt : PT} {n off : Nat} (ha : WearReg kind ins (addrOf pt n off)) (v : Nat) :
    Wears kind ins s (wrAll t pt n off v) :=
  h.trans ⟨rfl, fun _ hb => by rw [getReg_wrAll, if_neg (by rintro rfl; exact hb ha)]⟩

theorem raiseEvt (h : Wears kind ins s t) {pt : PT} {n : Nat} (ha : WearReg kind ins (addrOf pt n 0x010)) (bit : Nat) :
    Wears kind ins s (raiseEvt pt n bit t) := by
  refine h.trans ⟨?_, fun _ hb => ?_⟩
  · rw [raiseEvt_eq]
    rfl
  · rw [getReg_raiseEvt, if_neg (by rintro rfl; exact hb ha)]

theorem raiseFault (h : Wears kind ins s t) {pt : PT} {n : Nat} (ha : WearReg kind ins (addrOf pt n 0x018)) (bit : Nat) :
    Wears kind ins s (raiseFault pt n bit t) := by
  refine h.trans ⟨?_, fun _ hb => ?_⟩
  · rw [raiseFault_eq]
    rfl
  · rw [getReg_raiseFault, if_neg (by rintro rfl; exact hb ha)]

/-- The wear kept of units, and the substitutions that are pending. -/
theorem tables (h : Wears kind ins s t) (w : List (Nat × Wear)) (v : List Sub) :
    Wears kind ins s { t with wears := w, subs := v } := h.trans ⟨rfl, fun _ _ => rfl⟩

theorem setWear (h : Wears kind ins s t) (k : Nat) (x : Wear) : Wears kind ins s (setWear t k x) := h.tables _ t.subs

theorem setSpareState (h : Wears kind ins s t) (st : Nat) : Wears kind ins s (setSpareState kind ins st t) := by
  unfold Machine.setSpareState
  split
  · exact h
  next pt n hp =>
    split at hp
    · exact absurd hp (by simp)
    · exact h.wr (.inr (.inr ⟨pt, n, hp, rfl⟩)) _ _ _

theorem noteWear (h : Wears kind ins s t) (unit st bit : Nat) : Wears kind ins s (noteWear kind ins unit st bit t) :=
  ((h.setWear _ _).wrAll (wearReg_spare (by decide)) _).raiseEvt (wearReg_spare (by decide)) _

theorem logEvent (h : Wears kind ins s t) (cause page detail : Nat) :
    Wears kind ins s (logEvent cause page detail t) := by
  unfold Machine.logEvent raiseEvtIf
  extract_lets e full s1
  have h1 : Wears kind ins s s1 := h.trans ⟨rfl, fun _ _ => rfl⟩
  exact .ite (h1.raiseEvt (.inl (addrOf_page (by decide))) _) h1

theorem writeMap (h : Wears kind ins s t) (k act i unit spare : Nat) :
    Wears kind ins s (writeMap k act i unit spare t) := by
  unfold Machine.writeMap
  extract_lets lo e page s1
  have h1 : Wears kind ins s s1 := h.logEvent ..
  exact .ite (h1.trans ⟨rfl, fun _ _ => rfl⟩) (h1.raiseFault (wearReg_spare (by decide)) _)

/-- A row substitution: an SRAM array has no page of its own. -/
theorem finishRow (h : Wears kind ins s t) (i unit spare : Nat) : Wears kind ins s (finishSub 5 1 i unit spare t) := by
  unfold Machine.finishSub
  extract_lets k s0 s1 s2 s3
  have h0 : Wears kind ins s s0 := h.tables _ _
  have h2 : Wears kind ins s s2 := (h0.wr (wearReg_spare (by decide)) _ _ _).wr (wearReg_spare (by decide)) _ _ _
  exact (Wears.writeMap (t := s3) h2 ..).raiseEvt (wearReg_spare (by decide)) _

theorem pendSub (h : Wears kind ins s t) (unit : Nat) : Wears kind ins s (pendSub kind ins unit t) := by
  unfold Machine.pendSub
  extract_lets u k
  refine .ite h (.ite (((h.setWear _ _).setSpareState _).raiseFault (wearReg_spare (by decide)) _) ?_)
  split
  case isTrue hk =>
    obtain ⟨rfl, -⟩ := hk
    exact h.finishRow ..
  case isFalse => exact (h.tables _ _).setSpareState 1

theorem candidate_ (h : Wears kind ins s t) (unit : Nat) : Wears kind ins s (candidate_ kind ins unit t) :=
  .ite h (.ite h (.ite ((h.noteWear unit 2 1).pendSub unit) (h.noteWear unit 2 1)))

theorem addWear (h : Wears kind ins s t) (unit n : Nat) : Wears kind ins s (addWear kind ins unit n t) := by
  unfold Machine.addWear
  extract_lets k x hs x1 s1 pol warn sub hasWarn hasSub s2
  have h1 : Wears kind ins s s1 := h.setWear ..
  have h2 : Wears kind ins s s2 := .ite (h1.noteWear ..) h1
  exact .ite (h2.candidate_ unit) h2

end Wears
end Sys2Proof.Machine
end

section
/-! Drive and probe outputs: what placing an operation, a pulse and a stream leaves of an output's page, its items and
the clock, and what each places (R116, R119 to R138). -/

namespace Sys2Proof.Machine

/-! ## Tones and outputs after a write -/

@[simp] theorem getTone_setTone_self (s : State) (o n : Nat) (x : Tone) : getTone (setTone s o n x) o n = x :=
  mapGet_mapSet_self _ _ _ _

theorem getTone_congr {s t : State} (h : t.tones = s.tones) (o n : Nat) : getTone t o n = getTone s o n := by
  unfold getTone
  rw [h]

@[simp] theorem getStream_setStream_self (s : State) (o n : Nat) (x : Stream) : getStream (setStream s o n x) o n = x :=
  mapGet_mapSet_self _ _ _ _

theorem getStream_congr {s t : State} (h : t.strms = s.strms) (o n : Nat) : getStream t o n = getStream s o n := by
  unfold getStream
  rw [h]

@[simp] theorem getOut_setOut_self (s : State) (o : Nat) (x : Out) : getOut (setOut s o x) o = x :=
  mapGet_mapSet_self _ _ _ _

theorem getOut_setOut_ne (s : State) {o p : Nat} (x : Out) (h : p ≠ o) : getOut (setOut s o x) p = getOut s p :=
  mapGet_mapSet_of_ne _ _ _ h

/-! ## Converter work at an output -/

/-- Between `s` and `t` an output worked off actions: the items, the clock, its events and its count of bad slots stand. -/
structure OutWork (o : Nat) (s t : State) : Prop where
  items : t.items = s.items
  clk : t.clk = s.clk
  bad : outRd t o 0x058 31 16 = outRd s o 0x058 31 16
  evts : ∀ i, rdBit s (outPage o).1 (outPage o).2 0x010 i = true → rdBit t (outPage o).1 (outPage o).2 0x010 i = true

namespace OutWork

variable {o : Nat} {s t u : State}

theorem refl (o : Nat) (s : State) : OutWork o s s := ⟨rfl, rfl, rfl, fun _ h => h⟩

theorem trans (h : OutWork o s t) (h' : OutWork o t u) : OutWork o s u :=
  ⟨h'.items.trans h.items, h'.clk.trans h.clk, h'.bad.trans h.bad, fun i hi => h'.evts i (h.evts i hi)⟩

theorem ite {c : Prop} [Decidable c] {t' : State} (h : OutWork o s t) (h' : OutWork o s t') :
    OutWork o s (if c then t else t') := by
  split
  · exact h
  · exact h'

/-- Nothing of the registers, the items and the clock. -/
theorem of_same (hi : t.items = s.items) (hc : t.clk = s.clk) (hr : t.regs = s.regs) : OutWork o s t :=
  ⟨hi, hc, rd_congr hr .., fun i h => by rwa [rdBit_congr hr]⟩

/-- A register of another offset than those of the events and of the bad slots. -/
theorem wr (pt : PT) (n : Nat) {off : Nat} (ho : off < 4096) (h10 : off ≠ 0x010) (h58 : off ≠ 0x058) (hi lo v : Nat)
    (s : State) : OutWork o s (wr s pt n off hi lo v) where
  items := rfl
  clk := rfl
  bad := rd_wr_ne _ _ _ _ _ _ _ _ _ fun e => h58 (addrOf_inj (by decide) ho e).2.symm
  evts i h := by rwa [rdBit_wr_ne _ _ _ _ _ _ _ _ fun e => h10 (addrOf_inj (by decide) ho e).2.symm]

/-- The count of replaced pulses. -/
theorem overlap (k : Nat) (s : State) : OutWork o s (outBump s o 0x058 15 0 k) where
  items := rfl
  clk := rfl
  bad := rd_wr_field _ _ _ _ _ _ _ _ _ (by decide) (by decide) (by decide)
  evts i h := by
    unfold outBump bump
    rwa [rdBit_wr_ne _ _ _ _ _ _ _ _ (addrOf_ne_off (by decide))]

theorem outEvt (bit : Nat) (hb : bit < 32) (s : State) : OutWork o s (outEvt o bit s) where
  items := raiseEvt_items ..
  clk := raiseEvt_clk ..
  bad := by
    unfold outRd rd Machine.outEvt
    rw [reg_raiseEvt_ne _ _ _ _ (addrOf_ne_off (by decide))]
  evts i h := rdBit_raiseEvt_of _ _ _ _ _ hb h

theorem tagged (h : Tagged s t) : OutWork o s t where
  items := (congrArg State.items h.rest :)
  clk := (congrArg State.clk h.rest :)
  bad := by
    unfold outRd rd
    rw [h.reg_off (by decide) (by decide)]
  evts i hi := by
    unfold rdBit at hi ⊢
    rwa [h.reg_off (by decide) (by decide)]

theorem raiseFirst (bit : Nat) (hb : bit < 32) (s : State) :
    OutWork o s (raiseFirst (outPage o).1 (outPage o).2 bit s) := by
  unfold Machine.raiseFirst
  extract_lets key
  have h1 : OutWork o s { s with seen := key :: s.seen } := .of_same rfl rfl rfl
  exact .ite (.refl o s) (h1.trans (.outEvt bit hb _))

theorem outCatch (o : Nat) (s : State) : OutWork o s (outCatch o s) := by
  unfold Machine.outCatch
  extract_lets x b s1 n
  have h1 : OutWork o s s1 := .of_same rfl rfl rfl
  exact .ite (.refl o s) (.ite h1 (h1.trans
    (.trans (.wr _ _ (by decide) (by decide) (by decide) _ _ _ s1) (.raiseFirst 2 (by decide) _))))

theorem placeOp (tone : Nat) (op : Phase) (s : State) : OutWork o s (placeOp o tone op s) := by
  unfold Machine.placeOp
  split
  · exact .refl o s
  · exact .trans (.outCatch o s) (.of_same rfl rfl rfl)

theorem foldl {β : Type} {f : State → β → State} (hf : ∀ s b, OutWork o s (f s b)) (l : List β) (s : State) :
    OutWork o s (l.foldl f s) := foldl_rel (OutWork o) (.refl o) (fun _ _ _ => .trans) f hf l s

end OutWork

/-! ## Streams of a tone -/

theorem cutStreams_eq (o n : Nat) (s : State) : cutStreams o n s = { s with strms := (cutStreams o n s).strms } := by
  refine foldl_rel (fun s t => t = { s with strms := t.strms }) (fun _ => rfl) ?_ _ ?_ _ s
  · intro s t u h h'
    rw [h', h]
  · intro t u
    dsimp only
    split
    · split <;> rfl
    · rfl

theorem freeStream_eq (o n : Nat) (u : Pulse) (s : State) : freeStream o n u s = { s with strms := (freeStream o n u s).strms } := by
  unfold freeStream
  split
  · dsimp only
    split <;> rfl
  · rfl

theorem claimFor_eq (o n : Nat) (u : Pulse) (s : State) : claimFor o n u s = { s with strms := (claimFor o n u s).strms } := by
  unfold claimFor
  split <;> rfl

/-! ## What forming samples and raising leaves of the tones -/

theorem raiseFirst_tones (pt : PT) (n bit : Nat) (s : State) : (raiseFirst pt n bit s).tones = s.tones := by
  unfold raiseFirst
  dsimp only
  split
  · rfl
  · rw [raiseEvt_tones]

theorem outCatch_tones (o : Nat) (s : State) : (outCatch o s).tones = s.tones := by
  unfold outCatch
  extract_lets x b s1 n
  split
  · rfl
  · split
    · rfl
    · rw [raiseFirst_tones]
      rfl

theorem toneNow_congr {s t : State} (hc : t.clk = s.clk) (ht : t.tones = s.tones) (o n : Nat) :
    toneNow t o n = toneNow s o n := by
  unfold toneNow drvPast drvNow
  rw [getTone_congr ht, hc]

/-! ## What an operation places -/

/-- The operation joins those of the tone as it stands now. -/
theorem getTone_placeOp {o n : Nat} {op : Phase} {s : State} (h : op.op ≠ .none) :
    getTone (placeOp o n op s) o n = { toneNow s o n with ops := placePhase op (toneNow s o n).ops } := by
  unfold placeOp
  split
  · contradiction
  · dsimp only
    rw [getTone_setTone_self, toneNow_congr (OutWork.outCatch o s).clk (outCatch_tones o s)]

theorem placeOp_of_none {o n : Nat} {op : Phase} {s : State} (h : op.op = .none) : placeOp o n op s = s := by
  unfold placeOp
  rw [h]

theorem mem_placePhase (op : Phase) : ∀ ops : List Phase, op ∈ placePhase op ops
  | [] => List.mem_singleton_self op
  | q :: qs => by
    unfold placePhase
    split
    · exact List.mem_cons_self
    · exact List.mem_cons_of_mem _ (mem_placePhase op qs)

/-- An element of another kind stands behind a list's leading elements of one kind. -/
theorem mem_drop_takeWhile {α : Type} {p : α → Bool} {a : α} (hp : p a = false) :
    ∀ {l : List α}, a ∈ l → a ∈ l.drop (l.takeWhile p).length
  | b :: l, h => by
    rw [List.takeWhile_cons]
    cases hb : p b with
    | false => exact h
    | true =>
      have hab : a ≠ b := fun e => by rw [e, hb] at hp; contradiction
      exact mem_drop_takeWhile hp ((List.mem_cons.1 h).resolve_left hab)

/-- An operation whose samples have not all left the lands is kept. -/
theorem mem_settlePhases {lim : Nat} {op : Phase} {ops : List Phase} (x : Tone) (h : op ∈ ops) (hl : lim ≤ op.dp) :
    op ∈ (settlePhases lim ops x).ops := by
  refine List.mem_append_right _ (mem_drop_takeWhile ?_ h)
  rw [decide_eq_false (Nat.not_lt.2 hl), Bool.and_false]

theorem mem_toneNow {s : State} {o n : Nat} {op : Phase} (h : op ∈ (getTone s o n).ops) (hl : drvPast s ≤ op.dp) :
    op ∈ (toneNow s o n).ops := mem_settlePhases (getTone s o n) h hl

/-! ## What a pulse places -/

/-- A late pulse takes the place of samples that have not passed the gate. -/
def placedPulse (late : Bool) (u : Pulse) (s : State) : Pulse := if late then { u with dp := max u.dp (256 * gatedUpTo s) } else u

theorem placedPulse_eq (late : Bool) (u : Pulse) (s : State) :
    placedPulse late u s = { u with dp := if late then max u.dp (256 * gatedUpTo s) else u.dp } := by
  cases late <;> rfl

/-- The pulse joins those of the tone as it stands now; the rest is converter work. -/
theorem placePulse_places (o n : Nat) (late : Bool) (u : Pulse) (s : State) :
    OutWork o s (placePulse o n late u s) ∧
      getTone (placePulse o n late u s) o n =
        { toneNow s o n with pulses := (toneNow s o n).pulses ++ [placedPulse late u s] } := by
  unfold placePulse
  extract_lets v y s1 x hit s2
  have h1 : OutWork o s s1 := .ite (.outCatch o s) (.of_same rfl rfl rfl)
  have ht : s1.tones = s.tones := by
    unfold s1
    split
    · exact outCatch_tones o s
    · rfl
  have hx : x = toneNow s o n := toneNow_congr h1.clk ht o n
  have h2 : OutWork o s s2 := by
    refine h1.trans ?_
    unfold s2
    rw [cutStreams_eq]
    exact .of_same rfl rfl rfl
  have hg : getTone s2 o n =
      { toneNow s o n with pulses := (toneNow s o n).pulses ++ [placedPulse late u s] } := by
    rw [← hx]
    unfold s2
    rw [cutStreams_eq]
    exact getTone_setTone_self s1 o n { x with pulses := x.pulses ++ [v] }
  split
  · have h3 : (outEvt o 3 (outBump s2 o 0x058 15 0 1)).tones = s2.tones := raiseEvt_tones ..
    exact ⟨h2.trans (.trans (.overlap 1 s2) (.outEvt 3 (by decide) _)), (getTone_congr h3 o n).trans hg⟩
  · exact ⟨h2, hg⟩

end Sys2Proof.Machine
end

section
/-! A port action's parts, the starved samples of a stream, and the faults of an output (R20, R116, R126, R130, R135 to
R142). -/

namespace Sys2Proof.Machine

/-! ## Port actions -/

/-- A port action as its word sent it. -/
structure PortAction where
  out : Nat
  tone : Nat
  start : Nat
  env : Nat
  amp : Nat
  phop : Nat
  fs : Bool
  tset : Nat
  w : BitVec 48
  asw : Int
  psw : Nat

namespace PortAction

/-- The payload that carries it. -/
def load (a : PortAction) : Payload := .port a.out a.tone a.start a.env a.amp a.phop a.fs a.tset a.w a.asw a.psw

/-- Its schedule position, and the delayed one (R116, R131). -/
def sp (a : PortAction) : Nat := 32 * (a.w.toNat + 36) + a.start
def dp (a : PortAction) (s : State) : Nat := 256 * a.sp + tsetDelay s a.out a.tset

/-- Its phase operation (R121). -/
def phase (a : PortAction) (s : State) (deps : List Nat) : Phase :=
  { sp := a.sp, dp := a.dp s, w := a.w.toNat, op := phOp s a.out a.tone a.phop a.psw, deps := deps }

/-- The slot of its pulse, 0 for none (R138), and whether the slot check fails (R126). -/
def slot (a : PortAction) (s : State) : Nat := envOf s a.out a.tone a.env a.amp
def bad (a : PortAction) (s : State) : Bool := slotBad s a.out (a.slot s) a.tone a.w.toNat

/-- Its pulse (R116, R125 to R127). -/
def pulse (a : PortAction) (s : State) (i : Item) (mute : Bool) : Pulse :=
  pulseOf s i a.out a.tone a.start (a.slot s) a.amp a.fs a.tset a.w a.asw mute

/-- The output takes pulses. -/
def playing (a : PortAction) (s : State) : Bool := enabled s (outPage a.out).1 (outPage a.out).2

/-- Its pulse plays zeros: it is late, or its slot is bad. -/
def mutes (a : PortAction) (late : Bool) (s : State) : Bool := late || (!late && a.bad s)

/-- The pulse's stream descriptor is seen to: freed when the pulse plays zeros, else claimed. -/
def claimed (a : PortAction) (late : Bool) (i : Item) (s t : State) : State :=
  if a.mutes late s then freeStream a.out a.tone (a.pulse s i (a.mutes late s)) t
  else if hasStream t a.out a.tone (a.pulse s i (a.mutes late s)) then t
  else claimFor a.out a.tone (a.pulse s i (a.mutes late s)) t

/-- A bad slot of an action on time is counted, and its shot tagged. -/
def counted (a : PortAction) (late : Bool) (i : Item) (s t : State) : State :=
  if !late && a.bad s then tagItem i tagCorrupt (outEvt a.out 4 (outBump t a.out 0x058 31 16 1)) else t

/-- The state in which its pulse is placed. -/
def ready (a : PortAction) (late : Bool) (i : Item) (s : State) : State :=
  a.counted late i s (a.claimed late i s (placeOp a.out a.tone (a.phase s i.deps) s))

end PortAction

variable {s t : State} {i : Item} {a : PortAction} {late : Bool}

/-- Without a pulse only the phase operation is placed. -/
theorem portAct_of_no_pulse (hi : i.load = a.load) (h : a.slot s = 0 ∨ a.playing s = false) :
    portAct late i s = placeOp a.out a.tone (a.phase s i.deps) s := by
  unfold portAct
  rw [hi]
  refine if_pos ?_
  simpa [PortAction.slot, PortAction.playing] using h

theorem portAct_of_pulse (hi : i.load = a.load) (hs : a.slot s ≠ 0) (hp : a.playing s = true) :
    portAct late i s =
      if (a.pulse s i (a.mutes late s)).len = 0 then a.ready late i s
      else placePulse a.out a.tone late (a.pulse s i (a.mutes late s)) (a.ready late i s) := by
  unfold portAct
  rw [hi]
  refine if_neg ?_
  simpa [PortAction.slot, PortAction.playing] using ⟨hs, hp⟩

theorem PortAction.claimed_eq : a.claimed late i s t = { t with strms := (a.claimed late i s t).strms } := by
  unfold PortAction.claimed
  split
  · exact freeStream_eq ..
  · split
    · rfl
    · exact claimFor_eq ..

/-- Before the pulse is placed: the operation stands, and a bad slot is counted. -/
theorem PortAction.ready_spec : (a.ready late i s).items = s.items ∧ (a.ready late i s).clk = s.clk ∧
    (a.ready late i s).tones = (placeOp a.out a.tone (a.phase s i.deps) s).tones ∧
    (late = false → a.bad s = true → rdBit (a.ready late i s) (outPage a.out).1 (outPage a.out).2 0x010 4 = true ∧
      outRd (a.ready late i s) a.out 0x058 31 16 = min (outRd s a.out 0x058 31 16 + 1) 65535) := by
  unfold PortAction.ready
  generalize ht : a.claimed late i s _ = t
  have hc : t = { placeOp a.out a.tone (a.phase s i.deps) s with strms := t.strms } := ht ▸ PortAction.claimed_eq
  have hw : OutWork a.out s t := by
    rw [hc]
    exact (OutWork.placeOp ..).trans (.of_same rfl rfl rfl)
  have htones : t.tones = (placeOp a.out a.tone (a.phase s i.deps) s).tones := by rw [hc]
  unfold PortAction.counted
  cases hb : !late && a.bad s with
  | false =>
    refine ⟨hw.items, hw.clk, htones, fun hl h => ?_⟩
    rw [hl, h] at hb
    exact absurd hb (by decide)
  | true =>
    have hbump : outRd (outBump t a.out 0x058 31 16 1) a.out 0x058 31 16 = min (outRd s a.out 0x058 31 16 + 1) 65535 := by
      rw [← hw.bad]
      exact rd_bump_self _ _ _ _ _ _ _ (by decide) (by decide)
    generalize hu : outBump t a.out 0x058 31 16 1 = u at hbump
    have hui : u.items = t.items ∧ u.clk = t.clk ∧ u.tones = t.tones := hu ▸ ⟨rfl, rfl, rfl⟩
    have he : OutWork a.out u (outEvt a.out 4 u) := .outEvt 4 (by decide) u
    have hg : Tagged (outEvt a.out 4 u) (tagItem i tagCorrupt (outEvt a.out 4 u)) := .tagItem ..
    have hgw : OutWork a.out _ _ := he.trans (.tagged hg)
    rw [if_pos rfl]
    refine ⟨hgw.items.trans (hui.1.trans hw.items), hgw.clk.trans (hui.2.1.trans hw.clk), ?_, fun _ _ =>
      ⟨(OutWork.tagged hg).evts 4 (rdBit_raiseEvt_self _ _ _ _ (by decide)), hgw.bad.trans hbump⟩⟩
    rw [(congrArg State.tones hg.rest :), ← htones, ← hui.2.2]
    exact raiseEvt_tones ..

/-- Acting changes neither the clock nor the waiting items. -/
theorem portAct_keeps (hi : i.load = a.load) : (portAct late i s).items = s.items ∧ (portAct late i s).clk = s.clk := by
  by_cases h : a.slot s = 0 ∨ a.playing s = false
  · rw [portAct_of_no_pulse hi h]
    exact ⟨(OutWork.placeOp ..).items, (OutWork.placeOp ..).clk⟩
  · simp only [not_or, Bool.not_eq_false] at h
    obtain ⟨hit, hclk, -, -⟩ := PortAction.ready_spec (a := a) (late := late) (i := i) (s := s)
    rw [portAct_of_pulse hi h.1 h.2]
    split
    · exact ⟨hit, hclk⟩
    · obtain ⟨hw, -⟩ := placePulse_places a.out a.tone late (a.pulse s i (a.mutes late s)) (a.ready late i s)
      exact ⟨hw.items.trans hit, hw.clk.trans hclk⟩

/-- The operation stands after the whole action, while its samples have not all left the lands. -/
theorem mem_portAct_ops (hi : i.load = a.load) (hop : (a.phase s i.deps).op ≠ .none) (hdp : drvPast s ≤ a.dp s) :
    a.phase s i.deps ∈ (getTone (portAct late i s) a.out a.tone).ops := by
  have hplaced : a.phase s i.deps ∈ (getTone (placeOp a.out a.tone (a.phase s i.deps) s) a.out a.tone).ops := by
    rw [getTone_placeOp hop]
    exact mem_placePhase ..
  by_cases h : a.slot s = 0 ∨ a.playing s = false
  · rwa [portAct_of_no_pulse hi h]
  · simp only [not_or, Bool.not_eq_false] at h
    obtain ⟨-, hclk, htones, -⟩ := PortAction.ready_spec (a := a) (late := late) (i := i) (s := s)
    have hready : a.phase s i.deps ∈ (getTone (a.ready late i s) a.out a.tone).ops := by rwa [getTone_congr htones]
    rw [portAct_of_pulse hi h.1 h.2]
    split
    · exact hready
    · rw [(placePulse_places ..).2]
      refine mem_toneNow hready ?_
      unfold drvPast drvNow at hdp ⊢
      rwa [hclk]

/-- A bad slot of an action on time. -/
theorem portAct_bad (hi : i.load = a.load) (hs : a.slot s ≠ 0) (hp : a.playing s = true) (hl : late = false)
    (hb : a.bad s = true) : rdBit (portAct late i s) (outPage a.out).1 (outPage a.out).2 0x010 4 = true ∧
      outRd (portAct late i s) a.out 0x058 31 16 = min (outRd s a.out 0x058 31 16 + 1) 65535 := by
  obtain ⟨hevt, hcnt⟩ := (PortAction.ready_spec (a := a) (late := late) (i := i) (s := s)).2.2.2 hl hb
  rw [portAct_of_pulse hi hs hp]
  split
  · exact ⟨hevt, hcnt⟩
  · obtain ⟨hw, -⟩ := placePulse_places a.out a.tone late (a.pulse s i (a.mutes late s)) (a.ready late i s)
    exact ⟨hw.evts 4 hevt, hw.bad.trans hcnt⟩

/-- The pulse that an action with a slot of some samples places. -/
theorem mem_portAct_pulses (hi : i.load = a.load) (hs : a.slot s ≠ 0) (hp : a.playing s = true)
    (hlen : (a.pulse s i (a.mutes late s)).len ≠ 0) :
    placedPulse late (a.pulse s i (a.mutes late s)) s ∈ (getTone (portAct late i s) a.out a.tone).pulses := by
  have hclk := (PortAction.ready_spec (a := a) (late := late) (i := i) (s := s)).2.1
  have hsame : placedPulse late (a.pulse s i (a.mutes late s)) s =
      placedPulse late (a.pulse s i (a.mutes late s)) (a.ready late i s) := by
    unfold placedPulse gatedUpTo
    rw [hclk]
  rw [portAct_of_pulse hi hs hp, if_neg hlen, (placePulse_places ..).2, hsame]
  exact List.mem_append_right _ (List.mem_singleton_self _)

/-! ## Starved samples -/

/-- A sample of a stream that was not there when it was due. -/
def Starved (y : Stream) (j : Nat) : Prop := y.got ≤ j ∨ ∃ g ∈ y.gaps, g.1 ≤ j ∧ j < g.2

/-- The starved samples that a count takes in. -/
def starvedIn (s : State) (y : Stream) : List Nat :=
  (List.range' y.counted (strmEntered s y - y.counted)).filter
    (fun j => decide (y.got ≤ j) || y.gaps.any (fun g => decide (g.1 ≤ j ∧ j < g.2)))

theorem mem_starvedIn {s : State} {y : Stream} {j : Nat} :
    j ∈ starvedIn s y ↔ y.counted ≤ j ∧ j < strmEntered s y ∧ Starved y j := by
  unfold starvedIn Starved
  rw [List.mem_filter, List.mem_range'_1, Bool.or_eq_true, decide_eq_true_eq, List.any_eq_true]
  simp only [decide_eq_true_eq]
  constructor
  · rintro ⟨⟨h1, h2⟩, h3⟩
    exact ⟨h1, by omega, h3⟩
  · rintro ⟨h1, h2, h3⟩
    exact ⟨⟨h1, by omega⟩, h3⟩

/-- The stream once its starved samples are counted. -/
def countedStream (s : State) (o m : Nat) : Stream :=
  { getStream s o m with counted := max (getStream s o m).counted (strmEntered s (getStream s o m)) }

/-- A count of starved samples without any. -/
theorem countStarved_of_none {s : State} {o m : Nat} (h : (starvedIn s (getStream s o m)).length = 0) :
    countStarved o m s = setStream s o m (countedStream s o m) := by
  unfold countStarved
  exact if_pos h

/-- Starved samples are counted and reported, then the shots in which they were due are tagged. -/
theorem countStarved_of_some {s : State} {o m : Nat} (h : (starvedIn s (getStream s o m)).length ≠ 0) :
    let u := outEvt o 1 (outBump (setStream s o m (countedStream s o m)) o 0x050 23 0 (starvedIn s (getStream s o m)).length)
    Tagged u (countStarved o m s) ∧
      ∀ g, outGroup s o = some g → countStarved o m s =
        (((starvedIn s (getStream s o m)).map (strmDue (getStream s o m))).dedup).foldl
          (fun t d => tagDue g d tagCorrupt t) u := by
  intro u
  have hc : countStarved o m s = _ := if_neg h
  rw [hc]
  cases outGroup s o with
  | none => exact ⟨.refl u, fun g hg => absurd hg (by simp)⟩
  | some g =>
    refine ⟨.foldl (fun _ _ => .tagDue ..) _ u, fun g' hg => ?_⟩
    cases hg
    rfl

section
variable (s : State) (o m : Nat)

/-- What counting the starved samples of a stream does. -/
theorem countStarved_spec :
    (countStarved o m s).clk = s.clk ∧ (countStarved o m s).stores = s.stores ∧
      getStream (countStarved o m s) o m = countedStream s o m ∧
      (∀ off, off < 4096 → off ≠ 0x010 → off ≠ 0x050 → off ≠ 0x0B8 → outReg (countStarved o m s) o off = outReg s o off) ∧
      outRd (countStarved o m s) o 0x050 23 0 =
        min (outRd s o 0x050 23 0 + (starvedIn s (getStream s o m)).length) (2 ^ 24 - 1) ∧
      (0 < (starvedIn s (getStream s o m)).length →
        rdBit (countStarved o m s) (outPage o).1 (outPage o).2 0x010 1 = true) := by
  by_cases hk : (starvedIn s (getStream s o m)).length = 0
  · rw [countStarved_of_none hk, hk]
    refine ⟨rfl, rfl, getStream_setStream_self .., fun _ _ _ _ _ => rfl, ?_, fun h => absurd h (by decide)⟩
    have hlt : outRd s o 0x050 23 0 < 2 ^ 24 := nbits_lt _ _ _
    rw [Nat.add_zero, Nat.min_eq_left (by omega)]
    rfl
  · obtain ⟨ht, -⟩ := countStarved_of_some hk
    generalize (starvedIn s (getStream s o m)).length = k at ht ⊢
    generalize hv : outBump (setStream s o m (countedStream s o m)) o 0x050 23 0 k = v at ht
    have hvk : outRd v o 0x050 23 0 = min (outRd s o 0x050 23 0 + k) (2 ^ 24 - 1) := by
      rw [← hv]
      exact rd_bump_self _ _ _ _ _ _ _ (by decide) (by decide)
    have hvr {off : Nat} (h : off ≠ 0x050) : outReg v o off = outReg s o off := by
      rw [← hv]
      exact getReg_bump_ne _ _ _ _ _ _ _ (addrOf_ne_off h)
    refine ⟨?_, ?_, ?_, fun off ho h10 h50 hb8 => ?_, ?_, fun _ => ?_⟩
    · rw [(congrArg State.clk ht.rest :)]
      exact (raiseEvt_clk ..).trans (hv ▸ rfl)
    · rw [(congrArg State.stores ht.rest :)]
      exact (raiseEvt_stores ..).trans (hv ▸ rfl)
    · have hs : (countStarved o m s).strms = v.strms := (congrArg State.strms ht.rest :).trans (raiseEvt_strms ..)
      rw [getStream_congr hs, ← hv]
      exact getStream_setStream_self ..
    · unfold outReg at hvr ⊢
      rw [ht.reg_off ho hb8, ← hvr h50]
      exact reg_raiseEvt_ne _ _ _ _ (addrOf_ne_off h10)
    · rw [← hvk]
      unfold outRd rd
      rw [ht.reg_off (by decide) (by decide)]
      exact congrArg (fget · 23 0) (reg_raiseEvt_ne _ _ _ _ (addrOf_ne_off (by decide)))
    · unfold rdBit
      rw [ht.reg_off (by decide) (by decide)]
      exact rdBit_raiseEvt_self _ _ _ _ (by decide)

/-- A starved sample that was due in the running shot tags it. -/
theorem countStarved_tags {g : Nat} (hg : outGroup s o = some g) (hrun : (getGroup s g).running = true)
    (h : ∃ j ∈ starvedIn s (getStream s o m), 0 ≤ ticksTo (getGroup s g).t0 (strmDue (getStream s o m) j)) :
    (getGroup (countStarved o m s) g).tag = (getGroup s g).tag ||| tagCorrupt := by
  obtain ⟨j, hj, hin⟩ := h
  have hk : (starvedIn s (getStream s o m)).length ≠ 0 := (List.length_pos_of_mem hj).ne'
  rw [(countStarved_of_some hk).2 g hg]
  have hsame : getGroup (outEvt o 1 (outBump (setStream s o m (countedStream s o m)) o 0x050 23 0
      (starvedIn s (getStream s o m)).length)) g = getGroup s g := getGroup_raiseEvt ..
  rw [getGroup_foldl_tagDue (by rwa [hsame]), hsame]
  rw [hsame]
  exact ⟨_, List.mem_dedup.2 (List.mem_map_of_mem hj), hin⟩

end

/-! ## Refill -/

theorem refillSample_foldl_eq (o m : Nat) (l : List Nat) (s : State) :
    l.foldl (refillSample o m) s = { s with stores := (l.foldl (refillSample o m) s).stores } := by
  refine foldl_rel (fun s t => t = { s with stores := t.stores }) (fun _ => rfl) ?_ _ ?_ _ s
  · intro s t u h h'
    rw [h', h]
  · intro t j
    unfold refillSample
    dsimp only
    split <;> rfl

/-- Refill data changes the stream, the stores and the blocks kept for it, once the starved samples are counted. -/
theorem refillData_eq {s : State} {o m : Nat} (k : Nat) (hb : strmBusy s o m = true) (hp : portServes s o = true) :
    let u := countStarved o m s
    let y := getStream u o m
    ∃ st rf gaps old, refillData o m k s = setStream { u with stores := st, refilled := rf } o m { y with
      got := max y.got (min (y.got + k) (min y.len (strmEntered u y + strmWindow u o m))), gaps := gaps, old := old } := by
  intro u y
  unfold refillData
  rw [if_neg (by simp [hb, hp])]
  extract_lets w due top is old late lost last s1 s2
  have h1 : s1 = { u with stores := s1.stores } := refillSample_foldl_eq o m is u
  have h2 : s2 = { u with stores := s1.stores, refilled := s2.refilled } := by
    unfold s2
    rw [h1]
  rw [h2]
  exact ⟨_, _, _, _, rfl⟩

theorem refillData_of_not {s : State} {o m k : Nat} (h : strmBusy s o m = false ∨ portServes s o = false) :
    refillData o m k s = s := by
  unfold refillData
  exact if_pos (by simpa using h)

/-! ## Mute and faults of an output -/

/-- Notes of mutes keep the fault of an output. -/
theorem dacFault_noteGate (before : State) (x : BitVec 48) (o p : Nat) (s : State) :
    (getOut (noteGate before x p s) o).dacFault = (getOut s o).dacFault := by
  unfold noteGate
  dsimp only
  split
  · rfl
  · by_cases h : o = p
    · subst h
      rw [getOut_setOut_self]
    · rw [getOut_setOut_ne _ _ h]

theorem dacFault_gated (x : BitVec 48) (f : State → State) (o : Nat) (s : State) :
    (getOut (gated x f s) o).dacFault = (getOut (f s) o).dacFault :=
  foldl_rel (fun s t => (getOut t o).dacFault = (getOut s o).dacFault) (fun _ => rfl)
    (fun _ _ _ h h' => h'.trans h) _ (fun _ _ => dacFault_noteGate ..) _ _

theorem outMuted_of_dacFault {s : State} {o : Nat} (h : (getOut s o).dacFault = true) : outMuted s o = true := by
  unfold outMuted
  simp [h]

/-- The page of an output's sequencer differs from the output's own. -/
theorem outPage_ne {pt : PT} {n o off : Nat} {off' : Nat} (ho : off < 4096) (ho' : off' < 4096)
    (hn : ptBase pt + n < 0x110) (h4 : o < 80) : addrOf pt n off ≠ addrOf (outPage o).1 (outPage o).2 off' := by
  refine addrOf_ne_page ho ho' ?_
  unfold outPage
  split <;> simp only [ptBase] at * <;> omega

/-- OUT_CFG.MUTE is written, and a mute tags the running shot of the output's group. -/
theorem muteWrite_spec (s : State) {o : Nat} (ho : o < 80) (on : Bool) :
    rdBit (muteWrite o on s) (outPage o).1 (outPage o).2 0x040 0 = on ∧
      regsBut [addrOf (outPage o).1 (outPage o).2 0x040] s (muteWrite o on s) ∧
      (on = false → { muteWrite o on s with regs := s.regs, outs := s.outs } = s) ∧
      (on = true → ∀ g, seqGroup s o = some g → (getGroup s g).running = true →
        (getGroup (muteWrite o on s) g).tag = (getGroup s g).tag ||| tagCorrupt) := by
  unfold muteWrite
  extract_lets s1
  have h1 : s1 = { wr s (outPage o).1 (outPage o).2 0x040 0 0 (b2n on) with outs := s1.outs } := gated_eq ..
  have hbit : rdBit s1 (outPage o).1 (outPage o).2 0x040 0 = on := by
    rw [h1]
    refine (rdBit_wr_self _ _ _ _ _ _ _ _ (Nat.le_refl _) (by decide)).trans ?_
    cases on <;> rfl
  have hregs : regsBut [addrOf (outPage o).1 (outPage o).2 0x040] s s1 := by
    rw [h1]
    exact regsBut_wr _ _ _ _ _ _ _ (List.mem_singleton_self _)
  cases on with
  | false =>
    rw [if_neg Bool.false_ne_true]
    exact ⟨hbit, hregs, fun _ => (congrArg (fun u : State => { u with regs := s.regs, outs := s.outs }) h1 :),
      fun h => absurd h Bool.false_ne_true⟩
  | true =>
    have hgrp : seqGroup s1 (outSeq o) = seqGroup s o :=
      seqGroup_congr (hregs _ (by
        rw [List.mem_singleton]
        exact outPage_ne (by decide) (by decide) (by simp only [ptBase, outSeq]; omega) ho))
    have hg1 (g : Nat) : getGroup s1 g = getGroup s g := by
      rw [h1]
      rfl
    have hsame : (tagSeq (outSeq o) tagCorrupt s1).regs = s1.regs := by
      unfold tagSeq tagShot
      split
      · rfl
      · dsimp only
        split <;> rfl
    rw [if_pos rfl]
    refine ⟨(rdBit_congr hsame ..).trans hbit, fun b hb => (getReg_congr hsame b).trans (hregs b hb),
      fun h => absurd h (by decide), fun _ g hg hrun => ?_⟩
    unfold tagSeq
    rw [hgrp, hg]
    refine (congrArg Group.tag (getGroup_tagShot (by rwa [hg1]) tagCorrupt)).trans ?_
    rw [hg1]

/-- A mismatch of a tone is counted, shown and raised; its wear is kept elsewhere. -/
theorem toneVerify_spec (s : State) {o n : Nat} (ho : o < 80) (hn : n < 34) :
    rd (toneVerify o n true s) (outPage o).1 (outPage o).2 0x05C 15 0 =
        min (rd s (outPage o).1 (outPage o).2 0x05C 15 0 + 1) 65535 ∧
      rd (toneVerify o n true s) (outPage o).1 (outPage o).2 0x05C 21 16 = n ∧
      rdBit (toneVerify o n true s) (outPage o).1 (outPage o).2 0x018 0 = true := by
  unfold toneVerify
  rw [if_pos rfl]
  extract_lets s1 s2
  have hw : Wears 1 o _ (addWear 1 o n 1 (outFault o 0 s2)) := .addWear (.refl ..) n 1
  have hoff {off : Nat} (h : off < 4096) (h' : off ≠ 0x020) :
      reg (addWear 1 o n 1 (outFault o 0 s2)) (outPage o).1 (outPage o).2 off =
        reg (outFault o 0 s2) (outPage o).1 (outPage o).2 off := by
    refine hw.regs _ ?_
    have hpage : 0x110 ≤ ptBase (outPage o).1 + (outPage o).2 := by
      unfold outPage
      split <;> simp only [ptBase] <;> omega
    rintro (e | e | ⟨pt, m, -, e⟩)
    · rw [addrOf_page h] at e
      omega
    · rw [addrOf_page h] at e
      omega
    · exact h' (addrOf_inj h (by decide) e).2
  have hcnt {hi lo : Nat} : rd (addWear 1 o n 1 (outFault o 0 s2)) (outPage o).1 (outPage o).2 0x05C hi lo =
      rd s2 (outPage o).1 (outPage o).2 0x05C hi lo := by
    unfold rd
    rw [hoff (by decide) (by decide)]
    exact congrArg (fget · hi lo) (reg_raiseFault_ne _ _ _ _ (addrOf_ne_off (by decide)))
  refine ⟨hcnt.trans ?_, hcnt.trans ?_, ?_⟩
  · exact (rd_wr_field _ _ _ _ _ _ _ _ _ (by decide) (by decide) (by decide)).trans
      (rd_bump_self _ _ _ _ _ _ _ (by decide) (by decide))
  · exact (rd_wr_self _ _ _ _ _ _ _ (by decide) (by decide)).trans (Nat.mod_eq_of_lt (by omega))
  · unfold rdBit
    rw [hoff (by decide) (by decide)]
    exact rdBit_raiseFault_self _ _ _ _ (by decide)

/-- A DAC fault of a drive or probe output mutes it. -/
theorem dacFaultAt_spec (s : State) {o : Nat} (ho : o < 80) :
    (getOut (dacFaultAt o s) o).dacFault = true ∧ rdBit (dacFaultAt o s) (outPage o).1 (outPage o).2 0x018 1 = true ∧
      outMuted (dacFaultAt o s) o = true := by
  unfold dacFaultAt
  rw [if_pos ho]
  extract_lets s1
  have h1 : (getOut s1 o).dacFault = true := by
    unfold s1
    rw [dacFault_gated, getOut_setOut_self]
  have h2 : (outFault o 1 (tagSeq (outSeq o) tagCorrupt s1)).outs = s1.outs :=
    (raiseFault_outs ..).trans (congrArg State.outs (Tagged.tagSeq (outSeq o) tagCorrupt s1).rest :)
  have h3 : (getOut (outFault o 1 (tagSeq (outSeq o) tagCorrupt s1)) o).dacFault = true := by
    unfold getOut at h1 ⊢
    rwa [h2]
  exact ⟨h3, rdBit_raiseFault_self _ _ _ _ (by decide), outMuted_of_dacFault h3⟩

/-! ## Delivery -/

/-- A command that only delivers an item brings it to its receiver. -/
theorem delivers_of_deliver {c : Instr} {s : State} {p : Payload → Bool} {onTime once late : Item → State → State}
    (h : exec c s = .next (deliver p onTime once late s)) : Delivers c s s p onTime once late := by
  unfold deliver at h
  refine ⟨fun hn => ?_, fun i rest ht => ⟨fun hb => ?_, fun hb hl => ?_, fun hb hl => ?_⟩⟩
  · rw [h, hn]
  · rw [h, ht]
    exact congrArg Host.Outcome.next (if_pos hb)
  · rw [h, ht]
    exact congrArg Host.Outcome.next ((if_neg (by simp [hb])).trans (if_neg (by simp [hl])))
  · rw [h, ht]
    exact congrArg Host.Outcome.next ((if_neg (by simp [hb])).trans (if_pos hl))

end Sys2Proof.Machine
end

section
/-! O30: drive actions place their pulses. -/

open Sys2Proof Sys2Proof.Machine

/-- Settles O30: a port action through `portAct_of_pulse` and `portAct_of_no_pulse`, a stream through `countStarved_spec` and
`refillData_eq`, and the rest through the rule of each command. -/
theorem driveActionsPlaceTheirPulses : Obligations.DriveActionsPlaceTheirPulses := by
  unfold Obligations.DriveActionsPlaceTheirPulses
  intro s out tone hup o n pg k isP
  refine ⟨?delivers, ?acts, ?streams, ?mutes, ?verified, ?mismatch, ?faults⟩
  case delivers => exact delivers_of_deliver (congrArg Host.Outcome.next (whenUp_of hup))
  case acts =>
    intro i late start env amp phop fs tset w asw psw hi t sp dp op x e bad
    let a : PortAction := ⟨o, n, start, env, amp, phop, fs, tset, w, asw, psw⟩
    have hload : i.load = a.load := hi
    obtain ⟨hitems, hclk⟩ := portAct_keeps (s := s) (late := late) hload
    refine ⟨hitems, hclk, ?noPulse, ?ops, ?pulse⟩
    case ops =>
      intro hop hdp
      have hdp' : drvPast s ≤ a.dp s := hdp
      have hop' : (a.phase s i.deps).op ≠ .none := hop
      have h := mem_portAct_ops (late := late) hload hop' hdp'
      exact h
    case noPulse =>
      intro h hop
      have ht : t = placeOp o n (a.phase s i.deps) s := portAct_of_no_pulse hload h
      rw [ht, getTone_placeOp hop]
      exact ⟨rfl, rfl⟩
    case pulse =>
      intro he hen
      have he' : a.slot s ≠ 0 := he
      have hen' : a.playing s = true := hen
      refine ⟨fun hl hb => ?_, fun hlen => ?_⟩
      · have hb' : a.bad s = true := hb
        have h := portAct_bad hload he' hen' hl hb'
        exact h
      have hlen' : (a.pulse s i (a.mutes late s)).len ≠ 0 := hlen
      have h := mem_portAct_pulses hload he' hen' hlen'
      refine ⟨_, h, ?_⟩
      rw [placedPulse_eq]
      exact ⟨rfl, rfl, rfl, rfl, rfl, rfl, rfl, rfl, rfl, rfl, rfl⟩
  case streams =>
    intro m v y due missing counted
    have hunder : exec (.refillUnderrun out m v) s = .next (refillUnderrun o m.val s) :=
      congrArg Host.Outcome.next (whenUp_of hup)
    have hdata : exec (.refillData out m v) s = .next (refillData o m.val v s) := congrArg Host.Outcome.next (whenUp_of hup)
    refine ⟨fun hb => ⟨?_, ?_⟩, fun hb => ?_⟩
    · rw [hdata, refillData_of_not (.inl hb)]
    · rw [hunder]
      exact congrArg Host.Outcome.next (if_neg (by simp [hb]))
    obtain ⟨hclk, hstores, hstream, hregs, hcnt, hevt⟩ := countStarved_spec s o m.val
    have hcounted (t : State) (hr : t.regs = (countStarved o m.val s).regs)
        (hg : t.groups = (countStarved o m.val s).groups) : counted t := by
      refine ⟨_, (rd_congr hr ..).trans hcnt, ?_, fun hc => (rdBit_congr hr ..).trans (hevt hc), fun g hgrp hrun h => ?_⟩
      · rw [List.length_pos_iff_exists_mem]
        exact exists_congr fun j => mem_starvedIn
      · obtain ⟨j, h1, h2, h3, h4⟩ := h
        rw [getGroup_congr hg]
        exact countStarved_tags s o m.val hgrp hrun ⟨j, mem_starvedIn.2 ⟨h1, h2, h3⟩, h4⟩
    refine ⟨⟨_, hunder, ?_⟩, fun hp => ⟨_, hdata, ?_⟩, fun hp => ?_⟩
    · have he : refillUnderrun o m.val s = countStarved o m.val s := if_pos hb
      rw [he]
      exact ⟨hcounted _ rfl rfl, hclk, hstores, hstream⟩
    · obtain ⟨st, rf, gaps, old, he⟩ := refillData_eq v hb hp
      rw [he]
      refine ⟨hcounted _ rfl rfl, hclk, ?_⟩
      rw [getStream_setStream_self, hstream]
      have hw : strmWindow (countStarved o m.val s) o m.val = strmWindow s o m.val := by
        have hm := m.isLt
        unfold strmWindow outRd rd
        exact congrArg (fun w : Word => 2 ^ (10 + min 5 (fget w 2 0)))
          (hregs _ (by split <;> omega) (by split <;> omega) (by split <;> omega) (by split <;> omega))
      have hd : strmEntered (countStarved o m.val s) (countedStream s o m.val) = due := by
        unfold strmEntered
        rw [hclk]
        rfl
      dsimp only
      rw [hw, hd]
      rfl
    · rw [hdata, refillData_of_not (.inr hp)]
  case mutes =>
    intro on
    refine ⟨_, congrArg Host.Outcome.next (whenReg_of hup), ?_⟩
    exact muteWrite_spec s out.isLt on
  case verified => exact congrArg Host.Outcome.next (whenUp_of hup)
  case mismatch => exact ⟨_, congrArg Host.Outcome.next (whenUp_of hup), toneVerify_spec s out.isLt tone.isLt⟩
  case faults =>
    intro d hd
    refine ⟨_, congrArg Host.Outcome.next (whenUp_of hup), ?_⟩
    rw [hd]
    exact dacFaultAt_spec s out.isLt

end

section
/-! What the work at an opening leaves alone: the clock, the stores, the ledger of blocks, the control registers, and
every sequencer but those it is about (R20, R23, R91, R192, R225). -/

namespace Sys2Proof.Machine

/-! ## The registers of that work -/

/-- Registers of pages other than SYS and the sequencers'. -/
def FarReg (a : Nat) : Prop := 0 < a / 4096 ∧ (a / 4096 < 0x10 ∨ 0x110 ≤ a / 4096)

/-- FarReg, and of the sequencers' pages: events, faults, PG_SPARE, the machine check, the GO latch,
and the shown tag. -/
def WorkReg (a : Nat) : Prop := 0 < a / 4096 ∧
  (a / 4096 < 0x10 ∨ 0x110 ≤ a / 4096 ∨ a % 4096 ∈ [0x010, 0x018, 0x020, 0x058, 0x084, 0x0B8])

theorem farReg_high {pt : PT} (h : 0x110 ≤ ptBase pt) (n off : Nat) : FarReg (addrOf pt n off) := by
  unfold FarReg addrOf
  omega

theorem farReg_low {pt : PT} {n off : Nat} (h : 0 < ptBase pt) (hn : ptBase pt + n < 0x10) (ho : off < 4096) :
    FarReg (addrOf pt n off) := by
  unfold FarReg
  rw [addrOf_page ho]
  omega

theorem outPage_high (o : Nat) : 0x110 ≤ ptBase (outPage o).1 := by
  unfold outPage
  split
  · exact (by decide : 0x110 ≤ ptBase .drv)
  · exact (by decide : 0x110 ≤ ptBase .prb)

theorem FarReg.work {a : Nat} (h : FarReg a) : WorkReg a := ⟨h.1, h.2.imp id .inl⟩

/-- An event register of a sequencer's page is of no other page's work. -/
theorem FarReg.ne_seq {a : Nat} (h : FarReg a) {q off : Nat} (hq : q < 0x100) (ho : off < 4096) :
    addrOf .seq q off ≠ a := by
  rintro rfl
  have hp : addrOf .seq q off / 4096 = 0x10 + q := addrOf_seq_div q ho
  unfold FarReg at h
  omega

theorem workReg_seq (q : Nat) {off : Nat} (ho : off ∈ [0x010, 0x018, 0x020, 0x058, 0x084, 0x0B8]) :
    WorkReg (addrOf .seq q off) := by
  have hlt : off < 4096 := by
    simp only [List.mem_cons, List.not_mem_nil, or_false] at ho
    omega
  have hmod : addrOf .seq q off % 4096 = off := by
    unfold addrOf
    omega
  refine ⟨?_, .inr (.inr (hmod.symm ▸ ho))⟩
  rw [addrOf_page hlt]
  exact Nat.lt_of_lt_of_le (by decide : 0 < ptBase .seq) (Nat.le_add_right ..)

/-- A control register of a sequencer's page is none that the work changes. -/
theorem not_workReg_seq {q off : Nat} (hq : q < 0x100) (ho : off < 4096)
    (h : off ∉ [0x010, 0x018, 0x020, 0x058, 0x084, 0x0B8]) : ¬ WorkReg (addrOf .seq q off) := by
  rintro ⟨-, hp⟩
  have hmod : addrOf .seq q off % 4096 = off := by
    unfold addrOf
    omega
  rw [addrOf_seq_div q ho, hmod] at hp
  rcases hp with hp | hp | hp
  · omega
  · omega
  · exact h hp

theorem not_workReg_sys {off : Nat} (ho : off < 4096) : ¬ WorkReg (addrOf .sys 0 off) := by
  rintro ⟨h, -⟩
  rw [addrOf_page ho] at h
  exact absurd h (by decide)

/-! ## The relation -/

/-- What the work leaves of the state beside registers, groups and sequencers. -/
def still (s : State) :=
  (s.clk, s.boot, s.resetting, s.unchecked, s.stores, s.pantry, s.accepted, s.calWin, s.held)

/-- Between `b` and `s` sequencers of `Q` were worked on, with the converters, the Ladle and Mortar. -/
structure Worked (Q : Nat → Prop) (b s : State) : Prop where
  still : still s = still b
  regs : ∀ a, ¬ WorkReg a → getReg s a = getReg b a
  evts : ∀ q < 0x100, ∀ i, rdBit b .seq q 0x010 i = true → rdBit s .seq q 0x010 i = true
  groups : ∀ g, ∃ tag past, getGroup s g = { getGroup b g with tag := (getGroup b g).tag ||| tag, past := past }
  others : ∀ q, ¬ Q q → getSeq s q = getSeq b q
  seqs : (∀ q, ¬ Q q) → s.seqs = b.seqs

theorem same_tag {x y : Group} (h : y = x) : y = { x with tag := x.tag ||| 0, past := x.past } := by
  subst h
  cases y
  simp

theorem rdBit_setReg_ne (s : State) {a : Nat} (v : Word) {pt : PT} {n off i : Nat} (h : addrOf pt n off ≠ a) :
    rdBit (setReg s a v) pt n off i = rdBit s pt n off i := by
  unfold rdBit reg
  rw [getReg_setReg_ne s v h]

namespace Worked

variable {Q : Nat → Prop} {b s t : State}

protected theorem refl (Q : Nat → Prop) (s : State) : Worked Q s s :=
  ⟨rfl, fun _ _ => rfl, fun _ _ _ h => h, fun _ => ⟨0, _, same_tag rfl⟩, fun _ _ => rfl, fun _ => rfl⟩

protected theorem trans (h : Worked Q b s) (h' : Worked Q s t) : Worked Q b t where
  still := h'.still.trans h.still
  regs a ha := (h'.regs a ha).trans (h.regs a ha)
  evts q hq i hi := h'.evts q hq i (h.evts q hq i hi)
  groups g := by
    obtain ⟨tag, past, e⟩ := h.groups g
    obtain ⟨tag', past', e'⟩ := h'.groups g
    exact ⟨tag ||| tag', past', by rw [e', e, BitVec.or_assoc]⟩
  others q hq := (h'.others q hq).trans (h.others q hq)
  seqs hq := (h'.seqs hq).trans (h.seqs hq)

protected theorem mono {P : Nat → Prop} (h : Worked P b s) (hPQ : ∀ q, P q → Q q) : Worked Q b s :=
  ⟨h.still, h.regs, h.evts, h.groups, fun q hq => h.others q fun hp => hq (hPQ q hp),
    fun hq => h.seqs fun q hp => hq q (hPQ q hp)⟩

protected theorem ite {c : Prop} [Decidable c] (h : Worked Q b s) (h' : Worked Q b t) :
    Worked Q b (if c then s else t) := by
  split
  · exact h
  · exact h'

protected theorem foldl {β : Type} {f : State → β → State} (hf : ∀ {t x}, Worked Q b t → Worked Q b (f t x))
    {l : List β} (h : Worked Q b s) : Worked Q b (l.foldl f s) := by
  induction l generalizing s with
  | nil => exact h
  | cons x l ih => exact ih (hf h)

/-- Nothing that the relation speaks of. -/
protected theorem frame (h : Worked Q b s)
    (e : (Machine.still t, t.regs, t.groups, t.seqs) = (Machine.still s, s.regs, s.groups, s.seqs)) :
    Worked Q b t := by
  simp only [Prod.mk.injEq] at e
  obtain ⟨hk, hr, hg, hq⟩ := e
  exact h.trans ⟨hk, fun a _ => getReg_congr hr a, fun _ _ _ hi => by rwa [rdBit_congr hr],
    fun g => ⟨0, _, same_tag (getGroup_congr hg g)⟩, fun q _ => getSeq_congr hq q, fun _ => hq⟩

/-! ## Registers -/

protected theorem setReg (h : Worked Q b s) {a : Nat} (ha : FarReg a) (v : Word) : Worked Q b (setReg s a v) :=
  h.trans ⟨rfl, fun _ hc => getReg_setReg_ne s v fun e => hc (e ▸ ha.work),
    fun _ hq _ hi => by rwa [rdBit_setReg_ne _ _ (ha.ne_seq hq (by decide))], fun _ => ⟨0, _, same_tag rfl⟩,
    fun _ _ => rfl, fun _ => rfl⟩

/-- A register of a sequencer's page other than that of its events. -/
protected theorem setSeqReg (h : Worked Q b s) {q off : Nat} (ho : off ∈ [0x018, 0x020, 0x058, 0x084, 0x0B8])
    (v : Word) :
    Worked Q b (Machine.setReg s (addrOf .seq q off) v) := by
  have hne : off ≠ 0x010 := by
    rintro rfl
    exact absurd ho (by decide)
  have hlt : off < 4096 := by
    simp only [List.mem_cons, List.not_mem_nil, or_false] at ho
    omega
  exact h.trans ⟨rfl, fun _ hc => getReg_setReg_ne s v fun e => hc (e ▸ workReg_seq q (List.mem_cons_of_mem _ ho)),
    fun _ _ _ hi => by rwa [rdBit_setReg_ne _ _ fun e => hne (addrOf_inj (by decide) hlt e).2.symm],
    fun _ => ⟨0, _, same_tag rfl⟩, fun _ _ => rfl, fun _ => rfl⟩

protected theorem wr (h : Worked Q b s) {pt : PT} {n off hi lo v : Nat} (hp : 0x110 ≤ ptBase pt) :
    Worked Q b (wr s pt n off hi lo v) := h.setReg (farReg_high hp n off) _

protected theorem wrAll (h : Worked Q b s) {pt : PT} {n off v : Nat} (hp : 0x110 ≤ ptBase pt) :
    Worked Q b (wrAll s pt n off v) := h.setReg (farReg_high hp n off) _

protected theorem bump (h : Worked Q b s) {pt : PT} {n off hi lo k : Nat} (hp : 0x110 ≤ ptBase pt) :
    Worked Q b (bump s pt n off hi lo k) := h.wr hp

protected theorem raiseFar (h : Worked Q b s) {pt : PT} {n bit : Nat} (ha : FarReg (addrOf pt n 0x010)) :
    Worked Q b (raiseEvt pt n bit s) :=
  h.trans ⟨by unfold Machine.still; simp, fun a hc => by rw [getReg_raiseEvt, if_neg (by rintro rfl; exact hc ha.work)],
    fun _ hq _ hi => by
      unfold rdBit at hi ⊢
      rwa [reg_raiseEvt_ne _ _ _ _ (ha.ne_seq hq (by decide))],
    fun g => ⟨0, _, same_tag (getGroup_congr (raiseEvt_groups ..) g)⟩,
    fun q _ => getSeq_congr (raiseEvt_seqs ..) q, fun _ => raiseEvt_seqs ..⟩

protected theorem raiseEvt (h : Worked Q b s) {pt : PT} {n bit : Nat} (hp : 0x110 ≤ ptBase pt) :
    Worked Q b (raiseEvt pt n bit s) := h.raiseFar (farReg_high hp n _)

protected theorem raiseEvtIf (h : Worked Q b s) {c : Bool} {pt : PT} {n bit : Nat}
    (hp : 0x110 ≤ ptBase pt) :
    Worked Q b (raiseEvtIf c pt n bit s) := .ite (h.raiseEvt hp) h

/-- An event of a sequencer's page is set. -/
protected theorem raiseSeq (h : Worked Q b s) {q bit : Nat} (hb : bit < 32) :
    Worked Q b (Machine.raiseEvt .seq q bit s) := by
  refine h.trans ⟨by unfold Machine.still; simp, fun a hc => ?_, fun r hr i hi => ?_,
    fun g => ⟨0, _, same_tag (getGroup_congr (raiseEvt_groups ..) g)⟩,
    fun q _ => getSeq_congr (raiseEvt_seqs ..) q, fun _ => raiseEvt_seqs ..⟩
  · rw [getReg_raiseEvt, if_neg (by rintro rfl; exact hc (workReg_seq q (by decide)))]
  · by_cases hq : r = q
    · subst hq
      exact rdBit_raiseEvt_of _ _ _ _ _ hb hi
    · unfold rdBit at hi ⊢
      rwa [reg_raiseEvt_ne _ _ _ _ (addrOf_ne_page (by decide) (by decide) fun e => hq (by omega))]

/-- A fault of a sequencer's page is set. -/
protected theorem faultSeq (h : Worked Q b s) {q bit : Nat} : Worked Q b (Machine.raiseFault .seq q bit s) := by
  refine h.trans ⟨by unfold Machine.still; simp, fun a hc => ?_, fun r hr i hi => ?_,
    fun g => ⟨0, _, same_tag (getGroup_congr (raiseFault_groups ..) g)⟩,
    fun q _ => getSeq_congr (raiseFault_seqs ..) q, fun _ => raiseFault_seqs ..⟩
  · rw [getReg_raiseFault, if_neg (by rintro rfl; exact hc (workReg_seq q (by decide)))]
  · unfold rdBit at hi ⊢
    rwa [reg_raiseFault_ne _ _ _ _ fun e => absurd (addrOf_inj (by decide) (by decide) e).2 (by decide)]

/-! ## Sequencers, tags, wear -/

protected theorem setSeq (h : Worked Q b s) {q : Nat} {x : Seq} (hq : Q q) : Worked Q b (setSeq s q x) :=
  h.trans ⟨rfl, fun _ _ => rfl, fun _ _ _ hi => hi, fun _ => ⟨0, _, same_tag rfl⟩,
    fun _ hr => getSeq_setSeq_ne s x fun e => hr (e ▸ hq), fun hn => absurd hq (hn q)⟩

/-- A running shot is tagged at once. -/
protected theorem tagShot (h : Worked Q b s) {g : Nat} {bits : BitVec 8} : Worked Q b (tagShot g bits s) := by
  unfold Machine.tagShot
  refine .ite ?_ h
  refine h.trans ⟨rfl, fun _ _ => rfl, fun _ _ _ hi => hi, fun k => ?_, fun _ _ => rfl, fun _ => rfl⟩
  by_cases hk : k = g
  · exact ⟨bits, _, by rw [hk, getGroup_setGroup_self]⟩
  · exact ⟨0, _, same_tag (getGroup_setGroup_ne s _ hk)⟩

protected theorem tagSeq (h : Worked Q b s) {q : Nat} {bits : BitVec 8} : Worked Q b (tagSeq q bits s) := by
  unfold Machine.tagSeq
  split
  · exact h
  · exact h.tagShot

/-- Wear of a sequencer's store, or of an SRAM array, which has no page. -/
protected theorem wears {kind ins : Nat} (h : Worked Q b s) (hw : Wears kind ins s t)
    (hk : ∀ pt n, unitPage kind ins = some (pt, n) → pt = .seq) : Worked Q b t := by
  have hreg : ∀ a, ¬ WorkReg a → getReg t a = getReg s a := by
    refine fun a ha => hw.regs a ?_
    rintro (h4 | h6 | ⟨pt, n, hu, rfl⟩)
    · exact ha ⟨by omega, by omega⟩
    · exact ha ⟨by omega, by omega⟩
    · exact ha (hk pt n hu ▸ workReg_seq n (by decide))
  have hevt : ∀ q < 0x100, getReg t (addrOf .seq q 0x010) = getReg s (addrOf .seq q 0x010) := by
    refine fun q hq => hw.regs _ ?_
    have hp := addrOf_seq_div q (show 0x010 < 4096 by decide)
    rintro (h4 | h6 | ⟨pt, n, hu, e⟩)
    · omega
    · omega
    · exact absurd (addrOf_inj (by decide) (by decide) e).2 (by decide)
  refine h.trans ⟨?_, hreg, fun q hq i hi => ?_,
    fun g => ⟨0, _, same_tag (getGroup_congr (congrArg State.groups hw.rest :) g)⟩,
    fun q _ => getSeq_congr (congrArg State.seqs hw.rest :) q, fun _ => (congrArg State.seqs hw.rest :)⟩
  · exact (congrArg Machine.still hw.rest :)
  · unfold rdBit reg at hi ⊢
    rwa [hevt q hq]

end Worked
end Sys2Proof.Machine
end

section
/-! Converters, demodulators, Ladle, Mortar and sequencers as they work at an opening: each operation keeps `Worked`. -/

namespace Sys2Proof.Machine
namespace Worked

variable {Q : Nat → Prop} {b s : State}

/-! ## Drive and probe outputs -/

protected theorem noteGate {before : State} {t : BitVec 48} {out : Nat} (h : Worked Q b s) :
    Worked Q b (noteGate before t out s) := by
  unfold Machine.noteGate
  exact .ite h (h.frame (by rfl))

protected theorem gated {t : BitVec 48} {f : State → State} (hf : Worked Q b (f s)) : Worked Q b (gated t f s) :=
  .foldl .noteGate hf

protected theorem raiseFirst {pt : PT} {n bit : Nat} (h : Worked Q b s) (hp : 0x110 ≤ ptBase pt) :
    Worked Q b (raiseFirst pt n bit s) := by
  unfold Machine.raiseFirst
  exact .ite h (.raiseEvt (.frame h (by rfl)) hp)

protected theorem outCatch {out : Nat} (h : Worked Q b s) : Worked Q b (outCatch out s) := by
  unfold Machine.outCatch
  exact .ite h (.ite (h.frame (by rfl)) (.raiseFirst (.bump (.frame h (by rfl)) (outPage_high out)) (outPage_high out)))

protected theorem placeOp {out tone : Nat} {o : Phase} (h : Worked Q b s) : Worked Q b (placeOp out tone o s) := by
  unfold Machine.placeOp
  split
  · exact h
  · exact h.outCatch.frame (by rfl)

protected theorem toneOpen {t : BitVec 48} {out tone : Nat} (h : Worked Q b s) :
    Worked Q b (toneOpen t out s tone) := by
  unfold Machine.toneOpen
  exact .ite (.placeOp (.ite h.placeOp h)) (.ite h.placeOp h)

protected theorem dmOpen {t : BitVec 48} {d : Nat} (h : Worked Q b s) : Worked Q b (dmOpen t s d) :=
  .ite (h.frame (by rfl)) h

/-! ## Flux outputs -/

protected theorem fluxPost {o : Nat} {f : Flux} (h : Worked Q b s) : Worked Q b (fluxPost o f s) := by
  unfold Machine.fluxPost
  extract_lets s1 s2 s3 s4
  have h1 : Worked Q b s1 := h.frame (by rfl)
  have h2 : Worked Q b s2 := .ite h1 (.raiseFirst (h1.bump (by decide)) (by decide))
  have h3 : Worked Q b s3 := h2.raiseEvtIf (by decide)
  have h4 : Worked Q b s4 := .ite h3 (.raiseEvt (h3.bump (by decide)) (by decide))
  exact h4.raiseEvtIf (by decide)

protected theorem fluxCatch {o : Nat} (h : Worked Q b s) : Worked Q b (fluxCatch o s) := by
  unfold Machine.fluxCatch
  exact .ite h (.ite (h.frame (by rfl)) h.fluxPost)

protected theorem fluxGroupCatch {g : Nat} (h : Worked Q b s) : Worked Q b (fluxGroupCatch g s) :=
  .foldl .fluxCatch h

protected theorem fluxTakeOver {o : Nat} (h : Worked Q b s) : Worked Q b (fluxTakeOver o s) := by
  unfold Machine.fluxTakeOver
  exact .ite (h.frame (by rfl)) h

protected theorem putFlux {o p w : Nat} {act : FAct} {deps : List Nat} (h : Worked Q b s) :
    Worked Q b (putFlux o p w act deps s) := h.frame (by rfl)

protected theorem fluxRampAt {t : BitVec 48} {toPark : Bool} {o : Nat} (h : Worked Q b s) :
    Worked Q b (fluxRampAt t toPark o s) := by
  unfold Machine.fluxRampAt
  extract_lets s1 f keep s2
  have h1 : Worked Q b s1 := h.fluxCatch
  have h2 : Worked Q b s2 := h1.frame (by rfl)
  exact .ite h1 (.ite h2 h2.putFlux)

protected theorem fluxGroupPark {g : Nat} (h : Worked Q b s) : Worked Q b (fluxGroupPark g s) := .foldl .fluxRampAt h

protected theorem pdClrApply {o : Nat} (h : Worked Q b s) : Worked Q b (pdClrApply o s) :=
  .ite (.frame h.fluxCatch (by rfl)) h

protected theorem fluxEndPark {e : BitVec 48} {o : Nat} (h : Worked Q b s) : Worked Q b (fluxEndPark e o s) :=
  .ite h.fluxCatch.putFlux h

/-! ## A sequencer's outputs -/

protected theorem silenceSeq {q : Nat} {t : BitVec 48} (h : Worked Q b s) : Worked Q b (silenceSeq q t s) :=
  .ite (.gated (h.frame (by rfl))) (.ite (.foldl (fun h => .frame h.fluxRampAt (by rfl)) h) h)

protected theorem soundSeq {q : Nat} {t : BitVec 48} (h : Worked Q b s) : Worked Q b (soundSeq q t s) :=
  .ite (.gated (h.frame (by rfl))) (.ite (.foldl (fun h => .ite (h.frame (by rfl)) h) h) h)

protected theorem openBlocks {t : BitVec 48} {q : Nat} (h : Worked Q b s) : Worked Q b (openBlocks t s q) :=
  .ite (.ite (.foldl .toneOpen h) (.foldl .dmOpen (.foldl .toneOpen h))) (.ite (.foldl .fluxTakeOver h) h)

protected theorem memberCatch {g : Nat} (h : Worked Q b s) : Worked Q b (memberCatch g s) :=
  .foldl (fun h => .ite h.outCatch (.ite h.fluxGroupCatch h)) h

/-! ## The Ladle -/

protected theorem exportDch {c : Nat} {st : DState} {e : BitVec 48} (h : Worked Q b s) :
    Worked Q b (exportDch c st e s) := by
  unfold Machine.exportDch
  exact .ite h (.foldl (fun h => .ite h (h.frame (by rfl))) (.frame h (by rfl)))

protected theorem moveDch {e : BitVec 48} {c : Nat} {st : DState} (h : Worked Q b s) : Worked Q b (moveDch e c st s) :=
  .ite h (.exportDch (h.frame (by rfl)))

protected theorem evalAll {e : BitVec 48} (h : Worked Q b s) : Worked Q b (evalAll e s) := .foldl .moveDch h

protected theorem evalAt {e : BitVec 48} (h : Worked Q b s) : Worked Q b (evalAt e s) := .ite h (h.frame (by rfl))

protected theorem evalNext (h : Worked Q b s) : Worked Q b (evalNext s) := h.evalAt

protected theorem sendSynd {t : BitVec 48} {r : Res} {k : Nat} (h : Worked Q b s) : Worked Q b (sendSynd t r s k) :=
  .ite (h.frame (by rfl)) h

protected theorem writeEntry {r : Res} {st : Nat} {fl : Bool} {k : Nat} (h : Worked Q b s) :
    Worked Q b (writeEntry r st fl s k) := by
  unfold Machine.writeEntry
  have hfar : FarReg (addrOf .ladle 0 (entryOff k)) := farReg_high (by decide) 0 _
  exact .ite (h.setReg hfar _) (h.setReg hfar _)

protected theorem withdrawArms {dep : Nat} (h : Worked Q b s) : Worked Q b (withdrawArms dep s) := by
  unfold Machine.withdrawArms
  exact .foldl (fun h => .foldl (fun h => .wr h (by decide)) h) (.frame h (by rfl))

protected theorem ladleResolve {dep : Nat} {ok : Bool} {t : BitVec 48} (h : Worked Q b s) :
    Worked Q b (ladleResolve dep ok t s) := by
  unfold Machine.ladleResolve
  extract_lets wrong s1 copy
  have h1 : Worked Q b s1 := .ite h (h.frame (by rfl))
  exact .ite (h1.frame (by rfl)) (.ite h1.withdrawArms.evalAt h1)

protected theorem runJob {t : BitVec 48} {j : LJob} (h : Worked Q b s) : Worked Q b (runJob t j s) := by
  unfold Machine.runJob
  split
  · exact h.ladleResolve
  · exact h.evalAll
  · exact .ite (h.frame (by rfl)) h
  · exact .ite h.writeEntry.sendSynd.evalAt h

protected theorem runJobs {x : BitVec 48} {rank : Nat} :
    ∀ {n : Nat} {s : State}, Worked Q b s → Worked Q b (runJobs n x rank s)
  | 0, _, h => h
  | n + 1, s, h => by
    unfold Machine.runJobs
    split
    · exact h
    · exact .ite (Worked.runJobs (.runJob (.frame h (by rfl)))) h

protected theorem ladleCatch (h : Worked Q b s) : Worked Q b (ladleCatch s) := .runJobs h

protected theorem ladleCatchEval (h : Worked Q b s) : Worked Q b (ladleCatchEval s) := .runJobs h

protected theorem reflip {k : Nat} (h : Worked Q b s) : Worked Q b (reflip k s) := .foldl (fun h => .frame h (by rfl)) h

protected theorem setObsPend {p : Nat × Bool} (h : Worked Q b s) : Worked Q b (setObsPend s p) := h.wr (by decide)

protected theorem ladleOpen {g : Nat} (h : Worked Q b s) : Worked Q b (ladleOpen g s) := by
  unfold Machine.ladleOpen
  extract_lets s1 ks one two
  have h1 : Worked Q b s1 := h.ladleCatchEval
  have hone {t : State} {k : Nat} (ht : Worked Q b t) : Worked Q b (one t k) := .ite (.reflip (.frame ht (by rfl))) ht
  have htwo {t : State} {k : Nat} (ht : Worked Q b t) : Worked Q b (two t k) := .ite (ht.wr (by decide)) ht
  exact .ite h1 (.evalNext (.foldl htwo (.foldl hone h1)))

/-! ## Mortar -/

protected theorem mortarOpen {g : Nat} (h : Worked Q b s) : Worked Q b (mortarOpen g s) := by
  unfold Machine.mortarOpen
  extract_lets s1 s2 s3 use
  have h1 : Worked Q b s1 := h.frame (by rfl)
  have h3 : Worked Q b s3 := .ladleCatch (.wr (.wr (.wr h1 (by decide)) (by decide)) (by decide))
  exact .ite h (.ite (.tagShot (.raiseEvt (.wr h (by decide)) (by decide)))
    (.ite h3 (.evalNext (.foldl .setObsPend (.foldl (fun h => .wr h (by decide)) h3)))))

/-! ## Sequencers -/

protected theorem logEvent {cause page detail : Nat} (h : Worked Q b s) :
    Worked Q b (Machine.logEvent cause page detail s) := by
  unfold Machine.logEvent raiseEvtIf
  extract_lets e full s1
  have h1 : Worked Q b s1 := h.frame (by rfl)
  exact .ite (h1.raiseFar (farReg_low (by decide) (by decide) (by decide))) h1

/-- The part ends with the sequencer's state; events and flux outputs follow. -/
protected theorem endPart_from {q : Nat} {e : BitVec 48} :
    Worked Q (setSeq s q { getSeq s q with st := .ended, succ := none, endAt := none }) (endPart q e s) := by
  unfold Machine.endPart raiseEvtIf
  extract_lets x left s1
  have h1 : Worked Q (setSeq s q { x with st := .ended, succ := none, endAt := none }) s1 :=
    .ite (.raiseSeq (.refl Q _) (by decide)) (.refl Q _)
  exact .ite (.foldl .fluxEndPark h1) h1

protected theorem endPart {q : Nat} {e : BitVec 48} (h : Worked Q b s) (hq : Q q) : Worked Q b (endPart q e s) :=
  (h.setSeq hq).trans .endPart_from

protected theorem takeLatch {q : Nat} (h : Worked Q b s) (hq : Q q) : Worked Q b (takeLatch q s) := by
  unfold Machine.takeLatch
  exact .ite (.setSeqReg (.setSeq h hq) (by decide) _) h

protected theorem clearLatches {q : Nat} (h : Worked Q b s) (hq : Q q) : Worked Q b (clearLatches s q) :=
  .setSeqReg (.setSeq h hq) (by decide) _

protected theorem lateMember {q : Nat} (h : Worked Q b s) (hq : Q q) : Worked Q b (lateMember s q) :=
  .silenceSeq (.raiseSeq (.setSeq h hq) (by decide))

protected theorem wearSeq {q : Nat} (h : Worked Q b s) (unit n : Nat) : Worked Q b (addWear 0 q unit n s) := by
  refine h.wears (.addWear (.refl 0 q s) unit n) fun pt n hu => ?_
  have e : some (PT.seq, q) = some (pt, n) := hu
  simp only [Option.some.injEq, Prod.mk.injEq] at e
  exact e.1.symm

protected theorem wearRow (h : Worked Q b s) (ins unit n : Nat) : Worked Q b (addWear 5 ins unit n s) := by
  refine h.wears (.addWear (.refl 5 ins s) unit n) fun pt n hu => ?_
  have e : none = some (pt, n) := hu
  contradiction

/-- A machine check stops the sequencer; the page, the outputs and the wear of its store and of the SRAM row follow. -/
protected theorem machineCheck_from {q w k : Nat} :
    Worked Q (setSeq s q { getSeq s q with st := .mchk, succ := none }) (machineCheck q w k s) := by
  unfold Machine.machineCheck
  extract_lets x v s1 s2 row
  have h1 : Worked Q (setSeq s q { x with st := .mchk, succ := none }) s1 := .setSeqReg (.refl Q _) (by decide) _
  have h2 : Worked Q (setSeq s q { x with st := .mchk, succ := none }) s2 := .silenceSeq (.tagSeq (.faultSeq h1))
  have h3 : Worked Q (setSeq s q { x with st := .mchk, succ := none })
    (Machine.logEvent 4 (addrOf .seq q 0) (v % 2 ^ 20) s2) := h2.logEvent
  exact (h3.wearSeq 0 1).wearRow _ _ 1

protected theorem machineCheck {q w k : Nat} (h : Worked Q b s) (hq : Q q) : Worked Q b (machineCheck q w k s) :=
  (h.setSeq hq).trans .machineCheck_from

protected theorem startEntry {q e : Nat} {t : BitVec 48} (h : Worked Q b s) (hq : Q q) :
    Worked Q b (startEntry q e t s) := by
  unfold Machine.startEntry
  split
  · exact h.machineCheck hq
  · exact .ite (.endPart (.raiseSeq (.setSeq h hq) (by decide)) hq) (.setSeq h hq)

protected theorem fetchWord {q w : Nat} {t : BitVec 48} (h : Worked Q b s) (hq : Q q) :
    Worked Q b (fetchWord q w t s) := by
  unfold Machine.fetchWord
  split
  · exact h.machineCheck hq
  · exact .takeLatch (.setSeq h hq) hq

protected theorem openSeq {t : BitVec 48} {q : Nat} (h : Worked Q b s) (hq : Q q) : Worked Q b (openSeq t s q) := by
  unfold Machine.openSeq
  extract_lets x y s1 s2
  have h2 : Worked Q b s2 := .soundSeq (.setSeq h hq)
  exact .ite (.startEntry h2 hq) (.fetchWord h2 hq)

end Worked
end Sys2Proof.Machine
end

section
/-! A shot's opening (R20, R23, R77, R91, R105): what it leaves alone, what becomes of each member, what it counts. -/

namespace Sys2Proof.Machine

/-! ## A member's turn among all -/

section
variable {f : State → Nat → State} (hf : ∀ s r, Worked (· = r) s (f s r))
include hf

/-- The turns of others leave a member alone. -/
theorem foldl_others {q : Nat} : ∀ {l : List Nat}, q ∉ l → ∀ s, Worked (· ≠ q) s (l.foldl f s)
  | [], _, s => .refl _ s
  | r :: l, hq, s => by
    obtain ⟨hr, hl⟩ := not_or.1 (mt List.mem_cons.2 hq)
    exact ((hf s r).mono fun k hk => hk ▸ Ne.symm hr).trans (foldl_others hl (f s r))

/-- Before and after its turn a member is left alone. -/
theorem foldl_turn {q : Nat} : ∀ {l : List Nat}, l.Nodup → q ∈ l → ∀ s,
    ∃ u, Worked (· ≠ q) s u ∧ Worked (· ≠ q) (f u q) (l.foldl f s)
  | r :: l, hn, hq, s => by
    obtain ⟨hr, hl⟩ := List.nodup_cons.1 hn
    rcases List.mem_cons.1 hq with rfl | hq
    · exact ⟨s, .refl _ s, foldl_others hf hr (f s q)⟩
    · obtain ⟨u, hu, hu'⟩ := foldl_turn hl hq (f s r)
      exact ⟨u, ((hf s r).mono fun k hk => hk ▸ fun e => hr (e ▸ hq)).trans hu, hu'⟩

end

/-- The parts of the state that stand. -/
theorem still_eq {b s : State} (h : still s = still b) :
    s.clk = b.clk ∧ s.boot = b.boot ∧ s.resetting = b.resetting ∧ s.unchecked = b.unchecked ∧ s.stores = b.stores ∧
      s.pantry = b.pantry ∧ s.accepted = b.accepted ∧ s.calWin = b.calWin ∧ s.held = b.held := by
  simpa only [still, Prod.mk.injEq] using h

theorem members_nodup (s : State) (g : Nat) : (members s g).Nodup := List.nodup_range.filter _

theorem lt_of_mem_members {s : State} {g q : Nat} (h : q ∈ members s g) : q < 120 :=
  List.mem_range.1 (List.mem_filter.1 h).1

namespace Worked

variable {Q : Nat → Prop} {b s : State}

theorem seq_eq {q : Nat} (h : Worked (· ≠ q) b s) : getSeq s q = getSeq b q := h.others q fun hn => hn rfl

section
variable (h : Worked Q b s)
include h

theorem clk : s.clk = b.clk := by
  obtain ⟨hclk, -⟩ := still_eq h.still
  exact hclk

theorem boot : s.boot = b.boot := by
  obtain ⟨-, hboot, -⟩ := still_eq h.still
  exact hboot

theorem stores : s.stores = b.stores := by
  obtain ⟨-, -, -, -, hstores, -⟩ := still_eq h.still
  exact hstores

theorem pantry : s.pantry = b.pantry := by
  obtain ⟨-, -, -, -, -, hpantry, -⟩ := still_eq h.still
  exact hpantry

theorem accepted : s.accepted = b.accepted := by
  obtain ⟨-, -, -, -, -, -, haccepted, -⟩ := still_eq h.still
  exact haccepted

theorem calWin : s.calWin = b.calWin := by
  obtain ⟨-, -, -, -, -, -, -, hcalWin, -⟩ := still_eq h.still
  exact hcalWin

theorem held : s.held = b.held := by
  obtain ⟨-, -, -, -, -, -, -, -, hheld⟩ := still_eq h.still
  exact hheld

end

end Worked

/-- What decides who takes part in a shot and where it begins: start-up, resets, stores, and the control registers of
the sequencers. -/
structure SameControl (b s : State) : Prop where
  boot : s.boot = b.boot
  resetting : s.resetting = b.resetting
  unchecked : s.unchecked = b.unchecked
  stores : s.stores = b.stores
  phase : phase s = phase b
  reg : ∀ q < 0x100, ∀ off < 4096, off ∉ [0x010, 0x018, 0x020, 0x058, 0x084, 0x0B0, 0x0B4, 0x0B8] →
    reg s .seq q off = reg b .seq q off

theorem sameControl_of_still {b s : State} (h : still s = still b) (hp : phase s = phase b)
    (hr : ∀ q < 0x100, ∀ off < 4096, off ∉ [0x010, 0x018, 0x020, 0x058, 0x084, 0x0B0, 0x0B4, 0x0B8] →
      reg s .seq q off = reg b .seq q off) : SameControl b s := by
  obtain ⟨-, hboot, hresetting, hunchecked, hstores, -⟩ := still_eq h
  exact ⟨hboot, hresetting, hunchecked, hstores, hp, hr⟩

theorem Worked.control {Q : Nat → Prop} {b s : State} (h : Worked Q b s) : SameControl b s := by
  refine sameControl_of_still h.still (phase_congr (h.regs _ (not_workReg_sys (by decide)))) fun q hq off ho hn => ?_
  refine h.regs _ (not_workReg_seq hq ho fun hm => hn ?_)
  simp only [List.mem_cons, List.not_mem_nil, or_false] at hm ⊢
  omega

theorem passTo_control (t : BitVec 48) (s : State) : SameControl s (passTo t s) where
  boot := passTo_boot t s
  resetting := passTo_resetting t s
  unchecked := passTo_unchecked t s
  stores := passTo_stores t s
  phase := phase_congr (reg_congr (passTo_regs t s) ..)
  reg _ _ _ _ _ := reg_congr (passTo_regs t s) ..

namespace SameControl

variable {b s t : State}

protected theorem trans (h : SameControl b s) (h' : SameControl s t) : SameControl b t where
  boot := h'.boot.trans h.boot
  resetting := h'.resetting.trans h.resetting
  unchecked := h'.unchecked.trans h.unchecked
  stores := h'.stores.trans h.stores
  phase := h'.phase.trans h.phase
  reg q hq off ho hn := (h'.reg q hq off ho hn).trans (h.reg q hq off ho hn)

theorem members (h : SameControl b s) (g : Nat) : members s g = members b g := by
  refine List.filter_congr fun q hq => ?_
  rw [seqGroup_congr (h.reg q (Nat.lt_trans (List.mem_range.1 hq) (by decide)) _ (by decide) (by decide))]

section
variable {q : Nat} (hq : q < 0x100)
include hq

theorem segMode (h : SameControl b s) : segMode s q = segMode b q := by
  unfold Machine.segMode rdBit
  rw [h.reg q hq _ (by decide) (by decide)]

theorem entryWord (h : SameControl b s) : rd s .seq q 0x044 12 0 = rd b .seq q 0x044 12 0 := by
  unfold rd
  rw [h.reg q hq _ (by decide) (by decide)]

/-- Whether a sequencer may take part depends on its own state too. -/
theorem mayRun (h : SameControl b s) (hst : (getSeq s q).st = (getSeq b q).st) : mayRun s q = mayRun b q := by
  unfold Machine.mayRun isResetting
  dsimp only
  rw [enabled_congr h.boot h.phase (h.reg q hq _ (by decide) (by decide)), h.resetting, h.unchecked, hst]

end

theorem badLane (h : SameControl b s) (q w : Nat) : badLane s q w = badLane b q w := by
  unfold Machine.badLane
  rw [h.stores]

end SameControl

theorem Worked.refusesStart {Q : Nat → Prop} {b s : State} (h : Worked Q b s) {m : Nat} (hm : m < 8)
    (hq : getSeq s (112 + m) = getSeq b (112 + m)) : refusesStart s m = refusesStart b m := by
  obtain ⟨tag, past, e⟩ := h.groups m
  have hlt : 112 + m < 0x100 := by omega
  have hc := h.control.reg (112 + m) hlt
  exact refusesStart_congr h.boot (h.regs _ (not_workReg_sys (by decide))) (hc _ (by decide) (by decide))
    (hc _ (by decide) (by decide)) hq h.control.unchecked (by rw [e])

/-! ## A sequencer's part begins -/

/-- A sequencer takes part from its opening on: no latch, no request, no frame. -/
structure Entered (x : Seq) : Prop where
  inShot : x.inShot = true
  go : x.go = none
  req : x.req = none
  loops : x.loops = []
  calls : x.calls = []

theorem takeLatch_of_none {q : Nat} {s : State} (h : (getSeq s q).go = none) : takeLatch q s = s := by
  unfold takeLatch
  exact if_neg (by rw [h]; simp)

theorem getSeq_machineCheck (q w k : Nat) (s : State) :
    getSeq (machineCheck q w k s) q = { getSeq s q with st := .mchk, succ := none } :=
  (Worked.machineCheck_from (Q := (· ≠ q))).seq_eq.trans (getSeq_setSeq_self ..)

theorem getSeq_endPart (q : Nat) (e : BitVec 48) (s : State) :
    getSeq (endPart q e s) q = { getSeq s q with st := .ended, succ := none, endAt := none } :=
  (Worked.endPart_from (Q := (· ≠ q))).seq_eq.trans (getSeq_setSeq_self ..)

/-- A word whose parity holds becomes the current one. -/
theorem getSeq_fetchWord {q w : Nat} {t : BitVec 48} {s : State} (hb : badLane s q w = none)
    (hgo : (getSeq s q).go = none) : ∃ y, getSeq (fetchWord q w t s) q = y ∧ y.pc = w ∧ y.w = t ∧
      y.inShot = (getSeq s q).inShot ∧ y.go = none ∧ y.req = (getSeq s q).req ∧ y.loops = (getSeq s q).loops ∧
      y.calls = (getSeq s q).calls := by
  unfold fetchWord
  split
  next h => exact absurd (hb.symm.trans h) (by simp)
  next =>
    rw [takeLatch_of_none (by rw [getSeq_setSeq_self]; exact hgo), getSeq_setSeq_self]
    exact ⟨_, rfl, rfl, rfl, rfl, hgo, rfl, rfl, rfl⟩

theorem entered_fetchWord {q w : Nat} {t : BitVec 48} {s : State} (h : Entered (getSeq s q)) :
    Entered (getSeq (fetchWord q w t s) q) := by
  cases hb : badLane s q w with
  | some k =>
    unfold fetchWord
    split
    · rw [getSeq_machineCheck]
      exact ⟨h.inShot, h.go, h.req, h.loops, h.calls⟩
    next h' => exact absurd (hb.symm.trans h') (by simp)
  | none =>
    obtain ⟨y, hy, -, -, hin, hgo, hreq, hl, hc⟩ := getSeq_fetchWord (t := t) hb h.go
    rw [hy]
    exact ⟨hin.trans h.inShot, hgo, hreq.trans h.req, hl.trans h.loops, hc.trans h.calls⟩

theorem entered_startEntry {q e : Nat} {t : BitVec 48} {s : State} (h : Entered (getSeq s q)) :
    Entered (getSeq (startEntry q e t s) q) := by
  unfold startEntry
  split
  · rw [getSeq_machineCheck]
    exact ⟨h.inShot, h.go, h.req, h.loops, h.calls⟩
  · extract_lets x w
    split
    · rw [getSeq_endPart, getSeq_congr (raiseEvt_seqs ..), getSeq_setSeq_self]
      exact ⟨h.inShot, h.go, h.req, h.loops, h.calls⟩
    · rw [getSeq_setSeq_self]
      exact ⟨h.inShot, h.go, h.req, h.loops, h.calls⟩

/-- Tick 0 at a member whose latch and request have been cleared: in microcode it stands at its entry word. -/
theorem openSeq_spec {t : BitVec 48} {q : Nat} {s : State} (hq : q < 0x100) (hgo : (getSeq s q).go = none)
    (hreq : (getSeq s q).req = none) :
    Entered (getSeq (openSeq t s q) q) ∧
      (segMode s q = false → badLane s q (rd s .seq q 0x044 12 0) = none →
        (getSeq (openSeq t s q) q).pc = rd s .seq q 0x044 12 0 ∧ (getSeq (openSeq t s q) q).w = t) := by
  unfold openSeq
  extract_lets x y s1 s2
  have h1 : Worked (· = q) s s1 := .setSeq (.refl _ s) rfl
  have h2 : Worked (· ≠ q) s1 s2 := .soundSeq (.refl _ s1)
  have hy : getSeq s2 q = y := h2.seq_eq.trans (getSeq_setSeq_self s q y)
  have hent : Entered (getSeq s2 q) := by
    rw [hy]
    exact ⟨rfl, hgo, hreq, rfl, rfl⟩
  have hseg : segMode s2 q = segMode s q := (h2.control.segMode hq).trans (h1.control.segMode hq)
  have hword : rd s2 .seq q 0x044 12 0 = rd s .seq q 0x044 12 0 :=
    (h2.control.entryWord hq).trans (h1.control.entryWord hq)
  refine ⟨?_, fun hm hb => ?_⟩
  · split
    · exact entered_startEntry hent
    · exact entered_fetchWord hent
  · rw [if_neg (by rw [hseg, hm]; decide), hword]
    obtain ⟨z, hz, hpc, hw, -⟩ := getSeq_fetchWord (t := t)
      ((h2.control.badLane q _).trans ((h1.control.badLane q _).trans hb)) hent.go
    rw [hz]
    exact ⟨hpc, hw⟩

/-! ## What becomes of each member -/

/-- The members of an opening's shot in their order: latches are cleared, those that do not run stand idle, late ones
with LATE, the others' blocks open and their parts begin. -/
def openMembers (g : Nat) (t : BitVec 48) (late : Bool) (s : State) : State :=
  let all := members s g
  let s2 := all.foldl clearLatches s
  let idle := all.filter (fun q => late && decide (q < 112))
  let run := all.filter (fun q => !(late && decide (q < 112)) && mayRun s2 q)
  let rest := all.filter (fun q => !run.contains q)
  let s3 := rest.foldl (fun u q => setSeq u q { getSeq u q with inShot := false }) s2
  let s4 := idle.foldl lateMember s3
  let s5 := run.foldl (openBlocks t) s4
  run.foldl (openSeq t) s5

theorem setIdle_worked (s : State) (r : Nat) : Worked (· = r) s (setSeq s r { getSeq s r with inShot := false }) :=
  .setSeq (.refl _ s) rfl

theorem openMembers_worked (g : Nat) (t : BitVec 48) (late : Bool) (s : State) :
    Worked (fun _ => True) s (openMembers g t late s) := by
  unfold openMembers
  extract_lets all s2 idle run rest s3 s4 s5
  have h2 : Worked (fun _ => True) s s2 := .foldl (fun h => h.clearLatches trivial) (.refl _ s)
  have h3 : Worked (fun _ => True) s s3 := .foldl (fun h => h.setSeq trivial) h2
  have h5 : Worked (fun _ => True) s s5 := .foldl .openBlocks (.foldl (fun h => h.lateMember trivial) h3)
  exact .foldl (fun h => h.openSeq trivial) h5

/-- A late member: its state is that of an idle one, and LATE is set. -/
theorem lateMember_spec {q : Nat} (hq : q < 0x100) (s : State) :
    getSeq (lateMember s q) q = { getSeq s q with inShot := false } ∧ rdBit (lateMember s q) .seq q 0x010 0 = true := by
  unfold lateMember
  have h : Worked (· ≠ q) (raiseEvt .seq q 0 (setSeq s q { getSeq s q with inShot := false }))
    (silenceSeq q s.clk.tc (raiseEvt .seq q 0 (setSeq s q { getSeq s q with inShot := false }))) :=
    .silenceSeq (.refl _ _)
  refine ⟨h.seq_eq.trans ((getSeq_congr (raiseEvt_seqs ..) q).trans (getSeq_setSeq_self ..)), h.evts q hq 0 ?_⟩
  exact rdBit_raiseEvt_self _ _ _ _ (by decide)

/-- What an opening makes of a member: its latch and request are gone; one that a late opening leaves out stands idle
with LATE, one that may not run stands idle, and one that may run begins its part. -/
theorem openMembers_spec {g q : Nat} {s : State} (t : BitVec 48) (late : Bool) (hq : q ∈ members s g) :
    (getSeq (openMembers g t late s) q).go = none ∧ (getSeq (openMembers g t late s) q).req = none ∧
      ((late && decide (q < 112)) = true → (getSeq (openMembers g t late s) q).inShot = false ∧
        rdBit (openMembers g t late s) .seq q 0x010 0 = true) ∧
      ((late && decide (q < 112)) = false → mayRun s q = false → (getSeq (openMembers g t late s) q).inShot = false) ∧
      ((late && decide (q < 112)) = false → mayRun s q = true → Entered (getSeq (openMembers g t late s) q) ∧
        (segMode s q = false → badLane s q (rd s .seq q 0x044 12 0) = none →
          (getSeq (openMembers g t late s) q).pc = rd s .seq q 0x044 12 0 ∧
          (getSeq (openMembers g t late s) q).w = t)) := by
  have hlt : q < 0x100 := Nat.lt_trans (lt_of_mem_members hq) (by decide)
  unfold openMembers
  extract_lets all s2 idle run rest s3 s4 s5
  have hn : all.Nodup := members_nodup s g
  obtain ⟨a, ha, ha'⟩ := foldl_turn (f := clearLatches) (fun s r => .clearLatches (.refl _ s) rfl) hn hq s
  have h2 : Worked (fun _ => True) s s2 := .foldl (fun h => h.clearLatches trivial) (.refl _ s)
  have hq2 : getSeq s2 q = { getSeq s q with go := none, req := none, swAt := none, loops := [], calls := [] } := by
    rw [ha'.seq_eq, ← ha.seq_eq]
    exact getSeq_setSeq_self ..
  have hmay : mayRun s2 q = mayRun s q := h2.control.mayRun hlt (by rw [hq2])
  have hrun : q ∈ run ↔ (late && decide (q < 112)) = false ∧ mayRun s q = true := by
    rw [List.mem_filter, hmay, Bool.and_eq_true, Bool.not_eq_true']
    exact and_iff_right hq
  have hrest : q ∈ rest ↔ q ∉ run := by
    rw [List.mem_filter, Bool.not_eq_true', ← Bool.not_eq_true, List.contains_iff_mem]
    exact and_iff_right hq
  have hidle : q ∈ idle ↔ (late && decide (q < 112)) = true := by
    rw [List.mem_filter]
    exact and_iff_right hq
  have h5 : Worked (· ≠ q) s4 s5 := .foldl .openBlocks (.refl _ s4)
  have hrest3 (h : q ∈ rest) : getSeq s3 q = { getSeq s2 q with inShot := false } := by
    obtain ⟨c, hc, hc'⟩ := foldl_turn setIdle_worked (hn.filter _) h s2
    rw [hc'.seq_eq, getSeq_setSeq_self, hc.seq_eq]
  have hout (h : q ∉ run) : Worked (· ≠ q) s4 (run.foldl (openSeq t) s5) :=
    h5.trans (foldl_others (fun s r => .openSeq (.refl _ s) rfl) h s5)
  cases hl : late && decide (q < 112) with
  | true =>
    have hnr : q ∉ run := fun h => by simp [hrun.1 h] at hl
    obtain ⟨c, hc, hc'⟩ := foldl_turn (f := lateMember) (fun s r => .lateMember (.refl _ s) rfl) (hn.filter _)
      (hidle.2 hl) s3
    obtain ⟨hs, hevt⟩ := lateMember_spec hlt c
    have hfin : getSeq (run.foldl (openSeq t) s5) q = { getSeq s2 q with inShot := false } := by
      rw [(hout hnr).seq_eq, hc'.seq_eq, hs, hc.seq_eq, hrest3 (hrest.2 hnr)]
    rw [hfin, hq2]
    exact ⟨rfl, rfl, fun _ => ⟨rfl, (hout hnr).evts q hlt 0 (hc'.evts q hlt 0 hevt)⟩,
      fun h => absurd h (by decide), fun h => absurd h (by decide)⟩
  | false =>
    have h4 : Worked (· ≠ q) s3 s4 :=
      foldl_others (fun s r => .lateMember (.refl _ s) rfl) (fun h => by simp [hidle.1 h] at hl) s3
    cases hm : mayRun s q with
    | false =>
      have hnr : q ∉ run := fun h => by simp [hrun.1 h] at hm
      have hfin : getSeq (run.foldl (openSeq t) s5) q = { getSeq s2 q with inShot := false } := by
        rw [(hout hnr).seq_eq, h4.seq_eq, hrest3 (hrest.2 hnr)]
      rw [hfin, hq2]
      exact ⟨rfl, rfl, fun h => absurd h (by decide), fun _ _ => rfl, fun _ h => absurd h (by decide)⟩
    | true =>
      have hr : q ∈ run := hrun.2 ⟨hl, hm⟩
      have h3 : Worked (· ≠ q) s2 s3 := foldl_others setIdle_worked (fun h => hrest.1 h hr) s2
      obtain ⟨c, hc, hc'⟩ := foldl_turn (f := openSeq t) (fun s r => .openSeq (.refl _ s) rfl) (hn.filter _) hr s5
      have h2c : Worked (· ≠ q) s2 c := h3.trans (h4.trans (h5.trans hc))
      have hctl : SameControl s c := h2.control.trans h2c.control
      have hqc : getSeq c q = { getSeq s q with go := none, req := none, swAt := none, loops := [], calls := [] } :=
        h2c.seq_eq.trans hq2
      obtain ⟨hent, hword⟩ := openSeq_spec (t := t) hlt (show (getSeq c q).go = none by rw [hqc])
        (show (getSeq c q).req = none by rw [hqc])
      rw [hc'.seq_eq]
      refine ⟨hent.go, hent.req, fun h => absurd h (by decide), fun _ h => absurd h (by decide),
        fun _ _ => ⟨hent, ?_⟩⟩
      rw [hctl.segMode hlt, hctl.badLane, hctl.entryWord hlt] at hword
      exact hword

/-! ## The shot itself -/

/-- The group as its shot opens: the tag is that of a stretched boundary and of a late opening. -/
def openedGroup (x : Group) (t : BitVec 48) (late : Bool) : Group := { x with
  opening := none
  running := true
  t0 := t
  tag := (if x.stretched then tagThrottled else 0) ||| (if late then tagLate ||| tagCorrupt else 0)
  opened := true
  stretched := false
  calReq := false
  selfAt := none
  wrote := none
  lateOpen := late }

/-- The shot counts in SHOT_CNT. -/
def countShot (g : Nat) (s : State) : State :=
  wrPair s .seq (112 + g) 0x0B0 ((rdPair s .seq (112 + g) 0x0B0 + 1) % 2 ^ 64)

section
variable {s : State} {g : Nat} {t : BitVec 48}

theorem shotOpen_of_none (h : (getGroup s g).opening = none ∨ (getGroup s g).running = true ∨
      (getGroup s g).boundary = true) :
    shotOpen g s = s := by
  unfold shotOpen
  extract_lets x
  split
  · rfl
  next ho =>
    refine if_pos ?_
    rw [Bool.or_eq_true]
    exact h.resolve_left (by rw [ho]; exact Option.some_ne_none _)

section
variable (ho : (getGroup s g).opening = some t) (hr : (getGroup s g).running = false)
  (hb : (getGroup s g).boundary = false)
include ho hr hb

theorem shotOpen_of_refused (h : refusesStart (memberCatch g (passTo t s)) g = true) :
    shotOpen g s =
      startOverrun g (setGroup (memberCatch g (passTo t s)) g { getGroup s g with opening := none }) := by
  unfold shotOpen
  extract_lets x
  split
  next hn => exact absurd (ho.symm.trans hn) (Option.some_ne_none _)
  next t' ht =>
    obtain rfl : t' = t := Option.some.inj (ht.symm.trans ho)
    exact (if_neg (by simp [x, hr, hb])).trans (if_pos h)

theorem shotOpen_of_accepted (h : refusesStart (memberCatch g (passTo t s)) g = false) :
    ∃ seen, shotOpen g s = mortarOpen g (ladleOpen g (openMembers g t (decide (ticksTo s.clk.tc t < 0))
      (countShot g { setGroup (memberCatch g (passTo t s)) g
        (openedGroup (getGroup s g) t (decide (ticksTo s.clk.tc t < 0))) with seen := seen }))) := by
  unfold shotOpen
  extract_lets x
  split
  next hn => exact absurd (ho.symm.trans hn) (Option.some_ne_none _)
  next t' ht =>
    obtain rfl : t' = t := Option.some.inj (ht.symm.trans ho)
    exact ⟨_, (if_neg (by simp [x, hr, hb])).trans (if_neg (by simp [h]))⟩

end
end

theorem rdPair_wrPair (s : State) (pt : PT) (n : Nat) {off v : Nat} (hv : v < 2 ^ 64) :
    rdPair (wrPair s pt n off v) pt n off = v := by
  unfold rdPair wrPair
  rw [reg_wrAll_self, reg_wrAll_ne _ _ _ _ _ (addrOf_ne_off (by omega)), reg_wrAll_self, BitVec.toNat_ofNat,
    BitVec.toNat_ofNat]
  omega

/-- SHOT_CNT is none of the registers that the work changes. -/
theorem Worked.shotCount {Q : Nat → Prop} {b s : State} (h : Worked Q b s) {g : Nat} (hg : g < 8) :
    rdPair s .seq (112 + g) 0x0B0 = rdPair b .seq (112 + g) 0x0B0 := by
  have hlo : reg s .seq (112 + g) 0x0B0 = reg b .seq (112 + g) 0x0B0 :=
    h.regs _ (not_workReg_seq (by omega) (by decide) (by decide))
  have hhi : reg s .seq (112 + g) (0x0B0 + 4) = reg b .seq (112 + g) (0x0B0 + 4) :=
    h.regs _ (not_workReg_seq (by omega) (by decide) (by decide))
  unfold rdPair
  rw [hlo, hhi]

/-- Between `s` and `t` a shot opened: the clock and the stores stand, the group runs with the tag of its opening, and
the shot is counted. -/
structure Counted (g : Nat) (x : Group) (s t : State) : Prop where
  still : still t = still s
  regs : ∀ a, ¬ WorkReg a → a ≠ addrOf .seq (112 + g) 0x0B0 → a ≠ addrOf .seq (112 + g) 0x0B4 → getReg t a = getReg s a
  seqs : t.seqs = s.seqs
  group : getGroup t g = x
  count : rdPair t .seq (112 + g) 0x0B0 = (rdPair s .seq (112 + g) 0x0B0 + 1) % 2 ^ 64

theorem countShot_counted {g : Nat} (hg : g < 8) {b s : State} (h : Worked (fun _ => False) b s) (x : Group)
    (seen : List Nat) :
    Counted g x b (countShot g { setGroup s g x with seen := seen }) where
  still := h.still
  regs a ha h0 h4 := by
    unfold countShot wrPair
    rw [getReg_wrAll, if_neg h4, getReg_wrAll, if_neg h0]
    exact h.regs a ha
  seqs := h.seqs fun _ h => h
  group := getGroup_setGroup_self s g x
  count := by
    unfold countShot
    rw [rdPair_wrPair _ _ _ (Nat.mod_lt _ (by decide)), ← h.shotCount hg]
    rfl

theorem Counted.control {g : Nat} {x : Group} {s t : State} (h : Counted g x s t) : SameControl s t := by
  have hpage : ptBase .sys + 0 ≠ ptBase .seq + (112 + g) := by
    change 0 + 0 ≠ 0x10 + (112 + g)
    omega
  refine sameControl_of_still h.still (phase_congr (h.regs _ (not_workReg_sys (by decide))
    (addrOf_ne_page (by decide) (by decide) hpage) (addrOf_ne_page (by decide) (by decide) hpage)))
    fun q hq off ho hn => ?_
  simp only [List.mem_cons, List.not_mem_nil, or_false, not_or] at hn
  obtain ⟨h10, h18, h20, h58, h84, hB0, hB4, hB8⟩ := hn
  exact h.regs _ (not_workReg_seq hq ho (by simp [h10, h18, h20, h58, h84, hB8]))
    (fun e => hB0 (addrOf_inj ho (by decide) e).2) (fun e => hB4 (addrOf_inj ho (by decide) e).2)

/-- A tag keeps its bits. -/
theorem or_or_and_self (a c : BitVec 8) : (a ||| c) &&& a = a := by
  ext i hi
  simp only [BitVec.getElem_and, BitVec.getElem_or]
  cases a[i] <;> simp

theorem openedGroup_tag_stretched {x : Group} (h : x.stretched = true) (t : BitVec 48) (late : Bool) (c : BitVec 8) :
    ((openedGroup x t late).tag ||| c) &&& tagThrottled = tagThrottled := by
  unfold openedGroup
  dsimp only
  rw [if_pos h, BitVec.or_assoc]
  exact or_or_and_self _ _

theorem openedGroup_tag_late (x : Group) (t : BitVec 48) (c : BitVec 8) :
    ((openedGroup x t true).tag ||| c) &&& (tagLate ||| tagCorrupt) = tagLate ||| tagCorrupt := by
  unfold openedGroup
  dsimp only
  rw [if_pos rfl, BitVec.or_comm _ (tagLate ||| tagCorrupt), BitVec.or_assoc]
  exact or_or_and_self _ _

end Sys2Proof.Machine
end

section
/-! A shot's opening, refused and accepted; a shot's closing. -/

namespace Sys2Proof.Machine

section
variable {s : State} {g : Nat} {t : BitVec 48} (hg : g < 8) (ho : (getGroup s g).opening = some t)
  (hr : (getGroup s g).running = false) (hb : (getGroup s g).boundary = false)
include hg

theorem refusesStart_memberCatch (s : State) : refusesStart (memberCatch g s) g = refusesStart s g := by
  have h : Worked (fun _ => False) s (memberCatch g s) := .memberCatch (.refl _ s)
  exact h.refusesStart hg (getSeq_congr (h.seqs fun _ h => h) _)

include ho hr hb

/-- A start whose master refuses it opens nothing and counts as an overrun. -/
theorem shotOpen_refused (h : refusesStart (passTo t s) g = true) :
    getGroup (shotOpen g s) g = { getGroup s g with opening := none } ∧
      rdBit (shotOpen g s) .seq (112 + g) 0x010 1 = true ∧ (shotOpen g s).seqs = s.seqs ∧
      (shotOpen g s).stores = s.stores ∧ (shotOpen g s).clk = (passTo t s).clk := by
  rw [shotOpen_of_refused ho hr hb ((refusesStart_memberCatch hg _).trans h)]
  have hw : Worked (fun _ => False) (passTo t s) (memberCatch g (passTo t s)) := .memberCatch (.refl _ _)
  refine ⟨(getGroup_raiseEvt ..).trans (getGroup_setGroup_self ..), rdBit_raiseEvt_self _ _ _ _ (by decide),
    (raiseEvt_seqs ..).trans ((hw.seqs fun _ h => h).trans (passTo_seqs t s)),
    (raiseEvt_stores ..).trans (hw.stores.trans (passTo_stores t s)), (raiseEvt_clk ..).trans hw.clk⟩

/-- An accepted start's shot: the group runs, its members begin their parts or stand idle. -/
theorem shotOpen_accepted (h : refusesStart (passTo t s) g = false) :
    let late := decide (ticksTo s.clk.tc t < 0)
    ∃ c, Counted g (openedGroup (getGroup s g) t late) (passTo t s) c ∧
      Worked (fun _ => True) c (shotOpen g s) ∧ Worked (fun _ => False) (openMembers g t late c) (shotOpen g s) := by
  intro late
  obtain ⟨seen, he⟩ := shotOpen_of_accepted ho hr hb ((refusesStart_memberCatch hg _).trans h)
  have hlast {c : State} : Worked (fun _ => False) (openMembers g t late c)
    (mortarOpen g (ladleOpen g (openMembers g t late c))) := .mortarOpen (.ladleOpen (.refl _ _))
  rw [he]
  exact ⟨_, countShot_counted hg (.memberCatch (.refl _ _)) _ seen,
    (openMembers_worked ..).trans (hlast.mono fun _ => False.elim), hlast⟩

end

/-- The opening of an accepted start's shot: the group, the count, what stands, and each member. -/
theorem shotOpen_opens {s : State} {g : Nat} {t : BitVec 48} (hg : g < 8) (ho : (getGroup s g).opening = some t)
    (hr : (getGroup s g).running = false) (hb : (getGroup s g).boundary = false)
    (h : refusesStart (passTo t s) g = false) :
    (getGroup (shotOpen g s) g).running = true ∧ (getGroup (shotOpen g s) g).opening = none ∧
      (getGroup (shotOpen g s) g).t0 = t ∧
      ((getGroup s g).stretched = true → (getGroup (shotOpen g s) g).tag &&& tagThrottled = tagThrottled) ∧
      (ticksTo s.clk.tc t < 0 →
        (getGroup (shotOpen g s) g).tag &&& (tagLate ||| tagCorrupt) = tagLate ||| tagCorrupt) ∧
      rdPair (shotOpen g s) .seq (112 + g) 0x0B0 = (rdPair s .seq (112 + g) 0x0B0 + 1) % 2 ^ 64 ∧
      (shotOpen g s).clk = (passTo t s).clk ∧ (shotOpen g s).stores = s.stores ∧ (shotOpen g s).pantry = s.pantry ∧
      ∀ q ∈ members s g, (getSeq (shotOpen g s) q).go = none ∧ (getSeq (shotOpen g s) q).req = none ∧
        (ticksTo s.clk.tc t < 0 → q < 112 → (getSeq (shotOpen g s) q).inShot = false ∧
          rdBit (shotOpen g s) .seq q 0x010 0 = true) ∧
        ((¬ ticksTo s.clk.tc t < 0 ∨ 112 ≤ q) → mayRun s q = false → (getSeq (shotOpen g s) q).inShot = false) ∧
        ((¬ ticksTo s.clk.tc t < 0 ∨ 112 ≤ q) → mayRun s q = true →
          (getSeq (shotOpen g s) q).inShot = true ∧ (getSeq (shotOpen g s) q).loops = [] ∧
          (getSeq (shotOpen g s) q).calls = [] ∧
          (segMode s q = false → badLane s q (rd s .seq q 0x044 12 0) = none →
            (getSeq (shotOpen g s) q).pc = rd s .seq q 0x044 12 0 ∧ (getSeq (shotOpen g s) q).w = t)) := by
  obtain ⟨c, hc, hw, hlast⟩ := shotOpen_accepted hg ho hr hb h
  obtain ⟨hclk, -, -, -, -, hpantry, -⟩ := still_eq hc.still
  obtain ⟨tag, past, hx⟩ := hw.groups g
  rw [hx, hc.group]
  refine ⟨rfl, rfl, rfl, fun hst => openedGroup_tag_stretched hst t _ tag, fun hl => ?_, ?_, ?_, ?_, ?_, fun q hq => ?_⟩
  · rw [decide_eq_true hl]
    exact openedGroup_tag_late _ t tag
  · rw [hw.shotCount hg, hc.count]
    unfold rdPair
    rw [reg_congr (passTo_regs t s), reg_congr (passTo_regs t s)]
  · exact hw.clk.trans hclk
  · exact hw.stores.trans (hc.control.stores.trans (passTo_stores t s))
  · exact hw.pantry.trans (hpantry.trans (passTo_pantry t s))
  · have hctl : SameControl s c := (passTo_control t s).trans hc.control
    have hlt : q < 0x100 := Nat.lt_trans (lt_of_mem_members hq) (by decide)
    have hqc : getSeq c q = getSeq s q := getSeq_congr (hc.seqs.trans (passTo_seqs t s)) q
    obtain ⟨hgo, hreq, hlate, hbar, hrun⟩ := openMembers_spec t (decide (ticksTo s.clk.tc t < 0))
      (show q ∈ members c g by rw [hctl.members]; exact hq)
    rw [hctl.mayRun hlt (by rw [hqc])] at hbar hrun
    rw [hctl.segMode hlt, hctl.badLane, hctl.entryWord hlt] at hrun
    have hlateb : (decide (ticksTo s.clk.tc t < 0) && decide (q < 112)) = true ↔ ticksTo s.clk.tc t < 0 ∧ q < 112 := by
      simp
    have hnot : (¬ ticksTo s.clk.tc t < 0 ∨ 112 ≤ q) →
        (decide (ticksTo s.clk.tc t < 0) && decide (q < 112)) = false := by
      intro hn
      rw [← Bool.not_eq_true, hlateb]
      omega
    rw [getSeq_congr (hlast.seqs fun _ h => h)]
    refine ⟨hgo, hreq, fun hl hq' => ?_, fun hn => hbar (hnot hn), fun hn hm => ?_⟩
    · obtain ⟨hin, hevt⟩ := hlate (hlateb.2 ⟨hl, hq'⟩)
      exact ⟨hin, hlast.evts q hlt 0 hevt⟩
    · obtain ⟨hent, hword⟩ := hrun (hnot hn) hm
      exact ⟨hent.inShot, hent.loops, hent.calls, hword⟩

/-! ## Closing -/

theorem shotClose_of_open {g : Nat} {s : State} (h : shotRuns (finishParts g s) g = false ∨
      (members (finishParts g s) g).all (seqDone (finishParts g s)) = false ∨ resultsAhead (finishParts g s) g = true) :
    shotClose g s = finishParts g s := by
  unfold shotClose
  extract_lets v
  refine if_pos ?_
  simpa only [Bool.or_eq_true, Bool.not_eq_true', or_assoc] using h

/-- The members of a shot leave it. -/
def leaveShot (s : State) (l : List Nat) : State :=
  l.foldl (fun t q => setSeq t q { getSeq t q with inShot := false }) s

theorem leaveShot_eq : ∀ (l : List Nat) (s : State), leaveShot s l = { s with seqs := (leaveShot s l).seqs }
  | [], _ => rfl
  | q :: l, s => leaveShot_eq l (setSeq s q { getSeq s q with inShot := false })

theorem inShot_leaveShot {q : Nat} : ∀ {l : List Nat} (s : State), (q ∈ l ∨ (getSeq s q).inShot = false) →
    (getSeq (leaveShot s l) q).inShot = false
  | [], _, h => h.resolve_left (List.not_mem_nil)
  | r :: l, s, h => by
    refine inShot_leaveShot (l := l) _ ?_
    by_cases hq : q = r
    · exact .inr (by rw [hq, getSeq_setSeq_self])
    · rw [getSeq_setSeq_ne _ _ hq]
      exact h.imp_left fun hm => (List.mem_cons.1 hm).resolve_left hq

/-- The group of a shot that closes at the present tick. -/
def closedGroup (x : Group) (now : BitVec 48) : Group := { x with
  running := false
  boundary := true
  closedAt := now
  len := (ticksTo x.t0 now).toNat
  past := (x.t0, now, x.tag) :: x.past }

/-- A shot's tag is shown, and added to those shown before. -/
def showTag (g tag : Nat) (s : State) : State :=
  noteRaised (addrOf .seq (112 + g) 0x0B8) (BitVec.ofNat 32 (256 * tag))
    (wr (wr s .seq (112 + g) 0x0B8 7 0 tag) .seq (112 + g) 0x0B8 15 8 (rd s .seq (112 + g) 0x0B8 15 8 ||| tag))

theorem shotClose_of_done {g : Nat} {s : State} (hrun : shotRuns (finishParts g s) g = true)
    (hdone : (members (finishParts g s) g).all (seqDone (finishParts g s)) = true)
    (hres : resultsAhead (finishParts g s) g = false) :
    shotClose g s =
      let u := mortarClose g (lastWritten g (finishParts g s))
      showTag g (getGroup u g).tag.toNat
        (leaveShot (setGroup u g (closedGroup (getGroup u g) u.clk.tc)) (members u g)) := by
  unfold shotClose
  exact if_neg (by simp [hrun, hdone, hres])

/-- What showing a tag leaves of the state beside the register, and what the register shows. -/
theorem showTag_spec {g tag : Nat} (ht : tag < 256) (s : State) :
    (showTag g tag s).groups = s.groups ∧ (showTag g tag s).seqs = s.seqs ∧
      rd (showTag g tag s) .seq (112 + g) 0x0B8 7 0 = tag ∧
      rd (showTag g tag s) .seq (112 + g) 0x0B8 15 8 = rd s .seq (112 + g) 0x0B8 15 8 ||| tag ∧
      regsBut [addrOf .seq (112 + g) 0x0B8] s (showTag g tag s) := by
  have hacc : rd s .seq (112 + g) 0x0B8 15 8 < 256 := Nat.mod_lt _ (by decide)
  unfold showTag
  refine ⟨?_, ?_, ?_, ?_, fun a ha => ?_⟩
  · rw [noteRaised_eq]
    rfl
  · rw [noteRaised_eq]
    rfl
  · rw [rd_congr (noteRaised_regs ..), rd_wr_field _ _ _ _ _ _ _ _ _ (by decide) (by decide) (by decide),
      rd_wr_self _ _ _ _ _ _ _ (by decide) (by decide), Nat.mod_eq_of_lt (by simpa using ht)]
  · rw [rd_congr (noteRaised_regs ..), rd_wr_self _ _ _ _ _ _ _ (by decide) (by decide)]
    exact Nat.mod_eq_of_lt (Nat.or_lt_two_pow (n := 8) hacc ht)
  · have hne : a ≠ addrOf .seq (112 + g) 0x0B8 := fun e => ha (List.mem_singleton.2 e)
    rw [getReg_congr (noteRaised_regs ..), getReg_wr_ne _ _ _ _ _ _ _ hne, getReg_wr_ne _ _ _ _ _ _ _ hne]

/-- The closing of a shot whose members are done and whose results stand. -/
theorem shotClose_closes {g : Nat} {s : State} (hrun : shotRuns (finishParts g s) g = true)
    (hdone : (members (finishParts g s) g).all (seqDone (finishParts g s)) = true)
    (hres : resultsAhead (finishParts g s) g = false) :
    let u := mortarClose g (lastWritten g (finishParts g s))
    getGroup (shotClose g s) g = closedGroup (getGroup u g) u.clk.tc ∧
      rd (shotClose g s) .seq (112 + g) 0x0B8 7 0 = (getGroup u g).tag.toNat ∧
      rd (shotClose g s) .seq (112 + g) 0x0B8 15 8 = rd u .seq (112 + g) 0x0B8 15 8 ||| (getGroup u g).tag.toNat ∧
      (∀ q ∈ members u g, (getSeq (shotClose g s) q).inShot = false) ∧
      regsBut [addrOf .seq (112 + g) 0x0B8] u (shotClose g s) := by
  intro u
  rw [shotClose_of_done hrun hdone hres]
  have hw := leaveShot_eq (members u g) (setGroup u g (closedGroup (getGroup u g) u.clk.tc))
  have hwr := (congrArg State.regs hw :)
  obtain ⟨hgroups, hseqs, hlo, hhi, hregs⟩ := showTag_spec (g := g) (getGroup u g).tag.isLt
    (leaveShot (setGroup u g (closedGroup (getGroup u g) u.clk.tc)) (members u g))
  refine ⟨?_, hlo, hhi.trans (by rw [rd_congr hwr]; rfl), fun q hq => ?_,
    fun a ha => (hregs a ha).trans (getReg_congr hwr a)⟩
  · exact (getGroup_congr (hgroups.trans (congrArg State.groups hw :)) g).trans (getGroup_setGroup_self ..)
  · exact (congrArg Seq.inShot (getSeq_congr hseqs q)).trans (inShot_leaveShot _ (.inl hq))

theorem shotBoundary_of_not {g : Nat} {s : State}
    (h : (getGroup s g).boundary = false ∨ ∃ w, s.calWin = some w ∧ w.1 = g) : shotBoundary g s = s := by
  unfold shotBoundary
  refine if_pos ?_
  rw [Bool.or_eq_true, Bool.not_eq_true']
  refine h.imp_right ?_
  rintro ⟨w, hw, rfl⟩
  rw [hw]
  exact decide_eq_true rfl

end Sys2Proof.Machine
end

section
/-! What the boundary's actions leave alone (R26): no calibration window opens, no image is accepted, and, unless held
writes are freed, neither the time nor its running nor the length of the shot changes. -/

namespace Sys2Proof.Machine

/-- What the length of a boundary depends on. -/
def pace (s : State) :=
  (s.clk, s.boot, phase s, s.held, fun g => ((getGroup s g).len, (getGroup s g).closedAt, (getGroup s g).throttle))

/-- Between `b` and `s` a boundary acted; `P` says that nothing of its length's grounds changes. -/
structure Bounded (P : Prop) (b s : State) : Prop where
  calWin : s.calWin = b.calWin
  accepted : ∀ e ∈ s.accepted, e ∈ b.accepted
  pace : P → pace s = pace b

/-- The register that shows the start-up phase. -/
def phaseReg : Nat := addrOf .sys 0 0x04C

theorem ne_phaseReg {pt : PT} (h : pt ≠ .sys) (n off : Nat) : addrOf pt n off ≠ phaseReg := by
  have hb : 0 < ptBase pt := by
    cases pt with
    | sys => exact absurd rfl h
    | _ => decide
  unfold phaseReg addrOf
  change _ ≠ (0 + 0) * 4096 + 0x04C
  omega

theorem ne_phaseReg_off (pt : PT) (n : Nat) {off : Nat} (ho : off < 4096) (h : off ≠ 0x04C) :
    addrOf pt n off ≠ phaseReg :=
  fun e => h (addrOf_inj ho (by decide) e).2

/-- What agrees where the pace does. -/
theorem pace_eq {s t : State} (h : pace t = pace s) : t.clk = s.clk ∧ t.boot = s.boot ∧ phase t = phase s ∧
    t.held = s.held ∧ ∀ g, (getGroup t g).len = (getGroup s g).len ∧
      (getGroup t g).closedAt = (getGroup s g).closedAt ∧ (getGroup t g).throttle = (getGroup s g).throttle := by
  simp only [pace, Prod.mk.injEq] at h
  obtain ⟨hclk, hboot, hphase, hheld, hgroups⟩ := h
  refine ⟨hclk, hboot, hphase, hheld, fun g => ?_⟩
  simpa only [Prod.mk.injEq] using congrFun hgroups g

/-- Groups that agree but for stages, openings and tags. -/
theorem pace_groups {s t : State} (h : ∀ g, (getGroup t g).len = (getGroup s g).len ∧
      (getGroup t g).closedAt = (getGroup s g).closedAt ∧ (getGroup t g).throttle = (getGroup s g).throttle)
    (e : (t.clk, t.boot, t.held) = (s.clk, s.boot, s.held)) (hp : phase t = phase s) : pace t = pace s := by
  simp only [Prod.mk.injEq] at e
  obtain ⟨hc, hb, hh⟩ := e
  unfold pace
  rw [hc, hb, hh, hp]
  simp only [h]

namespace Bounded

variable {P : Prop} {b s t : State}

protected theorem refl (P : Prop) (s : State) : Bounded P s s := ⟨rfl, fun _ h => h, fun _ => rfl⟩

protected theorem trans (h : Bounded P b s) (h' : Bounded P s t) : Bounded P b t :=
  ⟨h'.calWin.trans h.calWin, fun e he => h.accepted e (h'.accepted e he), fun hp => (h'.pace hp).trans (h.pace hp)⟩

protected theorem ite {c : Prop} [Decidable c] (h : Bounded P b s) (h' : Bounded P b t) :
    Bounded P b (if c then s else t) := by
  split
  · exact h
  · exact h'

protected theorem foldl {β : Type} {f : State → β → State} (hf : ∀ {t x}, Bounded P b t → Bounded P b (f t x))
    {l : List β} (h : Bounded P b s) : Bounded P b (l.foldl f s) := by
  induction l generalizing s with
  | nil => exact h
  | cons x l ih => exact ih (hf h)

/-- Nothing that the relation speaks of. -/
protected theorem frame (h : Bounded P b s)
    (e : (t.calWin, t.accepted, t.regs, t.groups, t.clk, t.boot, t.held) =
      (s.calWin, s.accepted, s.regs, s.groups, s.clk, s.boot, s.held)) : Bounded P b t := by
  simp only [Prod.mk.injEq] at e
  obtain ⟨hw, ha, hr, hg, hc, hb, hh⟩ := e
  refine h.trans ⟨hw, fun e he => ha ▸ he, fun _ => pace_groups (fun g => ?_) (by rw [hc, hb, hh])
    (phase_congr (reg_congr hr ..))⟩
  rw [getGroup_congr hg]
  exact ⟨rfl, rfl, rfl⟩

/-- What converters, Ladle and sequencers do. -/
protected theorem work {Q : Nat → Prop} (h : Bounded P b s) (hw : Worked Q s t) : Bounded P b t := by
  refine h.trans ⟨hw.calWin, fun e he => hw.accepted ▸ he, fun _ => pace_groups (fun g => ?_)
    (by rw [hw.clk, hw.boot, hw.held]) hw.control.phase⟩
  obtain ⟨tag, past, e⟩ := hw.groups g
  rw [e]
  exact ⟨rfl, rfl, rfl⟩

protected theorem setGroup (h : Bounded P b s) {g : Nat} {x : Group}
    (hx : (x.len, x.closedAt, x.throttle) =
      ((getGroup s g).len, (getGroup s g).closedAt, (getGroup s g).throttle)) :
    Bounded P b (setGroup s g x) := by
  simp only [Prod.mk.injEq] at hx
  refine h.trans ⟨rfl, fun _ he => he, fun _ => pace_groups (fun k => ?_) rfl rfl⟩
  by_cases hk : k = g
  · rw [hk, getGroup_setGroup_self]
    exact hx
  · rw [getGroup_setGroup_ne s x hk]
    exact ⟨rfl, rfl, rfl⟩

/-! ## Registers -/

protected theorem setReg (h : Bounded P b s) {a : Nat} (ha : a ≠ phaseReg) (v : Word) : Bounded P b (setReg s a v) :=
  h.trans ⟨rfl, fun _ he => he, fun _ => pace_groups (fun _ => ⟨rfl, rfl, rfl⟩) rfl
    (phase_congr (getReg_setReg_ne s v fun e : phaseReg = a => ha e.symm))⟩

protected theorem wr (h : Bounded P b s) {pt : PT} {n off hi lo v : Nat} (hp : pt ≠ .sys) :
    Bounded P b (wr s pt n off hi lo v) := h.setReg (ne_phaseReg hp n off) _

protected theorem wrAll (h : Bounded P b s) {pt : PT} {n off v : Nat} (hp : pt ≠ .sys) :
    Bounded P b (wrAll s pt n off v) := h.setReg (ne_phaseReg hp n off) _

protected theorem bump (h : Bounded P b s) {pt : PT} {n off hi lo k : Nat} (hp : pt ≠ .sys) :
    Bounded P b (bump s pt n off hi lo k) := h.wr hp

protected theorem wrPair (h : Bounded P b s) {pt : PT} {n off v : Nat} (hp : pt ≠ .sys) :
    Bounded P b (wrPair s pt n off v) := (h.wrAll hp).wrAll hp

/-- A register of any page at an offset other than that of the phase. -/
protected theorem wrOff (h : Bounded P b s) {pt : PT} {n off hi lo v : Nat} (ho : off < 4096) (hne : off ≠ 0x04C) :
    Bounded P b (Machine.wr s pt n off hi lo v) := h.setReg (ne_phaseReg_off pt n ho hne) _

protected theorem raiseEvt (h : Bounded P b s) {pt : PT} {n bit : Nat} : Bounded P b (raiseEvt pt n bit s) := by
  rw [raiseEvt_eq]
  exact .frame (.wrOff h (off := 0x010) (by decide) (by decide)) (by rfl)

protected theorem raiseFault (h : Bounded P b s) {pt : PT} {n bit : Nat} : Bounded P b (raiseFault pt n bit s) := by
  rw [raiseFault_eq]
  exact .frame (.wrOff h (off := 0x018) (by decide) (by decide)) (by rfl)

protected theorem raiseBit (h : Bounded P b s) {pt : PT} {n off i : Nat} (hp : pt ≠ .sys) :
    Bounded P b (raiseBit pt n off i s) := by
  rw [raiseBit_eq]
  exact .frame (h.wr hp) (by rfl)

/-- Work done in an earlier tick: the clock stands again. -/
protected theorem atTick (h : Bounded P b s) {x : BitVec 48} {f : State → State} (hf : ∀ t, Bounded P t (f t)) :
    Bounded P b (atTick x f s) := by
  unfold Machine.atTick
  refine .ite (h.trans (hf s)) (h.trans ?_)
  extract_lets c t
  have ht : Bounded P { s with clk := { s.clk with tc := x } } t := hf _
  refine ⟨ht.calWin, ht.accepted, fun hp => ?_⟩
  obtain ⟨-, hboot, hphase, hheld, hgroups⟩ := pace_eq (ht.pace hp)
  exact pace_groups hgroups (by rw [hboot, hheld]) hphase

/-! ## Converters, the Ladle, mutes -/

protected theorem outCatch (h : Bounded P b s) {out : Nat} : Bounded P b (outCatch out s) :=
  h.work (Q := fun _ => False) (.outCatch (.refl _ s))

protected theorem fluxCatch (h : Bounded P b s) {o : Nat} : Bounded P b (fluxCatch o s) :=
  h.work (Q := fun _ => False) (.fluxCatch (.refl _ s))

protected theorem fluxRamp (h : Bounded P b s) {toPark : Bool} {o : Nat} : Bounded P b (fluxRamp toPark o s) :=
  h.work (Q := fun _ => False) (.fluxRampAt (.refl _ s))

protected theorem ladleCatch (h : Bounded P b s) : Bounded P b (ladleCatch s) :=
  h.work (Q := fun _ => False) (.ladleCatch (.refl _ s))

protected theorem evalNext (h : Bounded P b s) : Bounded P b (evalNext s) :=
  h.work (Q := fun _ => False) (.evalNext (.refl _ s))

protected theorem logEvent (h : Bounded P b s) {cause page detail : Nat} : Bounded P b (logEvent cause page detail s) :=
  h.work (Q := fun _ => False) (.logEvent (.refl _ s))

protected theorem gated (h : Bounded P b s) {t : BitVec 48} {f : State → State} (hf : Bounded P s (f s)) :
    Bounded P b (gated t f s) :=
  .foldl (fun hu => hu.work (Q := fun _ => False) (.noteGate (.refl _ _))) (h.trans hf)

/-! ## Images -/

theorem storePage_ne_sys (a : Nat) : (storePage a).1 ≠ .sys := by
  unfold storePage
  split_ifs <;> exact fun e => PT.noConfusion e

protected theorem catchStore (h : Bounded P b s) {a : Nat} : Bounded P b (catchStore a s) := by
  unfold Machine.catchStore
  split
  · exact h.outCatch
  · exact h.outCatch
  · exact h.fluxCatch
  · exact h

/-- A copied image waits no longer. -/
theorem copyImage_accepted (e : Accepted) (s : State) :
    Bounded P s (copyImage s e) ∧ ∀ x ∈ (copyImage s e).accepted, x ≠ e := by
  unfold copyImage
  extract_lets a p s0 s1 s2 s3
  have h0 : Bounded P s s0 := .catchStore (.refl P s)
  have h1 : Bounded P s s1 :=
    h0.trans ⟨rfl, fun _ he => List.mem_of_mem_filter he, fun _ => pace_groups (fun _ => ⟨rfl, rfl, rfl⟩) rfl rfl⟩
  have h2 : Bounded P s1 s2 := .wrAll (.wr (.refl P s1) (storePage_ne_sys a)) (storePage_ne_sys a)
  have h3 : Bounded P s1 (loadDone a s3) := .raiseEvt (.ite (h2.frame (by rfl)) h2)
  exact ⟨h1.trans h3, fun x hx => of_decide_eq_true (List.mem_filter.1 (h3.accepted x hx)).2⟩

protected theorem copyImages (h : Bounded P b s) {l : List Accepted} : Bounded P b (l.foldl copyImage s) :=
  .foldl (fun h => h.trans (copyImage_accepted _ _).1) h

protected theorem copyReady (h : Bounded P b s) : Bounded P b (copyReady s) := h.copyImages

end Bounded

theorem not_mem_copyImages : ∀ {l : List Accepted} {s : State}, ∀ e ∈ (l.foldl copyImage s).accepted, e ∉ l
  | [], _, _, _ => List.not_mem_nil
  | x :: l, s, e, he => by
    have hx := (Bounded.copyImage_accepted (P := False) x s).2 e ((Bounded.copyImages (.refl False _)).accepted e he)
    exact fun hm => (List.mem_cons.1 hm).elim hx (not_mem_copyImages e he)

/-- The images that wait on: those whose store is busy. -/
theorem copyReady_accepted {s : State} : ∀ e ∈ (copyReady s).accepted, e ∈ s.accepted ∧ storeBusy s e.store = true := by
  intro e he
  have hs : e ∈ s.accepted := (Bounded.copyReady (.refl False s)).accepted e he
  refine ⟨hs, ?_⟩
  have hn := not_mem_copyImages e he
  rw [List.mem_filter, not_and, Bool.not_eq_true', Bool.not_eq_false] at hn
  exact hn hs

end Sys2Proof.Machine
end

section
/-! Copies, substitutions and returns at a boundary (R26, R103, R240, R247, R451 to R454): each keeps `Bounded`. -/

namespace Sys2Proof.Machine
namespace Bounded

variable {P : Prop} {b s t : State}

/-! ## Vendor sections and Mortar's banks -/

/-- VENDOR_SET is not the register of the phase. -/
protected theorem vendorSet (h : Bounded P b s) : Bounded P b (vendorSet s) := by
  unfold Machine.vendorSet
  extract_lets vs good vers low mixed invalid
  exact h.setReg (ne_phaseReg_off .sys 0 (by decide) (by decide)) _

protected theorem vendorCopy {v : VImage} {q : Nat} (h : Bounded P b s) : Bounded P b (vendorCopy v s q) := by
  unfold Machine.vendorCopy
  extract_lets m a o part vi s1
  have h1 : Bounded P b s1 := h.frame (by rfl)
  exact .raiseEvt (h1.wrAll (by decide))

protected theorem exchangeWaiting (h : Bounded P b s) : Bounded P b (exchangeWaiting s) := by
  unfold Machine.exchangeWaiting
  split
  · unfold exchangeBanks
    extract_lets s1 s2 s3 s4
    have h1 : Bounded P b s1 := h.frame (by rfl)
    have h2 : Bounded P b s2 := .wr (.wr h1 (by decide)) (by decide)
    have h4 : Bounded P b s4 := .wrAll (.wrAll h2 (by decide)) (by decide)
    exact .raiseEvt (.ite (.wr h4 (by decide)) h4)
  · exact h

/-- The images that may be copied are copied first. -/
theorem boundaryCopies_from {g : Nat} : Bounded P (Machine.copyReady s) (boundaryCopies g s) := by
  unfold Machine.boundaryCopies
  extract_lets s1 vs s2
  have h2 : Bounded P s1 s2 := .ite (.refl P s1) (.vendorSet (.foldl .vendorCopy (.refl P s1)))
  exact .ite h2.exchangeWaiting h2

/-! ## Substitutions and returns -/

protected theorem setSpareState {kind ins st : Nat} (h : Bounded P b s) :
    Bounded P b (setSpareState kind ins st s) := by
  unfold Machine.setSpareState
  split
  · exact h
  · exact h.wrOff (by decide) (by decide)

protected theorem writeMap {kind act ins unit spare : Nat} (h : Bounded P b s) :
    Bounded P b (writeMap kind act ins unit spare s) := by
  unfold Machine.writeMap
  extract_lets lo e page s1
  have h1 : Bounded P b s1 := h.logEvent
  exact .ite (h1.frame (by rfl)) h1.raiseFault

protected theorem finishSub {kind act ins unit spare : Nat} (h : Bounded P b s) :
    Bounded P b (finishSub kind act ins unit spare s) := by
  unfold Machine.finishSub
  extract_lets k s0 s1 s2 s3
  have h0 : Bounded P b s0 := h.frame (by rfl)
  have h2 : Bounded P b s2 := .wr (.wr h0 (by decide)) (by decide)
  have h3 : Bounded P b s3 := by
    unfold s3
    split
    · exact .ite h2 (.wrOff h2 (by decide) (by decide))
    · exact h2
  exact .raiseEvt (.writeMap h3)

protected theorem serveUnit {kind ins unit spare : Nat} (h : Bounded P b s) :
    Bounded P b (serveUnit kind ins unit spare s) := by
  unfold Machine.serveUnit
  extract_lets page _ _ s0 _ _ s1
  have hpage : ∀ {id t}, Bounded P b t → Bounded P b (page id t) := by
    intro id t ht
    unfold page
    split
    · exact .wrOff (.wrOff ht (by decide) (by decide)) (by decide) (by decide)
    · exact ht
  split
  · exact hpage (.wrAll (.foldl (fun h => .frame (.setReg h (ne_phaseReg (pt := .seq) (by decide) _ _) _) (by rfl)) h)
      (by decide))
  · split
    extract_lets f f1 served sa s0 s1
    have hmap {t : State} {pt : PT} {n hi lo v : Nat} (ht : Bounded P b t) :
        Bounded P b (Machine.wr t pt n 0x054 hi lo v) :=
      ht.wrOff (by decide) (by decide)
    have ha : Bounded P b sa := .ite (hmap (hmap h)) h
    have h0 : Bounded P b s0 := .ite (hmap (hmap ha)) ha
    exact hpage (.ite (hmap (hmap h0)) (hmap (hmap h0)))
  · have h1 : Bounded P b s1 := by
      unfold s1
      split
      · exact h.wr (by decide)
      · exact h
    exact hpage (.frame h1 (by rfl))
  · exact hpage (.wr (.wr (.wr h (by decide)) (by decide)) (by decide))
  · exact .wr h (by decide)
  · exact .wr h (by decide)
  · exact h

protected theorem spareSeqIn {q sp : Nat} (h : Bounded P b s) : Bounded P b (spareSeqIn q sp s) := by
  unfold Machine.spareSeqIn
  extract_lets s1 x s2
  have h1 : Bounded P b s1 := h.frame (by rfl)
  have h2 : Bounded P b s2 := .ite (h1.frame (by rfl)) h1
  exact .ite h2 (.vendorSet (.foldl .vendorCopy h2))

protected theorem makeSub {u : Sub} (h : Bounded P b s) : Bounded P b (makeSub s u) := by
  unfold Machine.makeSub
  split
  · exact .raiseFault (.setSpareState (.frame h (by rfl)))
  · split
    · exact .ite (.finishSub (.spareSeqIn (.serveUnit h))) h
    · exact .finishSub (.serveUnit h)
    · exact .finishSub (.serveUnit h)

protected theorem healthOk {kind ins : Nat} (h : Bounded P b s) : Bounded P b (healthOk kind ins s).2 := by
  unfold Machine.healthOk
  extract_lets low
  split
  · exact h
  · exact h.frame (by rfl)

protected theorem spareBack {kind n : Nat} {pt : PT} {i : Nat} (h : Bounded P b s) :
    Bounded P b (spareBack kind n pt i s) := by
  unfold Machine.spareBack
  exact .wrOff (.wrOff (.wr h (by decide)) (by decide) (by decide)) (by decide) (by decide)

protected theorem unitBack {kind ins unit : Nat} (h : Bounded P b s) : Bounded P b (unitBack kind ins unit s) :=
  h.frame (by rfl)

theorem of_healthOk {kind ins : Nat} {x : Bool × State} (h : Bounded P b s) (e : healthOk kind ins s = x) :
    Bounded P b x.2 := e ▸ h.healthOk

protected theorem returnPage {pg : Nat} (h : Bounded P b s) : Bounded P b (returnPage s pg) := by
  unfold Machine.returnPage
  extract_lets s0
  have h0 : Bounded P b s0 := h.frame (by rfl)
  split
  · split
    · exact h0
    · split
      next hk =>
        have h1 := h0.of_healthOk hk
        exact .ite (.spareBack (.unitBack (.setReg h1 (ne_phaseReg (by decide) _ _) _))) h1
  · refine .ite h0 ?_
    split
    next hk =>
      have h1 := h0.of_healthOk hk
      exact .ite (.spareBack (.unitBack (h1.wrAll (by decide)))) h1
  · extract_lets used
    refine .ite h0 ?_
    split
    next hk =>
      have h1 := h0.of_healthOk hk
      extract_lets back
      have hback {b' f : Nat} {t : State} (ht : Bounded P b t) : Bounded P b (back b' f t) := .ite ht.unitBack ht
      exact .ite (.spareBack (hback (hback (h1.wrAll (by decide))))) h1
  · refine .ite h0 ?_
    split
    next hk =>
      have h1 := h0.of_healthOk hk
      exact .ite (.spareBack (.unitBack (h1.frame (by rfl)))) h1
  · refine .ite ?_ h0
    split
    next hk =>
      have h1 := h0.of_healthOk hk
      exact .ite (.spareBack (.unitBack (.wr (.wr (.wr h1 (by decide)) (by decide)) (by decide)))) h1
  · exact h0

protected theorem boundarySubs {g : Nat} (h : Bounded P b s) : Bounded P b (boundarySubs g s) := by
  unfold Machine.boundarySubs
  exact .foldl .returnPage (.foldl .makeSub h)

end Bounded
end Sys2Proof.Machine
end

section
/-! What waits for shots to end (R22, R190, R196, R481), and the calibrator, lanes and router as they follow it. -/

namespace Sys2Proof.Machine
namespace Bounded

variable {P : Prop} {b s t : State}

/-! ## The Ladle's held writes -/

protected theorem slotChanged {k : Nat} {x : LSlot} (h : Bounded P b s) : Bounded P b (slotChanged k x s) :=
  .evalNext (.frame h.ladleCatch (by rfl))

protected theorem releaseSlot {k : Nat} (h : Bounded P b s) : Bounded P b (releaseSlot s k) := by
  unfold Machine.releaseSlot
  exact .ite h (.ite h h.slotChanged)

protected theorem reflip {k : Nat} (h : Bounded P b s) : Bounded P b (reflip k s) :=
  h.work (Q := fun _ => False) (.reflip (.refl _ s))

protected theorem noteSoft {k : Nat} {fx fz : Bool} (h : Bounded P b s) : Bounded P b (noteSoft k fx fz s) :=
  .ite (h.frame (by rfl)) h

protected theorem releaseFrame {k : Nat} (h : Bounded P b s) : Bounded P b (releaseFrame s k) := by
  unfold Machine.releaseFrame
  extract_lets x
  split
  · exact h
  · exact .ite h (.noteSoft (.reflip h.slotChanged))

protected theorem ladleCatchEval (h : Bounded P b s) : Bounded P b (ladleCatchEval s) :=
  h.work (Q := fun _ => False) (.ladleCatchEval (.refl _ s))

protected theorem clearEntries (h : Bounded P b s) : Bounded P b (clearEntries s) := by
  unfold Machine.clearEntries
  extract_lets s1
  have h1 : Bounded P b s1 := h.ladleCatchEval
  exact .evalNext (.foldl (fun h => .setReg h (ne_phaseReg (pt := .ladle) (by decide) _ _) _) (.frame h1 (by rfl)))

protected theorem ladleRelease (h : Bounded P b s) : Bounded P b (ladleRelease s) := by
  unfold Machine.ladleRelease
  extract_lets ks s1 s2
  have h2 : Bounded P b s2 := .foldl .releaseFrame (.foldl .releaseSlot h)
  exact .ite h2.clearEntries h2

protected theorem moveDch {e : BitVec 48} {c : Nat} {st : DState} (h : Bounded P b s) :
    Bounded P b (moveDch e c st s) :=
  h.work (Q := fun _ => False) (.moveDch (.refl _ s))

protected theorem ladleEnabled (h : Bounded P b s) : Bounded P b (ladleEnabled s) := by
  unfold Machine.ladleEnabled
  exact .evalNext (.foldl (fun h => .ite h.moveDch h) h.ladleCatch)

/-! ## Lanes and ports -/

protected theorem setLaneBit {n i : Nat} {v : Bool} (h : Bounded P b s) : Bounded P b (setLaneBit n i v s) :=
  h.wr (by decide)

protected theorem bypassUpdate (h : Bounded P b s) : Bounded P b (bypassUpdate s) := by
  unfold Machine.bypassUpdate
  extract_lets open_ s1 s2
  have h1 : Bounded P b s1 := h.wrOff (by decide) (by decide)
  have h2 : Bounded P b s2 := h.wrOff (by decide) (by decide)
  exact .ite (.foldl (fun h => .frame h (by rfl)) h1) (.ite (.foldl (fun h => .frame h (by rfl)) h2) h)

protected theorem ringRefresh {r : Nat} (h : Bounded P b s) : Bounded P b (ringRefresh r s) := by
  unfold Machine.ringRefresh
  extract_lets _ _ _ s0 _ put t
  have h0 : Bounded P b s0 := h.wr (by decide)
  have hput {v : Nat} {y : RPort} {u : State} (hu : Bounded P b u) : Bounded P b (put v y u) :=
    .wr (.frame hu (by rfl)) (by decide)
  have ht : Bounded P b t := hput h0
  exact .bypassUpdate (.ite (hput h0) (.ite (.ite ht.raiseEvt ht)
    (.ite (hput h0).raiseFault (.ite (hput h0) (hput h0)))))

protected theorem addBits {n bits : Nat} (h : Bounded P b s) : Bounded P b (addBits n bits s) := by
  unfold Machine.addBits
  exact .ite (h.wrPair (by decide)) (.wrPair (.frame h (by rfl)) (by decide))

protected theorem prbsSettle {n bits errs : Nat} (h : Bounded P b s) : Bounded P b (prbsSettle n bits errs s) := by
  unfold Machine.prbsSettle prbsNow
  extract_lets run
  have h1 : Bounded P b (Machine.bump (Machine.addBits n (max run.1 bits) s) .lane n 0x05C 31 0 (max run.2 errs)) :=
    (h.addBits.bump (by decide))
  exact h1.frame (by rfl)

protected theorem prbsStop {n : Nat} (h : Bounded P b s) : Bounded P b (prbsStop n s) :=
  .ite h.prbsSettle.setLaneBit h

protected theorem portPrbs {p : Nat} (h : Bounded P b s) : Bounded P b (portPrbs p s) :=
  .foldl (fun h => .ite h h.prbsStop) h

protected theorem ringEnabled {r : Nat} (h : Bounded P b s) : Bounded P b (ringEnabled r s) := by
  unfold Machine.ringEnabled
  exact .portPrbs (.ringRefresh (.ite h (h.frame (by rfl))))

protected theorem fecBegin {h' : Nat} (h : Bounded P b s) : Bounded P b (fecBegin h' s) := .ite (h.frame (by rfl)) h

protected theorem hostRefresh {h' : Nat} (h : Bounded P b s) : Bounded P b (hostRefresh h' s) := by
  unfold Machine.hostRefresh
  extract_lets p mask k link was s1
  have h1 : Bounded P b s1 := .wr (.wr h (by decide)) (by decide)
  exact .ite h1.fecBegin.raiseEvt (.ite h1.raiseEvt h1)

protected theorem hostEnterMode {h' mode : Nat} (h : Bounded P b s) : Bounded P b (hostEnterMode h' mode s) := by
  unfold Machine.hostEnterMode
  exact .hostRefresh (.foldl (fun h => .ite h (.prbsStop h.setLaneBit))
    (.foldl (fun h => .foldl .setLaneBit h) (h.wr (by decide))))

protected theorem hostShed {on : Bool} {h' : Nat} (h : Bounded P b s) : Bounded P b (hostShed on h' s) := by
  unfold Machine.hostShed
  exact .raiseEvt (.hostEnterMode (h.wr (by decide)))

/-! ## The calibrator -/

protected theorem startSegment {mode k : Nat} (h : Bounded P b s) : Bounded P b (startSegment mode k s) := by
  unfold Machine.startSegment
  exact .wr (.wr (.wr (.frame h (by rfl)) (by decide)) (by decide)) (by decide)

protected theorem calKick (h : Bounded P b s) : Bounded P b (calKick s) := by
  unfold Machine.calKick
  extract_lets one s1
  have hone {t : State} {k : Nat} (ht : Bounded P b t) : Bounded P b (one t k) :=
    .ite (.ite (.wr (.frame ht (by rfl)) (by decide)) (.ite (ht.wr (by decide)) ht)) ht
  have h1 : Bounded P b s1 := .foldl hone h
  refine .ite h (.ite h1 ?_)
  split
  · exact h1.startSegment
  · exact h1

protected theorem segmentEnds (h : Bounded P b s) : Bounded P b (segmentEnds s) := by
  unfold Machine.segmentEnds stopSegments
  exact .copyReady (.wr (.wr (.frame h (by rfl)) (by decide)) (by decide))

theorem lineDelayOf_ne_sys (s : State) (k : Nat) : (lineDelayOf s k).1 ≠ .sys := by
  unfold lineDelayOf
  split <;> exact fun e => PT.noConfusion e

protected theorem adcCalSlice {n k : Nat} (h : Bounded P b s) : Bounded P b (adcCalSlice n s k) := by
  unfold Machine.adcCalSlice
  extract_lets o s1 s2 s3
  have h3 : Bounded P b s3 := .wr (.wr (.wr h (by decide)) (by decide)) (by decide)
  exact h3.frame (by rfl)

protected theorem applyResult {k : Nat} (h : Bounded P b s) : Bounded P b (applyResult s k) := by
  unfold Machine.applyResult
  extract_lets c s0 n r0 r1
  have h0 : Bounded P b s0 := h.frame (by rfl)
  refine .ite h ?_
  split
  · exact h0.wrAll (lineDelayOf_ne_sys s k)
  · exact h0.wr (by decide)
  · exact h0.frame (by rfl)
  · exact .foldl (fun h => h.adcCalSlice) h0
  · exact h0

protected theorem applyResults (h : Bounded P b s) : Bounded P b (applyResults s) := .foldl .applyResult h

/-! ## The event router -/

protected theorem settleLine {x : BitVec 48} {line : Nat} (h : Bounded P b s) : Bounded P b (settleLine x s line) := by
  unfold Machine.settleLine
  extract_lets s1 note limit counts s2
  have hbit {u : State} {off l : Nat} (hu : Bounded P b u) : Bounded P b (setLineBit off l u) := hu.raiseBit (by decide)
  have hdrop {u : State} (hu : Bounded P b u) : Bounded P b (dropFire u) := .raiseEvt (hu.bump (by decide))
  have hnote {d c : Bool} {u : State} (hu : Bounded P b u) : Bounded P b (note d c u) := hu.frame (by rfl)
  have h1 : Bounded P b s1 := hbit h
  have h2 : Bounded P b s2 := .wr (hbit (hnote h1)) (by decide)
  exact .ite h1 (.ite (hdrop (hnote h1)) (.ite (hdrop h2.raiseFault) (hnote h1)))

protected theorem settleInput {x : BitVec 48} {i : Nat} (h : Bounded P b s) : Bounded P b (settleInput x s i) := by
  unfold Machine.settleInput coincide
  split
  · exact h
  · exact h.frame (by rfl)
  · exact .raiseEvt (.bump (.raiseBit (.frame h (by rfl)) (by decide)) (by decide))

protected theorem settleTick {x : BitVec 48} (h : Bounded P b s) : Bounded P b (settleTick x s) := by
  unfold Machine.settleTick
  extract_lets now ls merged s1 s2
  have h1 : Bounded P b s1 := h.frame (by rfl)
  have h2 : Bounded P b s2 := .ite h1 (h1.bump (by decide))
  exact .foldl .settleInput (.foldl .settleLine h2)

protected theorem lineCatch (h : Bounded P b s) : Bounded P b (lineCatch s) :=
  .foldl (fun h => h.atTick fun u => .settleTick (.refl _ u)) h

protected theorem routerEnabled (h : Bounded P b s) : Bounded P b (routerEnabled s) := .ite h (h.frame (by rfl))

/-! ## Enables, held writes -/

protected theorem enableChanged {pt : PT} {n : Nat} (h : Bounded P b s) : Bounded P b (enableChanged pt n s) := by
  unfold Machine.enableChanged
  split
  · exact h.ladleEnabled
  · exact h.ringEnabled
  · exact h.hostRefresh.portPrbs
  · exact h.calKick
  · exact h.routerEnabled
  · exact h

protected theorem enableNow {pg : Nat} (h : Bounded P b s) : Bounded P b (enableNow s pg) := by
  unfold Machine.enableNow
  split
  · exact h
  · extract_lets s0
    have h0 : Bounded P b s0 := .ite h.lineCatch h
    exact .enableChanged (.gated h0 (.wrOff (.frame (.refl P s0) (by rfl)) (by decide) (by decide)))

protected theorem enableWaiting (h : Bounded P b s) : Bounded P b (enableWaiting s) := .foldl .enableNow h

/-- Held writes are of any register: of the length of the boundary nothing is said. -/
protected theorem applyBits {a : Nat} {mask v : Word} (h : Bounded False b s) :
    Bounded False b (applyBits a mask v s) := by
  have hreg {u : State} {w : Word} (hu : Bounded False b u) : Bounded False b (Machine.setReg u a w) :=
    hu.trans ⟨rfl, fun _ he => he, False.elim⟩
  have hfreq {out tone : Nat} {u : State} (hu : Bounded False b u) : Bounded False b (freqChanged out tone u) := by
    unfold freqChanged
    exact hu.work (Q := fun _ => False) (.placeOp (.refl _ u))
  unfold Machine.applyBits
  extract_lets new off s1
  have h1 : Bounded False b s1 := hreg h
  split
  · exact h
  · exact .ite (hfreq (hreg h.outCatch)) (hreg h.outCatch)
  · exact .ite (hfreq (hreg h.outCatch)) (hreg h.outCatch)
  · exact .ite (h1.frame (by rfl)) h1
  · refine .ite (hreg h) (.ite ?_ (hreg (h.work (Q := fun _ => False) (.fluxGroupCatch (.refl _ s)))))
    exact .ite (.fluxRamp (.frame (hreg (.fluxCatch (h.work (Q := fun _ => False) (.fluxTakeOver (.refl _ s)))))
      (by rfl)))
      (hreg h.fluxCatch)
  · refine .ite ?_ (hreg h)
    exact .ite (.setGroup (hreg h) (by rfl)) (.ite (hreg h) (.setGroup (hreg h) (by rfl)))
  · exact hreg h

/-- Where no write is held none is released. -/
protected theorem releaseHeld (h : Bounded P b s) (hP : P → s.held = []) : Bounded P b (releaseHeld s) := by
  refine h.trans ?_
  unfold Machine.releaseHeld
  extract_lets go s1
  have h1 : Bounded False s (go.foldl (fun t x => Machine.applyBits x.addr x.mask x.val t) s1) :=
    .foldl .applyBits ⟨rfl, fun _ he => he, False.elim⟩
  refine ⟨h1.calWin, h1.accepted, fun hp => ?_⟩
  have hgo : go = [] := by
    unfold go
    rw [hP hp]
    rfl
  have hs1 : s1.held = s.held := by
    change s.held.filter _ = s.held
    rw [hP hp]
    rfl
  rw [hgo]
  exact pace_groups (fun _ => ⟨rfl, rfl, rfl⟩) (by rw [List.foldl_nil, hs1]) rfl

protected theorem boundaryWrites {g : Nat} (h : Bounded P b s) (hP : P → s.held = []) :
    Bounded P b (boundaryWrites g s) := by
  unfold Machine.boundaryWrites freed
  extract_lets s1 os
  have h1 : Bounded P b s1 := .ladleRelease (.enableWaiting (h.releaseHeld hP))
  exact .foldl (fun h => h.work (Q := fun _ => False) (.pdClrApply (.refl _ _))) h1

end Bounded
end Sys2Proof.Machine
end

section
/-! Shedding and withdrawals at a boundary (R26, R33, R430, R440), and the boundary's end. -/

namespace Sys2Proof.Machine
namespace Bounded

variable {P : Prop} {b s t : State}

/-! ## Captures that shedding stops -/

protected theorem evictOne {u : Nat} (h : Bounded P b s) : Bounded P b (evictOne u s) := by
  unfold Machine.evictOne
  extract_lets x
  split
  · exact h
  · exact .raiseEvt (.bump (.frame h (by rfl)) (by decide))

protected theorem makeRoom {u : Nat} : ∀ {n : Nat} {s : State}, Bounded P b s → Bounded P b (makeRoom u n s)
  | 0, _, h => h
  | _ + 1, _, h => .ite h (Bounded.makeRoom h.evictOne)

protected theorem capRoom {u : Nat} (h : Bounded P b s) : Bounded P b (capRoom u s) := .makeRoom h

protected theorem ringPut {base ring place : Nat} {bs : List Byte} (h : Bounded P b s) :
    Bounded P b (ringPut base ring place bs s) := by
  unfold Machine.ringPut Machine.putBefore
  extract_lets here s1 hs under all mates fresh again
  have h1 : Bounded P b s1 := .foldl (fun h => .frame h (by rfl)) h
  exact .ite h1 (.foldl (fun h => .foldl (fun h => .frame h (by rfl)) h) (.frame h1 (by rfl)))

protected theorem cutRecord {u extra : Nat} (h : Bounded P b s) : Bounded P b (cutRecord u extra s) := by
  unfold Machine.cutRecord
  extract_lets x
  split
  · exact .capRoom (.frame h.ringPut (by rfl))
  · exact h

protected theorem addItem {u : Nat} {it : CapItem} (h : Bounded P b s) : Bounded P b (addItem u s it) := by
  unfold Machine.addItem
  extract_lets x full s1 y
  have h1 : Bounded P b s1 := .ite h.cutRecord h
  exact .capRoom (h1.frame (by rfl))

protected theorem takeItem_ {u : Nat} {it : CapItem} (h : Bounded P b s) : Bounded P b (takeItem_ u s it) := by
  unfold Machine.takeItem_
  exact .ite h (.addItem (.ite (h.frame (by rfl)) h))

protected theorem beginRecords {u : Nat} (h : Bounded P b s) : Bounded P b (beginRecords u s) := by
  unfold Machine.beginRecords
  extract_lets x
  split
  · exact h
  · refine .ite h ?_
    split
    exact .foldl .takeItem_ (h.frame (by rfl))

protected theorem endUnit {u status : Nat} (h : Bounded P b s) : Bounded P b (endUnit u status s) := by
  unfold Machine.endUnit
  exact .wr (.frame h (by rfl)) (by decide)

protected theorem shedUnit {u : Nat} (h : Bounded P b s) : Bounded P b (shedUnit u s) :=
  .ite (.endUnit (.ite h.beginRecords.cutRecord h)) h

/-! ## Withdrawals -/

/-- Withdrawals at their boundary change no group and no clock. -/
protected theorem withdrawUnit {u : Nat} (h : Bounded P b s) : Bounded P b (withdrawUnit u s) := by
  unfold Machine.withdrawUnit
  exact .raiseFault (.frame h.endUnit (by rfl))

protected theorem leaveLedger {p : Nat} (h : Bounded P b s) : Bounded P b (leaveLedger p s) :=
  .raiseFault (.raiseBit (.frame h (by rfl)) (by decide))

protected theorem settleOne {p : Nat} (h : Bounded P b s) : Bounded P b (settleOne p s) := by
  unfold Machine.settleOne withdrawEffect
  extract_lets s1
  have h1 : Bounded P b s1 := h.frame (by rfl)
  have h2 : Bounded P b (if (getPort s1 p).admitted = true then Machine.leaveLedger p s1 else s1) :=
    .ite h1.leaveLedger h1
  exact .ite h2.withdrawUnit h2

protected theorem settleFreed {p : Nat} (h : Bounded P b s) : Bounded P b (settleFreed p s) := by
  unfold Machine.settleFreed withdrawEffect
  exact .ite (.withdrawUnit (h.frame (by rfl))) (h.frame (by rfl))

protected theorem settleWithdrawn (h : Bounded P b s) : Bounded P b (settleWithdrawn s) := by
  unfold Machine.settleWithdrawn evacBegin
  extract_lets s1
  have h1 : Bounded P b s1 := .foldl .settleOne h
  have h2 : Bounded P b ((s1.wfreed.filter (fun p => !portBusy s1 p)).foldl (fun t p => settleFreed p t) s1) :=
    .foldl .settleFreed h1
  split
  · exact h2
  · exact .ite (.wrAll (.wr h2 (by decide)) (by decide)) h2

/-! ## Shedding -/

protected theorem setShed {x : Shed} (h : Bounded P b s) : Bounded P b (setShed x s) := h.frame (by rfl)

protected theorem refreshShed (h : Bounded P b s) : Bounded P b (refreshShed s) := by
  unfold Machine.refreshShed
  extract_lets old new s1 s2
  have h2 : Bounded P b s2 := .wr (.wr (.wr (.wr h (by decide)) (by decide)) (by decide)) (by decide)
  exact .ite h2 (.ite (.raiseEvt (.setShed (h2.bump (by decide)))) (.raiseEvt h2.setShed))

/-- The stages that a boundary enters: none of them ends a calibration. -/
protected theorem stageActs {g n : Nat} {first : Bool} (hn : n ≤ 4) (h : Bounded P b s) :
    Bounded P b (stageActs g n first s) := by
  unfold Machine.stageActs startOverrun
  extract_lets x s1
  split
  · exact .foldl .shedUnit h
  · exact .ite h.calKick h
  · exact .ite h.hostShed.hostShed h
  · have h1 : Bounded P b s1 := .ite (.raiseEvt (h.setGroup (by rfl))) h
    exact .foldl (fun h => h.work (Q := fun _ => False) (.fluxGroupPark (.refl _ _))) h1
  · exact absurd hn (by decide)
  · exact h

theorem foldl_mem {β : Type} {f : State → β → State} {l : List β}
    (hf : ∀ {t}, ∀ x ∈ l, Bounded P b t → Bounded P b (f t x))
    (h : Bounded P b s) : Bounded P b (l.foldl f s) := by
  induction l generalizing s with
  | nil => exact h
  | cons x l ih =>
    exact ih (fun y hy => hf y (List.mem_cons_of_mem _ hy)) (hf x List.mem_cons_self h)

protected theorem enterStages {g n : Nat} (hn : n ≤ 4) (h : Bounded P b s) : Bounded P b (enterStages g n s) := by
  unfold Machine.enterStages
  refine .refreshShed (foldl_mem (fun k hk ht => ?_) h)
  refine .ite ht (.stageActs ?_ (.gated ht (.setGroup (.refl P _) (by rfl))))
  rw [List.mem_range'] at hk
  omega

protected theorem leaveStage {n : Nat} (h : Bounded P b s) : Bounded P b (leaveStage n s) := by
  unfold Machine.leaveStage
  split
  · exact .foldl (fun h => .frame h (by rfl)) (.foldl (fun h => h.wr (by decide)) h)
  · exact h.hostShed.hostShed
  · exact h.calKick
  · exact h

protected theorem takeStepDown (h : Bounded P b s) : Bounded P b (takeStepDown s) := by
  unfold Machine.takeStepDown stepDown
  extract_lets top one
  have hone {t : State} {g : Nat} (ht : Bounded P s t) : Bounded P s (one t g) := ht.setGroup (by rfl)
  exact .ite (.refreshShed (.leaveStage (.setShed (.gated h (.foldl hone (.refl P s)))))) h.setShed

protected theorem shedAtBoundary {g : Nat} (h : Bounded P b s) : Bounded P b (shedAtBoundary g s) :=
  .takeStepDown (.enterStages (Nat.min_le_left ..) h)

protected theorem endBoundary {g : Nat} (h : Bounded P b s) : Bounded P b (endBoundary g s) := by
  unfold Machine.endBoundary fixOpening startOverrun
  extract_lets x s1
  have h1 : Bounded P b s1 := h.setGroup (by rfl)
  split
  · exact h1
  · exact .ite h1.raiseEvt (.ite (.ite (.raiseEvt (h1.setGroup (by rfl))) (h1.setGroup (by rfl)))
      (h1.setGroup (by rfl)))

end Bounded

/-! ## The end of a boundary -/

/-- The group when its boundary has ended: no start is pending. -/
theorem endBoundary_group (g : Nat) (s : State) :
    (getGroup (endBoundary g s) g).boundary = false ∧ (getGroup (endBoundary g s) g).bEnd = s.clk.tc ∧
      (getGroup (endBoundary g s) g).pend = none := by
  unfold endBoundary
  extract_lets x s1
  have h1 : getGroup s1 g = { x with boundary := false, bEnd := s.clk.tc, pend := none } := getGroup_setGroup_self ..
  have hfix (src : Nat) (named : BitVec 48) : (getGroup (fixOpening g src named s1) g).boundary = false ∧
      (getGroup (fixOpening g src named s1) g).bEnd = s.clk.tc ∧
      (getGroup (fixOpening g src named s1) g).pend = none := by
    unfold fixOpening
    dsimp only
    split
    · split
      · rw [getGroup_raiseEvt, getGroup_setGroup_self, h1]
        exact ⟨rfl, rfl, rfl⟩
      · rw [getGroup_setGroup_self, h1]
        exact ⟨rfl, rfl, rfl⟩
    · rw [getGroup_setGroup_self, h1]
      exact ⟨rfl, rfl, rfl⟩
  split
  · rw [h1]
    exact ⟨rfl, rfl, rfl⟩
  · split
    · rw [startOverrun, getGroup_raiseEvt, h1]
      exact ⟨rfl, rfl, rfl⟩
    · exact hfix ..

theorem Bounded.clk {b s : State} (h : Bounded True b s) : s.clk = b.clk := by
  obtain ⟨hclk, -⟩ := pace_eq (h.pace trivial)
  exact hclk

/-- A boundary is over: no window is open, the group's boundary has ended at the present tick with no start pending. -/
structure Over (g : Nat) (s t : State) : Prop where
  calWin : t.calWin = none
  boundary : (getGroup t g).boundary = false
  bEnd : (getGroup t g).bEnd = t.clk.tc
  pend : (getGroup t g).pend = none
  clk : t.clk = s.clk

theorem endBoundary_over {g : Nat} {s : State} (h : s.calWin = none) : Over g s (endBoundary g s) := by
  have hb : Bounded True s (endBoundary g s) := .endBoundary (.refl True s)
  obtain ⟨hbnd, hend, hpend⟩ := endBoundary_group g s
  exact ⟨hb.calWin.trans h, hbnd, hend.trans (by rw [hb.clk]), hpend, hb.clk⟩

/-- What follows once the boundary's time has passed: a calibration window, or its end. -/
def boundaryNext (g : Nat) (s : State) : State :=
  if windowOpens s g then openWindow g (setGroup s g { getGroup s g with calReq := false }) else endBoundary g s

/-- A window that opens runs a segment, or ends at once. -/
theorem openWindow_spec (g : Nat) (s : State) :
    (∀ e ∈ (openWindow g s).accepted, e ∈ s.accepted) ∧
      ((openWindow g s).calWin = some (g, 0) ∨ Over g s (openWindow g s)) := by
  unfold openWindow
  have h0 : Bounded True { s with calWin := some (g, 0) }
    (bump { s with calWin := some (g, 0) } .cal 0 0x050 31 16 1) :=
    .bump (.refl True _) (by decide)
  generalize bump { s with calWin := some (g, 0) } .cal 0 0x050 31 16 1 = u at h0 ⊢
  have hend : (∀ e ∈ (endBoundary g (applyResults { segmentEnds u with calWin := none })).accepted, e ∈ s.accepted) ∧
      Over g s (endBoundary g (applyResults { segmentEnds u with calWin := none })) := by
    have h1 : Bounded True u (segmentEnds u) := .segmentEnds (.refl True u)
    have h2 : Bounded True { segmentEnds u with calWin := none } (applyResults { segmentEnds u with calWin := none }) :=
      .applyResults (.refl True _)
    have h3 := endBoundary_over (g := g) (h2.calWin.trans rfl)
    refine ⟨fun e he => ?_, h3.calWin, h3.boundary, h3.bEnd, h3.pend, ?_⟩
    · exact h0.accepted e (h1.accepted e (h2.accepted e ((Bounded.endBoundary (.refl True _)).accepted e he)))
    · rw [h3.clk, h2.clk]
      exact h1.clk.trans h0.clk
  unfold windowNext
  split
  next hn => exact absurd (h0.calWin.symm.trans hn) (by simp)
  next g' used hw =>
    obtain ⟨rfl, rfl⟩ : g = g' ∧ 0 = used := by simpa using h0.calWin.symm.trans hw
    dsimp only
    split
    · split
      next k _ _ =>
        have h1 : Bounded True u (startSegment 1 k u) := .startSegment (.refl True u)
        exact ⟨fun e he => h0.accepted e (h1.accepted e he), .inl (h1.calWin.trans hw)⟩
      · exact ⟨hend.1, .inr hend.2⟩
    · exact ⟨hend.1, .inr hend.2⟩

theorem boundaryNext_spec {g : Nat} {s : State} (h : s.calWin = none) :
    (∀ e ∈ (boundaryNext g s).accepted, e ∈ s.accepted) ∧
      ((∃ w, (boundaryNext g s).calWin = some w ∧ w.1 = g) ∨ Over g s (boundaryNext g s)) := by
  unfold boundaryNext
  split
  · obtain ⟨hacc, hwin | hover⟩ := openWindow_spec g (setGroup s g { getGroup s g with calReq := false })
    · exact ⟨hacc, .inl ⟨_, hwin, rfl⟩⟩
    · exact ⟨hacc, .inr ⟨hover.calWin, hover.boundary, hover.bEnd, hover.pend, hover.clk⟩⟩
  · exact ⟨(Bounded.endBoundary (.refl True s)).accepted, .inr (endBoundary_over h)⟩

end Sys2Proof.Machine
end

section
/-! A boundary's actions together, its length, and what comes after it (R26, R71, R430, R452). -/

namespace Sys2Proof.Machine

/-- The actions of a boundary in their order: copies, substitutions, freed writes, shedding, withdrawals. -/
def boundaryActs (g : Nat) (s : State) : State :=
  let s3 := boundaryWrites g (boundarySubs g (boundaryCopies g s))
  settleWithdrawn (shedAtBoundary g (setGroup s3 g { getGroup s3 g with throttle := throttle s3 }))

/-- The group as its boundary stretches or does not. -/
def stretchedGroup (x : Group) (c : Bool) : Group := { x with stretched := c }

/-- The length of a boundary: 48 ticks and what copies add, or the stretch of the throttle where that is longer. -/
def boundaryLen (x : Group) (natural : Nat) : Nat := max natural ((x.len * x.throttle + 3) / 4)

/-- The copies that a boundary makes, and the rows that it substitutes. -/
def copyCount (g : Nat) (s : State) : Nat :=
  (s.accepted.filter (fun e => !storeBusy s e.store)).length +
    (s.vimg.waiting.filter (fun q => !seqActive s q)).length +
    (s.subs.filter (fun u => decide (u.kind = 0) && subHere s g u)).length
def rowCount (g : Nat) (s : State) : Nat := (s.subs.filter (fun u => decide (u.kind = 5) && subHere s g u)).length

/-- A boundary that is due acts, lasts for its length, and then ends or opens a calibration window. -/
theorem shotBoundary_of_due {g : Nat} {s : State} (hb : (getGroup s g).boundary = true) (hw : s.calWin = none) :
    let u := boundaryActs g s
    let x := getGroup u g
    ∃ natural c, 48 ≤ natural ∧
      natural ≤ 48 + 30000 * (s.accepted.length + s.vimg.waiting.length + s.subs.length) + 100 * s.subs.length ∧
      shotBoundary g s = boundaryNext g (passTo (x.closedAt + BitVec.ofNat 48 (boundaryLen x natural))
        (setGroup { u with free := u.free + 1 } g (stretchedGroup x c))) := by
  intro u x
  have hcopies : copyCount g s ≤ s.accepted.length + s.vimg.waiting.length + s.subs.length :=
    Nat.add_le_add (Nat.add_le_add (List.length_filter_le ..) (List.length_filter_le ..)) (List.length_filter_le ..)
  have hrows : rowCount g s ≤ s.subs.length := List.length_filter_le ..
  have hmod : Config.free u.free % (30000 * copyCount g s + 100 * rowCount g s + 1) <
    30000 * copyCount g s + 100 * rowCount g s + 1 := Nat.mod_lt _ (Nat.succ_pos _)
  refine ⟨48 + Config.free u.free % (30000 * copyCount g s + 100 * rowCount g s + 1),
    decide (48 + Config.free u.free % (30000 * copyCount g s + 100 * rowCount g s + 1) < (x.len * x.throttle + 3) / 4),
    Nat.le_add_right .., by omega, ?_⟩
  have hgo : ¬ ((!(getGroup s g).boundary || s.calWin.any (fun w => decide (w.1 = g))) = true) := by simp [hb, hw]
  unfold shotBoundary
  rw [if_neg hgo]
  extract_lets copies rows s2 s3 y s4
  have hc : copies = copyCount g s := rfl
  have hr : rows = rowCount g s := rfl
  have h4 : s4 = u := rfl
  clear_value s4 u copies rows
  subst hc hr h4
  rfl

/-- What the actions of a boundary leave: no window opens, and only images of busy stores wait on. -/
theorem boundaryActs_spec (g : Nat) (s : State) :
    (boundaryActs g s).calWin = s.calWin ∧
      ∀ e ∈ (boundaryActs g s).accepted, e ∈ s.accepted ∧ storeBusy s e.store = true := by
  have h1 : Bounded False (copyReady s) (boundaryWrites g (boundarySubs g (boundaryCopies g s))) :=
    .boundaryWrites (.boundarySubs Bounded.boundaryCopies_from) False.elim
  have h2 : Bounded False (copyReady s) (boundaryActs g s) := by
    unfold boundaryActs
    exact .settleWithdrawn (.shedAtBoundary (h1.trans ⟨rfl, fun _ he => he, False.elim⟩))
  exact ⟨h2.calWin.trans (Bounded.copyReady (.refl False s)).calWin,
    fun e he => copyReady_accepted e (h2.accepted e he)⟩

/-- While no write is held, the actions take no time, the clock keeps running as it did, and the shot's length stands;
the throttle step is one of eight. -/
theorem boundaryActs_pace {g : Nat} {s : State} (h : s.held = []) :
    (boundaryActs g s).clk = s.clk ∧ (boundaryActs g s).boot = s.boot ∧ phase (boundaryActs g s) = phase s ∧
      (getGroup (boundaryActs g s) g).len = (getGroup s g).len ∧
      (getGroup (boundaryActs g s) g).closedAt = (getGroup s g).closedAt ∧
      (getGroup (boundaryActs g s) g).throttle ≤ 7 := by
  have h0 : Bounded True s (boundarySubs g (boundaryCopies g s)) :=
    .boundarySubs (.trans (.copyReady (.refl True s)) Bounded.boundaryCopies_from)
  have hheld : (boundarySubs g (boundaryCopies g s)).held = [] := by
    obtain ⟨-, -, -, hheld, -⟩ := pace_eq (h0.pace trivial)
    exact hheld.trans h
  unfold boundaryActs
  extract_lets s3
  have h3 : Bounded True s s3 := h0.boundaryWrites fun _ => hheld
  have h4 : Bounded True (setGroup s3 g { getGroup s3 g with throttle := throttle s3 })
      (settleWithdrawn (shedAtBoundary g (setGroup s3 g { getGroup s3 g with throttle := throttle s3 }))) :=
    .settleWithdrawn (.shedAtBoundary (.refl True _))
  obtain ⟨hc3, hb3, hf3, -, hg3⟩ := pace_eq (h3.pace trivial)
  obtain ⟨hc4, hb4, hf4, -, hg4⟩ := pace_eq (h4.pace trivial)
  obtain ⟨hl3, ha3, -⟩ := hg3 g
  obtain ⟨hl4, ha4, ht4⟩ := hg4 g
  rw [getGroup_setGroup_self] at hl4 ha4 ht4
  have hthrottle : throttle s3 < 8 := Nat.mod_lt _ (by decide)
  exact ⟨hc4.trans hc3, hb4.trans hb3, hf4.trans hf3, hl4.trans hl3, ha4.trans ha3,
    ht4.trans_le (Nat.le_of_lt_succ hthrottle)⟩

/-- A boundary that is due: the images that wait on, and its end, in the tick that its length gives where no write is
held and the clock runs. -/
theorem shotBoundary_spec {g : Nat} {s : State} (hb : (getGroup s g).boundary = true) (hw : s.calWin = none) :
    (∀ e ∈ (shotBoundary g s).accepted, e ∈ s.accepted ∧ storeBusy s e.store = true) ∧
      ((∃ w, (shotBoundary g s).calWin = some w ∧ w.1 = g) ∨ (shotBoundary g s).calWin = none ∧
        (getGroup (shotBoundary g s) g).boundary = false ∧
        (getGroup (shotBoundary g s) g).bEnd = (shotBoundary g s).clk.tc ∧
        (getGroup (shotBoundary g s) g).pend = none ∧
        (s.held = [] → ptUp s .time = true → ∃ n, 48 ≤ n ∧
          n ≤ max (48 + 30000 * (s.accepted.length + s.vimg.waiting.length + s.subs.length) + 100 * s.subs.length)
            ((7 * (getGroup s g).len + 3) / 4) ∧
          (0 < ticksTo s.clk.tc ((getGroup s g).closedAt + BitVec.ofNat 48 n) →
            (shotBoundary g s).clk.tc = (getGroup s g).closedAt + BitVec.ofNat 48 n))) := by
  obtain ⟨natural, c, hlo, hhi, he⟩ := shotBoundary_of_due hb hw
  obtain ⟨hwin, hacc⟩ := boundaryActs_spec g s
  rw [he]
  generalize hu : boundaryActs g s = u at hwin hacc
  have hs6 (f : Nat) (x : Group) : (setGroup { u with free := f } g x).calWin = none := hwin.trans hw
  have h7 (t : BitVec 48) (f : Nat) (x : Group) : (passTo t (setGroup { u with free := f } g x)).calWin = none := by
    rw [passTo_eq]
    exact hs6 f x
  obtain ⟨hacc', hnext | hover⟩ := boundaryNext_spec (g := g) (h7 ((getGroup u g).closedAt +
    BitVec.ofNat 48 (boundaryLen (getGroup u g) natural)) (u.free + 1) (stretchedGroup (getGroup u g) c))
  · refine ⟨fun e he => hacc e ?_, .inl hnext⟩
    have := hacc' e he
    rw [passTo_eq] at this
    exact this
  · refine ⟨fun e he => hacc e ?_, .inr ⟨hover.calWin, hover.boundary, hover.bEnd, hover.pend,
      fun hheld htime => ?_⟩⟩
    · have := hacc' e he
      rw [passTo_eq] at this
      exact this
    · obtain ⟨hclk, hboot, hphase, hlen, hclosed, hthr⟩ := boundaryActs_pace (g := g) hheld
      rw [hu] at hclk hboot hphase hlen hclosed hthr
      refine ⟨boundaryLen (getGroup u g) natural, ?_, ?_, fun hahead => ?_⟩
      · exact Nat.le_trans hlo (Nat.le_max_left ..)
      · unfold boundaryLen
        rw [hlen]
        refine max_le_max hhi (Nat.div_le_div_right (Nat.add_le_add_right ?_ 3))
        rw [Nat.mul_comm]
        exact Nat.mul_le_mul_right _ hthr
      · rw [hover.clk, hclosed]
        refine passTo_tc ?_ (by rw [← hclk] at hahead; exact hahead)
        exact (ptUp_congr hboot hphase .time).trans htime

end Sys2Proof.Machine
end

section
/-! O23: the opening, the closing and the boundary of a shot. -/

open Sys2Proof Sys2Proof.Machine

/-- Settles O23: what a shot's opening, closing and boundary do is composed of the rules for their parts; what the parts
leave alone are the relations `Worked` (the opening) and `Bounded` (the boundary). -/
theorem shotsOpenAndClose : Obligations.ShotsOpenAndClose := by
  unfold Obligations.ShotsOpenAndClose
  refine ⟨fun s g at_ hup => ?opening, fun s g hup => ?closing⟩
  case opening =>
    intro x u late
    have hexec : exec (.shotOpen g) s = .next (shotOpen g.val s) := congrArg Host.Outcome.next (whenUp_of hup)
    refine ⟨fun h => ?none, fun ho hr hb => ⟨fun href => ?refused, fun hacc => ?accepted⟩⟩
    case none => rw [hexec, shotOpen_of_none h]
    case refused => exact ⟨_, hexec, shotOpen_refused g.isLt ho hr hb href⟩
    case accepted =>
      obtain ⟨hrun, hopen, ht0, hthr, hlate, hcount, hclk, hstores, hpantry, hmem⟩ :=
        shotOpen_opens g.isLt ho hr hb hacc
      exact ⟨_, hexec, hrun, hopen, ht0, hcount, hthr, hlate, hclk, hstores, hpantry, hmem⟩
  case closing =>
    intro v x u y tag shown
    have hclose : exec (.shotClose g) s = .next (shotClose g.val s) := congrArg Host.Outcome.next (whenUp_of hup)
    have hbound : exec (.shotBoundary g) s = .next (shotBoundary g.val s) := congrArg Host.Outcome.next (whenUp_of hup)
    refine ⟨fun h => ?ahead, fun hrun hdone hres => ⟨_, hclose, ?closes⟩, fun h => ?waits,
      fun hb hw => ⟨_, hbound, shotBoundary_spec hb hw⟩⟩
    case ahead => rw [hclose, shotClose_of_open h]
    case closes =>
      obtain ⟨hgroup, hlo, hhi, hmem, hregs⟩ := shotClose_closes hrun hdone hres
      rw [hgroup]
      exact ⟨rfl, rfl, rfl, rfl, rfl, hlo, hhi, hmem, hregs⟩
    case waits => rw [hbound, shotBoundary_of_not h]

end

section
/-! Which occasion each command waits for, and the module that has no power or is held in reset (O5). -/

namespace Sys2Proof.Machine

/-- An effect that waits for its occasion: a page that is up, a path that answers, working receivers, or power. -/
inductive Guarded : (State → State) → Prop
  | up {pt : PT} {f : State → State} : Guarded (whenUp pt f)
  | reg {pt : PT} {f : State → State} : Guarded (whenReg pt f)
  | read {pt : PT} {f : State → State} : Guarded (whenRead pt f)
  | path {p : Path} {f : State → State} : Guarded (whenPath p f)
  | receiving {f : State → State} : Guarded (whenReceiving f)
  | alive {f : State → State} : Guarded (whenAlive f)

/-- The effect of a command is guarded, but for those of power, of the pins and of REF_IN, and the end of a target reset. -/
theorem exec_guarded {c : Instr} (hc : c.wellFormed = true) :
    (∃ straps, c = .powerOn straps ∨ c = .rstNRelease straps) ∨
    c ∈ [.powerLoss, .rstNAssert, .targetResetDone, .refInValid, .refLoss, .refReturn, .shedNAssert, .shedNRelease] ∨
    ∃ f, Guarded f ∧ ∀ s, exec c s = .next (f s) := by
  cases c with
  | powerOn straps => exact .inl ⟨straps, .inl rfl⟩
  | rstNRelease straps => exact .inl ⟨straps, .inr rfl⟩
  | powerLoss | rstNAssert | targetResetDone | refInValid | refLoss | refReturn | shedNAssert | shedNRelease =>
    exact .inr (.inl (by simp))
  | trivetUpdate readings =>
    have hlen : readings.length = 24 := of_decide_eq_true hc
    exact .inr (.inr ⟨_, .up, fun _ => if_pos hlen⟩)
  | privateWrite | privateRead | enthdr0 | hdrExit | entdaa | setdasa | setnewda | rstdaa | enec | disec | setmwl
  | getmwl | setmrl | getmrl | getpid | getbcr | getdcr | getstatus | getmxds | getcaps | rstact | unsupportedCcc
  | targetResetPattern | pwinDataRead | verifyComplete | installComplete | selfStart | syncLine | shotOpen
  | shotClose | shotBoundary | wordSeq | wordJump | wordBr | wordCall | wordRet | wordLoop | wordEnd | loopPush
  | loopBreak | waitExpiry | decisionWaitEnd | eventWaitEnd | markWaitEnd | waitTimeout | drivePulse | addA | addB
  | subA | setA | zeroAcc | addSw | play | playHold | step | park | swr | swp | evtFire | markEn | calwin
  | tbusStart | ringTrig | windowArm | probePulse | branchResolve | commitGateResolution | segmentPlay
  | segmentDecide | portActionDue | fluxActionDue | windowArmDue | windowClose | resultDue | armCopyDue
  | frameUpdateDue | broadcastDue | markDue | taskActivation | refillData | refillUnderrun | toneVerify | dacFault
  | adcFault | rampDone | shadowStep | handover | tableParity | detectionInputDue | roundClose
  | decodeWindowComplete | windowOutputIssue | testDecode | tileParity | graphParity | triggerSample | hitDue
  | sourceItem | preFilled | captureComplete | recordRelease | recordSend | pantryRequest | escalation
  | deadlineMiss | bankRefresh | retrainSlot | evacuationDone | channelLoss | autoAlignSlip | swapReq
  | swapReqAbrupt | swapReady | swapAbort | swapSwitch | swapTimeout | laneFail | abruptSwitch | laneFrame
  | decisionFlit | syndromeEvents | syndromeCorrections | triggerFlit | lossFlit | bulkFlit | idleFlit | flitSend
  | replayTimeout | graceExpiry | regWrite | regRead | storeWrite | storeCommit | storeDiscard | storeRead
  | pantryWrite | pantryRead | moduleOnlyFrame | credit | unreach | arpRequest | neighbourSolicitation | linkFail
  | ptpSync | followUp | delayReq | delayResp | pdelayReq | pdelayResp | pdelayRespFollowUp | announce | signaling
  | management | syncInterval | delayReqInterval | announceInterval | syncTimeout | ringSync | ringDelayReq
  | ringDelayResp | ringPdelayReq | ringPdelayResp | ringSyncInterval | ringPdelayInterval | syncEdge | syncAbsent
  | cmpFire | tbusCycle | holdStuck | calSegmentDone | attemptTimeout | backgroundPassDone | referenceCheck
  | conversion | housekeepingConversion | urgentConversion | scalMeasureDone | diodeCrosscheck | freezeTimeout
  | throttleUp | throttleDown | phaseFail | domainTrip | shedDwell | shedHold | shedWait | vinThreshold
  | overVoltage | wearHour | ibiDelivered | pantryRequestDone | pantryReadTimeout | inputQuiet | inputOverrange
  | badOpRequest | hostFrameDiscard | hmInterval =>
    exact .inr (.inr ⟨_, .up, fun _ => rfl⟩)
  | pwinDataWrite | swrst | standAside | release | vimgDataAccess | verify | install | load | vimgDiscard
  | seqModeWrite | shotGo | segJump | segStop | mute | parkNow | pdClr | slotBindWrite | slotCfgWrite | clrEntries
  | clrLost | dchWrite | resend | evtFireWrite | lineDisWrite | arm | abort | clrCnt | egrEnable | portAdmit
  | portRelease | mapWrite | retirementStart | slip | restart | prbsClr | swapStart | hostModeWrite | rxqPop | align
  | mtStep | servoRst | servoOfs | ctxCfgWrite | ctxData | crcWindowWrite | ctxValWrite | submit | clear | cancel
  | zero | full | hmClear | hmCfgWrite | mapClear | logClear =>
    exact .inr (.inr ⟨_, .reg, fun _ => rfl⟩)
  | registerWrite | softReset | pageLock | enableSet | enableClear | auto | forceSpare | forcePrimary | inhibit
  | apertureWrite | loadCommit | loadDiscard | envCommit | envDiscard | wtCommit | wtDiscard | graphCommit
  | graphDiscard | incCommit | mtRead | tsuRead =>
    exact .inr (.inr ⟨_, .path, fun _ => rfl⟩)
  | mapRead | logRead =>
    exact .inr (.inr ⟨_, .read, fun _ => rfl⟩)
  | los | signalReturn | rxReady | prbsLock | prbsUnlock | lockAcquire | lockLoss | laneSnrUpdate =>
    exact .inr (.inr ⟨_, .receiving, fun _ => rfl⟩)
  | parkHandover | shutdownExit | brownoutRestart | softResetDone | startupPhaseDone =>
    exact .inr (.inr ⟨_, .alive, fun _ => rfl⟩)

/-- With no power, or in reset, no path answers. -/
theorem pathUp_of_dead {s : State} (h : alive s = false) (p : Path) : pathUp s p = false := by
  cases p with
  | i3c => simp [pathUp, ptUp_of_dead h]
  | h0 | h1 => simp [pathUp, hostOn, ready, h]

/-- With no power, or in reset, no occasion comes. -/
theorem Guarded.of_dead {f : State → State} {s : State} (hf : Guarded f) (h : Machine.alive s = false) : f s = s := by
  cases hf with
  | up => exact whenUp_not (ptUp_of_dead h)
  | reg => simp [whenReg, ptUp_of_dead h, h]
  | read => simp [whenRead, ptUp_of_dead h, h]
  | path => exact whenPath_not (pathUp_of_dead h _)
  | receiving => simp [whenReceiving, Machine.receiving, h]
  | alive => exact whenAlive_not h

end Sys2Proof.Machine

open Sys2Proof Sys2Proof.Machine

/-- Settles O5: every effect that may wait here is guarded, and no guard opens; then by induction on the steps. -/
theorem moduleHeldInResetStandsStill : Obligations.ModuleHeldInResetStandsStill := by
  unfold Obligations.ModuleHeldInResetStandsStill
  intro calm held
  have hstep (s : State) (hs : held s) :
      step s = .next { s with pending := s.pending.tail } ∧ held { s with pending := s.pending.tail } := by
    obtain ⟨hdead, hcalm⟩ := hs
    refine ⟨?_, hdead, fun c hc => hcalm c (List.mem_of_mem_tail hc)⟩
    unfold step
    split
    case h_1 hp =>
      have htail : s.pending.tail = s.pending := by rw [hp, List.tail_nil]
      rw [passTicks_of_still 1 (ptUp_of_dead hdead), htail]
    case h_2 c cs hp =>
      obtain ⟨hwf, hstraps, hothers⟩ := hcalm c (by simp [hp])
      obtain ⟨straps, h⟩ | h | ⟨f, hf, hexec⟩ := exec_guarded hwf
      · exact absurd h (not_or.2 (hstraps straps))
      · simp [hothers] at h
      · rw [hp]
        exact (hexec _).trans (congrArg Host.Outcome.next (hf.of_dead hdead))
  refine ⟨hstep, fun n => ?_⟩
  induction n with
  | zero => exact fun s _ => rfl
  | succ n ih =>
    intro s hs
    obtain ⟨hnext, hheld⟩ := hstep s hs
    simp only [afterSteps, hnext]
    rw [ih _ hheld]
    simp
end

section
/-! The I3C target: its dynamic address, the in-band interrupt, its settings and what it answers (O14, O15). -/

namespace Sys2Proof.Machine

variable {s : State}

/-- A command that waits for a page, once the page is up. -/
theorem exec_of_up {pt : PT} {c : Instr} {f : State → State} {t : State} (hup : ptUp s pt = true)
    (hc : exec c s = .next (whenUp pt f s)) (h : f s = t) : exec c s = .next t := by
  rw [hc, whenUp_of hup, h]

/-! ## Who is spoken to (R36, R57) -/

theorem addressed_of {f : State → State} (h : i3cAnswers s = true) : addressed f s = f s := if_pos h

theorem addressed_not {f : State → State} (h : i3cAnswers s = false) : addressed f s = i3cNack s :=
  if_neg (Bool.not_eq_true _ ▸ h)

theorem broadcast_of {f : State → State} (h : s.i3c.inReset = false) : broadcast f s = f s :=
  if_neg (Bool.not_eq_true _ ▸ h)

theorem broadcast_not {f : State → State} (h : s.i3c.inReset = true) : broadcast f s = s := if_pos h

theorem i3cAnswers_of_inReset (h : s.i3c.inReset = true) : i3cAnswers s = false := by simp [i3cAnswers, h]

theorem i3cAnswers_of_working (h : s.i3c.inReset = false) : i3cAnswers s = hasAddr s := by simp [i3cAnswers, h]

/-! ## The dynamic address (R36) -/

/-- An address taken shows in I3C_STAT[31:24], and the target answers with nothing more. -/
theorem setAddr_taken (s : State) (a : BitVec 7) :
    let t := i3cReply [] (setAddr a.toNat s)
    rd t .mgmt 0 0x040 31 24 = 128 + a.toNat ∧ rd t .mgmt 0 0x040 23 0 = rd s .mgmt 0 0x040 23 0 ∧
      regsBut [addrOf .mgmt 0 0x040] s t ∧ t.i3c = { s.i3c with reply := [], nack := false } ∧
      { t with regs := s.regs, i3c := s.i3c } = s := by
  have hw : rd (wr s .mgmt 0 0x040 31 24 (128 + a.toNat % 128)) .mgmt 0 0x040 31 24 = 128 + a.toNat := by
    rw [rd_wr_self _ _ _ _ _ _ _ (by decide) (by decide)]
    omega
  exact ⟨hw, rd_wr_field _ _ _ _ _ _ _ _ _ (by decide) (by decide) (.inl (by decide)),
    regsBut_wr _ _ _ _ _ _ _ (by simp), rfl, rfl⟩

theorem entdaa_of_free (h : hasAddr s = false) (a : Nat) : entdaa a s = i3cReply [] (setAddr a s) :=
  if_neg (Bool.not_eq_true _ ▸ h)

theorem entdaa_of_held (h : hasAddr s = true) (a : Nat) : entdaa a s = s := if_pos h

theorem setdasa_refused {static : Nat}
    (h : s.i3c.inReset = true ∨ hasAddr s = true ∨ static ≠ 0x60 + s.pins.strap.toNat % 8) (a : Nat) :
    setdasa static a s = i3cNack s :=
  if_pos (by simpa [or_assoc] using h)

theorem setdasa_of_free {static : Nat} (hr : s.i3c.inReset = false) (h : hasAddr s = false)
    (hs : static = 0x60 + s.pins.strap.toNat % 8) (a : Nat) : setdasa static a s = i3cReply [] (setAddr a s) :=
  if_neg (by simp [hr, h, hs])

/-- An address given up: I3C_STAT[31:24] reads 0. -/
theorem rstdaa_cleared (s : State) :
    rd (rstdaa s) .mgmt 0 0x040 31 24 = 0 ∧ rd (rstdaa s) .mgmt 0 0x040 23 0 = rd s .mgmt 0 0x040 23 0 ∧
      regsBut [addrOf .mgmt 0 0x040] s (rstdaa s) ∧ onlyRegs s (rstdaa s) :=
  ⟨rd_wr_self _ _ _ _ _ _ _ (by decide) (by decide),
    rd_wr_field _ _ _ _ _ _ _ _ _ (by decide) (by decide) (.inl (by decide)),
    regsBut_wr _ _ _ _ _ _ _ (by simp), onlyRegs_wr _ _ _ _ _ _ _⟩

/-! ## Bytes most significant first -/

/-- The bytes of a word, the other way round. -/
theorem wordBytes_reverse_ofNat (n : Nat) : (wordBytes (BitVec.ofNat 32 n)).reverse = beBytes n 4 := by
  have hbyte (k : Nat) (hk : k + 8 ≤ 32) :
      (BitVec.ofNat 32 n).extractLsb' k 8 = BitVec.ofNat 8 (n / 2 ^ k % 256) := by
    apply BitVec.eq_of_getLsbD_eq
    intro i hi
    have hb : (n / 2 ^ k % 256).testBit i = n.testBit (k + i) := by
      rw [show 256 = 2 ^ 8 from rfl, Nat.testBit_mod_two_pow, Nat.testBit_div_two_pow, Nat.add_comm]
      simp [hi]
    rw [BitVec.getLsbD_extractLsb', BitVec.getLsbD_ofNat, BitVec.getLsbD_ofNat, hb]
    simp [hi, show k + i < 32 by omega]
  simp only [wordBytes, beBytes, leBytes, hbyte 0 (by decide), hbyte 8 (by decide), hbyte 16 (by decide),
    hbyte 24 (by decide), Nat.div_div_eq_div_mul]
  simp

theorem beBytes_two (n : Nat) : beBytes n 2 = [BitVec.ofNat 8 (n / 256 % 256), BitVec.ofNat 8 (n % 256)] := rfl

/-- A length that two bytes carry. -/
theorem beBytes_two_toNat {n : Nat} (h : n ≤ 4096) :
    256 * (BitVec.ofNat 8 (n / 256 % 256)).toNat + (BitVec.ofNat 8 (n % 256)).toNat = n := by
  simp only [BitVec.toNat_ofNat]
  omega

/-! ## The in-band interrupt (R40, R52) -/

/-- PEND_FIRST, most significant byte first, as the interrupt carries it. -/
theorem pendFirst_bytes (s : State) : (wordBytes (viewWord s .sys 0 0x060)).reverse =
    match pendingPages s with
    | pg :: _ => beBytes (pg * 4096) 4
    | [] => [0xFF, 0xFF, 0xFF, 0xFF] := by
  have hview : viewWord s .sys 0 0x060 = match pendingPages s with
      | pg :: _ => word32 (pg * 4096)
      | [] => 0xFFFFFFFF := rfl
  rw [hview]
  cases pendingPages s with
  | nil => rfl
  | cons pg l => exact wordBytes_reverse_ofNat _

theorem ibiDelivered_not (h : (allWork s).i3c.ibiReq = false ∨ i3cAnswers (allWork s) = false) :
    ibiDelivered s = allWork s :=
  if_pos (by simpa using h)

theorem ibiDelivered_of (hr : (allWork s).i3c.ibiReq = true) (ha : i3cAnswers (allWork s) = true) :
    ibiDelivered s = { allWork s with i3c := { (allWork s).i3c with
      ibiReq := false
      nack := false
      reply := (if alertLow (allWork s) then 0xA1 else 0xA0) ::
        (wordBytes (viewWord (allWork s) .sys 0 0x060)).reverse } } :=
  if_neg (by simp [hr, ha])

end Sys2Proof.Machine

open Sys2Proof Sys2Proof.Machine

/-- Settles O14: each address command is followed to what it does to I3C_STAT, the interrupt to its payload. -/
theorem dynamicAddressAndInterrupts : Obligations.DynamicAddressAndInterrupts := by
  unfold Obligations.DynamicAddressAndInterrupts
  refine ⟨fun s a static hup => ?address, fun s hup => ?interrupt⟩
  case address =>
    intro taken refused
    have htaken {c : Instr} {f : State → State} (hc : exec c s = .next (whenUp .mgmt f s))
        (h : f s = i3cReply [] (setAddr a.toNat s)) : Gives c s taken :=
      ⟨_, exec_of_up hup hc h, setAddr_taken s a⟩
    refine ⟨fun hr => ?_, fun hr => ?_⟩
    · exact ⟨exec_of_up hup rfl (broadcast_not hr), exec_of_up hup rfl (broadcast_not hr),
        exec_of_up hup rfl (setdasa_refused (.inl hr) _),
        exec_of_up hup rfl (addressed_not (i3cAnswers_of_inReset hr))⟩
    · have hans := i3cAnswers_of_working hr
      refine ⟨fun h => ?_, fun h => ?_, fun h hst => ?_, fun h => ?_, fun h => ?_, fun h => ?_, ?_⟩
      · exact htaken rfl ((broadcast_of hr).trans (entdaa_of_free h _))
      · exact exec_of_up hup rfl ((broadcast_of hr).trans (entdaa_of_held h _))
      · exact htaken rfl (setdasa_of_free hr h hst _)
      · exact exec_of_up hup rfl (setdasa_refused (.inr h) _)
      · exact htaken rfl (addressed_of (hans.trans h))
      · exact exec_of_up hup rfl (addressed_not (hans.trans h))
      · exact ⟨_, exec_of_up hup rfl (broadcast_of hr), rstdaa_cleared s⟩
  case interrupt =>
    intro u
    have hexec : exec .ibiDelivered s = .next (ibiDelivered s) := congrArg Host.Outcome.next (whenUp_of hup)
    refine ⟨fun h => ?_, fun hr ha => ?_⟩
    · rw [hexec, ibiDelivered_not h]
    · have hd := ibiDelivered_of hr ha
      rw [pendFirst_bytes] at hd
      exact hexec.trans (congrArg Host.Outcome.next hd)

end

section
/-! The I3C target: its settings, and what it answers to the CCCs that read it (O15). -/

namespace Sys2Proof.Machine

variable {s : State}

/-! ## Flags of I3C_STAT (R37, R43, R44) -/

/-- A flag of I3C_STAT raised: that bit alone, and nothing beside the register. -/
theorem i3cFlag_sets {i : Nat} (hi : i < 32) (s : State) :
    rdBit (i3cFlag i s) .mgmt 0 0x040 i = true ∧
      (∀ j, j ≠ i → rdBit (i3cFlag i s) .mgmt 0 0x040 j = rdBit s .mgmt 0 0x040 j) ∧
      regsBut [addrOf .mgmt 0 0x040] s (i3cFlag i s) ∧ onlyRegs s (i3cFlag i s) := by
  have hregs : (i3cFlag i s).regs = (wr s .mgmt 0 0x040 i i 1).regs := raiseBit_regs ..
  have hbit (j : Nat) : rdBit (i3cFlag i s) .mgmt 0 0x040 j = if j = i then true else rdBit s .mgmt 0 0x040 j := by
    rw [rdBit_congr hregs, rdBit_wr_self _ _ _ _ _ _ _ _ (Nat.le_refl i) hi]
    by_cases hj : j = i
    · simp [hj]
    · rw [if_neg (by omega), if_neg hj]
  refine ⟨by simp [hbit], fun j hj => by simp [hbit, hj], fun a ha => ?_, onlyRegs_raiseBit _ _ _ _ _⟩
  rw [getReg_congr hregs]
  exact regsBut_wr s .mgmt 0 0x040 i i 1 (by simp) a ha

/-- The rest of the state at a flag raised: neither the record of the tick nor the target's own state is a register. -/
theorem i3cFlag_rest (i : Nat) (s : State) :
    { i3cFlag i s with regs := s.regs, tick := s.tick } = s ∧ (i3cFlag i s).i3c = s.i3c := by
  have h : onlyRegs s (i3cFlag i s) := onlyRegs_raiseBit _ _ _ _ _
  exact ⟨h, (congrArg State.i3c (onlyRegs_iff.1 h) :)⟩

theorem unsupportedCcc_direct (hr : s.i3c.inReset = false) (h : hasAddr s = true) :
    unsupportedCcc true s = i3cNack (i3cFlag 5 s) :=
  addressed_of (f := fun t => i3cNack (i3cFlag 5 t)) ((i3cAnswers_of_working hr).trans h)

theorem unsupportedCcc_broadcast (hr : s.i3c.inReset = false) : unsupportedCcc false s = i3cFlag 5 s := broadcast_of hr

/-! ## Interrupts, lengths, the reset action -/

theorem pagePending_congr {s t : State} (hr : t.regs = s.regs) (hb : t.boot = s.boot) (pg : Nat) :
    pagePending t pg = pagePending s pg := by
  have hphase : phase t = phase s := phase_congr (reg_congr hr _ _ _)
  have hup : pageUp t pg = pageUp s pg := by
    unfold pageUp
    split
    · rfl
    · exact ptUp_congr hb hphase _
  simp only [pagePending, hup, getReg_congr hr]

theorem pendingPages_congr {s t : State} (hr : t.regs = s.regs) (hb : t.boot = s.boot) :
    pendingPages t = pendingPages s :=
  congrArg (allPages.filter ·) (funext (pagePending_congr hr hb))

theorem enec_of_none (h : pendingPages s = []) : enec s = { s with i3c := { s.i3c with ibiOn := true } } := by
  have hp : pendingPages (setI3c { s.i3c with ibiOn := true } s) = [] := (pendingPages_congr rfl rfl).trans h
  exact if_pos (by simp [hp])

theorem enec_of_pending (hr : s.i3c.inReset = false) (ho : s.i3c.ibiOn = false) (h : pendingPages s ≠ []) :
    enec s = { s with i3c := { s.i3c with ibiOn := true, ibiReq := true } } := by
  have hp : pendingPages (setI3c { s.i3c with ibiOn := true } s) ≠ [] := by
    rwa [pendingPages_congr (t := setI3c { s.i3c with ibiOn := true } s) rfl rfl]
  have he : enec s = requestIbi (setI3c { s.i3c with ibiOn := true } s) := if_neg (by simp [ho, hp])
  rw [he]
  exact if_pos (by simp [setI3c, hr])

theorem rstact_sets {b : BitVec 8} (hr : s.i3c.inReset = false) (hb : b.toNat ≤ 2) :
    rstact b s = { s with i3c := { s.i3c with rstact := b, reply := [], nack := false } } := by
  unfold rstact
  rw [if_neg (by simp [hr, Nat.not_lt.2 hb]), if_pos hb]
  rfl

theorem rstact_reads {b : BitVec 8} (hr : s.i3c.inReset = false) (ha : hasAddr s = true) (hb : 2 < b.toNat) :
    rstact b s = if b = 0x81 then i3cReply [0x01] s else if b = 0x82 then i3cReply [0x05] s else i3cNack s := by
  unfold rstact
  rw [if_neg (by simp [hr, ha]), if_neg (Nat.not_le.2 hb)]

/-! ## What the target answers (R38, R39) -/

/-- The provisional ID: the manufacturer's bits, part number 0x5120, STRAP[2:0] in PID[15:12]; the type bit
PID[32] is 0. -/
theorem provId_bytes (s : State) : beBytes (provId s) 6 =
    [BitVec.ofNat 8 (Config.mipiId % 2 ^ 15 / 2 ^ 7), BitVec.ofNat 8 (2 * Config.mipiId), 0x51, 0x20,
      BitVec.ofNat 8 (s.pins.strap.toNat % 8 * 16), 0x00] := by
  have hstrap : s.pins.strap.toNat % 8 < 8 := Nat.mod_lt _ (by decide)
  have hmipi : Config.mipiId % 2 ^ 15 < 2 ^ 15 := Nat.mod_lt _ (by decide)
  simp only [beBytes, leBytes, provId, List.reverse_cons, List.reverse_nil, List.nil_append, List.cons_append,
    List.cons.injEq, and_true]
  refine ⟨?_, ?_, ?_, ?_, ?_, ?_⟩ <;> apply BitVec.eq_of_toNat_eq
  all_goals simp only [BitVec.toNat_ofNat, BitVec.reduceToNat]
  all_goals omega

/-- GETSTATUS and GETCAPS: two bytes that are one free value's. -/
theorem freeReply_two (s : State) : freeReply 2 s = { s with
    i3c := { s.i3c with
      reply := [BitVec.ofNat 8 (Config.free s.free % 256),
        BitVec.ofNat 8 (Config.free s.free / 256 % 256)], nack := false }
    free := s.free + 1 } := rfl

end Sys2Proof.Machine

open Sys2Proof Sys2Proof.Machine

/-- Settles O15: the settings are updates of the target's own state; each answer is followed to its bytes. -/
theorem targetSettingsAndCharacteristics : Obligations.TargetSettingsAndCharacteristics := by
  unfold Obligations.TargetSettingsAndCharacteristics
  refine ⟨fun s hup hr => ?settings, fun s hup => ⟨fun hans => ?refusing, fun hans => ?answering⟩⟩
  case settings =>
    refine ⟨exec_of_up hup rfl (broadcast_of hr), exec_of_up hup rfl (broadcast_of hr),
      fun n => exec_of_up hup rfl (broadcast_of hr), fun n => exec_of_up hup rfl (broadcast_of hr),
      exec_of_up hup rfl (broadcast_of hr), fun _ hp => ?_, fun ho hp => ?_,
      fun b hb => exec_of_up hup rfl (rstact_sets hr hb), fun ha => ⟨?_, ?_⟩, fun direct hd => ?_⟩
    · exact exec_of_up hup rfl ((broadcast_of hr).trans (enec_of_none hp))
    · exact exec_of_up hup rfl ((broadcast_of hr).trans (enec_of_pending hr ho hp))
    · exact exec_of_up hup rfl (rstact_reads hr ha (by decide))
    · exact exec_of_up hup rfl (rstact_reads hr ha (by decide))
    · obtain ⟨hset, hothers, hregs, -⟩ := i3cFlag_sets (i := 5) (by decide) s
      obtain ⟨hrest, hi3c⟩ := i3cFlag_rest 5 s
      cases direct with
      | false => exact ⟨_, exec_of_up hup rfl (unsupportedCcc_broadcast hr), hset, hregs, hothers,
          (congrArg (fun t : State => { t with i3c := s.i3c }) hrest), hi3c⟩
      | true =>
        refine ⟨_, exec_of_up hup rfl (unsupportedCcc_direct hr (hd.resolve_left (by decide))), hset, hregs, hothers,
          (congrArg (fun t : State => { t with i3c := s.i3c }) hrest), ?_⟩
        exact congrArg (fun x : I3c => { x with reply := [], nack := true }) hi3c
  case refusing =>
    intro c hc
    have hnack {f : State → State} (h : exec c s = .next (whenUp .mgmt (addressed f) s)) :
        exec c s = .next (i3cNack s) := by
      rw [h, whenUp_of hup, addressed_not hans]
    simp only [List.mem_cons, List.not_mem_nil, or_false] at hc
    obtain rfl | rfl | rfl | rfl | rfl | rfl | rfl | rfl := hc <;> exact hnack rfl
  case answering =>
    intro answers
    have hnext {f : State → State} {c : Instr} (hc : exec c s = .next (whenUp .mgmt (addressed f) s)) :
        exec c s = .next (f s) := by rw [hc, whenUp_of hup, addressed_of hans]
    refine ⟨⟨_, hnext rfl, rfl⟩, ⟨_, hnext rfl, rfl⟩, ⟨_, hnext rfl, _, _, rfl, beBytes_two_toNat⟩,
      ⟨_, hnext rfl, _, _, _, rfl, beBytes_two_toNat⟩,
      ⟨_, hnext rfl, _, _, congrArg (fun bs => i3cReply bs s) (provId_bytes s), ?_⟩, ⟨_, hnext rfl, rfl⟩,
      fun c hc => ?_⟩
    · rw [BitVec.getLsbD_ofNat, Nat.testBit_zero]
      simp
    · simp only [List.mem_cons, List.not_mem_nil, or_false] at hc
      obtain rfl | rfl := hc <;> exact ⟨_, hnext rfl, _, _, freeReply_two s⟩

end

section
/-! Module resets (O8). -/

namespace Sys2Proof.Machine

/-! ## What a module reset leaves (R56, R480) -/

/-- A key that no entry has holds its initial value. -/
theorem mapGet_of_not_mem {α : Type} (d : Nat → α) (k : Nat) :
    ∀ {m : List (Nat × α)}, (∀ e ∈ m, e.1 ≠ k) → mapGet d m k = d k
  | [], _ => rfl
  | (k', v) :: m, h => by
    rw [mapGet_cons, if_neg (h _ List.mem_cons_self).symm]
    split
    · rfl
    · exact mapGet_of_not_mem d k fun e he => h e (List.mem_cons_of_mem _ he)

/-- Setting some sequencers' states changes nothing else. -/
theorem foldl_setSeq_eq (x : Seq) : ∀ (l : List Nat) (s : State), l.foldl (fun t q => setSeq t q x) s =
    { s with seqs := (l.foldl (fun t q => setSeq t q x) s).seqs }
  | [], _ => rfl
  | q :: l, s => foldl_setSeq_eq x l (setSeq s q x)

section
variable (fresh mgmt : Bool) (cause ph : Nat) (s : State)

/-- A reset module's state beside its registers. -/
theorem moduleReset_state :
    let t := moduleReset fresh mgmt cause ph s
    let lost := fresh || s.boot.dark
    t.clk = {} ∧ t.pantry = [] ∧ t.i3c = {} ∧ t.evLog = s.evLog ∧ t.spareMap = s.spareMap ∧ t.pending = s.pending ∧
      t.pins = s.pins ∧ t.stores = (if lost then [] else s.stores) ∧ t.committed = (if lost then [] else s.committed) ∧
      t.boot = { powered := s.boot.powered, ref := s.boot.ref, zeroFill := lost || s.boot.zeroFill } := by
  have h (l : List Nat) (u : State) := foldl_setSeq_eq { st := .storeBad } l u
  exact ⟨(congrArg State.clk (h _ _) :), (congrArg State.pantry (h _ _) :), (congrArg State.i3c (h _ _) :),
    (congrArg State.evLog (h _ _) :), (congrArg State.spareMap (h _ _) :), (congrArg State.pending (h _ _) :),
    (congrArg State.pins (h _ _) :), (congrArg State.stores (h _ _) :), (congrArg State.committed (h _ _) :),
    (congrArg State.boot (h _ _) :)⟩

/-- The registers of a reset module: those kept, and the four written at once. -/
theorem moduleReset_regs : ∃ u : State, u.regs = keptRegs (fresh || s.boot.dark) mgmt s ∧
    (moduleReset fresh mgmt cause ph s).regs =
      (wr (wr (wr (wr u .mgmt 0 0x040 23 0 0) .sys 0 0x050 cause cause 1) .sys 0 0x04C 3 0 ph)
        .nvm 0 0x10C 24 24 (b2n s.vimg.newerB)).regs :=
  ⟨_, (congrArg State.regs (foldl_setSeq_eq { st := .storeBad } _ _) :), rfl⟩

end

/-- A register that a module reset does not keep. -/
theorem getReg_of_keptRegs {lost mgmt : Bool} {s u : State} (hu : u.regs = keptRegs lost mgmt s) {a : Nat}
    (hc : a ≠ addrOf .sys 0 0x050) (hm : mgmt = true → a / 4096 ≠ ptBase .mgmt)
    (hf : ¬ (ptBase .flx ≤ a / 4096 ∧ a / 4096 < ptBase .flx + 32)) : getReg u a = regReset a := by
  unfold getReg
  rw [hu]
  refine mapGet_of_not_mem _ _ fun e he hea => ?_
  obtain ⟨-, hk⟩ := List.mem_filter.1 he
  subst hea
  simp only [Bool.or_eq_true, Bool.and_eq_true, decide_eq_true_eq] at hk
  obtain (hk | ⟨hg, hk⟩) | ⟨-, hk⟩ := hk
  · exact hc hk
  · exact hm hg hk
  · exact hf ⟨hk.1, hk.2.1⟩

section
variable {fresh mgmt : Bool} {cause ph : Nat} {s : State}

theorem getReg_moduleReset {a : Nat} (hc : a ≠ addrOf .sys 0 0x050) (hb : a ≠ addrOf .sys 0 0x04C)
    (hn : a ≠ addrOf .nvm 0 0x10C) (hm : a / 4096 ≠ ptBase .mgmt)
    (hf : ¬ (ptBase .flx ≤ a / 4096 ∧ a / 4096 < ptBase .flx + 32)) :
    getReg (moduleReset fresh mgmt cause ph s) a = regReset a := by
  obtain ⟨u, hu, hr⟩ := moduleReset_regs fresh mgmt cause ph s
  have hs : a ≠ addrOf .mgmt 0 0x040 := fun e => hm (by rw [e]; rfl)
  rw [getReg_congr hr, getReg_wr_ne _ _ _ _ _ _ _ hn, getReg_wr_ne _ _ _ _ _ _ _ hb, getReg_wr_ne _ _ _ _ _ _ _ hc,
    getReg_wr_ne _ _ _ _ _ _ _ hs]
  exact getReg_of_keptRegs hu hc (fun _ => hm) hf

/-- SYS.BOOT takes its reset value, and then the phase that start-up begins in. -/
theorem boot_moduleReset : reg (moduleReset fresh mgmt cause ph s) .sys 0 0x04C =
    fput (regReset (addrOf .sys 0 0x04C)) 3 0 ph := by
  obtain ⟨u, hu, hr⟩ := moduleReset_regs fresh mgmt cause ph s
  have hu0 : reg u .sys 0 0x04C = regReset (addrOf .sys 0 0x04C) :=
    getReg_of_keptRegs hu (by decide) (fun _ => by decide) (by decide)
  rw [reg_congr hr, reg_wr_ne _ _ _ _ _ _ _ (by decide), reg_wr_self, reg_wr_ne _ _ _ _ _ _ _ (by decide),
    reg_wr_ne _ _ _ _ _ _ _ (by decide), hu0]

/-- RESET_CAUSE shows the cause. -/
theorem cause_moduleReset (hc : cause < 32) : rdBit (moduleReset fresh mgmt cause ph s) .sys 0 0x050 cause = true := by
  obtain ⟨u, -, hr⟩ := moduleReset_regs fresh mgmt cause ph s
  rw [rdBit_congr hr, rdBit_wr_ne _ _ _ _ _ _ _ _ (by decide), rdBit_wr_ne _ _ _ _ _ _ _ _ (by decide),
    rdBit_wr_self _ _ _ _ _ _ _ _ (Nat.le_refl cause) hc]
  simp

/-- A reset that does not keep the MGMT page clears I3C_STAT, the dynamic address with it. -/
theorem i3cStat_moduleReset : reg (moduleReset fresh false cause ph s) .mgmt 0 0x040 = 0 := by
  obtain ⟨u, hu, hr⟩ := moduleReset_regs fresh false cause ph s
  have hu0 : reg u .mgmt 0 0x040 = 0 :=
    (getReg_of_keptRegs (a := addrOf .mgmt 0 0x040) hu (by decide) (by decide) (by decide)).trans (by decide)
  rw [reg_congr hr, reg_wr_ne _ _ _ _ _ _ _ (by decide), reg_wr_ne _ _ _ _ _ _ _ (by decide),
    reg_wr_ne _ _ _ _ _ _ _ (by decide), reg_wr_self, hu0]
  decide

/-- Start-up begins in a phase: the registers but for those that tell of the reset stand at their reset values, time is zero,
and what NVM holds stays. -/
def Begun (s : State) (ph : Nat) (t : State) : Prop :=
  (∀ a, a ≠ addrOf .sys 0 0x050 → a ≠ addrOf .sys 0 0x04C → a ≠ addrOf .nvm 0 0x10C → a / 4096 ≠ ptBase .mgmt →
    ¬ (ptBase .flx ≤ a / 4096 ∧ a / 4096 < ptBase .flx + 32) → getReg t a = regReset a) ∧
  phase t = ph ∧ rdBit t .sys 0 0x04C 31 = false ∧ t.clk = {} ∧ t.pantry = [] ∧ t.i3c = {} ∧
  t.evLog = s.evLog ∧ t.spareMap = s.spareMap ∧ t.pending = s.pending

theorem begun_moduleReset (hph : ph < 16) : Begun s ph (moduleReset fresh mgmt cause ph s) := by
  obtain ⟨hclk, hpantry, hi3c, hlog, hmap, hpend, -⟩ := moduleReset_state fresh mgmt cause ph s
  refine ⟨fun a hc hb hn hm hf => getReg_moduleReset hc hb hn hm hf, ?_, ?_, hclk, hpantry, hi3c, hlog, hmap, hpend⟩
  · unfold phase rd
    rw [boot_moduleReset, fget_fput_self _ _ _ _ (by decide) (by decide)]
    exact Nat.mod_eq_of_lt hph
  · unfold rdBit
    rw [boot_moduleReset, wbit_fput _ _ _ _ _ (by decide) (by decide)]
    rfl

/-- Supply, pins and the map's cleared entries do not count. -/
theorem Begun.frame {t : State} (h : Begun s ph t) (boot : Boot) (pins : Pins) (mapOld : List (Nat × Nat)) :
    Begun s ph { t with boot, pins, mapOld } := h

/-- What RESET_CAUSE holds does not count. -/
theorem Begun.setCause {t : State} (h : Begun s ph t) (v : Word) : Begun s ph (setReg t (addrOf .sys 0 0x050) v) := by
  obtain ⟨hregs, hphase, hready, hrest⟩ := h
  have hboot : reg (setReg t (addrOf .sys 0 0x050) v) .sys 0 0x04C = reg t .sys 0 0x04C := getReg_setReg_ne _ _ (by decide)
  refine ⟨fun a hc hb hn hm hf => ?_, (phase_congr hboot).trans hphase, ?_, hrest⟩
  · rw [getReg_setReg_ne _ _ hc]
    exact hregs a hc hb hn hm hf
  · unfold rdBit at hready ⊢
    rwa [hboot]

end

/-! ## The commands -/

section
variable {s : State}

theorem powerOn_of_powered {straps : BitVec 4} (h : s.boot.powered = true) : powerOn straps s = s := if_pos h

theorem powerOn_of_dark {straps : BitVec 4} (h : s.boot.powered = false) : powerOn straps s =
    let r := setReg (moduleReset true false 0 1 s) (addrOf .sys 0 0x050) 1
    { r with
      mapOld := []
      pins := { r.pins with strap := straps }
      boot := { r.boot with powered := true, inReset := !r.pins.rstN, zeroFill := true } } :=
  if_neg (Bool.not_eq_true _ ▸ h)

theorem powerLoss_eq (s : State) : powerLoss s =
    let r := moduleReset true false 0 1 s
    { r with boot := { r.boot with powered := false } } := rfl

/-- RST_N has fallen. -/
def rstLow (s : State) : State := { s with pins := { s.pins with rstN := false } }

theorem rstNAssert_of_powered (h : s.boot.powered = true) : rstNAssert s =
    let r := moduleReset false false 1 1 (rstLow s)
    { r with boot := { r.boot with inReset := true } } :=
  if_neg (by simp [h])

theorem rstNRelease_of_powered {straps : BitVec 4} (h : s.boot.powered = true) : rstNRelease straps s = { s with
    pins := { s.pins with rstN := true, strap := straps }
    boot := { s.boot with inReset := false, target := false } } :=
  if_neg (by simp [h])

theorem swrst_of_key : swrst 0x5120 s = moduleReset false true 3 1 s := if_pos (by decide)

theorem swrst_of_other {v : Word} (h : v ≠ 0x5120) : swrst v s = s := by
  refine if_neg fun e => h ?_
  exact BitVec.eq_of_toNat_eq e

theorem shutdownExit_of (h : s.boot.shutdown = true) (ha : s.therm.auto = true) :
    shutdownExit s = applyDemand (moduleReset true true 4 2 s) := if_pos (by simp [h, ha])

theorem brownoutRestart_of (h : s.boot.dark = true) (hn : s.boot.shutdown = false) :
    brownoutRestart s = applyDemand (moduleReset true true 5 2 s) := if_pos (by simp [h, hn])

end

end Sys2Proof.Machine

open Sys2Proof Sys2Proof.Machine

/-- Settles O8: every clause is a module reset (`moduleReset_state`, `begun_moduleReset`) under its cause. -/
theorem moduleResetsFollowTheirTable : Obligations.ModuleResetsFollowTheirTable := by
  unfold Obligations.ModuleResetsFollowTheirTable
  intro s lost begun
  have hnext {f : State → State} {c : Instr} {t : State} (hc : exec c s = .next (f s)) (h : f s = t) :
      exec c s = .next t := hc.trans (congrArg Host.Outcome.next h)
  refine ⟨fun straps hp => ?powerOn, fun straps hp => ?powered, ?powerLoss, fun hp => ?rstN, fun straps hp => ?release,
    fun hup => ?swrst, fun v hv hup => ?otherKey, fun ha hs hauto => ?shutdown, fun ha hd hs => ?brownout⟩
  case powerOn =>
    have hexec : exec (.powerOn straps) s = .next _ := hnext rfl (powerOn_of_dark hp)
    have hstate := moduleReset_state true false 0 1 s
    have hbegun : Begun s 1 (moduleReset true false 0 1 s) := begun_moduleReset (by decide)
    have hi3c : reg (moduleReset true false 0 1 s) .mgmt 0 0x040 = 0 := i3cStat_moduleReset
    obtain ⟨r, hr⟩ := exists_eq (a' := moduleReset true false 0 1 s)
    rw [← hr] at hexec hstate hbegun hi3c
    obtain ⟨-, -, -, -, -, -, hpins, hstores, hcommitted, -⟩ := hstate
    exact ⟨_, hexec, (hbegun.setCause 1).frame _ _ _, ⟨hstores, hcommitted⟩, getReg_setReg_self _ _ _, rfl, rfl,
      congrArg (fun x : Pins => !x.rstN) hpins, rfl, (getReg_setReg_ne _ _ (by decide)).trans hi3c⟩
  case powered => exact hnext rfl (powerOn_of_powered hp)
  case powerLoss =>
    have hexec : exec .powerLoss s = .next _ := hnext rfl (powerLoss_eq s)
    have hstate := moduleReset_state true false 0 1 s
    have hbegun : Begun s 1 (moduleReset true false 0 1 s) := begun_moduleReset (by decide)
    obtain ⟨r, hr⟩ := exists_eq (a' := moduleReset true false 0 1 s)
    rw [← hr] at hexec hstate hbegun
    obtain ⟨-, -, -, -, -, -, -, hstores, hcommitted, -⟩ := hstate
    exact ⟨_, hexec, hbegun.frame _ _ _, ⟨hstores, hcommitted⟩, rfl⟩
  case rstN =>
    have hexec : exec .rstNAssert s = .next _ := hnext rfl (rstNAssert_of_powered hp)
    have hstate := moduleReset_state false false 1 1 (rstLow s)
    have hbegun : Begun s 1 (moduleReset false false 1 1 (rstLow s)) := begun_moduleReset (by decide)
    have hcause : rdBit (moduleReset false false 1 1 (rstLow s)) .sys 0 0x050 1 = true := cause_moduleReset (by decide)
    have hi3c : reg (moduleReset false false 1 1 (rstLow s)) .mgmt 0 0x040 = 0 := i3cStat_moduleReset
    obtain ⟨r, hr⟩ := exists_eq (a' := moduleReset false false 1 1 (rstLow s))
    rw [← hr] at hexec hstate hbegun hcause hi3c
    obtain ⟨-, -, -, -, -, -, hpins, hstores, -⟩ := hstate
    exact ⟨_, hexec, hbegun.frame _ _ _, hcause, rfl, congrArg Pins.rstN hpins,
      fun hd => hstores.trans (if_neg (by simp [rstLow, hd])), hi3c⟩
  case release => exact hnext rfl (rstNRelease_of_powered hp)
  case swrst =>
    obtain ⟨-, -, -, -, -, -, -, hstores, -⟩ := moduleReset_state false true 3 1 s
    refine ⟨_, hnext rfl ((whenReg_of hup).trans swrst_of_key), begun_moduleReset (by decide),
      cause_moduleReset (by decide), fun hd => ?_⟩
    exact hstores.trans (if_neg (by simp [hd]))
  case otherKey => exact hnext rfl ((whenReg_of hup).trans (swrst_of_other hv))
  case shutdown =>
    obtain ⟨-, -, -, -, -, -, hpins, hstores, hcommitted, hboot⟩ := moduleReset_state true true 4 2 s
    refine ⟨_, hnext rfl ((whenAlive_of ha).trans (shutdownExit_of hs hauto)), _, begun_moduleReset (by decide),
      ⟨hstores, hcommitted⟩, cause_moduleReset (by decide), congrArg Boot.zeroFill hboot,
      congrArg Boot.shutdown hboot, hpins, rfl⟩
  case brownout =>
    obtain ⟨-, -, -, -, -, -, hpins, hstores, hcommitted, hboot⟩ := moduleReset_state true true 5 2 s
    refine ⟨_, hnext rfl ((whenAlive_of ha).trans (brownoutRestart_of hd hs)), _, begun_moduleReset (by decide),
      ⟨hstores, hcommitted⟩, cause_moduleReset (by decide), congrArg Boot.zeroFill hboot,
      congrArg Boot.dark hboot, hpins, rfl⟩

end

section
/-! The resets that a Target Reset Pattern performs, and their end (O18). -/

namespace Sys2Proof.Machine

variable {s : State}

theorem targetReset_of_none (h : s.i3c.rstact = 0x00) : targetReset s = s := by simp [targetReset, h]

theorem targetReset_of_peripheral (h : s.i3c.rstact = 0x01) : targetReset s = peripheralReset s := if_pos h

theorem targetReset_of_whole (h : s.i3c.rstact = 0x02) : targetReset s =
    let r := moduleReset false false 2 1 s
    { r with boot := { r.boot with target := true } } := by
  simp [targetReset, h]

/-- The target logic reset: I3C_STAT loses its flags and keeps the dynamic address, and no other register changes. -/
theorem peripheralReset_resets (s : State) :
    rd (peripheralReset s) .mgmt 0 0x040 23 0 = 0 ∧
      rd (peripheralReset s) .mgmt 0 0x040 31 24 = rd s .mgmt 0 0x040 31 24 ∧
      regsBut [addrOf .mgmt 0 0x040] s (peripheralReset s) ∧
      { peripheralReset s with regs := s.regs, i3c := s.i3c } = s ∧ (peripheralReset s).i3c = { inReset := true } :=
  ⟨rd_wr_self _ _ _ _ _ _ _ (by decide) (by decide),
    rd_wr_field { s with i3c := { inReset := true } } _ _ _ _ _ _ _ _ (by decide) (by decide) (.inr (by decide)),
    regsBut_wr { s with i3c := { inReset := true } } _ _ _ _ _ _ (by simp), rfl, rfl⟩

theorem targetDone_of_working (h : s.i3c.inReset = false) :
    targetDone s = { s with boot := { s.boot with target := false } } := if_pos (by simp [h])

/-- At its reset's end the target asks anew for what is pending. -/
theorem targetDone_of_inReset (h : s.i3c.inReset = true) : targetDone s = { s with
    boot := { s.boot with target := false }
    i3c := { s.i3c with
      inReset := false
      ibiReq := s.i3c.ibiReq || (s.i3c.ibiOn && decide (pendingPages (targetDone s) ≠ [])) } } := by
  let u : State := { s with boot := { s.boot with target := false }, i3c := { s.i3c with inReset := false } }
  have hdone : targetDone s = if (pendingPages u).isEmpty then u else requestIbi u := if_neg (by simp [h])
  have hpages : pendingPages (targetDone s) = pendingPages u := by
    rw [hdone]
    split
    · rfl
    · exact pendingPages_congr (requestIbi_regs ..) (requestIbi_boot ..)
  rw [hpages, hdone]
  by_cases hp : pendingPages u = []
  · simp [hp, u]
  · simp [hp, u, requestIbi_eq]

end Sys2Proof.Machine

open Sys2Proof Sys2Proof.Machine

/-- Settles O18: by the action set, and for the end of a reset by whether the target logic is in one. -/
theorem targetResetPerformsTheActionSet : Obligations.TargetResetPerformsTheActionSet := by
  unfold Obligations.TargetResetPerformsTheActionSet
  intro s hup
  refine ⟨fun h => exec_of_up hup rfl (targetReset_of_none h), fun h => ?peripheral, fun h => ?whole,
    fun h => congrArg Host.Outcome.next (targetDone_of_working h), fun h => ⟨_, rfl, targetDone_of_inReset h⟩⟩
  case peripheral =>
    obtain ⟨hflags, haddr, hregs, hrest, hi3c⟩ := peripheralReset_resets s
    refine ⟨_, exec_of_up hup rfl (targetReset_of_peripheral h), hflags, haddr, hregs, hrest, ?_⟩
    rw [hi3c]
    exact ⟨rfl, rfl, rfl, rfl, rfl, rfl, rfl, rfl⟩
  case whole =>
    have hexec : exec .targetResetPattern s = .next _ := exec_of_up hup rfl (targetReset_of_whole h)
    have hstate := moduleReset_state false false 2 1 s
    have hbegun : Begun s 1 (moduleReset false false 2 1 s) := begun_moduleReset (by decide)
    have hcause : rdBit (moduleReset false false 2 1 s) .sys 0 0x050 2 = true := cause_moduleReset (by decide)
    obtain ⟨r, hr⟩ := exists_eq (a' := moduleReset false false 2 1 s)
    rw [← hr] at hexec hstate hbegun hcause
    obtain ⟨hclk, -, hi3c, -, -, -, -, hstores, -⟩ := hstate
    obtain ⟨-, hphase, -⟩ := hbegun
    exact ⟨_, hexec, rfl, hcause, hphase, hi3c, hclk, fun hd => hstores.trans (if_neg (by simp [hd]))⟩

end

section
/-! Soft resets of the pages whose block has no outputs: CRC, TBUS, EVT, HEALTH (O13). -/

namespace Sys2Proof.Machine

/-! ## Settling the router's lines leaves the stores -/

theorem foldl_stores {β : Type} {f : State → β → State} (hf : ∀ s b, (f s b).stores = s.stores) (l : List β) (s : State) :
    (l.foldl f s).stores = s.stores :=
  foldl_rel (fun s t => t.stores = s.stores) (fun _ => rfl) (fun _ _ _ h h' => h'.trans h) f hf l s

theorem raiseBit_stores (pt : PT) (n off i : Nat) (s : State) : (raiseBit pt n off i s).stores = s.stores := by
  rw [raiseBit_eq]
  rfl

theorem settleLine_stores (x : BitVec 48) (s : State) (line : Nat) : (settleLine x s line).stores = s.stores := by
  have hbit (off l : Nat) (t : State) : (setLineBit off l t).stores = t.stores := raiseBit_stores ..
  have hdrop (t : State) : (dropFire t).stores = t.stores := raiseEvt_stores ..
  unfold settleLine
  extract_lets s1 note limit counts s2
  have h1 : s1.stores = s.stores := hbit ..
  have h2 : s2.stores = s.stores := (wr_stores ..).trans ((hbit ..).trans h1)
  split
  · exact h1
  · split
    · exact (hdrop _).trans h1
    · split
      · exact (hdrop _).trans ((raiseFault_stores ..).trans h2)
      · exact h1

theorem settleInput_stores (x : BitVec 48) (s : State) (i : Nat) : (settleInput x s i).stores = s.stores := by
  unfold settleInput
  split
  · rfl
  · rfl
  · exact (raiseEvt_stores ..).trans (raiseBit_stores .evt 0 _ 31 _)

theorem settleTick_stores (x : BitVec 48) (s : State) : (settleTick x s).stores = s.stores := by
  refine (foldl_stores (settleInput_stores x) ..).trans ((foldl_stores (settleLine_stores x) ..).trans ?_)
  split
  · rfl
  · rfl

theorem atTick_stores (x : BitVec 48) {f : State → State} (hf : ∀ s, (f s).stores = s.stores) (s : State) :
    (atTick x f s).stores = s.stores := by
  unfold atTick
  split
  · exact hf s
  · exact hf { s with clk := { s.clk with tc := x } }

theorem lineCatch_stores (s : State) : (lineCatch s).stores = s.stores := by
  unfold lineCatch
  exact foldl_stores (fun _ x => atTick_stores x (settleTick_stores x) _) _ s

/-! ## The registers of the page (R50, R453) -/

/-- What becomes of a register of the page that was not at its reset value: the bits that stay are put back. -/
def putBack (pt : PT) (n : Nat) (t : State) (e : Nat × Word) : State :=
  if keptBits pt n (e.1 % 4096) = 0 then t
  else setReg t e.1 (maskedValue (getReg t e.1) (keptBits pt n (e.1 % 4096)) e.2)

section
variable {pg n : Nat} {pt : PT} {s : State}

theorem resetRegs_of (hpg : pageOf pg = some (pt, n)) : resetRegs pg s =
    (mapTake s.regs (pg * 4096) (pg * 4096 + 4096)).foldl (putBack pt n)
      { s with regs := mapDrop s.regs (pg * 4096) (pg * 4096 + 4096) } := by
  unfold resetRegs
  rw [hpg]
  rfl

theorem getReg_putBack_ne {t : State} {e : Nat × Word} {a : Nat} (h : a ≠ e.1 ∨ keptBits pt n (e.1 % 4096) = 0) :
    getReg (putBack pt n t e) a = getReg t a := by
  unfold putBack
  split
  · rfl
  · rename_i hk
    exact getReg_setReg_ne _ _ (h.resolve_right hk)

theorem putBack_rest (t : State) (e : Nat × Word) : { putBack pt n t e with regs := t.regs } = t := by
  unfold putBack
  split <;> rfl

/-- Registers put back, none of them at an address, leave it as it was. -/
theorem getReg_foldl_putBack {a : Nat} : ∀ {l : List (Nat × Word)} {t : State},
    (∀ e ∈ l, a ≠ e.1 ∨ keptBits pt n (e.1 % 4096) = 0) → getReg (l.foldl (putBack pt n) t) a = getReg t a
  | [], _, _ => rfl
  | e :: _, _, h => (getReg_foldl_putBack fun d hd => h d (List.mem_cons_of_mem _ hd)).trans
      (getReg_putBack_ne (h e List.mem_cons_self))

/-- A register none of whose bits stay takes its reset value. -/
theorem getReg_resetRegs_of_reset (hpg : pageOf pg = some (pt, n)) {a : Nat} (ha : a / 4096 = pg)
    (hk : keptBits pt n (a % 4096) = 0) : getReg (resetRegs pg s) a = regReset a := by
  rw [resetRegs_of hpg, getReg_foldl_putBack]
  · refine mapGet_of_not_mem _ _ fun e he hea => ?_
    have hout := of_decide_eq_true (List.mem_filter.1 he).2
    omega
  · intro e _
    by_cases hae : a = e.1
    · exact .inr (hae ▸ hk)
    · exact .inl hae

/-- The registers of the other pages stay. -/
theorem getReg_resetRegs_of_other (hpg : pageOf pg = some (pt, n)) (hok : s.regsOk) {a : Nat} (ha : a / 4096 ≠ pg) :
    getReg (resetRegs pg s) a = getReg s a := by
  rw [resetRegs_of hpg, getReg_foldl_putBack]
  · exact (mapGet_mapDrop _ _ _ hok).trans (if_neg (by omega))
  · intro e he
    have hin := of_decide_eq_true (List.mem_filter.1 he).2
    exact .inl (by omega)

/-- A reset of a page's registers changes nothing else. -/
theorem resetRegs_rest (hpg : pageOf pg = some (pt, n)) : { resetRegs pg s with regs := s.regs } = s := by
  rw [resetRegs_of hpg]
  have hfold {s : State} {l : List (Nat × Word)} : { l.foldl (putBack pt n) s with regs := s.regs } = s :=
    foldl_rel (fun s t => { t with regs := s.regs } = s) (fun _ => rfl)
    (fun s t u h h' => (congrArg (fun t : State => { t with regs := s.regs }) h').trans h) _ putBack_rest _ _
  exact congrArg (fun t : State => { t with regs := s.regs }) hfold

end

/-! ## The page (R50, R480) -/

/-- A page in reset reads RESETTING, and what belongs to it in the path machinery is gone. -/
def markedResetting (pg : Nat) (s : State) : State :=
  { dropPageWork pg s with resetting := pg :: s.resetting.filter (· ≠ pg) }

/-- A soft reset of a page whose block has nothing to stop. -/
theorem softReset_quiet {s : State} {pg : Nat} {pt : PT} (hpg : pageOf pg = some (pt, 0))
    (hpt : pt ∈ [PT.crc, .tbus, .evt, .health]) (hb : blockBusy (enableFrom pt s) pt 0 = false) :
    softReset pg s = resetWork pt 0 (resetRegs pg (markedResetting pg (enableFrom pt s))) := by
  have hquiet : (if hasStop (enableFrom pt s) pt 0 then stopBlock pt 0 (enableFrom pt s) else enableFrom pt s) =
      enableFrom pt s := by
    refine if_neg ?_
    simp only [List.mem_cons, List.not_mem_nil, or_false] at hpt
    obtain rfl | rfl | rfl | rfl := hpt <;> simp [hasStop, hb]
  have hreset := congrArg (fun b => resetWork pt 0 (resetRegs pg (markedResetting pg b))) hquiet
  unfold softReset
  rw [hpg]
  simp only [List.mem_cons, List.not_mem_nil, or_false] at hpt
  obtain rfl | rfl | rfl | rfl := hpt <;> exact hreset

/-- The router out of service keeps no activation on its way. -/
theorem mem_items_routerEnabled {s : State} (h : enabled s .evt 0 = false) (x : Item) :
    x ∈ (routerEnabled s).items ↔ x ∈ s.items ∧ ∀ i, x.load ≠ .act i := by
  unfold routerEnabled
  rw [if_neg (by simp [h])]
  refine List.mem_filter.trans (and_congr_right fun _ => ?_)
  cases hload : x.load <;> simp [hload]

theorem routerEnabled_keeps (s : State) : (routerEnabled s).regs = s.regs ∧ (routerEnabled s).resetting = s.resetting ∧
    (routerEnabled s).stores = s.stores ∧ (routerEnabled s).groups = s.groups := by
  unfold routerEnabled
  split <;> exact ⟨rfl, rfl, rfl, rfl⟩

/-- The working state of these blocks is neither registers, stores nor shots; the router's is items too. -/
theorem resetWork_quiet {pt : PT} (hpt : pt ∈ [PT.crc, .tbus, .evt, .health]) (s : State) :
    (resetWork pt 0 s).regs = s.regs ∧ (resetWork pt 0 s).resetting = s.resetting ∧
      (resetWork pt 0 s).stores = s.stores ∧ (resetWork pt 0 s).groups = s.groups ∧
      (pt ≠ .evt → (resetWork pt 0 s).items = s.items) := by
  simp only [List.mem_cons, List.not_mem_nil, or_false] at hpt
  obtain rfl | rfl | rfl | rfl := hpt
  · exact ⟨rfl, rfl, rfl, rfl, fun _ => rfl⟩
  · exact ⟨rfl, rfl, rfl, rfl, fun _ => rfl⟩
  · obtain ⟨hr, hp, hs, hg⟩ := routerEnabled_keeps s
    exact ⟨hr, hp, hs, hg, fun h => absurd rfl h⟩
  · exact ⟨rfl, rfl, rfl, rfl, fun _ => rfl⟩

theorem keptBits_quiet {pt : PT} (hpt : pt ∈ [PT.crc, .tbus, .evt, .health]) {off : Nat} (ho : off ≠ 0x020) :
    keptBits pt 0 off = 0 := by
  unfold keptBits
  rw [if_neg ho]
  simp only [List.mem_cons, List.not_mem_nil, or_false] at hpt
  obtain rfl | rfl | rfl | rfl := hpt <;> rfl

/-! ## The end of the reset -/

theorem softResetDone_of_not {pg : Nat} {s : State} (h : s.resetting.contains pg = false) : softResetDone pg s = s :=
  if_pos (by simpa using h)

/-- With no image accepted for the page its reset ends, and nothing else happens. -/
theorem softResetDone_quiet {pg : Nat} {pt : PT} {s : State} (hpg : pageOf pg = some (pt, 0))
    (hpt : pt ∈ [PT.crc, .tbus, .evt, .health]) (h : s.resetting.contains pg = true)
    (hacc : ∀ e ∈ s.accepted, (storePage e.store).1 ≠ pt) :
    softResetDone pg s = { s with resetting := s.resetting.filter (· ≠ pg) } := by
  have hnone : s.accepted.filter (fun e => decide ((storePage e.store).1 = pt ∧ (storePage e.store).2.1 = 0)) = [] :=
    List.filter_eq_nil_iff.2 fun e he => by simp [hacc e he]
  have hcopies : (s.accepted.filter (fun e => decide ((storePage e.store).1 = pt ∧ (storePage e.store).2.1 = 0))).foldl
      copyImage s = s := by rw [hnone]; rfl
  unfold softResetDone
  rw [if_neg (by simpa using h), hpg]
  simp only [List.mem_cons, List.not_mem_nil, or_false] at hpt
  obtain rfl | rfl | rfl | rfl := hpt <;>
    exact congrArg (fun t : State => { t with resetting := t.resetting.filter (· ≠ pg) }) hcopies

end Sys2Proof.Machine

open Sys2Proof Sys2Proof.Machine

/-- Settles O13: the soft reset is that of the page's registers (`resetRegs`) and of its block's working state. -/
theorem softResetRestoresThePage : Obligations.SoftResetRestoresThePage := by
  unfold Obligations.SoftResetRestoresThePage
  intro s pg pt hpg hpt b hb t
  have hbase : ptBase pt + 0 = pg.val := (pageOf_eq_some hpg).1.symm
  have ht : t = resetWork pt 0 (resetRegs pg.val (markedResetting pg.val b)) := softReset_quiet hpg hpt hb
  obtain ⟨hregs, hresetting, hstores, hgroups, hitems⟩ :=
    resetWork_quiet hpt (resetRegs pg.val (markedResetting pg.val b))
  have hrest : { resetRegs pg.val (markedResetting pg.val b) with regs := b.regs } = markedResetting pg.val b :=
    resetRegs_rest (s := markedResetting pg.val b) hpg
  have hpage (off : Nat) (ho : off < 4096) (hs : off ≠ 0x020) : reg t pt 0 off = regReset (addrOf pt 0 off) := by
    have hdiv : addrOf pt 0 off / 4096 = pg.val := (addrOf_page ho).trans hbase
    have hmod : addrOf pt 0 off % 4096 = off := by
      unfold addrOf
      omega
    rw [ht]
    refine (getReg_congr hregs _).trans (getReg_resetRegs_of_reset hpg hdiv ?_)
    rw [hmod]
    exact keptBits_quiet hpt hs
  refine ⟨hpage, fun hok a ha => ?others, ?resetting, ?stores, ?groups, fun x => ?items, fun u hu hr hacc => ?done,
    fun u hr => ?notResetting⟩
  case others =>
    rw [ht, getReg_congr hregs]
    exact getReg_resetRegs_of_other hpg (s := markedResetting pg.val b) hok ha
  case resetting =>
    have h : t.resetting = pg.val :: b.resetting.filter (· ≠ pg.val) := by
      rw [ht, hresetting]
      exact (congrArg State.resetting hrest :)
    unfold isResetting
    rw [h, hbase]
    simp
  case stores =>
    rw [ht, hstores]
    refine (congrArg State.stores hrest :).trans ?_
    change b.stores = s.stores
    unfold b
    split
    · exact lineCatch_stores s
    · rfl
  case groups =>
    rw [ht, hgroups]
    exact (congrArg State.groups hrest :)
  case items =>
    have hkept : (resetRegs pg.val (markedResetting pg.val b)).items = b.items := (congrArg State.items hrest :)
    by_cases he : pt = .evt
    · subst he
      have hoff : enabled (resetRegs pg.val (markedResetting pg.val b)) .evt 0 = false := by
        have hctrl : reg (resetRegs pg.val (markedResetting pg.val b)) .evt 0 0x008 = 0 :=
          (getReg_congr hregs _).symm.trans ((congrArg (getReg · _) ht.symm).trans (hpage 0x008 (by decide) (by decide)))
        unfold enabled rdBit
        rw [hctrl, Bool.and_comm]
        rfl
      rw [ht]
      refine (mem_items_routerEnabled hoff x).trans ?_
      rw [hkept]
      exact and_congr_right fun _ => ⟨fun h _ => h, fun h => h rfl⟩
    · rw [ht, hitems he, hkept]
      simp [he]
  case done =>
    have hr' : u.resetting.contains pg.val = true := hbase ▸ hr
    exact congrArg Host.Outcome.next ((whenAlive_of hu).trans (softResetDone_quiet hpg hpt hr' hacc))
  case notResetting =>
    have hr' : u.resetting.contains pg.val = false := hbase ▸ hr
    refine congrArg Host.Outcome.next ?_
    cases ha : alive u with
    | false => exact whenAlive_not ha
    | true => exact (whenAlive_of ha).trans (softResetDone_of_not hr')

end

section
/-! The reset state (O3). -/

open Sys2Proof Sys2Proof.Machine

/-- Settles O3: nothing is listed, so every register reads its reset value and every table is canonical. -/
theorem resetIsTheStateAfterPowerOn : Obligations.ResetIsTheStateAfterPowerOn := by
  unfold Obligations.ResetIsTheStateAfterPowerOn
  intro s
  have hregs (a : Nat) : getReg s a = regReset a := mapGet_nil ..
  have hcause : rd s .sys 0 0x050 31 0 = 1 := congrArg (fget · 31 0) (hregs _)
  have hboot : reg s .sys 0 0x04C = regReset (addrOf .sys 0 0x04C) := hregs _
  refine ⟨hregs, hcause, congrArg (fget · 3 0) hboot, congrArg (wbit · 31) hboot, rfl, rfl, rfl, ?stores⟩
  case stores =>
    exact ⟨bytesOk_nil, by simp [s, State.reset], bytesOk_nil, by simp [s, State.reset], by simp [s, State.reset],
      bytesOk_nil, trivial, trivial, trivial, trivial, rfl⟩

end

section
/-! Start-up phases, the pins that reach the module, and the bypass (O9). -/

namespace Sys2Proof.Machine

variable {s : State}

/-! ## Start-up phases (R59, R60, R62) -/

/-- The field PHASE written: the register changes in that field. -/
theorem phase_written (s : State) {ph : Nat} (h : ph < 16) : phase (wr s .sys 0 0x04C 3 0 ph) = ph := by
  unfold phase
  rw [rd_wr_self _ _ _ _ _ _ _ (by decide) (by decide)]
  exact Nat.mod_eq_of_lt h

/-- Another field of SYS.BOOT written: PHASE stays. -/
theorem phase_wr_boot (s : State) {hi lo : Nat} (v : Nat) (hl : 3 < lo) (hh : lo ≤ hi) (h : hi < 32) :
    phase (wr s .sys 0 0x04C hi lo v) = phase s :=
  rd_wr_field _ _ _ _ _ _ _ _ _ hh h (.inl hl)

/-- A bit of SYS.BOOT written. -/
theorem rdBit_wr_bit (s : State) (pt : PT) (n off : Nat) {i : Nat} (hi : i < 32) (v : Bool) :
    rdBit (wr s pt n off i i (b2n v)) pt n off i = v := by
  rw [rdBit_wr_self _ _ _ _ _ _ _ _ (Nat.le_refl i) hi, if_pos ⟨Nat.le_refl i, Nat.le_refl i⟩, Nat.sub_self]
  cases v <;> rfl

/-- A bit written leaves the register's other bits. -/
theorem rdBit_wr_other (s : State) (pt : PT) (n off v : Nat) {i j : Nat} (hi : i < 32) (h : j ≠ i) :
    rdBit (wr s pt n off i i v) pt n off j = rdBit s pt n off j := by
  rw [rdBit_wr_self _ _ _ _ _ _ _ _ (Nat.le_refl i) hi, if_neg (by omega)]

section
variable {bad : BitVec 32} {rows : List Nat}
  (hready : rdBit s .sys 0 0x04C 31 = false) (hfail : rdBit s .sys 0 0x04C 30 = false) (hdark : s.boot.dark = false)
include hready hfail hdark

/-- Phase 3 waits while REF_IN is absent. -/
theorem startupPhaseDone_waits (hp : phase s = 3) (hr : refOk s = false) (ok : Bool) :
    startupPhaseDone ok bad rows s = s := by
  simp [startupPhaseDone, hready, hfail, hdark, hp, hr]

/-- A phase that fails sets FAIL and is logged. -/
theorem startupPhaseDone_fails (h3 : phase s ≠ 3) (h4 : phase s ≠ 4) :
    startupPhaseDone false bad rows s = logEvent 7 (addrOf .sys 0 0) (phase s) (wr s .sys 0 0x04C 30 30 1) := by
  simp [startupPhaseDone, hready, hfail, hdark, h3, h4]

/-- A phase that waits for nothing gives way to what its end does, and the next begins. -/
theorem startupPhaseDone_ends (h3 : phase s = 3 → refOk s = true) (h4 : phase s ≠ 4) :
    startupPhaseDone true bad rows s =
      if phase s = 8 then bypassUpdate (wr (phaseEnds (phase s) bad rows s) .sys 0 0x04C 31 31 1)
      else phaseBegins (phase s + 1) (phaseEnds (phase s) bad rows s) := by
  have hwaits : ¬ ((phase s = 3 && !refOk s) || (phase s = 4 && s.therm.lstop)) = true := by
    by_cases hp : phase s = 3 <;> simp [hp, h4, h3]
  unfold startupPhaseDone
  simp only [hready, hfail, hdark, Bool.or_self, Bool.false_eq_true, if_false]
  rw [if_neg hwaits]
  rfl

end

theorem phaseBegins_of_ne {ph : Nat} (h : ph ≠ 3) (s : State) : phaseBegins ph s = wr s .sys 0 0x04C 3 0 ph := if_neg h

/-- An entry of the event log: its number counts on, and of the registers only the events of the NVM page may change. -/
theorem logEvent_spec (cause page detail : Nat) (s : State) :
    (logEvent cause page detail s).logSeq = s.logSeq + 1 ∧
      regsBut [addrOf .nvm 0 0x010] s (logEvent cause page detail s) := by
  unfold logEvent raiseEvtIf
  extract_lets e full s1
  split
  · exact ⟨raiseEvt_logSeq .., regsBut_raiseEvt _ _ _ _ (by simp)⟩
  · exact ⟨rfl, fun _ _ => rfl⟩

/-! ## The pins (R48, R60) -/

theorem refReturn_spec (s : State) : (refReturn s).pins = s.pins ∧
    (refReturn s).boot.ref = some (nbit s.pins.strap.toNat 3) ∧ phase (refReturn s) = phase s ∧
    regsBut [addrOf .sys 0 0x04C, addrOf .time 0 0x0AC] s (refReturn s) := by
  unfold refReturn
  extract_lets _ s1
  split
  · exact ⟨rfl, rfl, phase_wr_boot s1 0 (by decide) (by decide) (by decide), regsBut_wr s1 _ _ _ _ _ _ (by simp)⟩
  · split
    · exact ⟨rfl, rfl, rfl, fun _ _ => rfl⟩
    · have hr : regsBut [addrOf .time 0 0x0AC] s1 (wr (wr s1 .time 0 0x0AC 30 30 1) .time 0 0x0AC 29 29 0) :=
        regsBut_then (regsBut_wr s1 .time 0 0x0AC _ _ _ (by simp)) (regsBut_wr _ _ _ _ _ _ _ (by simp))
      exact ⟨rfl, rfl, phase_congr (hr _ (by decide)), regsBut_mono hr (by simp)⟩

/-- REF_IN's presence ends the wait of phase 3. -/
theorem refInValid_spec (s : State) : refOk (refInValid s) = true ∧ rdBit (refInValid s) .sys 0 0x04C 29 = false ∧
    phase (refInValid s) = phase s ∧ regsBut [addrOf .sys 0 0x04C, addrOf .time 0 0x0AC] s (refInValid s) := by
  obtain ⟨hpins, href, hphase, hregs⟩ := refReturn_spec s
  refine ⟨?_, rdBit_wr_bit _ _ _ _ (by decide) false, ?_, regsBut_then hregs (regsBut_wr _ _ _ _ _ _ _ (by simp))⟩
  · refine decide_eq_true ?_
    change (refReturn s).boot.ref = some (nbit (refReturn s).pins.strap.toNat 3)
    rw [href, hpins]
  · exact (phase_wr_boot _ _ (by decide) (by decide) (by decide)).trans hphase

/-- SHED_N low asks for stage 4 at least. -/
theorem four_le_shedDemand (h : s.pins.shedN = false) : 4 ≤ shedDemand s := by
  unfold shedDemand
  simp [h]

/-- SHED_N high asks for no more than before. -/
theorem shedDemand_release (s : State) : shedDemand { s with pins := { s.pins with shedN := true } } ≤ shedDemand s := by
  have h (m x y : Nat) : max m (max 0 x) ≤ max m (max y x) := by omega
  exact h ..

/-! ## The bypass (R65) -/

/-- What R65 asks of an open bypass. -/
def bypassOpens (s : State) : Bool :=
  ready s && !s.boot.dark && rdBit s .sys 0 0x05C 0 && !rdBit s .sys 0 0x05C 1 && ringCounts s 0 && ringCounts s 1

/-- The bypass follows what R65 asks; of the registers only its bit changes. -/
theorem bypassUpdate_spec (s : State) : rdBit (bypassUpdate s) .sys 0 0x05C 8 = !bypassOpens s ∧
    (∀ i, i ≠ 8 → rdBit (bypassUpdate s) .sys 0 0x05C i = rdBit s .sys 0 0x05C i) ∧
    regsBut [addrOf .sys 0 0x05C] s (bypassUpdate s) := by
  have hset (v : Bool) {t : State} (ht : t.regs = (wr s .sys 0 0x05C 8 8 (b2n v)).regs) :
      rdBit t .sys 0 0x05C 8 = v ∧ (∀ i, i ≠ 8 → rdBit t .sys 0 0x05C i = rdBit s .sys 0 0x05C i) ∧
        regsBut [addrOf .sys 0 0x05C] s t := by
    refine ⟨(rdBit_congr ht ..).trans (rdBit_wr_bit _ _ _ _ (by decide) v),
      fun i hi => (rdBit_congr ht ..).trans (rdBit_wr_other _ _ _ _ _ (by decide) hi), fun a ha => ?_⟩
    exact (getReg_congr ht a).trans (regsBut_wr s .sys 0 0x05C 8 8 _ (by simp) a ha)
  have hbit : rdBit s .sys 0 0x05C 8 = bypassClosed s := rfl
  have heq : bypassUpdate s =
      if (bypassOpens s && bypassClosed s) = true then
        [0, 1].foldl (fun t r => setRPort t r { getRPort t r with own := true }) (wr s .sys 0 0x05C 8 8 (b2n false))
      else if (!bypassOpens s && !bypassClosed s) = true then
        [0, 1].foldl (fun t r => setRPort t r { getRPort t r with own := false }) (wr s .sys 0 0x05C 8 8 (b2n true))
      else s := rfl
  rw [heq]
  cases ho : bypassOpens s <;> cases hc : bypassClosed s
  · exact hset true rfl
  · exact ⟨hbit.trans hc, fun _ _ => rfl, fun _ _ => rfl⟩
  · exact ⟨hbit.trans hc, fun _ _ => rfl, fun _ _ => rfl⟩
  · exact hset false rfl

/-- A field of SYS.BYPASS written does not bear on start-up or on the ring ports. -/
theorem bypassOpens_wr (s : State) (hi lo v : Nat) : bypassOpens (wr s .sys 0 0x05C hi lo v) =
    (ready s && !s.boot.dark && rdBit (wr s .sys 0 0x05C hi lo v) .sys 0 0x05C 0 &&
      !rdBit (wr s .sys 0 0x05C hi lo v) .sys 0 0x05C 1 && ringCounts s 0 && ringCounts s 1) := by
  have hready : ready (wr s .sys 0 0x05C hi lo v) = ready s :=
    congrArg (alive s && ·) (rdBit_wr_ne _ _ _ _ _ _ _ _ (by decide))
  have hring (r : Nat) : ringCounts (wr s .sys 0 0x05C hi lo v) r = ringCounts s r := by
    have hstate : ringState (wr s .sys 0 0x05C hi lo v) r = ringState s r :=
      rd_wr_ne _ _ _ _ _ _ _ _ _ (addrOf_ne_page (by decide) (by decide) (by simp [ptBase]))
    unfold ringCounts ringUp
    rw [hstate]
  unfold bypassOpens
  rw [hready, hring, hring]
  rfl

end Sys2Proof.Machine

open Sys2Proof Sys2Proof.Machine

/-- Settles O9: each phase by what its end does, the pins by what they set, the fields of SYS.BYPASS by `bypassUpdate`. -/
theorem startUpPinsAndBypassFollowTheirRules : Obligations.StartUpPinsAndBypassFollowTheirRules := by
  unfold Obligations.StartUpPinsAndBypassFollowTheirRules
  refine ⟨fun s bad ha hready hfail hdark => ?phases, fun s => ?pins, fun s on hup k hk => ?bypass⟩
  case phases =>
    have hexec {ok : Bool} {t : State}
        (h : startupPhaseDone ok bad.channels (bad.rows.map (·.toNat)) s = t) :
        exec (.startupPhaseDone ok bad) s = .next t :=
      congrArg Host.Outcome.next ((whenAlive_of ha).trans h)
    have hends (h3 : phase s = 3 → refOk s = true) (h4 : phase s ≠ 4) :
        exec (.startupPhaseDone true bad) s = .next
          (if phase s = 8 then
            bypassUpdate (wr (phaseEnds (phase s) bad.channels (bad.rows.map (·.toNat)) s) .sys 0 0x04C 31 31 1)
          else phaseBegins (phase s + 1) (phaseEnds (phase s) bad.channels (bad.rows.map (·.toNat)) s)) :=
      hexec (startupPhaseDone_ends hready hfail hdark h3 h4)
    refine ⟨fun ph hph hp => ?_, fun hp => ?_, fun hp hr => ?_, fun hp hr ok => ?_, fun h3 h4 => ?_⟩
    · have hph' : ph = 6 ∨ ph = 7 := by simpa using hph
      have h : exec (.startupPhaseDone true bad) s = .next (wr s .sys 0 0x04C 3 0 (ph + 1)) := by
        rw [hends (by omega) (by omega), if_neg (by omega), hp, phaseBegins_of_ne (by omega)]
        obtain rfl | rfl := hph' <;> rfl
      exact ⟨_, h, phase_written s (by omega), regsBut_wr _ _ _ _ _ _ _ (by simp), onlyRegs_wr ..⟩
    · have h := hends (by omega) (by omega)
      rw [if_pos hp, hp] at h
      exact ⟨_, h, _, rdBit_wr_bit s _ _ _ (by decide) true,
        (phase_wr_boot s _ (by decide) (by decide) (by decide)).trans hp,
        regsBut_wr _ _ _ _ _ _ _ (by simp), onlyRegs_wr .., rfl⟩
    · have h := hends (fun _ => hr) (by omega)
      rw [if_neg (by omega), hp, phaseBegins_of_ne (by decide)] at h
      refine ⟨_, h, phase_written _ (by decide), ?_, onlyRegs_trans (onlyRegs_wr ..) (onlyRegs_wr ..)⟩
      exact regsBut_then (regsBut_wr s .time 0 0x0AC 31 29 6 (by simp)) (regsBut_wr _ _ _ _ _ _ _ (by simp))
    · exact hexec (startupPhaseDone_waits hready hfail hdark hp hr ok)
    · obtain ⟨hseq, hregs⟩ := logEvent_spec 7 (addrOf .sys 0 0) (phase s) (wr s .sys 0 0x04C 30 30 1)
      have hboot : reg (logEvent 7 (addrOf .sys 0 0) (phase s) (wr s .sys 0 0x04C 30 30 1)) .sys 0 0x04C =
          reg (wr s .sys 0 0x04C 30 30 1) .sys 0 0x04C := hregs _ (by decide)
      refine ⟨_, hexec (startupPhaseDone_fails hready hfail hdark h3 h4), ?_, ?_, hseq⟩
      · exact (congrArg (wbit · 30) hboot).trans (rdBit_wr_bit s _ _ _ (by decide) true)
      · exact (phase_congr hboot).trans (phase_wr_boot s _ (by decide) (by decide) (by decide))
  case pins =>
    refine ⟨⟨_, rfl, refInValid_spec s⟩, fun hup => ⟨?_, ?_⟩, fun hup => ?_, fun hup => ?_⟩
    · exact congrArg Host.Outcome.next (if_neg (by simp [hup]))
    · exact congrArg Host.Outcome.next (if_neg (by simp [hup]))
    · exact ⟨_, congrArg Host.Outcome.next (if_pos hup), _, rfl, four_le_shedDemand rfl, rfl⟩
    · exact ⟨_, congrArg Host.Outcome.next (if_pos hup), _, rfl, shedDemand_release s, rfl⟩
  case bypass =>
    have hk' : k = 0 ∨ k = 1 := by simpa using hk
    have h : exec (if k = 1 then .standAside on else .release on) s =
        .next (bypassUpdate (wr s .sys 0 0x05C k k (b2n on))) := by
      obtain rfl | rfl := hk' <;> exact congrArg Host.Outcome.next (whenReg_of hup)
    obtain ⟨hopen, hothers, hregs⟩ := bypassUpdate_spec (wr s .sys 0 0x05C k k (b2n on))
    refine ⟨_, h, ?_, ?_, regsBut_then (regsBut_wr _ _ _ _ _ _ _ (by simp)) hregs, ?_⟩
    · exact (hothers k (by omega)).trans (rdBit_wr_bit s _ _ _ (by omega) on)
    · exact (hothers _ (by omega)).trans (rdBit_wr_other s _ _ _ _ (by omega) (by omega))
    · rw [hopen, bypassOpens_wr, hothers 0 (by decide), hothers 1 (by decide)]

end

section
/-! Private transfers over I3C (O16). -/

namespace Sys2Proof.Machine

variable {s : State}

/-! ## Bytes of words -/

theorem ofBytes_wordBytes (v : Word) : ofBytes (wordBytes v) = v.toNat := by
  simp only [wordBytes, ofBytes, BitVec.extractLsb'_toNat, Nat.shiftRight_eq_div_pow]
  have := v.isLt
  omega

theorem beNat_reverse_wordBytes (v : Word) : beNat (wordBytes v).reverse = v.toNat := by
  rw [beNat, List.reverse_reverse, ofBytes_wordBytes]

theorem length_flatMap_wordBytes (ws : List Word) : (ws.flatMap wordBytes).length = 4 * ws.length := by
  induction ws with
  | nil => rfl
  | cons v ws ih =>
    rw [List.flatMap_cons, List.length_append, ih, List.length_cons]
    exact (Nat.add_comm ..).trans (Nat.mul_succ 4 ws.length).symm

/-! ## Words written (R39, R41, R43) -/

/-- The words of a `privateWrite`, written one after another as REGISTER_WRITE would. -/
def wordsWritten (a : Nat) (ws : List Word) (s : State) : State :=
  (ws.foldl (fun (x : Nat × State) v => (x.1 + 4, busWrite .i3c (x.1 % 2 ^ 32) v x.2)) (a, s)).2

theorem i3cWords_flatMap (ws : List Word) (a : Nat) (s : State) :
    i3cWords ws.length a (ws.flatMap wordBytes) s = wordsWritten a ws s := by
  induction ws generalizing a s with
  | nil => rfl
  | cons v ws ih =>
    have htake : ((v :: ws).flatMap wordBytes).take 4 = wordBytes v := rfl
    have hdrop : ((v :: ws).flatMap wordBytes).drop 4 = ws.flatMap wordBytes := rfl
    rw [List.length_cons, i3cWords, htake, hdrop, ofBytes_wordBytes, BitVec.ofNat_toNat, BitVec.setWidth_eq, ih]
    rfl

theorem privateWrite_bad (bs : List Byte) : privateWrite false bs s = i3cFlag (if s.i3c.hdr then 4 else 3) s := rfl

theorem privateWrite_short {bs : List Byte} (h : bs.length < 4) : privateWrite true bs s = i3cFlag 1 s := by
  unfold privateWrite
  exact if_pos h

section
variable (addr : Word) (ws : List Word)

/-- What a write carries: an address, most significant byte first, and whole words. -/
def writeBytes : List Byte := (wordBytes addr).reverse ++ ws.flatMap wordBytes

theorem writeBytes_length : (writeBytes addr ws).length = 4 + 4 * ws.length := by
  rw [writeBytes, List.length_append, length_flatMap_wordBytes]
  rfl

theorem writeBytes_take : (writeBytes addr ws).take 4 = (wordBytes addr).reverse := rfl

theorem writeBytes_drop : (writeBytes addr ws).drop 4 = ws.flatMap wordBytes := rfl

variable {addr ws}

theorem privateWrite_misaligned (h : addr.toNat % 4 ≠ 0) : privateWrite true (writeBytes addr ws) s = i3cFlag 0 s := by
  have hlen := writeBytes_length addr ws
  simp only [privateWrite, writeBytes_take, beNat_reverse_wordBytes]
  rw [if_neg (by simp), if_neg (by omega), if_pos h]

theorem privateWrite_whole (ha : addr.toNat % 4 = 0) (hlen : 4 + 4 * ws.length ≤ s.i3c.mwl)
    (hphase : phase (wordsWritten addr.toNat ws s) = phase s) : privateWrite true (writeBytes addr ws) s =
      setI3c { (wordsWritten addr.toNat ws s).i3c with ptr := (addr.toNat + 4 * ws.length) % 2 ^ 32 }
        (wordsWritten addr.toNat ws s) := by
  have hbytes := writeBytes_length addr ws
  have hall : (writeBytes addr ws).take (max 4 s.i3c.mwl) = writeBytes addr ws := List.take_of_length_le (by omega)
  have hwords : 4 * ws.length / 4 = ws.length := by omega
  simp only [privateWrite, writeBytes_take, beNat_reverse_wordBytes, hall, writeBytes_drop, length_flatMap_wordBytes,
    hwords, i3cWords_flatMap]
  rw [if_neg (by simp), if_neg (by omega), if_neg (by omega), if_neg (by simp; omega), if_neg (by simp; omega),
    if_pos hphase]

end

/-! ## Words read (R42, R44) -/

/-- Asking whether a word is ready draws at most a free value. -/
theorem wordReady_eq (a : Nat) (s : State) : (wordReady a s).2 = { s with free := (wordReady a s).2.free } := by
  unfold wordReady
  split
  · rfl
  · split <;> rfl

theorem wordReady_i3c (a : Nat) (s : State) : (wordReady a s).2.i3c = s.i3c :=
  (congrArg State.i3c (wordReady_eq a s) :)

theorem i3cRead_not (n : Nat) (h : (wordReady s.i3c.ptr s).1 = false) :
    i3cRead (n + 1) s = ([], true, i3cFlag 2 (wordReady s.i3c.ptr s).2) := by
  simp only [i3cRead, h]
  rfl

theorem i3cRead_one (h : (wordReady s.i3c.ptr s).1 = true) :
    let u := busRead .i3c s.i3c.ptr (wordReady s.i3c.ptr s).2
    i3cRead 1 s = (wordBytes u.rdata, false, setI3c { u.i3c with ptr := (u.i3c.ptr + 4) % 2 ^ 32 } u) := by
  simp only [i3cRead, h, wordReady_i3c]
  rfl

/-- The answer to a word read at `u`, the pointer left at `p`. -/
theorem i3cReply_word (bs : List Byte) (p : Nat) (u : State) :
    let t := i3cReply bs (setI3c { u.i3c with ptr := p } u)
    t.i3c.reply = bs ∧ t.i3c.ptr = p ∧ t.regs = u.regs ∧ t.rlatch = u.rlatch := ⟨rfl, rfl, rfl, rfl⟩

theorem privateRead_word (h : (wordReady s.i3c.ptr s).1 = true) (hm : 4 ≤ s.i3c.mrl) :
    let u := busRead .i3c s.i3c.ptr (wordReady s.i3c.ptr s).2
    privateRead 4 s = i3cReply (wordBytes u.rdata) (setI3c { u.i3c with ptr := (u.i3c.ptr + 4) % 2 ^ 32 } u) := by
  have hmin : min 4 s.i3c.mrl = 4 := by omega
  simp only [privateRead, hmin, i3cRead_one h]
  rfl

theorem privateRead_part {n : Nat} (h : (wordReady s.i3c.ptr s).1 = true) (h0 : 0 < n) (h4 : n < 4) (hm : n ≤ s.i3c.mrl) :
    privateRead n s =
      i3cReply ((wordBytes (busRead .i3c s.i3c.ptr (wordReady s.i3c.ptr s).2).rdata).take n) (wordReady s.i3c.ptr s).2 := by
  have hmin : min n s.i3c.mrl = n := by omega
  have hdiv : n / 4 = 0 := by omega
  have hmod : n % 4 = n := by omega
  have hn : n ≠ 0 := by omega
  simp [privateRead, hmin, hdiv, hmod, i3cRead, h, hn, wordReady_i3c]

theorem privateRead_early {n : Nat} (h : (wordReady s.i3c.ptr s).1 = false) (h0 : 0 < n) (hm : 0 < s.i3c.mrl) :
    privateRead n s = i3cReply [] (i3cFlag 2 (wordReady s.i3c.ptr s).2) := by
  have hpos : 0 < min n s.i3c.mrl := by omega
  cases hk : min n s.i3c.mrl / 4 with
  | zero =>
    have hne : min n s.i3c.mrl % 4 ≠ 0 := by omega
    simp [privateRead, hk, i3cRead, h, hne]
  | succ k => simp [privateRead, hk, i3cRead_not k h]

end Sys2Proof.Machine

open Sys2Proof Sys2Proof.Machine

/-- Settles O16: a transfer is followed through its words; where it is refused, to the flag it sets. -/
theorem privateTransfersMoveWholeWords : Obligations.PrivateTransfersMoveWholeWords := by
  unfold Obligations.PrivateTransfersMoveWholeWords
  refine ⟨fun s addr ws hup hans => ?writes, fun s hup hans => ?reads⟩
  case writes =>
    intro address flagged written
    have hexec {good : Bool} {bs : List Byte} {t : State} (h : privateWrite good bs s = t) :
        exec (.privateWrite good bs) s = .next t := exec_of_up hup rfl ((addressed_of hans).trans h)
    have hflag {i : Nat} (hi : i < 32) : flagged i (i3cFlag i s) := by
      obtain ⟨hset, -, hregs, hrest⟩ := i3cFlag_sets hi s
      exact ⟨hset, hregs, hrest⟩
    refine ⟨fun ha hlen hphase => hexec (privateWrite_whole ha hlen hphase),
      fun ha => ⟨_, hexec (privateWrite_misaligned ha), hflag (by decide)⟩,
      fun bs hbs => ⟨_, hexec (privateWrite_short hbs), hflag (by decide)⟩,
      fun bs => ⟨_, hexec (privateWrite_bad bs), hflag ?_⟩⟩
    split <;> decide
  case reads =>
    intro s0
    have hexec {n : Nat} {t : State} (h : privateRead n s = t) : exec (.privateRead n) s = .next t :=
      exec_of_up hup rfl ((addressed_of hans).trans h)
    have hi3c : s0.i3c = s.i3c := wordReady_i3c ..
    refine ⟨fun hr hm => ⟨_, hexec (privateRead_word hr hm), ?_⟩, fun hr n h0 h4 hm => ?_,
      fun hr n h0 hm => ⟨_, hexec (privateRead_early hr h0 hm), ?_⟩⟩
    · exact i3cReply_word _ _ _
    · refine (hexec (privateRead_part hr h0 h4 hm)).trans ?_
      exact congrArg (fun x : I3c => (.next { s0 with i3c := { x with
        nack := false, reply := (wordBytes (busRead .i3c s.i3c.ptr s0).rdata).take n } } : Host.Outcome State Fault Refusal))
        hi3c
    · obtain ⟨hset, -, hregs, hrest⟩ := i3cFlag_sets (i := 2) (by decide) s0
      obtain ⟨-, hflag⟩ := i3cFlag_rest 2 s0
      have hs0 : regsBut [addrOf .mgmt 0 0x040] s s0 := regsBut_of_eq (congrArg State.regs (wordReady_eq _ s) :)
      refine ⟨hset, regsBut_then hs0 hregs, ?_, ?_⟩
      · exact congrArg (fun x : I3c => { x with reply := [], nack := false }) (hflag.trans hi3c)
      · exact congrArg (fun t : State => { t with i3c := (i3cReply [] (i3cFlag 2 s0)).i3c }) hrest

end

section
/-! The indirect window into the Pantry (O17). -/

namespace Sys2Proof.Machine

variable {s : State}

/-! ## A data port written through the first path (R35) -/

/-- With no word of the tick from a later path, the word stands where the port's address points. -/
theorem portWrite_alone {a : Nat} (h : ∀ e ∈ s.tick.ports, e.1 = a → e.2.1 = 0) (place : Nat)
    (put : Nat → Word → State → State) (next : Word → State → State) (v : Word) :
    ∃ k, portWrite 0 a place put next v s = { next v s with tick := k } := by
  have hlater : s.tick.ports.filter (fun e => decide (e.1 = a ∧ 0 < e.2.1)) = [] := by
    rw [List.filter_eq_nil_iff]
    intro e he hl
    have := h e he
    simp at hl
    omega
  unfold portWrite
  rw [hlater]
  cases clockRuns s
  · exact ⟨_, rfl⟩
  · exact ⟨_, rfl⟩

/-! ## The mapping follows the masks of PANTRY (R276) -/

/-- Registers below the PANTRY page do not move a byte. -/
theorem placeOf_of_regsBut {l : List Nat} {t : State} (h : regsBut l s t) (hl : ∀ a ∈ l, a < addrOf .pantry 0 0)
    (a : Nat) : placeOf t a = placeOf s a := by
  have hreg (off hi lo : Nat) : rd t .pantry 0 off hi lo = rd s .pantry 0 off hi lo :=
    congrArg (fget · hi lo) (h _ fun hm => Nat.not_lt.2 (Nat.le_add_right _ off) (hl _ hm))
  unfold placeOf bankBits chanBits
  simp only [hreg]

theorem pantryByte_of_regsBut {l : List Nat} {t : State} (h : regsBut l s t) (hl : ∀ a ∈ l, a < addrOf .pantry 0 0)
    (hp : t.pantry = s.pantry) (hf : t.fills = s.fills) (hz : t.pzero = s.pzero) (b : Nat) :
    pantryByte t b = pantryByte s b := by
  unfold pantryByte placeByte unwritten
  rw [placeOf_of_regsBut h hl, hp, hf, hz]

/-! ## The window moves on (R45) -/

/-- The registers of the window's address. -/
def pwinRegs : List Nat := [addrOf .mgmt 0 0x060, addrOf .mgmt 0 0x064]

theorem pwinRegs_below : ∀ a ∈ pwinRegs, a < addrOf .pantry 0 0 := by decide

/-- The block ahead is asked for: a request waits, nothing else changes. -/
theorem pwinPrefetch_eq (s : State) : ∃ b q n, pwinPrefetch s = { s with pbad := b, preqs := q, preqNo := n } := by
  simp only [pwinPrefetch]
  split
  · exact ⟨_, _, _, rfl⟩
  · exact ⟨_, _, _, rfl⟩

/-- The address written to its two fields. -/
def pwinMoved (a : Nat) (s : State) : State := wr (wr s .mgmt 0 0x060 31 2 (a / 4)) .mgmt 0 0x064 2 0 (a / 2 ^ 32)

theorem pwinAddr_moved {a : Nat} (ha : a < 2 ^ 35) (h4 : a % 4 = 0) (s : State) : pwinAddr (pwinMoved a s) = a := by
  have hlo : rd (pwinMoved a s) .mgmt 0 0x060 31 2 = a / 4 % 2 ^ 30 := by
    unfold pwinMoved
    rw [rd_wr_ne _ _ _ _ _ _ _ _ _ (by decide), rd_wr_self _ _ _ _ _ _ _ (by decide) (by decide)]
  have hhi : rd (pwinMoved a s) .mgmt 0 0x064 2 0 = a / 2 ^ 32 % 2 ^ 3 := rd_wr_self _ _ _ _ _ _ _ (by decide) (by decide)
  unfold pwinAddr
  rw [hlo, hhi]
  omega

/-- What an access that advances does: the address moves, its block may be asked for. -/
structure Advanced (s t : State) : Prop where
  addr : pwinAddr t = if rdBit s .mgmt 0 0x06C 0 then (pwinAddr s + 4) % 2 ^ 35 else pwinAddr s
  regs : regsBut pwinRegs s t
  rest : ∃ r b q n, t = { s with regs := r, pbad := b, preqs := q, preqNo := n }

namespace Advanced
variable {t : State} (h : Advanced s t)
include h

theorem pantry : t.pantry = s.pantry := by
  obtain ⟨r, b, q, n, rfl⟩ := h.rest
  rfl

theorem fills : t.fills = s.fills := by
  obtain ⟨r, b, q, n, rfl⟩ := h.rest
  rfl

theorem pzero : t.pzero = s.pzero := by
  obtain ⟨r, b, q, n, rfl⟩ := h.rest
  rfl

theorem rdata : t.rdata = s.rdata := by
  obtain ⟨r, b, q, n, rfl⟩ := h.rest
  rfl

theorem bytes (b : Nat) : pantryByte t b = pantryByte s b :=
  pantryByte_of_regsBut h.regs pwinRegs_below h.pantry h.fills h.pzero b

/-- From a state with the registers of another, the address moves as from that one. -/
theorem addr_from {u : State} (hu : s.regs = u.regs) :
    pwinAddr t = if rdBit u .mgmt 0 0x06C 0 then (pwinAddr u + 4) % 2 ^ 35 else pwinAddr u := by
  have ha : pwinAddr s = pwinAddr u := by
    unfold pwinAddr
    rw [rd_congr hu, rd_congr hu]
  rw [h.addr, ha, rdBit_congr hu]

end Advanced

theorem pwinAdvance_advanced (s : State) : Advanced s (pwinAdvance s) := by
  unfold pwinAdvance
  split
  case isFalse h => exact ⟨(if_neg h).symm, regsBut_refl _ _, _, _, _, _, rfl⟩
  case isTrue h =>
    have hmoved : Advanced s (pwinMoved ((pwinAddr s + 4) % 2 ^ 35) s) := by
      refine ⟨?_, ?_, _, _, _, _, rfl⟩
      · rw [if_pos h, pwinAddr_moved (Nat.mod_lt _ (by decide))]
        unfold pwinAddr
        omega
      · exact regsBut_then (regsBut_wr _ _ _ _ _ _ _ (by simp [pwinRegs])) (regsBut_wr _ _ _ _ _ _ _ (by simp [pwinRegs]))
    generalize hm : pwinMoved ((pwinAddr s + 4) % 2 ^ 35) s = m at hmoved
    extract_lets a s1
    have hs1 : s1 = m := hm
    rw [hs1]
    split
    case isFalse => exact hmoved
    case isTrue =>
      obtain ⟨b, q, n, hp⟩ := pwinPrefetch_eq m
      have hregs := (congrArg State.regs hp :)
      refine ⟨?_, fun a ha => (getReg_congr hregs a).trans (hmoved.regs a ha), m.regs, b, q, n, ?_⟩
      · refine Eq.trans ?_ hmoved.addr
        exact congrArg₂ (fun x y => x * 4 + 2 ^ 32 * y) (rd_congr hregs ..) (rd_congr hregs ..)
      · have hmr : m = { s with regs := m.regs } := hm ▸ rfl
        exact hp.trans (congrArg (fun x : State => { x with pbad := b, preqs := q, preqNo := n }) hmr)

/-! ## A refused access (R46) -/

theorem pwinRefuse_refused (s : State) :
    rdBit (pwinRefuse s) .mgmt 0 0x06C 2 = true ∧
      pwinAddr (pwinRefuse s) = (if rdBit s .mgmt 0 0x06C 0 then (pwinAddr s + 4) % 2 ^ 35 else pwinAddr s) ∧
      (pwinRefuse s).pantry = s.pantry ∧ regsBut (addrOf .mgmt 0 0x06C :: pwinRegs) s (pwinRefuse s) ∧
      (pwinRefuse s).rdata = s.rdata := by
  have hadv : Advanced (raiseBit .mgmt 0 0x06C 2 s) (pwinRefuse s) := pwinAdvance_advanced _
  have hregs : (raiseBit .mgmt 0 0x06C 2 s).regs = (wr s .mgmt 0 0x06C 2 2 1).regs := raiseBit_regs ..
  have hstate := raiseBit_eq .mgmt 0 0x06C 2 s
  have haddr : pwinAddr (wr s .mgmt 0 0x06C 2 2 1) = pwinAddr s := by
    unfold pwinAddr
    rw [rd_wr_ne _ _ _ _ _ _ _ _ _ (by decide), rd_wr_ne _ _ _ _ _ _ _ _ _ (by decide)]
  have hset : rdBit (raiseBit .mgmt 0 0x06C 2 s) .mgmt 0 0x06C 2 = true :=
    (rdBit_congr hregs _ _ _ _).trans (rdBit_wr_bit s _ _ _ (by decide) true)
  refine ⟨?_, ?_, hadv.pantry.trans (congrArg State.pantry hstate :), ?_, hadv.rdata.trans (congrArg State.rdata hstate :)⟩
  · exact (congrArg (wbit · 2) (hadv.regs _ (by decide))).trans hset
  · rw [hadv.addr_from hregs, haddr, rdBit_wr_other _ _ _ _ _ (by decide) (by decide)]
  · refine regsBut_then (t := raiseBit .mgmt 0 0x06C 2 s) (fun a ha => ?_)
      (regsBut_mono hadv.regs fun a ha => List.mem_cons_of_mem _ ha)
    exact (getReg_congr hregs a).trans (getReg_wr_ne _ _ _ _ _ _ _ fun he => ha (he ▸ List.mem_cons_self))

/-! ## An access in reach (R45, R46, R285) -/

/-- A single write into a block puts its bytes at its place. -/
theorem blockAfter_one {before bs : List Byte} {q : PReq} {a : Nat} (hp : q.port = 96) (ha : q.addr = a)
    (hput : q.put = bs) (hlen : a % 64 ≤ before.length) :
    ((blockAfter before [q]).drop (a % 64)).take bs.length = bs := by
  subst ha hput
  have hafter : blockAfter before [q] =
      before.take (q.addr % 64) ++ q.put ++ before.drop (q.addr % 64 + q.put.length) := by
    simp [blockAfter, hp]
  have hdrop : (before.take (q.addr % 64)).length = q.addr % 64 := by
    rw [List.length_take]
    omega
  rw [hafter, List.append_assoc, List.drop_append_of_le_length (by omega), List.drop_of_length_le (by omega),
    List.nil_append, List.take_left]

/-- A write that shares its block with no request of its tick puts its bytes at its address. -/
theorem acceptRequest_write {a : Nat} (bs : List Byte) (w : PWait) (n : Nat)
    (h : ∀ q ∈ s.preqs, q.acc ≠ s.clk.tc ∨ q.addr / 64 ≠ a / 64) :
    ∃ l k, acceptRequest 96 a n (some bs) w s = pantryPutBytes { s with preqs := l, preqNo := k } a bs := by
  have hnone : s.preqs.filter (fun q => decide (q.acc = s.clk.tc ∧ q.addr / 64 = a / 64) && clockRuns s) = [] := by
    rw [List.filter_eq_nil_iff]
    intro q hq
    have := h q hq
    simp only [Bool.and_eq_true, decide_eq_true_eq]
    tauto
  simp only [acceptRequest, hnone, Option.isSome_some, if_true, Option.getD_some, List.nil_append]
  refine ⟨_, _, congrArg (pantryPutBytes _ a) ?_⟩
  refine blockAfter_one rfl rfl rfl ?_
  have : a % 64 < 64 := Nat.mod_lt _ (by decide)
  simp [pantryBytes]
  omega

theorem pwinWrite_refused (h : ptUp s .pantry = false ∨ reservedFrom s < pwinAddr s + 4) (v : Word) :
    pwinWrite v s = pwinRefuse s := by
  refine if_pos ?_
  rcases h with h | h
  · simp [h]
  · simp [mgmtMay, h]

theorem pwinWrite_taken (hup : ptUp s .pantry = true) (h : pwinAddr s + 4 ≤ reservedFrom s) (v : Word) :
    pwinWrite v s = pwinAdvance (acceptRequest 96 (pwinAddr s) 4 (some (wordBytes v)) (.pwin false) s) :=
  if_neg (by simp [hup, mgmtMay, h])

theorem pwinWriteBy_alone (h : ∀ e ∈ s.tick.ports, e.1 = addrOf .mgmt 0 0x068 → e.2.1 = 0) (v : Word) :
    ∃ k, pwinWriteBy 0 v s = { pwinWrite v s with tick := k } := by
  unfold pwinWriteBy
  exact portWrite_alone h _ _ _ _

/-- Byte i of a word. -/
theorem wordBytes_getElem (v : Word) {i : Nat} (h : i < (wordBytes v).length) :
    (wordBytes v)[i] = v.extractLsb' (8 * i) 8 := by
  have hi : i < 4 := h
  interval_cases i <;> rfl

/-- What a window write that is taken does. -/
theorem pwinWrite_puts {v : Word} (hup : ptUp s .pantry = true) (h : pwinAddr s + 4 ≤ reservedFrom s)
    (hq : ∀ q ∈ s.preqs, q.acc ≠ s.clk.tc ∨ q.addr / 64 ≠ pwinAddr s / 64) :
    let t := pwinWrite v s
    pwinAddr t = (if rdBit s .mgmt 0 0x06C 0 then (pwinAddr s + 4) % 2 ^ 35 else pwinAddr s) ∧
      (∀ i, i < 4 → pantryByte t (pwinAddr s + i) = v.extractLsb' (8 * i) 8) ∧
      (∀ b, b < 2 ^ 35 → (b < pwinAddr s ∨ pwinAddr s + 4 ≤ b) → pantryByte t b = pantryByte s b) ∧
      regsBut pwinRegs s t := by
  obtain ⟨l, k, hacc⟩ := acceptRequest_write (wordBytes v) (.pwin false) 4 hq
  intro t
  have ht : t = pwinAdvance (pantryPutBytes { s with preqs := l, preqNo := k } (pwinAddr s) (wordBytes v)) :=
    (pwinWrite_taken hup h v).trans (congrArg pwinAdvance hacc)
  have hadv := pwinAdvance_advanced (pantryPutBytes { s with preqs := l, preqNo := k } (pwinAddr s) (wordBytes v))
  rw [← ht] at hadv
  have hregs : (pantryPutBytes { s with preqs := l, preqNo := k } (pwinAddr s) (wordBytes v)).regs = s.regs :=
    (congrArg State.regs (pantryPutBytes_eq ..) :)
  have hlen : (wordBytes v).length = 4 := rfl
  have hend : pwinAddr s + (wordBytes v).length ≤ 2 ^ 35 := by
    have := reservedFrom_le s
    omega
  have hbyte (b : Nat) (hb : b < 2 ^ 35) := (hadv.bytes b).trans (pantryByte_pantryPutBytes _ (wordBytes v) hend hb)
  refine ⟨hadv.addr_from hregs, fun i hi => ?_, fun b hb hout => ?_, fun a ha => ?_⟩
  · rw [hbyte _ (by omega), dif_pos (by omega), wordBytes_getElem]
    simp
  · rw [hbyte _ hb, dif_neg (by omega)]
    exact pantryByte_congr (s := s) rfl rfl rfl rfl b
  · exact (hadv.regs a ha).trans (getReg_congr hregs a)

/-! ## A read (R44 to R46, R290) -/

theorem wordBytes_ofBytes (b0 b1 b2 b3 : Byte) :
    wordBytes (BitVec.ofNat 32 (ofBytes [b0, b1, b2, b3])) = [b0, b1, b2, b3] := by
  have h0 := b0.isLt
  have h1 := b1.isLt
  have h2 := b2.isLt
  have h3 := b3.isLt
  simp only [wordBytes, ofBytes, List.cons.injEq, and_true]
  refine ⟨?_, ?_, ?_, ?_⟩ <;>
  · apply BitVec.eq_of_toNat_eq
    simp only [BitVec.extractLsb'_toNat, BitVec.toNat_ofNat, Nat.shiftRight_eq_div_pow]
    omega

theorem pwinWord_refused (h : ptUp s .pantry = false ∨ reservedFrom s < pwinAddr s + 4) : pwinWord s = 0 := by
  refine if_pos ?_
  rcases h with h | h
  · simp [h]
  · simp [mgmtMay, h]

theorem pwinWord_taken (hup : ptUp s .pantry = true) (h : pwinAddr s + 4 ≤ reservedFrom s)
    (hbad : s.pbad.contains (pwinAddr s / 64) = false) : wordBytes (pwinWord s) = pantryBytes s (pwinAddr s) 4 := by
  have hword : pwinWord s = BitVec.ofNat 32 (ofBytes (pantryBytes s (pwinAddr s) 4)) :=
    if_neg (by simp only [hup, mgmtMay, h, hbad]; decide)
  rw [hword]
  exact wordBytes_ofBytes _ _ _ _

theorem pwinReadDone_refused (h : ptUp s .pantry = false ∨ reservedFrom s < pwinAddr s + 4) :
    pwinReadDone s = pwinRefuse s := by
  refine if_pos ?_
  rcases h with h | h
  · simp [h]
  · simp [mgmtMay, h]

theorem pwinReadDone_taken (hup : ptUp s .pantry = true) (h : pwinAddr s + 4 ≤ reservedFrom s) :
    pwinReadDone s = pwinAdvance s := if_neg (by simp [hup, mgmtMay, h])

/-- A read that need not wait answers the word at the window address. -/
theorem pwinDataRead_ready (h : pwinWaits s = false) :
    pwinDataRead s = i3cReply (wordBytes (pwinReadDone { s with rdata := pwinWord s }).rdata)
      (pwinReadDone { s with rdata := pwinWord s }) := if_neg (by simp [h])

end Sys2Proof.Machine

open Sys2Proof Sys2Proof.Machine

/-- Settles O17: an access is followed through the window (`pwinWrite_puts`, `pwinRefuse_refused`, `Advanced`). -/
theorem pantryWindowMovesWords : Obligations.PantryWindowMovesWords := by
  unfold Obligations.PantryWindowMovesWords
  intro s v hup a alone advanced
  have hwrite (h : alone) : ∃ k, exec (.pwinDataWrite v) s = .next { pwinWrite v s with tick := k } := by
    obtain ⟨k, hk⟩ := pwinWriteBy_alone h v
    exact ⟨k, congrArg Host.Outcome.next ((whenReg_of hup).trans hk)⟩
  have hread (h : pwinWaits s = false) := exec_of_up (c := .pwinDataRead) hup rfl (pwinDataRead_ready h)
  refine ⟨fun hp ha _ h hq => ?_, fun hp ha _ hw hbad => ?_, fun hout => ⟨fun h => ?_, fun hw => ?_⟩⟩
  · obtain ⟨k, hk⟩ := hwrite h
    exact ⟨_, hk, pwinWrite_puts hp ha hq⟩
  · have hdone : pwinReadDone { s with rdata := pwinWord s } = pwinAdvance { s with rdata := pwinWord s } :=
      pwinReadDone_taken hp ha
    have hadv := pwinAdvance_advanced { s with rdata := pwinWord s }
    rw [← hdone] at hadv
    refine ⟨_, hread hw, hadv.addr, hadv.pantry, ?_⟩
    exact (congrArg wordBytes hadv.rdata).trans (pwinWord_taken hp ha hbad)
  · obtain ⟨k, hk⟩ := hwrite h
    obtain ⟨hset, haddr, hpantry, hregs, -⟩ := pwinRefuse_refused s
    rw [← pwinWrite_refused hout v] at hset haddr hpantry hregs
    exact ⟨_, hk, hset, haddr, hpantry, hregs⟩
  · obtain ⟨hset, haddr, hpantry, hregs, hdata⟩ := pwinRefuse_refused { s with rdata := pwinWord s }
    rw [← pwinReadDone_refused (s := { s with rdata := pwinWord s }) hout] at hset haddr hpantry hregs hdata
    refine ⟨_, hread hw, hset, haddr, ?_, hpantry, hregs⟩
    exact congrArg wordBytes (hdata.trans (pwinWord_refused hout))

end

section
/-! Tables of bytes cut out, moved and put together, and what the use of a sequencer follows. -/

namespace Sys2Proof.Machine

/-! ## Tables cut out, moved and put together -/

/-- The first of two tables in one holds the keys below the bound. -/
theorem mapGet_append {α : Type} [DecidableEq α] {d : Nat → α} {m' : List (Nat × α)} {b : Nat} (h' : mapOk d b m' = true)
    (k : Nat) : ∀ {m : List (Nat × α)} {lb : Nat}, (∀ e ∈ m, e.1 < b) → mapOk d lb m = true →
      mapGet d (m ++ m') k = if k < b then mapGet d m k else mapGet d m' k
  | [], _, _, _ => by
    split
    · exact mapGet_of_lt ‹_› h'
    · rfl
  | (k', v) :: m, _, hb, hm => by
    have hk' : k' < b := hb _ List.mem_cons_self
    have ih := mapGet_append h' k (fun e he => hb e (List.mem_cons_of_mem _ he)) ((mapOk_cons _ _ _ _ _).1 hm).2.2
    rw [List.cons_append, mapGet_cons, mapGet_cons, ih]
    by_cases hkb : k < b
    · rw [if_pos hkb, if_pos hkb]
    · rw [if_neg hkb, if_neg hkb, if_neg (by omega), if_neg (by omega)]

section
variable {m src dst : Bytes}

theorem byteAt_mapTake (lo hi j : Nat) (hm : bytesOk m) :
    byteAt (mapTake m lo hi) j = if lo ≤ j ∧ j < hi then byteAt m j else 0 := by
  have h := mapGet_filter_key (fun k => decide (lo ≤ k ∧ k < hi)) j hm
  simp only [decide_eq_true_eq] at h
  exact h

/-- The spliced part is the source's, the rest the destination's. -/
theorem byteAt_mapSplice {lo hi : Nat} (hlh : lo ≤ hi) (hs : bytesOk src) (hd : bytesOk dst) (j : Nat) :
    byteAt (mapSplice src dst lo hi) j = if lo ≤ j ∧ j < hi then byteAt src j else byteAt dst j := by
  have hlow := mapGet_filter_key (fun k => decide (k < lo)) j hd
  have hhigh := mapGet_filter_key (fun k => decide (hi ≤ k)) j hd
  have hmid := byteAt_mapTake lo hi j hs
  have hhiOk : mapOk (fun _ => (0 : Byte)) hi (dst.filter fun e => decide (hi ≤ e.1)) = true :=
    mapOk_of_ge (lb := 0) (fun e he => by simpa using (List.mem_filter.1 he).2) (mapOk_filter _ hd)
  have hmidOk : mapOk (fun _ => (0 : Byte)) lo (mapTake src lo hi) = true :=
    mapOk_of_ge (lb := 0) (fun e he => by have := (List.mem_filter.1 he).2; simp at this; omega) (mapOk_filter _ hs)
  have htail : mapGet (fun _ => (0 : Byte)) (mapTake src lo hi ++ dst.filter fun e => decide (hi ≤ e.1)) j =
      if j < hi then byteAt (mapTake src lo hi) j else byteAt (dst.filter fun e => decide (hi ≤ e.1)) j :=
    mapGet_append hhiOk j (fun e he => by have := (List.mem_filter.1 he).2; simp at this; omega) hmidOk
  have htailOk : mapOk (fun _ => (0 : Byte)) lo (mapTake src lo hi ++ dst.filter fun e => decide (hi ≤ e.1)) = true :=
    mapOk_append hhiOk hlh (fun e he => by have := (List.mem_filter.1 he).2; simp at this; omega) hmidOk
  have hall := mapGet_append htailOk j (m := dst.filter fun e => decide (e.1 < lo)) (lb := 0)
    (fun e he => by simpa using (List.mem_filter.1 he).2) (mapOk_filter _ hd)
  unfold byteAt mapSplice at *
  rw [List.append_assoc, hall, htail, hlow, hmid, hhigh]
  by_cases h1 : j < lo
  · simp [h1, Nat.not_le.2 h1]
  · by_cases h2 : j < hi
    · simp [h1, h2, Nat.le_of_not_lt h1]
    · simp [h1, h2, Nat.le_of_not_lt h1, Nat.le_of_not_lt h2]

/-- Entries moved keep their place among each other. -/
theorem byteAt_mapShift (a b i : Nat) : ∀ {m : Bytes} {lb : Nat}, a ≤ lb → mapOk (fun _ => (0 : Byte)) lb m = true →
    byteAt (mapShift m a b) (b + i) = byteAt m (a + i)
  | [], _, _, _ => rfl
  | (k, v) :: m, lb, ha, hm => by
    obtain ⟨hlb, -, hm⟩ := (mapOk_cons _ _ _ _ _).1 hm
    have ih := byteAt_mapShift a b i (show a ≤ k + 1 by omega) hm
    unfold byteAt mapShift at *
    rw [List.map_cons, mapGet_cons, mapGet_cons, ih]
    by_cases h1 : a + i = k
    · rw [if_pos h1, if_pos (by omega)]
    · by_cases h2 : a + i < k
      · rw [if_neg h1, if_pos h2, if_neg (by omega), if_pos (by omega)]
      · rw [if_neg h1, if_neg h2, if_neg (by omega), if_neg (by omega)]

end

/-! ## Who uses a sequencer (R22, R71, R392) -/

section
variable {s t : State}

theorem seqShotRuns_congr {q : Nat} (hg : t.groups = s.groups) (hr : reg t .seq q 0x040 = reg s .seq q 0x040) :
    seqShotRuns t q = seqShotRuns s q := by
  unfold seqShotRuns shotRuns
  rw [seqGroup_congr hr]
  cases seqGroup s q with
  | none => rfl
  | some g => exact congrArg Group.running (getGroup_congr hg g)

theorem calUses_congr (hr : ∀ off, off < 4096 → reg t .cal 0 off = reg s .cal 0 off) (hs : t.slots = s.slots) (q : Nat) :
    calUses t q = calUses s q := by
  have hrd {off : Nat} (ho : off < 4096) (hi lo : Nat) : rd t .cal 0 off hi lo = rd s .cal 0 off hi lo :=
    congrArg (fget · hi lo) (hr off ho)
  have hslot : calSlot t = calSlot s := hrd (by decide) _ _
  have hk : rqOff (calSlot s) 4 < 4096 := by
    have : calSlot s < 2 ^ 4 := nbits_lt _ _ _
    unfold rqOff
    omega
  have h0 : rqOff (calSlot s) 0 < 4096 := Nat.lt_of_le_of_lt (Nat.add_le_add_left (by decide) _) hk
  have hkind : rqKind t (calSlot s) = rqKind s (calSlot s) := hrd h0 _ _
  have htype : rqType t (calSlot s) = rqType s (calSlot s) := hrd hk _ _
  have hinst : rqInst t (calSlot s) = rqInst s (calSlot s) := hrd hk _ _
  have hsub : rqSub t (calSlot s) = rqSub s (calSlot s) := hrd hk _ _
  have hpre : predistSlot t (calSlot s) = predistSlot s (calSlot s) := by
    unfold predistSlot getSlot
    rw [hsub, hs]
  have hseqs : calSeqs t (calSlot s) = calSeqs s (calSlot s) := by
    unfold calSeqs
    rw [hkind, htype, hinst, hsub, hpre]
  have hmode : calMode t = calMode s := hrd (by decide) _ _
  unfold calUses segmentRuns
  rw [hmode, hslot, hseqs]

end

end Sys2Proof.Machine
end

section
/-! The vendor image: its staging buffer, its commands and its loading (O21). -/

namespace Sys2Proof.Machine

variable {s t : State}

/-! ## An image loaded into the vendor regions (R102) -/

theorem kindOf_congr {q : Nat} (h : reg t .seq q 0x040 = reg s .seq q 0x040) : kindOf t q = kindOf s q := by
  unfold kindOf rd
  rw [h]

/-- What the copies of an image leave as it was in `s`. -/
structure VendorKept (s t : State) : Prop where
  vimg : t.vimg = { s.vimg with waiting := t.vimg.waiting }
  kind : ∀ q, reg t .seq q 0x040 = reg s .seq q 0x040
  low : ∀ a, a < addrOf .seq 0 0 → getReg t a = getReg s a
  bytes : bytesOk t.stores

/-- A sequencer's vendor region holds image m, and its registers tell so. -/
structure VendorHeld (m : Bytes) (s t : State) (q : Nat) : Prop where
  ver : reg t .seq q 0x05C = BitVec.ofNat 32 (2 ^ 31 + vimgVersion m)
  event : rdBit t .seq q 0x010 8 = true
  bytes : ∀ j, j < 0x4000 → byteAt t.stores (controlBase q + 0x3C000 + j) = byteAt m (sectionOff (kindOf s q) + j)

section
variable (m : Bytes) (q : Nat)

theorem vendorCopy_stores (t : State) : (vendorCopy (.bytes m) t q).stores =
    mapSplice (mapShift (mapTake m (sectionOff (kindOf t q)) (sectionOff (kindOf t q) + 0x4000)) (sectionOff (kindOf t q))
      (controlBase q + 0x3C000)) t.stores (controlBase q + 0x3C000) (controlBase q + 0x3C000 + 0x4000) := by
  simp only [vendorCopy, raiseEvt_stores]
  rfl

theorem vendorCopy_vimg (v : VImage) (t : State) : (vendorCopy v t q).vimg =
    { t.vimg with waiting := t.vimg.waiting.filter (fun r => decide (r ≠ q)) } := by
  simp only [vendorCopy, raiseEvt_vimg]
  rfl

theorem getReg_vendorCopy (v : VImage) (t : State) {a : Nat} (h5 : a ≠ addrOf .seq q 0x05C) (h1 : a ≠ addrOf .seq q 0x010) :
    getReg (vendorCopy v t q) a = getReg t a := by
  simp only [vendorCopy, getReg_raiseEvt, if_neg h1, getReg_wrAll, if_neg h5]
  rfl

theorem vendorCopy_bytes (t : State) (hm : bytesOk m) (ht : bytesOk t.stores) (j : Nat) :
    byteAt (vendorCopy (.bytes m) t q).stores j =
      if controlBase q + 0x3C000 ≤ j ∧ j < controlBase q + 0x3C000 + 0x4000
      then byteAt m (sectionOff (kindOf t q) + (j - (controlBase q + 0x3C000))) else byteAt t.stores j := by
  rw [vendorCopy_stores, byteAt_mapSplice (by omega) (bytesOk_mapShift_mapTake _ _ _ hm) ht]
  split
  case isFalse => rfl
  case isTrue h =>
    generalize ho : sectionOff (kindOf t q) = o
    have hok : mapOk (fun _ => (0 : Byte)) o (mapTake m o (o + 0x4000)) = true :=
      mapOk_of_ge (lb := 0) (fun e he => by have := (List.mem_filter.1 he).2; simp at this; omega) (bytesOk_mapTake _ _ hm)
    have hshift := byteAt_mapShift o (controlBase q + 0x3C000) (j - (controlBase q + 0x3C000)) (Nat.le_refl o) hok
    rw [Nat.add_sub_cancel' h.1] at hshift
    rw [hshift, byteAt_mapTake _ _ _ hm, if_pos (by omega)]

end

section
variable {m : Bytes} (hm : bytesOk m)
include hm

theorem vendorCopy_kept (h : VendorKept s t) (q : Nat) : VendorKept s (vendorCopy (.bytes m) t q) where
  vimg := by
    rw [vendorCopy_vimg, h.vimg]
  kind r := by
    refine Eq.trans (getReg_vendorCopy q _ t ?_ ?_) (h.kind r)
    · exact fun e => absurd (addrOf_inj (by decide) (by decide) e).2 (by decide)
    · exact fun e => absurd (addrOf_inj (by decide) (by decide) e).2 (by decide)
  low a ha := by
    have hle (off : Nat) : a ≠ addrOf .seq q off := by
      unfold addrOf at ha ⊢
      omega
    exact (getReg_vendorCopy q _ t (hle _) (hle _)).trans (h.low a ha)
  bytes := by
    rw [vendorCopy_stores]
    exact bytesOk_mapSplice _ _ (bytesOk_mapShift_mapTake _ _ _ hm) h.bytes

theorem vendorCopy_held (h : VendorKept s t) (q : Nat) : VendorHeld m s (vendorCopy (.bytes m) t q) q where
  ver := by
    simp only [vendorCopy]
    rw [reg_raiseEvt_ne _ _ _ _ (addrOf_ne_off (by decide)), reg_wrAll_self]
    rfl
  event := rdBit_raiseEvt_self _ _ _ _ (by decide)
  bytes j hj := by
    rw [vendorCopy_bytes m q t hm h.bytes, if_pos (by omega), kindOf_congr (h.kind q), Nat.add_sub_cancel_left]

theorem vendorCopy_held_other (h : VendorKept s t) {q r : Nat} (hr : VendorHeld m s t r) (hne : r ≠ q) :
    VendorHeld m s (vendorCopy (.bytes m) t q) r := by
  have hreg {off : Nat} (ho : off < 4096) : reg (vendorCopy (.bytes m) t q) .seq r off = reg t .seq r off := by
    have hpage {off' : Nat} (ho' : off' < 4096) : addrOf .seq r off ≠ addrOf .seq q off' := fun e =>
      hne (Nat.add_left_cancel (addrOf_inj ho ho' e).1)
    exact getReg_vendorCopy q _ t (hpage (by decide)) (hpage (by decide))
  refine ⟨(hreg (by decide)).trans hr.ver, (congrArg (wbit · 8) (hreg (by decide))).trans hr.event, fun j hj => ?_⟩
  rw [vendorCopy_bytes m q t hm h.bytes, if_neg, hr.bytes j hj]
  unfold controlBase
  omega

/-- Copies made one after another: each of the sequencers holds the image, and waits no longer. -/
theorem foldl_vendorCopy : ∀ (l : List Nat) (t : State), VendorKept s t →
    VendorKept s (l.foldl (vendorCopy (.bytes m)) t) ∧
      (∀ q, q ∈ (l.foldl (vendorCopy (.bytes m)) t).vimg.waiting ↔ q ∈ t.vimg.waiting ∧ q ∉ l) ∧
      ∀ q, q ∈ l ∨ VendorHeld m s t q → VendorHeld m s (l.foldl (vendorCopy (.bytes m)) t) q
  | [], t, h => ⟨h, by simp, by simp⟩
  | r :: l, t, h => by
    obtain ⟨hkept, hwait, hheld⟩ := foldl_vendorCopy l (vendorCopy (.bytes m) t r) (vendorCopy_kept hm h r)
    refine ⟨hkept, fun q => (hwait q).trans ?_, fun q hq => hheld q ?_⟩
    · rw [vendorCopy_vimg]
      simp [and_assoc]
    · by_cases hqr : q = r
      · subst hqr
        exact .inr (vendorCopy_held hm h q)
      · refine hq.imp (fun hl => ?_) fun hh => vendorCopy_held_other hm h hh hqr
        simpa [hqr] using hl

/-- LOAD of an image: what it holds afterwards, and what it leaves. -/
theorem vendorLoad_loads (hs : bytesOk s.stores) :
    let t := vendorLoad (.bytes m) s
    (t.vimg = { s.vimg with image := .bytes m, waiting := t.vimg.waiting }) ∧
      (∀ q ∈ vendorSeqs s, (q ∈ t.vimg.waiting ↔ seqActive s q = true) ∧
        (seqActive s q = false → VendorHeld m s t q)) ∧
      ∀ a, a < addrOf .seq 0 0 → a ≠ addrOf .sys 0 0x04C → a ≠ addrOf .sys 0 0x058 → getReg t a = getReg s a := by
  intro t
  let s1 : State := { s with vimg := { s.vimg with image := .bytes m, waiting := vendorSeqs s } }
  have hs1 : VendorKept s1 s1 := ⟨rfl, fun _ => rfl, fun _ _ => rfl, hs⟩
  obtain ⟨hkept, hwait, hheld⟩ := foldl_vendorCopy hm ((vendorSeqs s).filter fun q => !seqActive s1 q) s1 hs1
  obtain ⟨u, hu⟩ := exists_eq (a' := ((vendorSeqs s).filter fun q => !seqActive s1 q).foldl (vendorCopy (.bytes m)) s1)
  rw [← hu] at hkept hwait hheld
  have ht : ∃ v, t = wrAll (wr u .sys 0 0x04C 28 28 0) .sys 0 0x058 v := by
    rw [hu]
    exact ⟨_, rfl⟩
  obtain ⟨v, ht⟩ := ht
  have hvimg : t.vimg = u.vimg := (congrArg State.vimg ht :)
  have hactive (q : Nat) : seqActive s1 q = seqActive s q := rfl
  have hget {a : Nat} (h4 : a ≠ addrOf .sys 0 0x04C) (h5 : a ≠ addrOf .sys 0 0x058) : getReg t a = getReg u a := by
    rw [ht, getReg_wrAll, if_neg h5, getReg_wr_ne _ _ _ _ _ _ _ h4]
  refine ⟨?_, fun q hq => ⟨?_, fun hidle => ?_⟩, fun a ha h4 h5 => (hget h4 h5).trans (hkept.low a ha)⟩
  · rw [hvimg]
    exact hkept.vimg
  · rw [hvimg, hwait]
    simp [hq, hactive, s1]
  · obtain ⟨hver, hev, hbytes⟩ := hheld q (.inl (List.mem_filter.2 ⟨hq, by simp [hactive, hidle]⟩))
    have hreg (off : Nat) : reg t .seq q off = reg u .seq q off := by
      refine hget ?_ ?_ <;> (simp only [addrOf, ptBase]; omega)
    refine ⟨(hreg _).trans hver, (congrArg (wbit · 8) (hreg _)).trans hev, fun j hj => ?_⟩
    rw [(congrArg State.stores ht :)]
    exact hbytes j hj

end

/-! ## The status and the staging buffer (R101) -/

/-- A command that writes a register of a page, once the page is up. -/
theorem exec_of_reg {pt : PT} {c : Instr} {f : State → State} (hup : ptUp s pt = true)
    (hc : exec c s = .next (whenReg pt f s)) (h : f s = t) : exec c s = .next t := by
  rw [hc, whenReg_of hup, h]

/-- The registers of the staging buffer's port and of its status. -/
def vimgRegs : List Nat := [addrOf .nvm 0 0x100, addrOf .nvm 0 0x10C]

/-- Beside these registers, the buffer, the slots and the record of the tick, everything is as it was. -/
def VimgNear (s t : State) : Prop :=
  regsBut vimgRegs s t ∧ { t with regs := s.regs, vimg := s.vimg, tick := s.tick } = s

theorem VimgNear.wr (h : VimgNear s t) {off : Nat} (ho : addrOf .nvm 0 off ∈ vimgRegs) (hi lo v : Nat) :
    VimgNear s (wr t .nvm 0 off hi lo v) := ⟨regsBut_then h.1 (regsBut_wr _ _ _ _ _ _ _ ho), h.2⟩

/-- The status set over a changed vendor image. -/
theorem setVimgStat_sets (s : State) (x : Vimg) {v : Nat} (hv : v < 16) :
    let t := setVimgStat v { s with vimg := x }
    rd t .nvm 0 0x10C 31 28 = v ∧ t.vimg = x ∧ VimgNear s t := by
  refine ⟨?_, rfl, regsBut_wr _ _ _ _ _ _ _ (by simp [vimgRegs]), rfl⟩
  exact (rd_wr_self _ _ _ _ _ _ _ (by decide) (by decide)).trans (Nat.mod_eq_of_lt hv)

section
variable {o : Nat} (ho : 4 * rd s .nvm 0 0x100 16 2 = o)
include ho

theorem vimgDataAccess_some (w : Word) : vimgDataAccess (some w) s =
    wr (if o < vimgLen then vimgPut o (wordBytes w) s else s) .nvm 0 0x100 16 2 (o / 4 + 1) := by
  subst ho
  rfl

theorem vimgDataAccess_none : vimgDataAccess none s =
    wr { s with rdata := if o < vimgLen then wordAt s.vimg.buf o else 0 } .nvm 0 0x100 16 2 (o / 4 + 1) := by
  subst ho
  rfl

end

/-- The port's address moves on, the status stays. -/
theorem vimgAddr_moves (s : State) (o : Nat) :
    rd (wr s .nvm 0 0x100 16 2 (o / 4 + 1)) .nvm 0 0x100 16 2 = (o / 4 + 1) % 32768 ∧
      rd (wr s .nvm 0 0x100 16 2 (o / 4 + 1)) .nvm 0 0x10C 31 28 = rd s .nvm 0 0x10C 31 28 :=
  ⟨rd_wr_self _ _ _ _ _ _ _ (by decide) (by decide), rd_wr_ne _ _ _ _ _ _ _ _ _ (by decide)⟩

/-- A word put into the buffer. -/
theorem byteAt_putWord (m : Bytes) (o : Nat) (w : Word) (j : Nat) :
    byteAt (putBytes m o (wordBytes w)) j = if o ≤ j ∧ j < o + 4 then (wordBytes w).getD (j - o) 0 else byteAt m j := by
  rw [byteAt_putBytes]
  by_cases h : o ≤ j ∧ j < o + 4
  · rw [dif_pos (show o ≤ j ∧ j < o + (wordBytes w).length from h), if_pos h, List.getD_eq_getElem]
  · rw [dif_neg (show ¬ (o ≤ j ∧ j < o + (wordBytes w).length) from h), if_neg h]

/-- A word written within the buffer. -/
theorem vimgDataAccess_puts {o : Nat} (ho : 4 * rd s .nvm 0 0x100 16 2 = o) (h : o < vimgLen) (w : Word) :
    let t := vimgDataAccess (some w) s
    rd t .nvm 0 0x100 16 2 = (o / 4 + 1) % 32768 ∧ rd t .nvm 0 0x10C 31 28 = 0 ∧ t.vimg.cmd = none ∧ VimgNear s t ∧
      t.vimg.buf = putBytes s.vimg.buf o (wordBytes w) := by
  rw [vimgDataAccess_some ho, if_pos h]
  obtain ⟨hst, hv, hnear⟩ := setVimgStat_sets s { s.vimg with buf := putBytes s.vimg.buf o (wordBytes w), cmd := none }
    (v := 0) (by decide)
  obtain ⟨u, hu⟩ := exists_eq (a' := vimgPut o (wordBytes w) s)
  have hput : vimgPut o (wordBytes w) s =
    setVimgStat 0 { s with vimg := { s.vimg with buf := putBytes s.vimg.buf o (wordBytes w), cmd := none } } := rfl
  rw [← hput, ← hu] at hst hv hnear
  rw [← hu]
  obtain ⟨hmoved, hkept⟩ := vimgAddr_moves u o
  exact ⟨hmoved, hkept.trans hst, (congrArg Vimg.cmd hv :), hnear.wr (by simp [vimgRegs]) _ _ _, (congrArg Vimg.buf hv :)⟩

theorem vimgWriteBy_alone (h : ∀ e ∈ s.tick.ports, e.1 = addrOf .nvm 0 0x104 → e.2.1 = 0) (w : Word) :
    ∃ k, vimgWriteBy 0 w s = { vimgDataAccess (some w) s with tick := k } := by
  unfold vimgWriteBy
  exact portWrite_alone h _ _ _ _

/-! ## The commands (R101) -/

theorem leNat_lt (m : Bytes) : ∀ (n a : Nat), leNat m a n < 256 ^ n
  | 0, _ => Nat.one_pos
  | n + 1, a => by
    have ih := leNat_lt m n (a + 1)
    have hb := (byteAt m a).isLt
    rw [leNat, Nat.pow_succ]
    omega

theorem vimgCheck_lt (m : Bytes) : vimgCheck m < 16 := by
  unfold vimgCheck
  repeat' split
  all_goals decide

/-- What VERIFY_COMPLETE leaves. -/
theorem vimgVerified_ends (h : s.vimg.cmd = some .verify) :
    let t := vimgVerified s
    rd t .nvm 0 0x10C 31 28 = vimgCheck s.vimg.buf ∧ t.vimg = { s.vimg with cmd := none } ∧ VimgNear s t ∧
      (vimgCheck s.vimg.buf = 2 → rd t .nvm 0 0x10C 23 0 = vimgVersion s.vimg.buf) := by
  obtain ⟨hst, hv, hnear⟩ := setVimgStat_sets s { s.vimg with cmd := none } (vimgCheck_lt s.vimg.buf)
  have heq : vimgVerified s = if vimgCheck s.vimg.buf = 2
      then wr (setVimgStat (vimgCheck s.vimg.buf) { s with vimg := { s.vimg with cmd := none } }) .nvm 0 0x10C 23 0
        (vimgVersion s.vimg.buf)
      else setVimgStat (vimgCheck s.vimg.buf) { s with vimg := { s.vimg with cmd := none } } := if_neg (by simp [h])
  obtain ⟨u, hu⟩ := exists_eq (a' := setVimgStat (vimgCheck s.vimg.buf) { s with vimg := { s.vimg with cmd := none } })
  rw [← hu] at hst hv hnear heq
  rw [heq]
  split
  case isFalse hbad => exact ⟨hst, hv, hnear, fun hok => absurd hok hbad⟩
  case isTrue =>
    refine ⟨?_, hv, hnear.wr (by simp [vimgRegs]) _ _ _, fun _ => ?_⟩
    · exact (rd_wr_field _ _ _ _ _ _ _ _ _ (by decide) (by decide) (.inr (by decide))).trans hst
    · refine (rd_wr_self _ _ _ _ _ _ _ (by decide) (by decide)).trans (Nat.mod_eq_of_lt ?_)
      exact leNat_lt s.vimg.buf 3 4

/-- The verdict as the statuses name it. -/
theorem vimgCheck_eq (m : Bytes) : vimgCheck m = if vimgFormat m = false then 3
    else if crc32c (dense m 0 0x10080) ≠ wordAt m 0x10080 then 4
    else if Config.keyOk (mapTake m 0x10084 0x100E5) = false then 5
    else if Config.sigOk (mapTake m 0 0x10145) = false then 6 else 2 := by
  simp only [vimgCheck, Bool.not_eq_true']

/-- An image verified is loaded. -/
theorem vimgLoad_of_verified (h : vimgStat s = 2) (hup : ptUp s .seq = true) :
    vimgLoad s = vendorLoad (.bytes s.vimg.buf) s := if_pos (by simp [h, hup])

/-! ## The end of an install (R101) -/

/-- The image with the buffer in the older slot. -/
def installed (v : Vimg) : Vimg :=
  let img := VImage.bytes v.buf
  let v1 := if v.newerB then { v with slotA := img, newerB := false } else { v with slotB := img, newerB := true }
  { v1 with cmd := none }

/-- The state in which a good install loads its image. -/
def installWritten (s : State) : State :=
  wr (setVimgStat 2 { s with vimg := installed s.vimg }) .nvm 0 0x10C 24 24 (b2n (installed s.vimg).newerB)

theorem installed_slots (v : Vimg) : (installed v).cmd = none ∧ (installed v).newerB = (!v.newerB) ∧
    (if v.newerB then (installed v).slotA = .bytes v.buf ∧ (installed v).slotB = v.slotB
      else (installed v).slotB = .bytes v.buf ∧ (installed v).slotA = v.slotA) := by
  cases h : v.newerB <;> simp [installed, h]

theorem vimgInstalled_failed (h : s.vimg.cmd = some .install) : vimgInstalled false s = setVimgStat 8 { s with vimg :=
    if s.vimg.newerB then { s.vimg with cmd := none, slotA := .spoilt } else { s.vimg with cmd := none, slotB := .spoilt } } := by
  unfold vimgInstalled
  rw [if_neg (by simp [h])]
  cases hb : s.vimg.newerB <;> simp [hb]

theorem vimgInstalled_written (h : s.vimg.cmd = some .install) (hup : ptUp (installWritten s) .seq = true) :
    vimgInstalled true s = vendorLoad (.bytes s.vimg.buf) (installWritten s) := by
  unfold vimgInstalled
  rw [if_neg (by simp [h])]
  exact if_pos hup

theorem installWritten_near (s : State) : VimgNear s (installWritten s) ∧
    rd (installWritten s) .nvm 0 0x10C 31 28 = 2 ∧ rdBit (installWritten s) .nvm 0 0x10C 24 = (!s.vimg.newerB) := by
  obtain ⟨hst, -, hnear⟩ := setVimgStat_sets s (installed s.vimg) (v := 2) (by decide)
  refine ⟨hnear.wr (by simp [vimgRegs]) _ _ _, ?_, ?_⟩
  · exact (rd_wr_field _ _ _ _ _ _ _ _ _ (by decide) (by decide) (.inr (by decide))).trans hst
  · exact (rdBit_wr_bit _ _ _ _ (by decide) _).trans (installed_slots s.vimg).2.1

/-- What stands near keeps the sequencers, their use and the pages' power. -/
theorem VimgNear.seqs (h : VimgNear s t) : vendorSeqs t = vendorSeqs s ∧ (∀ q, seqActive t q = seqActive s q) ∧
    (∀ q, kindOf t q = kindOf s q) ∧ ∀ pt, ptUp t pt = ptUp s pt := by
  obtain ⟨hregs, hrest⟩ := h
  have hreg {pt : PT} {n off : Nat} (hpt : ptBase pt ≠ ptBase .nvm) (hlt : 5 ≤ ptBase pt ∨ ptBase pt = 0 ∧ n = 0)
      (ho : off < 4096) : reg t pt n off = reg s pt n off := by
    refine hregs _ fun hm => ?_
    simp only [vimgRegs, List.mem_cons, List.not_mem_nil, or_false] at hm
    rcases hm with hm | hm
    · have := (addrOf_inj ho (by decide) hm).1
      simp only [ptBase] at *
      omega
    · have := (addrOf_inj ho (by decide) hm).1
      simp only [ptBase] at *
      omega
  have hseq (q : Nat) : reg t .seq q 0x040 = reg s .seq q 0x040 :=
    hreg (by decide) (.inl (by decide)) (by decide)
  have hkind (q : Nat) : kindOf t q = kindOf s q := kindOf_congr (hseq q)
  have hboot : t.boot = s.boot := (congrArg State.boot hrest :)
  have hgroups : t.groups = s.groups := (congrArg State.groups hrest :)
  have hslots : t.slots = s.slots := (congrArg State.slots hrest :)
  have hqs : t.seqs = s.seqs := (congrArg State.seqs hrest :)
  refine ⟨?_, fun q => ?_, hkind, fun pt => ptUp_congr hboot (phase_congr (hreg (by decide) (by decide) (by decide))) pt⟩
  · unfold vendorSeqs
    simp only [hkind]
  · unfold seqActive
    rw [seqShotRuns_congr hgroups (hseq q), getSeq_congr hqs,
      calUses_congr (fun off ho => hreg (by decide) (by decide) ho) hslots]

end Sys2Proof.Machine

open Sys2Proof Sys2Proof.Machine

/-- Settles O21: each access and command by what it sets, a loaded image by the copies made one after another. -/
theorem vendorImageFollowsItsStatus : Obligations.VendorImageFollowsItsStatus := by
  unfold Obligations.VendorImageFollowsItsStatus
  intro s w hstores hup o m st near alone moved verdict loaded
  obtain ⟨hbytes, -, -, -, -, hm, -⟩ := hstores
  have hwrite (h : alone) : ∃ k, exec (.vimgDataAccess (some w)) s = .next { vimgDataAccess (some w) s with tick := k } := by
    obtain ⟨k, hk⟩ := vimgWriteBy_alone h w
    exact ⟨k, exec_of_reg hup rfl hk⟩
  have hread : exec (.vimgDataAccess none) s = .next (wr { portDone (addrOf .nvm 0 0x104) s with
      rdata := if o < vimgLen then wordAt m o else 0 } .nvm 0 0x100 16 2 (o / 4 + 1)) :=
    exec_of_reg hup rfl (vimgDataAccess_none rfl)
  have hverdict : vimgCheck m = verdict := vimgCheck_eq m
  have hload {u : State} (hu : VimgNear s u) :
      let t := vendorLoad (.bytes m) u
      loaded t ∧ reg t .nvm 0 0x10C = reg u .nvm 0 0x10C ∧
        t.vimg = { u.vimg with image := .bytes m, waiting := t.vimg.waiting } := by
    obtain ⟨hseqs, hactive, hkind, -⟩ := hu.seqs
    have hstores : u.stores = s.stores := (congrArg State.stores hu.2 :)
    obtain ⟨hv, hheld, hlow⟩ := vendorLoad_loads hm (s := u) (hstores ▸ hbytes)
    refine ⟨⟨(congrArg Vimg.image hv :), fun q hq => ?_⟩, hlow _ (by decide) (by decide) (by decide), hv⟩
    obtain ⟨hwait, hq⟩ := hheld q (hseqs ▸ hq)
    rw [hactive q] at hwait hq
    refine ⟨hwait, fun hidle => ?_⟩
    obtain ⟨hver, hev, hbytes⟩ := hq hidle
    exact ⟨hver, hev, hkind q ▸ hbytes⟩
  refine ⟨fun ho => ⟨fun h => ?_, ?_⟩, fun ho => ⟨fun h => ?_, ?_⟩, fun hc => ?_, fun key sig hc => ?_, fun key sig hc => ?_,
    fun h => ⟨?_, ?_⟩, fun h hw => ?_, fun h hw => ?_, fun h hq => ?_, fun hc => ⟨?_, fun hq => ?_⟩, ?_⟩
  · obtain ⟨k, hk⟩ := hwrite h
    obtain ⟨hmoved, hst, hcmd, hnear, hbuf⟩ := vimgDataAccess_puts rfl ho w
    exact ⟨_, hk, hmoved, hst, hcmd, hnear, fun j => (congrArg (byteAt · j) hbuf).trans (byteAt_putWord m o w j)⟩
  · obtain ⟨hmoved, hst⟩ := vimgAddr_moves { portDone (addrOf .nvm 0 0x104) s with rdata := wordAt m o } o
    rw [if_pos ho] at hread
    exact ⟨_, hread, hmoved, rfl, rfl, hst⟩
  · obtain ⟨k, hk⟩ := hwrite h
    rw [vimgDataAccess_some rfl, if_neg (Nat.not_lt.2 ho)] at hk
    obtain ⟨hmoved, hst⟩ := vimgAddr_moves s o
    exact ⟨_, hk, hmoved, rfl, hst⟩
  · obtain ⟨hmoved, -⟩ := vimgAddr_moves { portDone (addrOf .nvm 0 0x104) s with rdata := 0 } o
    rw [if_neg (Nat.not_lt.2 ho)] at hread
    exact ⟨_, hread, hmoved, rfl, rfl⟩
  · have hverify : vimgVerify s = setVimgStat 1 { s with vimg := { s.vimg with cmd := some .verify } } :=
      if_neg (by simp [hc])
    exact ⟨_, exec_of_reg hup rfl hverify, setVimgStat_sets s _ (by decide)⟩
  · obtain ⟨hst, hv, hnear, hver⟩ := vimgVerified_ends hc
    exact ⟨_, exec_of_up hup rfl rfl, hst.trans hverdict, hv, hnear, fun h => hver (hverdict.trans h)⟩
  · exact exec_of_up hup rfl (if_pos hc)
  · exact exec_of_reg hup rfl (if_pos h)
  · refine exec_of_reg hup rfl (if_neg ?_)
    have hst : vimgStat s ≠ 2 := h
    simp [hst]
  · have hinstall : vimgInstall s = setVimgStat 7 { s with vimg := s.vimg } :=
      (if_neg (not_not.2 h)).trans (if_pos (by simp [hw]))
    exact ⟨_, exec_of_reg hup rfl hinstall, setVimgStat_sets s _ (by decide)⟩
  · have hinstall : vimgInstall s = setVimgStat 1 { s with vimg := { s.vimg with cmd := some .install } } :=
      (if_neg (not_not.2 h)).trans (if_neg (by simp [hw]))
    exact ⟨_, exec_of_reg hup rfl hinstall, setVimgStat_sets s _ (by decide)⟩
  · obtain ⟨hloaded, hreg, hv⟩ := hload ⟨regsBut_refl _ _, rfl⟩
    exact ⟨_, exec_of_reg hup rfl (vimgLoad_of_verified h hq), hloaded, (congrArg (fget · 31 28) hreg).trans h,
      (congrArg Vimg.slotA hv :), (congrArg Vimg.slotB hv :)⟩
  · obtain ⟨hst, hv, hnear⟩ := setVimgStat_sets s _ (v := 8) (by decide)
    exact ⟨_, exec_of_up hup rfl (vimgInstalled_failed hc), hst, hnear, hv⟩
  · obtain ⟨hnear, hst, hbit⟩ := installWritten_near s
    obtain ⟨hcmd, hnewer, hslots⟩ := installed_slots s.vimg
    obtain ⟨hloaded, hreg, hv⟩ := hload hnear
    have hexec := vimgInstalled_written hc ((hnear.seqs.2.2.2 .seq).trans hq)
    refine ⟨_, exec_of_up hup rfl hexec, hloaded, (congrArg (fget · 31 28) hreg).trans hst,
      (congrArg Vimg.cmd hv).trans hcmd, (congrArg Vimg.newerB hv).trans hnewer,
      (congrArg (wbit · 24) hreg).trans hbit, ?_⟩
    rw [hv]
    exact hslots
  · exact ⟨_, exec_of_reg hup rfl rfl, setVimgStat_sets s _ (by decide)⟩

end

section
/-! The stores' apertures, staging buffers and commits (O19). -/

namespace Sys2Proof.Machine

variable {s t u : State} {a b c j k : Nat}

/-! ## The stores and their registers (R55, R70) -/

/-- What an address in a store's aperture says. -/
theorem storeAt_spec (h : storeAt a = some b) : 0x40000000 ≤ a ∧ inGraph a = false ∧ b ≤ a ∧
    (¬ (isControl b = true ∧ b + 0x3C000 ≤ a) → a < b + storeLen b) := by
  have hc : isControl b = true ↔ b < 0x50000000 := decide_eq_true_iff
  have hg : inGraph a = false ↔ ¬ (gBase ≤ a ∧ a < gBase + gLen) := decide_eq_false_iff_not
  have hbase : gBase = 0x5C000000 := rfl
  rw [hg, hbase]
  unfold storeLen
  simp only [hc]
  unfold storeAt at h
  split_ifs at h <;> cases h <;> (split_ifs <;> omega)

/-- A register of a store's page. -/
def storeReg (b off : Nat) : Nat := addrOf (storePage b).1 (storePage b).2.1 off

/-- The registers that a commit of a store changes. -/
def storeRegs (b : Nat) : List Nat :=
  [storeReg b (statOff b), storeReg b (crcOff b), storeReg b 0x010, storeReg b 0x018]

/-- A base that names a store: its unit's number, the page of a control store, and that of the others. -/
structure StoreUnit (b : Nat) : Prop where
  unit : (storePage b).2.2 < 8
  owner : storeOwner b < 0x100
  control : isControl b = true → (storePage b).1 = .seq ∧ storeOwner b = (storePage b).2.1
  high : isControl b = false → 0x110 ≤ ptBase (storePage b).1

theorem statOff_control (h : isControl b = true) : statOff b = 0x04C := if_pos h

theorem statOff_other (h : isControl b = false) : statOff b = 0xE00 := if_neg (by simp [h])

theorem statOff_cases (b : Nat) : statOff b = 0x04C ∨ statOff b = 0xE00 := by
  cases h : isControl b
  · exact .inr (statOff_other h)
  · exact .inl (statOff_control h)

theorem crcOff_eq (b : Nat) : crcOff b = statOff b + 4 := rfl

theorem storeReg_inj {off off' : Nat} (h : storeReg b off = storeReg b off') : off = off' := Nat.add_left_cancel h

/-- The status registers of a store stand on one page. -/
theorem storeRegs_page (ha : a ∈ storeRegs b) : a / 4096 = ptBase (storePage b).1 + (storePage b).2.1 := by
  have hoff {off : Nat} (h : off < 4096) : storeReg b off / 4096 = ptBase (storePage b).1 + (storePage b).2.1 := by
    unfold storeReg addrOf
    omega
  have hc := crcOff_eq b
  have hs := statOff_cases b
  simp only [storeRegs, List.mem_cons, List.not_mem_nil, or_false] at ha
  rcases ha with rfl | rfl | rfl | rfl <;> exact hoff (by omega)

theorem pagesBut_of_storeRegs (h : regsBut (storeRegs b) s t) :
    pagesBut [ptBase (storePage b).1 + (storePage b).2.1] s t := fun a ha =>
  h a fun hm => ha (by simp [storeRegs_page hm])

/-! ## Load status and events -/

/-- The load status set. -/
theorem setLoadStat_shows (b : Nat) {v : Nat} (hv : v < 16) (s : State) :
    rd (setLoadStat b v s) (storePage b).1 (storePage b).2.1 (statOff b) 31 28 = v ∧
      regsBut [storeReg b (statOff b)] s (setLoadStat b v s) ∧ onlyRegs s (setLoadStat b v s) :=
  ⟨(rd_wr_self _ _ _ _ _ _ _ (by decide) (by decide)).trans (Nat.mod_eq_of_lt hv),
    regsBut_wr _ _ _ _ _ _ _ (List.mem_singleton_self _), rfl⟩

theorem regsBut_stat (h : regsBut [storeReg b (statOff b)] s t) : regsBut (storeRegs b) s t :=
  regsBut_mono h fun a ha => by
    rw [List.mem_singleton.1 ha]
    exact List.mem_cons_self

/-- A commit that failed with a status. -/
structure Rejected (b v : Nat) (s t : State) : Prop where
  status : rd t (storePage b).1 (storePage b).2.1 (statOff b) 31 28 = v
  raised : (if isControl b then rdBit t (storePage b).1 (storePage b).2.1 0x018 3
    else rdBit t (storePage b).1 (storePage b).2.1 0x010 6) = true
  regs : regsBut (storeRegs b) s t
  rest : onlyRegsIrq s t

theorem Rejected.parts {v : Nat} (h : Rejected b v s t) :
    rd t (storePage b).1 (storePage b).2.1 (statOff b) 31 28 = v ∧
      (if isControl b then rdBit t (storePage b).1 (storePage b).2.1 0x018 3
        else rdBit t (storePage b).1 (storePage b).2.1 0x010 6) = true ∧ regsBut (storeRegs b) s t ∧ onlyRegsIrq s t :=
  ⟨h.status, h.raised, h.regs, h.rest⟩

/-- LOAD_FAIL after a status was set. -/
theorem loadFail_rejects (hb : StoreUnit b) {v : Nat} (hst : rd u (storePage b).1 (storePage b).2.1 (statOff b) 31 28 = v)
    (hregs : regsBut (storeRegs b) s u) (hrest : onlyRegs s u) : Rejected b v s (loadFail b u) := by
  have hs := statOff_cases b
  have hrest' := onlyRegsIrq_of_onlyRegs hrest
  cases hc : isControl b
  case true =>
    have hfail : loadFail b u = raiseFault (storePage b).1 (storePage b).2.1 3 u := by
      rw [(hb.control hc).1]
      exact if_pos hc
    rw [hfail]
    refine ⟨?_, ?_, regsBut_then hregs (regsBut_raiseFault _ _ _ _ (by simp [storeRegs, storeReg])),
      onlyRegsIrq_trans hrest' (onlyRegsIrq_raiseFault _ _ _ _)⟩
    · unfold rd at hst ⊢
      rw [reg_raiseFault_ne _ _ _ _ (addrOf_ne_off (by omega)), hst]
    · rw [if_pos hc]
      exact rdBit_raiseFault_self _ _ _ _ (by decide)
  case false =>
    have hfail : loadFail b u = raiseEvt (storePage b).1 (storePage b).2.1 6 u := if_neg (by simp [hc])
    rw [hfail]
    refine ⟨?_, ?_, regsBut_then hregs (regsBut_raiseEvt _ _ _ _ (by simp [storeRegs, storeReg])),
      onlyRegsIrq_trans hrest' (onlyRegsIrq_raiseEvt _ _ _ _)⟩
    · unfold rd at hst ⊢
      rw [reg_raiseEvt_ne _ _ _ _ (addrOf_ne_off (by omega)), hst]
    · rw [if_neg (by simp [hc])]
      exact rdBit_raiseEvt_self _ _ _ _ (by decide)

/-! ## Staging (R68, R69) -/

theorem getStaging_setStaging_self (p : Nat) (x : Staging) (s : State) : getStaging (setStaging p x s) p = x :=
  mapGet_mapSet_self _ _ _ _

theorem getStaging_setStaging_ne (p : Nat) (x : Staging) (s : State) {r : Nat} (h : r ≠ p) :
    getStaging (setStaging p x s) r = getStaging s r := mapGet_mapSet_of_ne _ _ _ h

theorem bytesOk_getStaging (h : ∀ e ∈ s.staging, bytesOk e.2.data) (p : Nat) : bytesOk (getStaging s p).data := by
  unfold getStaging
  rcases mapGet_eq_initial_or_mem (fun _ => ({} : Staging)) p s.staging with h0 | ⟨e, he, h0⟩
  · rw [h0]
    rfl
  · rw [h0]
    exact h e he

/-- The vendor region of a control store. -/
def vendorPart (b j : Nat) : Prop := isControl b = true ∧ b + 0x3C000 ≤ j

theorem storeByte_staged (hj : storeAt j = some b) (hv : ¬ vendorPart b j) (p : Nat) (s : State) :
    storeByte s p j = if (getStaging s p).bound = some b then byteAt (getStaging s p).data j else byteAt s.stores j := by
  unfold storeByte
  rw [hj]
  refine if_neg ?_
  simpa [vendorPart] using hv

theorem storeByte_vendor (hj : storeAt j = some b) (hv : vendorPart b j) (p : Nat) (s : State) : storeByte s p j = 0 := by
  unfold storeByte
  rw [hj]
  exact if_pos (by simpa [vendorPart] using hv)

section
variable (p : Nat) (bs : List Byte) (s : State)

theorem stageBytes_vendor (ha : storeAt a = some b) (hv : vendorPart b a) :
    stageBytes p a bs s = (5, setLoadStat b 5 s) := by
  unfold stageBytes
  rw [ha]
  exact if_pos (by simpa [vendorPart] using hv)

variable {p s}

theorem stageBytes_elsewhere (ha : storeAt a = some b) (hv : ¬ vendorPart b a) (hx : (getStaging s p).bound = some c)
    (hc : c ≠ b) : stageBytes p a bs s = (6, setLoadStat b 6 s) := by
  unfold stageBytes
  rw [ha]
  refine (if_neg (by simpa [vendorPart] using hv)).trans ?_
  dsimp only
  rw [hx]
  exact if_neg hc

theorem stageBytes_bound (ha : storeAt a = some b) (hv : ¬ vendorPart b a) (hx : (getStaging s p).bound = some b) :
    (stageBytes p a bs s).2 = setStaging p { getStaging s p with data := putBytes (getStaging s p).data a bs } s := by
  unfold stageBytes
  rw [ha]
  refine (congrArg Prod.snd (if_neg (by simpa [vendorPart] using hv))).trans ?_
  dsimp only
  rw [hx]
  exact congrArg Prod.snd (if_pos rfl)

theorem stageBytes_free (ha : storeAt a = some b) (hv : ¬ vendorPart b a) (hx : (getStaging s p).bound = none) :
    (stageBytes p a bs s).2 =
      setStaging p { bound := some b, data := putBytes (mapTake s.stores b (b + storeLen b)) a bs } s := by
  unfold stageBytes
  rw [ha]
  refine (congrArg Prod.snd (if_neg (by simpa [vendorPart] using hv))).trans ?_
  dsimp only
  rw [hx]

end

/-- A word staged: the buffer is the store's, and the path reads the word. -/
structure Staged (p a b : Nat) (v : Word) (s t : State) : Prop where
  bound : (getStaging t p).bound = some b
  bytes : ∀ j, storeAt j = some b → ¬ vendorPart b j → storeByte t p j =
    if a ≤ j ∧ j < a + 4 then (wordBytes v).getD (j - a) 0 else storeByte s p j
  others : ∀ r, r ≠ p → getStaging t r = getStaging s r
  rest : { t with staging := s.staging } = s

theorem stageBytes_stages (hok : bytesOk s.stores) (ha : storeAt a = some b) (hv : ¬ vendorPart b a) (p : Nat) (v : Word)
    (hx : (getStaging s p).bound = none ∨ (getStaging s p).bound = some b) :
    Staged p a b v s (stageBytes p a (wordBytes v) s).2 := by
  have hset (y : Staging) (hy : y.bound = some b)
      (hbytes : ∀ j, storeAt j = some b → ¬ vendorPart b j → byteAt y.data j =
        if a ≤ j ∧ j < a + 4 then (wordBytes v).getD (j - a) 0 else storeByte s p j) :
      Staged p a b v s (setStaging p y s) := by
    have hself := getStaging_setStaging_self p y s
    refine ⟨(congrArg Staging.bound hself).trans hy, fun j hj hvj => ?_, fun r hr => getStaging_setStaging_ne p y s hr, rfl⟩
    rw [storeByte_staged hj hvj, hself, if_pos hy, hbytes j hj hvj]
  rcases hx with hx | hx
  · rw [stageBytes_free _ ha hv hx]
    refine hset _ rfl fun j hj hvj => ?_
    obtain ⟨-, -, hlo, hhi⟩ := storeAt_spec hj
    have hin : b ≤ j ∧ j < b + storeLen b := ⟨hlo, hhi hvj⟩
    rw [byteAt_putWord, storeByte_staged hj hvj, hx, byteAt_mapTake _ _ _ hok, if_pos hin]
    rfl
  · rw [stageBytes_bound _ ha hv hx]
    refine hset _ hx fun j hj hvj => ?_
    rw [byteAt_putWord, storeByte_staged hj hvj, if_pos hx]

/-- APERTURE_WRITE of a store whose page is up stages the word's bytes. -/
theorem exec_apertureWrite {p : Path} {addr : Word} (hp : pathUp s p = true) (ha : storeAt addr.toNat = some b)
    (h4 : addr.toNat % 4 = 0) (hup : ptUp s (storePage b).1 = true)
    (v : Word) :
    exec (.apertureWrite p addr v) s = .next (stageBytes (pathNo p) addr.toNat (wordBytes v) s).2 := by
  obtain ⟨hlow, hgraph, -⟩ := storeAt_spec ha
  have hready : apertureUp s addr.toNat = true := by
    unfold apertureUp
    rw [hgraph, ha]
    exact hup
  refine congrArg Host.Outcome.next ((whenPath_of hp).trans ?_)
  refine (if_pos hlow).trans ((if_pos h4).trans ((if_pos hlow).trans ((if_pos hready).trans ((if_pos hready).trans ?_))))
  exact congrArg Prod.snd (if_neg (by simp [hgraph]))

/-! ## The check of a commit (R70, R124) -/

/-- The unit of a store that is no control store is noted; the check reads nothing of it. -/
theorem noteUnit_control (h : isControl b = true) (s : State) : noteUnit b s = s := if_pos h

theorem noteUnit_other (h : isControl b = false) (s : State) :
    noteUnit b s = wr s (storePage b).1 (storePage b).2.1 0xE00 2 0 (storePage b).2.2 := if_neg (by simp [h])

theorem commitCheck_other (h : isControl b = false) (s : State) (m : Bytes) (crc : Word) :
    commitCheck s b m crc = if crc32c (dense m b (storeLen b)) ≠ crc then (2, none) else (0, none) := by
  unfold commitCheck
  simp only [h]
  rfl

theorem commitCheck_noteUnit (s : State) (m : Bytes) (crc : Word) :
    commitCheck (noteUnit b s) b m crc = commitCheck s b m crc := by
  cases h : isControl b
  · rw [commitCheck_other h, commitCheck_other h]
  · rw [noteUnit_control h]

theorem commitCheck_crc {s : State} {m : Bytes} {crc : Word} (h : crc32c (dense m b (storeLen b)) ≠ crc) :
    commitCheck s b m crc = (2, none) := if_pos h

theorem illegalWord_status {s : State} {q st w : Nat} {m : Bytes} (h : illegalWord s q m = some (st, w)) : st < 16 := by
  unfold illegalWord at h
  extract_lets kind f at h
  have hf (w : Nat) : f w < 16 := by
    simp only [f]
    split_ifs <;> decide
  split at h
  · cases h
    exact hf _
  · cases h

/-- A status of the check fits its field, and a word is named in a control store only. -/
theorem commitCheck_status (s : State) (b : Nat) (m : Bytes) (crc : Word) :
    (commitCheck s b m crc).1 < 16 ∧ (isControl b = false → (commitCheck s b m crc).2 = none) := by
  cases h : isControl b
  · rw [commitCheck_other h]
    split <;> simp
  · refine ⟨?_, nofun⟩
    unfold commitCheck
    simp only [h]
    split
    · decide
    · split
      · contradiction
      · split
        · exact Nat.lt_of_sub_eq_succ rfl
        · split
          · exact illegalWord_status ‹_›
          · decide

/-! ## A commit refused or rejected (R70, R124, R479) -/

section
variable {p : Nat} {crc : Word}

theorem commitStore_unbound (hx : (getStaging s p).bound = none) (b : Nat) (crc : Word) :
    (commitStore p b crc s).2 = loadFail b (setLoadStat b 7 s) := by
  unfold commitStore
  dsimp only
  rw [hx]

theorem commitStore_elsewhere (hx : (getStaging s p).bound = some c) (hc : c ≠ b) (crc : Word) :
    (commitStore p b crc s).2 = loadFail b (setLoadStat b 6 s) := by
  unfold commitStore
  dsimp only
  rw [hx]
  exact congrArg Prod.snd (if_pos hc)

/-- The word that a failed check names. -/
def nameWord (b : Nat) (w : Option Nat) (s : State) : State :=
  match w with
  | some w => wr s .seq (storeOwner b) 0x04C 12 0 w
  | none => s

/-- An accepted image waits, and a control store's sequencer is good again. -/
def accept (e : Accepted) (s : State) : State :=
  let s1 := setLoadStat e.store 1
    { s with accepted := s.accepted.filter (fun y => decide (y.store ≠ e.store)) ++ [e] }
  if isControl e.store then storeGood (storePage e.store).2.1 s1 else s1

theorem commitStore_bound (hx : (getStaging s p).bound = some b) (crc : Word) :
    (commitStore p b crc s).2 =
      let r := commitCheck s b (getStaging s p).data crc
      let e : Accepted := { path := p, store := b, crc := crc, data := (getStaging s p).data }
      if r.1 = 0 then
        if storeBusy (accept e (noteUnit b s)) b then accept e (noteUnit b s) else copyImage (accept e (noteUnit b s)) e
      else loadFail b (nameWord b r.2 (setLoadStat b r.1 (noteUnit b s))) := by
  unfold commitStore
  dsimp only
  rw [hx]
  dsimp only
  rw [if_neg (by simp), commitCheck_noteUnit]
  split
  · rfl
  · rfl

end

/-- A register that is none of a store's status registers, on another page. -/
theorem storeRegs_other (h : regsBut (storeRegs b) s t) {pt : PT} {n off : Nat} (ho : off < 4096)
    (hn : ptBase pt + n ≠ ptBase (storePage b).1 + (storePage b).2.1) : reg t pt n off = reg s pt n off := by
  refine h _ fun hm => hn ?_
  rw [← storeRegs_page hm]
  unfold addrOf
  omega

theorem storeBusy_congr (hb : StoreUnit b) (h : regsBut (storeRegs b) s t) (hg : t.groups = s.groups) (hs : t.slots = s.slots) :
    storeBusy t b = storeBusy s b := by
  have hown := hb.owner
  have hcal : ptBase .cal = 0xC := rfl
  have hseq : ptBase .seq = 0x10 := rfl
  have hpage : isControl b = true → ptBase (storePage b).1 = 0x10 := fun hc => by
    rw [(hb.control hc).1]
    rfl
  have hlow : 0x10 ≤ ptBase (storePage b).1 := by
    cases hc : isControl b
    · exact Nat.le_trans (by decide) (hb.high hc)
    · exact (hpage hc).ge
  have hreg : reg t .seq (storeOwner b) 0x040 = reg s .seq (storeOwner b) 0x040 := by
    cases hc : isControl b
    · have := hb.high hc
      exact storeRegs_other h (by decide) (by omega)
    · obtain ⟨hpt, hn⟩ := hb.control hc
      refine h _ fun hm => ?_
      have hne {off : Nat} (ho : off ≠ 0x040) : addrOf .seq (storeOwner b) 0x040 ≠ storeReg b off := by
        unfold storeReg
        rw [hpt, hn]
        exact addrOf_ne_off ho.symm
      have hcrc := crcOff_eq b
      rw [statOff_control hc] at hcrc
      simp only [storeRegs, statOff_control hc, hcrc, List.mem_cons, List.not_mem_nil, or_false] at hm
      rcases hm with hm | hm | hm | hm <;> exact hne (by decide) hm
  unfold storeBusy
  rw [seqShotRuns_congr hg hreg, calUses_congr (fun off ho => storeRegs_other h ho (by omega)) hs]

/-- Noting the unit changes its field only. -/
theorem noteUnit_keeps (b : Nat) (s : State) : regsBut [storeReg b (statOff b)] s (noteUnit b s) ∧ onlyRegs s (noteUnit b s) := by
  cases h : isControl b
  · rw [noteUnit_other h, statOff_other h]
    exact ⟨regsBut_wr _ _ _ _ _ _ _ (List.mem_singleton_self _), rfl⟩
  · rw [noteUnit_control h]
    exact ⟨regsBut_refl _ _, rfl⟩

theorem noteUnit_unit (hb : StoreUnit b) (h : isControl b = false) (s : State) :
    rd (noteUnit b s) (storePage b).1 (storePage b).2.1 0xE00 2 0 = (storePage b).2.2 := by
  rw [noteUnit_other h]
  exact (rd_wr_self _ _ _ _ _ _ _ (by decide) (by decide)).trans (Nat.mod_eq_of_lt hb.unit)

/-- The load status set leaves the unit. -/
theorem setLoadStat_unit (h : isControl b = false) (v : Nat) (s : State) :
    rd (setLoadStat b v s) (storePage b).1 (storePage b).2.1 0xE00 2 0 =
      rd s (storePage b).1 (storePage b).2.1 0xE00 2 0 := by
  unfold setLoadStat
  dsimp only
  rw [statOff_other h]
  exact rd_wr_field _ _ _ _ _ _ _ _ _ (by decide) (by decide) (.inl (by decide))

/-- A check that fails: its status, and the word it names. -/
theorem failed_check (hb : StoreUnit b) {r : Nat × Option Nat} (hr : r.1 < 16) (hw : isControl b = false → r.2 = none)
    (s : State) :
    let u := nameWord b r.2 (setLoadStat b r.1 (noteUnit b s))
    rd u (storePage b).1 (storePage b).2.1 (statOff b) 31 28 = r.1 ∧ regsBut (storeRegs b) s u ∧ onlyRegs s u ∧
      ∀ w, r.2 = some w → isControl b = true →
        rd u (storePage b).1 (storePage b).2.1 (statOff b) 12 0 = w % 8192 := by
  obtain ⟨hregs0, hrest0⟩ := noteUnit_keeps b s
  obtain ⟨hst, hregs1, hrest1⟩ := setLoadStat_shows b hr (noteUnit b s)
  have hrest := onlyRegs_trans hrest0 hrest1
  have hregs := regsBut_stat (regsBut_then hregs0 hregs1)
  obtain ⟨u1, hu1⟩ := exists_eq (a' := setLoadStat b r.1 (noteUnit b s))
  rw [← hu1] at hst hrest hregs ⊢
  obtain ⟨v, w⟩ := r
  cases w with
  | none => exact ⟨hst, hregs, hrest, nofun⟩
  | some w =>
    have hc : isControl b = true := Bool.not_eq_false _ ▸ fun hc => nomatch hw hc
    obtain ⟨hpt, hn⟩ := hb.control hc
    have hname : nameWord b (some w) u1 = wr u1 (storePage b).1 (storePage b).2.1 (statOff b) 12 0 w := by
      rw [hpt, ← hn, statOff_control hc]
      rfl
    rw [hname]
    refine ⟨?_, regsBut_then hregs (regsBut_wr _ _ _ _ _ _ _ (by simp [storeRegs, storeReg])),
      onlyRegs_trans hrest rfl, fun x hx _ => ?_⟩
    · exact (rd_wr_field _ _ _ _ _ _ _ _ _ (by decide) (by decide) (.inr (by decide))).trans hst
    · cases hx
      exact rd_wr_self _ _ _ _ _ _ _ (by decide) (by decide)

/-- LOAD_FAIL leaves the status register. -/
theorem loadFail_stat (hb : StoreUnit b) (s : State) (hi lo : Nat) :
    rd (loadFail b s) (storePage b).1 (storePage b).2.1 (statOff b) hi lo =
      rd s (storePage b).1 (storePage b).2.1 (statOff b) hi lo := by
  have hs := statOff_cases b
  unfold loadFail rd
  dsimp only
  split
  case isTrue hc =>
    rw [(hb.control hc).1, reg_raiseFault_ne _ _ _ _ (addrOf_ne_off (by omega))]
  case isFalse => rw [reg_raiseEvt_ne _ _ _ _ (addrOf_ne_off (by omega))]

/-! ## An image accepted and copied (R70, R71, R98, R111) -/

/-- A store is good: a control store's sequencer may take part in shots, another's unit shows. -/
def StoreGood (b : Nat) (t : State) : Prop :=
  if isControl b then (getSeq t (storePage b).2.1).st ≠ .storeBad ∧ (storePage b).2.1 ∉ t.unchecked
  else rd t (storePage b).1 (storePage b).2.1 0xE00 2 0 = (storePage b).2.2

theorem storeGood_good (q : Nat) (s : State) : (getSeq (storeGood q s) q).st ≠ .storeBad ∧ q ∉ (storeGood q s).unchecked := by
  unfold storeGood
  extract_lets x s1
  split
  case isTrue =>
    refine ⟨?_, by simp [s1, setSeq]⟩
    have hset : getSeq (setSeq s1 q { x with st := .idle }) q = { x with st := .idle } := mapGet_mapSet_self _ _ _ _
    rw [hset]
    exact nofun
  case isFalse h => exact ⟨fun e => h (beq_iff_eq.2 e), by simp [s1]⟩

theorem storeGood_eq (q : Nat) (s : State) :
    storeGood q s = { s with unchecked := (storeGood q s).unchecked, seqs := (storeGood q s).seqs } := by
  unfold storeGood
  extract_lets x s1
  split
  · rfl
  · rfl

/-- What no acceptance touches. -/
structure Beside (s t : State) : Prop where
  stores : t.stores = s.stores
  staging : t.staging = s.staging
  groups : t.groups = s.groups
  slots : t.slots = s.slots

theorem Beside.trans (h : Beside s t) (h' : Beside t u) : Beside s u :=
  ⟨h'.stores.trans h.stores, h'.staging.trans h.staging, h'.groups.trans h.groups, h'.slots.trans h.slots⟩

theorem Beside.of_onlyRegs (h : onlyRegs s t) : Beside s t := by
  rw [onlyRegs_iff.1 h]
  exact ⟨rfl, rfl, rfl, rfl⟩

/-- What the acceptance of an image does. -/
structure AcceptedIn (e : Accepted) (s t : State) : Prop where
  status : rd t (storePage e.store).1 (storePage e.store).2.1 (statOff e.store) 31 28 = 1
  waits : e ∈ t.accepted
  regs : regsBut (storeRegs e.store) s t
  good : StoreGood e.store t
  beside : Beside s t

theorem accept_accepts {e : Accepted} (hb : StoreUnit e.store) (s : State) : AcceptedIn e s (accept e (noteUnit e.store s)) := by
  obtain ⟨hregs0, hrest0⟩ := noteUnit_keeps e.store s
  have hunit := noteUnit_unit hb (s := s)
  obtain ⟨u, hu⟩ := exists_eq (a' := noteUnit e.store s)
  rw [← hu] at hregs0 hrest0 hunit ⊢
  obtain ⟨v, hv⟩ := exists_eq
    (a' := setLoadStat e.store 1 { u with accepted := u.accepted.filter (fun y => decide (y.store ≠ e.store)) ++ [e] })
  obtain ⟨hst, hregs1, hrest1⟩ := setLoadStat_shows e.store (v := 1) (by decide)
    { u with accepted := u.accepted.filter (fun y => decide (y.store ≠ e.store)) ++ [e] }
  have hunit1 := setLoadStat_unit (b := e.store) (v := 1)
    (s := { u with accepted := u.accepted.filter (fun y => decide (y.store ≠ e.store)) ++ [e] })
  have haccept : accept e u = if isControl e.store then storeGood (storePage e.store).2.1 v else v := hv ▸ rfl
  rw [← hv] at hst hregs1 hrest1 hunit1
  have hregs := regsBut_stat (regsBut_then hregs0 hregs1)
  have hwaits : e ∈ v.accepted := by
    rw [(congrArg State.accepted (onlyRegs_iff.1 hrest1) :)]
    simp
  have hbeside1 := Beside.of_onlyRegs hrest1
  have hbeside : Beside s v :=
    (Beside.of_onlyRegs hrest0).trans ⟨hbeside1.stores, hbeside1.staging, hbeside1.groups, hbeside1.slots⟩
  rw [haccept]
  cases hc : isControl e.store
  case false =>
    refine ⟨hst, hwaits, hregs, ?_, hbeside⟩
    unfold StoreGood
    rw [if_neg (by simp [hc])]
    exact (hunit1 hc).trans (hunit hc)
  case true =>
    rw [if_pos rfl]
    have hgood := storeGood_good (storePage e.store).2.1 v
    have heq := storeGood_eq (storePage e.store).2.1 v
    obtain ⟨w, hw⟩ := exists_eq (a' := storeGood (storePage e.store).2.1 v)
    rw [← hw] at heq hgood ⊢
    have hwregs := (congrArg State.regs heq :)
    refine ⟨(rd_congr hwregs ..).trans hst, (congrArg State.accepted heq :) ▸ hwaits,
      fun a ha => (getReg_congr hwregs a).trans (hregs a ha), ?_, hbeside.trans ?_⟩
    · unfold StoreGood
      rwa [if_pos hc]
    · rw [heq]
      exact ⟨rfl, rfl, rfl, rfl⟩

/-- What catching up a store's outputs may do: events and counters of its page, never its load status. -/
structure CaughtUp (pt : PT) (n : Nat) (s t : State) : Prop where
  stores : t.stores = s.stores
  staging : t.staging = s.staging
  page : pagesBut [ptBase pt + n] s t
  unit : reg t pt n 0xE00 = reg s pt n 0xE00

namespace CaughtUp
variable {pt : PT} {n : Nat}

theorem refl (s : State) : CaughtUp pt n s s := ⟨rfl, rfl, fun _ _ => rfl, rfl⟩

theorem trans (h : CaughtUp pt n s t) (h' : CaughtUp pt n t u) : CaughtUp pt n s u :=
  ⟨h'.stores.trans h.stores, h'.staging.trans h.staging, fun a ha => (h'.page a ha).trans (h.page a ha), h'.unit.trans h.unit⟩

theorem ite {p : Prop} [Decidable p] (ht : CaughtUp pt n s t) (hu : CaughtUp pt n s u) : CaughtUp pt n s (if p then t else u) := by
  split
  · exact ht
  · exact hu

theorem of_regsBut {off : Nat} (h : regsBut [addrOf pt n off] s t) (ho : off < 0xE00) (hs : t.stores = s.stores)
    (hg : t.staging = s.staging) : CaughtUp pt n s t := by
  refine ⟨hs, hg, fun a ha => h a fun hm => ha ?_, h _ fun hm => ?_⟩
  · rw [List.mem_singleton.1 hm]
    simp only [addrOf, List.mem_singleton]
    omega
  · have := (addrOf_inj (by decide) (by omega) (List.mem_singleton.1 hm)).2
    omega

theorem raiseEvt (bit : Nat) (s : State) : CaughtUp pt n s (raiseEvt pt n bit s) :=
  of_regsBut (regsBut_raiseEvt _ _ _ _ (List.mem_singleton_self _)) (by decide) (raiseEvt_stores ..) (raiseEvt_staging ..)

theorem raiseEvtIf (c : Bool) (bit : Nat) (s : State) : CaughtUp pt n s (raiseEvtIf c pt n bit s) :=
  ite (.raiseEvt bit s) (.refl s)

theorem bump {off : Nat} (ho : off < 0xE00) (hi lo k : Nat) (s : State) : CaughtUp pt n s (bump s pt n off hi lo k) :=
  of_regsBut (regsBut_bump _ _ _ _ _ _ _ (List.mem_singleton_self _)) ho rfl rfl

theorem raiseFirst (bit : Nat) (s : State) : CaughtUp pt n s (raiseFirst pt n bit s) := by
  unfold Machine.raiseFirst
  extract_lets key
  have hseen : CaughtUp pt n s { s with seen := key :: s.seen } := ⟨rfl, rfl, fun _ _ => rfl, rfl⟩
  exact ite (.refl s) (hseen.trans (.raiseEvt bit _))

theorem outCatch {out : Nat} (h : outPage out = (pt, n)) (s : State) : CaughtUp pt n s (outCatch out s) := by
  unfold Machine.outCatch outBump
  rw [h]
  extract_lets x b s1 k
  have h1 : CaughtUp pt n s s1 := ⟨rfl, rfl, fun _ _ => rfl, rfl⟩
  exact ite (.refl s) (ite h1 (h1.trans (.trans (.bump (by decide) _ _ _ s1) (.raiseFirst 2 _))))

theorem fluxPost (o : Nat) (f : Flux) (s : State) : CaughtUp .flx (flxPage o) s (fluxPost o f s) := by
  unfold Machine.fluxPost
  extract_lets s1 s2 s3 s4
  have hoff : flxOff o 0x3C < 0xE00 := by
    unfold flxOff
    omega
  have h1 : CaughtUp .flx (flxPage o) s s1 := ⟨rfl, rfl, fun _ _ => rfl, rfl⟩
  have h2 : CaughtUp .flx (flxPage o) s1 s2 := ite (.refl s1) (.trans (.bump hoff _ _ _ s1) (.raiseFirst 1 _))
  have h3 : CaughtUp .flx (flxPage o) s2 s3 := .raiseEvtIf _ 5 s2
  have h4 : CaughtUp .flx (flxPage o) s3 s4 := ite (.refl s3) (.trans (.bump (by decide) _ _ _ s3) (.raiseEvt 2 _))
  exact h1.trans (h2.trans (h3.trans (h4.trans (.raiseEvtIf _ 8 s4))))

theorem fluxCatch (o : Nat) (s : State) : CaughtUp .flx (flxPage o) s (fluxCatch o s) := by
  unfold Machine.fluxCatch
  exact ite (.refl s) (ite ⟨rfl, rfl, fun _ _ => rfl, rfl⟩ (.fluxPost o _ s))

end CaughtUp

/-- The copy of an image once the outputs that play from its store are caught up. -/
def copyInto (e : Accepted) (s : State) : State :=
  let s1 := { s with
    stores := mapSplice e.data s.stores e.store (e.store + storeLen e.store)
    accepted := s.accepted.filter (fun x => decide (x ≠ e))
    committed := mapSet (fun _ => none) s.committed e.store (some e.crc) }
  let s2 := wrAll (setLoadStat e.store 0 s1) (storePage e.store).1 (storePage e.store).2.1 (crcOff e.store) e.crc.toNat
  loadDone e.store (if (getStaging s2 e.path).bound = some e.store then unbind e.path s2 else s2)

theorem copyImage_eq (e : Accepted) (s : State) : copyImage s e = copyInto e (catchStore e.store s) := rfl

/-- What a copy does. -/
structure Copied (e : Accepted) (s t : State) : Prop where
  status : rd t (storePage e.store).1 (storePage e.store).2.1 (statOff e.store) 31 28 = 0
  crc : reg t (storePage e.store).1 (storePage e.store).2.1 (crcOff e.store) = e.crc
  done : rdBit t (storePage e.store).1 (storePage e.store).2.1 0x010 7 = true
  unbound : getStaging t e.path = {}
  stores : t.stores = mapSplice e.data s.stores e.store (e.store + storeLen e.store)
  regs : regsBut (storeRegs e.store) s t
  good : StoreGood e.store s → StoreGood e.store t

theorem StoreGood.of_same (h : StoreGood b s) (hq : t.seqs = s.seqs) (hu : t.unchecked = s.unchecked)
    (hunit : isControl b = false → rd t (storePage b).1 (storePage b).2.1 0xE00 2 0 =
      rd s (storePage b).1 (storePage b).2.1 0xE00 2 0) : StoreGood b t := by
  unfold StoreGood at h ⊢
  split
  case isTrue hc =>
    rw [if_pos hc] at h
    rwa [getSeq_congr hq, hu]
  case isFalse hc =>
    rw [if_neg hc] at h
    exact (hunit (Bool.not_eq_true _ ▸ hc)).trans h

theorem copyInto_copies {e : Accepted} (hx : (getStaging s e.path).bound = some e.store) : Copied e s (copyInto e s) := by
  obtain ⟨s1, hs1⟩ := exists_eq (a' := { s with
    stores := mapSplice e.data s.stores e.store (e.store + storeLen e.store)
    accepted := s.accepted.filter (fun x => decide (x ≠ e))
    committed := mapSet (fun _ => none) s.committed e.store (some e.crc) })
  have hs1regs : s1.regs = s.regs := hs1 ▸ rfl
  have hs1stores : s1.stores = mapSplice e.data s.stores e.store (e.store + storeLen e.store) := hs1 ▸ rfl
  have hs1staging : s1.staging = s.staging := hs1 ▸ rfl
  have hs1seqs : s1.seqs = s.seqs ∧ s1.unchecked = s.unchecked := hs1 ▸ ⟨rfl, rfl⟩
  obtain ⟨hst, hregs1, hrest1⟩ := setLoadStat_shows e.store (v := 0) (by decide) s1
  have hunit1 := setLoadStat_unit (b := e.store) (v := 0) (s := s1)
  obtain ⟨u, hu⟩ := exists_eq (a' := setLoadStat e.store 0 s1)
  obtain ⟨v, hv⟩ := exists_eq (a' := unbind e.path
    (wrAll u (storePage e.store).1 (storePage e.store).2.1 (crcOff e.store) e.crc.toNat))
  have hvregs : v.regs = (wrAll u (storePage e.store).1 (storePage e.store).2.1 (crcOff e.store) e.crc.toNat).regs := hv ▸ rfl
  have hcopy : copyInto e s = loadDone e.store v := by
    unfold copyInto
    dsimp only
    rw [← hs1, ← hu, hv]
    refine congrArg (loadDone e.store) (if_pos ?_)
    have hus : u.staging = s.staging := by
      rw [hu, ← hs1staging]
      rfl
    exact (congrArg (fun m => (mapGet (fun _ => ({} : Staging)) m e.path).bound) hus).trans hx
  have hdone : loadDone e.store v = raiseEvt (storePage e.store).1 (storePage e.store).2.1 7 v := rfl
  have hoff := statOff_cases e.store
  have hcrc := crcOff_eq e.store
  have hvreg {off : Nat} (ho : off ≠ crcOff e.store) :
      reg v (storePage e.store).1 (storePage e.store).2.1 off = reg u (storePage e.store).1 (storePage e.store).2.1 off :=
    (reg_congr hvregs ..).trans (reg_wrAll_ne _ _ _ _ _ (addrOf_ne_off ho))
  have hvsame : v.stores = u.stores ∧ v.seqs = u.seqs ∧ v.unchecked = u.unchecked := hv ▸ ⟨rfl, rfl, rfl⟩
  have husame : u.stores = s1.stores ∧ u.seqs = s1.seqs ∧ u.unchecked = s1.unchecked := hu ▸ ⟨rfl, rfl, rfl⟩
  rw [← hu] at hst hregs1 hunit1
  rw [hcopy, hdone]
  refine ⟨?_, ?_, rdBit_raiseEvt_self _ _ _ _ (by decide), ?_, ?_, ?_, fun hgood => hgood.of_same ?_ ?_ fun hc => ?_⟩
  · unfold rd at hst ⊢
    rw [reg_raiseEvt_ne _ _ _ _ (addrOf_ne_off (by omega)), hvreg (by omega), hst]
  · rw [reg_raiseEvt_ne _ _ _ _ (addrOf_ne_off (by omega)), reg_congr hvregs, reg_wrAll_self, BitVec.ofNat_toNat,
      BitVec.setWidth_eq]
  · refine (congrArg (fun m => mapGet (fun _ => ({} : Staging)) m e.path) (raiseEvt_staging ..)).trans ?_
    rw [hv]
    exact getStaging_setStaging_self _ _ _
  · rw [raiseEvt_stores, hvsame.1, husame.1, hs1stores]
  · refine regsBut_then (t := v) ?_ (regsBut_raiseEvt _ _ _ _ (by simp [storeRegs, storeReg]))
    refine regsBut_then (t := u) ?_ fun a ha => (getReg_congr hvregs a).trans ?_
    · exact fun a ha => (regsBut_stat hregs1 a ha).trans (getReg_congr hs1regs a)
    · rw [getReg_wrAll, if_neg]
      rintro rfl
      exact ha (by simp [storeRegs, storeReg])
  · rw [raiseEvt_seqs, hvsame.2.1, husame.2.1, hs1seqs.1]
  · rw [raiseEvt_unchecked, hvsame.2.2, husame.2.2, hs1seqs.2]
  · refine Eq.trans ?_ ((hunit1 hc).trans (rd_congr hs1regs ..))
    unfold rd
    rw [reg_raiseEvt_ne _ _ _ _ (addrOf_ne_off (by decide)), hvreg (by rw [hcrc, statOff_other hc]; decide)]

/-! ## The units that the commands name (R55, R71) -/

theorem isControl_iff : isControl b = true ↔ b < 0x50000000 := decide_eq_true_iff

theorem isControl_of_page {pt : PT} {n : Nat} (hp : storePage b = (pt, n, k)) (hpt : 0x110 ≤ ptBase pt) :
    isControl b = false := by
  cases h : isControl b
  · rfl
  · have hseq : storePage b = (.seq, (b - 0x40000000) / 0x40000, 0) := if_pos h
    have : pt = .seq := (congrArg Prod.fst hp).symm.trans (congrArg Prod.fst hseq)
    subst this
    exact absurd hpt (by decide)

/-- A base of a store with its page and unit, caught up before a copy by its page's work. -/
structure StoreAt (b : Nat) extends StoreUnit b where
  catches : isControl b = false → ∀ s, CaughtUp (storePage b).1 (storePage b).2.1 s (catchStore b s)
  still : isControl b = true → ∀ s, catchStore b s = s

theorem storeAt_seq {q : Nat} (hp : storePage b = (.seq, q, 0)) (hc : isControl b = true) (hq : q < 124) : StoreAt b := by
  have ho : storeOwner b = q := by
    unfold storeOwner
    rw [hp]
  refine ⟨⟨?_, ?_, fun _ => ?_, fun h => ?_⟩, fun h => ?_, fun _ s => ?_⟩
  · rw [hp]
    exact Nat.zero_lt_succ 7
  · omega
  · rw [hp, ho]
    exact ⟨rfl, rfl⟩
  · exact absurd (hc.symm.trans h) (by decide)
  · exact absurd (hc.symm.trans h) (by decide)
  · unfold catchStore
    rw [hp]

/-- A store that is no control store, by its page. -/
theorem storeAt_other {pt : PT} {n k : Nat} (hp : storePage b = (pt, n, k)) (hk : k < 8)
    (ho : storeOwner b < 0x100) (hpt : 0x110 ≤ ptBase pt) (hcatch : ∀ s, CaughtUp pt n s (catchStore b s)) : StoreAt b := by
  have hc := isControl_of_page hp hpt
  refine ⟨⟨?_, ho, fun h => ?_, fun _ => ?_⟩, fun _ => ?_, fun h => ?_⟩
  · rw [hp]
    exact hk
  · exact absurd (hc.symm.trans h) (by decide)
  · rw [hp]
    exact hpt
  · rw [hp]
    exact hcatch
  · exact absurd (hc.symm.trans h) (by decide)

section
variable {n : Nat}

theorem storeAt_drv (hp : storePage b = (.drv, n, k)) (hn : n < 64) (hk : k < 2) : StoreAt b := by
  refine storeAt_other hp (by omega) ?_ (by decide) fun s => ?_
  · unfold storeOwner
    rw [hp]
    dsimp only
    omega
  · unfold catchStore
    rw [hp]
    exact .outCatch (if_pos hn) s

theorem storeAt_prb (hp : storePage b = (.prb, n, 0)) (hn : n < 16) : StoreAt b := by
  refine storeAt_other hp (by decide) ?_ (by decide) fun s => ?_
  · unfold storeOwner
    rw [hp]
    dsimp only
    omega
  · unfold catchStore
    rw [hp]
    refine .outCatch ((if_neg (by omega)).trans ?_) s
    rw [Nat.add_sub_cancel_left]

theorem storeAt_flx (hp : storePage b = (.flx, n, k)) (hn : n < 32) (hk : k < 8) : StoreAt b := by
  refine storeAt_other hp hk ?_ (by decide) fun s => ?_
  · unfold storeOwner
    rw [hp]
    dsimp only
    omega
  · have hpage : flxPage (8 * n + k) = n := by
      unfold flxPage
      omega
    have hcatch := CaughtUp.fluxCatch (8 * n + k) s
    rw [hpage] at hcatch
    unfold catchStore
    rw [hp]
    exact hcatch

theorem storeAt_rdi (hp : storePage b = (.rdi, n, k)) (hn : n < 16) (hk : k < 2) : StoreAt b := by
  refine storeAt_other hp (by omega) ?_ (by decide) fun s => ?_
  · unfold storeOwner
    rw [hp]
    dsimp only
    omega
  · unfold catchStore
    rw [hp]
    exact .refl s

theorem storePage_control (hb : b = 0x40000000 + n * 0x40000) (hn : n < 124) : storePage b = (.seq, n, 0) := by
  simp only [storePage, isControl, decide_eq_true_eq]
  rw [if_pos (by omega)]
  refine Prod.ext rfl (Prod.ext ?_ rfl)
  dsimp only
  omega

theorem storePage_drv (hb : b = 0x50000000 + n * 0x80000 + k * 0x40000) (hn : n < 64) (hk : k < 2) :
    storePage b = (.drv, n, k) := by
  simp only [storePage, isControl, decide_eq_true_eq]
  rw [if_neg (by omega), if_pos (by omega)]
  refine Prod.ext rfl (Prod.ext ?_ ?_) <;> (dsimp only; omega)

theorem storePage_prb (hb : b = 0x54000000 + n * 0x40000) (hn : n < 16) : storePage b = (.prb, n, 0) := by
  simp only [storePage, isControl, decide_eq_true_eq]
  rw [if_neg (by omega), if_neg (by omega), if_pos (by omega)]
  refine Prod.ext rfl (Prod.ext ?_ rfl)
  dsimp only
  omega

theorem storePage_flx (hb : b = 0x55000000 + n * 0x20000) (hn : n < 256) : storePage b = (.flx, n / 8, n % 8) := by
  simp only [storePage, isControl, decide_eq_true_eq]
  rw [if_neg (by omega), if_neg (by omega), if_neg (by omega), if_pos (by omega)]
  refine Prod.ext rfl (Prod.ext ?_ ?_) <;> (dsimp only; omega)

theorem storePage_rdi (hb : b = 0x58000000 + n * 0x80000 + k * 0x40000) (hn : n < 16) (hk : k < 2) :
    storePage b = (.rdi, n, k) := by
  simp only [storePage, isControl, decide_eq_true_eq]
  rw [if_neg (by omega), if_neg (by omega), if_neg (by omega), if_neg (by omega)]
  refine Prod.ext rfl (Prod.ext ?_ ?_) <;> (dsimp only; omega)

end

theorem isControl_control {n : Nat} (hb : b = 0x40000000 + n * 0x40000) (hn : n < 124) : isControl b = true :=
  isControl_iff.2 (by omega)

theorem storeAt_control {q : Nat} (hq : q < 124) : StoreAt (controlBase q) :=
  storeAt_seq (storePage_control rfl hq) (isControl_control rfl hq) hq

theorem storeAt_env : ∀ u, StoreAt (envBase u)
  | .drv n h => storeAt_drv (storePage_drv rfl n.isLt h.isLt) n.isLt h.isLt
  | .prb n => storeAt_prb (storePage_prb rfl n.isLt) n.isLt
  | .flx n => storeAt_flx (storePage_flx rfl n.isLt) (by omega) (Nat.mod_lt _ (by decide))

theorem storeAt_weight {n u : Nat} (hn : n < 16) (hu : u < 2) : StoreAt (weightBase n u) :=
  storeAt_rdi (storePage_rdi rfl hn hu) hn hu

/-! ## A commit accepted (R70, R71) -/

section
variable {p : Nat} {crc : Word} (hb : StoreAt b) (hx : (getStaging s p).bound = some b)
  (hr : (commitCheck s b (getStaging s p).data crc).1 = 0)
include hb hx hr

/-- The image that a commit accepts. -/
def committedImage (p b : Nat) (crc : Word) (s : State) : Accepted :=
  { path := p, store := b, crc := crc, data := (getStaging s p).data }

theorem commitStore_accepted : AcceptedIn (committedImage p b crc s) s (accept (committedImage p b crc s) (noteUnit b s)) ∧
    (commitStore p b crc s).2 = if storeBusy s b then accept (committedImage p b crc s) (noteUnit b s)
      else copyImage (accept (committedImage p b crc s) (noteUnit b s)) (committedImage p b crc s) := by
  have hacc : AcceptedIn (committedImage p b crc s) s (accept (committedImage p b crc s) (noteUnit b s)) :=
    accept_accepts hb.toStoreUnit s
  refine ⟨hacc, ?_⟩
  rw [commitStore_bound hx crc, ← storeBusy_congr hb.toStoreUnit hacc.regs hacc.beside.groups hacc.beside.slots]
  exact if_pos hr

/-- While the store is busy the image waits. -/
theorem commitStore_waits (hbusy : storeBusy s b = true) : AcceptedIn (committedImage p b crc s) s (commitStore p b crc s).2 := by
  obtain ⟨hacc, heq⟩ := commitStore_accepted hb hx hr
  rwa [heq, if_pos hbusy]

/-- Otherwise it is copied at once. -/
theorem commitStore_copies (hbusy : storeBusy s b = false) (hok : bytesOk s.stores) (hdata : bytesOk (getStaging s p).data) :
    let t := (commitStore p b crc s).2
    rd t (storePage b).1 (storePage b).2.1 (statOff b) 31 28 = 0 ∧
      reg t (storePage b).1 (storePage b).2.1 (crcOff b) = crc ∧
      rdBit t (storePage b).1 (storePage b).2.1 0x010 7 = true ∧ getStaging t p = {} ∧
      (∀ j, byteAt t.stores j =
        if b ≤ j ∧ j < b + storeLen b then byteAt (getStaging s p).data j else byteAt s.stores j) ∧
      (if isControl b then regsBut (storeRegs b) s t else pagesBut [ptBase (storePage b).1 + (storePage b).2.1] s t) ∧
      StoreGood b t := by
  obtain ⟨hacc, heq⟩ := commitStore_accepted hb hx hr
  obtain ⟨u, hu⟩ := exists_eq (a' := accept (committedImage p b crc s) (noteUnit b s))
  rw [← hu] at hacc heq
  rw [if_neg (by simp [hbusy]), copyImage_eq] at heq
  obtain ⟨w, hw⟩ := exists_eq (a' := catchStore b u)
  have hcopy : (commitStore p b crc s).2 = copyInto (committedImage p b crc s) w := hw ▸ heq
  have hcaught : CaughtUp (storePage b).1 (storePage b).2.1 u w := by
    cases hc : isControl b
    · exact hw ▸ hb.catches hc u
    · rw [hw, hb.still hc u]
      exact .refl u
  have hgood : StoreGood b w := by
    have hgood : StoreGood b u := hacc.good
    cases hc : isControl b
    · unfold StoreGood at hgood ⊢
      rw [if_neg (by simp [hc])] at hgood ⊢
      unfold rd at hgood ⊢
      rwa [hcaught.unit]
    · rwa [hw, hb.still hc u]
  have hstaging : w.staging = s.staging := hcaught.staging.trans hacc.beside.staging
  have hcopied : Copied (committedImage p b crc s) w (copyInto (committedImage p b crc s) w) := by
    refine copyInto_copies ?_
    exact (congrArg (fun m => (mapGet (fun _ => ({} : Staging)) m p).bound) hstaging).trans hx
  rw [← hcopy] at hcopied
  refine ⟨hcopied.status, hcopied.crc, hcopied.done, hcopied.unbound, fun j => ?_, ?_, hcopied.good hgood⟩
  · rw [hcopied.stores, hcaught.stores, hacc.beside.stores]
    exact byteAt_mapSplice (Nat.le_add_right _ _) hdata hok j
  · cases hc : isControl b
    · intro a ha
      exact (pagesBut_of_storeRegs hcopied.regs a ha).trans
        ((hcaught.page a ha).trans (pagesBut_of_storeRegs hacc.regs a ha))
    · have hwu : w = u := hw.trans (hb.still hc u)
      exact regsBut_then (hwu ▸ hacc.regs) hcopied.regs

end

/-! ## A discard (R479) -/

section
variable {p : Nat}

theorem discardStore_unbound (hx : (getStaging s p).bound = none) (b : Nat) : (discardStore p b s).2 = s := by
  unfold discardStore
  rw [hx]

theorem discardStore_elsewhere (hx : (getStaging s p).bound = some c) (hc : c ≠ b) :
    (discardStore p b s).2 = setLoadStat b 6 s := by
  unfold discardStore
  rw [hx]
  exact congrArg Prod.snd (if_neg hc)

theorem discardStore_bound (hx : (getStaging s p).bound = some b) : (discardStore p b s).2 = setStaging p {} s := by
  unfold discardStore
  rw [hx]
  exact congrArg Prod.snd (if_pos rfl)

end

end Sys2Proof.Machine

open Sys2Proof Sys2Proof.Machine

/-- Settles O19: a word by its staging (`stageBytes_stages`), a commit by its verdict (`commitStore_waits`,
`commitStore_copies`, `loadFail_rejects`). -/
theorem apertureStagesAndCommitsStores : Obligations.ApertureStagesAndCommitsStores := by
  unfold Obligations.ApertureStagesAndCommitsStores
  refine ⟨fun s p a v b hstores hp h4 ha hup => ?aperture, fun s p hstores hp hdrv hseq hrdi => ?commit⟩
  case aperture =>
    intro k vendor statAddr shows
    have hexec := exec_apertureWrite hp ha h4 hup v
    refine ⟨fun hv hx => ?_, fun hv c hx hc => ?_, fun hv => ⟨?_, storeByte_vendor ha hv k s⟩⟩
    · obtain ⟨hbound, hbytes, hothers, hrest⟩ := stageBytes_stages hstores.1 ha hv k v hx
      exact ⟨_, hexec, hbound, hbytes, hothers, hrest⟩
    · rw [stageBytes_elsewhere _ ha hv hx hc] at hexec
      exact ⟨_, hexec, setLoadStat_shows b (by decide) s⟩
    · rw [stageBytes_vendor _ _ _ ha hv] at hexec
      exact ⟨_, hexec, setLoadStat_shows b (by decide) s⟩
  case commit =>
    intro k x rule
    have hrule {c d : Instr} {b : Nat} (hb : StoreAt b) (hc : exec c s = .next (commitReg k b s))
        (hd : exec d s = .next (discardStore k b s).2) : rule c d b := by
      obtain ⟨crc, hcrc⟩ := exists_eq (a' := reg s (storePage b).1 (storePage b).2.1 (crcOff b))
      have hcommit {t : State} (h : (commitStore k b crc s).2 = t) : exec c s = .next t := by
        rw [hc, ← h, hcrc]
        rfl
      have hdiscard {t : State} (h : (discardStore k b s).2 = t) : exec d s = .next t := h ▸ hd
      have hrejects {m : Nat} {u : State} (hst : rd u (storePage b).1 (storePage b).2.1 (statOff b) 31 28 = m)
          (hregs : regsBut (storeRegs b) s u) (hrest : onlyRegs s u) :=
        (loadFail_rejects hb.toStoreUnit hst hregs hrest).parts
      have hstat {m : Nat} (hm : m < 16) := hrejects (setLoadStat_shows b hm s).1
        (regsBut_stat (setLoadStat_shows b hm s).2.1) (setLoadStat_shows b hm s).2.2
      obtain ⟨hr16, hnamed⟩ := commitCheck_status s b x.data crc
      simp only [rule, ← hcrc]
      refine ⟨fun hx => ⟨?_, ?_⟩, fun o hx ho => ⟨?_, ?_⟩, fun hx => ⟨?_, fun hr => ?_, fun h => ?_, fun h hctl => ?_,
        fun hr hbusy => ?_, fun hr hbusy => ?_⟩⟩
      · exact ⟨_, hcommit (commitStore_unbound hx b crc), hstat (by decide)⟩
      · exact hdiscard (discardStore_unbound hx b)
      · exact ⟨_, hcommit (commitStore_elsewhere hx ho crc), hstat (by decide)⟩
      · exact ⟨_, hdiscard (discardStore_elsewhere hx ho), setLoadStat_shows b (by decide) s⟩
      · exact ⟨_, hdiscard (discardStore_bound hx), getStaging_setStaging_self .., fun r hr =>
          getStaging_setStaging_ne _ _ _ hr, rfl⟩
      · obtain ⟨hst, hregs, hrest, hword⟩ := failed_check hb.toStoreUnit hr16 hnamed s
        exact ⟨_, hcommit ((commitStore_bound hx crc).trans (if_neg hr)), hrejects hst hregs hrest, fun w hw hctl =>
          (loadFail_stat hb.toStoreUnit _ _ _).trans (hword w hw hctl)⟩
      · exact congrArg Prod.fst (commitCheck_crc h)
      · exact congrArg Prod.fst ((commitCheck_other hctl s x.data crc).trans (if_neg (not_not.2 h)))
      · have hacc := commitStore_waits hb hx hr hbusy
        exact ⟨_, hcommit rfl, hacc.status, ⟨_, hacc.waits, rfl, rfl, rfl⟩, hacc.beside.stores,
          congrArg (fun m => mapGet (fun _ => ({} : Staging)) m k) hacc.beside.staging, hacc.regs, hacc.good⟩
      · exact ⟨_, hcommit rfl, commitStore_copies hb hx hr hbusy hstores.1 (bytesOk_getStaging hstores.2.1 k)⟩
    have hreg {pt : PT} {c : Instr} (f : State → State) (hup : ptUp s pt = true)
        (hc : exec c s = .next (whenPath p (whenReg pt f) s)) : exec c s = .next (f s) := by
      rw [hc, whenPath_of hp, whenReg_of hup]
    refine ⟨fun q => ?_, fun u => ?_, fun n u => ?_⟩
    · exact hrule (storeAt_control q.isLt) (hreg _ hseq rfl)
        (hreg (fun t => (discardStore k (controlBase q.val) t).2) hseq rfl)
    · exact hrule (storeAt_env u) (hreg _ hdrv rfl)
        (hreg (fun t => (discardStore k (envBase u) t).2) hdrv rfl)
    · exact hrule (storeAt_weight n.isLt u.isLt) (hreg _ hrdi rfl)
        (hreg (fun t => (discardStore k (weightBase n.val u.val) t).2) hrdi rfl)

end

section
/-! What every operation leaves as it was: the queue of commands, in any state of the module. The lemmas of namespace
`Queued` are named after the operation that keeps the queue: `Queued.wr` says it of `wr`. They follow those of `Canon`,
which say more, but of states in canonical form only. -/

namespace Sys2Proof.Machine

/-- The queue of commands is `cmds`. -/
def Queued (cmds : List Instr) (s : State) : Prop := s.pending = cmds

namespace Queued

variable {cmds : List Instr} {s : State}

/-! ## How proofs compose -/

/-- An update of anything but the queue. -/
protected theorem frame {regs held wlatch rlatch clk tick boot i3c pins resetting enWait stores staging accepted
    unchecked vimg groups seqs tones strms outs fluxes seen items later demods rdis iqWords iqSent txq txWait slots
    dchs provArms ladleJobs clrEntries fires lines mort graphBad gBind caps ports fills pzero preqs preqNo rows
    refilled trainSlots retired evac retWait wdrawn wfreed softRows corrs marked pbad swaps lmsgs laneSec fecs
    prbsFrom rports hports frags inbox trigSeen tbusQ tbusAt tseq slaves align cmpFrom rxqs rxqPos seqIds owesHeader
    cals calNo calWin dacTrims trace calPlays mon therm shed evLog logSeq spareMap mapOld wears subs returns rdata
    outbox free gStage gWait pantry committed} (hs : Queued cmds s) :
    Queued cmds { s with
      regs, held, wlatch, rlatch, clk, tick, boot, i3c, pins, resetting, enWait, stores, staging, accepted,
      unchecked, vimg, groups, seqs, tones, strms, outs, fluxes, seen, items, later, demods, rdis, iqWords, iqSent,
      txq, txWait, slots, dchs, provArms, ladleJobs, clrEntries, fires, lines, mort, graphBad, gBind, caps, ports,
      fills, pzero, preqs, preqNo, rows, refilled, trainSlots, retired, evac, retWait, wdrawn, wfreed, softRows,
      corrs, marked, pbad, swaps, lmsgs, laneSec, fecs, prbsFrom, rports, hports, frags, inbox, trigSeen, tbusQ,
      tbusAt, tseq, slaves, align, cmpFrom, rxqs, rxqPos, seqIds, owesHeader, cals, calNo, calWin, dacTrims, trace,
      calPlays, mon, therm, shed, evLog, logSeq, spareMap, mapOld, wears, subs, returns, rdata, outbox, free,
      gStage, gWait, pantry, committed } := hs

protected theorem ite {c : Prop} {_ : Decidable c} {a b : State} (ha : Queued cmds a) (hb : Queued cmds b) :
    Queued cmds (if c then a else b) := by
  split
  exacts [ha, hb]

/-- The same for an operation that answers a value beside the state. -/
protected theorem ite_snd {β : Type} {c : Prop} {_ : Decidable c} {a b : β × State} (ha : Queued cmds a.2)
    (hb : Queued cmds b.2) : Queued cmds (if c then a else b).2 := by
  split
  exacts [ha, hb]

/-- The state of a pair that an operation answers. -/
protected theorem of_pair {β : Type} {x : β × State} {v : β} {t : State} (e : x = (v, t)) (h : Queued cmds x.2) :
    Queued cmds t := by
  rw [e] at h
  exact h

protected theorem foldl {β : Type} {f : State → β → State} (hf : ∀ {b t}, Queued cmds t → Queued cmds (f t b)) :
    ∀ {l : List β} {s : State}, Queued cmds s → Queued cmds (l.foldl f s)
  | [], _, hs => hs
  | b :: l, s, hs => Queued.foldl (l := l) (s := f s b) hf (hf hs)

/-- A fold whose step keeps `Queued` for the members of the list only. -/
protected theorem foldl_mem {β : Type} {f : State → β → State} :
    ∀ {l : List β} {s : State}, (∀ b ∈ l, ∀ {t}, Queued cmds t → Queued cmds (f t b)) → Queued cmds s →
      Queued cmds (l.foldl f s)
  | [], _, _, hs => hs
  | b :: l, s, hf, hs =>
    Queued.foldl_mem (l := l) (s := f s b) (fun c hc => hf c (List.mem_cons_of_mem _ hc)) (hf b List.mem_cons_self hs)

/-! ## Ops -/

protected theorem setReg {a v} (hs : Queued cmds s) : Queued cmds (setReg s a v) := .frame hs

protected theorem wr {pt n off hi lo v} (hs : Queued cmds s) : Queued cmds (wr s pt n off hi lo v) := .setReg hs

protected theorem wrAll {pt n off v} (hs : Queued cmds s) : Queued cmds (wrAll s pt n off v) := .setReg hs

protected theorem bump {pt n off hi lo k} (hs : Queued cmds s) : Queued cmds (bump s pt n off hi lo k) := .wr hs

protected theorem wrPair {pt n off v} (hs : Queued cmds s) : Queued cmds (wrPair s pt n off v) := .wrAll <| .wrAll hs

protected theorem requestIbi (hs : Queued cmds s) : Queued cmds (requestIbi s) := .ite (.frame hs) hs

protected theorem notePending {pg} {before after : State} (hafter : Queued cmds after) : Queued cmds (notePending pg
    before after) :=
  .ite (.requestIbi hafter) hafter

protected theorem noteRate (hs : Queued cmds s) : Queued cmds (noteRate s) := .ite hs (.frame hs)

protected theorem passTicks {n} (hs : Queued cmds s) : Queued cmds (passTicks n s) := .ite hs (.frame hs)

protected theorem passTo {t} (hs : Queued cmds s) : Queued cmds (passTo t s) := by
  unfold passTo
  exact .ite (.passTicks hs) hs

protected theorem atTick {x} {f : State → State} (hf : ∀ {t}, Queued cmds t → Queued cmds (f t)) (hs : Queued cmds
    s) : Queued cmds (atTick x f s) :=
  .ite (hf hs) (.frame <| hf <| .frame hs)

protected theorem freeDraw (hs : Queued cmds s) : Queued cmds (freeDraw s).2 := .frame hs

protected theorem noteRaised {a mask} (hs : Queued cmds s) : Queued cmds (noteRaised a mask s) := .ite (.frame hs) hs

protected theorem portDone {a} (hs : Queued cmds s) : Queued cmds (portDone a s) := .frame hs

protected theorem raiseBit {pt n off i} (hs : Queued cmds s) : Queued cmds (raiseBit pt n off i s) :=
  .noteRaised <| .wr hs

protected theorem setGroup {g x} (hs : Queued cmds s) : Queued cmds (setGroup s g x) := .frame hs

protected theorem setSeq {q x} (hs : Queued cmds s) : Queued cmds (setSeq s q x) := .frame hs

protected theorem retag {g last bits} (hs : Queued cmds s) : Queued cmds (retag g last bits s) := by
  unfold retag
  exact .noteRaised <| .wr hs

protected theorem tagDue {g d bits} (hs : Queued cmds s) : Queued cmds (tagDue g d bits s) := by
  unfold tagDue
  exact .ite (.setGroup hs) (.ite (.retag <| .setGroup hs) hs)

protected theorem tagShot {g bits} (hs : Queued cmds s) : Queued cmds (tagShot g bits s) := by
  unfold tagShot
  exact .ite (.setGroup hs) hs

protected theorem tagSeq {q bits} (hs : Queued cmds s) : Queued cmds (tagSeq q bits s) := by
  unfold tagSeq
  split
  exacts [hs, .tagShot hs]

protected theorem tagAll {bits} (hs : Queued cmds s) : Queued cmds (tagAll bits s) := .foldl .tagShot hs

protected theorem setTone {out tone x} (hs : Queued cmds s) : Queued cmds (setTone s out tone x) := .frame hs

protected theorem setOut {out x} (hs : Queued cmds s) : Queued cmds (setOut s out x) := .frame hs

protected theorem setStream {out n x} (hs : Queued cmds s) : Queued cmds (setStream s out n x) := .frame hs

protected theorem setFlux {o x} (hs : Queued cmds s) : Queued cmds (setFlux s o x) := .frame hs

protected theorem sendItem {due group deps load} (hs : Queued cmds s) : Queued cmds (sendItem due group deps load s)
    :=
  .frame hs

protected theorem withinLead {due} (hs : Queued cmds s) : Queued cmds (withinLead due s) := .passTo hs

protected theorem deliver {p : Payload → Bool} {onTime once late : Item → State → State} (honTime : ∀ {x1 t}, Queued
    cmds t → Queued cmds (onTime x1 t)) (honce : ∀ {x1 t}, Queued cmds t → Queued cmds (once x1 t)) (hlate : ∀ {x1 t},
    Queued cmds t → Queued cmds (late x1 t)) (hs : Queued cmds s) : Queued cmds (deliver p onTime once late s) := by
  unfold deliver
  split
  exacts [hs, .ite hs (.ite (.foldl hlate (honce <| .frame hs)) (.foldl honTime (.passTo <| .frame hs)))]

protected theorem tagItemAt {i d bits} (hs : Queued cmds s) : Queued cmds (tagItemAt i d bits s) := by
  unfold tagItemAt
  split
  exacts [.tagDue hs, .foldl .tagDue hs]

protected theorem dueFirst {p : Payload → Bool} (hs : Queued cmds s) : Queued cmds (dueFirst p s) := by
  unfold dueFirst
  dsimp only
  split
  exacts [hs, .ite hs (.frame hs)]

protected theorem tagItem {i bits} (hs : Queued cmds s) : Queued cmds (tagItem i bits s) := .tagItemAt hs

protected theorem whenAlive {f : State → State} (hf : ∀ {t}, Queued cmds t → Queued cmds (f t)) (hs : Queued cmds s)
    : Queued cmds (whenAlive f s) :=
  .ite (hf hs) hs

protected theorem whenUp {pt} {f : State → State} (hf : ∀ {t}, Queued cmds t → Queued cmds (f t)) (hs : Queued cmds
    s) : Queued cmds (whenUp pt f s) :=
  .ite (hf hs) hs

protected theorem earlyAcc (hs : Queued cmds s) : Queued cmds (earlyAcc s) := .raiseBit hs

protected theorem whenReg {pt} {f : State → State} (hf : ∀ {t}, Queued cmds t → Queued cmds (f t)) (hs : Queued cmds
    s) : Queued cmds (whenReg pt f s) :=
  .ite (hf hs) (.ite (.earlyAcc hs) hs)

protected theorem whenRead {pt} {f : State → State} (hf : ∀ {t}, Queued cmds t → Queued cmds (f t)) (hs : Queued
    cmds s) : Queued cmds (whenRead pt f s) :=
  .ite (hf hs) (.ite (.earlyAcc <| .frame hs) hs)

protected theorem emit {o} (hs : Queued cmds s) : Queued cmds (emit o s) := .frame hs

/-! ## Flags -/

protected theorem raiseEvt {pt n bit} (hs : Queued cmds s) : Queued cmds (raiseEvt pt n bit s) :=
  .notePending <| .raiseBit hs

protected theorem raiseFault {pt n bit} (hs : Queued cmds s) : Queued cmds (raiseFault pt n bit s) :=
  .notePending <| .raiseBit hs

protected theorem raiseEvtIf {c pt n bit} (hs : Queued cmds s) : Queued cmds (raiseEvtIf c pt n bit s) :=
  .ite (.raiseEvt hs) hs

protected theorem raiseFaultIf {c pt n bit} (hs : Queued cmds s) : Queued cmds (raiseFaultIf c pt n bit s) :=
  .ite (.raiseFault hs) hs

protected theorem logEvent {cause page detail} (hs : Queued cmds s) : Queued cmds (logEvent cause page detail s) := by
  unfold logEvent
  exact .raiseEvtIf <| .frame hs

/-! ## Health -/

protected theorem hmTake {u v} (hs : Queued cmds s) : Queued cmds (hmTake u v s) := by
  unfold hmTake
  extract_lets _ _ _ _ _ s2 s3 s4
  have hs2 : Queued cmds s2 := .bump <| .wrAll hs
  have hs3 : Queued cmds s3 := .ite (.wrAll hs2) hs2
  have hs4 : Queued cmds s4 := .ite (.wrAll hs3) hs3
  exact .ite hs4 (.raiseEvtIf <| .bump hs4)

protected theorem hmSample {src ins sub v} (hs : Queued cmds s) : Queued cmds (hmSample src ins sub v s) :=
  .ite hs (.foldl .hmTake hs)

protected theorem hmReset {u} (hs : Queued cmds s) : Queued cmds (hmReset u s) := by
  unfold hmReset
  exact .foldl .wrAll (.wrAll <| .wrAll <| .wrAll hs)

protected theorem hmClear {v} (hs : Queued cmds s) : Queued cmds (hmClear v s) := .foldl .hmReset hs

protected theorem hmCfgWrite {u v} (hs : Queued cmds s) : Queued cmds (hmCfgWrite u v s) := .hmReset <| .wrAll hs

protected theorem hmInterval {u v} (hs : Queued cmds s) : Queued cmds (hmInterval u v s) := by
  unfold hmInterval
  exact .ite (.hmTake hs) hs

protected theorem setWear {k x} (hs : Queued cmds s) : Queued cmds (setWear s k x) := .frame hs

protected theorem setSpareState {kind ins st} (hs : Queued cmds s) : Queued cmds (setSpareState kind ins st s) := by
  unfold setSpareState
  split
  exacts [hs, .wr hs]

protected theorem noteWear {kind ins unit st bit} (hs : Queued cmds s) : Queued cmds (noteWear kind ins unit st bit
    s) := by
  unfold noteWear
  exact .raiseEvt <| .wrAll <| .setWear hs

protected theorem writeMap {kind act ins unit spare} (hs : Queued cmds s) : Queued cmds (writeMap kind act ins unit
    spare s) := by
  unfold writeMap
  exact .ite (.frame <| .logEvent hs) (.raiseFault <| .logEvent hs)

protected theorem unitBack {kind ins unit} (hs : Queued cmds s) : Queued cmds (unitBack kind ins unit s) := by
  unfold unitBack
  exact .setWear hs

protected theorem finishSub {kind act ins unit spare} (hs : Queued cmds s) : Queued cmds (finishSub kind act ins
    unit spare s) := by
  unfold finishSub
  refine .raiseEvt <| .writeMap ?_
  split
  · exact .ite (.wr <| .bump <| .setWear <| .frame hs) (.bump <| .wr <| .bump <| .setWear <| .frame hs)
  · exact .wr <| .bump <| .setWear <| .frame hs

protected theorem serveUnit {kind ins unit spare} (hs : Queued cmds s) : Queued cmds (serveUnit kind ins unit spare
    s) := by
  unfold serveUnit
  extract_lets page _ _ s0 _ _ s1
  have hpage : ∀ {id t}, Queued cmds t → Queued cmds (page id t) := by
    intro id t ht
    unfold page
    split
    exacts [.wr <| .wr ht, ht]
  split
  · exact hpage <| .wrAll <| .foldl (fun h => .setWear <| .setReg h) hs
  · split
    extract_lets _ _ _ sa s0 s1
    have hsa : Queued cmds sa := .ite (.wr <| .wr hs) hs
    have hs0 : Queued cmds s0 := .ite (.wr <| .wr hsa) hsa
    exact hpage <| .ite (.wr <| .wr hs0) (.wr <| .wr hs0)
  · have hs1 : Queued cmds s1 := by unfold s1; split; exacts [.wr hs, hs]
    exact hpage <| .frame hs1
  · exact hpage <| .wr <| .wr <| .wr hs
  · exact .wr hs
  · exact .wr hs
  · exact hs

protected theorem pendSub {kind ins unit} (hs : Queued cmds s) : Queued cmds (pendSub kind ins unit s) := by
  unfold pendSub
  exact .ite hs
      (.ite
         (.raiseFault <| .setSpareState <| .setWear hs)
         (.ite (.finishSub hs) (.setSpareState <| .setWear <| .frame hs)))

protected theorem candidate_ {kind ins unit} (hs : Queued cmds s) : Queued cmds (candidate_ kind ins unit s) :=
  .ite hs (.ite hs (.ite (.pendSub <| .noteWear hs) (.noteWear hs)))

protected theorem addWear {kind ins unit n} (hs : Queued cmds s) : Queued cmds (addWear kind ins unit n s) := by
  unfold addWear
  exact .ite
      (.candidate_ <| .ite (.noteWear <| .setWear hs) (.setWear hs))
      (.ite (.noteWear <| .setWear hs) (.setWear hs))

protected theorem wearHour (hs : Queued cmds s) : Queued cmds (wearHour s) := by
  unfold wearHour
  exact .frame hs

protected theorem mapClear (hs : Queued cmds s) : Queued cmds (mapClear s) := .ite (.wr hs) (.wr <| .frame hs)

protected theorem mapRead (hs : Queued cmds s) : Queued cmds (mapRead s) := by
  unfold mapRead
  exact .ite (.wr <| .frame hs) (.frame hs)

protected theorem logRead (hs : Queued cmds s) : Queued cmds (logRead s) := by
  unfold logRead
  exact .ite (.wr <| .frame hs) (.wr <| .wr <| .frame hs)

protected theorem logClear {v} (hs : Queued cmds s) : Queued cmds (logClear v s) := .ite (.frame hs) hs

/-! ## Router -/

protected theorem coincide {i} (hs : Queued cmds s) : Queued cmds (coincide i s) := .raiseEvt <| .bump <| .raiseBit hs

protected theorem setLineBit {off line} (hs : Queued cmds s) : Queued cmds (setLineBit off line s) := .raiseBit hs

protected theorem dropFire (hs : Queued cmds s) : Queued cmds (dropFire s) := .raiseEvt <| .bump hs

protected theorem fireLine {line x soft} (hs : Queued cmds s) : Queued cmds (fireLine line x soft s) :=
  .ite hs (.frame hs)

protected theorem settleLine {x} {s0 : State} {line} (hs0 : Queued cmds s0) : Queued cmds (settleLine x s0 line) := by
  unfold settleLine
  exact .ite
      (.setLineBit hs0)
      (.ite
         (.dropFire <| .frame <| .setLineBit hs0)
         (.ite
            (.dropFire <| .raiseFault <| .wr <| .setLineBit <| .frame <| .setLineBit hs0)
            (.frame <| .setLineBit hs0)))

protected theorem settleInput {x i} (hs : Queued cmds s) : Queued cmds (settleInput x s i) := by
  unfold settleInput
  split
  exacts [hs, .sendItem hs, .coincide <| .sendItem hs]

protected theorem settleTick {x} (hs : Queued cmds s) : Queued cmds (settleTick x s) := by
  unfold settleTick
  exact .foldl .settleInput (.foldl .settleLine (.ite (.frame hs) (.bump <| .frame hs)))

protected theorem lineCatch (hs : Queued cmds s) : Queued cmds (lineCatch s) :=
  .foldl (fun h => .atTick .settleTick h) hs

protected theorem nextAct {i} (hs : Queued cmds s) : Queued cmds (nextAct i s) := by
  unfold nextAct
  exact .dueFirst <| .foldl (fun h => .ite h (.lineCatch <| .passTo h)) (.lineCatch hs)

protected theorem routerEnabled (hs : Queued cmds s) : Queued cmds (routerEnabled s) := .ite hs (.frame hs)

protected theorem fireWrite {k v} (hs : Queued cmds s) : Queued cmds (fireWrite k v s) := by
  unfold fireWrite
  exact .foldl .fireLine (.ite (.passTicks <| .lineCatch hs) (.lineCatch hs))

protected theorem lineDisWrite {k v} {s0 : State} (hs0 : Queued cmds s0) : Queued cmds (lineDisWrite k v s0) := by
  unfold lineDisWrite
  exact .frame <| .setReg <| .lineCatch hs0

/-! ## Frames -/

protected theorem daxkaSend {h dest op flags tag addr payload} (hs : Queued cmds s) : Queued cmds (daxkaSend h dest
    op flags tag addr payload s) :=
  .emit hs

/-! ## TxQueue -/

protected theorem setRPort {r x} (hs : Queued cmds s) : Queued cmds (setRPort s r x) := .frame hs

protected theorem noteRelay {r n k} (hs : Queued cmds s) : Queued cmds (noteRelay r n k s) := by
  unfold noteRelay
  exact .setRPort hs

protected theorem placeRt {r t m} (hs : Queued cmds s) : Queued cmds (placeRt r t m s) := by
  unfold placeRt
  refine .ite ?_ (.frame <| .setRPort hs)
  extract_lets
  split
  exacts [.noteRelay <| .raiseEvt <| .bump <| .setRPort hs, .raiseEvt <| .bump <| .setRPort hs]

protected theorem rtCatch (hs : Queued cmds s) : Queued cmds (rtCatch s) := by
  unfold rtCatch
  exact .foldl (fun h => .atTick .placeRt h) (.frame hs)

protected theorem readyRt {t m r} (hs : Queued cmds s) : Queued cmds (readyRt t m s r) := .ite hs (.frame hs)

protected theorem queueRt {t m r} (hs : Queued cmds s) : Queued cmds (queueRt t m s r) := .readyRt hs

protected theorem unqueueRt {p : TxMsg → Bool} {r} (hs : Queued cmds s) : Queued cmds (unqueueRt p s r) := .frame hs

/-! ## Ladle -/

protected theorem setSlot {k x} (hs : Queued cmds s) : Queued cmds (setSlot s k x) := .frame hs

protected theorem setDch {c x} (hs : Queued cmds s) : Queued cmds (setDch s c x) := .frame hs

protected theorem setPend {k v} (hs : Queued cmds s) : Queued cmds (setPend k v s) := .wr hs

protected theorem decPend {k} (hs : Queued cmds s) : Queued cmds (decPend k s) := .setPend hs

protected theorem exportDch {c st e} (hs : Queued cmds s) : Queued cmds (exportDch c st e s) := by
  unfold exportDch
  exact .ite hs (.foldl .queueRt (.setDch hs))

protected theorem moveDch {e c st} (hs : Queued cmds s) : Queued cmds (moveDch e c st s) :=
  .ite hs (.exportDch <| .sendItem <| .setDch hs)

protected theorem evalAll {e} (hs : Queued cmds s) : Queued cmds (evalAll e s) := .foldl .moveDch hs

protected theorem addJob {t j} (hs : Queued cmds s) : Queued cmds (addJob t j s) := .frame hs

protected theorem evalAt {e} (hs : Queued cmds s) : Queued cmds (evalAt e s) := .ite hs (.addJob hs)

protected theorem evalNext (hs : Queued cmds s) : Queued cmds (evalNext s) := .evalAt hs

protected theorem sendSynd {t r k} (hs : Queued cmds s) : Queued cmds (sendSynd t r s k) := .ite (.sendItem hs) hs

protected theorem writeEntry {r st fl k} (hs : Queued cmds s) : Queued cmds (writeEntry r st fl s k) := by
  unfold writeEntry
  exact .ite (.setReg hs) (.setReg hs)

protected theorem withdrawArms {dep} (hs : Queued cmds s) : Queued cmds (withdrawArms dep s) := by
  unfold withdrawArms
  exact .foldl (fun h => .foldl .decPend h) (.frame hs)

protected theorem ladleResolve {dep ok t} {s0 : State} (hs0 : Queued cmds s0) : Queued cmds (ladleResolve dep ok t
    s0) := by
  unfold ladleResolve
  exact .ite
      (.frame <| .ite hs0 (.frame hs0))
      (.ite (.evalAt <| .withdrawArms <| .ite hs0 (.frame hs0)) (.ite hs0 (.frame hs0)))

protected theorem runJob {t j} (hs : Queued cmds s) : Queued cmds (runJob t j s) := by
  unfold runJob
  split
  · exact .ladleResolve hs
  · exact .evalAll hs
  · exact .ite (.sendItem <| .setDch hs) hs
  · exact .ite (.evalAt <| .sendSynd <| .writeEntry hs) hs

protected theorem runJobs {x : BitVec 48} {rank : Nat} :
    ∀ {n : Nat} {s : State}, Queued cmds s → Queued cmds (runJobs n x rank s)
  | 0, _, hs => hs
  | n + 1, s, hs => by
    unfold runJobs
    split
    · exact hs
    · exact .ite (Queued.runJobs <| .runJob <| .frame hs) hs

protected theorem ladleCatch (hs : Queued cmds s) : Queued cmds (ladleCatch s) := .runJobs hs

protected theorem ladleCatchEval (hs : Queued cmds s) : Queued cmds (ladleCatchEval s) := .runJobs hs

protected theorem ladleUntil {p : Payload → Bool} :
    ∀ {n : Nat} {s : State}, Queued cmds s → Queued cmds (ladleUntil p n s)
  | 0, _, hs => hs
  | n + 1, s, hs => by
    unfold ladleUntil
    split
    · exact hs
    · split
      · exact hs
      · exact Queued.ladleUntil <| .ladleCatch <| .passTo hs

protected theorem retractDch {e c} (hs : Queued cmds s) : Queued cmds (retractDch e c s) := by
  unfold retractDch
  exact .ite hs (.foldl .unqueueRt (.setDch <| .frame hs))

protected theorem setBcast {c st d} (hs : Queued cmds s) : Queued cmds (setBcast c st d s) := by
  unfold setBcast
  exact .foldl .fireLine (.ite hs (.setDch hs))

protected theorem bcastCatch {c x} (hs : Queued cmds s) : Queued cmds (bcastCatch c x s) := by
  unfold bcastCatch
  exact .foldl (fun h => by split; exacts [.setBcast h, h]) (.frame <| .ladleCatch hs)

protected theorem ladleLate (hs : Queued cmds s) : Queued cmds (ladleLate s) := .raiseEvt <| .bump hs

protected theorem flipFrame {u} (hs : Queued cmds s) : Queued cmds (flipFrame s u) := by
  unfold flipFrame
  exact .setSlot hs

protected theorem flipObs {o} (hs : Queued cmds s) : Queued cmds (flipObs s o) := by
  unfold flipObs
  exact .wr hs

protected theorem setObsPend {p} (hs : Queued cmds s) : Queued cmds (setObsPend s p) := .wr hs

protected theorem noteFlips {us} (hs : Queued cmds s) : Queued cmds (noteFlips us s) := .ite (.frame hs) hs

protected theorem applyFrame {flips obs pend} {s0 : State} (hs0 : Queued cmds s0) : Queued cmds (applyFrame flips
    obs pend s0) := by
  unfold applyFrame
  exact .ite
      (.ladleCatch hs0)
      (.evalNext <| .foldl .setObsPend (.foldl .flipObs (.noteFlips <| .foldl .flipFrame (.ladleCatch hs0))))

protected theorem frameAct {i} (hs : Queued cmds s) : Queued cmds (frameAct i s) := by
  unfold frameAct
  split
  exacts [.applyFrame hs, hs]

protected theorem framesFirst (hs : Queued cmds s) : Queued cmds (framesFirst s) := by
  unfold framesFirst
  exact .foldl .frameAct (.frame hs)

protected theorem frameUpdateDue (hs : Queued cmds s) : Queued cmds (frameUpdateDue s) :=
  .deliver .frameAct (fun h => .tagItem <| .ladleLate h) .frameAct hs

protected theorem takeResult {r} {s0 : State} (hs0 : Queued cmds s0) : Queued cmds (takeResult r s0) := by
  unfold takeResult
  extract_lets s
  have hs : Queued cmds s := .ladleCatch <| .framesFirst hs0
  exact .ite hs (.ite (.raiseEvt <| .bump hs) (.ite (.bump hs) (.foldl .addJob hs)))

protected theorem noteWritten {i r} (hs : Queued cmds s) : Queued cmds (noteWritten i r s) := by
  unfold noteWritten
  split
  exacts [.ite (.setGroup hs) hs, hs]

protected theorem resultDue {d} (hs : Queued cmds s) : Queued cmds (resultDue d s) := by
  unfold resultDue
  exact .deliver
      (fun h => by split; exacts [.noteWritten <| .takeResult h, h])
      (fun h => .tagItem <| .ladleLate h)
      (fun h => by split; exacts [.noteWritten <| .takeResult h, h])
      hs

protected theorem countArm {d deps} {s0 : State} (hs0 : Queued cmds s0) : Queued cmds (countArm d deps s0) := by
  unfold countArm
  exact .ite
      (.ladleCatch hs0)
      (.evalNext <| .ite (.foldl .setPend (.ladleCatch hs0)) (.frame <| .foldl .setPend (.ladleCatch hs0)))

protected theorem armCopyDue {d} (hs : Queued cmds s) : Queued cmds (armCopyDue d s) := by
  unfold armCopyDue
  exact .deliver
      (fun h => by split; exacts [.countArm h, h])
      (fun h => .tagItem <| .ladleLate h)
      (fun h => by split; exacts [.countArm h, h])
      hs

protected theorem lateDecision {d} (hs : Queued cmds s) : Queued cmds (lateDecision d s) := .foldl .raiseEvt hs

protected theorem broadcastDue {c} {s0 : State} (hs0 : Queued cmds s0) : Queued cmds (broadcastDue c s0) := by
  unfold broadcastDue
  exact .deliver
      (fun h => by split; exacts [.setBcast h, h])
      (fun h => .tagItem <| .lateDecision h)
      (fun h => by split; exacts [.setBcast h, h])
      (.ladleUntil <| .ladleCatch hs0)

protected theorem dchChanged {c} (hs : Queued cmds s) : Queued cmds (dchChanged c s) := by
  unfold dchChanged
  exact .ite (.evalAt <| .setDch <| .retractDch hs) (.evalAt <| .exportDch <| .sendItem <| .setDch <| .retractDch hs)

protected theorem dchWrite {idx v} (hs : Queued cmds s) : Queued cmds (dchWrite idx v s) := by
  unfold dchWrite
  exact .dchChanged <| .wrAll <| .ladleCatch hs

protected theorem slotChanged {k x} (hs : Queued cmds s) : Queued cmds (slotChanged k x s) :=
  .evalNext <| .setSlot <| .ladleCatch hs

protected theorem releaseSlot {k} (hs : Queued cmds s) : Queued cmds (releaseSlot s k) := by
  unfold releaseSlot
  exact .ite hs (.ite hs (.slotChanged hs))

protected theorem reflip {k} (hs : Queued cmds s) : Queued cmds (reflip k s) := .foldl .flipFrame hs

protected theorem noteSoft {k fx fz} (hs : Queued cmds s) : Queued cmds (noteSoft k fx fz s) := .ite (.frame hs) hs

protected theorem releaseFrame {k} (hs : Queued cmds s) : Queued cmds (releaseFrame s k) := by
  unfold releaseFrame
  extract_lets
  split
  exacts [hs, .ite hs (.noteSoft <| .reflip <| .slotChanged hs)]

protected theorem clearEntries {s0 : State} (hs0 : Queued cmds s0) : Queued cmds (clearEntries s0) := by
  unfold clearEntries
  exact .evalNext <| .foldl .setReg (.frame <| .ladleCatchEval hs0)

protected theorem ladleRelease (hs : Queued cmds s) : Queued cmds (ladleRelease s) := by
  unfold ladleRelease
  exact .ite
      (.clearEntries <| .foldl .releaseFrame (.foldl .releaseSlot hs))
      (.foldl .releaseFrame (.foldl .releaseSlot hs))

protected theorem noteDefer {k} (hs : Queued cmds s) : Queued cmds (noteDefer k s) := by
  unfold noteDefer
  exact .raiseEvtIf hs

protected theorem slotBindWrite {v} (hs : Queued cmds s) : Queued cmds (slotBindWrite v s) := by
  unfold slotBindWrite
  exact .noteDefer <| .releaseSlot <| .setSlot hs

protected theorem slotAdvance (hs : Queued cmds s) : Queued cmds (slotAdvance s) := .ite (.wr hs) hs

protected theorem slotCfgWrite {v} (hs : Queued cmds s) : Queued cmds (slotCfgWrite v s) := by
  unfold slotCfgWrite
  exact .slotAdvance <| .noteDefer <| .releaseFrame <| .releaseSlot <| .setSlot hs

protected theorem clrLost {s0 : State} (hs0 : Queued cmds s0) : Queued cmds (clrLost s0) := by
  unfold clrLost
  exact .foldl (fun h => .ite (.moveDch h) h) (.ladleCatch hs0)

protected theorem clrEntriesNow (hs : Queued cmds s) : Queued cmds (clrEntriesNow s) :=
  .ite (.frame hs) (.clearEntries hs)

protected theorem resendAll {s0 : State} (hs0 : Queued cmds s0) : Queued cmds (resendAll s0) := by
  unfold resendAll
  exact .ite (.ladleCatch hs0) (.foldl .exportDch (.ladleCatch hs0))

protected theorem tableParity {channel idx} {s0 : State} (hs0 : Queued cmds s0) : Queued cmds (tableParity channel
    idx s0) := by
  unfold tableParity
  exact .ite
      (.raiseFault <| .evalNext <| .setDch <| .ladleCatch hs0)
      (.raiseFault <| .evalNext <| .wr <| .setSlot <| .ladleCatch hs0)

protected theorem lossAtLadle {port} {s0 : State} (hs0 : Queued cmds s0) : Queued cmds (lossAtLadle port s0) := by
  unfold lossAtLadle
  exact .ite
      (.ladleCatch hs0)
      (.ite
         (.ladleCatch hs0)
         (.raiseEvt <| .bump <| .foldl (fun h => .setBcast <| .setDch h) (.frame <| .ladleCatch hs0)))

protected theorem takeCopy {port src seq st at_} {t : State} {c} (ht : Queued cmds t) : Queued cmds (takeCopy port
    src seq st at_ t c) := by
  unfold takeCopy
  exact .ite (.bump ht) (.ladleCatch <| .addJob <| .ite (.raiseEvt <| .bump <| .setDch ht) (.setDch ht))

protected theorem flitRoom {s0 : State} (hs0 : Queued cmds s0) : Queued cmds (flitRoom s0) := by
  unfold flitRoom
  extract_lets
  split
  exacts [.ladleCatch hs0, .ite (.ladleCatch <| .passTo <| .ladleCatch hs0) (.ladleCatch hs0)]

protected theorem takeDecision {port node rch seq st stamp} {s0 : State} (hs0 : Queued cmds s0) : Queued cmds
    (takeDecision port node rch seq st stamp s0) := by
  unfold takeDecision
  exact .ite
      (.flitRoom hs0)
      (.ite (.foldl .tagDue (.ladleLate <| .foldl .takeCopy (.flitRoom hs0))) (.foldl .takeCopy (.flitRoom hs0)))

protected theorem ladleOpen {g} {s0 : State} (hs0 : Queued cmds s0) : Queued cmds (ladleOpen g s0) := by
  unfold ladleOpen
  exact .ite
      (.ladleCatchEval hs0)
      (.evalNext <|
         .foldl (fun h => .ite (.wr h) h) (.foldl (fun h => .ite (.reflip <| .setSlot h) h) (.ladleCatchEval hs0)))

protected theorem ladleEnabled (hs : Queued cmds s) : Queued cmds (ladleEnabled s) := by
  unfold ladleEnabled
  exact .evalNext <| .foldl (fun h => .ite (.moveDch h) h) (.ladleCatch hs)

/-! ## Converters -/

protected theorem outBump {out off hi lo k} (hs : Queued cmds s) : Queued cmds (outBump s out off hi lo k) := .bump hs

protected theorem outEvt {out bit} (hs : Queued cmds s) : Queued cmds (outEvt out bit s) := .raiseEvt hs

protected theorem outFault {out bit} (hs : Queued cmds s) : Queued cmds (outFault out bit s) := .raiseFault hs

protected theorem noteGate {before : State} {t out} (hs : Queued cmds s) : Queued cmds (noteGate before t out s) := by
  unfold noteGate
  exact .ite hs (.setOut hs)

protected theorem gated {t} {f : State → State} (hf : ∀ {t}, Queued cmds t → Queued cmds (f t)) (hs : Queued cmds s)
    : Queued cmds (gated t f s) :=
  .foldl .noteGate (hf hs)

protected theorem raiseFirst {pt n bit} (hs : Queued cmds s) : Queued cmds (raiseFirst pt n bit s) := by
  unfold raiseFirst
  exact .ite hs (.raiseEvt <| .frame hs)

protected theorem outCatch {out} (hs : Queued cmds s) : Queued cmds (outCatch out s) :=
  .ite hs (.ite (.setOut hs) (.raiseFirst <| .outBump <| .setOut hs))

protected theorem placeOp {out tone o} {s0 : State} (hs0 : Queued cmds s0) : Queued cmds (placeOp out tone o s0) := by
  unfold placeOp
  split
  exacts [hs0, .setTone <| .outCatch hs0]

protected theorem cutStreams {out tone} (hs : Queued cmds s) : Queued cmds (cutStreams out tone s) :=
  .foldl (fun h => by split; exacts [.ite (.setStream h) h, h]) hs

protected theorem placePulse {out tone late u0} {s0 : State} (hs0 : Queued cmds s0) : Queued cmds (placePulse out
    tone late u0 s0) := by
  unfold placePulse
  exact .ite
      (.outEvt <| .outBump <| .cutStreams <| .setTone <| .ite (.outCatch hs0) (.setOut hs0))
      (.cutStreams <| .setTone <| .ite (.outCatch hs0) (.setOut hs0))

protected theorem claimFor {out tone u} (hs : Queued cmds s) : Queued cmds (claimFor out tone u s) := by
  unfold claimFor
  split
  exacts [.setStream hs, hs]

protected theorem freeStream {out tone u} (hs : Queued cmds s) : Queued cmds (freeStream out tone u s) := by
  unfold freeStream
  split
  exacts [.ite (.setStream hs) hs, hs]

protected theorem acceptPort {i} (hs : Queued cmds s) : Queued cmds (acceptPort i s) := by
  unfold acceptPort
  split
  exacts [.ite hs (.claimFor hs), hs]

protected theorem portAct {late i} (hs : Queued cmds s) : Queued cmds (portAct late i s) := by
  unfold portAct
  split
  · extract_lets _ _ s1 _ _ _ s2 s3
    have hs1 : Queued cmds s1 := .placeOp hs
    have hs2 : Queued cmds s2 := .ite (.freeStream hs1) (.ite hs1 (.claimFor hs1))
    have hs3 : Queued cmds s3 := .ite (.tagItem <| .outEvt <| .outBump hs2) hs2
    exact .ite hs1 (.ite hs3 (.placePulse hs3))
  · exact hs

protected theorem portActionDue {out tone} (hs : Queued cmds s) : Queued cmds (portActionDue out tone s) := by
  unfold portActionDue
  exact .deliver (fun h => .portAct <| .framesFirst h) (fun h => .tagItem <| .outEvt h) .portAct hs

protected theorem muteWrite {out on} (hs : Queued cmds s) : Queued cmds (muteWrite out on s) := by
  unfold muteWrite
  exact .ite (.tagSeq <| .gated .wr hs) (.gated .wr hs)

protected theorem toneVerify {out tone mismatch} (hs : Queued cmds s) : Queued cmds (toneVerify out tone mismatch s)
    :=
  .ite (.addWear <| .outFault <| .wr <| .outBump hs) hs

protected theorem toneOpen {t out tone} (hs : Queued cmds s) : Queued cmds (toneOpen t out s tone) := by
  unfold toneOpen
  exact .ite (.placeOp <| .ite (.placeOp hs) hs) (.ite (.placeOp hs) hs)

protected theorem freqChanged {out tone} (hs : Queued cmds s) : Queued cmds (freqChanged out tone s) := by
  unfold freqChanged
  exact .placeOp hs

protected theorem strmResolve {out dep ok n} (hs : Queued cmds s) : Queued cmds (strmResolve out dep ok s n) := by
  unfold strmResolve
  exact .ite hs (.ite (.setStream hs) (.setStream hs))

protected theorem outResolve {out dep ok} (hs : Queued cmds s) : Queued cmds (outResolve out dep ok s) :=
  .foldl .strmResolve (.foldl (fun h => .cutStreams <| .setTone h) (.outCatch hs))

protected theorem flxEvt {o bit} (hs : Queued cmds s) : Queued cmds (flxEvt o bit s) := .raiseEvt hs

protected theorem fluxPost {o f} (hs : Queued cmds s) : Queued cmds (fluxPost o f s) := by
  unfold fluxPost
  exact .raiseEvtIf <|
      .ite
        (.raiseEvtIf <| .ite (.setFlux hs) (.raiseFirst <| .bump <| .setFlux hs))
        (.flxEvt <| .bump <| .raiseEvtIf <| .ite (.setFlux hs) (.raiseFirst <| .bump <| .setFlux hs))

protected theorem fluxCatch {o} (hs : Queued cmds s) : Queued cmds (fluxCatch o s) := by
  unfold fluxCatch
  exact .ite hs (.ite (.setFlux hs) (.fluxPost hs))

protected theorem fluxGroupCatch {g} (hs : Queued cmds s) : Queued cmds (fluxGroupCatch g s) := .foldl .fluxCatch hs

protected theorem fluxTakeOver {o} (hs : Queued cmds s) : Queued cmds (fluxTakeOver o s) := by
  unfold fluxTakeOver
  exact .ite (.setFlux hs) hs

protected theorem putFlux {o p w act deps} (hs : Queued cmds s) : Queued cmds (putFlux o p w act deps s) := by
  unfold putFlux
  exact .setFlux hs

protected theorem fluxRampAt {t toPark o} (hs : Queued cmds s) : Queued cmds (fluxRampAt t toPark o s) := by
  unfold fluxRampAt
  exact .ite (.fluxCatch hs) (.ite (.setFlux <| .fluxCatch hs) (.putFlux <| .setFlux <| .fluxCatch hs))

protected theorem fluxRamp {toPark o} (hs : Queued cmds s) : Queued cmds (fluxRamp toPark o s) := .fluxRampAt hs

protected theorem fluxGroupPark {g} (hs : Queued cmds s) : Queued cmds (fluxGroupPark g s) := .foldl .fluxRamp hs

protected theorem fluxAct {i} {s0 : State} (hs0 : Queued cmds s0) : Queued cmds (fluxAct i s0) := by
  unfold fluxAct
  split
  · extract_lets s _ _ _ _ _ _ _ _ _ s1
    have hs : Queued cmds s := .fluxCatch <| .fluxTakeOver hs0
    have hs1 : Queued cmds s1 := .ite (.tagItem <| .flxEvt <| .bump hs) hs
    refine .ite hs0 ?_
    split
    · exact .ite hs1 (.ite hs1 (.putFlux hs1))
    · exact .ite hs1 (.ite hs1 (.putFlux hs1))
    · exact .ite hs (.putFlux hs)
    · exact .ite hs (.putFlux hs)
    · exact hs
  · exact hs0

protected theorem fluxHoldNow {o} (hs : Queued cmds s) : Queued cmds (fluxHoldNow o s) := by
  unfold fluxHoldNow
  exact .ite (.fluxCatch hs) (.putFlux <| .fluxCatch hs)

protected theorem fluxLate {i} (hs : Queued cmds s) : Queued cmds (fluxLate i s) := by
  unfold fluxLate
  split
  exacts [.fluxHoldNow hs, hs]

protected theorem fluxActionDue {o} (hs : Queued cmds s) : Queued cmds (fluxActionDue o s) := by
  unfold fluxActionDue
  exact .deliver .fluxAct (fun h => .tagItem <| .flxEvt h) .fluxLate hs

protected theorem parkNowWrite {o on} (hs : Queued cmds s) : Queued cmds (parkNowWrite o on s) := by
  unfold parkNowWrite
  exact .ite (.tagSeq <| .fluxRamp <| .wr <| .fluxCatch hs) (.wr <| .fluxCatch hs)

protected theorem rampDone {o} (hs : Queued cmds s) : Queued cmds (rampDone o s) := by
  unfold rampDone
  exact .fluxCatch <| .passTicks <| .fluxCatch <| .passTicks <| .fluxCatch hs

protected theorem runNear {o : Nat} : ∀ {n : Nat} {s : State}, Queued cmds s → Queued cmds (runNear o n s)
  | 0, _, hs => hs
  | _ + 1, _, hs => .ite hs (Queued.runNear <| .fluxCatch <| .passTicks hs)

protected theorem holderTakes {o} (hs : Queued cmds s) : Queued cmds (holderTakes o s) := .setFlux hs

protected theorem parkHandover {o} (hs : Queued cmds s) : Queued cmds (parkHandover o s) :=
  .ite hs (.holderTakes <| .runNear <| .rampDone hs)

protected theorem pdClrWrite {o} (hs : Queued cmds s) : Queued cmds (pdClrWrite o s) := .setFlux hs

protected theorem pdClrApply {o} (hs : Queued cmds s) : Queued cmds (pdClrApply o s) :=
  .ite (.setFlux <| .fluxCatch hs) hs

protected theorem fluxEndPark {e o} (hs : Queued cmds s) : Queued cmds (fluxEndPark e o s) :=
  .ite (.putFlux <| .fluxCatch hs) hs

protected theorem fluxResolve {o dep ok} (hs : Queued cmds s) : Queued cmds (fluxResolve o dep ok s) := by
  unfold fluxResolve
  exact .setFlux hs

protected theorem dacFaultAt {out} (hs : Queued cmds s) : Queued cmds (dacFaultAt out s) :=
  .ite (.outFault <| .tagSeq <| .gated .setOut hs) (.raiseFault <| .tagSeq <| .setFlux <| .fluxRamp hs)

protected theorem silenceSeq {q t} (hs : Queued cmds s) : Queued cmds (silenceSeq q t s) :=
  .ite (.gated .setOut hs) (.ite (.foldl (fun h => .setFlux <| .fluxRampAt h) hs) hs)

protected theorem soundSeq {q t} (hs : Queued cmds s) : Queued cmds (soundSeq q t s) :=
  .ite (.gated .setOut hs) (.ite (.foldl (fun h => .ite (.setFlux h) h) hs) hs)

/-! ## Crc -/

protected theorem ctxCfgWrite {slot v} (hs : Queued cmds s) : Queued cmds (ctxCfgWrite slot v s) := by
  unfold ctxCfgWrite
  exact .ite (.wrAll <| .wrAll hs) (.wrAll hs)

protected theorem ctxData {slot v} (hs : Queued cmds s) : Queued cmds (ctxData slot v s) := by
  unfold ctxData
  exact .ite (.raiseEvt hs) (.wr <| .wrAll hs)

protected theorem feedNoted {p slot v} (hs : Queued cmds s) : Queued cmds (feedNoted p slot v s) := by
  unfold feedNoted
  exact .ite (.frame <| .ctxData hs) (.ctxData hs)

protected theorem feedOrdered {p slot v} (hs : Queued cmds s) : Queued cmds (feedOrdered p slot v s) := by
  unfold feedOrdered
  extract_lets
  split
  exacts [.feedNoted hs, .foldl .feedNoted (.feedNoted <| .setReg <| .setReg <| .frame hs)]

protected theorem feedsDone {slot} (hs : Queued cmds s) : Queued cmds (feedsDone slot s) := .frame hs

protected theorem crcWindowWrite {eng v} (hs : Queued cmds s) : Queued cmds (crcWindowWrite eng v s) := .ctxData hs

protected theorem ctxValWrite {slot v} (hs : Queued cmds s) : Queued cmds (ctxValWrite slot v s) := by
  unfold ctxValWrite
  exact .wrAll hs

/-! ## Readout -/

protected theorem setDemod {d x} (hs : Queued cmds s) : Queued cmds (setDemod s d x) := .frame hs

protected theorem setRdi {n x} (hs : Queued cmds s) : Queued cmds (setRdi s n x) := .frame hs

protected theorem dmPlace {t d op} (hs : Queued cmds s) : Queued cmds (dmPlace t d op s) := by
  unfold dmPlace
  exact .setDemod hs

protected theorem dmOpen {t d} (hs : Queued cmds s) : Queued cmds (dmOpen t s d) := .ite (.dmPlace hs) hs

protected theorem dfChanged {d} (hs : Queued cmds s) : Queued cmds (dfChanged d s) := .dmPlace hs

protected theorem noteWord {r} (hs : Queued cmds s) : Queued cmds (noteWord r s) := .frame hs

protected theorem sendResult {r due group deps} (hs : Queued cmds s) : Queued cmds (sendResult r due group deps s)
    := by
  unfold sendResult
  extract_lets _ _ _ s2 t
  have hs2 : Queued cmds s2 := .raiseBit <| .wrAll <| .wrAll <| .wrAll hs
  have ht : Queued cmds t := .bump hs2
  exact .sendItem <| .noteWord <| .ite (by split; exacts [.tagShot ht, ht]) hs2

protected theorem refuse {d r} (hs : Queued cmds s) : Queued cmds (refuse d r s) := by
  unfold refuse
  exact .setDemod hs

protected theorem refuseArm {d cause due a i} (hs : Queued cmds s) : Queued cmds (refuseArm d cause due a i s) :=
  .refuse hs

protected theorem formRefused {d r} (hs : Queued cmds s) : Queued cmds (formRefused d s r) := .atTick .sendResult hs

protected theorem readCatch {d} (hs : Queued cmds s) : Queued cmds (readCatch d s) := by
  unfold readCatch
  exact .ite (.foldl .formRefused (.setDemod hs)) hs

protected theorem inputCatch {n} (hs : Queued cmds s) : Queued cmds (inputCatch n s) :=
  .foldl (fun h => .ite h (.readCatch h)) hs

protected theorem readUntil {d} (hs : Queued cmds s) : Queued cmds (readUntil d s) := by
  unfold readUntil
  split
  exacts [.readCatch <| .passTo hs, hs]

protected theorem armAct {i} (hs : Queued cmds s) : Queued cmds (armAct i s) := by
  unfold armAct
  split
  · exact .ite
        (.refuseArm hs)
        (.ite (.refuseArm <| .raiseEvt <| .bump hs) (.ite (.refuseArm <| .raiseEvt <| .bump hs) (.setDemod hs)))
  · exact hs

protected theorem armLate {i} (hs : Queued cmds s) : Queued cmds (armLate i s) := by
  unfold armLate
  split
  exacts [.refuseArm hs, hs]

protected theorem windowArmDue {d} (hs : Queued cmds s) : Queued cmds (windowArmDue d s) := by
  unfold windowArmDue
  exact .deliver .armAct (fun h => .tagItem <| .raiseEvt h) .armLate hs

protected theorem setSliceAt {n p v} (hs : Queued cmds s) : Queued cmds (setSliceAt n p v s) := .wr hs

protected theorem inputOverrange {n} (hs : Queued cmds s) : Queued cmds (inputOverrange n s) := by
  unfold inputOverrange
  exact .raiseFirst <| .bump <| .setRdi hs

protected theorem windowClose {d lead raw} (hs : Queued cmds s) : Queued cmds (windowClose d lead raw s) := by
  unfold windowClose
  extract_lets
  split
  · exact hs
  · extract_lets _ _ _ s2 s3
    have hs2 : Queued cmds s2 := .setDemod <| .passTo hs
    have hs3 : Queued cmds s3 := .ite (.raiseFirst hs2) hs2
    exact .ite hs (.sendResult <| .ite (.raiseFirst <| .bump hs3) hs3)

protected theorem dmResolve {dep ok d} (hs : Queued cmds s) : Queued cmds (dmResolve dep ok s d) := by
  unfold dmResolve
  exact .ite (.readCatch <| .setDemod hs) (.setDemod hs)

protected theorem dmReset {d} (hs : Queued cmds s) : Queued cmds (dmReset s d) := by
  unfold dmReset
  exact .foldl .refuse (.setDemod hs)

protected theorem resultArrives {d} (hs : Queued cmds s) : Queued cmds (resultArrives d s) := by
  unfold resultArrives
  exact .resultDue <| .ite (.readCatch hs) (.readUntil hs)

protected theorem noteFit {n k} (hs : Queued cmds s) : Queued cmds (noteFit n k s) := by
  unfold noteFit
  exact .setRdi hs

protected theorem trackSlice {n} {s0 : State} {p} (hs0 : Queued cmds s0) : Queued cmds (trackSlice n s0 p) := by
  unfold trackSlice
  exact .frame <| .ite (.wr <| .wr <| .noteFit hs0) (.wr <| .wr <| .wr <| .noteFit hs0)

protected theorem sliceFails {n unit} (hs : Queued cmds s) : Queued cmds (sliceFails n unit s) := by
  unfold sliceFails
  exact .ite
      (.setSpareState <| .raiseFault hs)
      (.ite (.pendSub <| .candidate_ <| .raiseFault hs) (.candidate_ <| .raiseFault hs))

protected theorem activeCheck {n pos resid} (hs : Queued cmds s) : Queued cmds (activeCheck n pos resid s) := by
  unfold activeCheck
  exact .ite (.sliceFails <| .addWear hs) hs

protected theorem shadowStep {n resid ofs gain skew pos act} (hs : Queued cmds s) : Queued cmds (shadowStep n resid
    ofs gain skew pos act s) := by
  unfold shadowStep
  extract_lets _ s1 _ _ s3 _ s4
  have hs1 : Queued cmds s1 := .activeCheck <| .foldl .trackSlice hs
  have hs3 : Queued cmds s3 := .hmSample <| .wr <| .wr <| .wr <| .wr <| .wr <| .noteFit hs1
  have hs4 : Queued cmds s4 := .setRdi <| .addWear hs3
  exact .ite hs (.ite hs1 (.ite (.ite hs4 (.sliceFails hs4)) (.setRdi hs3)))

protected theorem handoverAt {n} (hs : Queued cmds s) : Queued cmds (handoverAt n s) := by
  unfold handoverAt
  exact .ite (.raiseEvt <| .bump <| .setRdi <| .setSliceAt hs) hs

protected theorem inputQuiet {n below} (hs : Queued cmds s) : Queued cmds (inputQuiet n below s) := by
  unfold inputQuiet
  exact .raiseEvtIf <| .setRdi hs

protected theorem adcFaultAt {n} (hs : Queued cmds s) : Queued cmds (adcFaultAt n s) := .raiseFault hs

/-! ## Requests -/

protected theorem askTbus {line a} (hs : Queued cmds s) : Queued cmds (askTbus line a s) := .ite hs (.frame hs)

protected theorem askStart {m a opening} (hs : Queued cmds s) : Queued cmds (askStart m a opening s) :=
  .ite hs (.frame hs)

protected theorem sendTrigger {ports id due} (hs : Queued cmds s) : Queued cmds (sendTrigger ports id due s) :=
  .ite hs (.foldl .queueRt (.frame hs))

protected theorem waitFor {t q p} (hs : Queued cmds s) : Queued cmds (waitFor t q p s) := .frame hs

protected theorem sendTaskTrigger {q r id n due} (hs : Queued cmds s) : Queued cmds (sendTaskTrigger q r id n due s)
    := by
  unfold sendTaskTrigger
  exact .ite (.waitFor hs) (.queueRt hs)

protected theorem doKept {q p} (hs : Queued cmds s) : Queued cmds (doKept q p s) := by
  unfold doKept
  split
  · exact .fireLine hs
  · exact .sendItem hs
  · exact .setGroup hs
  · exact .askStart hs
  · exact .ite (.waitFor hs) (.sendTrigger hs)
  · exact .sendTaskTrigger hs
  · exact .raiseEvt hs
  · exact .raiseEvt hs
  · exact .ite (.raiseEvt hs) (.raiseEvt hs)

protected theorem doAt {t q p} (hs : Queued cmds s) : Queued cmds (doAt t q p s) := .ite (.waitFor hs) (.doKept hs)

protected theorem laterCatch (hs : Queued cmds s) : Queued cmds (laterCatch s) := by
  unfold laterCatch
  exact .foldl .doKept (.frame hs)

/-! ## Sequencer -/

protected theorem passWord {x t} (hs : Queued cmds s) : Queued cmds (passWord x t s) :=
  .ite (.passTo hs) (.withinLead hs)

protected theorem passNext {x t} (hs : Queued cmds s) : Queued cmds (passNext x t s) :=
  .ite (.passTo hs) (.withinLead hs)

protected theorem doOrKeep {q p} (hs : Queued cmds s) : Queued cmds (doOrKeep q p s) := by
  unfold doOrKeep
  extract_lets
  split
  exacts [.doAt hs, .setSeq hs]

protected theorem stackFaultNow {q} (hs : Queued cmds s) : Queued cmds (stackFaultNow q s) := by
  unfold stackFaultNow
  exact .silenceSeq <| .tagSeq <| .raiseFault <| .setSeq hs

protected theorem stackFault {q} (hs : Queued cmds s) : Queued cmds (stackFault q s) := by
  unfold stackFault
  exact .ite (.stackFaultNow hs) (.setSeq hs)

protected theorem endPart {q e} (hs : Queued cmds s) : Queued cmds (endPart q e s) := by
  unfold endPart
  exact .ite (.foldl .fluxEndPark (.raiseEvtIf <| .setSeq hs)) (.raiseEvtIf <| .setSeq hs)

protected theorem takeLatch {q} (hs : Queued cmds s) : Queued cmds (takeLatch q s) := by
  unfold takeLatch
  exact .ite (.wr <| .setSeq hs) hs

protected theorem machineCheck {q w k} (hs : Queued cmds s) : Queued cmds (machineCheck q w k s) := by
  unfold machineCheck
  exact .addWear <| .addWear <| .logEvent <| .silenceSeq <| .tagSeq <| .raiseFault <| .wrAll <| .setSeq hs

protected theorem startEntry {q e t} (hs : Queued cmds s) : Queued cmds (startEntry q e t s) := by
  unfold startEntry
  split
  exacts [.machineCheck hs, .ite (.endPart <| .raiseEvt <| .setSeq hs) (.setSeq hs)]

protected theorem fixSuccessor {q} (hs : Queued cmds s) : Queued cmds (fixSuccessor q s) := by
  unfold fixSuccessor
  extract_lets
  split
  exacts [.setSeq hs, .setSeq hs, .ite (.setSeq hs) (.ite (.setSeq hs) (.setSeq hs))]

protected theorem settleSuccessor {q} (hs : Queued cmds s) : Queued cmds (settleSuccessor q s) :=
  .ite (.fixSuccessor hs) hs

protected theorem startSuccessor {q} (hs : Queued cmds s) : Queued cmds (startSuccessor q s) := by
  unfold startSuccessor
  extract_lets
  split
  · refine .ite ?_ hs
    split
    exacts [.setSeq hs, .atTick .startEntry (.setSeq hs), .atTick (fun h => .startEntry <| .bump h) (.setSeq hs)]
  · exact hs

protected theorem endFixed {q} (hs : Queued cmds s) : Queued cmds (endFixed q s) := by
  unfold endFixed
  split
  exacts [.ite (.atTick .endPart hs) hs, hs]

protected theorem seqTick {q} (hs : Queued cmds s) : Queued cmds (seqTick q s) := by
  unfold seqTick
  exact .ite
      (.atTick .stackFaultNow (.laterCatch hs))
      (.takeLatch <| .endFixed <| .startSuccessor <| .settleSuccessor <| .laterCatch hs)

protected theorem part {q code} {cond : Uword → Bool} {f : Seq → Uword → State → State} {s0 : State} (hf : ∀ {x1 x2
    t}, Queued cmds t → Queued cmds (f x1 x2 t)) (hs0 : Queued cmds s0) : Queued cmds (part q code cond f s0) := by
  unfold part
  exact .ite (hf <| .setSeq <| .passWord <| .seqTick hs0) (.seqTick hs0)

protected theorem fetchWord {q w t} (hs : Queued cmds s) : Queued cmds (fetchWord q w t s) := by
  unfold fetchWord
  split
  exacts [.machineCheck hs, .takeLatch <| .setSeq hs]

protected theorem moveOn {q} {s0 : State} (hs0 : Queued cmds s0) : Queued cmds (moveOn q s0) := by
  unfold moveOn
  extract_lets s
  have hs : Queued cmds s := .seqTick hs0
  split
  · extract_lets
    split
    · exact .fetchWord <| .ite (.doOrKeep <| .passNext hs) (.passNext hs)
    · exact .ite (.endPart <| .ite (.doOrKeep <| .passNext hs) (.passNext hs)) hs
  · exact hs

protected theorem loopPush {q} (hs : Queued cmds s) : Queued cmds (loopPush q s) :=
  .part (fun h => .ite (.stackFault h) (.ite (.doOrKeep <| .setSeq h) (.setSeq h))) hs

protected theorem loopBreak {q} (hs : Queued cmds s) : Queued cmds (loopBreak q s) :=
  .part (fun h => by split; exacts [.stackFault h, .setSeq h]) hs

protected theorem nextWord {q code} {f : Seq → Uword → State → State} (hf : ∀ {x1 x2 t}, Queued cmds t → Queued cmds
    (f x1 x2 t)) (hs : Queued cmds s) : Queued cmds (nextWord q code f s) :=
  .part (fun h => .ite (hf h) h) (.ite (.loopBreak <| .loopPush hs) hs)

protected theorem setSucc {q sc} (hs : Queued cmds s) : Queued cmds (setSucc q sc s) := .setSeq hs

protected theorem wordSeq {q} (hs : Queued cmds s) : Queued cmds (wordSeq q s) := .nextWord .setSucc hs

protected theorem wordJump {q} (hs : Queued cmds s) : Queued cmds (wordJump q s) := .nextWord .setSucc hs

protected theorem wordCall {q} (hs : Queued cmds s) : Queued cmds (wordCall q s) :=
  .nextWord (fun h => .ite (.stackFault h) (.setSucc <| .setSeq h)) hs

protected theorem wordRet {q} (hs : Queued cmds s) : Queued cmds (wordRet q s) :=
  .nextWord (fun h => by split; exacts [.stackFault h, .setSucc <| .setSeq h]) hs

protected theorem wordLoop {q} (hs : Queued cmds s) : Queued cmds (wordLoop q s) :=
  .nextWord (fun h => by split; exacts [.stackFault h, .ite (.setSucc <| .setSeq h) (.setSucc <| .setSeq h)]) hs

protected theorem wordEnd {q} (hs : Queued cmds s) : Queued cmds (wordEnd q s) := .nextWord .setSucc hs

protected theorem putSweep {q e} (hs : Queued cmds s) : Queued cmds (putSweep q s e) :=
  .ite (.setTone hs) (.setFlux hs)

protected theorem sweepReload {q} (hs : Queued cmds s) : Queued cmds (sweepReload q s) :=
  .part (fun h => .foldl .putSweep h) hs

protected theorem sweepStep {q} (hs : Queued cmds s) : Queued cmds (sweepStep q s) :=
  .part (fun h => .foldl (fun h => .ite (.putSweep h) (.doOrKeep <| .putSweep h)) (.setSeq h)) (.sweepReload hs)

protected theorem takeBranch {q pc toTarget u} (hs : Queued cmds s) : Queued cmds (takeBranch q pc toTarget u s) := by
  unfold takeBranch
  exact .setSeq hs

protected theorem wordBr {q} {s0 : State} (hs0 : Queued cmds s0) : Queued cmds (wordBr q s0) := by
  unfold wordBr
  extract_lets s _ _ s1
  have hs : Queued cmds s := .seqTick hs0
  have hs1 : Queued cmds s1 := .sweepStep <| .loopBreak <| .loopPush <| .passWord hs
  exact .ite (.ite hs1 (by split; exacts [.ite (.setSeq <| .takeBranch hs1) (.setSeq hs1), .setSeq hs1])) hs

protected theorem decideBr {q u d} {s0 : State} (hs0 : Queued cmds s0) : Queued cmds (decideBr q u d s0).2 := by
  unfold decideBr
  extract_lets
  split
  · exact .bcastCatch hs0
  · exact .bump <| .bcastCatch hs0
  · exact .tagSeq <| .raiseEvt <| .bump <| .bcastCatch hs0
  · exact .tagSeq <| .raiseEvt <| .bump <| .bcastCatch hs0

protected theorem applyKept {q ps} (hs : Queued cmds s) : Queued cmds (applyKept q ps s) := .foldl .doAt hs

protected theorem sendResolution {q a ok} (hs : Queued cmds s) : Queued cmds (sendResolution q a ok s) := by
  unfold sendResolution
  exact .ite (.addJob <| .ite (.setSeq hs) hs) (.ite (.setSeq hs) hs)

protected theorem cancelPath {q a toT u} (hs : Queued cmds s) : Queued cmds (cancelPath q a toT u s) := by
  unfold cancelPath
  exact .takeBranch <| .bump <| .foldl .putSweep (.setSeq hs)

protected theorem branchResolve {q} {s0 : State} (hs0 : Queued cmds s0) : Queued cmds (branchResolve q s0) := by
  unfold branchResolve
  extract_lets s
  have hs : Queued cmds s := .seqTick hs0
  split
  · exact hs
  · split
    · extract_lets
      split
      · extract_lets _ s2 _ _ s4
        have hs2 : Queued cmds s2 := .sendResolution <| .of_pair ‹_› <| .decideBr <| .passTo hs
        have hs4 : Queued cmds s4 := .seqTick <| .applyKept <| .setSeq hs2
        exact .ite (.ite (.wordBr <| .setSeq hs4) hs4) (.cancelPath <| .foldl .sendResolution hs2)
    · exact .ite (by split; exacts [by split; exact .takeBranch <| .of_pair ‹_› <| .decideBr <| .passTo hs, hs]) hs

protected theorem voidSent {i} (hs : Queued cmds s) : Queued cmds (voidSent i s) := by
  unfold voidSent
  split
  exacts [by extract_lets; split; exacts [.tagShot <| .wr <| .wr <| .bump hs, .wr <| .wr <| .bump hs], hs]

protected theorem commitGate {q} {s0 : State} (hs0 : Queued cmds s0) : Queued cmds (commitGate q s0) := by
  unfold commitGate
  extract_lets
  split
  · exact hs0
  · extract_lets _ _ s1 _ _ s3 s4
    have hs1 : Queued cmds s1 := .setSeq <| .passTo hs0
    have hs3 : Queued cmds s3 := .frame <| .ite hs1 (.foldl .voidSent hs1)
    have hs4 : Queued cmds s4 :=
      .ite (.outResolve hs3) (.ite (.foldl .dmResolve (.outResolve hs3)) (.ite (.foldl .fluxResolve hs3) hs3))
    exact .ite (.ladleResolve <| .ladleCatch hs4) hs4

protected theorem waitExpiry {q} (hs : Queued cmds s) : Queued cmds (waitExpiry q s) := by
  unfold waitExpiry
  split
  exacts [hs, .moveOn hs]

protected theorem resolveBefore {q} (hs : Queued cmds s) : Queued cmds (resolveBefore q s) := by
  unfold resolveBefore
  exact .ite (.ite hs (.branchResolve hs)) (.branchResolve <| .ite hs (.branchResolve hs))

protected theorem waitMet {q d} (hs : Queued cmds s) : Queued cmds (waitMet q d s) := by
  unfold waitMet
  exact .moveOn <| .ite (.wordBr <| .setSeq <| .setSeq hs) (.setSeq hs)

protected theorem timedOut {q t} (hs : Queued cmds s) : Queued cmds (timedOut q t s) :=
  .waitMet <| .tagSeq <| .raiseEvt <| .passTo hs

protected theorem metWait {q d} (hs : Queued cmds s) : Queued cmds (metWait q d s) := by
  unfold metWait
  split
  exacts [.ite (.timedOut hs) (.waitMet hs), .waitMet hs]

protected theorem atWait {q} {ok : Seq → Uword → Bool} {first : Seq → BitVec 48} {f : Seq → Uword → State → State}
    {s0 : State} (hf : ∀ {x1 x2 t}, Queued cmds t → Queued cmds (f x1 x2 t)) (hs0 : Queued cmds s0) : Queued cmds
    (atWait q ok first f s0) := by
  unfold atWait
  extract_lets s _ s1
  have hs : Queued cmds s := .seqTick hs0
  have hs1 : Queued cmds s1 := .seqTick <| .resolveBefore <| .passTo hs
  split
  exacts [hs, .ite (.ite (hf <| .ite (.bcastCatch hs1) hs1) hs1) hs]

protected theorem endWait {q x u} (hs : Queued cmds s) : Queued cmds (endWait q x u s) := by
  unfold endWait
  split
  exacts [.metWait hs, hs]

protected theorem decisionWaitEnd {q} (hs : Queued cmds s) : Queued cmds (decisionWaitEnd q s) := .atWait .endWait hs

protected theorem eventWaitEnd {q} (hs : Queued cmds s) : Queued cmds (eventWaitEnd q s) := .atWait .endWait hs

protected theorem markWaitEnd {q} (hs : Queued cmds s) : Queued cmds (markWaitEnd q s) := .atWait .endWait hs

protected theorem waitTimeout {q} (hs : Queued cmds s) : Queued cmds (waitTimeout q s) :=
  .atWait (fun h => by split; exacts [.metWait h, .timedOut h]) hs

protected theorem sendWord {q x n load} (hs : Queued cmds s) : Queued cmds (sendWord q x n load s) := by
  unfold sendWord
  exact .acceptPort <| .sendItem hs

protected theorem drivePulse {q p} (hs : Queued cmds s) : Queued cmds (drivePulse q p s) :=
  .part .sendWord (.sweepReload hs)

protected theorem phaseOp {q p code} (hs : Queued cmds s) : Queued cmds (phaseOp q p code s) :=
  .ite (.part .sendWord (.sweepReload hs)) (.part .sendWord (.sweepReload hs))

protected theorem fluxOp {g p code} (hs : Queued cmds s) : Queued cmds (fluxOp g p code s) := by
  unfold fluxOp
  exact .part .sendWord (.sweepReload hs)

protected theorem evtFire {q} (hs : Queued cmds s) : Queued cmds (evtFire q s) :=
  .part (fun h => .foldl .doOrKeep h) hs

protected theorem markEn {m} (hs : Queued cmds s) : Queued cmds (markEn m s) := by
  unfold markEn
  exact .part .doOrKeep hs

protected theorem calwin {m} (hs : Queued cmds s) : Queued cmds (calwin m s) := .part .doOrKeep hs

protected theorem tbusStart {m} (hs : Queued cmds s) : Queued cmds (tbusStart m s) := .part .doOrKeep hs

protected theorem ringTrig {m} (hs : Queued cmds s) : Queued cmds (ringTrig m s) := .part .doOrKeep hs

protected theorem probePulse {n} (hs : Queued cmds s) : Queued cmds (probePulse n s) := by
  unfold probePulse
  exact .part (fun h => .foldl .sendWord h) (.sweepReload hs)

protected theorem windowArm {n} (hs : Queued cmds s) : Queued cmds (windowArm n s) := by
  unfold windowArm
  exact .part (fun h => .foldl (fun h => .sendWord <| .sendWord h) h) hs

protected theorem markDue {g} (hs : Queued cmds s) : Queued cmds (markDue g s) := by
  unfold markDue
  exact .deliver
      (fun h => by split; exacts [.foldl (fun h => .ite (.setSeq h) h) h, h])
      (fun h => .tagItem <| .raiseEvt h)
      (fun h => by split; exacts [.foldl (fun h => .ite (.setSeq h) h) h, h])
      hs

protected theorem issuePlay {q} (hs : Queued cmds s) : Queued cmds (issuePlay q s) := by
  unfold issuePlay
  exact .foldl .fireLine (.foldl (fun h => .ite h (.ite (.sendWord h) (.sendWord h))) (.setSeq <| .passTo hs))

protected theorem toNextPlay {q} {s0 : State} (hs0 : Queued cmds s0) : Queued cmds (toNextPlay q s0) := by
  unfold toNextPlay
  extract_lets s s1
  have hs : Queued cmds s := .seqTick hs0
  have hs1 : Queued cmds s1 := .ite (.seqTick <| .passTo hs) hs
  split
  exacts [.ite (.seqTick <| .passTo hs1) hs1, hs1]

protected theorem segmentPlay {q} {s0 : State} (hs0 : Queued cmds s0) : Queued cmds (segmentPlay q s0) := by
  unfold segmentPlay
  exact .ite (.ite (.toNextPlay hs0) (.seqTick hs0)) (.issuePlay <| .ite (.toNextPlay hs0) (.seqTick hs0))

protected theorem segmentDecide {q} {s0 : State} (hs0 : Queued cmds s0) : Queued cmds (segmentDecide q s0) := by
  unfold segmentDecide
  exact .ite (.toNextPlay hs0) (.seqTick <| .setSeq <| .passTo <| .toNextPlay hs0)

protected theorem decidePast {q : Nat} : ∀ {n : Nat} {s : State}, Queued cmds s → Queued cmds (decidePast n q s)
  | 0, _, hs => hs
  | _ + 1, _, hs =>
    .ite (Queued.decidePast <| .fixSuccessor <| .ite (.seqTick hs) (.issuePlay <| .seqTick hs)) (.seqTick hs)

protected theorem overdue {q} (hs : Queued cmds s) : Queued cmds (overdue q s) := .decidePast hs

protected theorem segRequest {q r} {s0 : State} (hs0 : Queued cmds s0) : Queued cmds (segRequest q r s0) :=
  .ite hs0 (.ite (.raiseEvt <| .bump <| .setSeq <| .overdue hs0) (.setSeq <| .overdue hs0))

protected theorem softRequest {q r} (hs : Queued cmds s) : Queued cmds (softRequest q r s) :=
  .ite hs (.setSeq <| .segRequest hs)

protected theorem upToDate {q} {s0 : State} (hs0 : Queued cmds s0) : Queued cmds (upToDate q s0) := by
  unfold upToDate
  exact .ite
      (.ite (.waitTimeout <| .seqTick <| .resolveBefore <| .seqTick hs0) (.seqTick <| .resolveBefore <| .seqTick hs0))
      (.seqTick hs0)

protected theorem goActivate {q} {s0 : State} (hs0 : Queued cmds s0) : Queued cmds (goActivate q s0) :=
  .ite hs0
    (.ite
       (.raiseEvt <| .bump hs0)
       (.ite
          (.segRequest hs0)
          (.ite (.setSeq <| .upToDate hs0) (.ite (.bump <| .upToDate hs0) (.wr <| .setSeq <| .upToDate hs0)))))

protected theorem clearLatches {q} (hs : Queued cmds s) : Queued cmds (clearLatches s q) := .wr <| .setSeq hs

protected theorem openSeq {t q} (hs : Queued cmds s) : Queued cmds (openSeq t s q) := by
  unfold openSeq
  exact .ite (.startEntry <| .soundSeq <| .setSeq hs) (.fetchWord <| .soundSeq <| .setSeq hs)

/-! ## Copies -/

protected theorem setLoadStat {b st} (hs : Queued cmds s) : Queued cmds (setLoadStat b st s) := by
  unfold setLoadStat
  exact .wr hs

protected theorem noteUnit {b} (hs : Queued cmds s) : Queued cmds (noteUnit b s) := by
  unfold noteUnit
  exact .ite hs (.wr hs)

protected theorem loadFail {b} (hs : Queued cmds s) : Queued cmds (loadFail b s) := by
  unfold loadFail
  exact .ite (.raiseFault hs) (.raiseEvt hs)

protected theorem loadDone {b} (hs : Queued cmds s) : Queued cmds (loadDone b s) := .raiseEvt hs

protected theorem setStaging {p x} (hs : Queued cmds s) : Queued cmds (setStaging p x s) := .frame hs

protected theorem unbind {p} (hs : Queued cmds s) : Queued cmds (unbind p s) := .setStaging hs

protected theorem storeGood {q} (hs : Queued cmds s) : Queued cmds (storeGood q s) := by
  unfold storeGood
  exact .ite (.setSeq <| .frame hs) (.frame hs)

protected theorem catchStore {b} (hs : Queued cmds s) : Queued cmds (catchStore b s) := by
  unfold catchStore
  split
  exacts [.outCatch hs, .outCatch hs, .fluxCatch hs, hs]

/-- An accepted image is copied into its store: the image is a canonical table itself. -/
protected theorem copyImage {e} (hs : Queued cmds s) : Queued cmds (copyImage s e) := by
  unfold copyImage
  extract_lets b _ s0 s1 s2
  have hs0 : Queued cmds s0 := .catchStore hs
  have hs1 : Queued cmds s1 :=
    (.frame hs0)
  have hs2 : Queued cmds s2 := .wrAll <| .setLoadStat hs1
  exact .loadDone <| .ite (.unbind hs2) hs2

/-- Some of the accepted images are copied. -/
theorem copyImages {p : Accepted → Bool} (hs : Queued cmds s) : Queued cmds ((s.accepted.filter p).foldl copyImage
    s) :=
  .foldl .copyImage hs

/-! ## Pantry -/

protected theorem setPort {p x} (hs : Queued cmds s) : Queued cmds (setPort s p x) := .frame hs

protected theorem pantryPut {a v} (hs : Queued cmds s) : Queued cmds (pantryPut s a v) := .frame hs

protected theorem pantryLost (hs : Queued cmds s) : Queued cmds (pantryLost s) := .frame hs

protected theorem pantryPutBytes {a bs} (hs : Queued cmds s) : Queued cmds (pantryPutBytes s a bs) :=
  .foldl .pantryPut hs

protected theorem admitPort (hs : Queued cmds s) : Queued cmds (admitPort s) := by
  unfold admitPort
  exact .ite hs (.ite (.setPort hs) (.raiseEvt <| .setPort hs))

protected theorem releasePort (hs : Queued cmds s) : Queued cmds (releasePort s) := by
  unfold releasePort
  exact .ite hs (.ite (.setPort hs) (.setPort <| .frame hs))

protected theorem refillSample {out n i} (hs : Queued cmds s) : Queued cmds (refillSample out n s i) := by
  unfold refillSample
  split
  · exact hs
  · exact (.frame hs)

protected theorem countStarved {out n} (hs : Queued cmds s) : Queued cmds (countStarved out n s) := by
  unfold countStarved
  refine .ite (.setStream hs) ?_
  extract_lets
  split
  · exact .foldl .tagDue (.outEvt <| .outBump <| .setStream hs)
  · exact .outEvt <| .outBump <| .setStream hs

protected theorem refillUnderrun {out n} (hs : Queued cmds s) : Queued cmds (refillUnderrun out n s) :=
  .ite (.countStarved hs) hs

protected theorem refillData {out n k} {s0 : State} (hs0 : Queued cmds s0) : Queued cmds (refillData out n k s0) :=
  .ite hs0 (.setStream <| .frame <| .foldl .refillSample (.countStarved hs0))

protected theorem mapMaskWrite {k v} (hs : Queued cmds s) : Queued cmds (mapMaskWrite k v s) :=
  .ite hs (.ite (.raiseEvt hs) (.wr hs))

protected theorem acceptRequest {port a n write w} (hs : Queued cmds s) : Queued cmds (acceptRequest port a n write
    w s) := by
  unfold acceptRequest
  exact .ite (.pantryPutBytes <| .frame hs) (.frame hs)

protected theorem changePut {a bs} (hs : Queued cmds s) : Queued cmds (changePut a bs s) := by
  unfold changePut
  dsimp only
  split
  exacts [.pantryPutBytes <| .frame hs, .pantryPutBytes <| .frame hs]

protected theorem putBefore {bs} (hs : Queued cmds s) : Queued cmds (putBefore bs s) := by
  unfold putBefore
  exact .ite (.foldl .pantryPut hs) (.foldl .pantryPutBytes (.frame <| .foldl .pantryPut hs))

protected theorem pantryRequest {port a write} (hs : Queued cmds s) : Queued cmds (pantryRequest port a write s) := by
  unfold pantryRequest
  exact .ite (.acceptRequest hs) hs

protected theorem updReq {id} {f : PReq → PReq} (hs : Queued cmds s) : Queued cmds (updReq id f s) := .frame hs

protected theorem escalation {id} (hs : Queued cmds s) : Queued cmds (escalation id s) := by
  unfold escalation
  split
  exacts [hs, .ite hs (.ite (.bump <| .updReq <| .passTo hs) (.bump <| .updReq <| .passTo hs))]

protected theorem breachLast {q} (hs : Queued cmds s) : Queued cmds (breachLast q s) := by
  unfold breachLast
  exact .wrAll hs

protected theorem breach {q} (hs : Queued cmds s) : Queued cmds (breach q s) := by
  unfold breach
  exact .raiseFault <| .updReq <| .breachLast <| .setPort hs

protected theorem deadlineMiss {id} (hs : Queued cmds s) : Queued cmds (deadlineMiss id s) := by
  unfold deadlineMiss
  split
  exacts [hs, .ite hs (.breach <| .passTo hs)]

protected theorem markRow {ch a} (hs : Queued cmds s) : Queued cmds (markRow ch a s) := by
  unfold markRow
  exact .ite hs (.addWear <| .bump <| .frame hs)

protected theorem countCorrected {ch a corr} (hs : Queued cmds s) : Queued cmds (countCorrected ch a corr s) :=
  .ite hs (.ite (.markRow <| .bump <| .frame hs) (.bump <| .frame hs))

protected theorem countRetries {ch retries} (hs : Queued cmds s) : Queued cmds (countRetries ch retries s) := by
  unfold countRetries
  exact .ite (.bump <| .ite hs (.raiseEvt <| .bump hs)) (.ite hs (.raiseEvt <| .bump hs))

protected theorem arrive {q good} (hs : Queued cmds s) : Queued cmds (arrive q good s) := .ite (.frame hs) hs

protected theorem pantryRequestDone {id corr retries uncorr_} (hs : Queued cmds s) : Queued cmds (pantryRequestDone
    id corr retries uncorr_ s) := by
  unfold pantryRequestDone
  extract_lets
  split
  · exact hs
  · extract_lets _ _ _ s1 s2
    have hs1 : Queued cmds s1 :=
      .arrive <| .countRetries <| .countCorrected <| .frame <| .ite (.breach hs) (.ite (.breachLast hs) hs)
    have hs2 : Queued cmds s2 := .markRow <| .raiseFault <| .bump hs1
    refine .ite hs (.ite ?_ ?_)
    · split
      exacts [.frame hs1, hs1]
    · split
      exacts [.frame hs2, .frame hs2, .ite (.frame hs2) hs2]

protected theorem pwinPrefetch (hs : Queued cmds s) : Queued cmds (pwinPrefetch s) := by
  unfold pwinPrefetch
  exact .ite (.acceptRequest <| .frame hs) hs

protected theorem pwinAdvance (hs : Queued cmds s) : Queued cmds (pwinAdvance s) :=
  .ite (.ite (.pwinPrefetch <| .wr <| .wr hs) (.wr <| .wr hs)) hs

protected theorem pwinRefuse (hs : Queued cmds s) : Queued cmds (pwinRefuse s) := .pwinAdvance <| .raiseBit hs

protected theorem pwinWrite {v} (hs : Queued cmds s) : Queued cmds (pwinWrite v s) :=
  .ite (.pwinRefuse hs) (.pwinAdvance <| .acceptRequest hs)

protected theorem pwinReadDone (hs : Queued cmds s) : Queued cmds (pwinReadDone s) :=
  .ite (.pwinRefuse hs) (.pwinAdvance hs)

protected theorem pwinRead (hs : Queued cmds s) : Queued cmds (pwinRead s) := .pwinReadDone <| .frame hs

protected theorem bankRefresh {ch postponed} (hs : Queued cmds s) : Queued cmds (bankRefresh ch postponed s) :=
  .ite hs (.ite (.bump hs) (.ite (.bump <| .wr hs) (.ite hs (.wr hs))))

protected theorem repairRow {ch row} (hs : Queued cmds s) : Queued cmds (repairRow ch s row) := by
  unfold repairRow
  exact .ite hs
      (.ite
         (.ite hs (.addWear <| .raiseFault hs))
         (.ite
            (.frame <| .finishSub <| .raiseEvt <| .wr <| .bump <| .wr <| .frame hs)
            (.finishSub <| .raiseEvt <| .wr <| .bump <| .wr <| .frame hs)))

protected theorem toSlot {ch} (hs : Queued cmds s) : Queued cmds (toSlot ch s).2 := by
  unfold toSlot
  exact .ite_snd (by split; exact .passTo <| .of_pair ‹_› <| .freeDraw <| .passTo hs) (.passTo hs)

protected theorem retrainSlot {ch margin temp full} (hs : Queued cmds s) : Queued cmds (retrainSlot ch margin temp
    full s) := by
  unfold retrainSlot
  extract_lets
  split
  · exact hs
  · split
    · extract_lets _ _ _ _ _ s3 _ _ s4 s4'
      have hs3 : Queued cmds s3 :=
        .foldl .repairRow (.hmSample <| .hmSample <| .frame <| .wr <| .wr <| .of_pair ‹_› <| .toSlot hs)
      have hs4 : Queued cmds s4 := .frame <| .ite hs3 (.wr hs3)
      have hs4' : Queued cmds s4' := .frame <| .raiseEvt <| .bump hs3
      exact .ite (.ite (.addWear <| .raiseFault hs4) hs4) (.ite (.frame hs3) (.ite (.ite hs4' (.wr hs4')) (.frame hs3)))

/-! ## Starts -/

protected theorem startOverrun {m} (hs : Queued cmds s) : Queued cmds (startOverrun m s) := .raiseEvt hs

protected theorem fixOpening {m src named} (hs : Queued cmds s) : Queued cmds (fixOpening m src named s) := by
  unfold fixOpening
  exact .ite (.ite (.raiseEvt <| .setGroup hs) (.setGroup hs)) (.setGroup hs)

protected theorem startAt {m src named} (hs : Queued cmds s) : Queued cmds (startAt m src named s) := by
  unfold startAt
  exact .ite hs (.ite (.startOverrun hs) (.ite (.raiseEvt hs) (.ite (.setGroup hs) (.fixOpening hs))))

protected theorem endBoundary {g} (hs : Queued cmds s) : Queued cmds (endBoundary g s) := by
  unfold endBoundary
  extract_lets
  split
  exacts [.setGroup hs, .ite (.startOverrun <| .setGroup hs) (.fixOpening <| .setGroup hs)]

protected theorem shotGo {m} (hs : Queued cmds s) : Queued cmds (shotGo m s) := .startAt hs

protected theorem selfStart {m} (hs : Queued cmds s) : Queued cmds (selfStart m s) := by
  unfold selfStart
  exact .ite hs (.ite (.startOverrun <| .setGroup hs) (.setGroup hs))

protected theorem triggerStart {id due} (hs : Queued cmds s) : Queued cmds (triggerStart id due s) :=
  .foldl .startAt hs

/-! ## Calibration -/

protected theorem setCal {k x} (hs : Queued cmds s) : Queued cmds (setCal k x s) := .frame hs

protected theorem setStatus {k v} (hs : Queued cmds s) : Queued cmds (setStatus k v s) := .wr hs

protected theorem setMode {m k} (hs : Queued cmds s) : Queued cmds (setMode m k s) := .wr <| .wr hs

protected theorem endRequest {k st} (hs : Queued cmds s) : Queued cmds (endRequest k st s) :=
  .raiseEvt <| .setStatus hs

protected theorem concludeDone {k r0 r1 qual} (hs : Queued cmds s) : Queued cmds (concludeDone k r0 r1 qual s) := by
  unfold concludeDone
  extract_lets _ s2 _ s3 _ s4
  have hs2 : Queued cmds s2 := .wr <| .wrAll <| .wrAll hs
  have hs3 : Queued cmds s3 := .endRequest <| .setCal hs2
  have hs4 : Queued cmds s4 := .ite (.setCal <| .wr hs3) hs3
  exact .ite (.endRequest hs2) (.ite (.frame hs4) hs4)

protected theorem convTestFailed {k} (hs : Queued cmds s) : Queued cmds (convTestFailed k s) :=
  .ite hs (by extract_lets; split; exacts [.dacFaultAt hs, .dacFaultAt hs, .dacFaultAt hs, .adcFaultAt hs])

protected theorem attemptFailed {k st} (hs : Queued cmds s) : Queued cmds (attemptFailed k st s) := by
  unfold attemptFailed
  exact .ite (.endRequest <| .wr <| .setCal hs) (.ite (.endRequest <| .wr <| .setCal hs) (.wr <| .setCal hs))

protected theorem attemptDone {k r0 r1 qual} (hs : Queued cmds s) : Queued cmds (attemptDone k r0 r1 qual s) := by
  unfold attemptDone
  extract_lets s0 _ s2 _ _ s1' _ s2'
  have hs0 : Queued cmds s0 := .hmSample <| .bump hs
  have hs2 : Queued cmds s2 := .attemptFailed <| .ite (.wr <| .wrAll <| .wrAll hs0) hs0
  have hs1' : Queued cmds s1' := .frame hs0
  have hs2' : Queued cmds s2' := .wr <| .setCal hs1'
  exact .ite
      (.ite (.convTestFailed hs2) hs2)
      (.ite
         (.concludeDone <| .setCal hs0)
         (.ite (.attemptFailed hs1') (.ite (.concludeDone hs2') (.ite (.endRequest hs2') hs2'))))

protected theorem adcCalSlice {n k} (hs : Queued cmds s) : Queued cmds (adcCalSlice n s k) := by
  unfold adcCalSlice
  exact .frame <| .wr <| .wr <| .wr hs

protected theorem applyResult {k} (hs : Queued cmds s) : Queued cmds (applyResult s k) :=
  .ite hs
    (by
       extract_lets
       split
       · exact .wrAll <| .setCal hs
       · exact .wr <| .setCal hs
       · exact .frame <| .setCal hs
       · exact .foldl .adcCalSlice (.setCal hs)
       · exact .setCal hs)

protected theorem applyResults (hs : Queued cmds s) : Queued cmds (applyResults s) := .foldl .applyResult hs

protected theorem startSegment {mode k} (hs : Queued cmds s) : Queued cmds (startSegment mode k s) := by
  unfold startSegment
  exact .setStatus <| .setMode <| .frame hs

protected theorem stopSegments (hs : Queued cmds s) : Queued cmds (stopSegments s) := by
  unfold stopSegments
  exact .setMode <| .frame hs

protected theorem copyReady (hs : Queued cmds s) : Queued cmds (copyReady s) := hs.copyImages

protected theorem segmentEnds (hs : Queued cmds s) : Queued cmds (segmentEnds s) := .copyReady <| .stopSegments hs

protected theorem startPass {k} (hs : Queued cmds s) : Queued cmds (startPass k s) := by
  unfold startPass
  exact .setStatus <| .setCal hs

protected theorem notePass {ch} (hs : Queued cmds s) : Queued cmds (notePass ch s) :=
  .foldl (fun h => .ite (.setCal h) h) hs

protected theorem trainSlot {ch margin temp full} (hs : Queued cmds s) : Queued cmds (trainSlot ch margin temp full
    s) :=
  .notePass <| .retrainSlot hs

protected theorem calKick (hs : Queued cmds s) : Queued cmds (calKick s) := by
  unfold calKick
  extract_lets _ s1
  have hs1 : Queued cmds s1 := .foldl (fun h => .ite (.ite (.startPass h) (.ite (.setStatus h) h)) h) hs
  exact .ite hs (.ite hs1 (by split; exacts [.startSegment hs1, hs1]))

protected theorem windowNext (hs : Queued cmds s) : Queued cmds (windowNext s) := by
  unfold windowNext
  split
  · exact hs
  · dsimp only
    have hend : Queued cmds { segmentEnds s with calWin := none } := .frame <| .segmentEnds hs
    split
    · exact .ite (.startSegment hs) (.endBoundary <| .applyResults hend)
    · exact .endBoundary <| .applyResults hend

protected theorem openWindow {g} (hs : Queued cmds s) : Queued cmds (openWindow g s) :=
  .windowNext <| .bump <| .frame hs

protected theorem afterSegment {mode k} (hs : Queued cmds s) : Queued cmds (afterSegment mode k s) := by
  unfold afterSegment
  extract_lets s1 s2
  have hs1 : Queued cmds s1 := .ite (.setStatus hs) hs
  have hs2 : Queued cmds s2 := .calKick <| .segmentEnds hs1
  exact .ite (.windowNext <| .segmentEnds hs1) (.ite hs2 (.applyResults hs2))

protected theorem calSegmentDone {m0 m1 mq} (hs : Queued cmds s) : Queued cmds (calSegmentDone m0 m1 mq s) := by
  unfold calSegmentDone
  refine .ite hs ?_
  extract_lets _ _ _ s1 s2
  split
  extract_lets s3 s4
  have hs1 : Queued cmds s1 := .bump <| .setCal hs
  have hs2 : Queued cmds s2 := by unfold s2; split; exacts [.frame hs1, hs1]
  have hs3 : Queued cmds s3 := .ite (.attemptDone hs2) hs2
  exact .afterSegment <| .setCal <| .ite (.ite (.wr hs3) (.ite (.endRequest hs3) hs3)) hs3

protected theorem backgroundPassDone {k m0 m1 mq} (hs : Queued cmds s) : Queued cmds (backgroundPassDone k m0 m1 mq
    s) :=
  .ite hs (by extract_lets; split; exact .calKick <| .setCal <| .ite (.wr <| .attemptDone hs) (.attemptDone hs))

protected theorem attemptTimeout {k} (hs : Queued cmds s) : Queued cmds (attemptTimeout k s) := by
  unfold attemptTimeout
  extract_lets _ _ s0 _ _ s1
  have hs0 : Queued cmds s0 := .attemptFailed <| .bump hs
  have hs1 : Queued cmds s1 := .setCal <| .ite (.endRequest hs0) hs0
  exact .ite hs (.ite (.calKick hs1) (.ite (.afterSegment hs1) hs1))

protected theorem place_ {k again} (hs : Queued cmds s) : Queued cmds (place_ k again s) := by
  unfold place_
  exact .ite (.calKick <| .setStatus hs) (.bump <| .raiseEvt <| .endRequest <| .calKick <| .setStatus hs)

protected theorem freshRequest {k} (hs : Queued cmds s) : Queued cmds (freshRequest k s) := by
  unfold freshRequest
  exact .wrAll <| .setCal <| .frame hs

protected theorem submit {k} (hs : Queued cmds s) : Queued cmds (submit k s) :=
  .ite hs
    (.ite
       (.setStatus <| .freshRequest hs)
       (.ite (.setStatus <| .freshRequest hs) (.ite (.setStatus <| .freshRequest hs) (.place_ <| .freshRequest hs))))

protected theorem leaveSlot {k} {before : State} (hs : Queued cmds s) : Queued cmds (leaveSlot k before s) :=
  .ite (.afterSegment hs) (.calKick hs)

protected theorem clearSlot {k} (hs : Queued cmds s) : Queued cmds (clearSlot k s) :=
  .leaveSlot <| .wrAll <| .setCal hs

protected theorem cancelSlot {k} (hs : Queued cmds s) : Queued cmds (cancelSlot k s) :=
  .ite (.calKick <| .endRequest hs) (.ite (.setCal hs) hs)

protected theorem dropRequest {st k} (hs : Queued cmds s) : Queued cmds (dropRequest st k s) :=
  .ite (.leaveSlot <| .endRequest hs) hs

protected theorem calShed (hs : Queued cmds s) : Queued cmds (calShed s) := .foldl .dropRequest hs

protected theorem calResetSeq {q} (hs : Queued cmds s) : Queued cmds (calResetSeq q s) :=
  .foldl (fun h => .ite (.dropRequest h) h) hs

protected theorem calResetUnit {ty n} (hs : Queued cmds s) : Queued cmds (calResetUnit ty n s) :=
  .foldl (fun h => .ite (.dropRequest h) h) hs

protected theorem driftCheck {k} (hs : Queued cmds s) : Queued cmds (driftCheck s k) := by
  unfold driftCheck
  exact .ite (.place_ <| .raiseEvt <| .freshRequest hs) hs

protected theorem driftChecks (hs : Queued cmds s) : Queued cmds (driftChecks s) := .ite (.foldl .driftCheck hs) hs

protected theorem referenceCheck {resid} (hs : Queued cmds s) : Queued cmds (referenceCheck resid s) :=
  .ite hs (.raiseFaultIf hs)

protected theorem traceRead (hs : Queued cmds s) : Queued cmds (traceRead s) := .wr <| .frame hs

/-! ## Monitor -/

protected theorem setMon {x} (hs : Queued cmds s) : Queued cmds (setMon x s) := .frame hs

protected theorem monCompare {tag lim code} (hs : Queued cmds s) : Queued cmds (monCompare tag lim code s).2 :=
  .ite_snd hs
    (.ite_snd (.fireLine <| .ite (.raiseEvt <| .setMon hs) (.wrAll <| .raiseEvt <| .setMon hs)) (.setMon hs))

protected theorem monStepList (hs : Queued cmds s) : Queued cmds (monStepList s) := by
  unfold monStepList
  exact .setMon hs

protected theorem refCheck {ch code} (hs : Queued cmds s) : Queued cmds (refCheck ch code s) :=
  .ite hs (.raiseFaultIf <| .setMon hs)

protected theorem conversion {raw} (hs : Queued cmds s) : Queued cmds (conversion raw s) := by
  unfold conversion
  extract_lets
  split
  · exact hs
  · split
    · exact .monStepList <| .ite hs (.raiseEvt <| .setMon hs)
    · split
      · exact .hmSample <|
            .refCheck <|
              .monStepList <| .wrAll <| .ite (.wr <| .of_pair ‹_› <| .monCompare hs) (.of_pair ‹_› <| .monCompare hs)

protected theorem fluxReadback {o code} {s0 : State} (hs0 : Queued cmds s0) : Queued cmds (fluxReadback o code s0)
    := by
  unfold fluxReadback
  exact .ite (.setMon <| .fluxCatch hs0) (.ite (.dacFaultAt <| .setMon <| .fluxCatch hs0) (.setMon <| .fluxCatch hs0))

protected theorem housekeeping {raw} (hs : Queued cmds s) : Queued cmds (housekeeping raw s) := by
  unfold housekeeping
  extract_lets _ _ _ _ _ _ s2 _ _ _ _ s2'
  have hs2 : Queued cmds s2 := .setMon <| .wrAll hs
  have hs2' : Queued cmds s2' := .setMon <| .wrAll hs
  split
  · exact hs
  · split
    · exact .ite (.setMon <| .hmSample <| .refCheck hs2) (.wr <| .setMon <| .hmSample <| .refCheck hs2)
    · exact .ite (.setMon <| .hmSample <| .fluxReadback hs2') (.wr <| .setMon <| .hmSample <| .fluxReadback hs2')

protected theorem urgActivate {k due} (hs : Queued cmds s) : Queued cmds (urgActivate k due s) :=
  .ite (.raiseEvt <| .bump hs) (.ite (.raiseEvt hs) (.setMon hs))

protected theorem urgentConversion {k raw} (hs : Queued cmds s) : Queued cmds (urgentConversion k raw s) := by
  unfold urgentConversion
  split
  · exact hs
  · refine .ite hs (.ite (.raiseEvt <| .setMon <| .passTo hs) ?_)
    extract_lets
    split
    · exact .hmSample <| .refCheck <| .wrAll <| .wrAll <| .of_pair ‹_› <| .monCompare <| .passTo <| .setMon <|
        .passTo hs

protected theorem setScal {v} (hs : Queued cmds s) : Queued cmds (setScal v s) := .wr hs

protected theorem scalFail {v} (hs : Queued cmds s) : Queued cmds (scalFail v s) := .raiseEvt <| .setScal hs

protected theorem scalZero (hs : Queued cmds s) : Queued cmds (scalZero s) :=
  .ite (.scalFail hs) (.setScal <| .setMon hs)

protected theorem scalFull (hs : Queued cmds s) : Queued cmds (scalFull s) :=
  .ite (.scalFail hs) (.ite (.scalFail hs) (.setScal <| .setMon hs))

protected theorem scalDone {mean} (hs : Queued cmds s) : Queued cmds (scalDone mean s) := by
  unfold scalDone
  split
  · exact hs
  · exact .setScal <| .wr <| .setMon hs
  · exact .ite (.scalFail <| .setMon hs) (.raiseEvt <| .setScal <| .wrAll <| .wrAll <| .setMon hs)

/-! ## Lanes -/

protected theorem setRole {n r} (hs : Queued cmds s) : Queued cmds (setRole n r s) := .wr hs

protected theorem setLaneBit {n i v} (hs : Queued cmds s) : Queued cmds (setLaneBit n i v s) := .wr hs

protected theorem whenReceiving {f : State → State} (hf : ∀ {t}, Queued cmds t → Queued cmds (f t)) (hs : Queued
    cmds s) : Queued cmds (whenReceiving f s) :=
  .ite (hf hs) hs

protected theorem whenPowered {n} {f : State → State} (hf : ∀ {t}, Queued cmds t → Queued cmds (f t)) (hs : Queued
    cmds s) : Queued cmds (whenPowered n f s) :=
  .ite (hf hs) hs

protected theorem bypassUpdate (hs : Queued cmds s) : Queued cmds (bypassUpdate s) := by
  unfold bypassUpdate
  exact .ite (.foldl .setRPort (.wr hs)) (.ite (.foldl .setRPort (.wr hs)) hs)

protected theorem ringRefresh {r} (hs : Queued cmds s) : Queued cmds (ringRefresh r s) := by
  unfold ringRefresh
  extract_lets _ _ _ s0 _ _ t
  have hs0 : Queued cmds s0 := .wr hs
  have ht : Queued cmds t := .wr <| .setRPort hs0
  exact .bypassUpdate <|
      .ite
        (.wr <| .setRPort hs0)
        (.ite
           (.ite (.raiseEvt ht) ht)
           (.ite (.raiseFault <| .wr <| .setRPort hs0) (.ite (.wr <| .setRPort hs0) (.wr <| .setRPort hs0))))

protected theorem graceExpiry {r} (hs : Queued cmds s) : Queued cmds (graceExpiry r s) := by
  unfold graceExpiry
  exact .ite hs (.bypassUpdate <| .raiseFaultIf <| .raiseFault <| .wr <| .setRPort hs)

protected theorem setFecFrom {h t} (hs : Queued cmds s) : Queued cmds (setFecFrom h t s) := .frame hs

protected theorem fecBegin {h} (hs : Queued cmds s) : Queued cmds (fecBegin h s) := .ite (.setFecFrom hs) hs

protected theorem fecWrite {h v} (hs : Queued cmds s) : Queued cmds (fecWrite h v s) :=
  .setFecFrom <| .wrAll <| .wrPair hs

protected theorem hostRefresh {h} (hs : Queued cmds s) : Queued cmds (hostRefresh h s) := by
  unfold hostRefresh
  exact .ite (.raiseEvt <| .fecBegin <| .wr <| .wr hs) (.ite (.raiseEvt <| .wr <| .wr hs) (.wr <| .wr hs))

protected theorem portRefresh {p} (hs : Queued cmds s) : Queued cmds (portRefresh p s) :=
  .ite (.ringRefresh hs) (.ite (.hostRefresh hs) hs)

protected theorem los {n} (hs : Queued cmds s) : Queued cmds (los n s) :=
  .whenPowered (fun h => .portRefresh <| .raiseEvt <| .foldl .setLaneBit h) hs

protected theorem signalReturn {n} (hs : Queued cmds s) : Queued cmds (signalReturn n s) :=
  .whenPowered .setLaneBit hs

protected theorem rxReady {n snr} (hs : Queued cmds s) : Queued cmds (rxReady n snr s) :=
  .ite hs (.setLaneBit <| .setLaneBit <| .wr hs)

protected theorem readyRefresh {n} (hs : Queued cmds s) : Queued cmds (readyRefresh n s) := .setLaneBit hs

protected theorem restart {n} (hs : Queued cmds s) : Queued cmds (restart n s) :=
  .portRefresh <| .foldl .setLaneBit hs

protected theorem slipOne {n} (hs : Queued cmds s) : Queued cmds (slipOne n s) :=
  .portRefresh <| .setLaneBit <| .wr hs

protected theorem slip {n} (hs : Queued cmds s) : Queued cmds (slip n s) := .ite (.raiseEvt hs) (.slipOne hs)

protected theorem autoAlignSlip {n} (hs : Queued cmds s) : Queued cmds (autoAlignSlip n s) := .ite (.slipOne hs) hs

protected theorem lockAcquire {n} (hs : Queued cmds s) : Queued cmds (lockAcquire n s) :=
  .ite hs (.portRefresh <| .setLaneBit hs)

protected theorem lockLoss {n} (hs : Queued cmds s) : Queued cmds (lockLoss n s) := .portRefresh <| .setLaneBit hs

protected theorem countSecond {n low} (hs : Queued cmds s) : Queued cmds (countSecond n low s) := by
  unfold countSecond
  exact .ite (.addWear <| .frame hs) (.frame hs)

protected theorem laneSnrUpdate {n snr eye} (hs : Queued cmds s) : Queued cmds (laneSnrUpdate n snr eye s) :=
  .ite hs (.hmSample <| .countSecond <| .raiseEvtIf <| .setLaneBit <| .setReg <| .wr hs)

protected theorem prbsNow {n} (hs : Queued cmds s) : Queued cmds (prbsNow n s) := .frame hs

protected theorem prbsClr {n} (hs : Queued cmds s) : Queued cmds (prbsClr n s) := .prbsNow <| .foldl .wrAll (.wr hs)

protected theorem prbsLock {n} (hs : Queued cmds s) : Queued cmds (prbsLock n s) :=
  .ite (.prbsNow <| .setLaneBit hs) hs

protected theorem addBits {n bits} (hs : Queued cmds s) : Queued cmds (addBits n bits s) := by
  unfold addBits
  exact .ite (.wrPair hs) (.wrPair <| .frame hs)

protected theorem prbsErrWrite {n v} (hs : Queued cmds s) : Queued cmds (prbsErrWrite n v s) :=
  .prbsNow <| .wrAll <| .addBits hs

protected theorem prbsSettle {n bits errs} (hs : Queued cmds s) : Queued cmds (prbsSettle n bits errs s) := by
  unfold prbsSettle
  exact .prbsNow <| .bump <| .addBits hs

protected theorem prbsStop {n} (hs : Queued cmds s) : Queued cmds (prbsStop n s) :=
  .ite (.setLaneBit <| .prbsSettle hs) hs

protected theorem prbsFollow {n} (hs : Queued cmds s) : Queued cmds (prbsFollow s n) := .ite hs (.prbsStop hs)

protected theorem portPrbs {p} (hs : Queued cmds s) : Queued cmds (portPrbs p s) := .foldl .prbsFollow hs

protected theorem laneChange {n} {f : State → State} (hf : ∀ {t}, Queued cmds t → Queued cmds (f t)) (hs : Queued
    cmds s) : Queued cmds (laneChange n f s) := by
  unfold laneChange
  exact .ite (.prbsFollow <| hf <| .ite (.prbsSettle hs) hs) (.prbsStop <| hf <| .ite (.prbsSettle hs) hs)

protected theorem prbsUnlock {n bits errs} (hs : Queued cmds s) : Queued cmds (prbsUnlock n bits errs s) :=
  .ite hs (.raiseEvt <| .bump <| .setLaneBit <| .prbsSettle hs)

protected theorem setSwap {p x} (hs : Queued cmds s) : Queued cmds (setSwap p x s) := .frame hs

protected theorem endSwap {p} (hs : Queued cmds s) : Queued cmds (endSwap p s) := .frame hs

protected theorem sendLmsg {p code lane cause} (hs : Queued cmds s) : Queued cmds (sendLmsg p code lane cause s) := by
  unfold sendLmsg
  exact .ite (.frame hs) (.daxkaSend <| .frame hs)

protected theorem bridge {p k mine} (hs : Queued cmds s) : Queued cmds (bridge p k mine s) := by
  unfold bridge
  split
  exacts [hs, .portPrbs <| .setRole <| .setSwap hs]

protected theorem unbridge {p} (hs : Queued cmds s) : Queued cmds (unbridge p s) := by
  unfold unbridge
  exact .endSwap (by split; exacts [.portPrbs <| .setRole hs, hs])

protected theorem abortSwap {p k} (hs : Queued cmds s) : Queued cmds (abortSwap p k s) := by
  unfold abortSwap
  extract_lets
  split
  · exact .unbridge hs
  · exact .raiseEvt <| .bump <| .ite (.setSpareState <| .frame <| .unbridge hs) (.frame <| .unbridge hs)

protected theorem selfAlign {m} (hs : Queued cmds s) : Queued cmds (selfAlign m s) := by
  unfold selfAlign
  split
  exact .setLaneBit <| .wr <| .of_pair ‹_› <| .freeDraw hs

protected theorem takeOver {p k n m nRole} (hs : Queued cmds s) : Queued cmds (takeOver p k n m nRole s) := by
  unfold takeOver
  exact .portPrbs <|
      .portRefresh <|
        .ite
          (.wr <| .wr <| .setSpareState <| .bump <| .setRole <| .setRole <| .endSwap hs)
          (.finishSub <| .wr <| .wr <| .bump <| .setRole <| .setRole <| .endSwap hs)

protected theorem finishSwap {p} (hs : Queued cmds s) : Queued cmds (finishSwap p s) := by
  unfold finishSwap
  split
  exacts [hs, .ite hs (by split; exacts [.raiseEvt <| .takeOver hs, .endSwap hs])]

protected theorem swapStart {n} (hs : Queued cmds s) : Queued cmds (swapStart n s) := by
  unfold swapStart
  exact .ite hs
      (.ite
         (.ite (.abortSwap hs) (.ite (.sendLmsg <| .bridge hs) (.raiseFault <| .setSpareState hs)))
         (.ite (.ite (.sendLmsg <| .bridge hs) (.abortSwap hs)) hs))

protected theorem swapReq {p k} (hs : Queued cmds s) : Queued cmds (swapReq p k s) := by
  unfold swapReq
  split
  exacts [.ite hs (.ite (.sendLmsg hs) (.bridge <| .abortSwap hs)), .ite (.bridge hs) (.sendLmsg hs)]

protected theorem swapReady {p} (hs : Queued cmds s) : Queued cmds (swapReady p s) := by
  unfold swapReady
  split
  exacts [hs, .finishSwap <| .setSwap hs]

protected theorem swapSwitch {p} (hs : Queued cmds s) : Queued cmds (swapSwitch p s) := by
  unfold swapSwitch
  split
  exacts [hs, by split; exacts [hs, .ite hs (.finishSwap <| .sendLmsg <| .setSwap <| .selfAlign hs)]]

protected theorem swapAbort {p} (hs : Queued cmds s) : Queued cmds (swapAbort p s) := by
  unfold swapAbort
  split
  exacts [hs, .ite (.abortSwap hs) (.unbridge hs)]

protected theorem swapTimeout {p skew} (hs : Queued cmds s) : Queued cmds (swapTimeout p skew s) := by
  unfold swapTimeout
  split
  exacts [hs, .ite hs (.ite (.sendLmsg <| .abortSwap hs) (.unbridge hs))]

protected theorem abrupt {p k mine} (hs : Queued cmds s) : Queued cmds (abrupt p k mine s) := by
  unfold abrupt
  split
  exacts [.portPrbs <| .setRole <| .setRole <| .setSwap hs, hs]

protected theorem laneFail {n} (hs : Queued cmds s) : Queued cmds (laneFail n s) := by
  unfold laneFail
  extract_lets _ _ s1 s1' s2
  have hs1 : Queued cmds s1 := .raiseFault hs
  have hs1' : Queued cmds s1' := by unfold s1'; split; exacts [.ite hs1 (.unbridge hs1), hs1]
  have hs2 : Queued cmds s2 := .ite (.noteWear hs1') hs1'
  exact .ite hs (.ite (.setSpareState hs2) (.ite hs2 (.sendLmsg <| .abrupt hs2)))

protected theorem swapReqAbrupt {p k} (hs : Queued cmds s) : Queued cmds (swapReqAbrupt p k s) := by
  unfold swapReqAbrupt
  split
  exacts [.ite hs (.abrupt <| .unbridge hs), .abrupt hs]

protected theorem abruptSwitch {p} (hs : Queued cmds s) : Queued cmds (abruptSwitch p s) := by
  unfold abruptSwitch
  split
  exacts [.ite (.takeOver <| .selfAlign hs) hs, hs]

protected theorem hostEnterMode {h mode} (hs : Queued cmds s) : Queued cmds (hostEnterMode h mode s) := by
  unfold hostEnterMode
  exact .hostRefresh <|
      .foldl (fun h => .ite h (.prbsStop <| .setLaneBit h)) (.foldl (fun h => .foldl .setLaneBit h) (.wr hs))

protected theorem hostModeWrite {h mode} (hs : Queued cmds s) : Queued cmds (hostModeWrite h mode s) := by
  unfold hostModeWrite
  exact .hostEnterMode <| .wr hs

protected theorem linkFail {h} (hs : Queued cmds s) : Queued cmds (linkFail h s) := .ite (.raiseFault hs) hs

protected theorem releaseWrite {on} (hs : Queued cmds s) : Queued cmds (releaseWrite on s) := .bypassUpdate <| .wr hs

protected theorem standAsideWrite {on} (hs : Queued cmds s) : Queued cmds (standAsideWrite on s) :=
  .bypassUpdate <| .wr hs

/-! ## Mortar -/

protected theorem setMort {x} (hs : Queued cmds s) : Queued cmds (setMort x s) := .frame hs

protected theorem setMortState {v} (hs : Queued cmds s) : Queued cmds (setMortState v s) := .wr hs

protected theorem clearObs {o} (hs : Queued cmds s) : Queued cmds (clearObs s o) := .wr hs

protected theorem mortarOpen {g} (hs : Queued cmds s) : Queued cmds (mortarOpen g s) := by
  unfold mortarOpen
  extract_lets _ _ s3
  have hs3 : Queued cmds s3 := .ladleCatch <| .wr <| .wr <| .setMortState <| .setMort hs
  exact .ite hs
      (.ite
         (.tagShot <| .raiseEvt <| .setMortState hs)
         (.ite hs3 (.evalNext <| .foldl .setObsPend (.foldl .clearObs hs3))))

protected theorem closeStream {g} (hs : Queued cmds s) : Queued cmds (closeStream g s) :=
  .ite hs
    (.ite
       (.setMort hs)
       (.fireLine <|
          .tagShot <|
            .raiseEvt <|
              .evalNext <|
                .foldl .setObsPend
                  (.ladleCatch <| .ite (.setMortState <| .frame <| .setMort hs) (.frame <| .setMort hs))))

protected theorem stray (hs : Queued cmds s) : Queued cmds (stray s) := .raiseEvt <| .bump hs

protected theorem detectionInputDue {slot} (hs : Queued cmds s) : Queued cmds (detectionInputDue slot s) := by
  unfold detectionInputDue
  exact .deliver
      (fun h => .ite h (by extract_lets; split; exacts [.ite (.setMort h) (.stray h), .stray h]))
      (fun h => .tagItem <| .raiseEvt h)
      id
      hs

protected theorem missBlocks {s0 : State} {e} (hs0 : Queued cmds s0) : Queued cmds (missBlocks s0 e) := by
  unfold missBlocks
  split
  exact .ite hs0 (.foldl (fun h => .ite h (.tagShot <| .raiseEvt <| .bump <| .setMort h)) hs0)

protected theorem seamCatchTo {past : Nat} :
    ∀ {n : Nat} {s : State}, Queued cmds s → Queued cmds (seamCatchTo past n s)
  | 0, _, hs => hs
  | _ + 1, _, hs => .ite hs (Queued.seamCatchTo <| .foldl .missBlocks (.setMort hs))

protected theorem seamCatch (hs : Queued cmds s) : Queued cmds (seamCatch s) := .seamCatchTo hs

protected theorem mortarClose {g} (hs : Queued cmds s) : Queued cmds (mortarClose g s) :=
  .closeStream <| .seamCatch hs

protected theorem formEvent {r e} (hs : Queued cmds s) : Queued cmds (formEvent r s e) := by
  unfold formEvent
  split
  extract_lets got _ s1
  have hs1 : Queued cmds s1 := .ite hs (.raiseEvt <| .bump hs)
  clear_value s1 got
  split
  · exact .tagShot <| .raiseEvt <| .bump hs1
  · exact .ite (.tagShot <| .raiseEvt <| .bump <| .bump hs1) (.setMort hs1)

protected theorem forwardRound {r l} (hs : Queued cmds s) : Queued cmds (forwardRound r s l) :=
  .ite hs (.foldl .queueRt hs)

protected theorem roundClose (hs : Queued cmds s) : Queued cmds (roundClose s) := by
  unfold roundClose
  exact .ite hs (.wr <| .setMort <| .foldl .forwardRound (.foldl .formEvent (.seamCatch <| .passTo hs)))

protected theorem decodeWindowComplete (hs : Queued cmds s) : Queued cmds (decodeWindowComplete s) := by
  unfold decodeWindowComplete
  exact .ite hs (.setMort <| .seamCatchTo <| .passTo hs)

protected theorem sendCorrections {x es l} (hs : Queued cmds s) : Queued cmds (sendCorrections x es s l) :=
  .ite hs (.foldl .queueRt hs)

protected theorem windowOutputIssue {_counted slack late} (hs : Queued cmds s) : Queued cmds (windowOutputIssue
    _counted slack late s) := by
  unfold windowOutputIssue
  extract_lets
  split
  · exact hs
  · split
    · split
      · extract_lets _ _ s1 _ _ _ _ _ _ _ _ s6 _ s8
        have hs1 : Queued cmds s1 := .setMort <| .passTo hs
        have hs6 : Queued cmds s6 :=
          .foldl .bump (.bump <| .wr <| .wr <| .foldl .sendCorrections (.ite hs1 (.sendItem hs1)))
        have hs8 : Queued cmds s8 :=
          .hmSample <| .fireLine <| .ite (.fireLine <| .tagShot <| .raiseEvt <| .bump hs6) hs6
        exact .ite (.setMortState hs8) hs8

protected theorem seamEvents {l src round block stamp bits} {s0 : State} (hs0 : Queued cmds s0) : Queued cmds
    (seamEvents l src round block stamp bits s0) := by
  unfold seamEvents
  extract_lets s
  have hs : Queued cmds s := .seamCatch hs0
  exact .ite
      (.ite (.tagDue <| .raiseEvt hs) hs)
      (.ite (.stray hs) (.ite (.tagDue <| .raiseEvt hs) (.ite hs (.setMort hs))))

protected theorem seamCorrections {stamp es} (hs : Queued cmds s) : Queued cmds (seamCorrections stamp es s) := by
  unfold seamCorrections
  exact .sendItem hs

protected theorem lossAtMortar {l} (hs : Queued cmds s) : Queued cmds (lossAtMortar l s) :=
  .ite (.tagShot <| .raiseEvt hs) hs

protected theorem tileFault {t} (hs : Queued cmds s) : Queued cmds (tileFault t s) := by
  unfold tileFault
  exact .ite (.candidate_ <| .addWear <| .bump <| .raiseFault hs) (.addWear <| .bump <| .raiseFault hs)

protected theorem testDecode {t ok} (hs : Queued cmds s) : Queued cmds (testDecode t ok s) := .ite hs (.tileFault hs)

protected theorem tileParity {t} (hs : Queued cmds s) : Queued cmds (tileParity t s) := by
  unfold tileParity
  exact .ite (.setMort <| .tileFault hs) (.tileFault hs)

protected theorem graphParity (hs : Queued cmds s) : Queued cmds (graphParity s) := by
  unfold graphParity
  exact .ite
      (.setMortState <| .raiseFault <| .frame hs)
      (.tagShot <| .sendItem <| .setMort <| .setMortState <| .raiseFault <| .frame hs)

/-! ## Time -/

protected theorem freeRound {x} (hs : Queued cmds s) : Queued cmds (freeRound x s).2 :=
  .ite_snd hs (by split; exact .of_pair ‹_› <| .freeDraw hs)

protected theorem freeField {x} (hs : Queued cmds s) : Queued cmds (freeField x s).2 := by
  unfold freeField
  split
  · refine .ite_snd (.of_pair ‹_› <| .freeRound hs) ?_
    split
    exact .of_pair ‹_› <| .freeDraw <| .of_pair ‹_› <| .freeRound hs

protected theorem setSlave {k x} (hs : Queued cmds s) : Queued cmds (setSlave k x s) := .frame hs

protected theorem stepMt {d} {s0 : State} (hs0 : Queued cmds s0) : Queued cmds (stepMt d s0) := by
  unfold stepMt
  exact .raiseEvt <| .foldl .setSlave (.frame <| .noteRate hs0)

protected theorem servoUpdate {th} (hs : Queued cmds s) : Queued cmds (servoUpdate th s) := by
  unfold servoUpdate
  split
  · extract_lets s1
    have hs1 : Queued cmds s1 := .wrAll <| .of_pair ‹_› <| .freeField <| .noteRate hs
    split
    · split
      exact .stepMt <| .of_pair ‹_› <| .freeRound hs1
    · split
      · extract_lets
        split
        · exact .raiseEvtIf <| .wrAll <| .frame <| .of_pair ‹_› <| .freeRound <| .of_pair ‹_› <| .freeRound hs1

protected theorem servoOfs {v} (hs : Queued cmds s) : Queued cmds (servoOfs v s) := .ite (.servoUpdate hs) hs

protected theorem servoRst (hs : Queued cmds s) : Queued cmds (servoRst s) := by
  unfold servoRst
  exact .wrAll <| .frame <| .noteRate hs

protected theorem mtStep (hs : Queued cmds s) : Queued cmds (mtStep s) := .stepMt hs

protected theorem formTheta {k} (hs : Queued cmds s) : Queued cmds (formTheta k s) := by
  unfold formTheta
  extract_lets _ _ s1 s2
  have hs1 : Queued cmds s1 := .setSlave hs
  have hs2 : Queued cmds s2 := .ite (.bump <| .bump hs1) hs1
  split
  exacts [.ite hs2 (by split; exact .servoUpdate <| .wrAll <| .of_pair ‹_› <| .freeField hs2), hs]

protected theorem nextSeq {k} (hs : Queued cmds s) : Queued cmds (nextSeq k s).2 := by
  unfold nextSeq
  exact .frame hs

protected theorem rxqPush {h bytes} (hs : Queued cmds s) : Queued cmds (rxqPush h bytes s) := by
  unfold rxqPush
  exact .ite (.raiseFault <| .raiseBit hs) (.raiseEvt <| .frame hs)

protected theorem ptpBytes {kind m flags} (hs : Queued cmds s) : Queued cmds (ptpBytes kind m flags s).2 := by
  unfold ptpBytes
  split
  exact .of_pair ‹_› <| .freeDraw hs

protected theorem listenQueue {h kind flags m} (hs : Queued cmds s) : Queued cmds (listenQueue h kind flags m s) :=
  .ite hs (by split; exact .rxqPush <| .of_pair ‹_› <| .ptpBytes hs)

protected theorem ptpSync {h m twoStep} (hs : Queued cmds s) : Queued cmds (ptpSync h m twoStep s) :=
  .ite (.formTheta <| .setSlave hs) (.listenQueue hs)

protected theorem followUp {h m} (hs : Queued cmds s) : Queued cmds (followUp h m s) := by
  unfold followUp
  exact .ite (.ite (.formTheta <| .setSlave hs) hs) (.listenQueue hs)

protected theorem sendPtp {h kind seq time corr peer bytes} (hs : Queued cmds s) : Queued cmds (sendPtp h kind seq
    time corr peer bytes s) :=
  .emit hs

protected theorem delayReq {h m} (hs : Queued cmds s) : Queued cmds (delayReq h m s) :=
  .ite (.sendPtp hs) (.listenQueue hs)

protected theorem delayResp {h m} (hs : Queued cmds s) : Queued cmds (delayResp h m s) := by
  unfold delayResp
  exact .ite (by split; exacts [.ite (.formTheta <| .setSlave hs) hs, hs]) (.listenQueue hs)

protected theorem pdelayReq {h m} (hs : Queued cmds s) : Queued cmds (pdelayReq h m s) := by
  unfold pdelayReq
  exact .ite (.ite (.sendPtp <| .sendPtp hs) (.sendPtp hs)) (.listenQueue hs)

protected theorem pdelayResp {h m} (hs : Queued cmds s) : Queued cmds (pdelayResp h m s) := .listenQueue hs

protected theorem pdelayRespFollowUp {h m} (hs : Queued cmds s) : Queued cmds (pdelayRespFollowUp h m s) :=
  .listenQueue hs

protected theorem ptpQueue {h bytes} (hs : Queued cmds s) : Queued cmds (ptpQueue h bytes s) := .ite hs (.rxqPush hs)

protected theorem rxqPop {h} (hs : Queued cmds s) : Queued cmds (rxqPop h s) := .frame hs

protected theorem syncInterval {h} (hs : Queued cmds s) : Queued cmds (syncInterval h s) :=
  .ite hs
    (by
       split
       · exact .ite (.sendPtp <| .sendPtp <| .of_pair ‹_› <| .nextSeq hs) (.sendPtp <| .of_pair ‹_› <| .nextSeq hs))

protected theorem delayReqInterval {h tx} (hs : Queued cmds s) : Queued cmds (delayReqInterval h tx s) :=
  .ite hs (by split; exact .sendPtp <| .setSlave <| .of_pair ‹_› <| .nextSeq hs)

protected theorem announceInterval {h} (hs : Queued cmds s) : Queued cmds (announceInterval h s) :=
  .ite hs (by split; exact .sendPtp <| .of_pair ‹_› <| .nextSeq hs)

protected theorem syncTimeout {k} (hs : Queued cmds s) : Queued cmds (syncTimeout k s) := .ite (.raiseEvt hs) hs

protected theorem queueTime {r t} (hs : Queued cmds s) : Queued cmds (queueTime r t s) := .ite hs (.setRPort hs)

protected theorem ringSyncInterval (hs : Queued cmds s) : Queued cmds (ringSyncInterval s) :=
  .ite hs
    (by split; exact by split; exact .foldl .queueTime (.of_pair ‹_› <| .freeDraw <| .of_pair ‹_› <| .nextSeq hs))

protected theorem ringPdelayInterval (hs : Queued cmds s) : Queued cmds (ringPdelayInterval s) :=
  .ite hs (.foldl (fun h => by split; exact .queueTime <| .setSlave <| .of_pair ‹_› <| .nextSeq h) hs)

protected theorem takeTime {r f rx} (hs : Queued cmds s) : Queued cmds (takeTime r f rx s) := by
  unfold takeTime
  extract_lets msg
  clear_value msg
  refine .ite hs ?_
  split
  · refine .ite ?_ hs
    split
    split
    exact .queueTime <| .setSlave <| .of_pair ‹_› <| .freeDraw <| .of_pair ‹_› <| .nextSeq <| .formTheta <|
      .setSlave hs
  · refine .ite ?_ hs
    split
    exact .queueTime <| .of_pair ‹_› <| .freeDraw hs
  · split
    exacts [.ite (.formTheta <| .setSlave hs) hs, hs]
  · exact .ite (.queueTime hs) hs
  · split
    · refine .ite ?_ hs
      split
      exact .wrAll <| .of_pair ‹_› <| .freeField hs
    · exact hs
  · exact hs

protected theorem refLoss (hs : Queued cmds s) : Queued cmds (refLoss s) := by
  unfold refLoss
  exact .ite (.wr <| .frame hs) (.ite (.frame hs) (.raiseFault <| .wr <| .wr <| .frame hs))

protected theorem refReturn (hs : Queued cmds s) : Queued cmds (refReturn s) := by
  unfold refReturn
  exact .ite (.wr <| .frame hs) (.ite (.frame hs) (.wr <| .wr <| .frame hs))

protected theorem alignArm (hs : Queued cmds s) : Queued cmds (alignArm s) := .frame hs

protected theorem loadTc {v k} (hs : Queued cmds s) : Queued cmds (loadTc v k s) := by
  unfold loadTc
  exact .frame <| .foldl .fluxCatch (.rtCatch <| .ladleCatch hs)

protected theorem phaseField {offset} (hs : Queued cmds s) : Queued cmds (phaseField offset s).2 :=
  .ite_snd hs (by split; exact .of_pair ‹_› <| .freeDraw hs)

protected theorem syncEdge {offset} (hs : Queued cmds s) : Queued cmds (syncEdge offset s) := by
  unfold syncEdge
  extract_lets
  split
  · exact .raiseEvt <| .frame hs
  · split
    · split
      exact .raiseEvt <| .wr <| .wr <| .loadTc <| .passTicks <| .frame <| .of_pair ‹_› <| .freeDraw hs
    · refine .ite ?_ hs
      split
      · exact .ite
            (.raiseFault <| .bump <| .wr <| .wr <| .of_pair ‹_› <| .phaseField hs)
            (.wr <| .of_pair ‹_› <| .phaseField hs)

protected theorem syncAbsent (hs : Queued cmds s) : Queued cmds (syncAbsent s) := .ite (.raiseEvt <| .bump hs) hs

protected theorem setRlatch {p a v} (hs : Queued cmds s) : Queued cmds (setRlatch p a v s) := .frame hs

protected theorem mtRead {p} (hs : Queued cmds s) : Queued cmds (mtRead p s) := by
  unfold mtRead
  exact .frame <| .setRlatch <| .setRlatch <| .setRlatch <| .setRlatch hs

protected theorem tsuRead {p k} (hs : Queued cmds s) : Queued cmds (tsuRead p k s) := by
  unfold tsuRead
  exact .frame <| .wr <| .foldl .setRlatch hs

protected theorem tsuStamp {k} (hs : Queued cmds s) : Queued cmds (tsuStamp k s) :=
  .ite hs (.ite (.raiseEvt <| .wr <| .wr <| .wr <| .wrAll <| .wrPair hs) (.wr <| .wr <| .wrAll <| .wrPair hs))

protected theorem cmpFire {k} (hs : Queued cmds s) : Queued cmds (cmpFire k s) := by
  unfold cmpFire
  exact .ite hs (.raiseEvt <| .wr <| .wrAll hs)

/-! ## Ring -/

theorem timeOut {r t} (hs : Queued cmds s) : Queued cmds (timeOut r t s).2.2 := by
  unfold Machine.timeOut
  extract_lets
  split
  · exact hs
  · exact .setSlave hs
  · exact .setSlave hs
  · split <;> exact hs

protected theorem sendReplay {r n t} (hs : Queued cmds s) : Queued cmds (sendReplay r n t s).2 := .emit <| .timeOut hs

protected theorem replaySend {r} (hs : Queued cmds s) : Queued cmds (replaySend r s) := by
  unfold replaySend
  extract_lets _ idle _ push
  have hidle : Queued cmds idle := .emit hs
  have hpush : ∀ {t y}, Queued cmds (push t y) := .setRPort <| .sendReplay <| .setRPort hs
  split
  · split
    exacts [.setRPort <| .sendReplay hs, .setRPort hidle]
  · refine .ite hidle ?_
    split
    exacts [hpush, hpush, hidle]

protected theorem useSlots {r k} (hs : Queued cmds s) : Queued cmds (useSlots r k s) := by
  unfold useSlots
  exact .setRPort hs

protected theorem rtSent {r n t m} (hs : Queued cmds s) : Queued cmds (rtSent r n t m s) := by
  unfold rtSent
  extract_lets _ s1 s2
  have hs1 : Queued cmds s1 := .useSlots <| .setRPort hs
  have hs2 : Queued cmds s2 := .ite (.bump hs1) hs1
  split
  exacts [.useSlots hs, by split; exacts [.noteRelay hs2, hs2]]

protected theorem flitSend {r} {s0 : State} (hs0 : Queued cmds s0) : Queued cmds (flitSend r s0) := by
  unfold flitSend
  extract_lets _ s
  have hs : Queued cmds s := .foldl .emit (.rtCatch <| .ladleCatch hs0)
  refine .ite (.ite hs (.useSlots <| .emit hs)) ?_
  split
  exacts [.rtSent <| .foldl .emit (.frame hs), .useSlots <| .replaySend hs]

protected theorem resendFrom {r} (hs : Queued cmds s) : Queued cmds (resendFrom r s) := by
  unfold resendFrom
  exact .ite hs (.ite (.raiseFault <| .bump <| .setRPort hs) (.bump <| .setRPort hs))

protected theorem replayTimeout {r} (hs : Queued cmds s) : Queued cmds (replayTimeout r s) := .resendFrom hs

protected theorem lossReport {r} (hs : Queued cmds s) : Queued cmds (lossReport r s) :=
  .lossAtMortar <| .whenUp .lossAtLadle (.raiseEvt <| .bump hs)

protected theorem ownLoss {r} (hs : Queued cmds s) : Queued cmds (ownLoss r s) := by
  unfold ownLoss
  exact .ite (.readyRt <| .lossReport hs) (.lossReport hs)

protected theorem seeNumber {r n taken} (hs : Queued cmds s) : Queued cmds (seeNumber r n taken s) := by
  unfold seeNumber
  extract_lets
  split
  exacts [.setRPort hs, .ite hs (.foldl .ownLoss (.setRPort hs))]

/-- A copy that joins a flit which waits or is queued changes those only. -/
theorem joinCopy {o n c} {t : State} (h : joinCopy o n c s = some t) (hs : Queued cmds s) : Queued cmds t := by
  unfold Machine.joinCopy at h
  dsimp only at h
  split at h
  · cases h
    exact .frame hs
  · obtain ⟨_, -, rfl⟩ := Option.map_eq_some_iff.1 h
    exact .frame hs

protected theorem forward {r f stomp first} {s0 : State} (hs0 : Queued cmds s0) : Queued cmds (forward r f stomp
    first s0) := by
  unfold forward
  extract_lets _ _ _ s _ _ s1
  have hs : Queued cmds s := .rtCatch <| .ite (.bump hs0) hs0
  have hs1 : Queued cmds s1 := .setRPort hs
  refine .ite hs0 ?_
  split
  · exact .joinCopy ‹_› hs
  · split
    · split
      exacts [.frame hs1, hs1]
    · exact .ite (.readyRt hs) hs

theorem takeTrigger_take {r f src n id} (hs : Queued cmds s) : Queued cmds (takeTrigger.take r f src n id s) :=
  .foldl .fireLine (.triggerStart <| .frame hs)

protected theorem takeTrigger {r f} (hs : Queued cmds s) : Queued cmds (takeTrigger r f s) := by
  unfold takeTrigger
  extract_lets
  split
  exacts [.ite hs (.takeTrigger_take hs), .takeTrigger_take hs]



protected theorem deliverRt {r f} (hs : Queued cmds s) : Queued cmds (deliverRt r f s) := by
  unfold deliverRt
  extract_lets
  split
  · exact .whenUp .takeDecision hs
  · exact .ite hs (.ite (.whenUp .seamCorrections hs) (.whenUp .seamEvents hs))
  · exact .takeTrigger hs
  · exact .lossReport hs
  · exact hs

protected theorem takeFrag {f} (hs : Queued cmds s) : Queued cmds (takeFrag f s) := by
  unfold takeFrag
  exact .ite (.frame hs) (.ite (.frame hs) (.frame hs))

protected theorem sendNak {r} (hs : Queued cmds s) : Queued cmds (sendNak r s) := .bump <| .setRPort hs

protected theorem takeReplay {r f rx} (hs : Queued cmds s) : Queued cmds (takeReplay r f rx s) := by
  unfold takeReplay
  extract_lets _ _ s1 _ _ s2
  have hs1 : Queued cmds s1 := .setRPort hs
  have hs2 : Queued cmds s2 := .ite (.takeTime hs1) (.ite (.takeFrag hs1) hs1)
  exact .ite (.sendNak hs) (.ite (.bump hs1) (.ite hs2 (.setRPort hs2)))

protected theorem badCopy {r f} (hs : Queued cmds s) : Queued cmds (badCopy r f s) := by
  unfold badCopy
  exact .ite (.forward <| .raiseEvt <| .bump hs) (.ite (.sendNak <| .raiseEvt <| .bump hs) (.raiseEvt <| .bump hs))

protected theorem takeRt {r f} (hs : Queued cmds s) : Queued cmds (takeRt r f s) := by
  unfold takeRt
  exact .ite
      (.forward hs)
      (.ite (.bump <| .seeNumber <| .setRPort hs) (.forward <| .deliverRt <| .seeNumber <| .setRPort hs))

protected theorem rxFlit {r types bits rx} (hs : Queued cmds s) : Queued cmds (rxFlit r types bits rx s) := by
  unfold rxFlit
  refine .ite hs (.ite (.badCopy hs) (.ite hs ?_))
  split
  exacts [.seeNumber hs, .takeReplay hs, .takeReplay hs, .takeRt hs]

protected theorem takeAck {r ack nak} (hs : Queued cmds s) : Queued cmds (takeAck r ack nak s) := by
  unfold takeAck
  exact .ite (.resendFrom <| .setRPort hs) (.setRPort hs)

protected theorem takeLmsg {p v} (hs : Queued cmds s) : Queued cmds (takeLmsg p v s) := by
  unfold takeLmsg
  extract_lets
  split
  exacts [.swapReq hs, .swapReqAbrupt hs, .swapReady hs, .swapAbort hs, hs]

protected theorem laneFrame {r bits} (hs : Queued cmds s) : Queued cmds (laneFrame r bits s) := by
  unfold laneFrame
  extract_lets _ _ _ _ _ _ _ _ s3 s4 s5
  have hs3 : Queued cmds s3 := .raiseFaultIf <| .raiseFaultIf <| .setRPort <| .wr <| .wr <| .wr hs
  have hs4 : Queued cmds s4 := .ite hs3 (.ringRefresh hs3)
  have hs5 : Queued cmds s5 := .seeNumber <| .takeAck hs4
  exact .ite hs (.ite hs4 (.ite hs5 (.takeLmsg <| .setRPort hs5)))

protected theorem ringAddrWrite {v} (hs : Queued cmds s) : Queued cmds (ringAddrWrite v s) := .ite hs (.wr hs)

protected theorem ringEnabled {r} (hs : Queued cmds s) : Queued cmds (ringEnabled r s) := by
  unfold ringEnabled
  exact .portPrbs <| .ringRefresh <| .ite hs (.setRPort hs)

/-! ## Apply -/

protected theorem parkWritten {o a v} (hs : Queued cmds s) : Queued cmds (parkWritten o a v s) :=
  .ite (.fluxRamp <| .setFlux <| .setReg <| .fluxCatch <| .fluxTakeOver hs) (.setReg <| .fluxCatch hs)

protected theorem sourceApplied {m self} (hs : Queued cmds s) : Queued cmds (sourceApplied m self s) := by
  unfold sourceApplied
  exact .ite (.setGroup hs) (.ite hs (.setGroup hs))

protected theorem applyBits {a mask v} (hs : Queued cmds s) : Queued cmds (applyBits a mask v s) := by
  unfold applyBits
  extract_lets _ _ s1
  have hs1 : Queued cmds s1 := .setReg hs
  split
  · exact hs
  · exact .ite (.freqChanged <| .setReg <| .outCatch hs) (.setReg <| .outCatch hs)
  · exact .ite (.freqChanged <| .setReg <| .outCatch hs) (.setReg <| .outCatch hs)
  · exact .ite (.dfChanged hs1) hs1
  · exact .ite (.setReg hs) (.ite (.parkWritten hs) (.setReg <| .fluxGroupCatch hs))
  · exact .ite (.sourceApplied <| .setReg hs) (.setReg hs)
  · exact .setReg hs

protected theorem dropHeld {a mask} (hs : Queued cmds s) : Queued cmds (dropHeld a mask s) := by
  unfold dropHeld
  exact .frame hs

protected theorem shadowWrite {a mask v} (hs : Queued cmds s) : Queued cmds (shadowWrite a mask v s) := by
  unfold shadowWrite
  exact .ite (.frame <| .dropHeld hs) (.applyBits <| .dropHeld hs)

protected theorem releaseHeld (hs : Queued cmds s) : Queued cmds (releaseHeld s) := by
  unfold releaseHeld
  exact .foldl .applyBits (.frame hs)

protected theorem enableChanged {pt n} (hs : Queued cmds s) : Queued cmds (enableChanged pt n s) := by
  unfold enableChanged
  split
  exacts [.ladleEnabled hs, .ringEnabled hs, .portPrbs <| .hostRefresh hs, .calKick hs, .routerEnabled hs, hs]

protected theorem enableNow {pg} (hs : Queued cmds s) : Queued cmds (enableNow s pg) := by
  unfold enableNow
  split
  exacts [hs, .enableChanged <| .gated (fun h => .wr <| .frame h) (.ite (.lineCatch hs) hs)]

protected theorem enableBlock {pg} (hs : Queued cmds s) : Queued cmds (enableBlock pg s) := by
  unfold enableBlock
  split
  exacts [hs, .ite hs (.ite (.ite hs (.frame hs)) (.enableNow hs))]

protected theorem stopBlock {pt n} (hs : Queued cmds s) : Queued cmds (stopBlock pt n s) := by
  unfold stopBlock
  extract_lets
  split
  · exact .silenceSeq <| .foldl .tagShot hs
  · exact .fluxGroupPark <| .foldl .tagShot hs
  · exact .foldl .tagShot hs

protected theorem disableBlock {pg} (hs : Queued cmds s) : Queued cmds (disableBlock pg s) := by
  unfold disableBlock
  split
  · exact hs
  · exact .ite hs
        (.ite
           (.frame <| .ite (.lineCatch hs) hs)
           (.enableChanged <|
              .gated .wr (.ite (.stopBlock <| .frame <| .ite (.lineCatch hs) hs) (.frame <| .ite (.lineCatch hs) hs))))

protected theorem enableWaiting (hs : Queued cmds s) : Queued cmds (enableWaiting s) := by
  unfold enableWaiting
  exact .foldl .enableNow hs

protected theorem freed (hs : Queued cmds s) : Queued cmds (freed s) :=
  .ladleRelease <| .enableWaiting <| .releaseHeld hs

/-! ## Capture -/

protected theorem setCap {u x} (hs : Queued cmds s) : Queued cmds (setCap u x s) := .frame hs

protected theorem setCapStatus {u v} (hs : Queued cmds s) : Queued cmds (setCapStatus u v s) := .wr hs

protected theorem setCapState {u v} (hs : Queued cmds s) : Queued cmds (setCapState u v s) := .wr hs

protected theorem evictOne {u} (hs : Queued cmds s) : Queued cmds (evictOne u s) := by
  unfold evictOne
  extract_lets
  split
  exacts [hs, .raiseEvt <| .bump <| .setCap hs]

protected theorem makeRoom {u : Nat} : ∀ {n : Nat} {s : State}, Queued cmds s → Queued cmds (makeRoom u n s)
  | 0, _, hs => hs
  | _ + 1, _, hs => .ite hs (Queued.makeRoom <| .evictOne hs)

protected theorem capRoom {u} (hs : Queued cmds s) : Queued cmds (capRoom u s) := .makeRoom hs

protected theorem ringPut {base ring place bs} (hs : Queued cmds s) : Queued cmds (ringPut base ring place bs s) :=
  .putBefore hs

protected theorem cutRecord {u extra} (hs : Queued cmds s) : Queued cmds (cutRecord u extra s) := by
  unfold cutRecord
  extract_lets
  split
  exacts [.capRoom <| .setCap <| .ringPut hs, hs]

protected theorem addItem {u it} (hs : Queued cmds s) : Queued cmds (addItem u s it) := by
  unfold addItem
  exact .capRoom <| .setCap <| .ite (.cutRecord hs) hs

protected theorem takeItem_ {u it} (hs : Queued cmds s) : Queued cmds (takeItem_ u s it) := by
  unfold takeItem_
  exact .ite hs (.addItem <| .ite (.setCap hs) hs)

protected theorem beginRecords {u} (hs : Queued cmds s) : Queued cmds (beginRecords u s) := by
  unfold beginRecords
  extract_lets
  split
  exacts [hs, .ite hs (by split; exact .foldl .takeItem_ (.setCap hs))]

protected theorem endUnit {u status} (hs : Queued cmds s) : Queued cmds (endUnit u status s) := by
  unfold endUnit
  exact .setCapStatus <| .setCap hs

protected theorem completeCapture {u extra} {s0 : State} (hs0 : Queued cmds s0) : Queued cmds (completeCapture u
    extra s0) := by
  unfold completeCapture
  exact .ite
      (.setCapState <| .setCapStatus <| .setCap <| .cutRecord <| .beginRecords hs0)
      (.raiseEvt <| .endUnit <| .setCap <| .cutRecord <| .beginRecords hs0)

protected theorem captureComplete {u} (hs : Queued cmds s) : Queued cmds (captureComplete u s) :=
  .ite (.ite (.completeCapture <| .beginRecords hs) hs) hs

protected theorem stopUnit {u extra} (hs : Queued cmds s) : Queued cmds (stopUnit u extra s) :=
  .endUnit <| .ite (.cutRecord <| .beginRecords hs) hs

protected theorem abortUnit {u} (hs : Queued cmds s) : Queued cmds (abortUnit u s) := by
  unfold abortUnit
  extract_lets _ _ _ _ s2
  have hs2 : Queued cmds s2 := .completeCapture <| .beginRecords hs
  split
  · exact .ite (.wr hs) hs
  · split
    · exact .ite (.wr <| .raiseEvt <| .endUnit hs) (.endUnit hs)
    · split
      · exact .endUnit hs
      · exact .ite
            (.endUnit <| .wr <| .wrAll <| .wrAll <| .wrAll <| .frame hs)
            (.ite (.wr <| .ite hs2 (.raiseEvt <| .endUnit hs2)) (.stopUnit hs))

protected theorem shedUnit {u} (hs : Queued cmds s) : Queued cmds (shedUnit u s) := .ite (.stopUnit hs) hs

protected theorem withdrawUnit {u} (hs : Queued cmds s) : Queued cmds (withdrawUnit u s) := by
  unfold withdrawUnit
  exact .raiseFault <| .setCap <| .endUnit hs

protected theorem clrCapCounts {u} (hs : Queued cmds s) : Queued cmds (clrCapCounts u s) := .foldl .wrAll hs

protected theorem armUnit {u} (hs : Queued cmds s) : Queued cmds (armUnit u s) :=
  .ite hs
    (by
       split
       · exact .raiseEvt <| .setCapStatus hs
       · exact .wr <| .setCapState <| .setCapStatus <| .foldl .wrAll (.setCap hs))

protected theorem wordTaken {u} (hs : Queued cmds s) : Queued cmds (wordTaken u s) :=
  .ite hs (by split; exacts [.setCap hs, hs])

protected theorem takeSource {u src bytes} (hs : Queued cmds s) : Queued cmds (takeSource u src bytes s) := by
  unfold takeSource
  exact .ite hs
      (.ite
         (.raiseEvt <| .bump <| .setCap hs)
         (.ite (.capRoom <| .setCap hs) (.takeItem_ <| .beginRecords <| .setCap hs)))

protected theorem sourceItem {u t bytes} {s0 : State} (hs0 : Queued cmds s0) : Queued cmds (sourceItem u t bytes s0)
    := by
  unfold sourceItem
  extract_lets
  split
  exacts [.passTo hs0, .wordTaken <| .takeSource <| .passTo hs0]

protected theorem hitDue {u src h} {s0 : State} (hs0 : Queued cmds s0) : Queued cmds (hitDue u src h s0) := by
  unfold hitDue
  exact .ite (.passTo hs0) (by split; exacts [.passTo hs0, .raiseEvtIf <| .setCap <| .passTo hs0])

protected theorem takeTrig {u st c also pos x} (hs : Queued cmds s) : Queued cmds (takeTrig u st c also pos x s) :=
  .ite (.raiseEvt <| .bump hs) (.fireLine <| .raiseEvt <| .wrPair <| .wrAll <| .setCapStatus <| .setCap hs)

protected theorem takeStop {u} (hs : Queued cmds s) : Queued cmds (takeStop u s) :=
  .ite (.completeCapture hs) (.endUnit hs)

protected theorem advanceCounts {u st next ps} (hs : Queued cmds s) : Queued cmds (advanceCounts u st next ps s) :=
  .foldl .wrPair hs

protected theorem triggerSample {u} (hs : Queued cmds s) : Queued cmds (triggerSample u s) := by
  unfold triggerSample
  extract_lets _ _ _ _ _ _ _ s1
  have hs1 : Queued cmds s1 := .setCap hs
  split
  · exact hs
  · split
    · extract_lets s2
      have hs2 : Queued cmds s2 := .ite hs1 (.raiseEvt <| .bump hs1)
      split
      · exact .advanceCounts hs2
      · extract_lets _ _ s3 s4 s5
        have hs3 : Queued cmds s3 := .advanceCounts <| .setCapState hs2
        have hs4 : Queued cmds s4 := .ite (.takeTrig hs3) hs3
        have hs5 : Queued cmds s5 := .ite (.askTbus hs4) hs4
        exact .ite (.takeStop hs5) hs5

protected theorem preFilled {u} {s0 : State} (hs0 : Queued cmds s0) : Queued cmds (preFilled u s0) :=
  .ite hs0 (.ite (.setCapStatus <| .ite (.passTo hs0) hs0) (.ite (.passTo hs0) hs0))

protected theorem recordRelease {u} (hs : Queued cmds s) : Queued cmds (recordRelease u s) := by
  unfold recordRelease
  extract_lets
  split
  exacts [hs, .ringPut <| .setCap hs]

protected theorem egrSpend {u n} (hs : Queued cmds s) : Queued cmds (egrSpend u n s) := by
  unfold egrSpend
  exact .setCap hs

protected theorem egrWait {u} (hs : Queued cmds s) : Queued cmds (egrWait u s) := by
  unfold egrWait
  split
  exacts [hs, .passTo hs]

protected theorem sendRecord {u dest plen spoilt body} (hs : Queued cmds s) : Queued cmds (sendRecord u dest plen
    spoilt body s) := by
  unfold sendRecord
  exact .egrSpend <| .wrPair <| .wrAll <| .daxkaSend hs

protected theorem takeOvw {u} (hs : Queued cmds s) : Queued cmds (takeOvw u s).2 := by
  unfold takeOvw
  exact .setCap hs

protected theorem sendHeader {u dest} (hs : Queued cmds s) : Queued cmds (sendHeader u dest s) := by
  unfold sendHeader
  split
  exact .setCap <| .frame <| .sendRecord <| .of_pair ‹_› <| .takeOvw hs

protected theorem recordSend {u} (hs : Queued cmds s) : Queued cmds (recordSend u s) := by
  unfold recordSend
  extract_lets s0
  have hs0 : Queued cmds s0 := .egrWait hs
  refine .ite hs ?_
  split
  · exact hs
  · refine .ite hs ?_
    split
    · exact .evictOne hs
    · refine .ite hs ?_
      extract_lets
      split
      · exact .setCap <| .sendRecord <| .of_pair ‹_› <| .takeOvw <| .egrWait <| .ite (.sendHeader hs0) hs0

protected theorem egrOpen {u} (hs : Queued cmds s) : Queued cmds (egrOpen u s) := by
  unfold egrOpen
  extract_lets
  split
  exacts [.sendHeader <| .setCap <| .wrAll hs, .setCap <| .wrAll hs]

protected theorem egrEnable {u} (hs : Queued cmds s) : Queued cmds (egrEnable u s) := .ite hs (.egrOpen <| .wr hs)

/-! ## Power -/

protected theorem setTherm {x} (hs : Queued cmds s) : Queued cmds (setTherm x s) := .frame hs

protected theorem setShed {x} (hs : Queued cmds s) : Queued cmds (setShed x s) := .frame hs

protected theorem fluxOff {o} (hs : Queued cmds s) : Queued cmds (fluxOff o s) := by
  unfold fluxOff
  exact .ite hs (.ite (.setFlux hs) (.setFlux <| .fluxRamp <| .fluxTakeOver hs))

protected theorem fluxOn {o} (hs : Queued cmds s) : Queued cmds (fluxOn o s) := by
  unfold fluxOn
  exact .setFlux hs

protected theorem setDoms {ds on} (hs : Queued cmds s) : Queued cmds (setDoms ds on s) := .foldl .wr hs

protected theorem muteAll (hs : Queued cmds s) : Queued cmds (muteAll s) := .gated (fun h => .foldl .setOut h) hs

protected theorem fluxesDown (hs : Queued cmds s) : Queued cmds (fluxesDown s) := by
  unfold fluxesDown
  exact .ite hs (.passTicks <| .foldl .rampDone hs)

protected theorem goDark (hs : Queued cmds s) : Queued cmds (goDark s) := by
  unfold goDark
  exact .bypassUpdate <| .setDoms <| .frame <| .fluxesDown <|
    .foldl .setGroup (.foldl .fluxOff (.muteAll <| .tagAll hs))

protected theorem throttleTakes (hs : Queued cmds s) : Queued cmds (throttleTakes s) := by
  unfold throttleTakes
  exact .calKick <| .foldl (fun h => .ite h (.setGroup h)) hs

protected theorem throttleRise (hs : Queued cmds s) : Queued cmds (throttleRise s) :=
  .ite (.raiseFault hs) (.throttleTakes <| .raiseEvt <| .wr hs)

protected theorem throttleUp (hs : Queued cmds s) : Queued cmds (throttleUp s) := .ite (.throttleRise hs) hs

protected theorem throttleDown (hs : Queued cmds s) : Queued cmds (throttleDown s) := by
  unfold throttleDown
  split
  exact .ite (.throttleTakes <| .raiseEvt <| .wr hs) hs

protected theorem refreshShed (hs : Queued cmds s) : Queued cmds (refreshShed s) := by
  unfold refreshShed
  exact .ite
      (.wr <| .wr <| .wr <| .wr hs)
      (.ite
         (.raiseEvt <| .setShed <| .bump <| .wr <| .wr <| .wr <| .wr hs)
         (.raiseEvt <| .setShed <| .wr <| .wr <| .wr <| .wr hs))

protected theorem hostShed {on h} (hs : Queued cmds s) : Queued cmds (hostShed on h s) := by
  unfold hostShed
  exact .raiseEvt <| .hostEnterMode <| .wr hs

protected theorem stageActs {g n first} (hs : Queued cmds s) : Queued cmds (stageActs g n first s) := by
  unfold stageActs
  extract_lets
  split
  · exact .foldl .shedUnit hs
  · exact .ite (.calKick hs) hs
  · exact .ite (.hostShed <| .hostShed hs) hs
  · exact .foldl .fluxGroupPark (.ite (.startOverrun <| .setGroup hs) hs)
  · exact .ite (.calShed <| .setDoms <| .pantryLost <| .foldl .fluxOff hs) hs
  · exact hs

protected theorem enterStages {g n} (hs : Queued cmds s) : Queued cmds (enterStages g n s) := by
  unfold enterStages
  exact .refreshShed <| .foldl (fun h => .ite h (.stageActs <| .gated .setGroup h)) hs

protected theorem stageSix (hs : Queued cmds s) : Queued cmds (stageSix s) :=
  .ite hs (by split; exact .goDark <| .logEvent <| .of_pair ‹_› <| .freeDraw hs)

protected theorem enterNow {n} (hs : Queued cmds s) : Queued cmds (enterNow n s) := by
  unfold enterNow
  exact .ite (.stageSix <| .foldl .enterStages (.tagAll hs)) (.foldl .enterStages (.tagAll hs))

protected theorem applyDemand (hs : Queued cmds s) : Queued cmds (applyDemand s) := by
  unfold applyDemand
  exact .ite (.refreshShed hs) (.ite (.enterNow hs) (.refreshShed <| .foldl (fun h => .ite h (.enterStages h)) hs))

protected theorem leaveStage {n} (hs : Queued cmds s) : Queued cmds (leaveStage n s) := by
  unfold leaveStage
  split
  exacts [.foldl .fluxOn (.setDoms hs), .hostShed <| .hostShed hs, .calKick hs, hs]

protected theorem stepDown (hs : Queued cmds s) : Queued cmds (stepDown s) := by
  unfold stepDown
  exact .refreshShed <| .leaveStage <| .setShed <| .gated (fun h => .foldl .setGroup h) hs

protected theorem takeStepDown (hs : Queued cmds s) : Queued cmds (takeStepDown s) :=
  .ite (.stepDown hs) (.setShed hs)

protected theorem vinThreshold {mv} (hs : Queued cmds s) : Queued cmds (vinThreshold mv s) := by
  unfold vinThreshold
  exact .applyDemand <| .setShed <| .wr hs

protected theorem shedDwell (hs : Queued cmds s) : Queued cmds (shedDwell s) := by
  unfold shedDwell
  exact .applyDemand <| .setShed hs

protected theorem shedHold (hs : Queued cmds s) : Queued cmds (shedHold s) := by
  unfold shedHold
  exact .ite
      (.ite (.refreshShed <| .setShed <| .setShed hs) (.takeStepDown <| .setShed <| .setShed hs))
      (.refreshShed <| .setShed hs)

protected theorem shedWait {g} (hs : Queued cmds s) : Queued cmds (shedWait g s) := by
  unfold shedWait
  exact .ite (.enterStages <| .tagShot <| .bump hs) hs

protected theorem shedAtBoundary {g} (hs : Queued cmds s) : Queued cmds (shedAtBoundary g s) :=
  .takeStepDown <| .enterStages hs

protected theorem shedPin {level} (hs : Queued cmds s) : Queued cmds (shedPin level s) := .applyDemand <| .frame hs

protected theorem domainTrip {d} (hs : Queued cmds s) : Queued cmds (domainTrip d s) := by
  unfold domainTrip
  exact .enterNow <| .logEvent <| .raiseFault <| .wr hs

protected theorem overVoltage (hs : Queued cmds s) : Queued cmds (overVoltage s) := .enterNow hs

protected theorem phaseFail {d} (hs : Queued cmds s) : Queued cmds (phaseFail d s) := by
  unfold phaseFail
  exact .ite (.raiseEvt <| .finishSub <| .serveUnit <| .addWear hs) (.raiseFault <| .wr <| .addWear hs)

protected theorem thermalShutdown (hs : Queued cmds s) : Queued cmds (thermalShutdown s) :=
  .ite hs (.goDark <| .frame <| .setTherm <| .logEvent hs)

protected theorem setSite {k i v} (hs : Queued cmds s) : Queued cmds (setSite k i v s) := .wr hs

protected theorem freezeFor {k} (hs : Queued cmds s) : Queued cmds (freezeFor k s) :=
  .ite (.raiseEvt <| .wr <| .setTherm hs) hs

protected theorem spareIn {k} (hs : Queued cmds s) : Queued cmds (spareIn k s) := by
  unfold spareIn
  exact .raiseEvt <| .finishSub <| .setTherm <| .setSite <| .serveUnit hs

protected theorem primaryFails {k} (hs : Queued cmds s) : Queued cmds (primaryFails k s) := by
  unfold primaryFails
  extract_lets s1
  have hs1 : Queued cmds s1 := .freezeFor <| .addWear <| .setSite hs
  exact .ite hs (.ite hs1 (.ite (.raiseFault <| .setSite hs1) (.ite (.setSite hs1) (.spareIn hs1))))

protected theorem spareFails {k} (hs : Queued cmds s) : Queued cmds (spareFails k s) := by
  unfold spareFails
  exact .ite
      (.raiseFault <| .setSite <| .freezeFor <| .setSite hs)
      (.ite (.raiseFault <| .setSite <| .setSite hs) (.setSite hs))

protected theorem judgeSite {k r t} (hs : Queued cmds s) : Queued cmds (judgeSite k r t s) :=
  .ite hs
    (.ite
       (.ite (.spareFails <| .setTherm hs) (.primaryFails <| .setTherm hs))
       (.ite (.ite (.setSite <| .setTherm <| .setTherm hs) (.setTherm <| .setTherm hs)) (.setTherm hs)))

protected theorem diodeCrosscheck {k prim spare} (hs : Queued cmds s) : Queued cmds (diodeCrosscheck k prim spare s)
    :=
  .ite hs
    (.ite
       (.primaryFails hs)
       (.ite
          (.spareFails hs)
          (by
             split
             exact .ite (.primaryFails <| .of_pair ‹_› <| .freeDraw hs)
               (.spareFails <| .of_pair ‹_› <| .freeDraw hs))))

protected theorem freezeTimeout (hs : Queued cmds s) : Queued cmds (freezeTimeout s) :=
  .ite (.raiseFault <| .throttleRise hs) hs

protected theorem thermSel {v} (hs : Queued cmds s) : Queued cmds (thermSel v s) := by
  unfold thermSel
  exact .ite hs (.ite (.spareIn hs) (.ite (.setSite <| .setSite hs) hs))

protected theorem measurePower {d} (hs : Queued cmds s) : Queued cmds (measurePower s d) := by
  unfold measurePower
  split
  exact .hmSample <| .wr <| .of_pair ‹_› <| .freeField hs

protected theorem integrateNodes : ∀ {n : Nat} {s : State}, Queued cmds s → Queued cmds (integrateNodes n s).2
  | 0, _, hs => hs
  | n + 1, s, hs => by
    unfold integrateNodes
    split
    split
    exact .of_pair ‹_› <| Queued.integrateNodes (n := n) <| .of_pair ‹_› <| .freeDraw hs

protected theorem showSite {readings raw cor k} (hs : Queued cmds s) : Queued cmds (showSite readings raw cor s k)
    := by
  unfold showSite
  extract_lets
  split
  exact .wr <| .wr <| .of_pair ‹_› <| .freeRound hs

protected theorem thawSite {k} (hs : Queued cmds s) : Queued cmds (thawSite s k) := by
  unfold thawSite
  split
  exact .ite (.wr <| .setTherm <| .of_pair ‹_› <| .freeDraw hs) (.of_pair ‹_› <| .freeDraw hs)

protected theorem evalThresholds {hot cold} (hs : Queued cmds s) : Queued cmds (evalThresholds hot cold s) := by
  unfold evalThresholds
  extract_lets _ _ _ _ _ s3 s4 s5
  have hs3 : Queued cmds s3 := .raiseFaultIf <| .raiseEvtIf <| .raiseEvtIf <| .setTherm hs
  have hs4 : Queued cmds s4 := .ite (.throttleRise hs3) hs3
  have hs5 : Queued cmds s5 := .ite (.applyDemand hs4) hs4
  exact .ite (.thermalShutdown hs5) hs5

/-- A fold that carries a value beside the state. -/
theorem foldl_snd {β γ : Type} {f : γ × State → β → γ × State} (hf : ∀ {b x}, Queued cmds x.2 → Queued cmds (f x b).2) :
    ∀ {l : List β} {x : γ × State}, Queued cmds x.2 → Queued cmds (l.foldl f x).2
  | [], _, hx => hx
  | b :: l, x, hx => Queued.foldl_snd (l := l) (x := f x b) hf (hf hx)

theorem correctNode {readings e k} (he : Queued cmds e.2) : Queued cmds (correctNode readings e k).2 :=
  .ite_snd he (.freeRound he)

protected theorem trivetUpdate {readings} (hs : Queued cmds s) : Queued cmds (trivetUpdate readings s) := by
  -- unfolded as a function: the kernel would else run `integrateNodes` on its 64 nodes to compare the two sides
  conv => arg 2; fun; fun; delta Machine.trivetUpdate
  extract_lets s1
  have hs1 : Queued cmds s1 := .foldl .measurePower hs
  split
  rename_i raw s2 e2
  have hs2 : Queued cmds s2 := .of_pair e2 (.integrateNodes hs1)
  extract_lets s3
  have hs3 : Queued cmds s3 := .foldl .judgeSite hs2
  split
  rename_i cor s4 e4
  have hs4 : Queued cmds s4 := .of_pair e4 (.foldl_snd .correctNode hs3)
  extract_lets s5 s6
  have hs6 : Queued cmds s6 := .foldl .showSite (.foldl (fun h => .hmSample <| .wr h) hs4)
  split
  have hs7 := Queued.of_pair ‹_› <| .freeRound hs6
  exact .driftChecks <| .evalThresholds <| .foldl .thawSite <| .wr <| .wr <| .wr <| .wr hs7

/-! ## Stores -/

protected theorem stageBytes {p a bs} (hs : Queued cmds s) : Queued cmds (stageBytes p a bs s).2 := by
  unfold stageBytes
  extract_lets x
  split
  · exact hs
  · refine .ite_snd (.setLoadStat hs) ?_
    split
    · exact .ite_snd (.setStaging hs) (.setLoadStat hs)
    · exact .setStaging hs

protected theorem setGraphStat {st} (hs : Queued cmds s) : Queued cmds (setGraphStat st s) := .wr hs

protected theorem stageGraph {p a bs} (hs : Queued cmds s) : Queued cmds (stageGraph p a bs s).2 := by
  unfold stageGraph
  refine .ite_snd (.setGraphStat hs) ?_
  split
  · exact .ite_snd (.frame hs) (.setGraphStat hs)
  · exact (.frame hs)

protected theorem apertureBytes {p a bs} (hs : Queued cmds s) : Queued cmds (apertureBytes p a bs s).2 :=
  .ite_snd (.stageGraph hs) (.stageBytes hs)

protected theorem apertureWrite {p a v} (hs : Queued cmds s) : Queued cmds (apertureWrite p a v s) :=
  .ite (.apertureBytes hs) hs

protected theorem commitStore {p b crc} (hs : Queued cmds s) : Queued cmds (commitStore p b crc s).2 := by
  unfold commitStore
  extract_lets x s0 r e s1 s2 s1' s2'
  have hs0 : Queued cmds s0 := .noteUnit hs
  have hs1 : Queued cmds s1 := .setLoadStat (.frame hs0)
  have hs2 : Queued cmds s2 := .ite (.storeGood hs1) hs1
  have hs2' : Queued cmds s2' := by unfold s2'; split; exacts [.wr <| .setLoadStat hs0, .setLoadStat hs0]
  split
  · exact .loadFail <| .setLoadStat hs
  · exact .ite_snd (.loadFail <| .setLoadStat hs) (.ite_snd (.ite hs2 (.copyImage hs2)) (.loadFail hs2'))

protected theorem discardStore {p b} (hs : Queued cmds s) : Queued cmds (discardStore p b s).2 := by
  unfold discardStore
  split
  exacts [hs, .ite_snd (.unbind hs) (.setLoadStat hs)]

protected theorem commitReg {p b} (hs : Queued cmds s) : Queued cmds (commitReg p b s) := by
  unfold commitReg
  exact .commitStore hs

protected theorem exchangeBanks {crc data} (hs : Queued cmds s) : Queued cmds (exchangeBanks crc data s) := by
  unfold exchangeBanks
  extract_lets s1 _ _ s4
  have hs1 : Queued cmds s1 := (.frame hs)
  have hs4 : Queued cmds s4 := .wrAll <| .wrAll <| .wr <| .setGraphStat hs1
  exact .raiseEvt <| .ite (.setMortState hs4) hs4

protected theorem commitGraph {p crc} (hs : Queued cmds s) : Queued cmds (commitGraph p crc s).2 := by
  unfold commitGraph
  extract_lets r s1
  have hs1 : Queued cmds s1 := (.frame hs)
  split
  · exact .raiseEvt <| .setGraphStat hs
  · refine .ite_snd (.raiseEvt <| .setGraphStat hs) (.ite_snd (.ite (.setGraphStat ?_) (.exchangeBanks hs1))
      (.raiseEvt <| .wr <| .wr <| .setGraphStat hs))
    exact (.frame hs1)

protected theorem discardGraph {p} (hs : Queued cmds s) : Queued cmds (discardGraph p s).2 := by
  unfold discardGraph
  split
  · exact hs
  · exact .ite_snd (.frame hs) (.setGraphStat hs)

protected theorem exchangeWaiting (hs : Queued cmds s) : Queued cmds (exchangeWaiting s) := by
  unfold exchangeWaiting
  split
  · exact .exchangeBanks hs
  · exact hs

protected theorem setVimgStat {v} (hs : Queued cmds s) : Queued cmds (setVimgStat v s) := .wr hs

protected theorem vimgPut {o bs} (hs : Queued cmds s) : Queued cmds (vimgPut o bs s) := .setVimgStat (.frame hs)

/-- The vendor engine takes a command or ends one. -/
theorem vimgCmd {c} (hs : Queued cmds s) : Queued cmds { s with vimg := { s.vimg with cmd := c } } :=
  .frame hs

protected theorem vimgDataAccess {v} (hs : Queued cmds s) : Queued cmds (vimgDataAccess v s) := by
  unfold vimgDataAccess
  exact .wr (by split; exacts [.ite (.vimgPut hs) hs, .frame hs])

protected theorem vimgVerify (hs : Queued cmds s) : Queued cmds (vimgVerify s) := .ite hs (.setVimgStat hs.vimgCmd)

protected theorem vimgVerified (hs : Queued cmds s) : Queued cmds (vimgVerified s) :=
  .ite hs (.ite (.wr <| .setVimgStat hs.vimgCmd) (.setVimgStat hs.vimgCmd))

protected theorem vendorSet (hs : Queued cmds s) : Queued cmds (vendorSet s) := by
  unfold vendorSet
  exact .wrAll hs

/-- A section of an image is moved into a sequencer's vendor region. -/
protected theorem vendorCopy {v q} (hs : Queued cmds s) : Queued cmds (vendorCopy v s q) :=
  .raiseEvt <| .wrAll
    (.frame hs)

protected theorem vendorLoad {v} (hs : Queued cmds s) : Queued cmds (vendorLoad v s) :=
  .vendorSet <| .wr <| .foldl .vendorCopy (.frame hs)

protected theorem vimgLoad (hs : Queued cmds s) : Queued cmds (vimgLoad s) := .ite (.vendorLoad hs) hs

protected theorem vimgInstall (hs : Queued cmds s) : Queued cmds (vimgInstall s) :=
  .ite hs (.ite (.setVimgStat hs) (.setVimgStat hs.vimgCmd))

protected theorem vimgInstalled {ok} (hs : Queued cmds s) : Queued cmds (vimgInstalled ok s) := by
  unfold vimgInstalled
  extract_lets v img v0 v1 s1 s2
  have hv0 : Queued cmds { s with vimg := { v0 with cmd := none } } := by
    unfold v0
    split
    exacts [(.frame hs), (.frame hs)]
  have hs1 : Queued cmds s1 := by
    unfold s1 v1
    split
    exacts [(.frame hs), (.frame hs)]
  have hs2 : Queued cmds s2 := .wr <| .setVimgStat hs1
  exact .ite hs (.ite (.setVimgStat hv0) (.ite (.vendorLoad hs2) hs2))

protected theorem vimgDiscard (hs : Queued cmds s) : Queued cmds (vimgDiscard s) := .setVimgStat (.frame hs)

protected theorem seqModeWrite {q mode} (hs : Queued cmds s) : Queued cmds (seqModeWrite q mode s) := by
  unfold seqModeWrite
  exact .ite hs (.ite (.raiseEvt hs) (.ite hs (.setSeq <| .frame <| .wr hs)))

/-! ## Resets -/

protected theorem resetRegs {pg} (hs : Queued cmds s) : Queued cmds (resetRegs pg s) := by
  unfold resetRegs
  split
  · exact hs
  · exact .foldl (fun h => .ite h (.setReg h)) (.frame hs)

protected theorem dropPageWork {pg} (hs : Queued cmds s) : Queued cmds (dropPageWork pg s) := .frame hs

protected theorem cancelBranches {q} (hs : Queued cmds s) : Queued cmds (cancelBranches q s) := by
  unfold cancelBranches
  exact .foldl (fun h => .commitGate <| .setSeq h) hs

protected theorem calResetPage {pt n} (hs : Queued cmds s) : Queued cmds (calResetPage pt n s) := by
  unfold calResetPage
  split
  · exact .calResetSeq hs
  · exact .calResetUnit hs
  · exact .calResetUnit hs
  · exact .calResetUnit hs
  · exact .calResetUnit hs
  · exact .calResetUnit hs
  · exact .calResetUnit hs
  · exact .calResetUnit hs
  · exact hs

protected theorem calEmpty (hs : Queued cmds s) : Queued cmds (calEmpty s) := by
  unfold calEmpty
  extract_lets
  split
  · exact .endBoundary <| .copyReady <| .stopSegments <| .frame hs
  · exact .copyReady <| .stopSegments <| .frame hs

protected theorem outReset {out} (hs : Queued cmds s) : Queued cmds (outReset out s) := .frame hs

protected theorem resetWork {pt n} (hs : Queued cmds s) : Queued cmds (resetWork pt n s) := by
  unfold resetWork
  extract_lets _ _ _ _ _ s1 _ _ _ _ _ _ _ s1'
  have hs1 : Queued cmds s1 := .setSeq hs
  have hs1' : Queued cmds s1' := .frame hs
  split
  · exact .bypassUpdate hs
  · exact .frame hs
  · exact .applyDemand <| .frame hs
  · exact .frame hs
  · exact (.frame hs)
  · exact .frame hs
  · exact .frame hs
  · exact .frame hs
  · exact .frame <| .routerEnabled hs
  · exact .calEmpty hs
  · exact .ite (.sourceApplied hs1) hs1
  · exact .outReset hs
  · exact .outReset hs
  · exact .setRdi <| .foldl .setDemod (.foldl .dmReset hs)
  · exact .ladleEnabled <| .frame hs
  · exact .wrAll (.frame hs)
  · exact .setCap <| .frame hs
  · exact .frame hs
  · exact .restart <| .frame hs
  · exact .portPrbs <| .bypassUpdate <| .ringRefresh <| .frame <| .setRPort hs
  · exact .portPrbs <| .ite (.hostRefresh hs1') (.hostEnterMode hs1')
  · exact hs

protected theorem softReset {pg} (hs : Queued cmds s) : Queued cmds (softReset pg s) := by
  unfold softReset
  split
  · exact hs
  · extract_lets s0 s1 _ _ s4 s5
    have hs0 : Queued cmds s0 := .ite (.lineCatch hs) (.ite (.setOut hs) (.ite (.setOut hs) (.ite (.noteRate hs) hs)))
    have hs1 : Queued cmds s1 := .ite (.stopBlock hs0) hs0
    have hs4 : Queued cmds s4 := .frame <| .dropPageWork <| .calResetPage <| .ite (.cancelBranches hs1) hs1
    have hs5 : Queued cmds s5 := .ite (.standAsideWrite <| .releaseWrite hs4) hs4
    exact .ite (.setReg hs4) (.ite (.freed <| .resetWork <| .resetRegs hs5) (.resetWork <| .resetRegs hs5))

protected theorem fluxHandover {g} (hs : Queued cmds s) : Queued cmds (fluxHandover g s) := by
  unfold fluxHandover
  exact .foldl .setFlux (.resetRegs <| .foldl .parkHandover hs)

protected theorem seqRecheck {q} (hs : Queued cmds s) : Queued cmds (seqRecheck q s) := by
  unfold seqRecheck
  extract_lets img s1 s2
  have hs1 : Queued cmds s1 := .ite (.vendorSet <| .vendorCopy hs) hs
  exact .ite (.storeGood hs1) (.candidate_ <| .raiseFault <| .setSeq <| .frame hs1)

protected theorem softResetDone {pg} (hs : Queued cmds s) : Queued cmds (softResetDone pg s) := by
  unfold softResetDone
  split
  · exact hs
  · split
    · exact hs
    · extract_lets s1 _ s2 s3
      have hs1 : Queued cmds s1 := .ite (.fluxHandover hs) hs
      have hs2 : Queued cmds s2 := hs1.copyImages
      have hs3 : Queued cmds s3 := .ite (.exchangeWaiting hs2) hs2
      exact .frame <| .ite (.seqRecheck hs3) hs3

protected theorem pageLock {pg} (hs : Queued cmds s) : Queued cmds (pageLock pg s) := by
  unfold pageLock
  split
  exacts [hs, .wr hs]

protected theorem autoSel {pg} (hs : Queued cmds s) : Queued cmds (autoSel pg s) := by
  unfold autoSel
  exact .foldl (fun h => .ite (.pendSub h) h) hs

protected theorem forceSpareSel {pg} (hs : Queued cmds s) : Queued cmds (forceSpareSel pg s) := by
  unfold forceSpareSel
  split
  · exact .ite (.pendSub hs) hs
  · exact .pendSub hs
  · exact .pendSub hs
  · exact .pendSub hs
  · exact .pendSub hs
  · exact .ite (.pendSub hs) hs
  · exact .ite hs (.pendSub hs)
  · exact .thermSel hs
  · exact hs

protected theorem forcePrimarySel {pg} (hs : Queued cmds s) : Queued cmds (forcePrimarySel pg s) := by
  unfold forcePrimarySel
  split
  exacts [.thermSel hs, .ite (.frame hs) hs, hs]

protected theorem spareSelWrite {pg v} (hs : Queued cmds s) : Queued cmds (spareSelWrite pg v s) := by
  unfold spareSelWrite
  split
  · exact hs
  · extract_lets
    split
    · exact .ite (.wr hs) (.forceSpareSel <| .wr hs)
    · exact .forcePrimarySel <| .wr hs
    · exact .wr hs
    · exact .autoSel <| .wr hs

protected theorem pgFields {pg v} (hs : Queued cmds s) : Queued cmds (pgFields pg v s) := by
  unfold pgFields
  exact .ite
      (.enableBlock <| .spareSelWrite <| .ite (.pageLock hs) hs)
      (.disableBlock <| .spareSelWrite <| .ite (.pageLock hs) hs)

protected theorem pgCtrlWrite {pg v} (hs : Queued cmds s) : Queued cmds (pgCtrlWrite pg v s) :=
  .pgFields <| .ite (.softReset hs) hs

/-! ## Retire -/

protected theorem leaveLedger {p} (hs : Queued cmds s) : Queued cmds (leaveLedger p s) :=
  .raiseFault <| .raiseBit <| .setPort hs

protected theorem withdrawEffect {p} (hs : Queued cmds s) : Queued cmds (withdrawEffect p s) :=
  .ite (.withdrawUnit hs) hs

protected theorem settleOne {p} (hs : Queued cmds s) : Queued cmds (settleOne p s) := by
  unfold settleOne
  exact .withdrawEffect <| .ite (.leaveLedger <| .frame hs) (.frame hs)

protected theorem settleFreed {p} (hs : Queued cmds s) : Queued cmds (settleFreed p s) := .withdrawEffect <| .frame hs

protected theorem setChState {ch v} (hs : Queued cmds s) : Queued cmds (setChState ch v s) := .wr hs

protected theorem setRetStat {st ch mb} (hs : Queued cmds s) : Queued cmds (setRetStat st ch mb s) := .wrAll hs

protected theorem evacBegin (hs : Queued cmds s) : Queued cmds (evacBegin s) := by
  unfold evacBegin
  split
  exacts [hs, .ite (.setRetStat <| .setChState hs) hs]

protected theorem settleWithdrawn (hs : Queued cmds s) : Queued cmds (settleWithdrawn s) := by
  unfold settleWithdrawn
  exact .evacBegin <| .foldl .settleFreed (.foldl .settleOne hs)

protected theorem releaseNow (hs : Queued cmds s) : Queued cmds (releaseNow s) := .evacBegin <| .releasePort hs

protected theorem withdrawPort {p} (hs : Queued cmds s) : Queued cmds (withdrawPort s p) := by
  unfold withdrawPort
  exact .ite (.ite hs (.frame hs)) (.settleOne <| .ite hs (.frame hs))

protected theorem freePort {p} (hs : Queued cmds s) : Queued cmds (freePort p s) := by
  unfold freePort
  exact .ite (.leaveLedger <| .frame hs) (.settleFreed <| .leaveLedger <| .frame hs)

protected theorem shedLedger {cap : Nat} :
    ∀ {l : List Nat} {s : State}, Queued cmds s → Queued cmds (shedLedger cap l s)
  | [], _, hs => hs
  | _ :: _, _, hs => .ite hs (.ite (Queued.shedLedger <| .freePort hs) (Queued.shedLedger hs))

protected theorem withdrawAbove {limit} (hs : Queued cmds s) : Queued cmds (withdrawAbove limit s) :=
  .foldl .withdrawPort hs

protected theorem withdrawFor (hs : Queued cmds s) : Queued cmds (withdrawFor s) := by
  unfold withdrawFor
  exact .withdrawAbove <| .shedLedger hs

protected theorem retireChannel {ch mb} {s0 : State} (hs0 : Queued cmds s0) : Queued cmds (retireChannel ch mb s0)
    := by
  unfold retireChannel
  extract_lets s _ s1
  have hs : Queued cmds s := .ite hs0 (.withdrawFor hs0)
  have hs1 : Queued cmds s1 := (.frame hs)
  exact .raiseEvt <| .wr <| .setRetStat <| .setChState <| .finishSub hs1

protected theorem startRetire {ch} (hs : Queued cmds s) : Queued cmds (startRetire ch s) :=
  .evacBegin <| .withdrawFor <| .frame <| .setRetStat hs

protected theorem keepLast {ch} (hs : Queued cmds s) : Queued cmds (keepLast ch s) := .wr <| .frame hs

protected theorem retirementStart {ch} (hs : Queued cmds s) : Queued cmds (retirementStart ch s) :=
  .ite hs (.ite (.keepLast hs) (.ite (.frame hs) (.startRetire hs)))

protected theorem retireNext (hs : Queued cmds s) : Queued cmds (retireNext s) := by
  unfold retireNext
  split
  exacts [hs, .ite hs (.ite (.frame hs) (.ite (.keepLast <| .frame hs) (.startRetire <| .frame hs)))]

protected theorem evacuationDone (hs : Queued cmds s) : Queued cmds (evacuationDone s) := by
  unfold evacuationDone
  split
  exacts [hs, .ite (.retireNext <| .retireChannel hs) hs]

protected theorem abruptRetire {ch} (hs : Queued cmds s) : Queued cmds (abruptRetire s ch) := by
  unfold abruptRetire
  extract_lets s1 s2
  have hs1 : Queued cmds s1 := .ite (.withdrawAbove <| .shedLedger hs) (.withdrawFor hs)
  have hs2 : Queued cmds s2 := (.frame hs1)
  exact .raiseFault <| .retireChannel <| .logEvent hs2

protected theorem channelLoss {ch} (hs : Queued cmds s) : Queued cmds (channelLoss ch s) :=
  .ite hs (.retireNext <| .frame (by split; exacts [.abruptRetire hs, .foldl .abruptRetire (.frame hs)]))

/-! ## Reads -/

protected theorem readEffect {p pt n off v} (hs : Queued cmds s) : Queued cmds (readEffect p pt n off v s) := by
  unfold readEffect
  extract_lets
  split
  · exact .setRlatch <| .frame hs
  · split
    · exact .ite (.setRlatch <| .setRlatch <| .frame hs) (.frame hs)
    · exact .ite
          (.mtRead hs)
          (.ite
             (.ite (.frame hs) (.setRlatch <| .frame hs))
             (.ite (.tsuRead hs) (.ite (.frame <| .frame hs) (.frame hs))))
    · exact .ite (.frame <| .pwinReadDone <| .portDone hs) (.frame hs)
    · exact .ite (.frame <| .mapRead hs) (.frame hs)
    · exact .ite (.logRead hs) (.ite (.vimgDataAccess <| .portDone hs) (.frame hs))
    · exact .ite (.traceRead hs) (.frame hs)
    · exact .ite (.frame <| .slotAdvance hs) (.frame hs)
    · exact .ite (.frame <| .wr hs) (.frame hs)
    · refine .ite ?_ (.ite ?_ (.frame hs))
      · split
        exact .frame <| .of_pair ‹_› <| .freeDraw hs
      · split
        exact .frame <| .of_pair ‹_› <| .freeDraw hs
    · exact .frame hs

protected theorem blockWork {pt n} (hs : Queued cmds s) : Queued cmds (blockWork pt n s) := by
  unfold blockWork
  split
  · exact .seqTick hs
  · exact .outCatch hs
  · exact .outCatch hs
  · exact .fluxGroupCatch hs
  · exact .inputCatch hs
  · exact .ladleCatch hs
  · exact .seamCatch hs
  · exact .lineCatch hs
  · exact .rtCatch <| .ladleCatch hs
  · exact hs

protected theorem blockDone {b} (hs : Queued cmds s) : Queued cmds (blockDone s b) :=
  .blockWork <| .ite hs (.atTick .blockWork hs)

protected theorem allWork (hs : Queued cmds s) : Queued cmds (allWork s) := .foldl .blockDone (.laterCatch hs)

protected theorem blockCatch {pt n} (hs : Queued cmds s) : Queued cmds (blockCatch pt n s) := by
  unfold blockCatch
  split
  exacts [.allWork hs, .allWork hs, .blockDone hs]

protected theorem busRead {p a} {s0 : State} (hs0 : Queued cmds s0) : Queued cmds (busRead p a s0) := by
  unfold busRead
  extract_lets s
  have hs : Queued cmds s := by unfold s; split; exacts [.ite (.blockCatch hs0) hs0, hs0]
  refine .ite (.ite (.frame hs) (.earlyAcc <| .frame hs)) ?_
  split
  exacts [.frame hs, .ite (.earlyAcc <| .frame hs) (.readEffect hs)]

/-! ## Startup -/

/-- A module reset keeps some registers and images as they stand and the queue; all else is as at power-on. -/
protected theorem moduleReset {fresh mgmt cause ph} (hs : Queued cmds s) : Queued cmds (moduleReset fresh mgmt cause
    ph s) := by
  unfold moduleReset
  extract_lets lost _ _ _ s1
  have hs1 : Queued cmds s1 :=
    hs
  exact .wr <| .wr <| .wr <| .wr <| .foldl .setSeq hs1

protected theorem swrst {v} (hs : Queued cmds s) : Queued cmds (swrst v s) := .ite (.moduleReset hs) hs

protected theorem rstNAssert (hs : Queued cmds s) : Queued cmds (rstNAssert s) := by
  unfold rstNAssert
  exact .ite (.frame hs) (.frame <| .moduleReset <| .frame hs)

protected theorem rstNRelease {straps} (hs : Queued cmds s) : Queued cmds (rstNRelease straps s) := by
  unfold rstNRelease
  exact .ite (.frame hs) (.frame <| .frame hs)

protected theorem powerOn {straps} (hs : Queued cmds s) : Queued cmds (powerOn straps s) :=
  .ite hs (.frame <| .setReg <| .moduleReset hs)

protected theorem powerLoss (hs : Queued cmds s) : Queued cmds (powerLoss s) := by
  unfold powerLoss
  exact .frame <| .moduleReset hs

protected theorem shutdownExit (hs : Queued cmds s) : Queued cmds (shutdownExit s) :=
  .ite (.applyDemand <| .moduleReset hs) hs

protected theorem brownoutRestart (hs : Queued cmds s) : Queued cmds (brownoutRestart s) :=
  .ite (.applyDemand <| .moduleReset hs) hs

protected theorem peripheralReset (hs : Queued cmds s) : Queued cmds (peripheralReset s) := .wr <| .frame hs

protected theorem targetReset (hs : Queued cmds s) : Queued cmds (targetReset s) :=
  .ite (.peripheralReset hs) (.ite (.frame <| .moduleReset hs) hs)

protected theorem targetDone (hs : Queued cmds s) : Queued cmds (targetDone s) := by
  unfold targetDone
  exact .ite (.frame hs) (.ite (.frame <| .frame hs) (.requestIbi <| .frame <| .frame hs))

protected theorem applyEntry {e} (hs : Queued cmds s) : Queued cmds (applyEntry s e) := by
  unfold applyEntry
  extract_lets kind _ _ _ _ _ s1
  have hs1 : Queued cmds s1 := .wr <| .setWear hs
  clear_value s1 kind
  refine .ite hs ?_
  split
  · exact .wr <| .wr <| .setRole <| .setRole hs1
  · exact .wr <| .bump hs1
  · exact .ite hs1 (.wr <| .setChState <| .frame hs1)
  · exact hs1
  · exact .serveUnit hs1

protected theorem phaseNvm (hs : Queued cmds s) : Queued cmds (phaseNvm s) := .wr <| .foldl .applyEntry (.frame hs)

protected theorem selfTest {rows} (hs : Queued cmds s) : Queued cmds (selfTest rows s) := .foldl .candidate_ hs

protected theorem phaseConverters {rows} (hs : Queued cmds s) : Queued cmds (phaseConverters rows s) := by
  unfold phaseConverters
  extract_lets _ s1 u b t s2 s3
  have hs1 : Queued cmds s1 := .foldl .fluxHandover (.foldl .fluxOn hs)
  have hu : Queued cmds u := .selfTest hs1
  have ht : Queued cmds t := .exchangeWaiting (.foldl .copyImage hs1)
  have hclear (b' : Boot) : Queued cmds { u with
      stores := [], accepted := [], gWait := none, committed := [], unchecked := [], boot := b' } := by
    clear_value u
    exact (.frame hu)
  have hs2 : Queued cmds s2 := .ite (hclear _) (.wrAll ht)
  clear_value s2
  have hs3 : Queued cmds s3 := .setDoms hs2
  exact .ite hs3 (.vendorLoad hs3)

protected theorem phaseTraining {bad} (hs : Queued cmds s) : Queued cmds (phaseTraining bad s) := by
  unfold phaseTraining
  exact .foldl (fun h => .abruptRetire <| .raiseFault h) (.foldl (fun h => .ite h (.setChState h)) hs)

protected theorem phaseEnds {ph bad rows} (hs : Queued cmds s) : Queued cmds (phaseEnds ph bad rows s) := by
  unfold phaseEnds
  split
  exacts [.applyDemand hs, .phaseNvm hs, .wr hs, .phaseConverters hs, .phaseTraining hs, hs]

protected theorem phaseBegins {ph} (hs : Queued cmds s) : Queued cmds (phaseBegins ph s) := by
  unfold phaseBegins
  exact .ite (.wr <| .wr hs) (.wr hs)

protected theorem startupPhaseDone {ok bad rows} (hs : Queued cmds s) : Queued cmds (startupPhaseDone ok bad rows s)
    := by
  unfold startupPhaseDone
  exact .ite hs
      (.ite hs
         (.ite (.logEvent <| .wr hs) (.ite (.bypassUpdate <| .wr <| .phaseEnds hs) (.phaseBegins <| .phaseEnds hs))))

protected theorem refInValid (hs : Queued cmds s) : Queued cmds (refInValid s) := .wr <| .refReturn hs

/-! ## Writes -/

protected theorem portWrite {p a place} {put : Nat → Word → State → State} {next : Word → State → State} {v} (hput :
    ∀ {x1 x2 t}, Queued cmds t → Queued cmds (put x1 x2 t)) (hnext : ∀ {x1 t}, Queued cmds t → Queued cmds (next x1 t))
    (hs : Queued cmds s) : Queued cmds (portWrite p a place put next v s) := by
  unfold portWrite
  exact .ite (.frame <| .foldl hput (hnext hs)) (.foldl hput (hnext hs))

protected theorem pwinWriteBy {p v} (hs : Queued cmds s) : Queued cmds (pwinWriteBy p v s) := by
  unfold pwinWriteBy
  exact .portWrite (fun h => .ite (.changePut h) h) .pwinWrite hs

protected theorem vimgWriteBy {p v} (hs : Queued cmds s) : Queued cmds (vimgWriteBy p v s) :=
  .portWrite (fun h => .ite (.vimgPut h) h) .vimgDataAccess hs

protected theorem vimgAccess {v} (hs : Queued cmds s) : Queued cmds (vimgAccess v s) := by
  unfold vimgAccess
  split
  exacts [.vimgWriteBy hs, .vimgDataAccess <| .portDone hs]

protected theorem clearW1c {a mask v} (hs : Queued cmds s) : Queued cmds (clearW1c a mask v s) := .ite hs (.setReg hs)

protected theorem plainWrite {pt n off v} (hs : Queued cmds s) : Queued cmds (plainWrite pt n off v s) := by
  unfold plainWrite
  split
  · exact hs
  · exact .ite
        (.ite (.clearW1c hs) (.applyBits <| .clearW1c hs))
        (.shadowWrite <| .ite (.clearW1c hs) (.applyBits <| .clearW1c hs))

/-- The actions of a register's bits. -/
protected theorem bitActs {v : Word} {acts : List (Nat × (State → State))}
    (hacts : acts.Forall (fun | (_, f) => ∀ {t}, Queued cmds t → Queued cmds (f t))) (hs : Queued cmds s) :
    Queued cmds (bitActs v acts s) :=
  .foldl_mem (fun a ha _ ht => .ite (List.forall_iff_forall_mem.1 hacts a ha ht) ht) hs

protected theorem sysWrite {off v} (hs : Queued cmds s) : Queued cmds (sysWrite off v s) := by
  unfold sysWrite
  split
  exacts [.swrst hs, .standAsideWrite <| .releaseWrite hs, .plainWrite hs]

protected theorem mgmtWrite {off v} (hs : Queued cmds s) : Queued cmds (mgmtWrite off v s) := by
  unfold mgmtWrite
  exact .ite (.pwinPrefetch <| .plainWrite <| .ite (.portDone hs) hs) (.plainWrite <| .ite (.portDone hs) hs)

protected theorem pwrWrite {off v} (hs : Queued cmds s) : Queued cmds (pwrWrite off v s) := by
  unfold pwrWrite
  exact .ite (.applyDemand <| .plainWrite hs) (.plainWrite hs)

protected theorem nvmWrite {off v} (hs : Queued cmds s) : Queued cmds (nvmWrite off v s) := by
  unfold nvmWrite
  split
  · exact .logClear hs
  · exact .bitActs ⟨.vimgDiscard, .vimgVerify, .vimgInstall, .vimgLoad⟩ hs
  · exact .plainWrite <| .ite (.portDone hs) hs

protected theorem healthWrite {off v} (hs : Queued cmds s) : Queued cmds (healthWrite off v s) :=
  .ite (.hmClear hs) (.ite (.hmCfgWrite hs) (.plainWrite hs))

protected theorem policyOn {k} (hs : Queued cmds s) : Queued cmds (policyOn k s) := by
  unfold policyOn
  exact .foldl (fun h => .ite (.pendSub h) h) hs

protected theorem spareWrite {off v} (hs : Queued cmds s) : Queued cmds (spareWrite off v s) :=
  .ite (.bitActs .mapClear hs) (.ite (.ite (.policyOn <| .plainWrite hs) (.plainWrite hs)) (.plainWrite hs))

protected theorem monWrite {off v} (hs : Queued cmds s) : Queued cmds (monWrite off v s) := by
  unfold monWrite
  split
  · exact .ite (.plainWrite hs) (.setMon <| .plainWrite hs)
  · exact .bitActs ⟨.scalZero, .scalFull⟩ hs
  · exact .ite (.setMon <| .plainWrite hs) (.plainWrite hs)

protected theorem timeWrite {off v} (hs : Queued cmds s) : Queued cmds (timeWrite off v s) := by
  unfold timeWrite
  extract_lets s1
  have hs1 : Queued cmds s1 := .plainWrite <| .ite (.noteRate hs) hs
  split
  · exact .bitActs ⟨.alignArm, .mtStep, .servoRst⟩ hs
  · exact .servoOfs hs
  · exact .bitActs .rxqPop (.plainWrite hs)
  · exact .bitActs .rxqPop (.plainWrite hs)
  · exact .ite (.frame hs1) hs1

protected theorem tbusWrite {off v} (hs : Queued cmds s) : Queued cmds (tbusWrite off v s) := by
  unfold tbusWrite
  exact .ite (.frame <| .plainWrite hs) (.plainWrite hs)

protected theorem evtWrite {off v} (hs : Queued cmds s) : Queued cmds (evtWrite off v s) :=
  .ite (.fireWrite hs) (.ite (.lineDisWrite hs) (.plainWrite hs))

protected theorem crcWrite {p off v} (hs : Queued cmds s) : Queued cmds (crcWrite p off v s) :=
  .ite
    (by
       extract_lets
       split
       exacts [.ctxCfgWrite <| .feedsDone hs, .ctxValWrite <| .feedsDone hs, .feedOrdered hs, hs])
    (.ite (.feedOrdered hs) (.plainWrite hs))

protected theorem calWrite {off v} (hs : Queued cmds s) : Queued cmds (calWrite off v s) := by
  unfold calWrite
  extract_lets s1
  have hs1 : Queued cmds s1 := .plainWrite hs
  refine .ite (.ite (.calKick hs1) hs1) ?_
  split
  exacts [.ite (.bitActs ⟨.submit, .clearSlot, .cancelSlot⟩ hs) hs, .ite hs (.plainWrite hs)]

protected theorem seqCfgWrite {q v} (hs : Queued cmds s) : Queued cmds (seqCfgWrite q v s) := by
  unfold seqCfgWrite
  exact .ite
      (.shadowWrite hs)
      (.ite
         (.raiseEvt <| .shadowWrite hs)
         (.seqModeWrite <|
            .calKick <| .freed <| .gated .wr (.ite (.fluxGroupPark <| .shadowWrite hs) (.shadowWrite hs))))

protected theorem seqWrite {p q off v} (hs : Queued cmds s) : Queued cmds (seqWrite p q off v s) := by
  unfold seqWrite
  split
  · exact hs
  · split
    · exact .seqCfgWrite hs
    · exact .ite hs (.plainWrite hs)
    · exact .bitActs ⟨.commitReg, .discardStore⟩ hs
    · exact .softRequest hs
    · exact .bitActs .shotGo hs
    · exact .plainWrite hs

protected theorem loadCtrl {p b v} (hs : Queued cmds s) : Queued cmds (loadCtrl p b v s) :=
  .bitActs ⟨.commitReg, .discardStore⟩ hs

protected theorem outWrite {p out off v} (hs : Queued cmds s) : Queued cmds (outWrite p out off v s) := by
  unfold outWrite
  split
  exact .ite (.shadowWrite <| .muteWrite hs) (.ite (.loadCtrl hs) (.ite hs (.plainWrite hs)))

protected theorem rdiWrite {p n off v} (hs : Queued cmds s) : Queued cmds (rdiWrite p n off v s) :=
  .ite (.loadCtrl hs) (.plainWrite hs)

protected theorem flxWrite {p g off v} (hs : Queued cmds s) : Queued cmds (flxWrite p g off v s) :=
  .ite
    (.loadCtrl hs)
    (.ite (.shadowWrite <| .parkNowWrite hs) (.ite (.shadowWrite <| .bitActs .pdClrWrite hs) (.plainWrite hs)))

protected theorem ladleWrite {off v} (hs : Queued cmds s) : Queued cmds (ladleWrite off v s) := by
  unfold ladleWrite
  refine .ite (.dchWrite hs) ?_
  split
  · exact .bitActs ⟨.clrEntriesNow, .clrLost⟩ hs
  · exact .slotBindWrite hs
  · exact .slotCfgWrite hs
  · exact .plainWrite hs

protected theorem mortarWrite {p off v} (hs : Queued cmds s) : Queued cmds (mortarWrite p off v s) := by
  unfold mortarWrite
  split
  exacts [.bitActs ⟨.commitGraph, .discardGraph⟩ hs, .plainWrite hs]

protected theorem capWrite {u off v} (hs : Queued cmds s) : Queued cmds (capWrite u off v s) := by
  unfold capWrite
  extract_lets s1
  have hs1 : Queued cmds s1 := .plainWrite hs
  exact .ite
      (.bitActs ⟨.armUnit, .abortUnit, .clrCapCounts⟩ hs)
      (.ite hs (.ite (.ite (.egrOpen hs1) hs1) (.ite hs (.plainWrite hs))))

protected theorem portSet {f : Port → Port} (hs : Queued cmds s) : Queued cmds (portSet s f) := by
  unfold portSet
  exact .ite hs (.setPort hs)

protected theorem pantryWrite {off v} (hs : Queued cmds s) : Queued cmds (pantryWrite off v s) := by
  unfold pantryWrite
  extract_lets
  split
  · exact .portSet hs
  · exact .portSet hs
  · exact .portSet hs
  · exact .portSet hs
  · exact .bitActs ⟨.admitPort, .releaseNow⟩ hs
  · exact .ite (.setPort hs) hs
  · exact .ite (.mapMaskWrite hs) (.plainWrite hs)

protected theorem laneCfgWrite {n v} (hs : Queued cmds s) : Queued cmds (laneCfgWrite n v s) := by
  unfold laneCfgWrite
  exact .ite (.raiseEvt hs) (.readyRefresh <| .laneChange .plainWrite hs)

protected theorem laneWrite {n off v} (hs : Queued cmds s) : Queued cmds (laneWrite n off v s) := by
  unfold laneWrite
  split
  · exact .laneCfgWrite hs
  · exact .laneChange .plainWrite hs
  · exact .prbsErrWrite hs
  · exact .bitActs ⟨.slip, .restart, .prbsClr⟩ hs
  · exact .plainWrite hs

protected theorem ringWrite {r off v} (hs : Queued cmds s) : Queued cmds (ringWrite r off v s) := by
  unfold ringWrite
  split
  exacts [.ite (.ringAddrWrite hs) hs, .plainWrite hs]

protected theorem hostWrite {h off v} (hs : Queued cmds s) : Queued cmds (hostWrite h off v s) := by
  unfold hostWrite
  split
  exacts [.hostModeWrite <| .plainWrite hs, .fecWrite hs, .plainWrite hs]

protected theorem commonWrite {pg pt n off v} (hs : Queued cmds s) : Queued cmds (commonWrite pg pt n off v s) :=
  .ite (.pgCtrlWrite hs) (.ite (.notePending <| .plainWrite hs) (.plainWrite hs))

protected theorem pageWrite {p pg pt n off v} (hs : Queued cmds s) : Queued cmds (pageWrite p pg pt n off v s) := by
  unfold pageWrite
  split
  · exact .commonWrite hs
  · split
    · exact hs
    · split
      · exact .sysWrite hs
      · exact .ite (.pwinWriteBy hs) (.mgmtWrite hs)
      · exact .pwrWrite hs
      · exact .ite (.vimgWriteBy hs) (.nvmWrite hs)
      · exact .healthWrite hs
      · exact .spareWrite hs
      · exact .monWrite hs
      · exact .timeWrite hs
      · exact .tbusWrite hs
      · exact .evtWrite hs
      · exact .crcWrite hs
      · exact .calWrite hs
      · exact .seqWrite hs
      · exact .outWrite hs
      · exact .outWrite hs
      · exact .rdiWrite hs
      · exact .flxWrite hs
      · exact .ladleWrite hs
      · exact .mortarWrite hs
      · exact .capWrite hs
      · exact .pantryWrite hs
      · exact .laneWrite hs
      · exact .ringWrite hs
      · exact .hostWrite hs
      · exact .plainWrite hs
      · exact .plainWrite hs
      · exact .plainWrite hs

protected theorem setWlatch {p a v} (hs : Queued cmds s) : Queued cmds (setWlatch p a v s) := .frame hs

protected theorem pathWrite {p pg pt n off v} (hs : Queued cmds s) : Queued cmds (pathWrite p pg pt n off v s) :=
  .ite (.setWlatch hs) (.ite (.pageWrite <| .pageWrite hs) (.pageWrite hs))

protected theorem noteWrite {p a} (hs : Queued cmds s) : Queued cmds (noteWrite p a s) := .ite (.frame hs) hs

protected theorem orderedWrite {p pg pt n off v} (hs : Queued cmds s) : Queued cmds (orderedWrite p pg pt n off v s)
    := by
  unfold orderedWrite
  exact .ite (.pathWrite hs) (.ite (.ite hs (.pathWrite hs)) (.noteWrite <| .pathWrite hs))

protected theorem pgPart {p pg} {f : State → State} (hf : ∀ {t}, Queued cmds t → Queued cmds (f t)) (hs : Queued
    cmds s) : Queued cmds (pgPart p pg f s) := by
  unfold pgPart
  exact .ite hs (.noteWrite <| hf (by split; exacts [.blockCatch hs, hs]))

protected theorem lockPart {p pg} (hs : Queued cmds s) : Queued cmds (lockPart p pg s) := .noteWrite <| .pageLock hs

protected theorem busWrite {p a v} (hs : Queued cmds s) : Queued cmds (busWrite p a v s) :=
  .ite
    (.ite (.apertureWrite hs) (.earlyAcc hs))
    (by split; exacts [hs, .ite (.orderedWrite <| .blockCatch hs) (.earlyAcc hs)])

/-! ## Outcome -/

protected theorem whenPath {p} {f : State → State} (hf : ∀ {t}, Queued cmds t → Queued cmds (f t)) (hs : Queued cmds
    s) : Queued cmds (whenPath p f s) :=
  .ite (hf hs) hs

protected theorem onPage {pg} {f : State → State} (hf : ∀ {t}, Queued cmds t → Queued cmds (f t)) (hs : Queued cmds
    s) : Queued cmds (onPage pg f s) := by
  unfold onPage
  split
  exacts [hs, .ite (hf hs) (.earlyAcc hs)]

protected theorem wordWrite {p a v} (hs : Queued cmds s) : Queued cmds (wordWrite p a v s) := .ite (.busWrite hs) hs

protected theorem apertureWord_ {p a v} (hs : Queued cmds s) : Queued cmds (apertureWord_ p a v s) :=
  .ite (.wordWrite hs) hs

/-! ## Host -/

protected theorem setHPort {h x} (hs : Queued cmds s) : Queued cmds (setHPort h x s) := .frame hs

protected theorem bulkSend {h node msgid reply bytes} (hs : Queued cmds s) : Queued cmds (bulkSend h node msgid
    reply bytes s) := by
  unfold bulkSend
  extract_lets
  split
  exact .ite (.of_pair ‹_› <| .freeDraw hs) (.setRPort <| .of_pair ‹_› <| .freeDraw hs)

protected theorem sendReply {h r} (hs : Queued cmds s) : Queued cmds (sendReply h s r) :=
  .ite hs (by extract_lets; split; exacts [.setHPort <| .emit hs, .bulkSend hs])

protected theorem dropReqs {r} (hs : Queued cmds s) : Queued cmds (dropReqs s r) := by
  unfold dropReqs
  split
  exacts [.frame hs, hs]

protected theorem flushReplies {h} (hs : Queued cmds s) : Queued cmds (flushReplies h s) := by
  unfold flushReplies
  exact .foldl (fun h => .dropReqs <| .sendReply h) (.setHPort hs)

protected theorem addReply {h r} (hs : Queued cmds s) : Queued cmds (addReply h r s) := by
  unfold addReply
  exact .flushReplies <| .setHPort hs

protected theorem storePut {p space b off bs} (hs : Queued cmds s) : Queued cmds (storePut p space b off bs s).2 :=
  .ite_snd hs
    (.ite_snd
       (.vimgPut hs)
       (.ite_snd
          (.stageGraph hs)
          (.ite_snd (.ite_snd hs (.stageBytes hs)) (.stageBytes <| .ite_snd hs (.stageBytes hs)))))

protected theorem writeWords {p : Path} :
    ∀ {n a : Nat} {bs : List Byte} {s : State}, Queued cmds s → Queued cmds (writeWords p n a bs s)
  | 0, _, _, _, hs => hs
  | n + 1, _, _, _, hs => Queued.writeWords (n := n) (.busWrite hs)

protected theorem readWords {p : Path} :
    ∀ {n a : Nat} {s : State}, Queued cmds s → Queued cmds (readWords p n a s).2
  | 0, _, _, hs => hs
  | n + 1, _, _, hs => Queued.readWords (n := n) (.busRead hs)

protected theorem pantryRun {h : Nat} {read : Bool} :
    ∀ {n a left : Nat} {bs : List Byte} {s : State}, Queued cmds s → Queued cmds (pantryRun h read n a left bs s)
  | 0, _, _, _, _, hs => hs
  | _ + 1, _, _, _, _, hs => .ite hs (Queued.pantryRun <| .acceptRequest hs)

protected theorem dxExec {h q} (hs : Queued cmds s) : Queued cmds (dxExec h q s).2 := by
  unfold dxExec
  extract_lets
  split
  · exact .ite_snd hs (.writeWords hs)
  · exact .ite_snd hs (.readWords hs)
  · split
    exacts [.ite_snd hs (.storePut hs), hs]
  · split
    exacts [.ite_snd (.commitGraph hs) (.commitStore hs), hs]
  · split
    exacts [.ite_snd (.discardGraph hs) (.discardStore hs), hs]
  · split
    exacts [.ite_snd hs hs, hs]
  · exact .ite_snd hs (.pantryRun hs)
  · exact .ite_snd hs (.pantryRun hs)
  · exact hs

protected theorem badOp {h q} (hs : Queued cmds s) : Queued cmds (badOp h q s) := .addReply <| .bump hs

protected theorem dxHere {h q} (hs : Queued cmds s) : Queued cmds (dxHere h q s) :=
  .ite (.badOp hs) (by extract_lets; split; exacts [.addReply <| .dxExec hs, .dxExec hs])

protected theorem tunnelOut {h m q} (hs : Queued cmds s) : Queued cmds (tunnelOut h m q s) := by
  unfold tunnelOut
  exact .ite (.addReply <| .bulkSend <| .setHPort hs) (.bulkSend <| .setHPort hs)

protected theorem takeRequest {h src} (hs : Queued cmds s) : Queued cmds (takeRequest h src s) := by
  unfold takeRequest
  exact .setHPort <| .wr hs

protected theorem dxRun {h src q} (hs : Queued cmds s) : Queued cmds (dxRun h src q s) :=
  .ite (by split; exacts [.tunnelOut <| .takeRequest hs, .setHPort hs]) (.dxHere <| .takeRequest hs)

protected theorem dxArrive {h src q} (hs : Queued cmds s) : Queued cmds (dxArrive h src q s) :=
  .ite hs (.ite (.raiseEvt <| .bump <| .takeRequest hs) (.ite (.setHPort hs) (.dxRun hs)))

protected theorem runStalled {h : Nat} : ∀ {n : Nat} {s : State}, Queued cmds s → Queued cmds (runStalled h n s)
  | 0, _, hs => hs
  | n + 1, s, hs => by
    unfold runStalled
    extract_lets
    split
    · exact hs
    · exact .ite hs (Queued.runStalled <| .dxRun <| .setHPort hs)

protected theorem filtered {h} (hs : Queued cmds s) : Queued cmds (filtered h s) := .ite (.bump hs) hs

protected theorem request {h hd op addr len bytes} (hs : Queued cmds s) : Queued cmds (request h hd op addr len
    bytes s) :=
  .ite (.dxArrive hs) (.filtered hs)

protected theorem badOpRequest {h hd op addr} (hs : Queued cmds s) : Queued cmds (badOpRequest h hd op addr s) :=
  .ite hs (.ite (.filtered hs) (.dxArrive hs))

protected theorem tunnelEnds {h m node status data} (hs : Queued cmds s) : Queued cmds (tunnelEnds h m node status
    data s) := by
  unfold tunnelEnds
  exact .runStalled <| .flushReplies <| .setHPort hs

protected theorem tunnelIn {x} (hs : Queued cmds s) : Queued cmds (tunnelIn s x) := by
  unfold tunnelIn
  exact .ite (.tunnelEnds hs) (.ite hs (.dxHere hs))

protected theorem takeInbox (hs : Queued cmds s) : Queued cmds (takeInbox s) := .foldl .tunnelIn (.frame hs)

protected theorem unreach {h m} (hs : Queued cmds s) : Queued cmds (unreach h m s) := by
  unfold unreach
  split
  exacts [by split; exacts [.tunnelEnds <| .raiseEvt hs, hs], hs]

protected theorem requestServed {id corr retries uncorr} (hs : Queued cmds s) : Queued cmds (requestServed id corr
    retries uncorr s) :=
  .flushReplies <| .flushReplies <| .pantryRequestDone hs

protected theorem pantryReadTimeout {h tag} (hs : Queued cmds s) : Queued cmds (pantryReadTimeout h tag s) := by
  unfold pantryReadTimeout
  extract_lets
  split
  exacts [hs, .flushReplies <| .setHPort <| .frame hs]

protected theorem credit {h} (hs : Queued cmds s) : Queued cmds (credit h s) := by
  unfold credit
  extract_lets
  split
  exacts [.ite (.setHPort <| .daxkaSend hs) hs, hs]

protected theorem moduleOnlyFrame {h op} (hs : Queued cmds s) : Queued cmds (moduleOnlyFrame h op s) :=
  .ite (.bump hs) hs

protected theorem hostFrameDiscard {h why} (hs : Queued cmds s) : Queued cmds (hostFrameDiscard h why s) :=
  .ite hs (by split; exacts [.bump hs, .bump hs, .bump hs])

protected theorem arpRequest {h src ip} (hs : Queued cmds s) : Queued cmds (arpRequest h src ip s) :=
  .ite (.emit hs) hs

protected theorem neighbourSolicitation {h src ip} (hs : Queued cmds s) : Queued cmds (neighbourSolicitation h src
    ip s) :=
  .ite (.emit hs) hs

/-! ## Control -/

protected theorem setI3c {x} (hs : Queued cmds s) : Queued cmds (setI3c x s) := .frame hs

protected theorem i3cFlag {i} (hs : Queued cmds s) : Queued cmds (i3cFlag i s) := .raiseBit hs

protected theorem i3cReply {bs} (hs : Queued cmds s) : Queued cmds (i3cReply bs s) := .setI3c hs

protected theorem i3cNack (hs : Queued cmds s) : Queued cmds (i3cNack s) := .setI3c hs

protected theorem i3cWords :
    ∀ {n a : Nat} {bs : List Byte} {s : State}, Queued cmds s → Queued cmds (i3cWords n a bs s)
  | 0, _, _, _, hs => hs
  | n + 1, _, _, _, hs => Queued.i3cWords (n := n) <| .busWrite hs

protected theorem privateWrite {good bytes} (hs : Queued cmds s) : Queued cmds (privateWrite good bytes s) := by
  unfold privateWrite
  extract_lets _ _ _ _ _ s1 _ s2 s3
  have hs1 : Queued cmds s1 := .i3cWords hs
  have hs2 : Queued cmds s2 := .ite (.setI3c hs1) hs1
  have hs3 : Queued cmds s3 := .ite (.i3cFlag hs2) hs2
  exact .ite (.i3cFlag hs) (.ite (.i3cFlag hs) (.ite (.i3cFlag hs) (.ite (.i3cFlag hs3) hs3)))

protected theorem wordReady {a} (hs : Queued cmds s) : Queued cmds (wordReady a s).2 :=
  .ite_snd hs (.ite_snd (by split; exact .of_pair ‹_› <| .freeDraw hs) hs)

/-- A read that goes on word by word. -/
theorem i3cRead : ∀ {n : Nat} {s : State}, Queued cmds s → Queued cmds (i3cRead n s).2.2
  | 0, _, hs => hs
  | n + 1, s, hs => by
    unfold Machine.i3cRead
    split
    have hs0 := Queued.of_pair ‹_› <| .wordReady hs
    split
    exacts [.i3cFlag hs0, Queued.i3cRead <| .setI3c <| .busRead hs0]

protected theorem privateRead {nbytes} (hs : Queued cmds s) : Queued cmds (privateRead nbytes s) := by
  unfold privateRead
  extract_lets m
  split
  rename_i s1 e
  have hs1 : Queued cmds s1 := by
    have h : Queued cmds (Machine.i3cRead (m / 4) s).2.2 := .i3cRead hs
    rwa [e] at h
  refine .ite (.i3cReply hs1) ?_
  split
  have hs2 := Queued.of_pair ‹_› <| .wordReady hs1
  exact .ite (.i3cReply <| .i3cFlag hs2) (.i3cReply hs2)

protected theorem pwinDataRead (hs : Queued cmds s) : Queued cmds (pwinDataRead s) :=
  .ite (.i3cFlag <| .i3cReply hs) (.i3cReply <| .pwinRead hs)

protected theorem addressed {f : State → State} (hf : ∀ {t}, Queued cmds t → Queued cmds (f t)) (hs : Queued cmds s)
    : Queued cmds (addressed f s) :=
  .ite (hf hs) (.i3cNack hs)

protected theorem broadcast {f : State → State} (hf : ∀ {t}, Queued cmds t → Queued cmds (f t)) (hs : Queued cmds s)
    : Queued cmds (broadcast f s) :=
  .ite hs (hf hs)

protected theorem setAddr {a} (hs : Queued cmds s) : Queued cmds (setAddr a s) := .wr hs

protected theorem entdaa {a} (hs : Queued cmds s) : Queued cmds (entdaa a s) := .ite hs (.i3cReply <| .setAddr hs)

protected theorem setdasa {static a} (hs : Queued cmds s) : Queued cmds (setdasa static a s) :=
  .ite (.i3cNack hs) (.i3cReply <| .setAddr hs)

protected theorem setnewda {a} (hs : Queued cmds s) : Queued cmds (setnewda a s) := .i3cReply <| .setAddr hs

protected theorem rstdaa (hs : Queued cmds s) : Queued cmds (rstdaa s) := .wr hs

protected theorem enec (hs : Queued cmds s) : Queued cmds (enec s) := by
  unfold enec
  exact .ite (.setI3c hs) (.requestIbi <| .setI3c hs)

protected theorem disec (hs : Queued cmds s) : Queued cmds (disec s) := .setI3c hs

protected theorem setmwl {n} (hs : Queued cmds s) : Queued cmds (setmwl n s) := .setI3c hs

protected theorem setmrl {n} (hs : Queued cmds s) : Queued cmds (setmrl n s) := .setI3c hs

protected theorem freeReply {n} (hs : Queued cmds s) : Queued cmds (freeReply n s) := by
  unfold freeReply
  split
  exact .i3cReply <| .of_pair ‹_› <| .freeDraw hs

protected theorem rstact {b} (hs : Queued cmds s) : Queued cmds (rstact b s) :=
  .ite (.i3cNack hs) (.ite (.i3cReply <| .setI3c hs) (.ite (.i3cReply hs) (.ite (.i3cReply hs) (.i3cNack hs))))

protected theorem unsupportedCcc {direct} (hs : Queued cmds s) : Queued cmds (unsupportedCcc direct s) :=
  .ite (.addressed (fun h => .i3cNack <| .i3cFlag h) hs) (.broadcast .i3cFlag hs)

protected theorem ibiDelivered {s0 : State} (hs0 : Queued cmds s0) : Queued cmds (ibiDelivered s0) := by
  unfold ibiDelivered
  exact .ite (.allWork hs0) (.i3cReply <| .setI3c <| .allWork hs0)

protected theorem shedLevel {high} (hs : Queued cmds s) : Queued cmds (shedLevel high s) :=
  .ite (.shedPin hs) (.frame hs)

/-! ## Shots -/

protected theorem syncLine (hs : Queued cmds s) : Queued cmds (syncLine s) := by
  unfold syncLine
  exact .foldl .startAt (.fireLine <| .passTo hs)

protected theorem openBlocks {t q} (hs : Queued cmds s) : Queued cmds (openBlocks t s q) :=
  .ite (.ite (.foldl .toneOpen hs) (.foldl .dmOpen (.foldl .toneOpen hs))) (.ite (.foldl .fluxTakeOver hs) hs)

protected theorem lateMember {q} (hs : Queued cmds s) : Queued cmds (lateMember s q) :=
  .silenceSeq <| .raiseEvt <| .setSeq hs

protected theorem memberCatch {g} (hs : Queued cmds s) : Queued cmds (memberCatch g s) :=
  .foldl (fun h => .ite (.outCatch h) (.ite (.fluxGroupCatch h) h)) hs

protected theorem shotOpen {g} (hs : Queued cmds s) : Queued cmds (shotOpen g s) := by
  unfold shotOpen
  extract_lets
  split
  · exact hs
  · extract_lets _ s0
    have hs0 : Queued cmds s0 := .memberCatch <| .passTo hs
    split
    · exact hs
    · split
      · exact .startOverrun <| .setGroup hs0
      · exact .mortarOpen <|
            .ladleOpen <|
              .foldl .openSeq
                (.foldl .openBlocks
                   (.foldl .lateMember (.foldl .setSeq (.foldl .clearLatches (.wrPair <| .frame <| .setGroup hs0)))))

protected theorem lastWritten {g} (hs : Queued cmds s) : Queued cmds (lastWritten g s) := by
  unfold lastWritten
  split
  exacts [.ladleCatch <| .passTo hs, hs]

protected theorem toEnd {q} (hs : Queued cmds s) : Queued cmds (toEnd q s) := by
  unfold toEnd
  extract_lets
  split
  exacts [.seqTick <| .passTo <| .toNextPlay hs, .toNextPlay hs]

protected theorem finishParts {g} (hs : Queued cmds s) : Queued cmds (finishParts g s) := .ite (.foldl .toEnd hs) hs

protected theorem shotClose {g} {s00 : State} (hs00 : Queued cmds s00) : Queued cmds (shotClose g s00) := by
  unfold shotClose
  exact .ite
      (.finishParts hs00)
      (.noteRaised <| .wr <| .wr <| .foldl .setSeq (.setGroup <| .mortarClose <| .lastWritten <| .finishParts hs00))

protected theorem copyRegion {q sp} (hs : Queued cmds s) : Queued cmds (copyRegion q sp s) := .frame hs

protected theorem spareSeqIn {q sp} (hs : Queued cmds s) : Queued cmds (spareSeqIn q sp s) := by
  unfold spareSeqIn
  extract_lets s1 _ s2
  have hs1 : Queued cmds s1 := .copyRegion hs
  have hs2 : Queued cmds s2 := .ite (.setSeq hs1) hs1
  exact .ite hs2 (.vendorSet <| .foldl .vendorCopy hs2)

protected theorem makeSub {u} (hs : Queued cmds s) : Queued cmds (makeSub s u) := by
  unfold makeSub
  extract_lets
  split
  · exact .raiseFault <| .setSpareState <| .setWear <| .frame hs
  · split
    · exact .ite (.finishSub <| .spareSeqIn <| .serveUnit hs) hs
    · exact .finishSub <| .serveUnit hs
    · exact .finishSub <| .serveUnit hs

protected theorem healthOk {kind ins} (hs : Queued cmds s) : Queued cmds (healthOk kind ins s).2 := by
  unfold healthOk
  exact .ite_snd hs (by split; exact .of_pair ‹_› <| .freeDraw hs)

protected theorem spareBack {kind n pt i} (hs : Queued cmds s) : Queued cmds (spareBack kind n pt i s) := by
  unfold spareBack
  exact .wr <| .wr <| .wr hs

protected theorem returnPage {pg} (hs : Queued cmds s) : Queued cmds (returnPage s pg) := by
  unfold returnPage
  extract_lets s0
  have hs0 : Queued cmds s0 := .frame hs
  split
  · split
    · exact hs0
    · split
      · exact .ite (.spareBack <| .unitBack <| .setReg <| .of_pair ‹_› <| .healthOk hs0) (.of_pair ‹_› <| .healthOk hs0)
  · refine .ite hs0 ?_
    split
    · exact .ite (.spareBack <| .unitBack <| .wrAll <| .of_pair ‹_› <| .healthOk hs0) (.of_pair ‹_› <| .healthOk hs0)
  · extract_lets
    split
    · exact hs0
    · split
      · extract_lets
        split
        · exact .spareBack <|
              .ite
                (.unitBack <|
                   .ite
                     (.unitBack <| .wrAll <| .of_pair ‹_› <| .healthOk hs0)
                     (.wrAll <| .of_pair ‹_› <| .healthOk hs0))
                (.ite (.unitBack <| .wrAll <| .of_pair ‹_› <| .healthOk hs0) (.wrAll <| .of_pair ‹_› <| .healthOk hs0))
        · exact .of_pair ‹_› <| .healthOk hs0
  · refine .ite hs0 ?_
    split
    · exact .ite (.spareBack <| .unitBack <| .setRdi <| .of_pair ‹_› <| .healthOk hs0) (.of_pair ‹_› <| .healthOk hs0)
  · refine .ite ?_ hs0
    split
    · exact .ite
          (.spareBack <| .unitBack <| .wr <| .wr <| .wr <| .of_pair ‹_› <| .healthOk hs0)
          (.of_pair ‹_› <| .healthOk hs0)
  · exact hs0

protected theorem boundarySubs {g} (hs : Queued cmds s) : Queued cmds (boundarySubs g s) := by
  unfold boundarySubs
  exact .foldl .returnPage (.foldl .makeSub hs)

protected theorem boundaryCopies {g} (hs : Queued cmds s) : Queued cmds (boundaryCopies g s) := by
  unfold boundaryCopies
  extract_lets s1 _ s2
  have hs1 : Queued cmds s1 := .copyReady hs
  have hs2 : Queued cmds s2 := .ite hs1 (.vendorSet <| .foldl .vendorCopy hs1)
  exact .ite (.exchangeWaiting hs2) hs2

protected theorem boundaryWrites {g} (hs : Queued cmds s) : Queued cmds (boundaryWrites g s) := by
  unfold boundaryWrites
  exact .foldl .pdClrApply (.freed hs)

protected theorem shotBoundary {g} (hs : Queued cmds s) : Queued cmds (shotBoundary g s) := by
  unfold shotBoundary
  extract_lets _ _ _ _ _ s4
  have hs4 : Queued cmds s4 :=
    .settleWithdrawn <| .shedAtBoundary <| .setGroup <| .boundaryWrites <| .boundarySubs <| .boundaryCopies hs
  refine .ite hs ?_
  split
  · exact .ite
        (.openWindow <| .setGroup <| .passTo <| .setGroup <| .of_pair ‹_› <| .freeDraw hs4)
        (.endBoundary <| .passTo <| .setGroup <| .of_pair ‹_› <| .freeDraw hs4)

protected theorem ringTask {k a} (hs : Queued cmds s) : Queued cmds (ringTask k a s) := by
  unfold ringTask
  exact .ite hs (.foldl .doKept (.frame hs))

protected theorem activate {i a} (hs : Queued cmds s) : Queued cmds (activate i a s) :=
  .ite
    (.ite (.startAt hs) (.goActivate hs))
    (.ite
       (.setCap hs)
       (.ite
          (.tsuStamp hs)
          (.ite (.urgActivate hs) (.ite (.ringTask hs) (.ite (.ite (.askTbus hs) hs) (.ite (.raiseEvt hs) hs))))))

protected theorem activateOnce {i} (hs : Queued cmds s) : Queued cmds (activateOnce i s) :=
  .ite (.coincide hs) (.activate <| .frame hs)

protected theorem taskActivation {i} (hs : Queued cmds s) : Queued cmds (taskActivation i s) := by
  unfold taskActivation
  exact .deliver .activateOnce
      (fun h => .tagItem <| .raiseEvt h)
      (fun h => .ite (.coincide h) (.activateOnce h))
      (.nextAct hs)

/-! ## Tbus -/

protected theorem retryStarts {rs} (hs : Queued cmds s) : Queued cmds (retryStarts s rs) := by
  unfold retryStarts
  exact .raiseEvtIf <| .frame hs

protected theorem tbusCycle {lines hold} {s0 : State} (hs0 : Queued cmds s0) : Queued cmds (tbusCycle lines hold s0)
    := by
  unfold tbusCycle
  extract_lets _ _ _ _ _ _ _ _ _ _ _ _ _ _ _ _ _ _ s5
  have hs5 : Queued cmds s5 :=
    .foldl .fireLine (.raiseEvtIf <| .bump <| .passTo <| .wr <| .wr <| .emit <| .frame <| .passTo <| .frame hs0)
  exact .ite (.frame hs0) (.ite (.raiseEvt <| .bump <| .retryStarts hs5) (.ite (.foldl .startAt (.bump hs5)) hs5))

protected theorem holdStuck (hs : Queued cmds s) : Queued cmds (holdStuck s) := .ite (.raiseFault hs) hs

end Queued

/-- What a command leaves, from the state that its arm names. -/
theorem Queued.of_next {cmds : List Instr} {u t : State}
    (h : (Host.Outcome.next u : Host.Outcome State Fault Refusal) = .next t) (hu : Queued cmds u) : Queued cmds t := by
  cases h
  exact hu

/-- Every command keeps the queue. -/
theorem Queued.exec {cmds : List Instr} {s t : State} {i : Instr} (hs : Queued cmds s) (h : exec i s = .next t) :
    Queued cmds t := by
  cases i with
  | privateWrite => exact .of_next h (.whenUp (fun h => .addressed .privateWrite h) hs)
  | privateRead => exact .of_next h (.whenUp (fun h => .addressed .privateRead h) hs)
  | enthdr0 => exact .of_next h (.whenUp (fun h => .broadcast .setI3c h) hs)
  | hdrExit => exact .of_next h (.whenUp (fun h => .broadcast .setI3c h) hs)
  | entdaa => exact .of_next h (.whenUp (fun h => .broadcast .entdaa h) hs)
  | setdasa => exact .of_next h (.whenUp .setdasa hs)
  | setnewda => exact .of_next h (.whenUp (fun h => .addressed .setnewda h) hs)
  | rstdaa => exact .of_next h (.whenUp (fun h => .broadcast .rstdaa h) hs)
  | enec => exact .of_next h (.whenUp (fun h => .broadcast .enec h) hs)
  | disec => exact .of_next h (.whenUp (fun h => .broadcast .disec h) hs)
  | setmwl => exact .of_next h (.whenUp (fun h => .broadcast .setmwl h) hs)
  | getmwl => exact .of_next h (.whenUp (fun h => .addressed .i3cReply h) hs)
  | setmrl => exact .of_next h (.whenUp (fun h => .broadcast .setmrl h) hs)
  | getmrl => exact .of_next h (.whenUp (fun h => .addressed .i3cReply h) hs)
  | getpid => exact .of_next h (.whenUp (fun h => .addressed .i3cReply h) hs)
  | getbcr => exact .of_next h (.whenUp (fun h => .addressed .i3cReply h) hs)
  | getdcr => exact .of_next h (.whenUp (fun h => .addressed .i3cReply h) hs)
  | getstatus => exact .of_next h (.whenUp (fun h => .addressed .freeReply h) hs)
  | getmxds => exact .of_next h (.whenUp (fun h => .addressed .i3cReply h) hs)
  | getcaps => exact .of_next h (.whenUp (fun h => .addressed .freeReply h) hs)
  | rstact => exact .of_next h (.whenUp .rstact hs)
  | unsupportedCcc => exact .of_next h (.whenUp .unsupportedCcc hs)
  | targetResetPattern => exact .of_next h (.whenUp .targetReset hs)
  | pwinDataWrite => exact .of_next h (.whenReg .pwinWriteBy hs)
  | pwinDataRead => exact .of_next h (.whenUp .pwinDataRead hs)
  | powerOn => exact .of_next h (.powerOn hs)
  | powerLoss => exact .of_next h (.powerLoss hs)
  | rstNAssert => exact .of_next h (.rstNAssert hs)
  | rstNRelease => exact .of_next h (.rstNRelease hs)
  | refInValid => exact .of_next h (.refInValid hs)
  | shedNAssert => exact .of_next h (.shedLevel hs)
  | shedNRelease => exact .of_next h (.shedLevel hs)
  | registerWrite => exact .of_next h (.whenPath .wordWrite hs)
  | softReset => exact .of_next h (.whenPath .busWrite hs)
  | pageLock => exact .of_next h (.whenPath (fun h => .onPage .lockPart h) hs)
  | enableSet => exact .of_next h (.whenPath (fun h => .onPage (fun h => .pgPart .enableBlock h) h) hs)
  | enableClear => exact .of_next h (.whenPath (fun h => .onPage (fun h => .pgPart .disableBlock h) h) hs)
  | auto => exact .of_next h (.whenPath (fun h => .onPage (fun h => .pgPart .spareSelWrite h) h) hs)
  | forceSpare => exact .of_next h (.whenPath (fun h => .onPage (fun h => .pgPart .spareSelWrite h) h) hs)
  | forcePrimary => exact .of_next h (.whenPath (fun h => .onPage (fun h => .pgPart .spareSelWrite h) h) hs)
  | inhibit => exact .of_next h (.whenPath (fun h => .onPage (fun h => .pgPart .spareSelWrite h) h) hs)
  | swrst => exact .of_next h (.whenReg .swrst hs)
  | standAside => exact .of_next h (.whenReg .standAsideWrite hs)
  | release => exact .of_next h (.whenReg .releaseWrite hs)
  | apertureWrite => exact .of_next h (.whenPath .apertureWord_ hs)
  | loadCommit => exact .of_next h (.whenPath (fun h => .whenReg .commitReg h) hs)
  | loadDiscard => exact .of_next h (.whenPath (fun h => .whenReg .discardStore h) hs)
  | envCommit => exact .of_next h (.whenPath (fun h => .whenReg .commitReg h) hs)
  | envDiscard => exact .of_next h (.whenPath (fun h => .whenReg .discardStore h) hs)
  | wtCommit => exact .of_next h (.whenPath (fun h => .whenReg .commitReg h) hs)
  | wtDiscard => exact .of_next h (.whenPath (fun h => .whenReg .discardStore h) hs)
  | graphCommit => exact .of_next h (.whenPath (fun h => .whenReg .commitGraph h) hs)
  | graphDiscard => exact .of_next h (.whenPath (fun h => .whenReg .discardGraph h) hs)
  | vimgDataAccess => exact .of_next h (.whenReg .vimgAccess hs)
  | verify => exact .of_next h (.whenReg .vimgVerify hs)
  | verifyComplete => exact .of_next h (.whenUp .vimgVerified hs)
  | install => exact .of_next h (.whenReg .vimgInstall hs)
  | installComplete => exact .of_next h (.whenUp .vimgInstalled hs)
  | load => exact .of_next h (.whenReg .vimgLoad hs)
  | vimgDiscard => exact .of_next h (.whenReg .vimgDiscard hs)
  | seqModeWrite => exact .of_next h (.whenReg .seqModeWrite hs)
  | shotGo => exact .of_next h (.whenReg .shotGo hs)
  | selfStart => exact .of_next h (.whenUp .selfStart hs)
  | syncLine => exact .of_next h (.whenUp .syncLine hs)
  | shotOpen => exact .of_next h (.whenUp .shotOpen hs)
  | shotClose => exact .of_next h (.whenUp .shotClose hs)
  | shotBoundary => exact .of_next h (.whenUp .shotBoundary hs)
  | wordSeq => exact .of_next h (.whenUp .wordSeq hs)
  | wordJump => exact .of_next h (.whenUp .wordJump hs)
  | wordBr => exact .of_next h (.whenUp .wordBr hs)
  | wordCall => exact .of_next h (.whenUp .wordCall hs)
  | wordRet => exact .of_next h (.whenUp .wordRet hs)
  | wordLoop => exact .of_next h (.whenUp .wordLoop hs)
  | wordEnd => exact .of_next h (.whenUp .wordEnd hs)
  | loopPush => exact .of_next h (.whenUp .loopPush hs)
  | loopBreak => exact .of_next h (.whenUp .loopBreak hs)
  | waitExpiry => exact .of_next h (.whenUp .waitExpiry hs)
  | decisionWaitEnd => exact .of_next h (.whenUp .decisionWaitEnd hs)
  | eventWaitEnd => exact .of_next h (.whenUp .eventWaitEnd hs)
  | markWaitEnd => exact .of_next h (.whenUp .markWaitEnd hs)
  | waitTimeout => exact .of_next h (.whenUp .waitTimeout hs)
  | drivePulse => exact .of_next h (.whenUp .drivePulse hs)
  | addA => exact .of_next h (.whenUp .phaseOp hs)
  | addB => exact .of_next h (.whenUp .phaseOp hs)
  | subA => exact .of_next h (.whenUp .phaseOp hs)
  | setA => exact .of_next h (.whenUp .phaseOp hs)
  | zeroAcc => exact .of_next h (.whenUp .phaseOp hs)
  | addSw => exact .of_next h (.whenUp .phaseOp hs)
  | play => exact .of_next h (.whenUp .fluxOp hs)
  | playHold => exact .of_next h (.whenUp .fluxOp hs)
  | step => exact .of_next h (.whenUp .fluxOp hs)
  | park => exact .of_next h (.whenUp .fluxOp hs)
  | swr => exact .of_next h (.whenUp .sweepReload hs)
  | swp => exact .of_next h (.whenUp .sweepStep hs)
  | evtFire => exact .of_next h (.whenUp .evtFire hs)
  | markEn => exact .of_next h (.whenUp .markEn hs)
  | calwin => exact .of_next h (.whenUp .calwin hs)
  | tbusStart => exact .of_next h (.whenUp .tbusStart hs)
  | ringTrig => exact .of_next h (.whenUp .ringTrig hs)
  | windowArm => exact .of_next h (.whenUp .windowArm hs)
  | probePulse => exact .of_next h (.whenUp .probePulse hs)
  | branchResolve => exact .of_next h (.whenUp .branchResolve hs)
  | commitGateResolution => exact .of_next h (.whenUp .commitGate hs)
  | segmentPlay => exact .of_next h (.whenUp .segmentPlay hs)
  | segmentDecide => exact .of_next h (.whenUp .segmentDecide hs)
  | segJump => exact .of_next h (.whenReg .softRequest hs)
  | segStop => exact .of_next h (.whenReg .softRequest hs)
  | portActionDue => exact .of_next h (.whenUp .portActionDue hs)
  | fluxActionDue => exact .of_next h (.whenUp .fluxActionDue hs)
  | windowArmDue => exact .of_next h (.whenUp .windowArmDue hs)
  | windowClose => exact .of_next h (.whenUp .windowClose hs)
  | resultDue => exact .of_next h (.whenUp .resultArrives hs)
  | armCopyDue => exact .of_next h (.whenUp .armCopyDue hs)
  | frameUpdateDue => exact .of_next h (.whenUp .frameUpdateDue hs)
  | broadcastDue => exact .of_next h (.whenUp .broadcastDue hs)
  | markDue => exact .of_next h (.whenUp .markDue hs)
  | taskActivation => exact .of_next h (.whenUp .taskActivation hs)
  | refillData => exact .of_next h (.whenUp .refillData hs)
  | refillUnderrun => exact .of_next h (.whenUp .refillUnderrun hs)
  | mute => exact .of_next h (.whenReg .muteWrite hs)
  | parkNow => exact .of_next h (.whenReg .parkNowWrite hs)
  | toneVerify => exact .of_next h (.whenUp .toneVerify hs)
  | dacFault => exact .of_next h (.whenUp .dacFaultAt hs)
  | adcFault => exact .of_next h (.whenUp .adcFaultAt hs)
  | rampDone => exact .of_next h (.whenUp .rampDone hs)
  | parkHandover => exact .of_next h (.whenAlive .parkHandover hs)
  | pdClr => exact .of_next h (.whenReg .pdClrWrite hs)
  | shadowStep => exact .of_next h (.whenUp .shadowStep hs)
  | handover => exact .of_next h (.whenUp .handoverAt hs)
  | slotBindWrite => exact .of_next h (.whenReg .slotBindWrite hs)
  | slotCfgWrite => exact .of_next h (.whenReg .slotCfgWrite hs)
  | clrEntries => exact .of_next h (.whenReg .clrEntriesNow hs)
  | clrLost => exact .of_next h (.whenReg .clrLost hs)
  | dchWrite => exact .of_next h (.whenReg .dchWrite hs)
  | resend => exact .of_next h (.whenReg .resendAll hs)
  | tableParity => exact .of_next h (.whenUp .tableParity hs)
  | evtFireWrite => exact .of_next h (.whenReg .fireWrite hs)
  | lineDisWrite => exact .of_next h (.whenReg .lineDisWrite hs)
  | detectionInputDue => exact .of_next h (.whenUp .detectionInputDue hs)
  | roundClose => exact .of_next h (.whenUp .roundClose hs)
  | decodeWindowComplete => exact .of_next h (.whenUp .decodeWindowComplete hs)
  | windowOutputIssue => exact .of_next h (.whenUp .windowOutputIssue hs)
  | testDecode => exact .of_next h (.whenUp .testDecode hs)
  | tileParity => exact .of_next h (.whenUp .tileParity hs)
  | graphParity => exact .of_next h (.whenUp .graphParity hs)
  | arm => exact .of_next h (.whenReg .armUnit hs)
  | abort => exact .of_next h (.whenReg .abortUnit hs)
  | clrCnt => exact .of_next h (.whenReg .clrCapCounts hs)
  | triggerSample => exact .of_next h (.whenUp .triggerSample hs)
  | hitDue => exact .of_next h (.whenUp .hitDue hs)
  | sourceItem => exact .of_next h (.whenUp .sourceItem hs)
  | preFilled => exact .of_next h (.whenUp .preFilled hs)
  | captureComplete => exact .of_next h (.whenUp .captureComplete hs)
  | recordRelease => exact .of_next h (.whenUp .recordRelease hs)
  | recordSend => exact .of_next h (.whenUp .recordSend hs)
  | egrEnable => exact .of_next h (.whenReg .egrEnable hs)
  | portAdmit => exact .of_next h (.whenReg .admitPort hs)
  | portRelease => exact .of_next h (.whenReg .releaseNow hs)
  | mapWrite => exact .of_next h (.whenReg .mapMaskWrite hs)
  | pantryRequest => exact .of_next h (.whenUp .pantryRequest hs)
  | escalation => exact .of_next h (.whenUp .escalation hs)
  | deadlineMiss => exact .of_next h (.whenUp .deadlineMiss hs)
  | bankRefresh => exact .of_next h (.whenUp .bankRefresh hs)
  | retrainSlot => exact .of_next h (.whenUp .trainSlot hs)
  | retirementStart => exact .of_next h (.whenReg .retirementStart hs)
  | evacuationDone => exact .of_next h (.whenUp (fun h => .ite (.evacuationDone h) h) hs)
  | channelLoss => exact .of_next h (.whenUp .channelLoss hs)
  | slip => exact .of_next h (.whenReg .slip hs)
  | restart => exact .of_next h (.whenReg .restart hs)
  | prbsClr => exact .of_next h (.whenReg .prbsClr hs)
  | los => exact .of_next h (.whenReceiving .los hs)
  | signalReturn => exact .of_next h (.whenReceiving .signalReturn hs)
  | rxReady => exact .of_next h (.whenReceiving .rxReady hs)
  | prbsLock => exact .of_next h (.whenReceiving .prbsLock hs)
  | prbsUnlock => exact .of_next h (.whenReceiving .prbsUnlock hs)
  | lockAcquire => exact .of_next h (.whenReceiving .lockAcquire hs)
  | lockLoss => exact .of_next h (.whenReceiving .lockLoss hs)
  | autoAlignSlip => exact .of_next h (.whenUp .autoAlignSlip hs)
  | swapStart => exact .of_next h (.whenReg .swapStart hs)
  | swapReq => exact .of_next h (.whenUp .swapReq hs)
  | swapReqAbrupt => exact .of_next h (.whenUp .swapReqAbrupt hs)
  | swapReady => exact .of_next h (.whenUp .swapReady hs)
  | swapAbort => exact .of_next h (.whenUp .swapAbort hs)
  | swapSwitch => exact .of_next h (.whenUp .swapSwitch hs)
  | swapTimeout => exact .of_next h (.whenUp .swapTimeout hs)
  | laneFail => exact .of_next h (.whenUp .laneFail hs)
  | abruptSwitch => exact .of_next h (.whenUp .abruptSwitch hs)
  | laneFrame => exact .of_next h (.whenUp .laneFrame hs)
  | decisionFlit => exact .of_next h (.whenUp .rxFlit hs)
  | syndromeEvents => exact .of_next h (.whenUp .rxFlit hs)
  | syndromeCorrections => exact .of_next h (.whenUp .rxFlit hs)
  | triggerFlit => exact .of_next h (.whenUp .rxFlit hs)
  | lossFlit => exact .of_next h (.whenUp .rxFlit hs)
  | bulkFlit => exact .of_next h (.whenUp (fun h => .takeInbox <| .rxFlit h) hs)
  | idleFlit => exact .of_next h (.whenUp .rxFlit hs)
  | flitSend => exact .of_next h (.whenUp .flitSend hs)
  | replayTimeout => exact .of_next h (.whenUp .replayTimeout hs)
  | graceExpiry => exact .of_next h (.whenUp .graceExpiry hs)
  | regWrite => exact .of_next h (.whenUp .request hs)
  | regRead => exact .of_next h (.whenUp .request hs)
  | storeWrite => exact .of_next h (.whenUp .request hs)
  | storeCommit => exact .of_next h (.whenUp .request hs)
  | storeDiscard => exact .of_next h (.whenUp .request hs)
  | storeRead => exact .of_next h (.whenUp .request hs)
  | pantryWrite => exact .of_next h (.whenUp .request hs)
  | pantryRead => exact .of_next h (.whenUp .request hs)
  | moduleOnlyFrame => exact .of_next h (.whenUp .moduleOnlyFrame hs)
  | credit => exact .of_next h (.whenUp .credit hs)
  | unreach => exact .of_next h (.whenUp .unreach hs)
  | arpRequest => exact .of_next h (.whenUp .arpRequest hs)
  | neighbourSolicitation => exact .of_next h (.whenUp .neighbourSolicitation hs)
  | hostModeWrite => exact .of_next h (.whenReg .hostModeWrite hs)
  | linkFail => exact .of_next h (.whenUp .linkFail hs)
  | ptpSync => exact .of_next h (.whenUp .ptpSync hs)
  | followUp => exact .of_next h (.whenUp .followUp hs)
  | delayReq => exact .of_next h (.whenUp .delayReq hs)
  | delayResp => exact .of_next h (.whenUp .delayResp hs)
  | pdelayReq => exact .of_next h (.whenUp .pdelayReq hs)
  | pdelayResp => exact .of_next h (.whenUp .pdelayResp hs)
  | pdelayRespFollowUp => exact .of_next h (.whenUp .pdelayRespFollowUp hs)
  | announce => exact .of_next h (.whenUp .ptpQueue hs)
  | signaling => exact .of_next h (.whenUp .ptpQueue hs)
  | management => exact .of_next h (.whenUp .ptpQueue hs)
  | syncInterval => exact .of_next h (.whenUp .syncInterval hs)
  | delayReqInterval => exact .of_next h (.whenUp .delayReqInterval hs)
  | announceInterval => exact .of_next h (.whenUp .announceInterval hs)
  | syncTimeout => exact .of_next h (.whenUp .syncTimeout hs)
  | rxqPop => exact .of_next h (.whenReg .rxqPop hs)
  | ringSync => exact .of_next h (.whenUp .rxFlit hs)
  | ringDelayReq => exact .of_next h (.whenUp .rxFlit hs)
  | ringDelayResp => exact .of_next h (.whenUp .rxFlit hs)
  | ringPdelayReq => exact .of_next h (.whenUp .rxFlit hs)
  | ringPdelayResp => exact .of_next h (.whenUp .rxFlit hs)
  | ringSyncInterval => exact .of_next h (.whenUp .ringSyncInterval hs)
  | ringPdelayInterval => exact .of_next h (.whenUp .ringPdelayInterval hs)
  | align => exact .of_next h (.whenReg .alignArm hs)
  | syncEdge => exact .of_next h (.whenUp .syncEdge hs)
  | syncAbsent => exact .of_next h (.whenUp .syncAbsent hs)
  | refLoss => exact .of_next h (.refLoss hs)
  | refReturn => exact .of_next h (.refReturn hs)
  | mtStep => exact .of_next h (.whenReg .mtStep hs)
  | incCommit => exact .of_next h (.whenPath .wordWrite hs)
  | servoRst => exact .of_next h (.whenReg .servoRst hs)
  | servoOfs => exact .of_next h (.whenReg .servoOfs hs)
  | mtRead => exact .of_next h (.whenPath (fun h => .whenRead .mtRead h) hs)
  | tsuRead => exact .of_next h (.whenPath (fun h => .whenRead .tsuRead h) hs)
  | cmpFire => exact .of_next h (.whenUp .cmpFire hs)
  | tbusCycle => exact .of_next h (.whenUp .tbusCycle hs)
  | holdStuck => exact .of_next h (.whenUp .holdStuck hs)
  | ctxCfgWrite => exact .of_next h (.whenReg .ctxCfgWrite hs)
  | ctxData => exact .of_next h (.whenReg .ctxData hs)
  | crcWindowWrite => exact .of_next h (.whenReg .crcWindowWrite hs)
  | ctxValWrite => exact .of_next h (.whenReg .ctxValWrite hs)
  | submit => exact .of_next h (.whenReg .submit hs)
  | clear => exact .of_next h (.whenReg .clearSlot hs)
  | cancel => exact .of_next h (.whenReg .cancelSlot hs)
  | calSegmentDone => exact .of_next h (.whenUp .calSegmentDone hs)
  | attemptTimeout => exact .of_next h (.whenUp .attemptTimeout hs)
  | backgroundPassDone => exact .of_next h (.whenUp .backgroundPassDone hs)
  | referenceCheck => exact .of_next h (.whenUp .referenceCheck hs)
  | conversion => exact .of_next h (.whenUp .conversion hs)
  | housekeepingConversion => exact .of_next h (.whenUp .housekeeping hs)
  | urgentConversion => exact .of_next h (.whenUp .urgentConversion hs)
  | zero => exact .of_next h (.whenReg .scalZero hs)
  | full => exact .of_next h (.whenReg .scalFull hs)
  | scalMeasureDone => exact .of_next h (.whenUp .scalDone hs)
  | trivetUpdate readings =>
    change (if readings.length = 24 then _ else _) = _ at h
    split at h
    · exact .of_next h (.whenUp .trivetUpdate hs)
    · cases h
  | diodeCrosscheck => exact .of_next h (.whenUp .diodeCrosscheck hs)
  | freezeTimeout => exact .of_next h (.whenUp .freezeTimeout hs)
  | throttleUp => exact .of_next h (.whenUp .throttleUp hs)
  | throttleDown => exact .of_next h (.whenUp .throttleDown hs)
  | shutdownExit => exact .of_next h (.whenAlive .shutdownExit hs)
  | phaseFail => exact .of_next h (.whenUp .phaseFail hs)
  | domainTrip => exact .of_next h (.whenUp .domainTrip hs)
  | shedDwell => exact .of_next h (.whenUp .shedDwell hs)
  | shedHold => exact .of_next h (.whenUp .shedHold hs)
  | shedWait => exact .of_next h (.whenUp .shedWait hs)
  | vinThreshold => exact .of_next h (.whenUp .vinThreshold hs)
  | brownoutRestart => exact .of_next h (.whenAlive .brownoutRestart hs)
  | overVoltage => exact .of_next h (.whenUp .overVoltage hs)
  | hmClear => exact .of_next h (.whenReg .hmClear hs)
  | hmCfgWrite => exact .of_next h (.whenReg .hmCfgWrite hs)
  | wearHour => exact .of_next h (.whenUp .wearHour hs)
  | mapClear => exact .of_next h (.whenReg .mapClear hs)
  | mapRead => exact .of_next h (.whenRead .mapRead hs)
  | logRead => exact .of_next h (.whenRead .logRead hs)
  | logClear => exact .of_next h (.whenReg .logClear hs)
  | softResetDone => exact .of_next h (.whenAlive .softResetDone hs)
  | targetResetDone => exact .of_next h (.targetDone hs)
  | startupPhaseDone => exact .of_next h (.whenAlive .startupPhaseDone hs)
  | ibiDelivered => exact .of_next h (.whenUp .ibiDelivered hs)
  | pantryRequestDone => exact .of_next h (.whenUp .requestServed hs)
  | pantryReadTimeout => exact .of_next h (.whenUp .pantryReadTimeout hs)
  | laneSnrUpdate => exact .of_next h (.whenReceiving .laneSnrUpdate hs)
  | inputQuiet => exact .of_next h (.whenUp .inputQuiet hs)
  | inputOverrange => exact .of_next h (.whenUp .inputOverrange hs)
  | badOpRequest => exact .of_next h (.whenUp .badOpRequest hs)
  | hostFrameDiscard => exact .of_next h (.whenUp .hostFrameDiscard hs)
  | hmInterval => exact .of_next h (.whenUp .hmInterval hs)

end Sys2Proof.Machine
end

section
/-! What three commands of O7's second part do: an item due now reaches its receiver, and an output hands over to the
park holder. -/

namespace Sys2Proof.Machine

variable {s t u : State}

/-! ## An item due now -/

theorem dueIn_stampOf (tc : BitVec 48) : dueIn (stampOf tc) tc = 0 := by simp [dueIn, stampOf]

theorem dueTick_of_now {i : Item} (h : dueIn i.stamp s.clk.tc = 0) : dueTick i s = s.clk.tc := by simp [dueTick, h]

theorem ticksTo_self (x : BitVec 48) : ticksTo x x = 0 := by simp [ticksTo]

/-- The only item on its way, due now, acts at once. -/
theorem deliver_of_now {p : Payload → Bool} {onTime once late : Item → State → State} {i : Item} (hs : s.items = [i])
    (hp : p i.load = true) (hnow : dueIn i.stamp s.clk.tc = 0) :
    deliver p onTime once late s = onTime i { s with items := [] } := by
  have htake : takeItem p s.items = some (i, []) := by rw [hs, takeItem, if_pos hp]
  have hheld : heldBack i s = false := by simp [heldBack, queueAhead, hs]
  have hlate : isLate i s = false := by simp [isLate, hnow]
  have hpast : passTo s.clk.tc { s with items := [] } = { s with items := [] } :=
    passTo_of_past (ticksTo_self s.clk.tc).le
  unfold deliver
  rw [htake]
  simp [hheld, hlate, dueTick_of_now hnow, hpast]

/-! ## Marks -/

/-- A mark reaches sequencer k: a member in a shot, out of segment mode, takes it. -/
def giveMark (id : Nat) (due : BitVec 48) (r : State) (k : Nat) : State :=
  if (getSeq r k).inShot && !segMode r k then setSeq r k { getSeq r k with marks := (getSeq r k).marks ++ [(id, due)] }
  else r

theorem giveMark_rest (id : Nat) (due : BitVec 48) (r : State) (k : Nat) :
    { giveMark id due r k with seqs := r.seqs } = r := by
  unfold giveMark
  split <;> rfl

theorem getSeq_giveMark_ne (id : Nat) (due : BitVec 48) (r : State) {k q : Nat} (h : q ≠ k) :
    getSeq (giveMark id due r k) q = getSeq r q := by
  unfold giveMark
  split
  · exact getSeq_setSeq_ne r _ h
  · rfl

theorem giveMarks_rest (id : Nat) (due : BitVec 48) : ∀ (l : List Nat) (r : State),
    { l.foldl (giveMark id due) r with seqs := r.seqs } = r
  | [], _ => rfl
  | k :: l, r => by
    have h := congrArg (fun x : State => { x with seqs := r.seqs }) (giveMarks_rest id due l (giveMark id due r k))
    exact h.trans (giveMark_rest id due r k)

theorem getSeq_giveMarks_of_not_mem (id : Nat) (due : BitVec 48) {q : Nat} : ∀ {l : List Nat} {r : State}, q ∉ l →
    getSeq (l.foldl (giveMark id due) r) q = getSeq r q
  | [], _, _ => rfl
  | k :: l, r, h => by
    obtain ⟨hk, hl⟩ := List.ne_and_not_mem_of_not_mem_cons h
    exact (getSeq_giveMarks_of_not_mem id due hl).trans (getSeq_giveMark_ne id due r hk)

/-- A member in a shot, out of segment mode, takes the mark once. -/
theorem marks_giveMarks (id : Nat) (due : BitVec 48) {q : Nat} (l : List Nat) (hl : l.Nodup) (hq : q ∈ l) :
    ∀ r : State, (getSeq r q).inShot = true → segMode r q = false →
      (getSeq (l.foldl (giveMark id due) r) q).marks = (getSeq r q).marks ++ [(id, due)] := by
  induction l with
  | nil => cases hq
  | cons k l ih =>
    intro r hin hseg
    obtain ⟨hk, hl⟩ := List.nodup_cons.mp hl
    rw [List.foldl_cons]
    by_cases h : q = k
    · subst h
      rw [getSeq_giveMarks_of_not_mem id due hk, giveMark, if_pos (by simp [hin, hseg]), getSeq_setSeq_self]
    · have hmode : segMode (giveMark id due r k) q = segMode r q :=
        rdBit_congr (congrArg State.regs (giveMark_rest id due r k) :) ..
      have hget := getSeq_giveMark_ne id due r h
      rw [ih hl (List.mem_of_ne_of_mem h hq) _ (hget ▸ hin) (hmode.trans hseg), hget]

/-- A mark due now reaches its group's members. -/
theorem markDue_of_now {g id q : Nat} {grp : Option Nat}
    (hs : s.items = [{ stamp := stampOf s.clk.tc, group := grp, deps := [], load := .mark g id }]) (hq : q < 120)
    (hg : seqGroup s q = some g) (hin : (getSeq s q).inShot = true) (hseg : segMode s q = false) :
    (markDue g s).items = [] ∧ (getSeq (markDue g s) q).marks = (getSeq s q).marks ++ [(id, s.clk.tc)] ∧
      (markDue g s).clk = s.clk := by
  let members := (List.range 120).filter (fun k => decide (seqGroup s k = some g))
  have hdue : dueTick { stamp := stampOf s.clk.tc, group := grp, deps := [], load := .mark g id }
      { s with items := [] } = s.clk.tc := dueTick_of_now (dueIn_stampOf s.clk.tc)
  have hmark : markDue g s = members.foldl (giveMark id s.clk.tc) { s with items := [] } := by
    unfold markDue
    rw [deliver_of_now hs (by simp) (dueIn_stampOf s.clk.tc)]
    dsimp only
    rw [hdue]
    rfl
  have hrest := giveMarks_rest id s.clk.tc members { s with items := [] }
  rw [hmark]
  refine ⟨(congrArg State.items hrest :), ?_, (congrArg State.clk hrest :)⟩
  exact marks_giveMarks id s.clk.tc members (List.nodup_range.filter _)
    (List.mem_filter.mpr ⟨List.mem_range.mpr hq, decide_eq_true hg⟩) { s with items := [] } hin hseg

/-! ## Activations -/

/-- With no line fired and one item on its way there is nothing for the router to settle or to choose. -/
theorem nextAct_of_now {n : Nat} {i : Item} (hl : s.lines = []) (hs : s.items = [i]) (hi : i.load = .act n) :
    nextAct n s = s := by
  have hcatch : lineCatch s = s := by simp [lineCatch, unsettled, hl]
  have hahead : firesAhead n s = [] := by simp [firesAhead, hl]
  have hfirst : dueFirst (fun l => decide (l = .act n)) s = s := by simp [dueFirst, hs, hi]
  unfold nextAct
  rw [hcatch, hahead]
  exact hfirst

/-- An activation of a host event's input, due now, raises the event. -/
theorem taskActivation_of_now {n : Nat} {grp : Option Nat}
    (hs : s.items = [{ stamp := stampOf s.clk.tc, group := grp, deps := [], load := .act n }]) (h180 : 180 ≤ n)
    (h188 : n < 188) (hl : s.lines = []) (hn : n ∉ s.tick.acts) :
    (taskActivation n s).items = [] ∧ rdBit (taskActivation n s) .evt 0 0x010 (8 + (n - 180)) = true ∧
      (taskActivation n s).clk = s.clk := by
  have hact : taskActivation n s =
      raiseEvt .evt 0 (8 + (n - 180)) { s with items := [], tick := { s.tick with acts := n :: s.tick.acts } } := by
    unfold taskActivation
    dsimp only
    rw [nextAct_of_now hl hs rfl, deliver_of_now hs (by simp) (dueIn_stampOf s.clk.tc), activateOnce,
      if_neg (by simpa using hn), activate]
    simp only [show ¬ n < 120 by omega, show ¬ n < 152 by omega, show ¬ n < 160 by omega, show ¬ n < 164 by omega,
      show ¬ n < 172 by omega, show ¬ n < 180 by omega, h188, if_true, if_false]
  rw [hact]
  exact ⟨raiseEvt_items .., rdBit_raiseEvt_self _ _ _ _ (by omega), raiseEvt_clk ..⟩

/-! ## The park holder -/

/-- An output of a page in reset, or before READY, hands over to the park holder. -/
theorem parkHandover_takes {o : Nat} (hh : (getFlux s o).holder = false)
    (hr : isResetting s .flx (flxPage o) = true ∨ ready s = false) :
    (getFlux (parkHandover o s) o).holder = true ∧ (getFlux (parkHandover o s) o).atPark = true ∧
      (getFlux (parkHandover o s) o).ramp = none := by
  have htake : parkHandover o s = holderTakes o (runNear o ticksPerMs (rampDone o s)) := by
    refine if_neg ?_
    rcases hr with hr | hr <;> simp [hh, hr]
  have hget : ∀ (v : State) (x : Flux), getFlux (setFlux v o x) o = x := fun v x => mapGet_mapSet_self _ _ _ _
  rw [htake, holderTakes, hget]
  exact ⟨rfl, rfl, rfl⟩

end Sys2Proof.Machine
end

section
/-! A conversion of a valid list entry (O7). -/

namespace Sys2Proof.Machine

variable {s t u : State} {a : Nat}

/-- From s to t the register at an address, the place in the converter's list and the clock stand. -/
structure ListStands (a : Nat) (s t : State) : Prop where
  reg : getReg t a = getReg s a
  pos : t.mon.pos = s.mon.pos
  clk : t.clk = s.clk

namespace ListStands

protected theorem refl (a : Nat) (s : State) : ListStands a s s := ⟨rfl, rfl, rfl⟩

protected theorem trans (h : ListStands a s t) (h' : ListStands a t u) : ListStands a s u :=
  ⟨h'.reg.trans h.reg, h'.pos.trans h.pos, h'.clk.trans h.clk⟩

protected theorem ite {c : Prop} {_ : Decidable c} (ht : ListStands a s t) (hu : ListStands a s u) :
    ListStands a s (if c then t else u) := by
  split
  exacts [ht, hu]

protected theorem wr (h : ListStands a s t) {pt : PT} {n off hi lo v : Nat} (ha : a ≠ addrOf pt n off) :
    ListStands a s (wr t pt n off hi lo v) := h.trans ⟨getReg_wr_ne _ _ _ _ _ _ _ ha, rfl, rfl⟩

protected theorem wrAll (h : ListStands a s t) {pt : PT} {n off v : Nat} (ha : a ≠ addrOf pt n off) :
    ListStands a s (wrAll t pt n off v) := h.trans ⟨getReg_setReg_ne _ _ ha, rfl, rfl⟩

protected theorem bump (h : ListStands a s t) {pt : PT} {n off hi lo k : Nat} (ha : a ≠ addrOf pt n off) :
    ListStands a s (bump t pt n off hi lo k) := h.wr ha

protected theorem raiseEvt (h : ListStands a s t) {pt : PT} {n bit : Nat} (ha : a ≠ addrOf pt n 0x010) :
    ListStands a s (raiseEvt pt n bit t) :=
  h.trans ⟨(getReg_raiseEvt ..).trans (if_neg ha), congrArg Mon.pos (raiseEvt_mon ..), raiseEvt_clk ..⟩

protected theorem raiseFault (h : ListStands a s t) {pt : PT} {n bit : Nat} (ha : a ≠ addrOf pt n 0x018) :
    ListStands a s (raiseFault pt n bit t) :=
  h.trans ⟨(getReg_raiseFault ..).trans (if_neg ha), congrArg Mon.pos (raiseFault_mon ..), raiseFault_clk ..⟩

/-- What the converter's unit notes beside its place in the list. -/
protected theorem setMon (h : ListStands a s t) {x : Mon} (hx : x.pos = t.mon.pos) : ListStands a s (setMon x t) :=
  h.trans ⟨rfl, hx, rfl⟩

protected theorem fireLine (h : ListStands a s t) {line : Nat} {x : BitVec 48} {soft : Bool} :
    ListStands a s (fireLine line x soft t) := by
  rw [fireLine_eq]
  exact h.trans ⟨rfl, rfl, rfl⟩

/-- A monitor unit's value is kept on the HEALTH page. -/
protected theorem hmTake (h : ListStands a s t) (ha : addrOf .health 1 0 ≤ a) {k : Nat} (hk : k < 32) (v : Int) :
    ListStands a s (hmTake k v t) := by
  have hne : ∀ off, off < 4096 → a ≠ addrOf .health 0 off := fun off ho e => by
    unfold addrOf at ha e
    omega
  have hoff : ∀ d, d < 0x60 → hmOff k + d < 4096 := fun d hd => by
    unfold hmOff
    omega
  have hbin : ∀ x : Int, (clampI 0 15 x).toNat < 16 := fun x => by
    unfold clampI
    omega
  unfold hmTake
  extract_lets o w lo hi s1 s2 s3 s4 base wlog b a' sat
  have h2 : ListStands a s s2 := .bump (.wrAll h (hne _ (hoff _ (by decide)))) (hne _ (hoff _ (by decide)))
  have h3 : ListStands a s s3 := .ite (.wrAll h2 (hne _ (hoff _ (by decide)))) h2
  have h4 : ListStands a s s4 := .ite (.wrAll h3 (hne _ (hoff _ (by decide)))) h3
  have hb : a' < 4096 := by
    have := hbin ((v - base) / (2 ^ wlog : Nat))
    have := hoff (0x20 + 4 * b) (by omega)
    omega
  have h5 : ListStands a s (Machine.bump s4 .health 0 a' 31 0 1) := .bump h4 (hne _ hb)
  exact .ite h4 (.ite (.raiseEvt h5 (hne _ (by decide))) h5)

protected theorem foldl {f : State → Nat → State} : ∀ {l : List Nat} {t : State},
    (∀ k ∈ l, ∀ {t}, ListStands a s t → ListStands a s (f t k)) → ListStands a s t → ListStands a s (l.foldl f t)
  | [], _, _, h => h
  | k :: l, _, hf, h =>
    ListStands.foldl (l := l) (fun j hj => hf j (List.mem_cons_of_mem _ hj)) (hf k List.mem_cons_self h)

protected theorem hmSample (h : ListStands a s t) (ha : addrOf .health 1 0 ≤ a) {src ins sub : Nat} {v : Int} :
    ListStands a s (hmSample src ins sub v t) := by
  refine .ite h (.foldl (fun k hk _ hu => hu.hmTake ha ?_ v) h)
  exact List.mem_range.mp (List.mem_of_mem_filter hk)

end ListStands

/-- The address of an entry's result. -/
def resultAddr (e : Nat) : Nat := addrOf .monadc 0 (0x200 + 4 * e)

theorem resultAddr_ne {e off : Nat} (h : off < 0x200) : resultAddr e ≠ addrOf .monadc 0 off := addrOf_ne_off (by omega)

theorem resultAddr_after_health (e : Nat) : addrOf .health 1 0 ≤ resultAddr e := by
  simp only [resultAddr, addrOf, ptBase]
  omega

/-- The check against the reference notes its verdict, and may raise a fault. -/
theorem refCheck_stands (s : State) (e ch code : Nat) : ListStands (resultAddr e) s (refCheck ch code s) := by
  unfold refCheck
  extract_lets bad
  have h : ListStands (resultAddr e) s (setMon { s.mon with suspect := bad } s) := .setMon (.refl _ s) rfl
  exact .ite (.refl _ s) (.ite (.raiseFault h (resultAddr_ne (by decide))) h)

/-- A comparator's answer changes its own registers, the event and the line it fires. -/
theorem monCompare_stands (s : State) (e tag lim code : Nat) :
    ListStands (resultAddr e) s (monCompare tag lim code s).2 := by
  unfold monCompare
  split
  · exact .refl _ s
  · extract_lets k out was edge mon s1 keep s2 s3
    have h1 : ListStands (resultAddr e) s s1 := .setMon (.refl _ s) rfl
    have h2 : ListStands (resultAddr e) s s2 := .raiseEvt h1 (resultAddr_ne (by decide))
    have h3 : ListStands (resultAddr e) s s3 := .ite h2 (.wrAll h2 (resultAddr_ne (by omega)))
    split
    exacts [.fireLine h3, h1]

/-- The list goes on from an entry to another one, or to housekeeping. -/
theorem monStepList_pos_ne (h : s.mon.pos < 64) : (monStepList s).mon.pos ≠ s.mon.pos := by
  show (if s.mon.pos < monLast s then s.mon.pos + 1 else 64) ≠ s.mon.pos
  split <;> omega

theorem monCorrect_lt (s : State) (ch : Nat) (raw : BitVec 18) : monCorrect s ch raw < 2 ^ 18 := by
  unfold monCorrect
  extract_lets ofs gain
  unfold clampI
  omega

/-- A result word is VALID and holds the code. -/
theorem monResult_fields (s : State) (out : Bool) {c : Nat} (hc : c < 2 ^ 18) :
    fget (BitVec.ofNat 32 (monResult s out c)) 17 0 = c ∧ wbit (BitVec.ofNat 32 (monResult s out c)) 31 = true := by
  have ho : b2n out < 2 := by cases out <;> decide
  have hsus : b2n s.mon.suspect < 2 := by cases s.mon.suspect <;> decide
  have hlt : monResult s out c < 2 ^ 32 := by
    unfold monResult
    omega
  constructor
  · rw [fget_ofNat _ _ _ hlt]
    unfold nbits monResult
    omega
  · unfold wbit nbit
    rw [BitVec.toNat_ofNat, Nat.mod_eq_of_lt hlt]
    unfold monResult
    exact decide_eq_true (by omega)

/-- A valid list entry shows its corrected result, and the list goes on. -/
theorem conversion_shows {raw : BitVec 18} {p ch : Nat} (hp : s.mon.pos = p) (h64 : p < 64)
    (hch : rd s .monadc 0 (0x100 + 4 * p) 11 4 = ch)
    (hok : monOk ch (rd s .monadc 0 (0x100 + 4 * p) 3 0) = true) :
    rd (conversion raw s) .monadc 0 (0x200 + 4 * p) 17 0 = monCorrect s ch raw ∧
      rdBit (conversion raw s) .monadc 0 (0x200 + 4 * p) 31 = true ∧ (conversion raw s).mon.pos ≠ p ∧
      (conversion raw s).clk = s.clk := by
  subst hp hch
  let p := s.mon.pos
  let ch := rd s .monadc 0 (0x100 + 4 * p) 11 4
  let c := monCorrect s ch raw
  let x := monCompare p (rd s .monadc 0 (entOff p) 18 16) c s
  let s1 := if p = 48 then wr x.2 .pwr 0 0x054 15 0 (rndDiv (c * 24000) 262144) else x.2
  let s2 := wrAll s1 .monadc 0 (0x200 + 4 * p) (monResult s1 x.1 c)
  have hconv : conversion raw s =
      hmSample 12 ch (rd s .monadc 0 (entOff p) 3 0) c (refCheck ch c (monStepList s2)) := by
    unfold conversion
    exact (if_neg (by omega)).trans (if_neg (by simpa [entOff] using hok))
  have hx : ListStands (resultAddr p) s x.2 := monCompare_stands s p _ _ _
  have h1 : ListStands (resultAddr p) s s1 := .ite (.wr hx (addrOf_ne_page (by omega) (by decide) (by decide))) hx
  have h3 : ListStands (resultAddr p) (monStepList s2) (conversion raw s) := by
    rw [hconv]
    exact .hmSample (refCheck_stands _ _ _ _) (resultAddr_after_health p)
  have hreg : reg (conversion raw s) .monadc 0 (0x200 + 4 * p) = BitVec.ofNat 32 (monResult s1 x.1 c) :=
    h3.reg.trans (reg_wrAll_self s1 .monadc 0 (0x200 + 4 * p) _)
  obtain ⟨hcode, hvalid⟩ := monResult_fields s1 x.1 (monCorrect_lt s ch raw)
  have hpos : s2.mon.pos = p := h1.pos
  refine ⟨?_, ?_, ?_, h3.clk.trans h1.clk⟩
  · unfold rd
    rw [hreg]
    exact hcode
  · unfold rdBit
    rw [hreg]
    exact hvalid
  · have hne := monStepList_pos_ne (s := s2) (hpos.trans_lt h64)
    rwa [hpos, ← h3.pos] at hne

end Sys2Proof.Machine
end

section
/-! Every command completes (O7). -/

namespace Sys2Proof.Machine

section
variable {s x y z : State} {c : Instr} {p q : Prop} {_ : Decidable p} {_ : Decidable q}

/-- A command whose occasion is there. -/
theorem exec_of_open (h : p) (hc : exec c s = .next (if p then x else y) := by rfl) : exec c s = .next x := by
  rw [hc, if_pos h]

/-- A command with an access path and a page. -/
theorem exec_of_open_path (h : p) (h' : q) (hc : exec c s = .next (if p then if q then x else y else z) := by rfl) :
    exec c s = .next x := by
  rw [hc, if_pos h, if_pos h']

/-- A part of a PG_CTRL write to a page that is up. -/
theorem exec_of_open_page {pg : Nat} {f : State → State} (h : p)
    (h' : ∃ pt n, pageOf pg = some (pt, n) ∧ ptUp s pt = true)
    (hc : exec c s = .next (if p then onPage pg f s else z) := by rfl) : exec c s = .next (f s) := by
  obtain ⟨pt, n, hpg, hup⟩ := h'
  rw [hc, if_pos h, onPage, hpg]
  exact congrArg Host.Outcome.next (if_pos hup)

end

/-- A command whose operands are well formed answers a next state. -/
theorem exec_answers {c : Instr} (hc : c.wellFormed = true) (s : State) : ∃ t, exec c s = .next t := by
  rcases exec_guarded hc with ⟨straps, rfl | rfl⟩ | hpins | ⟨f, -, hf⟩
  · exact ⟨_, rfl⟩
  · exact ⟨_, rfl⟩
  · simp only [List.mem_cons, List.not_mem_nil, or_false] at hpins
    rcases hpins with rfl | rfl | rfl | rfl | rfl | rfl | rfl | rfl <;> exact ⟨_, rfl⟩
  · exact ⟨_, hf s⟩

end Sys2Proof.Machine

open Sys2Proof Sys2Proof.Machine

/-- Settles O7: each command answers what its arm names (`exec_answers`), and that keeps the queue (`Queued.exec`); the
five effects follow the rules of their operations; and a command whose occasion is there gives its own operation's
state (`exec_of_open`). -/
theorem everyCommandCompletes : Obligations.EveryCommandCompletes := by
  unfold Obligations.EveryCommandCompletes
  refine ⟨⟨?queue, ?effects⟩, ?arms⟩
  case queue =>
    intro c s hc
    obtain ⟨t, ht⟩ := exec_answers hc s
    exact ⟨t, ht, Queued.exec rfl ht⟩
  case effects =>
    intro s g n o raw dueNow p ch
    refine ⟨fun hup hact => ?reset, fun q id hup hitem hq hg hin hseg => ?mark,
      fun hup hitem h180 h188 hl hn => ?activation, fun hup hh hr => ?handOver, fun hup h64 hok => ?result⟩
    case reset =>
      obtain ⟨-, hlogic, -⟩ := targetResetPerformsTheActionSet s hup
      obtain ⟨t, ht, hflags, -, -, hrest, hptr, -, -, hibi, -, -, -, hin⟩ := hlogic hact
      exact ⟨t, ht, hptr, hibi, hin, hflags, (congrArg State.clk hrest :)⟩
    case mark =>
      obtain ⟨grp, hitem⟩ := hitem
      exact ⟨_, exec_of_open hup, markDue_of_now hitem hq hg hin hseg⟩
    case activation =>
      obtain ⟨grp, hitem⟩ := hitem
      exact ⟨_, exec_of_open hup, taskActivation_of_now hitem h180 h188 hl hn⟩
    case handOver => exact ⟨_, exec_of_open (ptUp_alive hup), parkHandover_takes hh hr⟩
    case result => exact ⟨_, exec_of_open hup, conversion_shows rfl h64 rfl hok⟩
  case arms =>
    intro s up pgUp
    exact ⟨
      ⟨fun _ _ h => exec_of_open h, fun _ h => exec_of_open h, exec_of_open, exec_of_open,
       fun _ h => exec_of_open h, fun _ _ h => exec_of_open h, fun _ h => exec_of_open h, exec_of_open,
       exec_of_open, exec_of_open, fun _ h => exec_of_open h, exec_of_open, fun _ h => exec_of_open h, exec_of_open,
       exec_of_open, exec_of_open, exec_of_open, exec_of_open, exec_of_open, exec_of_open,
       fun _ h => exec_of_open h, fun _ h => exec_of_open h, exec_of_open, fun _ h => exec_of_open h, exec_of_open⟩,
      ⟨fun _ => rfl, rfl, rfl, fun _ => rfl, rfl, rfl, rfl, fun _ _ _ h => exec_of_open h,
       fun _ _ _ h => exec_of_open h, fun _ _ h hu => exec_of_open_page h hu,
       fun _ _ h hu => exec_of_open_page h hu, fun _ _ h hu => exec_of_open_page h hu,
       fun _ _ h hu => exec_of_open_page h hu, fun _ _ h hu => exec_of_open_page h hu,
       fun _ _ h hu => exec_of_open_page h hu, fun _ _ h hu => exec_of_open_page h hu, fun _ h => exec_of_open h,
       fun _ h => exec_of_open h, fun _ h => exec_of_open h, fun _ _ _ h => exec_of_open h,
       fun _ _ h hu => exec_of_open_path h hu, fun _ _ h hu => exec_of_open_path h hu,
       fun _ _ h hu => exec_of_open_path h hu, fun _ _ h hu => exec_of_open_path h hu,
       fun _ _ _ h hu => exec_of_open_path h hu⟩,
      ⟨fun _ _ _ h hu => exec_of_open_path h hu, fun _ h hu => exec_of_open_path h hu,
       fun _ h hu => exec_of_open_path h hu, fun _ h => exec_of_open h, exec_of_open, fun _ _ h => exec_of_open h,
       exec_of_open, fun _ h => exec_of_open h, exec_of_open, exec_of_open, fun _ _ h => exec_of_open h,
       fun _ h => exec_of_open h, fun _ h => exec_of_open h, exec_of_open, fun _ h => exec_of_open h,
       fun _ h => exec_of_open h, fun _ h => exec_of_open h, fun _ h => exec_of_open h, fun _ h => exec_of_open h,
       fun _ h => exec_of_open h, fun _ h => exec_of_open h, fun _ h => exec_of_open h, fun _ h => exec_of_open h,
       fun _ h => exec_of_open h, fun _ h => exec_of_open h⟩,
      ⟨fun _ h => exec_of_open h, fun _ h => exec_of_open h, fun _ h => exec_of_open h, fun _ h => exec_of_open h,
       fun _ h => exec_of_open h, fun _ h => exec_of_open h, fun _ _ h => exec_of_open h,
       fun _ _ h => exec_of_open h, fun _ _ h => exec_of_open h, fun _ _ h => exec_of_open h,
       fun _ _ h => exec_of_open h, fun _ _ h => exec_of_open h, fun _ _ h => exec_of_open h,
       fun _ _ h => exec_of_open h, fun _ _ h => exec_of_open h, fun _ _ h => exec_of_open h,
       fun _ _ h => exec_of_open h, fun _ h => exec_of_open h, fun _ h => exec_of_open h, fun _ h => exec_of_open h,
       fun _ h => exec_of_open h, fun _ h => exec_of_open h, fun _ h => exec_of_open h, fun _ h => exec_of_open h,
       fun _ h => exec_of_open h⟩,
      ⟨fun _ h => exec_of_open h, fun _ h => exec_of_open h, fun _ h => exec_of_open h, fun _ h => exec_of_open h,
       fun _ h => exec_of_open h, fun _ _ h => exec_of_open h, fun _ h => exec_of_open h,
       fun _ _ h => exec_of_open h, fun _ h => exec_of_open h, fun _ h => exec_of_open h,
       fun _ _ _ h => exec_of_open h, fun _ h => exec_of_open h, fun _ h => exec_of_open h, exec_of_open,
       fun _ h => exec_of_open h, fun _ h => exec_of_open h, fun _ h => exec_of_open h,
       fun _ _ _ h => exec_of_open h, fun _ _ _ h => exec_of_open h, fun _ _ h => exec_of_open h,
       fun _ _ h => exec_of_open h, fun _ _ _ h => exec_of_open h, fun _ h => exec_of_open h,
       fun _ h => exec_of_open h, fun _ h => exec_of_open h⟩,
      ⟨fun _ h => exec_of_open h, fun _ h => exec_of_open h, fun _ _ _ _ _ h => exec_of_open h,
       fun _ h => exec_of_open h, fun _ h => exec_of_open h, fun _ h => exec_of_open h, exec_of_open, exec_of_open,
       fun _ _ h => exec_of_open h, exec_of_open, fun _ _ h => exec_of_open h, fun _ _ h => exec_of_open h,
       fun _ _ h => exec_of_open h, fun _ h => exec_of_open h, exec_of_open, exec_of_open,
       fun _ _ _ h => exec_of_open h, fun _ _ h => exec_of_open h, fun _ h => exec_of_open h, exec_of_open,
       fun _ h => exec_of_open h, fun _ h => exec_of_open h, fun _ h => exec_of_open h, fun _ h => exec_of_open h,
       fun _ _ _ h => exec_of_open h⟩,
      ⟨fun _ _ _ h => exec_of_open h, fun _ h => exec_of_open h, fun _ h => exec_of_open h,
       fun _ h => exec_of_open h, fun _ h => exec_of_open h, fun _ h => exec_of_open h, exec_of_open, exec_of_open,
       fun _ _ h => exec_of_open h, fun _ _ _ h => exec_of_open h, fun _ h => exec_of_open h,
       fun _ h => exec_of_open h, fun _ _ h => exec_of_open h, fun _ _ _ _ h => exec_of_open h,
       fun _ h => exec_of_open h, fun _ h => exec_of_open h, fun _ h => exec_of_open h, fun _ h => exec_of_open h,
       fun _ h => exec_of_open h, fun _ h => exec_of_open h, fun _ h => exec_of_open h, fun _ h => exec_of_open h,
       fun _ _ h => exec_of_open h, fun _ h => exec_of_open h, fun _ _ _ h => exec_of_open h⟩,
      ⟨fun _ h => exec_of_open h, fun _ h => exec_of_open h, fun _ h => exec_of_open h, fun _ h => exec_of_open h,
       fun _ _ h => exec_of_open h, fun _ _ h => exec_of_open h, fun _ h => exec_of_open h,
       fun _ _ h => exec_of_open h, fun _ h => exec_of_open h, fun _ _ h => exec_of_open h,
       fun _ h => exec_of_open h, fun _ h => exec_of_open h, fun _ _ h => exec_of_open h,
       fun _ _ h => exec_of_open h, fun _ _ h => exec_of_open h, fun _ _ h => exec_of_open h,
       fun _ _ h => exec_of_open h, fun _ _ h => exec_of_open h, fun _ _ h => exec_of_open h,
       fun _ _ h => exec_of_open h, fun _ _ h => exec_of_open h, fun _ h => exec_of_open h,
       fun _ h => exec_of_open h, fun _ _ _ _ h => exec_of_open h, fun _ _ _ _ h => exec_of_open h⟩,
      ⟨fun _ _ _ _ _ _ h => exec_of_open h, fun _ _ _ _ _ h => exec_of_open h, fun _ _ _ _ h => exec_of_open h,
       fun _ _ _ _ _ _ h => exec_of_open h, fun _ _ _ _ h => exec_of_open h, fun _ _ _ _ h => exec_of_open h,
       fun _ _ h => exec_of_open h, fun _ h => exec_of_open h, fun _ _ h => exec_of_open h,
       fun _ _ _ h => exec_of_open h, fun _ _ _ h => exec_of_open h, fun _ _ h => exec_of_open h,
       fun _ h => exec_of_open h, fun _ _ _ h => exec_of_open h, fun _ _ h => exec_of_open h,
       fun _ _ h => exec_of_open h, fun _ _ h => exec_of_open h, fun _ _ h => exec_of_open h,
       fun _ _ h => exec_of_open h, fun _ _ h => exec_of_open h, fun _ _ h => exec_of_open h,
       fun _ _ h => exec_of_open h, fun _ _ h => exec_of_open h, fun _ h => exec_of_open h,
       fun _ _ h => exec_of_open h⟩,
      ⟨fun _ h => exec_of_open h, fun _ h => exec_of_open h, fun _ h => exec_of_open h,
       fun _ _ _ h => exec_of_open h, fun _ _ _ h => exec_of_open h, fun _ _ _ h => exec_of_open h,
       fun _ _ _ h => exec_of_open h, fun _ _ _ h => exec_of_open h, exec_of_open, exec_of_open, exec_of_open,
       fun _ _ h => exec_of_open h, exec_of_open, rfl, rfl, exec_of_open, fun _ _ h => exec_of_open h, exec_of_open,
       fun _ h => exec_of_open h, fun _ h hu => exec_of_open_path h hu, fun _ _ h hu => exec_of_open_path h hu,
       fun _ h => exec_of_open h, fun _ _ h => exec_of_open h, exec_of_open, fun _ _ h => exec_of_open h⟩,
      ⟨fun _ _ h => exec_of_open h, fun _ _ h => exec_of_open h, fun _ _ h => exec_of_open h,
       fun _ h => exec_of_open h, fun _ h => exec_of_open h, fun _ h => exec_of_open h,
       fun _ _ _ h => exec_of_open h, fun _ h => exec_of_open h, fun _ _ _ _ h => exec_of_open h,
       fun _ h => exec_of_open h, fun _ h => exec_of_open h, fun _ h => exec_of_open h, fun _ _ h => exec_of_open h,
       exec_of_open, exec_of_open, fun _ h => exec_of_open h,
       fun _ hl h => (if_pos hl).trans (congrArg Host.Outcome.next (if_pos h)), fun _ _ _ h => exec_of_open h,
       exec_of_open, exec_of_open, exec_of_open, exec_of_open, fun _ h => exec_of_open h, fun _ h => exec_of_open h,
       exec_of_open⟩,
      ⟨exec_of_open, fun _ h => exec_of_open h, fun _ h => exec_of_open h, exec_of_open, exec_of_open,
       fun _ h => exec_of_open h, fun _ _ h => exec_of_open h, exec_of_open, exec_of_open, exec_of_open,
       exec_of_open, fun _ h => exec_of_open h, fun _ h => exec_of_open h, rfl, fun _ _ h => exec_of_open h,
       exec_of_open, fun _ _ h => exec_of_open h, fun _ _ h => exec_of_open h, fun _ _ _ h => exec_of_open h,
       fun _ _ h => exec_of_open h, fun _ h => exec_of_open h, fun _ _ _ _ h => exec_of_open h,
       fun _ _ h => exec_of_open h, fun _ _ h => exec_of_open h⟩⟩
end

section
/-! A sequencer in its setting: what its conduct depends on beside its own part, when it does nothing by itself, and
how a part of its word acts (R72 to R90). -/

namespace Sys2Proof.Machine

/-! ## Commands of a page that is up -/

section
variable {pt : PT} {c : Instr} {s : State} {f : State → State}

theorem next_of_up {t : State} (hup : ptUp s pt = true) (hc : exec c s = .next (whenUp pt f s)) (ht : f s = t) :
    exec c s = .next t := by rw [hc, whenUp_of hup, ht]

theorem gives_of_up {P : State → Prop} (hup : ptUp s pt = true) (hc : exec c s = .next (whenUp pt f s)) (hP : P (f s)) :
    Gives c s P := ⟨f s, next_of_up hup hc rfl, hP⟩

end

/-! ## Time -/

section
variable (t : BitVec 48) (s : State)

@[simp] theorem passTo_later : (passTo t s).later = s.later := by rw [passTo_eq]
@[simp] theorem passTo_items : (passTo t s).items = s.items := by rw [passTo_eq]
@[simp] theorem getSeq_passTo (q : Nat) : getSeq (passTo t s) q = getSeq s q := getSeq_congr (passTo_seqs t s) q

end

/-- The clock runs as soon as the sequencers are up (R63). -/
theorem clockRuns_of_seqUp {s : State} (h : ptUp s .seq = true) : clockRuns s = true := by
  unfold clockRuns
  simp only [ptUp, phaseEnded, Bool.and_eq_true] at h ⊢
  obtain ⟨⟨ha, hp⟩, hd⟩ := h
  have hp4 : 4 < phase s := of_decide_eq_true hp
  exact ⟨⟨ha, decide_eq_true (show 3 < phase s by omega)⟩, hd⟩

/-- A running clock stands at the tick to which time was let pass, or later. -/
theorem ticksTo_passTo_le {s : State} (hc : clockRuns s = true) (t : BitVec 48) :
    ticksTo (passTo t s).clk.tc t ≤ 0 := by
  rcases Int.lt_or_le 0 (ticksTo s.clk.tc t) with h | h
  · rw [passTo_tc hc h, ticksTo_self]
  · rwa [passTo_of_past h]

/-! ## What a sequencer's conduct depends on -/

/-- A word stands in its store. -/
theorem uword_congr {s t : State} (h : t.stores = s.stores) (q w : Nat) : uword t q w = uword s q w := by
  unfold uword cField kField laneBits
  rw [h]

/-- Two states agree in what decides how sequencers act beside the sequencers themselves: control, and which shots run. -/
structure SameShots (b s : State) : Prop where
  control : SameControl b s
  running : ∀ g, (getGroup s g).running = (getGroup b g).running

namespace SameShots

variable {b s t : State}

theorem refl (s : State) : SameShots s s := ⟨⟨rfl, rfl, rfl, rfl, rfl, fun _ _ _ _ _ => rfl⟩, fun _ => rfl⟩

theorem trans (h : SameShots b s) (h' : SameShots s t) : SameShots b t where
  control := h.control.trans h'.control
  running g := (h'.running g).trans (h.running g)

theorem ptUp (h : SameShots b s) (pt : PT) : ptUp s pt = ptUp b pt := ptUp_congr h.control.boot h.control.phase pt

theorem uword (h : SameShots b s) (q w : Nat) : uword s q w = uword b q w := uword_congr h.control.stores q w

section
variable {q : Nat} (hq : q < 0x100)
include hq

theorem goStarts (h : SameShots b s) : goStarts s q = goStarts b q := by
  unfold Machine.goStarts rd
  rw [h.control.reg q hq _ (by decide) (by decide)]

/-- The tick limit of a wait. -/
theorem limitTick (h : SameShots b s) (x : Seq) : limitTick s q x = limitTick b q x := by
  unfold Machine.limitTick rd
  rw [h.control.reg q hq _ (by decide) (by decide)]

theorem seqShotRuns (h : SameShots b s) : seqShotRuns s q = seqShotRuns b q := by
  unfold Machine.seqShotRuns shotRuns
  rw [seqGroup_congr (h.control.reg q hq _ (by decide) (by decide))]
  simp only [h.running]

theorem enabled (h : SameShots b s) : enabled s .seq q = enabled b .seq q :=
  enabled_congr h.control.boot h.control.phase (h.control.reg q hq _ (by decide) (by decide))

theorem seqLive (h : SameShots b s) (hi : (getSeq s q).inShot = (getSeq b q).inShot)
    (hs : (getSeq s q).st = (getSeq b q).st) : seqLive s q = seqLive b q := by
  unfold Machine.seqLive
  dsimp only
  rw [h.seqShotRuns hq, h.enabled hq, hi, hs]

/-- A sequencer that acts, acts while it runs or waits. -/
theorem seqLive_of (h : SameShots b s) (hl : Machine.seqLive b q = true) (hi : (getSeq s q).inShot = (getSeq b q).inShot)
    (hs : (getSeq s q).st = .run ∨ (getSeq s q).st = .wait) : Machine.seqLive s q = true := by
  unfold Machine.seqLive at hl ⊢
  simp only [Bool.and_eq_true] at hl ⊢
  obtain ⟨⟨⟨hin, hruns⟩, hen⟩, -⟩ := hl
  refine ⟨⟨⟨hi.trans hin, (h.seqShotRuns hq).trans hruns⟩, (h.enabled hq).trans hen⟩, ?_⟩
  rcases hs with hs | hs <;> rw [hs] <;> decide

end

end SameShots

/-- An operation elsewhere. -/
theorem Worked.shots {Q : Nat → Prop} {b s : State} (h : Worked Q b s) : SameShots b s where
  control := h.control
  running g := by
    obtain ⟨tag, past, e⟩ := h.groups g
    rw [e]

/-- The same, and nothing that waits for a tick has changed. -/
structure SameSetting (b s : State) : Prop extends SameShots b s where
  later : s.later = b.later

/-- An operation elsewhere that lets everything wait that waited. -/
theorem Worked.setting {Q : Nat → Prop} {b s : State} (h : Worked Q b s) (hl : s.later = b.later) : SameSetting b s where
  toSameShots := h.shots
  later := hl

namespace SameSetting

variable {b s t : State}

theorem refl (s : State) : SameSetting s s := ⟨.refl s, rfl⟩

theorem trans (h : SameSetting b s) (h' : SameSetting s t) : SameSetting b t :=
  ⟨h.toSameShots.trans h'.toSameShots, h'.later.trans h.later⟩

theorem setSeq (s : State) (q : Nat) (x : Seq) : SameSetting s (setSeq s q x) :=
  Worked.setting (Q := fun _ => True) (.setSeq (.refl _ s) trivial) rfl

theorem passTo (d : BitVec 48) (s : State) : SameSetting s (passTo d s) :=
  ⟨⟨passTo_control d s, fun g => by rw [getGroup_passTo]⟩, passTo_later d s⟩

/-- An event raised at a sequencer's page. -/
theorem raiseEvt (s : State) (q bit : Nat) (hb : bit < 32) : SameSetting s (raiseEvt .seq q bit s) :=
  Worked.setting (Q := fun _ => True) (.raiseSeq (.refl _ s) hb) (raiseEvt_later ..)

end SameSetting

/-! ## A sequencer that acts -/

/-- Two values of a sequencer agree in what decides whether it acts. -/
structure Alike (x y : Seq) : Prop where
  inShot : y.inShot = x.inShot
  st : y.st = x.st
  halt : y.halt = x.halt
  fixing : y.fixing = x.fixing
  succAt : y.succAt = x.succAt
  endAt : y.endAt = x.endAt
  go : y.go = x.go
  pc : y.pc = x.pc
  met : y.met = x.met

theorem Alike.refl (x : Seq) : Alike x x := ⟨rfl, rfl, rfl, rfl, rfl, rfl, rfl, rfl, rfl⟩

/-- What is done of the word, and the frames of its loops, do not decide. -/
theorem Alike.part (x : Seq) (did : List Nat) (loops : List Loop) : Alike x { x with did := did, loops := loops } :=
  ⟨rfl, rfl, rfl, rfl, rfl, rfl, rfl, rfl, rfl⟩

section
variable {s : State} {q : Nat} (h : SeqQuiet s q)
include h

theorem SeqQuiet.later : s.later = [] := by
  obtain ⟨⟨hlater, -⟩, -⟩ := h
  exact hlater

theorem SeqQuiet.halt : (getSeq s q).halt = false := by
  obtain ⟨⟨-, hhalt, -⟩, -⟩ := h
  exact hhalt

end

theorem SeqQuiet.of_alike {s t : State} {q : Nat} (h : SeqQuiet s q) (hl : t.later = s.later) (hw : t.stores = s.stores)
    (a : Alike (getSeq s q) (getSeq t q)) : SeqQuiet t q := by
  obtain ⟨⟨hlater, hhalt, hfixing, hsucc, hend⟩, hgo⟩ := h
  refine ⟨⟨hl.trans hlater, a.halt.trans hhalt, a.fixing.trans hfixing, a.succAt.trans hsucc, a.endAt.trans hend⟩, ?_⟩
  rwa [a.go, a.pc, a.met, uword_congr hw]

/-- A sequencer is live in microcode, and nothing waits for a tick at it. -/
structure Steady (s : State) (q : Nat) : Prop where
  lt : q < 0x100
  live : seqLive s q = true
  micro : segMode s q = false
  quiet : SeqQuiet s q

namespace Steady

variable {s t : State} {q : Nat}

theorem congr (h : Steady s q) (e : SameSetting s t) (a : Alike (getSeq s q) (getSeq t q)) : Steady t q where
  lt := h.lt
  live := (e.seqLive h.lt a.inShot a.st).trans h.live
  micro := (e.control.segMode h.lt).trans h.micro
  quiet := h.quiet.of_alike e.later e.control.stores a

end Steady

theorem laterCatch_of_nil {s : State} (h : s.later = []) : laterCatch s = s := by
  have hstay : { s with later := [] } = s := by rw [← h]
  unfold laterCatch
  rw [h]
  exact hstay

/-- Where nothing waits, a sequencer does nothing by itself. -/
theorem seqTick_of_quiet {s : State} {q : Nat} (h : SeqQuiet s q) : seqTick q s = s := by
  obtain ⟨⟨hlater, hhalt, hfixing, hsucc, hend⟩, hgo⟩ := h
  have hsettle : settleSuccessor q s = s := by simp [settleSuccessor, hfixing]
  have hstart : startSuccessor q s = s := by simp [startSuccessor, hsucc]
  have hfixed : endFixed q s = s := by simp [endFixed, hend]
  have hlatch : takeLatch q s = s := by
    unfold takeLatch eventWaits
    rcases hgo with hgo | hgo | hgo <;> simp [hgo]
  simp [seqTick, laterCatch_of_nil hlater, hhalt, hsettle, hstart, hfixed, hlatch]

/-! ## Parts of a word -/

theorem openBefore_of_nil {x : Seq} (h : x.ahead = []) : openBefore x = [] := by simp [openBefore, h]

/-- A word that stands behind no open branch has its tick at once. -/
theorem passWord_of_nil {x : Seq} (h : x.ahead = []) (t : BitVec 48) (s : State) : passWord x t s = passTo t s := by
  simp [passWord, openBefore_of_nil h]

theorem passNext_of_nil {x : Seq} (h : x.ahead = []) (t : BitVec 48) (s : State) : passNext x t s = passTo t s := by
  simp [passNext, h]

/-- What a word does outside its sequencer, with no branch open before it, is done in its tick. -/
theorem doOrKeep_of_nil {q : Nat} {s : State} (h : (getSeq s q).ahead = []) (p : Prov) :
    doOrKeep q p s = doAt (getSeq s q).w q p s := by
  simp [doOrKeep, openBefore_of_nil h]

theorem doAt_of_past {t : BitVec 48} {s : State} (h : ticksTo s.clk.tc t ≤ 0) (q : Nat) (p : Prov) :
    doAt t q p s = doKept q p s := if_neg (by omega)

/-- The state in which a part of the current word acts: its tick has come, and the part counts as done. -/
def begun (s : State) (q code : Nat) : State :=
  setSeq (passTo (getSeq s q).w s) q { getSeq s q with did := code :: (getSeq s q).did }

section
variable (s : State) (q code : Nat)

@[simp] theorem getSeq_begun : getSeq (begun s q code) q = { getSeq s q with did := code :: (getSeq s q).did } :=
  getSeq_setSeq_self ..

theorem getSeq_begun_ne {r : Nat} (h : r ≠ q) : getSeq (begun s q code) r = getSeq s r := by
  rw [begun, getSeq_setSeq_ne _ _ h, getSeq_passTo]

@[simp] theorem begun_regs : (begun s q code).regs = s.regs := passTo_regs _ s
@[simp] theorem begun_items : (begun s q code).items = s.items := passTo_items _ s
@[simp] theorem begun_later : (begun s q code).later = s.later := passTo_later _ s
@[simp] theorem begun_groups : (begun s q code).groups = s.groups := passTo_groups _ s
theorem begun_clk : (begun s q code).clk = (passTo (getSeq s q).w s).clk := rfl

theorem SameSetting.begun : SameSetting s (begun s q code) := (SameSetting.passTo _ s).trans (.setSeq ..)

end

theorem Steady.begun {s : State} {q : Nat} (h : Steady s q) (code : Nat) : Steady (begun s q code) q :=
  h.congr (.begun s q code) (by rw [getSeq_begun]; exact .part ..)

/-- By then the word's tick is no longer ahead. -/
theorem ticksTo_begun_le {s : State} (hup : ptUp s .seq = true) (q code : Nat) :
    ticksTo (begun s q code).clk.tc (getSeq s q).w ≤ 0 := ticksTo_passTo_le (clockRuns_of_seqUp hup) _

section
variable {s : State} {q code : Nat} {cond : Uword → Bool} (f : Seq → Uword → State → State)

/-- A part that the word codes, and that has not acted, acts in the word's tick. -/
theorem part_acts (h : Steady s q) (ha : (getSeq s q).ahead = []) (hc : code ∉ (getSeq s q).did)
    (h9 : 999 ∉ (getSeq s q).did) (hu : cond (uword s q (getSeq s q).pc) = true) :
    part q code cond f s = f (getSeq s q) (uword s q (getSeq s q).pc) (begun s q code) := by
  simp [part, begun, seqTick_of_quiet h.quiet, h.live, h.micro, hc, h9, hu, passWord_of_nil ha]

/-- A part that the word does not code, or that has acted, does nothing. -/
theorem part_skips (h : SeqQuiet s q) (hc : code ∈ (getSeq s q).did ∨ cond (uword s q (getSeq s q).pc) = false) :
    part q code cond f s = s := by
  rcases hc with hc | hc <;> simp [part, seqTick_of_quiet h, hc]

/-- A sequencer that is not live in microcode does no part of a word. -/
theorem part_idle (h : SeqQuiet s q) (hl : seqLive s q = false ∨ segMode s q = true) : part q code cond f s = s := by
  rcases hl with hl | hl <;> simp [part, seqTick_of_quiet h, hl]

end

end Sys2Proof.Machine
end

section
/-! What the converters' work leaves alone beside `Worked`: what waits for a tick, and the registers of the sequencers'
pages. -/

namespace Sys2Proof.Machine

/-- Between `b` and `s` registers changed on the pages of converters, Ladle and Mortar only, and nothing was made to
wait. -/
structure Near (b s : State) : Prop where
  later : s.later = b.later
  regs : ∀ a, ¬ FarReg a → getReg s a = getReg b a

namespace Near

variable {b s t : State}

protected theorem refl (s : State) : Near s s := ⟨rfl, fun _ _ => rfl⟩

protected theorem trans (h : Near b s) (h' : Near s t) : Near b t :=
  ⟨h'.later.trans h.later, fun a ha => (h'.regs a ha).trans (h.regs a ha)⟩

protected theorem ite {c : Prop} [Decidable c] (h : Near b s) (h' : Near b t) : Near b (if c then s else t) := by
  split
  · exact h
  · exact h'

protected theorem foldl {β : Type} {f : State → β → State} (hf : ∀ {t x}, Near b t → Near b (f t x))
    {l : List β} (h : Near b s) : Near b (l.foldl f s) := by
  induction l generalizing s with
  | nil => exact h
  | cons x l ih => exact ih (hf h)

/-- Nothing that the relation speaks of. -/
protected theorem frame (h : Near b s) (e : (t.later, t.regs) = (s.later, s.regs)) : Near b t := by
  simp only [Prod.mk.injEq] at e
  obtain ⟨hl, hr⟩ := e
  exact h.trans ⟨hl, fun a _ => getReg_congr hr a⟩

protected theorem setReg (h : Near b s) {a : Nat} (ha : FarReg a) (v : Word) : Near b (setReg s a v) :=
  h.trans ⟨rfl, fun _ hc => getReg_setReg_ne s v fun e => hc (e ▸ ha)⟩

protected theorem wr (h : Near b s) {pt : PT} {n off hi lo v : Nat} (hp : 0x110 ≤ ptBase pt) :
    Near b (wr s pt n off hi lo v) := h.setReg (farReg_high hp n off) _

protected theorem bump (h : Near b s) {pt : PT} {n off hi lo k : Nat} (hp : 0x110 ≤ ptBase pt) :
    Near b (bump s pt n off hi lo k) := h.wr hp

protected theorem raiseEvt (h : Near b s) {pt : PT} {n bit : Nat} (hp : 0x110 ≤ ptBase pt) :
    Near b (raiseEvt pt n bit s) :=
  h.trans ⟨raiseEvt_later .., fun a hc => by rw [getReg_raiseEvt, if_neg (by rintro rfl; exact hc (farReg_high hp n _))]⟩

protected theorem raiseEvtIf (h : Near b s) {c : Bool} {pt : PT} {n bit : Nat} (hp : 0x110 ≤ ptBase pt) :
    Near b (raiseEvtIf c pt n bit s) := .ite (h.raiseEvt hp) h

/-! ## Outputs -/

protected theorem noteGate {before : State} {t : BitVec 48} {out : Nat} (h : Near b s) :
    Near b (noteGate before t out s) := by
  unfold Machine.noteGate
  exact .ite h (h.frame (by rfl))

protected theorem gated {t : BitVec 48} {f : State → State} (hf : Near b (f s)) :
    Near b (gated t f s) := .foldl .noteGate hf

protected theorem raiseFirst {pt : PT} {n bit : Nat} (h : Near b s) (hp : 0x110 ≤ ptBase pt) :
    Near b (raiseFirst pt n bit s) := by
  unfold Machine.raiseFirst
  exact .ite h (.raiseEvt (.frame h (by rfl)) hp)

protected theorem fluxPost {o : Nat} {f : Flux} (h : Near b s) : Near b (fluxPost o f s) := by
  unfold Machine.fluxPost
  extract_lets s1 s2 s3 s4
  have h1 : Near b s1 := h.frame (by rfl)
  have h2 : Near b s2 := .ite h1 (.raiseFirst (h1.bump (by decide)) (by decide))
  have h3 : Near b s3 := h2.raiseEvtIf (by decide)
  have h4 : Near b s4 := .ite h3 (.raiseEvt (h3.bump (by decide)) (by decide))
  exact h4.raiseEvtIf (by decide)

protected theorem fluxCatch {o : Nat} (h : Near b s) : Near b (fluxCatch o s) := by
  unfold Machine.fluxCatch
  exact .ite h (.ite (h.frame (by rfl)) h.fluxPost)

protected theorem putFlux {o p w : Nat} {act : FAct} {deps : List Nat} (h : Near b s) :
    Near b (putFlux o p w act deps s) :=
  h.frame (by rfl)

protected theorem fluxRampAt {t : BitVec 48} {toPark : Bool} {o : Nat} (h : Near b s) :
    Near b (fluxRampAt t toPark o s) := by
  unfold Machine.fluxRampAt
  extract_lets s1 f keep s2
  have h1 : Near b s1 := h.fluxCatch
  have h2 : Near b s2 := h1.frame (by rfl)
  exact .ite h1 (.ite h2 h2.putFlux)

protected theorem silenceSeq {q : Nat} {t : BitVec 48} (h : Near b s) : Near b (silenceSeq q t s) :=
  .ite (.gated (h.frame (by rfl))) (.ite (.foldl (fun h => .frame h.fluxRampAt (by rfl)) h) h)

/-- A register of a sequencer's page. -/
theorem regSeq (h : Near b s) {q off : Nat} (hq : q < 0x100) (ho : off < 4096) : reg s .seq q off = reg b .seq q off :=
  h.regs _ fun hf => hf.ne_seq hq ho rfl

end Near

end Sys2Proof.Machine
end

section
/-! The end of a word (O24): LOOP_OP, the choice of a successor, stack faults. -/

namespace Sys2Proof.Machine

/-- The count of the frame that the current word pushes (R88). -/
def loopCount (s : State) (q : Nat) : Nat :=
  let u := uword s q (getSeq s q).pc
  if u.lsrc = 0 then u.limm else rd s .seq q (0x060 + 4 * (u.lsrc - 1)) 23 0

/-- The current word's PUSH has still to act. -/
def Pushes (s : State) (q : Nat) : Prop := (uword s q (getSeq s q).pc).loopOp = 1 ∧ 300 ∉ (getSeq s q).did

/-- The current word's BREAK has still to act. -/
def Pops (s : State) (q : Nat) : Prop := (uword s q (getSeq s q).pc).loopOp = 2 ∧ 301 ∉ (getSeq s q).did

/-- The sequencer after its PUSH. -/
def pushed (s : State) (q : Nat) : Seq :=
  let x := getSeq s q
  { x with
    did := 300 :: x.did
    loops := { start := pushStart x (uword s q x.pc), count := loopCount s q } :: x.loops }

/-- The sequencer after its BREAK. -/
def popped (s : State) (q : Nat) : Seq :=
  let x := getSeq s q
  { x with did := 301 :: x.did, loops := x.loops.tail }

/-- The sequencer after its LOOP_OP. -/
def afterLoopOp (s : State) (q : Nat) : Seq :=
  if (uword s q (getSeq s q).pc).loopOp = 1 ∧ 300 ∉ (getSeq s q).did then pushed s q
  else if (uword s q (getSeq s q).pc).loopOp = 2 ∧ 301 ∉ (getSeq s q).did then popped s q else getSeq s q

/-- LOOP_OP changes the loop stack, and is marked as done. -/
theorem afterLoopOp_eq (s : State) (q : Nat) :
    ∃ did loops, afterLoopOp s q = { getSeq s q with did := did, loops := loops } ∧
      ∀ c ∈ did, c = 300 ∨ c = 301 ∨ c ∈ (getSeq s q).did := by
  unfold afterLoopOp
  split
  · exact ⟨_, _, rfl, fun c hc => (List.mem_cons.1 hc).imp_right .inr⟩
  · split
    · exact ⟨_, _, rfl, fun c hc => .inr (List.mem_cons.1 hc)⟩
    · exact ⟨_, _, rfl, fun c hc => .inr (.inr hc)⟩

/-- Beside the sequencer itself, time passed to its word's tick, and a PUSH with count 0 raised its event. -/
structure OnlyLoopOp (s : State) (q : Nat) (t : State) : Prop where
  others : ∀ r, r ≠ q → getSeq t r = getSeq s r
  clk : t.clk = (passTo (getSeq s q).w s).clk
  zero : Pushes s q ∧ loopCount s q = 0 → rdBit t .seq q 0x010 4 = true
  frame : ¬ (Pushes s q ∧ loopCount s q = 0) → { t with seqs := s.seqs } = passTo (getSeq s q).w s

section
variable {s t : State} {q : Nat}

theorem OnlyLoopOp.setSeq (h : OnlyLoopOp s q t) (x : Seq) : OnlyLoopOp s q (setSeq t q x) :=
  ⟨fun r hr => (getSeq_setSeq_ne t x hr).trans (h.others r hr), h.clk, h.zero, h.frame⟩

/-- Only time passed, and the sequencer changed. -/
theorem onlyLoopOp_passTo (h : ¬ (Pushes s q ∧ loopCount s q = 0)) : OnlyLoopOp s q (passTo (getSeq s q).w s) :=
  ⟨fun r _ => getSeq_passTo _ s r, rfl, fun hz => absurd hz h, fun _ => by rw [← passTo_seqs (getSeq s q).w s]⟩

theorem onlyLoopOp_begun (h : ¬ (Pushes s q ∧ loopCount s q = 0)) (code : Nat) : OnlyLoopOp s q (begun s q code) :=
  (onlyLoopOp_passTo h).setSeq _

/-- The event of a PUSH with count 0. -/
theorem onlyLoopOp_raiseEvt (h : Pushes s q ∧ loopCount s q = 0) {code : Nat} {x : Seq} :
    OnlyLoopOp s q (raiseEvt .seq q 4 (setSeq (begun s q code) q x)) where
  others r hr := by rw [getSeq_congr (raiseEvt_seqs ..), getSeq_setSeq_ne _ x hr, getSeq_begun_ne s q code hr]
  clk := raiseEvt_clk ..
  zero _ := rdBit_raiseEvt_self _ _ _ _ (by decide)
  frame hn := absurd h hn

/-- In the state after LOOP_OP no time is left to the word's tick. -/
theorem OnlyLoopOp.past (h : OnlyLoopOp s q t) (hup : ptUp s .seq = true) : passTo (getSeq s q).w t = t :=
  passTo_of_past (h.clk ▸ ticksTo_passTo_le (clockRuns_of_seqUp hup) _)

/-! ## Stack faults -/

theorem stackFault_of_nil (ha : (getSeq t q).ahead = []) : stackFault q t = stackFaultNow q t := by
  simp [stackFault, openBefore_of_nil ha]

theorem stackFaultNow_stops (hq : q < 0x100) (t : State) :
    getSeq (stackFaultNow q t) q = { getSeq t q with st := .stopped, succ := none, halt := false } ∧
      rdBit (stackFaultNow q t) .seq q 0x018 1 = true := by
  unfold stackFaultNow
  extract_lets x s1
  have hw : Worked (fun _ => False) s1 (silenceSeq q (t.clk.tc + 4) (tagSeq q tagCorrupt (raiseFault .seq q 1 s1))) :=
    .silenceSeq (.tagSeq (.faultSeq (.refl _ s1)))
  refine ⟨(getSeq_congr (hw.seqs fun _ h => h) q).trans (getSeq_setSeq_self ..), ?_⟩
  unfold rdBit
  rw [(Near.silenceSeq (.refl _)).regSeq hq (by decide), (Tagged.tagSeq ..).reg_off (by decide) (by decide)]
  exact rdBit_raiseFault_self _ _ _ _ (by decide)

/-- The sequencer has stopped with a stack fault, its call stack as it was. -/
def Halts (q : Nat) (x : Seq) (t : State) : Prop :=
  (getSeq t q).st = .stopped ∧ (getSeq t q).succ = none ∧ rdBit t .seq q 0x018 1 = true ∧ (getSeq t q).calls = x.calls

theorem halts_of_stackFault (hq : q < 0x100) {x : Seq} (ha : (getSeq t q).ahead = [])
    (hc : (getSeq t q).calls = x.calls) : Halts q x (stackFault q t) := by
  rw [stackFault_of_nil ha]
  obtain ⟨hseq, hfault⟩ := stackFaultNow_stops hq t
  exact ⟨by rw [hseq], by rw [hseq], hfault, by rw [hseq]; exact hc⟩

/-! ## LOOP_OP -/

section
variable (h : Steady s q) (ha : (getSeq s q).ahead = []) (h9 : 999 ∉ (getSeq s q).did)
include h ha h9

/-- A PUSH onto a full stack. -/
theorem loopPush_full (hp : Pushes s q) (hl : 8 ≤ (getSeq s q).loops.length) :
    loopPush q s = stackFault q (begun s q 300) := by
  unfold loopPush
  rw [part_acts _ h ha hp.2 h9 (decide_eq_true hp.1)]
  exact if_pos hl

/-- A BREAK on an empty stack. -/
theorem loopBreak_empty (hp : Pops s q) (hl : (getSeq s q).loops = []) :
    loopBreak q s = stackFault q (begun s q 301) := by
  unfold loopBreak
  rw [part_acts _ h ha hp.2 h9 (decide_eq_true hp.1)]
  simp [hl]

/-- A BREAK in its word's tick. -/
theorem loopBreak_pops (hp : Pops s q) (hl : (getSeq s q).loops ≠ []) :
    loopBreak q s = setSeq (begun s q 301) q (popped s q) := by
  unfold loopBreak
  rw [part_acts _ h ha hp.2 h9 (decide_eq_true hp.1)]
  obtain ⟨l, ls, e⟩ := List.exists_cons_of_ne_nil hl
  simp [popped, e]

/-- A PUSH in its word's tick. -/
theorem loopPush_pushes (hup : ptUp s .seq = true) (hp : Pushes s q) (hl : (getSeq s q).loops.length < 8) : loopPush q s =
    if loopCount s q = 0 then raiseEvt .seq q 4 (setSeq (begun s q 300) q (pushed s q))
    else setSeq (begun s q 300) q (pushed s q) := by
  have hcount (u : Uword) : (if u.lsrc = 0 then u.limm else rd (begun s q 300) .seq q (0x060 + 4 * (u.lsrc - 1)) 23 0) =
      if u.lsrc = 0 then u.limm else rd s .seq q (0x060 + 4 * (u.lsrc - 1)) 23 0 := by
    rw [rd_congr (begun_regs s q 300)]
  have hseq : setSeq (begun s q 300) q (pushed s q) = setSeq (begun s q 300) q { getSeq (begun s q 300) q with
      loops := { start := pushStart (getSeq (begun s q 300) q) (uword s q (getSeq s q).pc), count := loopCount s q } ::
        (getSeq (begun s q 300) q).loops } := by
    rw [getSeq_begun]
    rfl
  have hzero : doOrKeep q .loopZero (setSeq (begun s q 300) q (pushed s q)) =
      raiseEvt .seq q 4 (setSeq (begun s q 300) q (pushed s q)) := by
    rw [doOrKeep_of_nil (by rw [getSeq_setSeq_self]; exact ha), getSeq_setSeq_self]
    exact doAt_of_past (s := setSeq (begun s q 300) q (pushed s q)) (ticksTo_begun_le hup q 300) q .loopZero
  unfold loopPush
  rw [part_acts _ h ha hp.2 h9 (decide_eq_true hp.1)]
  dsimp only
  rw [if_neg (by omega), hcount, ← hzero, hseq]
  rfl

/-- After a PUSH with room on the stack. -/
theorem loopPush_done (hup : ptUp s .seq = true) (hp : Pushes s q) (hl : (getSeq s q).loops.length < 8) :
    getSeq (loopPush q s) q = pushed s q ∧ SameSetting s (loopPush q s) ∧ OnlyLoopOp s q (loopPush q s) := by
  have hset : SameSetting s (setSeq (begun s q 300) q (pushed s q)) := (SameSetting.begun s q 300).trans (.setSeq ..)
  rw [loopPush_pushes h ha h9 hup hp hl]
  split
  next hz =>
    refine ⟨?_, hset.trans (.raiseEvt _ q 4 (by decide)), onlyLoopOp_raiseEvt ⟨hp, hz⟩⟩
    rw [getSeq_congr (raiseEvt_seqs ..), getSeq_setSeq_self]
  next hz => exact ⟨getSeq_setSeq_self .., hset, (onlyLoopOp_begun (fun hc => hz hc.2) 300).setSeq _⟩

/-- After a BREAK with a frame on the stack. -/
theorem loopBreak_done (hp : Pops s q) (hl : (getSeq s q).loops ≠ []) :
    getSeq (loopBreak q s) q = popped s q ∧ SameSetting s (loopBreak q s) ∧ OnlyLoopOp s q (loopBreak q s) := by
  have hnot : ¬ (Pushes s q ∧ loopCount s q = 0) := fun hc => absurd (hp.1.symm.trans hc.1.1) (by decide)
  rw [loopBreak_pops h ha h9 hp hl]
  exact ⟨getSeq_setSeq_self .., (SameSetting.begun s q 301).trans (.setSeq ..), (onlyLoopOp_begun hnot 301).setSeq _⟩

/-- LOOP_OP and time: the sequencer's stacks are changed, and beside it nothing but its event. -/
theorem loopOp_done (hup : ptUp s .seq = true) (hpush : Pushes s q → (getSeq s q).loops.length < 8)
    (hpop : Pops s q → (getSeq s q).loops ≠ []) :
    getSeq (loopBreak q (loopPush q s)) q = afterLoopOp s q ∧ SameSetting s (loopBreak q (loopPush q s)) ∧
      OnlyLoopOp s q (passTo (getSeq s q).w (loopBreak q (loopPush q s))) := by
  by_cases hp : Pushes s q
  · obtain ⟨hseq, hset, honly⟩ := loopPush_done h ha h9 hup hp (hpush hp)
    have hquiet : SeqQuiet (loopPush q s) q :=
      (h.congr hset (hseq ▸ .part ..)).quiet
    have hskip : loopBreak q (loopPush q s) = loopPush q s := by
      refine part_skips _ hquiet (.inr ?_)
      rw [hset.uword, hseq]
      exact decide_eq_false fun e => absurd (hp.1.symm.trans e) (by decide)
    rw [hskip, honly.past hup]
    exact ⟨hseq.trans (if_pos hp).symm, hset, honly⟩
  · have hskip : loopPush q s = s := by
      refine part_skips _ h.quiet ?_
      by_cases hd : 300 ∈ (getSeq s q).did
      · exact .inl hd
      · exact .inr (decide_eq_false fun e => hp ⟨e, hd⟩)
    rw [hskip]
    by_cases hb : Pops s q
    · obtain ⟨hseq, hset, honly⟩ := loopBreak_done h ha h9 hb (hpop hb)
      rw [honly.past hup]
      exact ⟨hseq.trans ((if_neg hp).trans (if_pos hb)).symm, hset, honly⟩
    · have hskip' : loopBreak q s = s := by
        refine part_skips _ h.quiet ?_
        by_cases hd : 301 ∈ (getSeq s q).did
        · exact .inl hd
        · exact .inr (decide_eq_false fun e => hb ⟨e, hd⟩)
      rw [hskip']
      exact ⟨((if_neg hp).trans (if_neg hb)).symm, SameSetting.refl s,
        onlyLoopOp_passTo fun hc => hp hc.1⟩

end

/-! ## NEXT -/

/-- The word may choose its successor: its LOOP_OP finds room or a frame, and NEXT has not acted. -/
structure MayChoose (s : State) (q : Nat) : Prop where
  up : ptUp s .seq = true
  steady : Steady s q
  ahead : (getSeq s q).ahead = []
  goesOn : 999 ∉ (getSeq s q).did
  push : Pushes s q → (getSeq s q).loops.length < 8
  pop : Pops s q → (getSeq s q).loops ≠ []
  succ : (getSeq s q).succ = none
  st : (getSeq s q).st ≠ .stopped
  fresh : 200 + (uword s q (getSeq s q).pc).next ∉ (getSeq s q).did

/-- After its LOOP_OP a part has changed the sequencer by `f`. -/
def Does (s : State) (q code : Nat) (f : Seq → Seq) (t : State) : Prop :=
  getSeq t q = f { afterLoopOp s q with did := code :: (afterLoopOp s q).did } ∧ OnlyLoopOp s q t

namespace Does

variable {code : Nat}

theorem setSeq {g : Seq → Seq} (h : Does s q code g t) (f : Seq → Seq) :
    Does s q code (fun z => f (g z)) (setSeq t q (f (getSeq t q))) := ⟨by rw [getSeq_setSeq_self, h.1], h.2.setSeq _⟩

/-- The successor is chosen. -/
theorem setSucc {g : Seq → Seq} (h : Does s q code g t) (sc : Succ) :
    Does s q code (fun z => { g z with succ := some sc }) (setSucc q sc t) := h.setSeq fun z => { z with succ := some sc }

section
variable (h : Does s q code (fun z => z) t)
include h

theorem loops : (getSeq t q).loops = (afterLoopOp s q).loops := by rw [h.1]

theorem rest : (getSeq t q).calls = (getSeq s q).calls ∧ (getSeq t q).pc = (getSeq s q).pc ∧
    (getSeq t q).ahead = (getSeq s q).ahead := by
  obtain ⟨did, loops, hy, -⟩ := afterLoopOp_eq s q
  rw [h.1, hy]
  exact ⟨rfl, rfl, rfl⟩

/-- A fault where LOOP_OP was done. -/
theorem halts (hc : MayChoose s q) : Halts q (getSeq s q) (stackFault q t) := by
  obtain ⟨hcalls, -, hahead⟩ := h.rest
  exact halts_of_stackFault hc.steady.lt (hahead.trans hc.ahead) hcalls

end

end Does

/-- The word chooses its successor in its tick, after its LOOP_OP. -/
theorem nextWord_acts (hc : MayChoose s q) {code : Nat} (hlt : code < 100) (hn : (uword s q (getSeq s q).pc).next = code)
    (f : Seq → Uword → State → State) :
    ∃ t, Does s q (200 + code) (fun z => z) t ∧
      nextWord q code f s = f (getSeq t q) (uword s q (getSeq s q).pc) t := by
  obtain ⟨hseq, hset, honly⟩ := loopOp_done hc.steady hc.ahead hc.goesOn hc.up hc.push hc.pop
  generalize hv : loopBreak q (loopPush q s) = v at hseq hset honly
  obtain ⟨did, loops, hy, hmem⟩ := afterLoopOp_eq s q
  have hsteady : Steady v q := hc.steady.congr hset (by rw [hseq, hy]; exact .part ..)
  have hw : (getSeq v q).w = (getSeq s q).w := by rw [hseq, hy]
  have hu : uword v q (getSeq v q).pc = uword s q (getSeq s q).pc := by rw [hset.uword, hseq, hy]
  have hn' : (uword v q (getSeq v q).pc).next = code := by rw [hu, hn]
  have hdid {c : Nat} (hne : c ≠ 300 ∧ c ≠ 301) (h : c ∉ (getSeq s q).did) : c ∉ (getSeq v q).did := by
    rw [hseq, hy]
    exact fun hm => (hmem c hm).elim hne.1 fun hm => hm.elim hne.2 h
  have hbegun : getSeq (begun v q (200 + code)) q =
      { afterLoopOp s q with did := (200 + code) :: (afterLoopOp s q).did } := by
    rw [getSeq_begun, hseq]
  refine ⟨begun v q (200 + code), ⟨hbegun, ?_⟩, ?_⟩
  · unfold begun
    rw [hw]
    exact honly.setSeq _
  · unfold nextWord
    rw [if_pos hn, hv, part_acts _ hsteady (by rw [hseq, hy]; exact hc.ahead) (hdid (by omega) (hn ▸ hc.fresh))
      (hdid (by omega) hc.goesOn) (decide_eq_true hn'), hu]
    refine if_pos ?_
    have hhalt : (getSeq s q).halt = false := hc.steady.quiet.halt
    have hst : (getSeq s q).st ≠ .stopped := hc.st
    rw [hbegun, hy]
    simp [hc.succ, hhalt, hst]

section
variable (hc : MayChoose s q)
include hc

theorem wordSeq_does (hn : (uword s q (getSeq s q).pc).next = 0) :
    Does s q 200 (fun z => { z with succ := some (.word (nextOf (getSeq s q).pc)) }) (wordSeq q s) := by
  obtain ⟨t, ht, hf⟩ := nextWord_acts hc (by decide) hn fun x _ t => setSucc q (.word (nextOf x.pc)) t
  rw [wordSeq, hf, ht.rest.2.1]
  exact ht.setSucc _

theorem wordJump_does (hn : (uword s q (getSeq s q).pc).next = 1) :
    Does s q 201 (fun z => { z with succ := some (.word (uword s q (getSeq s q).pc).target) }) (wordJump q s) := by
  obtain ⟨t, ht, hf⟩ := nextWord_acts hc (by decide) hn fun _ u t => setSucc q (.word u.target) t
  rw [wordJump, hf]
  exact ht.setSucc _

theorem wordEnd_does (hn : (uword s q (getSeq s q).pc).next = 6) :
    Does s q 206 (fun z => { z with succ := some .fin }) (wordEnd q s) := by
  obtain ⟨t, ht, hf⟩ := nextWord_acts hc (by decide) hn fun _ _ t => setSucc q .fin t
  rw [wordEnd, hf]
  exact ht.setSucc _

/-- CALL pushes W + 1, or finds the call stack full. -/
theorem wordCall_does (hn : (uword s q (getSeq s q).pc).next = 3) :
    ((getSeq s q).calls.length < 8 → Does s q 203 (fun z => { z with
        succ := some (.word (uword s q (getSeq s q).pc).target)
        calls := nextOf (getSeq s q).pc :: (getSeq s q).calls }) (wordCall q s)) ∧
      (8 ≤ (getSeq s q).calls.length → Halts q (getSeq s q) (wordCall q s)) := by
  obtain ⟨t, ht, hf⟩ := nextWord_acts hc (by decide) hn fun x u t =>
    if 8 ≤ x.calls.length then stackFault q t
    else setSucc q (.word u.target) (setSeq t q { x with calls := nextOf x.pc :: x.calls })
  obtain ⟨hcalls, hpc, -⟩ := ht.rest
  rw [wordCall, hf, ← hcalls, ← hpc]
  refine ⟨fun hl => ?_, fun hl => ?_⟩
  · rw [if_neg (by omega)]
    exact (ht.setSeq fun z => { z with calls := nextOf (getSeq t q).pc :: (getSeq t q).calls }).setSucc _
  · rw [if_pos hl]
    exact ht.halts hc

/-- RET pops the call stack, or finds it empty. -/
theorem wordRet_does (hn : (uword s q (getSeq s q).pc).next = 4) :
    (∀ a r, (getSeq s q).calls = a :: r →
        Does s q 204 (fun z => { z with succ := some (.word a), calls := r }) (wordRet q s)) ∧
      ((getSeq s q).calls = [] → Halts q (getSeq s q) (wordRet q s)) := by
  obtain ⟨t, ht, hf⟩ := nextWord_acts hc (by decide) hn fun x _ t =>
    match x.calls with
    | [] => stackFault q t
    | a :: as => setSucc q (.word a) (setSeq t q { x with calls := as })
  have hret : wordRet q s = _ := hf
  obtain ⟨hcalls, -⟩ := ht.rest
  rw [hret]
  refine ⟨fun a r hl => ?_, fun hl => ?_⟩
  · simp only [hcalls, hl]
    exact (ht.setSeq fun z => { z with calls := r }).setSucc _
  · simp only [hcalls, hl]
    exact ht.halts hc

/-- LOOP goes back while the counter exceeds 1, and leaves the frame else, or finds no frame. -/
theorem wordLoop_does (hn : (uword s q (getSeq s q).pc).next = 5) :
    (∀ l r, (afterLoopOp s q).loops = l :: r →
        (1 < l.count → Does s q 205 (fun z => { z with
          succ := some (.word l.start), loops := { l with count := l.count - 1 } :: r }) (wordLoop q s)) ∧
        (l.count ≤ 1 → Does s q 205 (fun z => { z with
          succ := some (.word (nextOf (getSeq s q).pc)), loops := r }) (wordLoop q s))) ∧
      ((afterLoopOp s q).loops = [] → Halts q (getSeq s q) (wordLoop q s)) := by
  obtain ⟨t, ht, hf⟩ := nextWord_acts hc (by decide) hn fun x _ t =>
    match x.loops with
    | [] => stackFault q t
    | l :: ls =>
      if 1 < l.count then
        setSucc q (.word l.start) (setSeq t q { x with loops := { l with count := l.count - 1 } :: ls })
      else setSucc q (.word (nextOf x.pc)) (setSeq t q { x with loops := ls })
  have hloop : wordLoop q s = _ := hf
  obtain ⟨-, hpc, -⟩ := ht.rest
  rw [hloop]
  refine ⟨fun l r hl => ⟨fun h1 => ?_, fun h1 => ?_⟩, fun hl => ?_⟩
  · simp only [ht.loops, hl, if_pos h1]
    exact (ht.setSeq fun z => { z with loops := { l with count := l.count - 1 } :: r }).setSucc _
  · simp only [ht.loops, hl, if_neg (show ¬ 1 < l.count by omega), ← hpc]
    exact (ht.setSeq fun z => { z with loops := r }).setSucc _
  · simp only [ht.loops, hl]
    exact ht.halts hc

end

/-- A sequencer that is not live in microcode, and waits for nothing, does nothing. -/
theorem word_idle (h : SeqQuiet s q) (hl : seqLive s q = false ∨ segMode s q = true) :
    loopPush q s = s ∧ loopBreak q s = s ∧ ∀ code f, nextWord q code f s = s := by
  have hpush : loopPush q s = s := part_idle _ h hl
  have hbreak : loopBreak q s = s := part_idle _ h hl
  refine ⟨hpush, hbreak, fun code f => ?_⟩
  unfold nextWord
  rw [hpush, hbreak, ite_self]
  exact part_idle _ h hl

end

end Sys2Proof.Machine
end

section
/-! Microwords are followed by the successor they name (O24). -/

open Sys2Proof Sys2Proof.Machine

/-- Settles O24: LOOP_OP acts first (`loopOp_done`), then NEXT chooses in the word's tick (`nextWord_acts`); a full or an
empty stack stops the sequencer (`halts_of_stackFault`). -/
theorem wordsChooseTheirSuccessors : Obligations.WordsChooseTheirSuccessors := by
  unfold Obligations.WordsChooseTheirSuccessors
  intro s q hup x hquiet u all count frame pushes pops y rest does halts
  have hq : q.val < 0x100 := by omega
  have hrest {t : State} (h : OnlyLoopOp s q.val t) : rest t := ⟨h.others, h.clk, h.zero, h.frame⟩
  have hdoes {code : Nat} {f : Seq → Seq} {t : State} (h : Does s q.val code f t) : does code f t := ⟨h.1, hrest h.2⟩
  refine ⟨fun hl c hc => ?idle, fun hpc => if_pos hpc, ⟨fun hn => ?seq, fun hn => ?jump⟩, fun hl hm ha h9 hst => ?live⟩
  case idle =>
    obtain ⟨hpush, hbreak, hnext⟩ := word_idle hquiet hl
    simp only [all, List.mem_cons, List.not_mem_nil, or_false] at hc
    rcases hc with rfl | rfl | rfl | rfl | rfl | rfl | rfl | rfl
    · exact (exec_of_open hup).trans (congrArg _ (hnext 0 _))
    · exact (exec_of_open hup).trans (congrArg _ (hnext 1 _))
    · exact (exec_of_open hup).trans (congrArg _ (hnext 3 _))
    · exact (exec_of_open hup).trans (congrArg _ (hnext 4 _))
    · exact (exec_of_open hup).trans (congrArg _ (hnext 5 _))
    · exact (exec_of_open hup).trans (congrArg _ (hnext 6 _))
    · exact (exec_of_open hup).trans (congrArg _ hpush)
    · exact (exec_of_open hup).trans (congrArg _ hbreak)
  case seq => simp [pushStart, hn]
  case jump => rcases hn with hn | hn <;> simp [pushStart, hn]
  case live =>
    have h : Steady s q.val := ⟨hq, hl, hm, hquiet⟩
    have hfault (code : Nat) : halts (stackFault q.val (begun s q.val code)) :=
      halts_of_stackFault hq (by rw [getSeq_begun]; exact ha) (by rw [getSeq_begun])
    refine ⟨fun hpush hpop hsucc hdid => ?next, fun hp hlt => ?push, fun hp hfull => ?full,
      fun hp => ⟨fun hne => ?pop, fun he => ?empty⟩⟩
    case push =>
      obtain ⟨hseq, -, honly⟩ := loopPush_done h ha h9 hup hp hlt
      exact gives_of_up hup rfl ⟨hseq.trans (if_pos hp).symm, hrest honly⟩
    case full => exact gives_of_up hup rfl (by rw [loopPush_full h ha h9 hp hfull]; exact hfault 300)
    case pop =>
      obtain ⟨hseq, -, honly⟩ := loopBreak_done h ha h9 hp hne
      have hnot : ¬ pushes := fun hc => absurd (hp.1.symm.trans hc.1) (by decide)
      exact gives_of_up hup rfl ⟨hseq.trans ((if_neg hnot).trans (if_pos hp)).symm, hrest honly⟩
    case empty => exact gives_of_up hup rfl (by rw [loopBreak_empty h ha h9 hp he]; exact hfault 301)
    case next =>
      have hc : MayChoose s q.val := ⟨hup, h, ha, h9, hpush, hpop, hsucc, hst, hdid⟩
      refine ⟨fun hn => gives_of_up hup rfl (hdoes (wordSeq_does hc hn)),
        fun hn => gives_of_up hup rfl (hdoes (wordJump_does hc hn)),
        fun hn hl => gives_of_up hup rfl (hdoes ((wordCall_does hc hn).1 hl)),
        fun hn hl => gives_of_up hup rfl ((wordCall_does hc hn).2 hl),
        fun hn => ?ret, fun hn => ?loop, fun hn => gives_of_up hup rfl (hdoes (wordEnd_does hc hn))⟩
      case ret =>
        obtain ⟨hpops, hempty⟩ := wordRet_does hc hn
        exact ⟨fun a r e => gives_of_up hup rfl (hdoes (hpops a r e)), fun e => gives_of_up hup rfl (hempty e)⟩
      case loop =>
        obtain ⟨htop, hempty⟩ := wordLoop_does hc hn
        refine ⟨fun l r e => ?_, fun e => gives_of_up hup rfl (hempty e)⟩
        obtain ⟨hagain, hleave⟩ := htop l r e
        exact ⟨fun h1 => gives_of_up hup rfl (hdoes (hagain h1)), fun h1 => gives_of_up hup rfl (hdoes (hleave h1))⟩
end

section
/-! Items that a word sends (O27). -/

namespace Sys2Proof.Machine

/-- An item of a word with word tick w, on no predicted path, due 4 ticks after it. -/
def wordItem (s : State) (q : Nat) (w : BitVec 48) (l : Payload) : Item :=
  { stamp := stampOf (w + 4), group := seqGroup s q, deps := [], load := l }

/-- A receiver that accepts an item claims at most a stream. -/
theorem acceptPort_eq (i : Item) (s : State) : acceptPort i s = { s with strms := (acceptPort i s).strms } := by
  unfold acceptPort
  split
  · extract_lets env sb
    split
    · rfl
    · exact claimFor_eq ..
  · rfl

/-- What `t` has beyond `s` are the items of a word, and the streams that they claimed. -/
def Sent (q : Nat) (w : BitVec 48) (s : State) (ls : List Payload) (t : State) : Prop :=
  ∃ strms, t = { s with items := s.items ++ ls.map (wordItem s q w), strms := strms }

namespace Sent

variable {q : Nat} {w : BitVec 48} {s t u : State} {ls ls' : List Payload}

theorem refl (q : Nat) (w : BitVec 48) (s : State) : Sent q w s [] s := ⟨s.strms, by simp⟩

theorem trans (h : Sent q w s ls t) (h' : Sent q w t ls' u) : Sent q w s (ls ++ ls') u := by
  obtain ⟨strms, rfl⟩ := h
  obtain ⟨strms', rfl⟩ := h'
  refine ⟨strms', ?_⟩
  rw [List.map_append, ← List.append_assoc]
  rfl

/-- The sweep values are as they were. -/
theorem swAt (h : Sent q w s ls t) (n k : Nat) : swAt t n k = swAt s n k := by
  obtain ⟨strms, rfl⟩ := h
  rfl

theorem sendWord {x : Seq} (hx : x.ahead = []) (l : Payload) (s : State) :
    Sent q x.w s [l] (sendWord q x 4 l s) := by
  have hdeps : seqDeps q x = [] := by simp [seqDeps, openBefore_of_nil hx]
  unfold Machine.sendWord sendItem
  rw [hdeps, acceptPort_eq]
  exact ⟨_, rfl⟩

/-- Items sent for one entry after another. -/
theorem foldl {β : Type} {f : State → β → State} {p : β → List Payload}
    (hf : ∀ {r ls} e, Sent q w s ls r → Sent q w r (p e) (f r e)) :
    ∀ {l : List β} {r : State} {ls : List Payload}, Sent q w s ls r → Sent q w s (ls ++ l.flatMap p) (l.foldl f r)
  | [], _, ls, h => by simpa using h
  | e :: l, r, ls, h => by
    have hl : ls ++ (e :: l).flatMap p = ls ++ p e ++ l.flatMap p := by simp
    rw [hl]
    exact foldl hf (h.trans (hf e h))

end Sent

/-- What the actions of a word send, each of its own code: the action is done, and nothing else changes but time. -/
structure Sends (s : State) (q code : Nat) (ls : List Payload) (t : State) : Prop where
  items : t.items = s.items ++ ls.map (wordItem s q (getSeq s q).w)
  seq : getSeq t q = { getSeq s q with did := code :: (getSeq s q).did }
  others : ∀ r, r ≠ q → getSeq t r = getSeq s r
  frame : { t with items := s.items, seqs := s.seqs, strms := s.strms } = passTo (getSeq s q).w s

section
variable {s t : State} {q code : Nat} {ls : List Payload}

theorem Sent.sends (h : Sent q (getSeq s q).w (begun s q code) ls t) : Sends s q code ls t := by
  obtain ⟨strms, rfl⟩ := h
  have hitem : wordItem (begun s q code) q (getSeq s q).w = wordItem s q (getSeq s q).w := by
    unfold wordItem
    rw [seqGroup_congr (reg_congr (begun_regs s q code) ..)]
  refine ⟨?_, getSeq_begun s q code, fun r hr => getSeq_begun_ne s q code hr, ?_⟩
  · dsimp only
    rw [hitem, begun_items]
  · unfold begun
    rw [passTo_eq]
    rfl

theorem swAt_begun (k : Nat) : swAt (begun s q code) q k = swAt s q k := by
  have htone (n : Nat) : getTone (begun s q code) q n = getTone s q n := by
    unfold begun
    rw [passTo_eq]
    rfl
  have hflux (n : Nat) : getFlux (begun s q code) n = getFlux s n := by
    unfold begun
    rw [passTo_eq]
    rfl
  unfold swAt
  rw [getSeq_begun, htone, hflux]

theorem sweepReload_skips (h : SeqQuiet s q) (hr : (uword s q (getSeq s q).pc).swr = true → 302 ∈ (getSeq s q).did) :
    sweepReload q s = s := by
  refine part_skips _ h ?_
  cases hswr : (uword s q (getSeq s q).pc).swr
  · exact .inr rfl
  · exact .inl (hr hswr)

end

end Sys2Proof.Machine
end

section
/-! The actions of a word that send items (O27). -/

namespace Sys2Proof.Machine

/-- A part of the current word may act: it has not, and stands behind no branch, and the word's sweeps have been
reloaded. -/
structure MayAct (s : State) (q code : Nat) : Prop where
  up : ptUp s .seq = true
  steady : Steady s q
  ahead : (getSeq s q).ahead = []
  fresh : code ∉ (getSeq s q).did
  goesOn : 999 ∉ (getSeq s q).did
  reloaded : (uword s q (getSeq s q).pc).swr = true → 302 ∈ (getSeq s q).did

namespace MayAct

variable {s : State} {q code : Nat}

theorem acts (h : MayAct s q code) {cond : Uword → Bool} (f : Seq → Uword → State → State)
    (hu : cond (uword s q (getSeq s q).pc) = true) :
    part q code cond f s = f (getSeq s q) (uword s q (getSeq s q).pc) (begun s q code) :=
  part_acts f h.steady h.ahead h.fresh h.goesOn hu

theorem reload (h : MayAct s q code) : sweepReload q s = s := sweepReload_skips h.steady.quiet h.reloaded

/-- What the word does outside its sequencer is done in its tick. -/
theorem doOrKeep (h : MayAct s q code) (p : Prov) : doOrKeep q p (begun s q code) = doKept q p (begun s q code) := by
  rw [doOrKeep_of_nil (by rw [getSeq_begun]; exact h.ahead), getSeq_begun]
  exact doAt_of_past (ticksTo_begun_le h.up q code) q p

end MayAct

section
variable {s : State} {q p : Nat}

theorem drivePulse_sends (h : MayAct s q p) (hu : nbits (portField (uword s q (getSeq s q).pc) p) 10 5 ≠ 0) :
    let u := uword s q (getSeq s q).pc
    let f := portField u p
    Sends s q p [.port q p (nbits f 4 0) (nbits f 10 5) (nbits f 15 11) 0 (nbit f 19) u.tset (getSeq s q).w
      (swAt s q p).1 (swAt s q p).2] (drivePulse q p s) := by
  dsimp only
  unfold drivePulse
  rw [h.reload, h.acts _ (decide_eq_true hu), swAt_begun]
  exact (Sent.sendWord h.ahead _ _).sends

theorem phaseOp_sends {code : Nat} (h : MayAct s q (10 + p))
    (hu : let u := uword s q (getSeq s q).pc
      if q < 64 then p < 8 ∧ nbits (portField u p) 18 16 = code else nbit u.k p = true ∧ nbits u.k 41 39 = code) :
    let u := uword s q (getSeq s q).pc
    Sends s q (10 + p) [.port q p (if q < 64 then nbits (portField u p) 4 0 else nbits u.k 36 32) 0 0 code false u.tset
      (getSeq s q).w 0 (swAt s q p).2] (phaseOp q p code s) := by
  dsimp only at hu ⊢
  unfold phaseOp
  rw [h.reload]
  split at hu
  next hq =>
    rw [if_pos hq, if_pos hq, h.acts _ (by simp [hu]), swAt_begun]
    exact (Sent.sendWord h.ahead _ _).sends
  next hq =>
    rw [if_neg hq, if_neg hq, h.acts _ (by simp [hu]), swAt_begun]
    exact (Sent.sendWord h.ahead _ _).sends

theorem fluxOp_sends {g code : Nat} (h : MayAct s (80 + g) p)
    (hu : nbits (portField (uword s (80 + g) (getSeq s (80 + g)).pc) p) 18 16 = code) :
    let u := uword s (80 + g) (getSeq s (80 + g)).pc
    let f := portField u p
    Sends s (80 + g) p [.flux (8 * g + p) (nbits f 1 0) (nbits f 10 5) (nbits f 15 11) code u.tset (getSeq s (80 + g)).w
      (swAt s (80 + g) p).1] (fluxOp g p code s) := by
  unfold fluxOp
  dsimp only
  rw [h.reload, h.acts _ (decide_eq_true hu), swAt_begun]
  exact (Sent.sendWord h.ahead _ _).sends

theorem probePulse_sends {n : Nat} (h : MayAct s (64 + n) 0)
    (hu : nbits (uword s (64 + n) (getSeq s (64 + n)).pc).k 31 0 ≠ 0) :
    let u := uword s (64 + n) (getSeq s (64 + n)).pc
    Sends s (64 + n) 0 (((List.range 32).filter (nbit u.k)).map fun k =>
      .port (64 + n) k (nbits u.k 36 32) 1 (nbits u.k 38 37) 0 false u.tset (getSeq s (64 + n)).w 0 (swAt s (64 + n) k).2)
      (probePulse n s) := by
  extract_lets u
  unfold probePulse
  dsimp only
  rw [h.reload, h.acts _ (decide_eq_true hu), List.map_eq_flatMap]
  refine (Sent.foldl (fun k hr => ?_) (.refl ..)).sends
  rw [hr.swAt, swAt_begun]
  exact .sendWord h.ahead _ _

theorem windowArm_sends {n : Nat} (h : MayAct s (64 + n) 1)
    (hu : nbits (uword s (64 + n) (getSeq s (64 + n)).pc).k 73 42 ≠ 0) :
    let u := uword s (64 + n) (getSeq s (64 + n)).pc
    Sends s (64 + n) 1 (((List.range 32).filter fun i => nbit u.k (42 + i)).flatMap fun i =>
      [.arm (32 * n + i) (getSeq s (64 + n)).w (nbits u.k 85 74), .armCopy (32 * n + i)]) (windowArm n s) := by
  extract_lets u
  unfold windowArm
  dsimp only
  rw [h.acts _ (decide_eq_true hu)]
  exact (Sent.foldl (fun i _ => (Sent.sendWord h.ahead _ _).trans (.sendWord h.ahead _ _)) (.refl ..)).sends

end

end Sys2Proof.Machine
end

section
/-! What a word asks for and fires (O27). -/

namespace Sys2Proof.Machine

section
variable {s : State} {q code : Nat}

theorem begun_eq (s : State) (q code : Nat) : begun s q code =
    { s with clk := (begun s q code).clk, tick := (begun s q code).tick, seqs := (begun s q code).seqs } := by
  unfold begun
  rw [passTo_eq]
  rfl

theorem markEn_sends {m : Nat} (h : MayAct s (112 + m) 305)
    (hu : nbit (uword s (112 + m) (getSeq s (112 + m)).pc).k 0 = true) :
    markEn m s = sendItem ((getSeq s (112 + m)).w + 4) (some m) []
      (.mark m (nbits (uword s (112 + m) (getSeq s (112 + m)).pc).k 4 1)) (begun s (112 + m) 305) := by
  unfold markEn
  dsimp only
  rw [h.acts _ hu, h.doOrKeep]
  rfl

theorem calwin_asks {m : Nat} (h : MayAct s (112 + m) 306)
    (hu : nbit (uword s (112 + m) (getSeq s (112 + m)).pc).k 5 = true) :
    calwin m s = setGroup (begun s (112 + m) 306) m { getGroup s m with calReq := true } := by
  unfold calwin
  rw [h.acts _ hu, h.doOrKeep, ← getGroup_congr (begun_groups s (112 + m) 306) m]
  rfl

theorem trigLead_begun (m : Nat) : trigLead (begun s q code) m = trigLead s m := by
  unfold trigLead
  rw [rd_congr (begun_regs s q code)]

theorem tbusStart_asks {m : Nat} (h : MayAct s (112 + m) 307)
    (hu : nbit (uword s (112 + m) (getSeq s (112 + m)).pc).k 6 = true) (hon : tbusOn s = true) :
    tbusStart m s = { begun s (112 + m) 307 with tbusQ := s.tbusQ ++ [{
      line := rd s .tbus 0 0x040 26 24
      notBefore := (getSeq s (112 + m)).w + 2
      start := some ((getSeq s (112 + m)).w + BitVec.ofNat 48 (trigLead s m))
      master := m }] } := by
  have hon' : tbusOn (begun s (112 + m) 307) = true := by
    rw [begun_eq]
    exact hon
  unfold tbusStart
  rw [h.acts _ hu, h.doOrKeep, trigLead_begun]
  unfold doKept askStart
  rw [hon', begun_eq]
  rfl

theorem queueRt_rest (t : BitVec 48) (m : TxMsg) (s : State) (r : Nat) :
    ∃ wait, queueRt t m s r = { s with txWait := wait } := by
  unfold queueRt readyRt
  split
  · exact ⟨s.txWait, rfl⟩
  · exact ⟨_, rfl⟩

theorem sendTrigger_sends {ports : List Nat} (hp : ports ≠ []) (id : Nat) (due : BitVec 48) (s : State) :
    ∃ wait, sendTrigger ports id due s = { s with tseq := (s.tseq + 1) % 2 ^ 16, txWait := wait } := by
  have hfold : ∀ (l : List Nat) (t : State), ∃ wait, l.foldl (queueRt s.clk.tc (.trig id due ((s.tseq + 1) % 2 ^ 16))) t =
      { t with txWait := wait } := by
    intro l
    induction l with
    | nil => exact fun t => ⟨t.txWait, rfl⟩
    | cons r l ih =>
      intro t
      obtain ⟨wait, e⟩ := queueRt_rest s.clk.tc (.trig id due ((s.tseq + 1) % 2 ^ 16)) t r
      obtain ⟨wait', e'⟩ := ih { t with txWait := wait }
      exact ⟨wait', by rw [List.foldl_cons, e, e']⟩
  unfold sendTrigger
  rw [if_neg (by simpa using hp)]
  obtain ⟨wait, e⟩ := hfold ports { s with tseq := (s.tseq + 1) % 2 ^ 16 }
  exact ⟨wait, e⟩

/-- A TRIGGER goes out at once, or is held until its opening is within the lead limit. -/
theorem ringTrig_asks {m : Nat} (h : MayAct s (112 + m) 308)
    (hu : nbit (uword s (112 + m) (getSeq s (112 + m)).pc).k 7 = true) :
    let t := begun s (112 + m) 308
    let opening := (getSeq s (112 + m)).w + BitVec.ofNat 48 (trigLead s m)
    let id := nbits (uword s (112 + m) (getSeq s (112 + m)).pc).k 13 8
    (ticksTo t.clk.tc (opening - 16384) ≤ 0 → ringTrig m s = sendTrigger (masterTrigPorts s) id opening t) ∧
    (0 < ticksTo t.clk.tc (opening - 16384) →
      ringTrig m s = waitFor (opening - 16384) (112 + m) (.ring m id opening) t) := by
  have hports : masterTrigPorts (begun s (112 + m) 308) = masterTrigPorts s := by
    unfold masterTrigPorts
    simp only [rdBit_congr (begun_regs s (112 + m) 308)]
  extract_lets t opening id
  have hacts : ringTrig m s = doKept (112 + m) (.ring m id opening) t := by
    unfold ringTrig
    rw [h.acts _ hu, h.doOrKeep, trigLead_begun]
  rw [hacts]
  refine ⟨fun hle => ?_, fun hlt => if_pos hlt⟩
  rw [← hports]
  exact if_neg (show ¬ 0 < ticksTo t.clk.tc (opening - 16384) by omega)

/-- Each of the lines fires, in the tick given. -/
theorem fires_done {w x : BitVec 48} {line : Nat → Nat} : ∀ {l : List Nat} {t : State}, (getSeq t q).ahead = [] →
    (getSeq t q).w = w → ticksTo t.clk.tc w ≤ 0 → ptUp t .evt = true →
    let r := l.foldl (fun r b => doOrKeep q (.fire (line b) x) r) t
    r.clk = t.clk ∧ (∀ e ∈ t.lines, e ∈ r.lines) ∧ ∀ b ∈ l, (x, line b, false) ∈ r.lines
  | [], t, _, _, _, _ => ⟨rfl, fun _ he => he, fun b hb => absurd hb (List.not_mem_nil)⟩
  | b :: l, t, ha, hw, hpast, hup => by
    have hfire : doOrKeep q (.fire (line b) x) t = fireLine (line b) x false t := by
      rw [doOrKeep_of_nil ha, hw]
      exact doAt_of_past hpast q _
    have hmono : ∀ e ∈ t.lines, e ∈ (fireLine (line b) x false t).lines := by
      intro e he
      unfold fireLine
      split
      · exact he
      · exact List.mem_append_left _ he
    have hmem := mem_lines_fireLine hup (line b) x false
    dsimp only
    rw [List.foldl_cons, hfire]
    rw [fireLine_eq] at hmono hmem ⊢
    obtain ⟨hclk, hkeep, hall⟩ := fires_done (x := x) (line := line) (l := l)
      (t := { t with lines := (fireLine (line b) x false t).lines }) ha hw hpast hup
    refine ⟨hclk, fun e he => hkeep e (hmono e he), fun c hc => ?_⟩
    rcases List.mem_cons.1 hc with rfl | hc
    · exact hkeep _ hmem
    · exact hall c hc

theorem evtFire_fires (h : MayAct s q 304) (hu : (uword s q (getSeq s q).pc).fire ≠ 0) (hevt : ptUp s .evt = true) :
    (evtFire q s).clk = (passTo (getSeq s q).w s).clk ∧ ∀ b, b < (if 112 ≤ q then 4 else 2) →
      nbit (uword s q (getSeq s q).pc).fire b = true →
        ((getSeq s q).w + 1, fireLineOf q b, false) ∈ (evtFire q s).lines := by
  have hup : ptUp (begun s q 304) .evt = true := ((SameSetting.begun s q 304).ptUp .evt).trans hevt
  unfold evtFire
  rw [h.acts _ (decide_eq_true hu)]
  obtain ⟨hclk, -, hall⟩ := fires_done (q := q) (w := (getSeq s q).w) (x := (getSeq s q).w + 1) (line := fireLineOf q)
    (l := (List.range (if 112 ≤ q then 4 else 2)).filter (nbit (uword s q (getSeq s q).pc).fire))
    (by rw [getSeq_begun]; exact h.ahead) (by rw [getSeq_begun]) (ticksTo_begun_le h.up q 304) hup
  exact ⟨hclk, fun b hb hf => hall b (List.mem_filter.2 ⟨List.mem_range.2 hb, hf⟩)⟩

end

end Sys2Proof.Machine
end

section
/-! The sweeps of a word: SWR and SWP (O27). -/

namespace Sys2Proof.Machine

/-- What one entry's turn brings about, and the others' turns leave, holds in the end. -/
theorem foldl_turn_of_mem {S β : Type} {f : S → β → S} {I P : S → Prop} {e : β} {l : List β} (hI : ∀ r d, I r → I (f r d))
    (hat : ∀ r, I r → P (f r e)) (hkeep : ∀ r, ∀ d ∈ l, d ≠ e → I r → P r → P (f r d)) (he : e ∈ l) {s : S} (hs : I s) :
    P (l.foldl f s) := by
  have hstep : ∀ r, ∀ d ∈ l, I r → P r → P (f r d) := fun r d hd hr hp => by
    by_cases hde : d = e
    · exact hde ▸ hat r hr
    · exact hkeep r d hd hde hr hp
  have hrest : ∀ m : List β, (∀ d ∈ m, d ∈ l) → ∀ r, I r → P r → P (m.foldl f r) := by
    intro m
    induction m with
    | nil => exact fun _ r _ hp => hp
    | cons d m ih =>
      exact fun hm r hr hp => ih (fun c hc => hm c (List.mem_cons_of_mem _ hc)) _ (hI r d hr)
        (hstep r d (hm d List.mem_cons_self) hr hp)
  have hinv : ∀ m : List β, ∀ r, I r → I (m.foldl f r) := by
    intro m
    induction m with
    | nil => exact fun r hr => hr
    | cons d m ih => exact fun r hr => ih _ (hI r d hr)
  obtain ⟨m, m', rfl⟩ := List.append_of_mem he
  rw [List.foldl_append, List.foldl_cons]
  have hm := hinv m s hs
  exact hrest m' (fun d hd => by simp [hd]) _ (hI _ e hm) (hat _ hm)

/-! ## Sweep values -/

theorem putSweep_eq (q : Nat) (s : State) (e : Nat × Int × Nat) :
    putSweep q s e = { s with tones := (putSweep q s e).tones, fluxes := (putSweep q s e).fluxes } := by
  unfold putSweep
  split <;> rfl

theorem getTone_setTone_ne (s : State) {q k p : Nat} (x : Tone) (h : p ≠ k) :
    getTone (setTone s q k x) q p = getTone s q p :=
  mapGet_mapSet_of_ne _ _ _ (by omega)

section
variable {s : State} {q p : Nat}

theorem getTone_putSweep_self (hq : q < 80) (e : Nat × Int × Nat) :
    getTone (putSweep q s e) q e.1 = { getTone s q e.1 with asw := e.2.1, psw := e.2.2 } := by
  rw [putSweep, if_pos hq, getTone_setTone_self]

theorem getTone_putSweep_ne (hq : q < 80) {k : Nat} (h : p ≠ k) (v : Int × Nat) :
    getTone (putSweep q s (k, v)) q p = getTone s q p := by
  rw [putSweep, if_pos hq, getTone_setTone_ne _ _ h]

/-- The entries of a drive sequencer's outputs. -/
theorem sweepsOf_drive (hq : q < 64) :
    sweepsOf s q = (List.range 8).map fun t => (t, (getTone s q t).asw, (getTone s q t).psw) := by
  unfold sweepsOf
  rw [if_pos (by omega), if_pos hq]

theorem mem_sweepsOf (hq : q < 64) (hp : p < 8) : (p, (getTone s q p).asw, (getTone s q p).psw) ∈ sweepsOf s q := by
  rw [sweepsOf_drive hq]
  exact List.mem_map.2 ⟨p, List.mem_range.2 hp, rfl⟩

/-- There is one entry for each tone. -/
theorem sweepsOf_unique (hq : q < 64) {d : Nat × Int × Nat} (hd : d ∈ sweepsOf s q)
    (hne : d ≠ (p, (getTone s q p).asw, (getTone s q p).psw)) : p ≠ d.1 := by
  rw [sweepsOf_drive hq] at hd
  obtain ⟨t, -, rfl⟩ := List.mem_map.1 hd
  rintro rfl
  exact hne rfl

theorem sweepsOf_begun (code : Nat) : sweepsOf (begun s q code) q = sweepsOf s q := by
  rw [begun_eq]
  rfl

end

/-! ## SWR -/

/-- The start values of a sequencer's sweep (R122, R147). -/
def sweepStart (q : Nat) (s : State) (k : Nat) : Int × Nat :=
  if q < 64 then (sx 16 (toneReg s q k 0x1C % 65536), toneReg s q k 0x14)
  else if q < 80 then (0, toneReg s q k 0x14)
  else (sx 16 (flxRd s (8 * (q - 80) + k) 0x30 15 0), 0)

/-- The sweep value of one output takes its start value. -/
def reloadOne (q : Nat) (s : State) (e : Nat × Int × Nat) : State :=
  putSweep q s (e.1, (sweepStart q s e.1).1, (sweepStart q s e.1).2)

section
variable {s : State} {q : Nat}

theorem foldl_reloadOne (l : List (Nat × Int × Nat)) :
    ∀ t, ∃ tones fluxes, l.foldl (reloadOne q) t = { t with tones := tones, fluxes := fluxes } := by
  induction l with
  | nil => exact fun t => ⟨t.tones, t.fluxes, rfl⟩
  | cons e l ih =>
    intro t
    obtain ⟨tones, fluxes, h⟩ := ih (reloadOne q t e)
    refine ⟨tones, fluxes, ?_⟩
    rw [List.foldl_cons, h, reloadOne, putSweep_eq]

variable (h : Steady s q) (ha : (getSeq s q).ahead = []) (hd : 302 ∉ (getSeq s q).did) (h9 : 999 ∉ (getSeq s q).did)
  (hu : (uword s q (getSeq s q).pc).swr = true)
include h ha hd h9 hu

theorem sweepReload_acts : sweepReload q s = (sweepsOf s q).foldl (reloadOne q) (begun s q 302) := by
  unfold sweepReload
  rw [part_acts _ h ha hd h9 hu, sweepsOf_begun]
  rfl

/-- A reload changes sweep values only. -/
theorem sweepReload_rest : ∃ tones fluxes, sweepReload q s = { begun s q 302 with tones := tones, fluxes := fluxes } := by
  rw [sweepReload_acts h ha hd h9 hu]
  exact foldl_reloadOne _ _

/-- Once reloaded, a word's sweeps are not reloaded again. -/
theorem sweepReload_again : sweepReload q (sweepReload q s) = sweepReload q s := by
  obtain ⟨tones, fluxes, e⟩ := sweepReload_rest h ha hd h9 hu
  have hset : SameSetting (begun s q 302) (sweepReload q s) := by
    rw [e]
    exact Worked.setting (Q := fun _ => False) (.frame (.refl _ _) (by rfl)) rfl
  have hseq : getSeq (sweepReload q s) q = getSeq (begun s q 302) q := by
    rw [e]
    rfl
  have hsteady : Steady (sweepReload q s) q := (h.begun 302).congr hset (hseq ▸ .refl _)
  exact part_skips _ hsteady.quiet (.inl (by rw [hseq, getSeq_begun]; exact List.mem_cons_self))

/-- A drive tone's sweep values after the reload. -/
theorem sweepReload_tone (hq : q < 64) {p : Nat} (hp : p < 8) :
    (getTone (sweepReload q s) q p).asw = sx 16 (toneReg s q p 0x1C % 65536) ∧
      (getTone (sweepReload q s) q p).psw = toneReg s q p 0x14 := by
  rw [sweepReload_acts h ha hd h9 hu]
  refine foldl_turn_of_mem (I := fun r => r.regs = s.regs)
    (P := fun r => (getTone r q p).asw = sx 16 (toneReg s q p 0x1C % 65536) ∧ (getTone r q p).psw = toneReg s q p 0x14)
    (fun r d hr => ?_) (fun r hr => ?_) (fun r d hd hne _ hP => ?_) (mem_sweepsOf hq hp) (begun_regs s q 302)
  · rw [reloadOne, putSweep_eq]
    exact hr
  · have hreg (o : Nat) : toneReg r q p o = toneReg s q p o := by
      unfold toneReg outReg
      rw [reg_congr hr]
    unfold reloadOne sweepStart
    rw [if_pos hq, hreg, hreg, getTone_putSweep_self (by omega)]
    exact ⟨rfl, rfl⟩
  · unfold reloadOne
    rwa [getTone_putSweep_ne (by omega) (sweepsOf_unique hq hd hne)]

end

/-! ## SWP -/

/-- What SWP adds to the sweep value of an output (R85, R122, R147). -/
def sweepDelta (q : Nat) (s : State) (k : Nat) : Int × Nat :=
  (if q < 64 then sx 16 (toneReg s q k 0x1C / 65536)
    else if q < 80 then 0 else sx 16 (flxRd s (8 * (q - 80) + k) 0x30 31 16),
   if q < 80 then toneReg s q k 0x18 else 0)

/-- The sweep value of one output steps; one that saturates raises its event. -/
def stepOne (q : Nat) (s : State) (e : Nat × Int × Nat) : State :=
  let a := e.2.1 + (sweepDelta q s e.1).1
  let t := putSweep q s (e.1, satS 16 a, (e.2.2 + (sweepDelta q s e.1).2) % 2 ^ 32)
  if satS 16 a = a then t else doOrKeep q (.sat (if q < 80 then q else 80 + 8 * (q - 80) + e.1)) t

/-- The steps of a word's sweep leave its sequencer, the time, and a drive tone's registers. -/
structure Sweeping (s : State) (q : Nat) (y : Seq) (t : State) : Prop where
  seq : getSeq t q = y
  past : ticksTo t.clk.tc y.w ≤ 0
  tone : q < 64 → ∀ p < 8, ∀ o < 0x20, toneReg t q p o = toneReg s q p o

section
variable {s t : State} {q : Nat} {y : Seq}

/-- The event of a saturated sweep value. -/
theorem sat_raises (ha : y.ahead = []) (h : Sweeping s q y t) (out : Nat) : ∃ pt n bit,
    doOrKeep q (.sat out) t = raiseEvt pt n bit t := by
  have hdo : doOrKeep q (.sat out) t = doKept q (.sat out) t := by
    rw [doOrKeep_of_nil (h.seq ▸ ha), h.seq]
    exact doAt_of_past h.past q _
  rw [hdo]
  unfold doKept
  dsimp only
  split
  · exact ⟨_, _, _, rfl⟩
  · exact ⟨_, _, _, rfl⟩

theorem Sweeping.raiseEvt (h : Sweeping s q y t) (pt : PT) (n bit : Nat) :
    Sweeping s q y (Machine.raiseEvt pt n bit t) where
  seq := (getSeq_congr (raiseEvt_seqs ..) q).trans h.seq
  past := by
    rw [raiseEvt_clk]
    exact h.past
  tone hq p hp o ho := by
    have hoff : toneOff q p + o < 4096 ∧ toneOff q p + o ≠ 0x010 := by
      unfold toneOff
      rw [if_pos hq]
      omega
    rw [← h.tone hq p hp o ho]
    unfold toneReg outReg
    rw [reg_raiseEvt_ne _ _ _ _ fun e => hoff.2 (addrOf_inj hoff.1 (by decide) e).2]

theorem Sweeping.putSweep (h : Sweeping s q y t) (e : Nat × Int × Nat) : Sweeping s q y (Machine.putSweep q t e) := by
  rw [putSweep_eq]
  exact ⟨h.seq, h.past, h.tone⟩

theorem Sweeping.stepOne (ha : y.ahead = []) (h : Sweeping s q y t) (e : Nat × Int × Nat) :
    Sweeping s q y (Machine.stepOne q t e) := by
  unfold Machine.stepOne
  extract_lets a r
  split
  · exact h.putSweep _
  · obtain ⟨pt, n, bit, hr⟩ := sat_raises ha (h.putSweep (e.1, satS 16 a, _) : Sweeping s q y r) _
    rw [hr]
    exact (h.putSweep _).raiseEvt ..

/-- The event of a saturated value leaves the sweep values. -/
theorem getTone_stepOne (ha : y.ahead = []) (h : Sweeping s q y t) (e : Nat × Int × Nat) (p : Nat) :
    getTone (stepOne q t e) q p = getTone (putSweep q t
      (e.1, satS 16 (e.2.1 + (sweepDelta q t e.1).1), (e.2.2 + (sweepDelta q t e.1).2) % 2 ^ 32)) q p := by
  unfold Machine.stepOne
  extract_lets a r
  split
  · rfl
  · obtain ⟨pt, n, bit, hr⟩ := sat_raises ha (h.putSweep (e.1, satS 16 a, _) : Sweeping s q y r) _
    rw [hr, raiseEvt_eq]
    rfl

/-- The sequencer as its SWP finds it: the values before the step are kept for the word's actions. -/
def sweepKept (s : State) (q : Nat) : State :=
  setSeq (begun s q 303) q { getSeq (begun s q 303) q with preSwp := sweepsOf s q }

theorem getSeq_sweepKept : getSeq (sweepKept s q) q =
    { getSeq s q with did := 303 :: (getSeq s q).did, preSwp := sweepsOf s q } := by
  unfold sweepKept
  rw [getSeq_setSeq_self, getSeq_begun]

variable (h : MayAct s q 303) (hu : (uword s q (getSeq s q).pc).swp = true)
include h hu

theorem sweepStep_acts : sweepStep q s = (sweepsOf s q).foldl (stepOne q) (sweepKept s q) := by
  unfold sweepStep
  rw [h.reload, h.acts _ hu]
  dsimp only
  rw [sweepsOf_begun]
  rfl

omit hu in
theorem sweeping_kept : Sweeping s q (getSeq (sweepKept s q) q) (sweepKept s q) where
  seq := rfl
  past := by
    unfold sweepKept
    rw [getSeq_setSeq_self, getSeq_begun]
    exact ticksTo_begun_le h.up q 303
  tone _ p _ o _ := by
    unfold toneReg outReg
    exact congrArg BitVec.toNat (reg_congr (begun_regs s q 303) ..)

theorem sweepStep_preSwp : (getSeq (sweepStep q s) q).preSwp = sweepsOf s q := by
  have ha : (getSeq (sweepKept s q) q).ahead = [] := by rw [getSeq_sweepKept]; exact h.ahead
  rw [sweepStep_acts h hu]
  have hend : ∀ l : List (Nat × Int × Nat), ∀ r, Sweeping s q (getSeq (sweepKept s q) q) r →
      Sweeping s q (getSeq (sweepKept s q) q) (l.foldl (stepOne q) r) := by
    intro l
    induction l with
    | nil => exact fun r hr => hr
    | cons e l ih => exact fun r hr => ih _ (hr.stepOne ha e)
  rw [(hend _ _ (sweeping_kept h)).seq, getSeq_sweepKept]

/-- A drive tone's sweep values after the step. -/
theorem sweepStep_tone (hq : q < 64) {p : Nat} (hp : p < 8) :
    (getTone (sweepStep q s) q p).psw = ((getTone s q p).psw + toneReg s q p 0x18) % 2 ^ 32 ∧
      (getTone (sweepStep q s) q p).asw = satS 16 ((getTone s q p).asw + sx 16 (toneReg s q p 0x1C / 65536)) := by
  have ha : (getSeq (sweepKept s q) q).ahead = [] := by rw [getSeq_sweepKept]; exact h.ahead
  rw [sweepStep_acts h hu]
  refine foldl_turn_of_mem (I := Sweeping s q (getSeq (sweepKept s q) q))
    (P := fun r => (getTone r q p).psw = ((getTone s q p).psw + toneReg s q p 0x18) % 2 ^ 32 ∧
      (getTone r q p).asw = satS 16 ((getTone s q p).asw + sx 16 (toneReg s q p 0x1C / 65536)))
    (fun r d hr => hr.stepOne ha d) (fun r hr => ?_) (fun r d hd hne hr hP => ?_) (mem_sweepsOf hq hp) (sweeping_kept h)
  · rw [getTone_stepOne ha hr, getTone_putSweep_self (by omega)]
    unfold sweepDelta
    rw [if_pos hq, if_pos (by omega), hr.tone hq p hp _ (by decide), hr.tone hq p hp _ (by decide)]
    exact ⟨rfl, rfl⟩
  · rwa [getTone_stepOne ha hr, getTone_putSweep_ne (by omega) (sweepsOf_unique hq hd hne)]

end

end Sys2Proof.Machine
end

section
/-! The actions of a word are sent once, each with its due tick (O27). -/

open Sys2Proof Sys2Proof.Machine

/-- Settles O27: a part that may act does so in its word's tick (`MayAct.acts`) and sends its items (`Sent.sends`), asks
(`ringTrig_asks`), fires (`evtFire_fires`) or moves its sweeps (`sweepReload_tone`, `sweepStep_tone`). -/
theorem wordActionsAreSentOnce : Obligations.WordActionsAreSentOnce := by
  unfold Obligations.WordActionsAreSentOnce
  intro s q p hup hl hm x hquiet u now due item once sends f sw tone
  have hq : q.val < 0x100 := by omega
  have hsteady : Steady s q.val := ⟨hq, hl, hm, hquiet⟩
  have hmay {code : Nat} : once code → MayAct s q.val code := fun ⟨ha, hd, h9, hr⟩ => ⟨hup, hsteady, ha, hd, h9, hr⟩
  have hsends {code : Nat} {ls : List Payload} {t : State} (h : Sends s q.val code ls t) : sends code ls t :=
    ⟨h.items, h.seq, h.others, h.frame⟩
  refine ⟨fun n hn ho hu => ?drive, fun n k c code hn ho hc hu => ?phase, fun g c code hg ho hu hc => ?flux,
    fun n hn => ⟨fun ho hu => ?probe, fun ho hu => ?arm⟩, fun m hm => ⟨fun ho hu => ?mark, fun ho hu => ?cal,
      fun ho hu hon => ?tbus, fun ho hu => ⟨fun hle hne => ?trig, fun hlt => ?held⟩⟩,
    fun n hn ho hu hevt _ => ?fire, fun n hn => ⟨fun ha hd h9 hu => ?swr, fun ho hu => ?swp⟩⟩
  case drive =>
    refine gives_of_up (f := drivePulse n.val p.val) hup rfl ?_
    rw [hn]
    exact hsends (drivePulse_sends (hmay ho) hu)
  case phase =>
    have hphase : sends (10 + k.val) [.port q.val k.val
        (if n.val < 64 then nbits (portField u k.val) 4 0 else nbits u.k 36 32) 0 0 code false u.tset x.w 0
        (swAt s q.val k.val).2] (phaseOp n.val k.val code s) := by
      rw [hn] at hu ⊢
      exact hsends (phaseOp_sends (hmay ho) hu)
    simp only [List.mem_cons, Prod.mk.injEq, List.not_mem_nil, or_false] at hc
    rcases hc with ⟨rfl, rfl⟩ | ⟨rfl, rfl⟩ | ⟨rfl, rfl⟩ | ⟨rfl, rfl⟩ | ⟨rfl, rfl⟩ | ⟨rfl, rfl⟩ <;>
      exact gives_of_up hup rfl hphase
  case flux =>
    have hflux := fluxOp_sends (g := g.val) (code := code) (hg ▸ hmay ho) (by rw [hg]; exact hu)
    rw [hg] at hflux
    simp only [List.mem_cons, Prod.mk.injEq, List.not_mem_nil, or_false] at hc
    rcases hc with ⟨rfl, rfl⟩ | ⟨rfl, rfl⟩ | ⟨rfl, rfl⟩ | ⟨rfl, rfl⟩ <;> exact gives_of_up hup rfl (hsends hflux)
  case probe =>
    have hprobe := probePulse_sends (n := n.val) (hn ▸ hmay ho) (by rw [hn]; exact hu)
    rw [hn] at hprobe
    exact gives_of_up hup rfl (hsends hprobe)
  case arm =>
    have harm := windowArm_sends (n := n.val) (hn ▸ hmay ho) (by rw [hn]; exact hu)
    rw [hn] at harm
    exact gives_of_up hup rfl (hsends harm)
  case mark =>
    have hmark := markEn_sends (m := m.val) (hm ▸ hmay ho) (by rw [hm]; exact hu)
    rw [hm] at hmark
    refine gives_of_up hup rfl ?_
    rw [hmark]
    unfold sendItem
    dsimp only
    exact ⟨by rw [begun_items], begun_clk s q.val 305⟩
  case cal =>
    have hcal := calwin_asks (m := m.val) (hm ▸ hmay ho) (by rw [hm]; exact hu)
    rw [hm] at hcal
    refine gives_of_up hup rfl ?_
    rw [hcal]
    exact ⟨getGroup_setGroup_self .., begun_regs s q.val 306⟩
  case tbus =>
    have htbus := tbusStart_asks (m := m.val) (hm ▸ hmay ho) (by rw [hm]; exact hu) hon
    rw [hm] at htbus
    refine gives_of_up hup rfl ?_
    rw [htbus]
    exact ⟨rfl, begun_regs s q.val 307⟩
  case trig =>
    have htrig := ringTrig_asks (m := m.val) (hm ▸ hmay ho) (by rw [hm]; exact hu)
    rw [hm] at htrig
    refine gives_of_up hup rfl ?_
    obtain ⟨wait, hsend⟩ :=
      sendTrigger_sends hne (nbits u.k 13 8) (x.w + BitVec.ofNat 48 (trigLead s m.val)) (begun s q.val 308)
    rw [htrig.1 hle, hsend]
    dsimp only
    refine ⟨?_, begun_items s q.val 308, begun_clk s q.val 308⟩
    rw [begun_eq]
  case held =>
    have htrig := ringTrig_asks (m := m.val) (hm ▸ hmay ho) (by rw [hm]; exact hu)
    rw [hm] at htrig
    refine gives_of_up hup rfl ?_
    rw [htrig.2 hlt]
    unfold waitFor
    dsimp only
    refine ⟨?_, ?_, begun_items s q.val 308, begun_clk s q.val 308⟩
    · rw [begun_later, hquiet.later]
      rfl
    · rw [begun_eq]
  case fire =>
    refine gives_of_up (f := evtFire n.val) hup rfl ?_
    rw [hn]
    exact evtFire_fires (hmay ho) hu hevt
  case swr =>
    have hswr : sweepReload n.val s = sweepReload q.val s := by rw [hn]
    obtain ⟨tones, fluxes, hrest⟩ := sweepReload_rest hsteady ha hd h9 hu
    have hagain := sweepReload_again hsteady ha hd h9 hu
    have hup' : ptUp (sweepReload q.val s) .seq = true := by
      rw [hrest]
      exact ((SameSetting.begun s q.val 302).ptUp .seq).trans hup
    have hsame {c : Instr} {f : State → State} (hc : ∀ t, exec c t = .next (whenUp .seq f t))
        (hf : f s = f (sweepReload q.val s)) : exec c s = exec c (sweepReload q.val s) := by
      rw [hc, hc, whenUp_of hup, whenUp_of hup', hf]
    refine gives_of_up (f := sweepReload n.val) hup rfl ?_
    rw [hswr]
    refine ⟨?_, ?_, fun hlt => sweepReload_tone hsteady ha hd h9 hu (hn ▸ hlt) p.isLt, fun k hk => ?_, ?_⟩
    · rw [hrest]
      exact begun_regs s q.val 302
    · rw [hrest]
      exact (congrArg Machine.Seq.did (getSeq_begun s q.val 302)).symm ▸ List.mem_cons_self
    · refine hsame (f := drivePulse k.val p.val) (fun _ => rfl) ?_
      unfold drivePulse
      rw [hk, hagain]
    · refine hsame (f := sweepStep n.val) (fun _ => rfl) ?_
      unfold sweepStep
      rw [hn, hagain]
  case swp =>
    refine gives_of_up (f := sweepStep n.val) hup rfl ?_
    rw [hn]
    exact ⟨sweepStep_preSwp (hmay ho) hu, fun hlt => sweepStep_tone (hmay ho) hu hlt p.isLt⟩
end

section
/-! Marks and activations as they reach their consumers (O29). -/

namespace Sys2Proof.Machine

/-- A command that lets time bring it to `u` and then delivers an item brings it to its receiver. -/
theorem delivers_of_deliver_at {c : Instr} {s u : State} {p : Payload → Bool} {onTime once late : Item → State → State}
    (h : exec c s = .next (deliver p onTime once late u)) : Delivers c s u p onTime once late := by
  unfold deliver at h
  refine ⟨fun hn => ?_, fun i rest ht => ⟨fun hb => ?_, fun hb hl => ?_, fun hb hl => ?_⟩⟩
  · rw [h, hn]
  · rw [h, ht]
    exact congrArg Host.Outcome.next (if_pos hb)
  · rw [h, ht]
    exact congrArg Host.Outcome.next ((if_neg (by simp [hb])).trans (if_neg (by simp [hl])))
  · rw [h, ht]
    exact congrArg Host.Outcome.next ((if_neg (by simp [hb])).trans (if_pos hl))

/-! ## Marks -/

/-- A mark of group g reaches the sequencers of the group. -/
def giveMarks (g : Nat) (i : Item) (t : State) : State := match i.load with
  | .mark _ id => ((List.range 120).filter fun q => decide (seqGroup t q = some g)).foldl (giveMark id (dueTick i t)) t
  | _ => t

section
variable {g id : Nat} {i : Item} {t : State}

theorem giveMark_congr (id : Nat) (due : BitVec 48) {r t : State} {q : Nat} (hq : getSeq r q = getSeq t q)
    (hr : r.regs = t.regs) : getSeq (giveMark id due r q) q = getSeq (giveMark id due t q) q := by
  have hseg : segMode r q = segMode t q := rdBit_congr hr ..
  unfold giveMark
  rw [hq, hseg]
  split
  · rw [getSeq_setSeq_self, getSeq_setSeq_self]
  · exact hq

/-- A sequencer of the group has its own turn, and no other's. -/
theorem getSeq_giveMarks_of_mem (id : Nat) (due : BitVec 48) {q : Nat} {l : List Nat} (hn : l.Nodup) (hq : q ∈ l) :
    ∀ r : State, getSeq (l.foldl (giveMark id due) r) q = getSeq (giveMark id due r q) q := by
  induction l with
  | nil => cases hq
  | cons k l ih =>
    intro r
    obtain ⟨hk, hl⟩ := List.nodup_cons.1 hn
    rw [List.foldl_cons]
    by_cases h : q = k
    · rw [← h]
      exact getSeq_giveMarks_of_not_mem id due (h ▸ hk)
    · rw [ih hl ((List.mem_cons.1 hq).resolve_left h)]
      exact giveMark_congr id due (getSeq_giveMark_ne id due r h) (congrArg State.regs (giveMark_rest id due r k) :)

/-- A mark is taken by the members of its group in the shot in microcode, and by nobody else. -/
theorem giveMarks_spec (hi : i.load = .mark g id) :
    let takes (q : Nat) : Prop := q < 120 ∧ seqGroup t q = some g ∧ (getSeq t q).inShot = true ∧ segMode t q = false
    (∀ q, takes q → getSeq (giveMarks g i t) q = { getSeq t q with marks := (getSeq t q).marks ++ [(id, dueTick i t)] }) ∧
      (∀ q, ¬ takes q → getSeq (giveMarks g i t) q = getSeq t q) ∧ { giveMarks g i t with seqs := t.seqs } = t := by
  intro takes
  let l := (List.range 120).filter fun q => decide (seqGroup t q = some g)
  have hgives : giveMarks g i t = l.foldl (giveMark id (dueTick i t)) t := by
    unfold giveMarks
    rw [hi]
  have hn : l.Nodup := List.nodup_range.filter _
  have hmem (q : Nat) : q ∈ l ↔ q < 120 ∧ seqGroup t q = some g := by simp [l]
  rw [hgives]
  refine ⟨fun q hq => ?_, fun q hq => ?_, giveMarks_rest id (dueTick i t) l t⟩
  · obtain ⟨hlt, hg, hin, hseg⟩ := hq
    rw [getSeq_giveMarks_of_mem _ _ hn ((hmem q).2 ⟨hlt, hg⟩), giveMark, if_pos (by simp [hin, hseg]), getSeq_setSeq_self]
  · by_cases hl : q ∈ l
    · obtain ⟨hlt, hg⟩ := (hmem q).1 hl
      have hnot : ¬ ((getSeq t q).inShot && !segMode t q) = true := fun h => hq ⟨hlt, hg, by simpa using h⟩
      rw [getSeq_giveMarks_of_mem _ _ hn hl, giveMark, if_neg hnot]
    · exact getSeq_giveMarks_of_not_mem _ _ hl

end

/-! ## Activations -/

section
variable {k : Nat} {s : State}

theorem activateOnce_first (h : k ∉ s.tick.acts) :
    activateOnce k s = activate k s.clk.tc { s with tick := { s.tick with acts := k :: s.tick.acts } } :=
  if_neg (by simpa using h)

theorem activateOnce_again (h : k ∈ s.tick.acts) : activateOnce k s = coincide k s := if_pos (by simpa using h)

/-- A further activation of the tick sets the input's bit, is counted, and raises the event of coincidences. -/
theorem coincide_spec (hk : k < 188) :
    let c : Nat := 0x404 + 8 * k
    rdBit (coincide k s) .evt 0 0x010 1 = true ∧ rdBit (coincide k s) .evt 0 c 31 = true ∧
      rd (coincide k s) .evt 0 c 15 0 = min (rd s .evt 0 c 15 0 + 1) 65535 ∧
      regsBut [addrOf .evt 0 0x010, addrOf .evt 0 c] s (coincide k s) := by
  extract_lets c
  let s1 : State := raiseBit .evt 0 c 31 s
  let s2 : State := bump s1 .evt 0 c 15 0 1
  have hne : addrOf .evt 0 c ≠ addrOf .evt 0 0x010 := fun e =>
    absurd (addrOf_inj (by omega) (by decide) e).2 (by omega)
  have hreg : reg (coincide k s) .evt 0 c = reg s2 .evt 0 c := reg_raiseEvt_ne _ _ _ _ hne
  have hregs1 : s1.regs = (wr s .evt 0 c 31 31 1).regs := raiseBit_regs ..
  refine ⟨rdBit_raiseEvt_self _ _ _ _ (by decide), ?_, ?_, ?_⟩
  · unfold rdBit
    rw [hreg]
    change rdBit s2 .evt 0 c 31 = true
    unfold s2 bump
    rw [rdBit_wr_self _ _ _ _ _ _ _ _ (by decide) (by decide), if_neg (by decide), rdBit_congr hregs1,
      rdBit_wr_self _ _ _ _ _ _ _ _ (by decide) (by decide)]
    simp
  · unfold rd
    rw [hreg]
    change rd s2 .evt 0 c 15 0 = _
    unfold s2
    rw [rd_bump_self _ _ _ _ _ _ _ (by decide) (by decide), rd_congr hregs1,
      rd_wr_field _ _ _ _ _ _ _ _ _ (by decide) (by decide) (by decide)]
    rfl
  · have h1 : regsBut [addrOf .evt 0 0x010, addrOf .evt 0 c] s s1 := fun a ha =>
      (getReg_congr hregs1 a).trans (regsBut_wr s _ _ _ _ _ _ (by simp) a ha)
    exact regsBut_then h1 (regsBut_then (regsBut_bump s1 _ _ _ _ _ _ (by simp)) (regsBut_raiseEvt s2 _ _ _ (by simp)))

/-! ## GO activations -/

/-- An activation at a sequencer that does not take its starts from GO. -/
theorem activate_go (hk : k < 120) (hg : goStarts s k = false) (a : BitVec 48) : activate k a s = goActivate k s := by
  unfold activate
  rw [if_pos hk, if_neg (by simp [hg])]

/-- A start by GO. -/
theorem activate_starts (hk : k < 120) (hg : goStarts s k = true) (hr : refusesStart s (k - 112) = false)
    (hp : (getGroup s (k - 112)).pend = none) (ho : (getGroup s (k - 112)).opening = none)
    (hrun : (getGroup s (k - 112)).running = false) (hb : (getGroup s (k - 112)).boundary = false) (a : BitVec 48) :
    (getGroup (activate k a s) (k - 112)).opening = some (s.clk.tc + 24) := by
  have hsrc : (112 ≤ k ∧ k < 120) ∧ rd s .seq k 0x0A0 2 0 = 4 := by
    simpa [goStarts] using hg
  have hs : startSrc s (k - 112) = 4 := by
    unfold startSrc
    rw [show 112 + (k - 112) = k by omega]
    exact hsrc.2
  unfold activate
  rw [if_pos hk, if_pos hg, startAt_of_idle hr hp ho hs (by decide) hrun hb, getGroup_setGroup_self]
  rfl

/-- A sequencer in segment mode takes an activation as a request. -/
theorem goActivate_request (he : enabled s .seq k = true) (hm : segMode s k = true)
    (hsw : (getSeq s k).swAt ≠ some s.clk.tc) :
    (getSeq (goActivate k s) k).req = some (.jump (rd s .seq k 0x088 27 16)) ∧
      ((getSeq (overdue k s) k).req ≠ none → rdBit (goActivate k s) .seq k 0x010 9 = true) := by
  have hgo : goActivate k s = segRequest k (.jump (rd s .seq k 0x088 27 16)) s := by
    unfold goActivate
    rw [if_neg (by simp [he]), if_neg (by simp [hsw]), if_pos hm]
  rw [hgo]
  unfold segRequest
  rw [if_neg (by simp [hm])]
  extract_lets t x s1
  split
  next hx =>
    refine ⟨?_, fun _ => rdBit_raiseEvt_self _ _ _ _ (by decide)⟩
    rw [getSeq_congr (raiseEvt_seqs ..)]
    exact congrArg Machine.Seq.req (getSeq_setSeq_self ..)
  next hx => exact ⟨congrArg Machine.Seq.req (getSeq_setSeq_self ..), fun h => absurd (Option.isSome_iff_ne_none.2 h) hx⟩

/-- Beside a software request of its tick an activation counts as replaced. -/
theorem goActivate_replaced (he : enabled s .seq k = true) (hm : segMode s k = true)
    (hsw : (getSeq s k).swAt = some s.clk.tc) :
    (goActivate k s).seqs = s.seqs ∧ rdBit (goActivate k s) .seq k 0x010 9 = true ∧
      rd (goActivate k s) .seq k 0x094 15 0 = min (rd s .seq k 0x094 15 0 + 1) 65535 := by
  have hgo : goActivate k s = raiseEvt .seq k 9 (bump s .seq k 0x094 15 0 1) := by
    unfold goActivate
    rw [if_neg (by simp [he]), if_pos (by simp [hm, hsw])]
  rw [hgo]
  refine ⟨raiseEvt_seqs .., rdBit_raiseEvt_self _ _ _ _ (by decide), ?_⟩
  unfold rd
  rw [reg_raiseEvt_ne _ _ _ _ fun e => absurd (addrOf_inj (by decide) (by decide) e).2 (by decide)]
  exact rd_bump_self s _ _ _ _ _ _ (by decide) (by decide)

/-! ## Activations in microcode -/

/-- A sequencer that waits, with no branch open and within its limit, or does not wait, stands where time has it. -/
theorem upToDate_of_calm (h : SeqQuiet s k) (hcalm : (getSeq s k).st = .wait → 0 ≤ ticksTo (getSeq s k).w s.clk.tc →
      (getSeq s k).ahead = [] ∧ ∀ l, limitTick s k (getSeq s k) = some l → ticksTo l s.clk.tc < 0) :
    upToDate k s = s := by
  unfold upToDate
  rw [seqTick_of_quiet h]
  dsimp only
  split
  next hw =>
    simp only [Bool.and_eq_true, beq_iff_eq, decide_eq_true_eq] at hw
    obtain ⟨⟨-, hst⟩, hpast⟩ := hw
    obtain ⟨ha, hlim⟩ := hcalm hst hpast
    have hres : resolveBefore k s = s := by simp [resolveBefore, openBefore_of_nil ha]
    rw [hres, seqTick_of_quiet h]
    cases hl : limitTick s k (getSeq s k) with
    | none => simp
    | some l =>
      have := hlim l hl
      simp [show ¬ 0 ≤ ticksTo l s.clk.tc by omega]
  next => rfl

/-- A sequencer that waits for an activation takes it; else it is latched, or counted where one is latched. -/
theorem goActivate_micro (he : enabled s .seq k = true) (hm : segMode s k = false) (hup : upToDate k s = s) :
    goActivate k s =
      if eventWaits s k then setSeq s k { getSeq s k with met := some s.clk.tc }
      else if (getSeq s k).go.isSome then bump s .seq k 0x084 15 0 1
      else wr (setSeq s k { getSeq s k with go := some s.clk.tc }) .seq k 0x084 16 16 1 := by
  unfold goActivate
  rw [if_neg (by simp [he]), if_neg (by simp [hm]), if_neg (by simp [hm]), hup]

/-- When an EVENT wait waits for an activation, of a sequencer in microcode behind no branch. -/
theorem eventWaits_iff (hg : goStarts s k = false) (hm : segMode s k = false)
    (ha : (getSeq s k).st = .wait → 0 ≤ ticksTo (getSeq s k).w s.clk.tc → (getSeq s k).ahead = []) :
    eventWaits s k = true ↔ seqLive s k = true ∧ (getSeq s k).st = .wait ∧ (uword s k (getSeq s k).pc).wait = 4 ∧
      (getSeq s k).met = none ∧ 0 ≤ ticksTo (getSeq s k).w s.clk.tc := by
  simp only [eventWaits, hg, hm, Bool.and_eq_true, beq_iff_eq, decide_eq_true_eq, Bool.not_false, and_true,
    List.isEmpty_iff]
  constructor
  · rintro ⟨⟨⟨⟨⟨hl, hst⟩, hw⟩, hmet⟩, -⟩, hpast⟩
    exact ⟨hl, hst, hw, hmet, hpast⟩
  · rintro ⟨hl, hst, hw, hmet, hpast⟩
    exact ⟨⟨⟨⟨⟨hl, hst⟩, hw⟩, hmet⟩, openBefore_of_nil (ha hst hpast)⟩, hpast⟩

/-- A GO activation that is latched shows in its register. -/
theorem latched_spec (x : Seq) :
    let t := wr (setSeq s k x) .seq k 0x084 16 16 1
    getSeq t k = x ∧ (∀ r, r ≠ k → getSeq t r = getSeq s r) ∧ rdBit t .seq k 0x084 16 = true ∧
      regsBut [addrOf .seq k 0x084] s t := by
  refine ⟨getSeq_setSeq_self s k x, fun r hr => getSeq_setSeq_ne s x hr, ?_, ?_⟩
  · rw [rdBit_wr_self _ _ _ _ _ _ _ _ (by decide) (by decide)]
    simp
  · exact regsBut_then (regsBut_of_eq rfl) (regsBut_wr _ _ _ _ _ _ _ (List.mem_singleton_self _))

end

end Sys2Proof.Machine
end

section
/-! Marks and task activations reach their consumers (O29). -/

open Sys2Proof Sys2Proof.Machine

/-- Settles O29: a mark by its members' turns (`giveMarks_spec`); an activation by what its input makes of it, at a
sequencer `goActivate`. -/
theorem marksAndActivationsReachTheirConsumers : Obligations.MarksAndActivationsReachTheirConsumers := by
  unfold Obligations.MarksAndActivationsReachTheirConsumers
  intro s g n hup hevt k isM isA takes t x y calm waits
  refine ⟨⟨giveMarks g.val, delivers_of_deliver (congrArg Host.Outcome.next (whenUp_of hup)),
    fun i id u hi => giveMarks_spec hi⟩,
    delivers_of_deliver_at (congrArg Host.Outcome.next (whenUp_of hevt)), activateOnce_first,
    fun hk => ⟨activateOnce_again, coincide_spec hk⟩,
    fun hk hg hr hp ho hrun hb => activate_starts hk hg hr hp ho hrun hb _,
    fun hk hg he => ?off, fun hk hg he hm => ⟨fun hsw => ?request, fun hsw => ?replaced⟩,
    fun hk hg he hm hquiet hcalm => ?micro,
    fun h1 h2 => ?capture, fun h1 h2 => ⟨fun h => ?noTbus, fun h hon => ?tbus⟩, fun h1 h2 => ?host, fun h1 => ?none⟩
  case off =>
    unfold t
    rw [activate_go hk hg, goActivate, if_pos (by simp [he])]
  case request =>
    unfold t
    rw [activate_go hk hg]
    exact goActivate_request he hm hsw
  case replaced =>
    unfold t
    rw [activate_go hk hg]
    exact goActivate_replaced he hm hsw
  case micro =>
    have hwaits := eventWaits_iff hg hm fun hst hpast => (hcalm hst hpast).1
    unfold t
    rw [activate_go hk hg, goActivate_micro he hm (upToDate_of_calm hquiet hcalm)]
    refine ⟨fun hw => ?_, fun hw => ⟨fun hgo => ?_, fun hgo => ?_⟩⟩
    · rw [if_pos (hwaits.2 hw)]
      exact ⟨getSeq_setSeq_self .., fun r hr => getSeq_setSeq_ne s _ hr, rfl⟩
    · rw [if_neg (mt hwaits.1 hw), if_neg (by simp [show (getSeq s k).go = none from hgo])]
      exact latched_spec _
    · rw [if_neg (mt hwaits.1 hw), if_pos (Option.isSome_iff_ne_none.2 hgo)]
      exact ⟨rfl, rd_bump_self s _ _ _ _ _ _ (by decide) (by decide)⟩
  case capture =>
    have hact : t = setCap ((k - 120) / 4) { getCap s ((k - 120) / 4) with
        acts := (getCap s ((k - 120) / 4)).acts ++ [((k - 120) % 4, s.clk.tc)] } s := by
      unfold t activate
      rw [if_neg (by omega), if_pos h2]
    rw [hact]
    exact ⟨mapGet_mapSet_self .., fun v hv => mapGet_mapSet_of_ne _ _ _ hv, rfl⟩
  case noTbus =>
    unfold t activate
    rw [if_neg (by omega), if_neg (by omega), if_neg (by omega), if_neg (by omega), if_neg (by omega), if_pos h2]
    split
    next hon =>
      have hoff : tbusOn s = false := h.resolve_left fun e => absurd (e.symm.trans hon) (by decide)
      exact if_pos (by simp [hoff])
    next => rfl
  case tbus =>
    unfold t activate
    rw [if_neg (by omega), if_neg (by omega), if_neg (by omega), if_neg (by omega), if_neg (by omega), if_pos h2,
      if_pos h]
    exact if_neg (by simp [hon])
  case host =>
    have hact : t = raiseEvt .evt 0 (8 + (k - 180)) s := by
      unfold t activate
      rw [if_neg (by omega), if_neg (by omega), if_neg (by omega), if_neg (by omega), if_neg (by omega),
        if_neg (by omega),
        if_pos h2]
    rw [hact]
    exact ⟨rdBit_raiseEvt_self _ _ _ _ (by omega), raiseEvt_items .., raiseEvt_clk ..,
      regsBut_raiseEvt s _ _ _ (List.mem_singleton_self _)⟩
  case none =>
    unfold t activate
    rw [if_neg (by omega), if_neg (by omega), if_neg (by omega), if_neg (by omega), if_neg (by omega), if_neg (by omega),
      if_neg (by omega)]
end

section
/-! What a channel's broadcasts leave alone as they arrive, and with them the Ladle's work (O25, O26). -/

namespace Sys2Proof.Machine

namespace Worked

variable {Q : Nat → Prop} {b s : State}

protected theorem fireLine {line : Nat} {x : BitVec 48} {soft : Bool} (h : Worked Q b s) :
    Worked Q b (fireLine line x soft s) := by
  rw [fireLine_eq]
  exact h.frame (by rfl)

protected theorem setBcast {c : Nat} {st : DState} {d : BitVec 48} (h : Worked Q b s) :
    Worked Q b (setBcast c st d s) := by
  unfold Machine.setBcast
  extract_lets x s1 fires
  have h1 : Worked Q b s1 := .ite h (h.frame (by rfl))
  exact .foldl .fireLine h1

protected theorem bcastCatch {c : Nat} {x : BitVec 48} (h : Worked Q b s) : Worked Q b (bcastCatch c x s) := by
  unfold Machine.bcastCatch
  extract_lets s1 due
  refine .foldl (fun h => ?_) (.frame h.ladleCatch (by rfl))
  split
  · exact h.setBcast
  · exact h

end Worked

namespace Near

variable {b s : State}

protected theorem queueRt {t : BitVec 48} {m : TxMsg} {r : Nat} (h : Near b s) : Near b (queueRt t m s r) := by
  obtain ⟨wait, e⟩ := queueRt_rest t m s r
  rw [e]
  exact h.frame (by rfl)

protected theorem exportDch {c : Nat} {st : DState} {e : BitVec 48} (h : Near b s) : Near b (exportDch c st e s) := by
  unfold Machine.exportDch
  exact .ite h (.foldl .queueRt (.frame h (by rfl)))

protected theorem moveDch {e : BitVec 48} {c : Nat} {st : DState} (h : Near b s) : Near b (moveDch e c st s) :=
  .ite h (.exportDch (h.frame (by rfl)))

protected theorem evalAll {e : BitVec 48} (h : Near b s) : Near b (evalAll e s) := .foldl .moveDch h

protected theorem evalAt {e : BitVec 48} (h : Near b s) : Near b (evalAt e s) := .ite h (h.frame (by rfl))

protected theorem sendSynd {t : BitVec 48} {r : Res} {k : Nat} (h : Near b s) : Near b (sendSynd t r s k) :=
  .ite (h.frame (by rfl)) h

protected theorem writeEntry {r : Res} {st : Nat} {fl : Bool} {k : Nat} (h : Near b s) :
    Near b (writeEntry r st fl s k) := by
  unfold Machine.writeEntry
  have hfar : FarReg (addrOf .ladle 0 (entryOff k)) := farReg_high (by decide) 0 _
  exact .ite (h.setReg hfar _) (h.setReg hfar _)

protected theorem withdrawArms {dep : Nat} (h : Near b s) : Near b (withdrawArms dep s) := by
  unfold Machine.withdrawArms
  exact .foldl (fun h => .foldl (fun h => .wr h (by decide)) h) (.frame h (by rfl))

protected theorem ladleResolve {dep : Nat} {ok : Bool} {t : BitVec 48} (h : Near b s) :
    Near b (ladleResolve dep ok t s) := by
  unfold Machine.ladleResolve
  extract_lets wrong s1 copy
  have h1 : Near b s1 := .ite h (h.frame (by rfl))
  exact .ite (h1.frame (by rfl)) (.ite h1.withdrawArms.evalAt h1)

protected theorem runJob {t : BitVec 48} {j : LJob} (h : Near b s) : Near b (runJob t j s) := by
  unfold Machine.runJob
  split
  · exact h.ladleResolve
  · exact h.evalAll
  · exact .ite (h.frame (by rfl)) h
  · exact .ite h.writeEntry.sendSynd.evalAt h

protected theorem runJobs {x : BitVec 48} {rank : Nat} : ∀ {n : Nat} {s : State}, Near b s → Near b (runJobs n x rank s)
  | 0, _, h => h
  | n + 1, s, h => by
    unfold Machine.runJobs
    split
    · exact h
    · exact .ite (Near.runJobs (.runJob (.frame h (by rfl)))) h

protected theorem ladleCatch (h : Near b s) : Near b (ladleCatch s) := .runJobs h

protected theorem fireLine {line : Nat} {x : BitVec 48} {soft : Bool} (h : Near b s) :
    Near b (fireLine line x soft s) := by
  rw [fireLine_eq]
  exact h.frame (by rfl)

protected theorem setBcast {c : Nat} {st : DState} {d : BitVec 48} (h : Near b s) : Near b (setBcast c st d s) := by
  unfold Machine.setBcast
  extract_lets x s1 fires
  have h1 : Near b s1 := .ite h (h.frame (by rfl))
  exact .foldl .fireLine h1

protected theorem bcastCatch {c : Nat} {x : BitVec 48} (h : Near b s) : Near b (bcastCatch c x s) := by
  unfold Machine.bcastCatch
  extract_lets s1 due
  refine .foldl (fun h => ?_) (.frame h.ladleCatch (by rfl))
  split
  · exact h.setBcast
  · exact h

end Near

/-- A later state in which the sequencers stand as they did. -/
structure Stands (s t : State) : Prop extends SameSetting s t where
  seqs : t.seqs = s.seqs

namespace Stands

variable {s t u : State}

theorem trans (h : Stands s t) (h' : Stands t u) : Stands s u :=
  ⟨h.toSameSetting.trans h'.toSameSetting, h'.seqs.trans h.seqs⟩

theorem refl (s : State) : Stands s s := ⟨.refl s, rfl⟩

theorem passTo (d : BitVec 48) (s : State) : Stands s (passTo d s) := ⟨.passTo d s, passTo_seqs d s⟩

theorem raiseEvt (s : State) (q : Nat) {bit : Nat} (hb : bit < 32) : Stands s (raiseEvt .seq q bit s) :=
  ⟨.raiseEvt s q bit hb, raiseEvt_seqs ..⟩

theorem tagSeq (q : Nat) (bits : BitVec 8) (s : State) : Stands s (tagSeq q bits s) :=
  have h : Worked (fun _ => False) s (Machine.tagSeq q bits s) := .tagSeq (.refl _ s)
  ⟨h.setting (congrArg State.later (Tagged.tagSeq q bits s).rest :), h.seqs fun _ hq => hq⟩

theorem bcastCatch (c : Nat) (x : BitVec 48) (s : State) : Stands s (bcastCatch c x s) :=
  have h : Worked (fun _ => False) s (Machine.bcastCatch c x s) := .bcastCatch (.refl _ s)
  ⟨h.setting (Near.bcastCatch (.refl s)).later, h.seqs fun _ hq => hq⟩

theorem getSeq (h : Stands s t) (q : Nat) : getSeq t q = getSeq s q := getSeq_congr h.seqs q

theorem steady {q : Nat} (h : Stands s t) (hs : Steady s q) : Steady t q :=
  hs.congr h.toSameSetting (by rw [h.getSeq]; exact .refl _)

end Stands

end Sys2Proof.Machine
end

section
/-! Waits of a word and the word that follows (O25). -/

namespace Sys2Proof.Machine

/-! ## The next word -/

/-- Word a becomes the current word of the sequencer with word tick w: none of it is done, and a latched activation is
taken if it waits for one (R77). -/
def Enters (s : State) (q a : Nat) (w : BitVec 48) (t : State) : Prop :=
  let x : Seq := getSeq s q
  let takes : Prop := (uword s q a).wait = 4 ∧ goStarts s q = false ∧ 0 ≤ ticksTo w t.clk.tc
  (getSeq t q).pc = a ∧ (getSeq t q).w = w ∧ (getSeq t q).succ = none ∧ (getSeq t q).did = [] ∧
  (getSeq t q).loops = x.loops ∧ (getSeq t q).calls = x.calls ∧
  (getSeq t q).met = (if takes then x.go else none) ∧ (getSeq t q).go = (if takes then none else x.go) ∧
  (getSeq t q).st = (if 3 ≤ (uword s q a).wait then .wait else .run) ∧
  (∀ r, r ≠ q → getSeq t r = getSeq s r) ∧ t.stores = s.stores

/-- A later state in the same wait: control and shots stand, as do the other sequencers, and this one but for what its
wait met. -/
structure InWait (s : State) (q : Nat) (v : State) : Prop extends SameShots s v where
  seq : ∃ met st br, getSeq v q = { getSeq s q with met := met, st := st, br := br }
  others : ∀ r, r ≠ q → getSeq v r = getSeq s r

section
variable {s v : State} {q a : Nat} {w : BitVec 48}

theorem InWait.of_seqs (h : SameShots s v) (hq : v.seqs = s.seqs) : InWait s q v :=
  ⟨h, ⟨_, _, _, getSeq_congr hq q⟩, fun r _ => getSeq_congr hq r⟩

theorem InWait.then (h : InWait s q v) {t : State} (ht : SameShots v t) (hq : t.seqs = v.seqs) : InWait s q t where
  toSameShots := h.toSameShots.trans ht
  seq := by
    rw [getSeq_congr hq]
    exact h.seq
  others r hr := (getSeq_congr hq r).trans (h.others r hr)

/-- The sequencer at its next word, before a latch is taken. -/
def atWord (s : State) (q a : Nat) (w : BitVec 48) : Seq :=
  let x := getSeq s q
  { x with
    pc := a, w := w, succ := none, did := [], br := false, met := none, preSwp := []
    st := if 3 ≤ (uword s q a).wait then .wait else .run
    marks := if x.ahead.isEmpty then x.marks.filter (fun m => decide (0 ≤ ticksTo w m.2)) else x.marks }

theorem fetchWord_eq (h : InWait s q v) (hb : badLane s q a = none) :
    fetchWord q a w v = takeLatch q (setSeq v q (atWord s q a w)) := by
  obtain ⟨met, st, br, hx⟩ := h.seq
  unfold fetchWord
  rw [h.control.badLane, hb]
  dsimp only
  rw [hx, h.uword]
  rfl

/-- The next word's sequencer takes a latched activation where the word waits for one. -/
theorem eventWaits_atWord (h : InWait s q v) (hs : Steady s q) (ha : (getSeq s q).ahead = []) :
    eventWaits (setSeq v q (atWord s q a w)) q = true ↔
      (uword s q a).wait = 4 ∧ goStarts s q = false ∧ 0 ≤ ticksTo w v.clk.tc := by
  have hv : SameShots s (setSeq v q (atWord s q a w)) := h.toSameShots.trans (SameSetting.setSeq v q _).toSameShots
  have hy : getSeq (setSeq v q (atWord s q a w)) q = atWord s q a w := getSeq_setSeq_self ..
  have hg := hv.goStarts hs.lt
  have hm : segMode (setSeq v q (atWord s q a w)) q = false := (hv.control.segMode hs.lt).trans hs.micro
  have hlive : seqLive (setSeq v q (atWord s q a w)) q = true := by
    refine hv.seqLive_of hs.lt hs.live (by rw [hy]; rfl) ?_
    rw [hy]
    by_cases h3 : 3 ≤ (uword s q a).wait
    · exact .inr (if_pos h3)
    · exact .inl (if_neg h3)
  cases hgs : goStarts s q
  case true => simp [eventWaits, hg, hgs]
  case false =>
    rw [eventWaits_iff (hg.trans hgs) hm fun _ _ => (congrArg Seq.ahead hy).trans ha, hy, hv.uword]
    constructor
    · rintro ⟨-, -, hw, -, hpast⟩
      exact ⟨hw, rfl, hpast⟩
    · rintro ⟨hw, -, hpast⟩
      exact ⟨hlive, if_pos (by omega), hw, rfl, hpast⟩

/-- A latched activation is taken by a wait for one; a wait that finds none stays as it is. -/
theorem takeLatch_spec (q : Nat) (v : State) :
    getSeq (takeLatch q v) q =
        (if eventWaits v q = true then { getSeq v q with met := (getSeq v q).go, go := none } else getSeq v q) ∧
      (∀ r, r ≠ q → getSeq (takeLatch q v) r = getSeq v r) ∧ (takeLatch q v).clk = v.clk ∧
      (takeLatch q v).stores = v.stores := by
  unfold takeLatch
  dsimp only
  split
  next h =>
    simp only [Bool.and_eq_true] at h
    rw [if_pos h.2]
    exact ⟨getSeq_setSeq_self .., fun r hr => getSeq_setSeq_ne _ _ hr, rfl, rfl⟩
  next h =>
    refine ⟨?_, fun _ _ => rfl, rfl, rfl⟩
    split
    next he =>
      have hgo : (getSeq v q).go = none := by simpa [he] using h
      have hmet : (getSeq v q).met = none := by simp_all [eventWaits]
      cases hx : getSeq v q
      simp_all
    next => rfl

/-- The word is fetched, as its parity holds, and takes a latched activation. -/
theorem fetchWord_enters (h : InWait s q v) (hs : Steady s q) (ha : (getSeq s q).ahead = []) (hb : badLane s q a = none) :
    Enters s q a w (fetchWord q a w v) := by
  obtain ⟨hseq, hothers, hclk, hstores⟩ := takeLatch_spec q (setSeq v q (atWord s q a w))
  rw [getSeq_setSeq_self] at hseq
  simp only [eventWaits_atWord h hs ha] at hseq
  have hothers' (r : Nat) (hr : r ≠ q) : getSeq (takeLatch q (setSeq v q (atWord s q a w))) r = getSeq s r := by
    rw [hothers r hr, getSeq_setSeq_ne _ _ hr, h.others r hr]
  have hclk' : (takeLatch q (setSeq v q (atWord s q a w))).clk = v.clk := hclk
  rw [fetchWord_eq h hb]
  unfold Enters
  rw [hclk', hstores]
  by_cases ht : (uword s q a).wait = 4 ∧ goStarts s q = false ∧ 0 ≤ ticksTo w v.clk.tc
  · rw [if_pos ht] at hseq
    rw [hseq]
    exact ⟨rfl, rfl, rfl, rfl, rfl, rfl, (if_pos ht).symm, (if_pos ht).symm, rfl, hothers', h.control.stores⟩
  · rw [if_neg ht] at hseq
    rw [hseq]
    exact ⟨rfl, rfl, rfl, rfl, rfl, rfl, (if_neg ht).symm, (if_neg ht).symm, rfl, hothers', h.control.stores⟩

end

end Sys2Proof.Machine
end

section
/-! The ends of waits (O25). -/

namespace Sys2Proof.Machine

/-! ## When the next word begins -/

section
variable {s : State} {q : Nat} {x : Seq} {u : Uword}

theorem nextWordTick_rel (h : u.wait = 0) : nextWordTick s q x u = some (x.w + 1 + BitVec.ofNat 48 u.cnt) := by
  unfold nextWordTick
  rw [h]
  rfl

theorem nextWordTick_abs (h : u.wait = 1) :
    nextWordTick s q x u = some (laterTick (x.w + 1) (seqT0 s q + BitVec.ofNat 48 u.cnt)) := by
  unfold nextWordTick
  rw [h]
  rfl

theorem nextWordTick_sync (h : u.wait = 2) :
    nextWordTick s q x u = some (nextSync (x.w + 1) + BitVec.ofNat 48 u.cnt) := by
  unfold nextWordTick
  rw [h]
  rfl

/-- The waits that depend on time alone. -/
theorem nextWordTick_known (h : u.wait ≤ 2) : ∃ w, nextWordTick s q x u = some w := by
  obtain h | h | h : u.wait = 0 ∨ u.wait = 1 ∨ u.wait = 2 := by omega
  · exact ⟨_, nextWordTick_rel h⟩
  · exact ⟨_, nextWordTick_abs h⟩
  · exact ⟨_, nextWordTick_sync h⟩

/-- Behind a data-dependent wait the next word's tick is known once the item is (R76). -/
theorem nextWordTick_data (h : 3 ≤ u.wait) :
    nextWordTick s q x u = x.met.map fun d => laterTick (x.w + 1) (d + 4) + BitVec.ofNat 48 u.cnt := by
  obtain ⟨n, hn⟩ := Nat.exists_eq_add_of_le' h
  unfold nextWordTick
  rw [hn]
  cases x.met <;> rfl

theorem waitPast_data (h : 3 ≤ u.wait) : waitPast s q x u = false := by
  simp [waitPast, show u.wait ≠ 1 by omega]

end

section
variable {v : State} {q a : Nat} {t : BitVec 48}

/-- What is done before the next word begins: an ABS wait whose tick is past raises its event (R76). -/
def beforeNext (q : Nat) (t : BitVec 48) (v : State) : State :=
  if waitPast v q (getSeq v q) (uword v q (getSeq v q).pc) then doOrKeep q .waitPast (passTo t v) else passTo t v

theorem moveOn_word (hs : SeqQuiet v q) (ha : (getSeq v q).ahead = []) (hsucc : (getSeq v q).succ = some (.word a))
    (hn : nextWordTick v q (getSeq v q) (uword v q (getSeq v q).pc) = some t) :
    moveOn q v = fetchWord q a t (beforeNext q t v) := by
  unfold moveOn beforeNext
  simp only [seqTick_of_quiet hs, hsucc, hn, passNext_of_nil ha]

theorem moveOn_fin (hs : SeqQuiet v q) (ha : (getSeq v q).ahead = []) (hsucc : (getSeq v q).succ = some .fin)
    (hn : nextWordTick v q (getSeq v q) (uword v q (getSeq v q).pc) = some t) :
    moveOn q v = endPart q t (beforeNext q t v) := by
  unfold moveOn beforeNext
  simp only [seqTick_of_quiet hs, hsucc, hn, passNext_of_nil ha, ha, List.isEmpty_nil, if_true]

theorem moveOn_waits (hs : SeqQuiet v q) (hn : nextWordTick v q (getSeq v q) (uword v q (getSeq v q).pc) = none) :
    moveOn q v = v := by
  unfold moveOn
  simp only [seqTick_of_quiet hs, hn]
  split <;> simp_all

/-- The event of an ABS wait, now or where the word's tick is still ahead then. -/
theorem beforeNext_spec (ha : (getSeq v q).ahead = []) (t : BitVec 48) :
    SameShots v (beforeNext q t v) ∧ (beforeNext q t v).seqs = v.seqs ∧
      (waitPast v q (getSeq v q) (uword v q (getSeq v q).pc) = true →
        ticksTo (beforeNext q t v).clk.tc (getSeq v q).w ≤ 0 → rdBit (beforeNext q t v) .seq q 0x010 3 = true) := by
  have hpass : SameShots v (passTo t v) := (SameSetting.passTo t v).toSameShots
  unfold beforeNext
  split
  next hp =>
    rw [doOrKeep_of_nil (by rw [getSeq_passTo]; exact ha), getSeq_passTo]
    unfold doAt
    split
    next hahead =>
      have hw : SameShots (passTo t v) (waitFor (getSeq v q).w q .waitPast (passTo t v)) :=
        (Worked.frame (Q := fun _ => False) (.refl _ _) (by rfl)).shots
      refine ⟨hpass.trans hw, passTo_seqs t v, fun _ hle => ?_⟩
      have hle' : ticksTo (passTo t v).clk.tc (getSeq v q).w ≤ 0 := hle
      omega
    next =>
      exact ⟨hpass.trans (SameSetting.raiseEvt _ q 3 (by decide)).toSameShots, (raiseEvt_seqs ..).trans (passTo_seqs t v),
        fun _ _ => rdBit_raiseEvt_self _ _ _ _ (by decide)⟩
  next hp => exact ⟨hpass, passTo_seqs t v, fun h => absurd h hp⟩

end

/-! ## A wait of which the end is known -/

section
variable {s : State} {q a : Nat} (hs : Steady s q) (ha : (getSeq s q).ahead = []) (hst : (getSeq s q).st ≠ .stopped)
include hs

theorem waiting_steady (hst : (getSeq s q).st ≠ .stopped) : waiting s q = some (uword s q (getSeq s q).pc) := by
  have hhalt : (getSeq s q).halt = false := hs.quiet.halt
  unfold waiting
  simp [hs.live, hs.micro, hst, hhalt]

include hst in
theorem waitExpiry_eq : waitExpiry q s = moveOn q s := by
  unfold waitExpiry
  rw [waiting_steady hs hst]

include ha hst

/-- The next word begins in its tick. -/
theorem waitExpiry_enters (hsucc : (getSeq s q).succ = some (.word a)) (hb : badLane s q a = none) {w : BitVec 48}
    (hn : nextWordTick s q (getSeq s q) (uword s q (getSeq s q).pc) = some w) :
    Enters s q a w (waitExpiry q s) ∧
      (waitPast s q (getSeq s q) (uword s q (getSeq s q).pc) = true →
        ticksTo (waitExpiry q s).clk.tc (getSeq s q).w ≤ 0 → rdBit (waitExpiry q s) .seq q 0x010 3 = true) := by
  obtain ⟨hshots, hseqs, hevt⟩ := beforeNext_spec ha w
  rw [waitExpiry_eq hs hst, moveOn_word hs.quiet ha hsucc hn]
  have hw : Worked (· = q) (beforeNext q w s) (fetchWord q a w (beforeNext q w s)) := .fetchWord (.refl _ _) rfl
  refine ⟨fetchWord_enters (.of_seqs hshots hseqs) hs ha hb, fun hp hle => ?_⟩
  rw [hw.clk] at hle
  exact hw.evts q hs.lt 3 (hevt hp hle)

/-- The part has ended; frames left on its stacks raise its event (R87). -/
theorem waitExpiry_ends (hsucc : (getSeq s q).succ = some .fin) {w : BitVec 48}
    (hn : nextWordTick s q (getSeq s q) (uword s q (getSeq s q).pc) = some w) :
    (getSeq (waitExpiry q s) q).st = .ended ∧
      ((getSeq s q).loops ≠ [] ∨ (getSeq s q).calls ≠ [] → rdBit (waitExpiry q s) .seq q 0x010 5 = true) := by
  obtain ⟨-, hseqs, -⟩ := beforeNext_spec ha w
  rw [waitExpiry_eq hs hst, moveOn_fin hs.quiet ha hsucc hn]
  refine ⟨by rw [getSeq_endPart], fun hleft => ?_⟩
  unfold endPart
  extract_lets x left s1
  have hx : x = getSeq s q := getSeq_congr hseqs q
  have hleft' : left = true := by
    unfold left
    rw [hx]
    rcases hleft with h | h <;> simp [h]
  have h1 : rdBit s1 .seq q 0x010 5 = true := by
    unfold s1 raiseEvtIf
    rw [if_pos hleft']
    exact rdBit_raiseEvt_self _ _ _ _ (by decide)
  split
  · exact (Worked.foldl (Q := fun _ => False) .fluxEndPark (.refl _ s1)).evts q hs.lt 5 h1
  · exact h1

end

/-! ## Data-dependent waits -/

section
variable {s v : State} {q a : Nat}

/-- The wait has met its item. -/
theorem quiet_of_met (h : SeqStill s q) (hl : v.later = s.later) {d : BitVec 48} {st : SeqSt} {br : Bool}
    (hv : getSeq v q = { getSeq s q with met := some d, st := st, br := br }) : SeqQuiet v q := by
  obtain ⟨hlater, hhalt, hfixing, hsucc, hend⟩ := h
  refine ⟨⟨hl.trans hlater, ?_, ?_, ?_, ?_⟩, .inr (.inr ?_)⟩ <;> rw [hv]
  · exact hhalt
  · exact hfixing
  · exact hsucc
  · exact hend
  · exact Option.some_ne_none d

variable (hs : Steady s q) (ha : (getSeq s q).ahead = []) (hsucc : (getSeq s q).succ = some (.word a))
  (hb : badLane s q a = none) (h3 : 3 ≤ (uword s q (getSeq s q).pc).wait)

/-- A word that has its successor does not look for a branch. -/
theorem wordBr_of_succ (h : SeqQuiet v q) (hsucc : (getSeq v q).succ = some (.word a)) : wordBr q v = v := by
  unfold wordBr
  rw [seqTick_of_quiet h]
  exact if_neg (by simp [hsucc])

/-- The sequencer once its wait has met an item, due at tick d. -/
def metOnly (q : Nat) (d : BitVec 48) (v : State) : State := setSeq v q { getSeq v q with met := some d, st := .run }

/-- It looks for a branch no more. -/
def branchDone (q : Nat) (v : State) : State := setSeq v q { getSeq v q with br := false }

theorem waitMet_eq (q : Nat) (d : BitVec 48) (v : State) : waitMet q d v =
    moveOn q (if (getSeq (metOnly q d v) q).br then wordBr q (branchDone q (metOnly q d v)) else metOnly q d v) := rfl

theorem metOnly_spec (hv : Stands s v) (q : Nat) (d : BitVec 48) : InWait s q (metOnly q d v) ∧
    (metOnly q d v).later = s.later ∧
    ∃ br, getSeq (metOnly q d v) q = { getSeq s q with met := some d, st := .run, br := br } := by
  have hx : getSeq (metOnly q d v) q = { getSeq s q with met := some d, st := .run } := by
    unfold metOnly
    rw [getSeq_setSeq_self, hv.getSeq q]
  refine ⟨⟨hv.toSameShots.trans (SameSetting.setSeq v q _).toSameShots, ⟨_, _, _, hx⟩, fun r hr => ?_⟩, hv.later, _, hx⟩
  exact (getSeq_setSeq_ne v _ hr).trans (hv.getSeq r)

theorem branchDone_spec (hv : InWait s q v) {d : BitVec 48}
    (hx : ∃ br, getSeq v q = { getSeq s q with met := some d, st := .run, br := br }) : InWait s q (branchDone q v) ∧
    ∃ br, getSeq (branchDone q v) q = { getSeq s q with met := some d, st := .run, br := br } := by
  obtain ⟨br, hx⟩ := hx
  have hx' : getSeq (branchDone q v) q = { getSeq s q with met := some d, st := .run, br := false } := by
    unfold branchDone
    rw [getSeq_setSeq_self, hx]
  refine ⟨⟨hv.toSameShots.trans (SameSetting.setSeq v q _).toSameShots, ⟨_, _, _, hx'⟩, fun r hr => ?_⟩, _, hx'⟩
  exact (getSeq_setSeq_ne v _ hr).trans (hv.others r hr)

include hs ha hsucc hb h3

/-- Once the item is known the next word begins 4 ticks and CNT after it, but not before W + 1 + CNT (R76). -/
theorem moveOn_met (hv : InWait s q v) (hl : v.later = s.later) {d : BitVec 48}
    (hx : ∃ br, getSeq v q = { getSeq s q with met := some d, st := .run, br := br }) :
    Enters s q a (laterTick ((getSeq s q).w + 1) (d + 4) + BitVec.ofNat 48 (uword s q (getSeq s q).pc).cnt) (moveOn q v) ∧
      ∀ i, rdBit v .seq q 0x010 i = true → rdBit (moveOn q v) .seq q 0x010 i = true := by
  obtain ⟨br, hx⟩ := hx
  have hu : uword v q (getSeq v q).pc = uword s q (getSeq s q).pc := by rw [hx, hv.uword]
  have hahead : (getSeq v q).ahead = [] := by rw [hx]; exact ha
  have hn : nextWordTick v q (getSeq v q) (uword v q (getSeq v q).pc) =
      some (laterTick ((getSeq s q).w + 1) (d + 4) + BitVec.ofNat 48 (uword s q (getSeq s q).pc).cnt) := by
    rw [hu, nextWordTick_data h3, hx]
    rfl
  rw [moveOn_word (quiet_of_met hs.quiet.1 hl hx) hahead (by rw [hx]; exact hsucc) hn]
  unfold beforeNext
  rw [hu, waitPast_data h3]
  refine ⟨fetchWord_enters (hv.then (SameSetting.passTo _ v).toSameShots (passTo_seqs _ v)) hs ha hb, fun i hi => ?_⟩
  refine (Worked.fetchWord (Q := (· = q)) (.refl _ _) rfl).evts q hs.lt i ?_
  rw [if_neg (by decide), rdBit_congr (passTo_regs _ v)]
  exact hi

theorem waitMet_enters (hv : Stands s v) (d : BitVec 48) :
    Enters s q a (laterTick ((getSeq s q).w + 1) (d + 4) + BitVec.ofNat 48 (uword s q (getSeq s q).pc).cnt) (waitMet q d v) ∧
      ∀ i, rdBit v .seq q 0x010 i = true → rdBit (waitMet q d v) .seq q 0x010 i = true := by
  obtain ⟨hmet, hl, hx⟩ := metOnly_spec hv q d
  rw [waitMet_eq]
  split
  · obtain ⟨hdone, br, hx'⟩ := branchDone_spec hmet hx
    rw [wordBr_of_succ (quiet_of_met hs.quiet.1 (v := branchDone q (metOnly q d v)) hl hx') (by rw [hx']; exact hsucc)]
    exact moveOn_met hs ha hsucc hb h3 hdone hl ⟨br, hx'⟩
  · exact moveOn_met hs ha hsucc hb h3 hmet hl hx

/-- A wait that its limit ends raises its event (R78). -/
theorem timedOut_enters (hv : Stands s v) (t : BitVec 48) :
    rdBit (timedOut q t v) .seq q 0x010 2 = true ∧
      Enters s q a (laterTick ((getSeq s q).w + 1) (t - 4 + 4) + BitVec.ofNat 48 (uword s q (getSeq s q).pc).cnt)
        (timedOut q t v) := by
  have hstands : Stands s (tagSeq q tagLate (raiseEvt .seq q 2 (passTo t v))) :=
    (hv.trans (.passTo t v)).trans ((Stands.raiseEvt _ q (by decide)).trans (.tagSeq ..))
  obtain ⟨henters, hkeeps⟩ := waitMet_enters hs ha hsucc hb h3 hstands (t - 4)
  refine ⟨hkeeps 2 ?_, henters⟩
  unfold rdBit
  rw [(Tagged.tagSeq ..).reg_off (by decide) (by decide)]
  exact rdBit_raiseEvt_self _ _ _ _ (by decide)

/-- A wait that has met an item ends by it, or by its limit before that (R78). -/
theorem metWait_enters (hv : Stands s v) (d : BitVec 48) :
    let x := getSeq s q
    let lim := rd s .seq q 0x07C 23 0
    let limit := x.w + BitVec.ofNat 48 lim
    let after (d : BitVec 48) := laterTick (x.w + 1) (d + 4) + BitVec.ofNat 48 (uword s q x.pc).cnt
    (lim = 0 ∨ ticksTo limit (d + 4) ≤ 0 → Enters s q a (after d) (metWait q d v)) ∧
    (lim ≠ 0 → 0 < ticksTo limit (d + 4) →
      rdBit (metWait q d v) .seq q 0x010 2 = true ∧ Enters s q a (after (limit - 4)) (metWait q d v)) := by
  extract_lets x lim limit after
  have hlim : limitTick v q (getSeq v q) = if lim = 0 then none else some limit := by
    rw [hv.getSeq, hv.limitTick hs.lt]
    rfl
  refine ⟨fun hend => ?_, fun h0 hlate => ?_⟩
  · have hmet : metWait q d v = waitMet q d v := by
      unfold metWait
      rw [hlim]
      split
      next t ht =>
        split at ht
        · contradiction
        next h0 =>
          obtain rfl := Option.some.inj ht
          have := hend.resolve_left h0
          exact if_neg (by omega)
      next => rfl
    rw [hmet]
    exact (waitMet_enters hs ha hsucc hb h3 hv d).1
  · have hmet : metWait q d v = timedOut q limit v := by
      unfold metWait
      rw [hlim, if_neg h0]
      exact if_pos hlate
    rw [hmet]
    exact timedOut_enters hs ha hsucc hb h3 hv limit

end

end Sys2Proof.Machine
end

section
/-! The commands that end waits (O25). -/

namespace Sys2Proof.Machine

/-! ## Ticks -/

theorem limitTick_eq (s : State) (q : Nat) (x : Seq) : limitTick s q x =
    if rd s .seq q 0x07C 23 0 = 0 then none else some (x.w + BitVec.ofNat 48 (rd s .seq q 0x07C 23 0)) := rfl

/-- The later of a tick and the current one is the same once time has come to it. -/
theorem laterTick_passTo {s : State} (hc : clockRuns s = true) (t : BitVec 48) :
    laterTick t (passTo t s).clk.tc = laterTick t s.clk.tc := by
  rcases Int.lt_or_le 0 (ticksTo s.clk.tc t) with h | h
  · have hneg : ticksTo t s.clk.tc < 0 := by
      have e : s.clk.tc - t = -(t - s.clk.tc) := by simp
      unfold ticksTo at h ⊢
      rw [e, BitVec.toInt_neg]
      have hlt := BitVec.toInt_lt (x := t - s.clk.tc)
      rw [Int.bmod_eq_of_le (by omega) (by omega)]
      omega
    rw [passTo_tc hc h]
    unfold laterTick
    rw [if_pos (ticksTo_self t).ge, if_neg (by omega)]
  · rw [passTo_of_past h]

section
variable {s : State} {q : Nat} (hs : Steady s q) (ha : (getSeq s q).ahead = []) (hst : (getSeq s q).st ≠ .stopped)
  {ok : Seq → Uword → Bool} {first : Seq → BitVec 48} {f : Seq → Uword → State → State}
include hs hst

/-- A command of another kind of wait does nothing. -/
theorem atWait_not (hok : ok (getSeq s q) (uword s q (getSeq s q).pc) = false) : atWait q ok first f s = s := by
  unfold atWait
  simp [seqTick_of_quiet hs.quiet, waiting_steady hs hst, hok]

include ha

/-- With no branch open, time passes to the tick before which the wait cannot have ended; a DECISION's channel is
known then. -/
theorem atWait_acts (hok : ok (getSeq s q) (uword s q (getSeq s q).pc) = true) : atWait q ok first f s =
    let u := uword s q (getSeq s q).pc
    let v := passTo (first (getSeq s q)) s
    f (getSeq s q) u (if u.wait = 3 then bcastCatch u.dch (laterTick ((getSeq s q).w - 4) v.clk.tc) v else v) := by
  have hv : Stands s (passTo (first (getSeq s q)) s) := .passTo _ s
  have hsv : Steady (passTo (first (getSeq s q)) s) q := hv.steady hs
  have hres : resolveBefore q (passTo (first (getSeq s q)) s) = passTo (first (getSeq s q)) s := by
    simp [resolveBefore, openBefore_of_nil ha]
  have hwait : (waiting (passTo (first (getSeq s q)) s) q).isSome = true := by
    rw [waiting_steady hsv (by rw [hv.getSeq]; exact hst)]
    rfl
  unfold atWait
  simp only [seqTick_of_quiet hs.quiet, waiting_steady hs hst, hok, if_true, hres, seqTick_of_quiet hsv.quiet, hwait,
    hv.getSeq, standsAt, and_self, decide_true, Bool.and_self]

end

section
variable {s : State} {q a : Nat}

/-- What is seen once a wait's first tick has come. -/
theorem stands_seen (c : Nat) (d t : BitVec 48) (n : Nat) (s : State) :
    Stands s (if n = 3 then bcastCatch c d (passTo t s) else passTo t s) := by
  split
  · exact (Stands.passTo t s).trans (.bcastCatch ..)
  · exact .passTo t s

variable (hs : Steady s q) (ha : (getSeq s q).ahead = []) (hst : (getSeq s q).st ≠ .stopped)
include hs ha hst

theorem decisionWaitEnd_eq (hup : ptUp s .seq = true) (hw : (uword s q (getSeq s q).pc).wait = 3)
    (hmet : (getSeq s q).met = none) :
    let x := getSeq s q
    let u := uword s q x.pc
    let seen := bcastCatch u.dch (laterTick (x.w - 4) s.clk.tc) (passTo (x.w - 4) s)
    decisionWaitEnd q s = endWait q x u seen := by
  unfold decisionWaitEnd
  rw [atWait_acts hs ha hst (decide_eq_true ⟨hw, hmet⟩)]
  dsimp only
  rw [if_pos hw, laterTick_passTo (clockRuns_of_seqUp hup)]

theorem eventWaitEnd_eq (hw : (uword s q (getSeq s q).pc).wait = 4) (hg : goStarts s q = false) :
    eventWaitEnd q s = endWait q (getSeq s q) (uword s q (getSeq s q).pc) (passTo (getSeq s q).w s) := by
  unfold eventWaitEnd
  rw [atWait_acts hs ha hst (by simp [hw, hg])]
  dsimp only
  rw [if_neg (by omega)]

theorem markWaitEnd_eq (hw : (uword s q (getSeq s q).pc).wait = 5) (hmet : (getSeq s q).met = none) :
    markWaitEnd q s = endWait q (getSeq s q) (uword s q (getSeq s q).pc) (passTo (getSeq s q).w s) := by
  unfold markWaitEnd
  rw [atWait_acts hs ha hst (decide_eq_true ⟨hw, hmet⟩)]
  dsimp only
  rw [if_neg (by omega)]

end

theorem endWait_some {s : State} {q : Nat} {x : Seq} {u : Uword} {d : BitVec 48} (h : waitItem s q x u = some d) :
    endWait q x u s = metWait q d s := by simp [endWait, h]

theorem endWait_none {s : State} {q : Nat} {x : Seq} {u : Uword} (h : waitItem s q x u = none) : endWait q x u s = s := by
  simp [endWait, h]

/-- The item of a wait for a channel. -/
theorem waitItem_decision {s : State} {q : Nat} {x : Seq} {u : Uword} (h : u.wait = 3) :
    waitItem s q x u = resolvedFrom (getDch s u.dch).bc (getDch s u.dch).hist (x.w - 4) := by simp [waitItem, h]

theorem waitItem_event {s : State} {q : Nat} {x : Seq} {u : Uword} (h : u.wait = 4) : waitItem s q x u = x.met := by
  simp [waitItem, h]

theorem waitItem_mark {s : State} {q : Nat} {x : Seq} {u : Uword} (h : u.wait = 5) : waitItem s q x u =
    (x.marks.find? (fun m => decide (m.1 = u.dch % 16) && decide (0 ≤ ticksTo x.w m.2))).map (·.2) := by
  simp [waitItem, h]

section
variable {s : State} {q : Nat} (hs : Steady s q) (ha : (getSeq s q).ahead = []) (hst : (getSeq s q).st ≠ .stopped)
include hs hst

/-- A wait without a limit does not time out. -/
theorem waitTimeout_unlimited (h : rd s .seq q 0x07C 23 0 = 0) : waitTimeout q s = s := by
  unfold waitTimeout
  exact atWait_not hs hst (by simp [limitTick_eq, h])

include ha

theorem waitTimeout_eq (h : rd s .seq q 0x07C 23 0 ≠ 0) (h3 : 3 ≤ (uword s q (getSeq s q).pc).wait) :
    let x := getSeq s q
    let u := uword s q x.pc
    let known := passTo (timeoutTick q s x) s
    let v := if u.wait = 3 then bcastCatch u.dch (laterTick (x.w - 4) known.clk.tc) known else known
    (∀ d, waitItem v q x u = some d → waitTimeout q s = metWait q d v) ∧
      (waitItem v q x u = none → waitTimeout q s = timedOut q (x.w + BitVec.ofNat 48 (rd s .seq q 0x07C 23 0)) v) := by
  have hacts := atWait_acts hs ha hst (ok := fun x u => decide (3 ≤ u.wait) && (limitTick s q x).isSome)
    (first := timeoutTick q s) (f := fun x u t => match waitItem t q x u with
      | some d => metWait q d t
      | none => timedOut q ((limitTick s q x).getD x.w) t) (by simp [limitTick_eq, h, h3])
  intro x u known v
  have hout : waitTimeout q s = _ := hacts
  refine ⟨fun d hd => ?_, fun hd => ?_⟩
  · rw [hout]
    dsimp only
    rw [hd]
  · rw [hout]
    dsimp only
    rw [hd, limitTick_eq, if_neg h]
    rfl

end

end Sys2Proof.Machine
end

section
/-! Waits of a word end in the ticks their rules give (O25). -/

open Sys2Proof Sys2Proof.Machine

/-- Settles O25: a wait whose end is known by `waitExpiry_enters` and `waitExpiry_ends`, one that has met its item by
`metWait_enters`, one past its limit by `timedOut_enters`. -/
theorem waitsEndInTheirTicks : Obligations.WaitsEndInTheirTicks := by
  unfold Obligations.WaitsEndInTheirTicks
  intro s q a hup hl hm x hquiet hst ha u cnt lim enters after limit ends seen first
  have hq : q.val < 0x100 := by omega
  have hs : Steady s q.val := ⟨hq, hl, hm, hquiet⟩
  have hends {c : Instr} {g : State → State} {v : State} (hc : exec c s = .next (whenUp .seq g s)) (hv : Stands s v)
      (h3 : 3 ≤ u.wait) (hsucc : x.succ = some (.word a)) (hb : badLane s q.val a = none) {d : BitVec 48}
      (hg : g s = metWait q.val d v) : ends c d := by
    obtain ⟨hin, hlate⟩ := metWait_enters hs ha hsucc hb h3 hv d
    exact ⟨fun h => gives_of_up hup hc (hg ▸ hin h), fun h0 h => gives_of_up hup hc (hg ▸ hlate h0 h)⟩
  refine ⟨fun hsucc hw => ?fin, fun hsucc hb => ⟨fun hw => ?rel, fun hw => ?abs, fun hw => ?sync, fun hw hmet => ?goesOn,
    fun hw hmet d hd => ?decision, fun hw hg d hd => ?event, fun hw hmet m hm => ?mark, fun h0 => ?unlimited,
    fun h0 h3 => ?timeout⟩,
    fun hw hmet hd => ?noDecision, fun hw hg => ?noGo, fun hw hg hmet => ?noEvent, fun hw hmet hm => ?noMark⟩
  case fin =>
    obtain ⟨w, hn⟩ := nextWordTick_known (s := s) (q := q.val) (x := x) hw
    exact gives_of_up hup rfl (waitExpiry_ends hs ha hst hsucc hn)
  case rel => exact gives_of_up hup rfl (waitExpiry_enters hs ha hst hsucc hb (nextWordTick_rel hw)).1
  case abs => exact gives_of_up hup rfl (waitExpiry_enters hs ha hst hsucc hb (nextWordTick_abs hw))
  case sync => exact gives_of_up hup rfl (waitExpiry_enters hs ha hst hsucc hb (nextWordTick_sync hw)).1
  case goesOn =>
    have hn : nextWordTick s q.val x u = none := by rw [nextWordTick_data hw, hmet]; rfl
    exact next_of_up hup rfl ((waitExpiry_eq hs hst).trans (moveOn_waits hquiet hn))
  case decision =>
    refine hends rfl (v := seen) ((Stands.passTo _ s).trans (.bcastCatch ..)) (by omega) hsucc hb ?_
    rw [decisionWaitEnd_eq hs ha hst hup hw hmet]
    exact endWait_some ((waitItem_decision hw).trans hd)
  case noDecision =>
    refine next_of_up hup rfl ?_
    rw [decisionWaitEnd_eq hs ha hst hup hw hmet]
    exact endWait_none ((waitItem_decision hw).trans hd)
  case event =>
    refine hends rfl (v := passTo x.w s) (.passTo _ s) (by omega) hsucc hb ?_
    rw [eventWaitEnd_eq hs ha hst hw hg]
    exact endWait_some ((waitItem_event hw).trans hd)
  case noGo => exact next_of_up hup rfl (atWait_not hs hst (by simp [hg]))
  case noEvent =>
    refine next_of_up hup rfl ?_
    rw [eventWaitEnd_eq hs ha hst hw hg]
    exact endWait_none ((waitItem_event hw).trans hmet)
  case mark =>
    refine hends rfl (v := passTo x.w s) (.passTo _ s) (by omega) hsucc hb ?_
    rw [markWaitEnd_eq hs ha hst hw hmet]
    exact endWait_some ((waitItem_mark hw).trans (congrArg _ hm))
  case noMark =>
    refine next_of_up hup rfl ?_
    rw [markWaitEnd_eq hs ha hst hw hmet]
    exact endWait_none ((waitItem_mark hw).trans (congrArg _ hm))
  case unlimited => exact next_of_up hup rfl (waitTimeout_unlimited hs hst h0)
  case timeout =>
    intro known item
    let v : State := if u.wait = 3 then bcastCatch u.dch (laterTick (x.w - 4) known.clk.tc) known else known
    have hv : Stands s v := stands_seen ..
    obtain ⟨hsome, hnone⟩ := waitTimeout_eq hs ha hst h0 h3
    refine ⟨fun d hd hin => ?_, fun hall => ?_⟩
    · refine gives_of_up hup rfl ?_
      rw [hsome d hd]
      exact (metWait_enters hs ha hsucc hb h3 hv d).1 (.inr hin)
    · refine gives_of_up hup rfl ?_
      cases hi : item with
      | some d =>
        rw [hsome d hi]
        exact (metWait_enters hs ha hsucc hb h3 hv d).2 h0 (hall d hi)
      | none =>
        rw [hnone hi]
        exact timedOut_enters hs ha hsucc hb h3 hv limit
end

section
/-! Branches: a BR word, its decision, and a path that is taken or cancelled (O26). -/

namespace Sys2Proof.Machine

/-! ## A BR word -/

/-- The state in which a BR word comes to its branch: its LOOP_OP and its sweeps have acted. -/
def brActed (s : State) (q : Nat) : State :=
  sweepStep q (loopBreak q (loopPush q (passWord (getSeq s q) (getSeq s q).w s)))

/-- Only the sequencer itself differs. -/
def OnlySeq (q : Nat) (b t : State) : Prop := (∀ r, r ≠ q → getSeq t r = getSeq b r) ∧ { t with seqs := b.seqs } = b

theorem onlySeq_setSeq (b : State) (q : Nat) (x : Seq) : OnlySeq q b (setSeq b q x) :=
  ⟨fun _ hr => getSeq_setSeq_ne b x hr, rfl⟩

theorem OnlySeq.setSeq {q : Nat} {b t : State} (h : OnlySeq q b t) (x : Seq) : OnlySeq q b (setSeq t q x) :=
  ⟨fun r hr => (getSeq_setSeq_ne t x hr).trans (h.1 r hr), h.2⟩

/-- A BR word runs ahead: its branch, known for tick e, is still more than 4 ticks away, and the word says so (R94). -/
def RunsAhead (s : State) (q : Nat) (u : Uword) (e : BitVec 48) : Prop :=
  nextWordTick s q (getSeq s q) u = some e ∧ rdBit s .seq q 0x040 8 = true ∧ u.pred ≠ 0 ∧ (getSeq s q).ahead.length < 2 ∧
    0 < ticksTo s.clk.tc (e - 4)

/-- A sequencer that runs ahead along the predicted path of its branch, commit tick e. -/
def running (s : State) (q : Nat) (u : Uword) (e : BitVec 48) : Seq :=
  let y := getSeq s q
  let path : Nat := if u.pred = 2 then u.target else nextOf y.pc
  { y with
    succ := some (.word path), br := false, nextId := y.nextId + 1
    loops := y.loops.map (fun l => if l.start = brStart then { l with start := path } else l)
    ahead := y.ahead ++ [{
      id := y.nextId, word := y.pc, w := y.w, s := e, predTarget := decide (u.pred = 2), loops := y.loops
      calls := y.calls, sweeps := sweepsOf s q, met := y.met }] }

theorem getSeq_takeBranch (q pc : Nat) (toT : Bool) (u : Uword) (s : State) :
    let a := if toT then u.target else nextOf pc
    getSeq (takeBranch q pc toT u s) q = { getSeq s q with
      succ := some (.word a), br := false
      loops := (getSeq s q).loops.map (fun l => if l.start = brStart then { l with start := a } else l) } :=
  getSeq_setSeq_self ..

theorem takeBranch_regs (q pc : Nat) (toT : Bool) (u : Uword) (s : State) : (takeBranch q pc toT u s).regs = s.regs := rfl

theorem halted_iff (y : Seq) : (y.halt || y.st == .stopped) = true ↔ y.halt = true ∨ y.st = .stopped := by simp

section
variable {s : State} {q : Nat} (hs : Steady s q) (hn : (uword s q (getSeq s q).pc).next = 2)
    (hsucc : (getSeq s q).succ = none)
  (h9 : 999 ∉ (getSeq s q).did) (hst : (getSeq s q).st ≠ .stopped)
include hs hn hsucc h9 hst

/-- A BR word with its LOOP_OP and sweeps done stops, waits for its branch, or runs ahead. -/
theorem wordBr_spec :
    let u := uword s q (getSeq s q).pc
    let t := brActed s q
    let y := getSeq t q
    (y.halt = true ∨ y.st = .stopped → wordBr q s = t) ∧
    (y.halt = false → y.st ≠ .stopped →
      ((∀ e, ¬ RunsAhead t q u e) → wordBr q s = setSeq t q { y with br := true }) ∧
      ∀ e, RunsAhead t q u e →
        wordBr q s = setSeq (takeBranch q y.pc (decide (u.pred = 2)) u t) q (running t q u e)) := by
  intro u t y
  have hhalt : (getSeq s q).halt = false := hs.quiet.halt
  have hgo : (seqLive s q && !segMode s q && decide (u.next = 2) && decide ((getSeq s q).succ = none) &&
      !(getSeq s q).did.contains 999 && decide ((getSeq s q).st ≠ .stopped) && !(getSeq s q).halt) = true := by
    simp [hs.live, hs.micro, u, hn, hsucc, h9, hst, hhalt]
  unfold wordBr
  rw [seqTick_of_quiet hs.quiet]
  dsimp only
  rw [if_pos hgo, show sweepStep q (loopBreak q (loopPush q (passWord (getSeq s q) (getSeq s q).w s))) = t from rfl]
  refine ⟨fun h => if_pos ((halted_iff _).2 h), fun hh hs' => ?_⟩
  rw [if_neg fun h => ((halted_iff _).1 h).elim (fun e => absurd (e.symm.trans hh) (by decide)) hs']
  refine ⟨fun hnot => ?_, fun e he => ?_⟩
  · split
    next e hne =>
      refine if_neg fun h => hnot e ⟨hne, ?_⟩
      simpa [and_assoc] using h
    next => rfl
  · obtain ⟨hne, hrest⟩ := he
    split
    next e' hne' =>
      obtain rfl := Option.some.inj (hne.symm.trans hne')
      refine (if_pos (by simpa [and_assoc] using hrest)).trans ?_
      rw [getSeq_takeBranch]
      unfold running
      simp only [decide_eq_true_eq]
      rfl
    next hnone => exact absurd (hne.symm.trans hnone) (by simp)

/-- A BR word that runs ahead, and one that waits, leave everything else as it is. -/
theorem wordBr_onlySeq :
    let u := uword s q (getSeq s q).pc
    let t := brActed s q
    (getSeq t q).halt = false → (getSeq t q).st ≠ .stopped →
      ((∀ e, ¬ RunsAhead t q u e) → getSeq (wordBr q s) q = { getSeq t q with br := true } ∧ OnlySeq q t (wordBr q s)) ∧
      ∀ e, RunsAhead t q u e → getSeq (wordBr q s) q = running t q u e ∧ OnlySeq q t (wordBr q s) := by
  obtain ⟨-, hgoes⟩ := wordBr_spec hs hn hsucc h9 hst
  generalize brActed s q = t at hgoes
  intro u t' hh hs'
  obtain ⟨hwaits, hruns⟩ := hgoes hh hs'
  refine ⟨fun h => ?_, fun e h => ?_⟩
  · rw [hwaits h]
    exact ⟨getSeq_setSeq_self .., onlySeq_setSeq ..⟩
  · rw [hruns e h]
    exact ⟨getSeq_setSeq_self .., (onlySeq_setSeq ..).setSeq _⟩

end

end Sys2Proof.Machine
end

section
/-! The decision of a branch, and what becomes of its path (O26). -/

namespace Sys2Proof.Machine

/-! ## The decision -/

/-- Only events and tags were raised: sequencers, stores and the branch counters stand. -/
structure Charged (q : Nat) (b t : State) : Prop where
  seqs : t.seqs = b.seqs
  later : t.later = b.later
  stores : t.stores = b.stores
  reg : reg t .seq q 0x080 = reg b .seq q 0x080

section
variable {s t u : State} {q : Nat}

theorem Stands.charged (h : Stands s t) (hq : q < 0x100) : Charged q s t :=
  ⟨h.seqs, h.later, h.control.stores, h.control.reg q hq _ (by decide) (by decide)⟩

/-- The costs of a branch whose channel does not resolve at all. -/
theorem charged_late (bits : BitVec 8) (s : State) (hq : q < 0x100) :
    Charged q s (tagSeq q bits (raiseEvt .seq q 0 s)) ∧
      rdBit (tagSeq q bits (raiseEvt .seq q 0 s)) .seq q 0x010 0 = true := by
  refine ⟨((Stands.raiseEvt s q (by decide)).trans (.tagSeq ..)).charged hq, ?_⟩
  unfold rdBit
  rw [(Tagged.tagSeq ..).reg_off (by decide) (by decide)]
  exact rdBit_raiseEvt_self _ _ _ _ (by decide)

/-- What is seen of a word's channel in tick d. -/
def channelSeen (u : Uword) (d : BitVec 48) (s : State) : DState := bcastAt (bcastCatch u.dch d s) u.dch d

/-- What a decision by a channel's state costs the sequencer. -/
structure Decided (q : Nat) (c : DState) (s t : State) : Prop where
  seqs : t.seqs = s.seqs
  later : t.later = s.later
  stores : t.stores = s.stores
  wrong : rd t .seq q 0x080 31 16 = rd s .seq q 0x080 31 16
  resolved : ∀ b, c = .resolved b → rd t .seq q 0x080 15 0 = rd s .seq q 0x080 15 0
  counted : (∀ b, c ≠ .resolved b) → rd t .seq q 0x080 15 0 = min (rd s .seq q 0x080 15 0 + 1) 65535
  late : c = .unresolved ∨ c = .lost → rdBit t .seq q 0x010 0 = true

/-- A default is counted; one that is not by a VOID raises LATE. -/
theorem decided_default {v : State} {c : DState} (hv : Charged q s v) (hc : ∀ b, c ≠ .resolved b)
    (ht : Charged q (bump v .seq q 0x080 15 0 1) t)
    (hlate : c = .unresolved ∨ c = .lost → rdBit t .seq q 0x010 0 = true) : Decided q c s t where
  seqs := ht.seqs.trans hv.seqs
  later := ht.later.trans hv.later
  stores := ht.stores.trans hv.stores
  wrong := by
    unfold rd
    rw [ht.reg, ← hv.reg]
    exact rd_wr_field v _ _ _ _ _ _ _ _ (by decide) (by decide) (by decide)
  resolved b hb := absurd hb (hc b)
  counted _ := by
    unfold rd
    rw [ht.reg, ← hv.reg]
    exact rd_bump_self v _ _ _ _ _ _ (by decide) (by decide)
  late := hlate

theorem decideBr_decided (hq : q < 0x100) (u : Uword) (d : BitVec 48) (s : State) :
    Decided q (channelSeen u d s) s (decideBr q u d s).2 := by
  have hv : Charged q s (bcastCatch u.dch d s) := (Stands.bcastCatch u.dch d s).charged hq
  unfold decideBr
  dsimp only
  rw [show bcastAt (bcastCatch u.dch d s) u.dch d = channelSeen u d s from rfl]
  split
  next b hb =>
    rw [hb]
    exact ⟨hv.seqs, hv.later, hv.stores, congrArg (fget · 31 16) hv.reg, fun _ _ => congrArg (fget · 15 0) hv.reg,
      fun h => absurd rfl (h b), fun h => by simp at h⟩
  next hc =>
    rw [hc]
    exact decided_default hv (fun _ h => by simp at h) ⟨rfl, rfl, rfl, rfl⟩ fun h => by simp at h
  next hc =>
    rw [hc]
    obtain ⟨hch, hlate⟩ := charged_late tagLate (bump (bcastCatch u.dch d s) .seq q 0x080 15 0 1) hq
    exact decided_default hv (fun _ h => by simp at h) hch fun _ => hlate
  next hc =>
    rw [hc]
    obtain ⟨hch, hlate⟩ := charged_late (tagLate ||| tagCorrupt) (bump (bcastCatch u.dch d s) .seq q 0x080 15 0 1) hq
    exact decided_default hv (fun _ h => by simp at h) hch fun _ => hlate

/-- A branch goes by its channel where that is resolved, and by the default else. -/
theorem decideBr_way (q : Nat) (u : Uword) (d : BitVec 48) (s : State) :
    (∀ b, channelSeen u d s = .resolved b → (decideBr q u d s).1 = (b == u.pol)) ∧
      ((∀ b, channelSeen u d s ≠ .resolved b) → (decideBr q u d s).1 = u.defT) := by
  unfold decideBr
  dsimp only
  rw [show bcastAt (bcastCatch u.dch d s) u.dch d = channelSeen u d s from rfl]
  split
  next b hb =>
    refine ⟨fun c hc => ?_, fun h => absurd hb (h b)⟩
    obtain rfl : b = c := DState.resolved.inj (hb.symm.trans hc)
    rfl
  all_goals
    next hc => exact ⟨fun b hb => absurd (hc.symm.trans hb) (by simp), fun _ => rfl⟩

/-! ## Resolutions -/

/-- The resolutions that a sequencer's gates still wait for, after those of more branches. -/
def gatesAfter (q : Nat) (g : List (Nat × Bool × BitVec 48)) (l : List Ahead) (ok : Bool) : List (Nat × Bool × BitVec 48) :=
  if q < 112 then g ++ l.map (fun b => (depOf q b.id, ok, b.s + 22)) else g

theorem sendResolution_spec (q : Nat) (e : Ahead) (ok : Bool) (s : State) :
    getSeq (sendResolution q e ok s) q = { getSeq s q with gates := gatesAfter q (getSeq s q).gates [e] ok } ∧
      ∃ seqs jobs, sendResolution q e ok s = { s with seqs := seqs, ladleJobs := jobs } := by
  unfold sendResolution gatesAfter
  dsimp only
  by_cases hq : q < 112
  · simp only [if_pos hq]
    split
    · exact ⟨getSeq_setSeq_self .., _, _, rfl⟩
    · exact ⟨getSeq_setSeq_self .., _, s.ladleJobs, rfl⟩
  · simp only [if_neg hq]
    rw [if_neg (by omega)]
    exact ⟨rfl, s.seqs, s.ladleJobs, rfl⟩

theorem resolutions_spec (q : Nat) (ok : Bool) : ∀ (l : List Ahead) (s : State),
    getSeq (l.foldl (fun t b => sendResolution q b ok t) s) q =
        { getSeq s q with gates := gatesAfter q (getSeq s q).gates l ok } ∧
      ∃ seqs jobs, l.foldl (fun t b => sendResolution q b ok t) s = { s with seqs := seqs, ladleJobs := jobs }
  | [], s => ⟨by simp [gatesAfter], s.seqs, s.ladleJobs, rfl⟩
  | e :: l, s => by
    obtain ⟨hseq, seqs, jobs, hs⟩ := sendResolution_spec q e ok s
    obtain ⟨hseq', seqs', jobs', hs'⟩ := resolutions_spec q ok l (sendResolution q e ok s)
    have hgates : gatesAfter q (gatesAfter q (getSeq s q).gates [e] ok) l ok =
      gatesAfter q (getSeq s q).gates (e :: l) ok := by
      unfold gatesAfter
      split <;> simp
    rw [List.foldl_cons]
    refine ⟨?_, seqs', jobs', ?_⟩
    · rw [hseq', hseq, ← hgates]
    · rw [hs', hs]

/-! ## Paths -/

/-- The sweeps of a cancelled path are put back. -/
theorem putSweeps_eq (q : Nat) (l : List (Nat × Int × Nat)) : ∀ s : State,
    ∃ tones fluxes, l.foldl (putSweep q) s = { s with tones := tones, fluxes := fluxes } := by
  induction l with
  | nil => exact fun s => ⟨s.tones, s.fluxes, rfl⟩
  | cons e l ih =>
    intro s
    obtain ⟨tones, fluxes, h⟩ := ih (putSweep q s e)
    exact ⟨tones, fluxes, by rw [List.foldl_cons, h, putSweep_eq]⟩

/-- A sequencer stands at its branch again and goes the other way; the wrong guess is counted. -/
theorem cancelPath_spec (q : Nat) (e : Ahead) (toT : Bool) (u : Uword) (s : State) :
    let t := cancelPath q e toT u s
    (getSeq t q).succ = some (.word (if toT then u.target else nextOf e.word)) ∧ (getSeq t q).pc = e.word ∧
      (getSeq t q).w = e.w ∧ (getSeq t q).calls = e.calls ∧ (getSeq t q).met = e.met ∧
      (getSeq t q).loops.length = e.loops.length ∧ (getSeq t q).ahead = [] ∧ (getSeq t q).gates = (getSeq s q).gates ∧
      t.regs = (bump s .seq q 0x080 31 16 1).regs := by
  let s1 : State := setSeq s q { getSeq s q with
    pc := e.word, w := e.w, succ := none, did := [999], br := false, met := e.met, halt := false, preSwp := [],
    loops := e.loops, calls := e.calls, ahead := [], st := if (getSeq s q).st == .mchk then .mchk else .run }
  obtain ⟨tones, fluxes, h2⟩ := putSweeps_eq q e.sweeps s1
  have hcancel : cancelPath q e toT u s =
      takeBranch q e.word toT u (bump { s1 with tones := tones, fluxes := fluxes } .seq q 0x080 31 16 1) := by
    rw [← h2]
    rfl
  intro t
  have ht : getSeq t q = _ := (congrArg (getSeq · q) hcancel).trans (getSeq_takeBranch ..)
  have hx : getSeq (bump { s1 with tones := tones, fluxes := fluxes } .seq q 0x080 31 16 1) q = getSeq s1 q := rfl
  rw [hx, getSeq_setSeq_self] at ht
  rw [ht]
  exact ⟨rfl, rfl, rfl, rfl, rfl, by simp, rfl, rfl, (congrArg State.regs hcancel).trans rfl⟩

end

end Sys2Proof.Machine
end

section
/-! The commands that resolve branches and carry resolutions to the converters (O26). -/

namespace Sys2Proof.Machine

/-! ## Branch resolution -/

/-- The path of a prediction that stands goes on, its resolution on its way. -/
def pathKept (q : Nat) (e : Ahead) (l : List Ahead) (s : State) : State :=
  let t := sendResolution q e true s
  setSeq t q { getSeq t q with ahead := l }

theorem pathKept_spec (q : Nat) (e : Ahead) (l : List Ahead) (s : State) :
    getSeq (pathKept q e l s) q = { getSeq s q with ahead := l, gates := gatesAfter q (getSeq s q).gates [e] true } ∧
      (pathKept q e l s).later = s.later ∧ (pathKept q e l s).stores = s.stores ∧ (pathKept q e l s).regs = s.regs := by
  obtain ⟨hseq, seqs, jobs, ht⟩ := sendResolution_spec q e true s
  refine ⟨?_, (congrArg State.later ht :), (congrArg State.stores ht :), (congrArg State.regs ht :)⟩
  unfold pathKept
  rw [getSeq_setSeq_self, hseq]

theorem bump_regs_congr {s t : State} (h : t.regs = s.regs) (pt : PT) (n off hi lo k : Nat) :
    (bump t pt n off hi lo k).regs = (bump s pt n off hi lo k).regs := by
  unfold bump wr setReg
  rw [rd_congr h, reg_congr h, h]

section
variable {s : State} {q : Nat} (hs : Steady s q)
include hs

/-- Where no branch waits for its resolution, nothing happens. -/
theorem branchResolve_none (ha : (getSeq s q).ahead = [])
    (h : (getSeq s q).br = false ∨ nextWordTick s q (getSeq s q) (uword s q (getSeq s q).pc) = none) :
    branchResolve q s = s := by
  have hopen : branchOpen s q = true := by simp [branchOpen, hs.live]
  unfold branchResolve
  rw [seqTick_of_quiet hs.quiet]
  dsimp only
  rw [if_neg (by simp [hopen, hs.micro]), ha]
  rcases h with h | h
  · exact if_neg (by simp [h])
  · dsimp only
    split
    · rw [h]
    · rfl

/-- A branch of the current word is decided 4 ticks before it. -/
theorem branchResolve_current (ha : (getSeq s q).ahead = []) (hbr : (getSeq s q).br = true) {e : BitVec 48}
    (hn : nextWordTick s q (getSeq s q) (uword s q (getSeq s q).pc) = some e) :
    let u := uword s q (getSeq s q).pc
    let r := decideBr q u (e - 4) (passTo (e - 4) s)
    branchResolve q s = takeBranch q (getSeq s q).pc r.1 u r.2 := by
  have hopen : branchOpen s q = true := by simp [branchOpen, hs.live]
  unfold branchResolve
  rw [seqTick_of_quiet hs.quiet]
  dsimp only
  rw [if_neg (by simp [hopen, hs.micro]), ha]
  dsimp only
  rw [if_pos hbr, hn]

/-- The oldest branch run ahead of is decided 4 ticks before its commit tick. -/
theorem branchResolve_ahead {e : Ahead} {l : List Ahead} {toT : Bool} {w : State} (ha : (getSeq s q).ahead = e :: l)
    (hr : decideBr q (uword s q e.word) (e.s - 4) (passTo (e.s - 4) s) = (toT, w)) :
    (toT = e.predTarget → e.kept = [] → SeqQuiet (pathKept q e l w) q → (getSeq (pathKept q e l w) q).br = false →
      branchResolve q s = pathKept q e l w) ∧
    (toT ≠ e.predTarget → branchResolve q s = cancelPath q e toT (uword s q e.word)
      ((e :: l).foldl (fun t b => sendResolution q b false t) w)) := by
  have hopen : branchOpen s q = true := by simp [branchOpen, hs.live]
  have hres : branchResolve q s =
      if (toT == e.predTarget) = true then
        let s4 := seqTick q (applyKept q e.kept (setSeq (sendResolution q e (toT == e.predTarget) w) q
          { getSeq (sendResolution q e (toT == e.predTarget) w) q with ahead := l }))
        if (getSeq s4 q).br then wordBr q (setSeq s4 q { getSeq s4 q with br := false }) else s4
      else cancelPath q e toT (uword s q e.word)
        (l.foldl (fun t b => sendResolution q b false t) (sendResolution q e (toT == e.predTarget) w)) := by
    unfold branchResolve
    rw [seqTick_of_quiet hs.quiet]
    dsimp only
    rw [if_neg (by simp [hopen, hs.micro]), ha]
    dsimp only
    rw [hr]
  rw [hres]
  refine ⟨fun hok hkept hquiet hbr => ?_, fun hne => ?_⟩
  · have hkeeps : applyKept q [] (setSeq (sendResolution q e true w) q
        { getSeq (sendResolution q e true w) q with ahead := l }) = pathKept q e l w := rfl
    rw [show (toT == e.predTarget) = true by simpa using hok, if_pos rfl, hkept, hkeeps, seqTick_of_quiet hquiet]
    exact if_neg (by simp [hbr])
  · rw [show (toT == e.predTarget) = false by simpa using hne]
    exact if_neg (by decide)

/-- A prediction that stands: the path goes on, and its resolution is on its way to the gates. -/
theorem branchResolve_stands {e : Ahead} {l : List Ahead} {toT : Bool} {w : State} (ha : (getSeq s q).ahead = e :: l)
    (hr : decideBr q (uword s q e.word) (e.s - 4) (passTo (e.s - 4) s) = (toT, w)) (hbr : (getSeq s q).br = false)
    (hok : toT = e.predTarget) (hkept : e.kept = []) :
    getSeq (branchResolve q s) q = { getSeq s q with ahead := l, gates := gatesAfter q (getSeq s q).gates [e] true } ∧
      (branchResolve q s).regs = w.regs := by
  have hd : Decided q _ (passTo (e.s - 4) s) w :=
    congrArg Prod.snd hr ▸ decideBr_decided hs.lt (uword s q e.word) (e.s - 4) _
  have hw : getSeq w q = getSeq s q := (getSeq_congr hd.seqs q).trans (getSeq_passTo _ s q)
  obtain ⟨hv, hlater, hstores, hregs⟩ := pathKept_spec q e l w
  rw [hw] at hv
  have hquiet : SeqQuiet (pathKept q e l w) q :=
    hs.quiet.of_alike (hlater.trans (hd.later.trans (passTo_later ..))) (hstores.trans (hd.stores.trans (passTo_stores ..)))
      (by rw [hv]; exact ⟨rfl, rfl, rfl, rfl, rfl, rfl, rfl, rfl, rfl⟩)
  rw [(branchResolve_ahead hs ha hr).1 hok hkept hquiet (by rw [hv]; exact hbr)]
  exact ⟨hv, hregs⟩

/-- A wrong prediction: the sequencer stands at the branch again and goes the other way, and the path's resolutions,
all wrong, are on their way to the gates. -/
theorem branchResolve_wrong {e : Ahead} {l : List Ahead} {toT : Bool} {w : State} (ha : (getSeq s q).ahead = e :: l)
    (hr : decideBr q (uword s q e.word) (e.s - 4) (passTo (e.s - 4) s) = (toT, w)) (hne : toT ≠ e.predTarget) :
    let t := branchResolve q s
    ((getSeq t q).succ = some (.word (if toT then (uword s q e.word).target else nextOf e.word)) ∧
      (getSeq t q).pc = e.word ∧ (getSeq t q).w = e.w ∧ (getSeq t q).calls = e.calls ∧ (getSeq t q).met = e.met ∧
      (getSeq t q).loops.length = e.loops.length ∧ (getSeq t q).ahead = [] ∧
      (getSeq t q).gates = gatesAfter q (getSeq s q).gates (e :: l) false) ∧
    t.regs = (bump w .seq q 0x080 31 16 1).regs := by
  have hd : Decided q _ (passTo (e.s - 4) s) w :=
    congrArg Prod.snd hr ▸ decideBr_decided hs.lt (uword s q e.word) (e.s - 4) _
  have hw : getSeq w q = getSeq s q := (getSeq_congr hd.seqs q).trans (getSeq_passTo _ s q)
  obtain ⟨hseq, seqs, jobs, hsent⟩ := resolutions_spec q false (e :: l) w
  have ht := (branchResolve_ahead hs ha hr).2 hne
  generalize (e :: l).foldl (fun t b => sendResolution q b false t) w = v at hseq hsent ht
  obtain ⟨hsucc, hpc, hword, hcalls, hmet, hloops, hahead, hgates, hregs⟩ := cancelPath_spec q e toT (uword s q e.word) v
  intro t
  rw [show t = _ from ht]
  refine ⟨⟨hsucc, hpc, hword, hcalls, hmet, hloops, hahead, ?_⟩,
    hregs.trans (bump_regs_congr (congrArg State.regs hsent :) ..)⟩
  rw [hgates, hseq, hw]

end

/-- A wrong guess is counted beside the defaults. -/
theorem wrong_counted {w t : State} {q : Nat} (h : t.regs = (bump w .seq q 0x080 31 16 1).regs) :
    rd t .seq q 0x080 31 16 = min (rd w .seq q 0x080 31 16 + 1) 65535 ∧ rd t .seq q 0x080 15 0 = rd w .seq q 0x080 15 0 ∧
      rdBit t .seq q 0x010 0 = rdBit w .seq q 0x010 0 := by
  rw [rd_congr h, rd_congr h, rdBit_congr h]
  exact ⟨rd_bump_self w _ _ _ _ _ _ (by decide) (by decide),
    rd_wr_field w _ _ _ _ _ _ _ _ (by decide) (by decide) (by decide),
    rdBit_wr_ne w _ _ _ _ _ _ _ (addrOf_ne_off (by decide))⟩

/-! ## Resolutions at the gates -/

namespace Worked

variable {Q : Nat → Prop} {b s t : State}

/-- The clock may be set for an operation and put back. -/
theorem reclock {c : Clock} {k : ThisTick} (h : Worked Q { b with clk := c } t) :
    Worked Q b { t with clk := b.clk, tick := k } where
  still := by
    obtain ⟨-, hboot, hresetting, hunchecked, hstores, hpantry, haccepted, hcalWin, hheld⟩ := still_eq h.still
    simp only [Machine.still, hboot, hresetting, hunchecked, hstores, hpantry, haccepted, hcalWin, hheld]
  regs := h.regs
  evts := h.evts
  groups := h.groups
  others := h.others
  seqs := h.seqs

protected theorem atTick {f : State → State} {x : BitVec 48} (hf : ∀ u, Worked Q u (f u)) (h : Worked Q b s) :
    Worked Q b (atTick x f s) := by
  unfold Machine.atTick
  split
  · exact h.trans (hf s)
  · exact h.trans (hf _).reclock

protected theorem raiseBit {pt : PT} {n off i : Nat} (hp : 0x110 ≤ ptBase pt) (h : Worked Q b s) :
    Worked Q b (raiseBit pt n off i s) := by
  rw [raiseBit_eq]
  exact (h.wr hp).frame (by rfl)

protected theorem sendResult {r : Res} {due : BitVec 48} {group : Option Nat} {deps : List Nat} (h : Worked Q b s) :
    Worked Q b (sendResult r due group deps s) := by
  unfold Machine.sendResult
  extract_lets n s1 st s2 t s3
  have h1 : Worked Q b s1 := .wrAll (.wrAll h (by decide)) (by decide)
  have h2 : Worked Q b s2 := .raiseBit (by decide) (.wrAll h1 (by decide))
  have h3 : Worked Q b s3 := by
    refine .ite ?_ h2
    split
    · exact .tagShot (.bump h2 (by decide))
    · exact .bump h2 (by decide)
  exact h3.frame (by rfl)

protected theorem readCatch {d : Nat} (h : Worked Q b s) : Worked Q b (readCatch d s) := by
  unfold Machine.readCatch
  exact .ite (.foldl (fun h => .atTick (fun u => .sendResult (.refl Q u)) h) (.frame h (by rfl))) h

/-- A branch resolves at a demodulator. -/
protected theorem dmResolve {dep : Nat} {ok : Bool} {d : Nat} (h : Worked Q b s) : Worked Q b (dmResolve dep ok s d) := by
  unfold Machine.dmResolve
  exact .ite (.readCatch (.frame h (by rfl))) (.frame h (by rfl))

protected theorem strmResolve {out dep : Nat} {ok : Bool} {n : Nat} (h : Worked Q b s) :
    Worked Q b (strmResolve out dep ok s n) := by
  unfold Machine.strmResolve
  exact .ite h (.ite (.frame h (by rfl)) (.frame h (by rfl)))

/-- A branch resolves at a drive or probe output. -/
protected theorem outResolve {out dep : Nat} {ok : Bool} (h : Worked Q b s) : Worked Q b (outResolve out dep ok s) := by
  unfold Machine.outResolve
  refine .foldl .strmResolve (.foldl (fun h => ?_) h.outCatch)
  rw [cutStreams_eq]
  exact h.frame (by rfl)

protected theorem fluxResolve {o dep : Nat} {ok : Bool} (h : Worked Q b s) : Worked Q b (fluxResolve o dep ok s) :=
  h.frame (by rfl)

/-- A result word whose path is cancelled. -/
protected theorem voidSent {i : Item} (h : Worked Q b s) : Worked Q b (voidSent i s) := by
  unfold Machine.voidSent
  split
  · extract_lets n s1 s2
    have h2 : Worked Q b s2 := .wr (.wr (.bump h (by decide)) (by decide)) (by decide)
    split
    · exact h2.tagShot
    · exact h2
  · exact h

end Worked

/-! ## Items on their way -/

theorem voidSent_items (i : Item) (s : State) : (voidSent i s).items = s.items := by
  unfold voidSent
  split
  · extract_lets n s1 s2
    split
    · exact (congrArg State.items (Tagged.tagShot ..).rest :)
    · rfl
  · rfl

theorem outResolve_items (out dep : Nat) (ok : Bool) (s : State) : (outResolve out dep ok s).items = s.items := by
  have hstrm (t : State) (n : Nat) : (strmResolve out dep ok t n).items = t.items := by
    unfold strmResolve
    dsimp only
    split
    · rfl
    · split <;> rfl
  have htone (t : State) (k : Nat) :
      (cutStreams out k (setTone t out k (toneResolve dep ok (getTone t out k)))).items = t.items := by
    rw [cutStreams_eq]
    rfl
  have hfold {f : State → Nat → State} (hf : ∀ t n, (f t n).items = t.items) (l : List Nat) (t : State) :
      (l.foldl f t).items = t.items :=
    foldl_rel (fun s t => t.items = s.items) (fun _ => rfl) (fun _ _ _ h h' => h'.trans h) f hf l t
  unfold outResolve
  rw [hfold hstrm, hfold htone]
  exact (OutWork.outCatch out s).items

theorem fluxResolves_rest (dep : Nat) (ok : Bool) (g : Nat → Nat) (l : List Nat) (s : State) :
    (l.foldl (fun t k => fluxResolve (g k) dep ok t) s).items = s.items ∧
      (l.foldl (fun t k => fluxResolve (g k) dep ok t) s).regs = s.regs :=
  foldl_rel (fun s t => t.items = s.items ∧ t.regs = s.regs) (fun _ => ⟨rfl, rfl⟩)
    (fun _ _ _ h h' => ⟨h'.1.trans h.1, h'.2.trans h.2⟩) (fun t k => fluxResolve (g k) dep ok t)
    (fun _ _ => ⟨rfl, rfl⟩) l s

end Sys2Proof.Machine
end

section
/-! A resolution as it reaches the converter groups (O26). -/

namespace Sys2Proof.Machine

/-- What a resolution makes of the items on their way. -/
def resolveItems (dep : Nat) (ok : Bool) (s : State) : State :=
  let t := if ok then s else (s.items.filter (fun i => i.deps.contains dep)).foldl (fun t i => voidSent i t) s
  { t with items := t.items.filterMap (resolveItem dep ok) }

/-- What it makes of the sequencer's outputs. -/
def resolveOutputs (q dep : Nat) (ok : Bool) (s : State) : State :=
  if q < 64 then outResolve q dep ok s
  else if q < 80 then
    (List.range 32).foldl (fun t i => dmResolve dep ok t (32 * (q - 64) + i)) (outResolve q dep ok s)
  else if q < 112 then (List.range 8).foldl (fun t k => fluxResolve (8 * (q - 80) + k) dep ok t) s
  else s

section
variable {s : State} {q dep : Nat} {ok : Bool} {due : BitVec 48} {l : List (Nat × Bool × BitVec 48)}

/-- The sequencer has its oldest resolution no more, in the tick in which that is due. -/
def gateTaken (s : State) (q : Nat) (due : BitVec 48) (l : List (Nat × Bool × BitVec 48)) : State :=
  setSeq (passTo due s) q { getSeq (passTo due s) q with gates := l }

theorem getSeq_gateTaken (s : State) (q : Nat) (due : BitVec 48) (l : List (Nat × Bool × BitVec 48)) :
    getSeq (gateTaken s q due l) q = { getSeq s q with gates := l } := by
  rw [gateTaken, getSeq_setSeq_self, getSeq_passTo]

theorem commitGate_eq (h : (getSeq s q).gates = (dep, ok, due) :: l) :
    let t := resolveOutputs q dep ok (resolveItems dep ok (gateTaken s q due l))
    commitGate q s = if 64 ≤ q ∧ q < 80 then ladleResolve dep ok t.clk.tc (ladleCatch t) else t := by
  unfold commitGate gateTaken resolveOutputs resolveItems
  dsimp only
  rw [h]

theorem resolveItems_worked (s : State) : Worked (fun _ => False) s (resolveItems dep ok s) := by
  unfold resolveItems
  extract_lets t
  have ht : Worked (fun _ => False) s t := .ite (.refl _ s) (.foldl .voidSent (.refl _ s))
  exact ht.frame (by rfl)

theorem resolveItems_items (s : State) : (resolveItems dep ok s).items = s.items.filterMap (resolveItem dep ok) := by
  have hvoid (l : List Item) (t : State) : (l.foldl (fun t i => voidSent i t) t).items = t.items :=
    foldl_rel (fun s t => t.items = s.items) (fun _ => rfl) (fun _ _ _ h h' => h'.trans h) (fun t i => voidSent i t)
      (fun t i => voidSent_items i t) l t
  unfold resolveItems
  dsimp only
  split
  · rfl
  · rw [hvoid]

theorem resolveOutputs_worked (s : State) : Worked (fun _ => False) s (resolveOutputs q dep ok s) :=
  .ite (.outResolve (.refl _ s)) (.ite (.foldl .dmResolve (.outResolve (.refl _ s)))
    (.ite (.foldl .fluxResolve (.refl _ s)) (.refl _ s)))

/-- Outside the read-out sequencers no item comes of it. -/
theorem resolveOutputs_items (hq : q < 64 ∨ 80 ≤ q) (s : State) : (resolveOutputs q dep ok s).items = s.items := by
  unfold resolveOutputs
  split
  · exact outResolve_items ..
  · rw [if_neg (by omega)]
    split
    · exact (fluxResolves_rest dep ok (fun k => 8 * (q - 80) + k) (List.range 8) s).1
    · rfl

theorem resolveOutputs_regs (hq : 80 ≤ q) (s : State) : (resolveOutputs q dep ok s).regs = s.regs := by
  unfold resolveOutputs
  rw [if_neg (by omega), if_neg (by omega)]
  split
  · exact (fluxResolves_rest dep ok (fun k => 8 * (q - 80) + k) (List.range 8) s).2
  · rfl

/-- A resolution reaches the items on their way and the sequencer's outputs in its due tick, and nothing else. -/
theorem commitGate_spec (h : (getSeq s q).gates = (dep, ok, due) :: l) :
    let t := commitGate q s
    getSeq t q = { getSeq s q with gates := l } ∧ (∀ r, r ≠ q → getSeq t r = getSeq s r) ∧ t.stores = s.stores ∧
      t.clk = (passTo due s).clk ∧ (q < 64 ∨ 80 ≤ q → t.items = s.items.filterMap (resolveItem dep ok)) ∧
      (ok = true → 80 ≤ q → t.regs = s.regs) := by
  intro t
  let v : State := gateTaken s q due l
  let z : State := resolveOutputs q dep ok (resolveItems dep ok v)
  have hz : Worked (fun _ => False) v z := (resolveItems_worked v).trans (resolveOutputs_worked _)
  have ht : t = if 64 ≤ q ∧ q < 80 then ladleResolve dep ok z.clk.tc (ladleCatch z) else z := commitGate_eq h
  have hw : Worked (fun _ => False) v t := by
    rw [ht]
    exact .ite (.ladleResolve (.ladleCatch hz)) hz
  have hseqs : t.seqs = v.seqs := hw.seqs fun _ hn => hn
  refine ⟨(getSeq_congr hseqs q).trans (getSeq_gateTaken ..), fun r hr => ?_, hw.stores.trans (passTo_stores due s),
    hw.clk, fun hq => ?_, fun hok hq => ?_⟩
  · exact (getSeq_congr hseqs r).trans ((getSeq_setSeq_ne _ _ hr).trans (getSeq_passTo due s r))
  · rw [ht, if_neg (by omega)]
    exact (resolveOutputs_items hq _).trans ((resolveItems_items v).trans (congrArg _ (passTo_items due s)))
  · subst hok
    rw [ht, if_neg (by omega)]
    exact (resolveOutputs_regs hq _).trans (passTo_regs due s)

/-- Where no resolution waits, none is delivered. -/
theorem commitGate_none (h : (getSeq s q).gates = []) : commitGate q s = s := by
  unfold commitGate
  dsimp only
  rw [h]

end

end Sys2Proof.Machine
end

section
/-! Branches resolve, run ahead and cancel what a wrong guess sent (O26). -/

open Sys2Proof Sys2Proof.Machine

/-- Settles O26: a BR word by `wordBr_spec`; a branch by `decideBr_decided` and `decideBr_way`, its path by
`branchResolve_ahead` and `cancelPath_spec`; a resolution at the gates by `commitGate_spec`. -/
theorem branchesResolveAndRunAhead : Obligations.BranchesResolveAndRunAhead := by
  unfold Obligations.BranchesResolveAndRunAhead
  intro s q hup hl hm x hquiet u seen way defaults acted y runs rest gatesOf
  have hq : q.val < 0x100 := by omega
  have hs : Steady s q.val := ⟨hq, hl, hm, hquiet⟩
  have hway (v : Uword) (d : BitVec 48) : (decideBr q.val v d (passTo d s)).1 = way v d := by
    obtain ⟨hresolved, hdefault⟩ := decideBr_way q.val v d (passTo d s)
    cases hseen : seen v d with
    | resolved b => rw [hresolved b hseen]; simp only [way, hseen]
    | _ => rw [hdefault fun b hb => absurd (hseen.symm.trans hb) (by simp)]; simp only [way, hseen]
  have hdefaults {v : Uword} {d : BitVec 48} {t : State}
      (h15 : rd t .seq q.val 0x080 15 0 = rd (decideBr q.val v d (passTo d s)).2 .seq q.val 0x080 15 0)
      (h0 : rdBit (decideBr q.val v d (passTo d s)).2 .seq q.val 0x010 0 = true → rdBit t .seq q.val 0x010 0 = true) :
      defaults v d t := by
    have hd := decideBr_decided hq v d (passTo d s)
    have hbase : rd (passTo d s) .seq q.val 0x080 15 0 = rd s .seq q.val 0x080 15 0 := rd_congr (passTo_regs d s) ..
    exact ⟨fun b hb => h15.trans ((hd.resolved b hb).trans hbase),
      fun hb => h15.trans ((hd.counted hb).trans (by rw [hbase])),
      fun h => h0 (hd.late h)⟩
  refine ⟨fun hn hsucc h9 hst => ?br, fun ha hbr e hn => ?current,
    fun ha h => next_of_up hup rfl (branchResolve_none hs ha h),
    fun e r ha => ⟨fun hok hkept hbr => ?stands, fun hne => ?wrong⟩, fun h => next_of_up hup rfl (commitGate_none h),
    fun dep ok due r h => gives_of_up hup rfl (commitGate_spec h)⟩
  case br =>
    obtain ⟨hstops, -⟩ := wordBr_spec hs hn hsucc h9 hst
    have hgoes := wordBr_onlySeq hs hn hsucc h9 hst
    rw [show brActed s q.val = acted from rfl] at hstops hgoes
    clear_value acted
    refine ⟨fun h => next_of_up hup rfl (hstops h), fun hh hs' => ?_⟩
    obtain ⟨hwaits, hruns⟩ := hgoes hh hs'
    exact ⟨fun h => gives_of_up hup rfl (hwaits h), fun e h => gives_of_up hup rfl (hruns e h)⟩
  case current =>
    refine gives_of_up hup rfl ?_
    rw [branchResolve_current hs ha hbr hn, ← hway, getSeq_takeBranch]
    exact ⟨rfl, rfl, hdefaults (rd_congr (takeBranch_regs ..) ..) fun h => (rdBit_congr (takeBranch_regs ..) ..).trans h⟩
  case stands =>
    obtain ⟨hseq, hregs⟩ := branchResolve_stands hs ha (Prod.eta _).symm hbr ((hway _ _).trans hok) hkept
    exact gives_of_up hup rfl ⟨hseq, hdefaults (rd_congr hregs ..) fun h => (rdBit_congr hregs ..).trans h⟩
  case wrong =>
    obtain ⟨⟨hsucc, hpc, hword, hcalls, hmet, hloops, hahead, hgates⟩, hregs⟩ :=
      branchResolve_wrong hs ha (Prod.eta _).symm fun h => hne ((hway _ _).symm.trans h)
    obtain ⟨hwrong, h15, h0⟩ := wrong_counted hregs
    have hbase := (decideBr_decided hq (uword s q.val e.word) (e.s - 4) (passTo (e.s - 4) s)).wrong
    rw [rd_congr (passTo_regs (e.s - 4) s)] at hbase
    rw [hway] at hsucc
    exact gives_of_up hup rfl ⟨hsucc, hpc, hword, hcalls, hmet, hloops, hahead, hgates, hwrong.trans (by rw [hbase]),
      hdefaults h15 fun h => h0.trans h⟩
end
